-- ==== Sys2Proof/Word.lean ====
section
/-!
DEFINITION. The word types of the engine (R183, R185): bytes, 16-, 32-, 64- and 256-bit words.
-/
namespace Sys2Proof

/-- One byte of any memory of the engine. -/
abbrev Byte := BitVec 8
/-- A 16-bit word: BF16 and FP16 encodings (Table 2-1). -/
abbrev Half := BitVec 16
/-- A 32-bit word: control-port registers, vector lanes, address registers (R185, R420). -/
abbrev Word := BitVec 32
/-- A 64-bit word: scalar registers, descriptor registers (R185, R187). -/
abbrev DWord := BitVec 64
/-- A 128-bit word: log records and 16-byte dictionary values (R398, R438). -/
abbrev QWord := BitVec 128
/-- A flit of the Stack Link (R335). -/
abbrev Flit := BitVec 256
/-- A beat of a memory port (R284). -/
abbrev Beat := BitVec 512

end Sys2Proof
end

