-- ==== Sys2Proof/Syntax.lean ====
section
/-!
DEFINITION. The commands of the block, one constructor of `Instr` per row of spec/opcode_table.json, and the slot
operations a bundle is made of (R183 to R217).
-/
namespace Sys2Proof

/-- A core, numbered 5 × cluster + index as in CORE_MAP (PD 0x1100.05); index 4 is the spare. -/
abbrev CoreId := Fin 20
abbrev QueueId := Fin 64
abbrev PartId := Fin 8
abbrev PortId := Fin 4
abbrev ClusterId := Fin 4
/-- A Stack Link port: 0 east, 1 west (R354). -/
abbrev LinkId := Fin 2
abbrev SReg := Fin 32
abbrev AReg := Fin 16
abbrev VReg := Fin 32

/-- SEQ slot (Table 8-5). -/
inductive SeqOp where
  | loop (csrc : Bool) (len : BitVec 11) (cnt : BitVec 14)
  | skipz (s : SReg) (n : BitVec 11)
  | skipnz (s : SReg) (n : BitVec 11)
  | exitn (s : SReg)
  | call (s : SReg) (id : BitVec 16)
  | ret
  | wait (mask : BitVec 14)
  | delay (n : BitVec 16)
  | strip (d : SReg)
  | signal (e : Fin 16)
  | waitev (s : SReg) (e : Fin 16)
  | commit
  | halt
  deriving DecidableEq, Repr

/-- AGA slot (Table 8-6). -/
inductive AgaOp where
  | rows (ad : Fin 8) (aB : AReg) (sQ sY sB : SReg)
  | tap (ad : Fin 8) (aB : AReg) (sP sY : SReg) (vD : VReg) (padMax : Bool)
  | stld (row : Fin 4) (a : AReg) (tag : BitVec 2) (sLen : SReg) (doff : BitVec 13)
  deriving DecidableEq, Repr

/-- AGB slot (Table 8-8). -/
inductive AgbOp where
  | loadw (amask : BitVec 4) (bd : Fin 8) (a : AReg) (nr1 : Fin 32)
  | mvstream (bd : Fin 8) (a : AReg)
  | importTile (amask : BitVec 4) (bd : Fin 8) (a : AReg) (sFirst sCount : SReg)
  deriving DecidableEq, Repr

/-- DMA slot (Table 8-10). -/
inductive DmaOp where
  | dmov (t dd : Fin 8) (aN : AReg) (sF sL : SReg)
  | dexp (t dd : Fin 8) (sF sL : SReg)
  deriving DecidableEq, Repr

/-- MXA slot (Table 8-12). -/
inductive MxaOp where
  | pass (mt : Fin 8) (amask : BitVec 4) (sM sAcc : SReg) (init swap last : Bool)
  | readOut (mt : Fin 8) (amask : BitVec 4) (sFirst sCount : SReg)
  deriving DecidableEq, Repr

/-- MVP slot (Table 8-15). -/
inductive MvpOp where
  | mvpass (vt v1 : Fin 4) (init last : Bool) (sAcc sAoff : SReg)
  | mvread (vt v1 : Fin 4) (sAcc sN : SReg)
  deriving DecidableEq, Repr

/-- The two-operand lane operations of Table 5-5. -/
inductive VBin where
  | fadd | fsub | fmul | fmin | fmax | fcmplt | fcmple | fcmpeq
  | iadd | isub | imul | imin | imax | icmplt | icmpeq | and | or | xor | fscalb
  deriving DecidableEq, Repr

/-- The one-operand operations of Table 5-5, reductions included. -/
inductive VUn where
  | fabs | fneg | cvtif | cvtfi | fcexp | frsum | frmax | irsum
  deriving DecidableEq, Repr

/-- VEC slot (Tables 5-5 and 8-17). -/
inductive VecOp where
  | bin (f : VBin) (d a b : VReg)
  | fmad (d a b x : VReg)
  | sel (d a b x : VReg)
  | un (f : VUn) (d a : VReg)
  | shl (d a : VReg) (sh : Fin 32)
  | sra (d a : VReg) (sh : Fin 32)
  | frnd (d a : VReg) (f : BitVec 4)
  | curve (d a : VReg) (n : Fin 32)
  | vld (v : VReg) (a : AReg) (tag : BitVec 2) (off : BitVec 11)
  | vldw (v : VReg) (a : AReg) (tag : BitVec 2) (f : BitVec 4) (off : BitVec 11)
  | vst (v : VReg) (a : AReg) (tag : BitVec 2) (off : BitVec 11)
  | vstn (v : VReg) (a : AReg) (tag : BitVec 2) (f : BitVec 4) (off : BitVec 11)
  | sclw (v : VReg) (a : AReg) (tag : BitVec 2) (n1 : Fin 64) (off : BitVec 9)
  | vbcs (d : VReg) (s : SReg)
  | vext (d : SReg) (v : VReg) (lane : Fin 64)
  | argmax (d a : VReg) (sN sBase : SReg) (hi idx dir int : Bool)
  | topk (d a : VReg) (sN sBase : SReg) (hi idx dir int : Bool)
  deriving DecidableEq, Repr

/-- The three-register operations of Table 8-18. -/
inductive SBin where
  | add | sub | mul | and | or | xor | min | max | slt | shl | shr | sra
  deriving DecidableEq, Repr

/-- SCL slot (Table 8-18). -/
inductive SclOp where
  | bin (f : SBin) (d a b : SReg)
  | addi (d a : SReg) (imm : BitVec 16)
  | ori (d a : SReg) (imm : BitVec 16)
  | shli (d a : SReg) (imm : BitVec 16)
  | shri (d a : SReg) (imm : BitVec 16)
  | movi (d : SReg) (imm : BitVec 21)
  | amov (d : AReg) (s : SReg)
  | aadd (d a : AReg) (s : SReg)
  | amovi (d : AReg) (imm : BitVec 22)
  | smova (d : SReg) (a : AReg)
  | rdlc (d : SReg) (l : Fin 4)
  | setzp (s : SReg)
  | setos (s : SReg)
  | setinc (n : AReg) (l : Fin 4) (s : SReg)
  | setbind (n : AReg) (mask : BitVec 4)
  deriving DecidableEq, Repr

/-- One slot of a bundle (Table 8-1). -/
inductive SlotOp where
  | seq (o : SeqOp)
  | aga (o : AgaOp)
  | agb (o : AgbOp)
  | dma (o : DmaOp)
  | mxa (o : MxaOp)
  | mvp (o : MvpOp)
  | vec (o : VecOp)
  | scl (o : SclOp)
  deriving DecidableEq, Repr

/-- The slot number of Table 8-1. -/
def SlotOp.slot : SlotOp → Nat
  | .seq _ => 0 | .aga _ => 1 | .agb _ => 2 | .dma _ => 3
  | .mxa _ => 4 | .mvp _ => 5 | .vec _ => 6 | .scl _ => 7

/-- A unit of a core whose near-scratch access a tag can hold (R169). -/
inductive AccessUnit where
  | aga | agb | mvp | vec
  | dma (t : Fin 8)
  deriving DecidableEq, Repr

/-- The SRAMs that scrub visits (R181): near scratch, deep scratch, instruction memory, routine store, an
accumulator buffer (array 0 to 3, or 4 for the MVP). -/
inductive SramId where
  | near (c : CoreId)
  | deep
  | imem (c : CoreId)
  | store (cl : ClusterId)
  | acc (c : CoreId) (a : Fin 5)
  deriving DecidableEq, Repr

/-- What the SECDED check of a word finds (R179). -/
inductive EccOutcome where
  | clean | correctable | uncorrectable
  deriving DecidableEq, Repr

/-- One read of a page-table walk made outside a run (R308): the entry and RS_ERR. -/
structure WalkRead where
  pte : DWord
  err : BitVec 2
  deriving DecidableEq, Repr

/-- What a steward's read of host memory meets outside: the entries that its walks read, one list for each page that its cache does
not hold, in address order; the bytes returned; and, where these are not all, the RS_ERR in place of the next piece (R295), or none
where no response ever came (R296). -/
structure ReadResult where
  walks : List (List WalkRead)
  bytes : List Byte
  err : Option (BitVec 2)
  deriving DecidableEq, Repr

/-- Every response returned without error, and no walk was needed. -/
def ReadResult.data (bs : List Byte) : ReadResult := { walks := [], bytes := bs, err := none }

/-- The first response is an error. -/
def ReadResult.portError (err : BitVec 2) : ReadResult := { walks := [], bytes := [], err := some err }

/-- A partition and the answers to the reads by which the loader fills its run's cores with code (R224): one for each cluster of the
run, in order; not looked at where the image is resident. -/
structure RunLoad where
  part : PartId
  code : List ReadResult
  deriving DecidableEq, Repr

/-- Wake events of R363. -/
inductive WakeKind where
  | doorbell | rtDoorbell | rtArm | attach | pdCtrl | wakeAt | phyRise
  deriving DecidableEq, Repr

/-- The phases of Table 18-4, each with what it finds. -/
inductive PhaseDone where
  | power
  /-- the boot block (read by a cold start only, R401) and the slot image -/
  | image (boot img : ReadResult)
  | checks
  /-- bit s is 1 when steward s passes its memory test -/
  | firmware (pass : BitVec 4)
  /-- failing cores (CORE_MAP layout), failing arrays (ARRAY_MAP layout), a fault named by R404 -/
  | post (coreFail : BitVec 20) (arrayFail : BitVec 64) (controlFault : Bool)
  | dictionary
  deriving DecidableEq, Repr

/-- Outcomes of Table 18-5. -/
inductive StartOutcome where
  | success | readyTimeout | authFail | imageInvalid | rollback | postFail | watchdog | stewardLoss | fetchFail
  deriving DecidableEq, Repr

/-- The embedded instruments of Table 20-12. -/
inductive Instrument where
  | temp | aging | pll | droop | aon | mbist | lbist | eccInject
  deriving DecidableEq, Repr

/-- The commands of the block: one constructor per row of spec/opcode_table.json. A slot command names its core and
says with `eob` whether it is the last slot of its bundle. -/
inductive Instr where
  /-- LOOP (R191): SEQ opcode that opens a counted loop, snapshots the bound address registers and, for a count of 0, skips the body. -/
  | loop (c : CoreId) (eob : Bool) (csrc : Bool) (len : BitVec 11) (cnt : BitVec 14)
  /-- SKIPZ (R193): SEQ opcode that skips the next N bundles when the named scalar register is zero. -/
  | skipz (c : CoreId) (eob : Bool) (s : SReg) (n : BitVec 11)
  /-- SKIPNZ (R193): SEQ opcode that skips the next N bundles when the named scalar register is not zero. -/
  | skipnz (c : CoreId) (eob : Bool) (s : SReg) (n : BitVec 11)
  /-- EXITN (R194): SEQ opcode that leaves the innermost running loop when bit 63 of the named register is 1. -/
  | exitn (c : CoreId) (eob : Bool) (s : SReg)
  /-- CALL (R197): SEQ opcode that looks up a routine ID, saves caller state, narrows the near-scratch window and loads descriptor bank 1. -/
  | call (c : CoreId) (eob : Bool) (s : SReg) (id : BitVec 16)
  /-- RET (R197): SEQ opcode that restores the state saved by CALL and switches back to descriptor bank 0. -/
  | ret (c : CoreId) (eob : Bool)
  /-- WAIT (R200): SEQ opcode that holds issue until every condition selected in its mask holds. -/
  | wait (c : CoreId) (eob : Bool) (mask : BitVec 14)
  /-- DELAY (R189): SEQ opcode that holds the next bundle until n + 1 CCLK after it issues. -/
  | delay (c : CoreId) (eob : Bool) (n : BitVec 16)
  /-- STRIP (R201): SEQ opcode that takes the next number from the partition's strip counter, or all ones when the counter is exhausted. -/
  | strip (c : CoreId) (eob : Bool) (d : SReg)
  /-- SIGNAL (R202): SEQ opcode that increments a partition event counter once the core's earlier deep-scratch writes have landed. -/
  | signal (c : CoreId) (eob : Bool) (e : Fin 16)
  /-- SIGNAL_TAKES_EFFECT (R202): A pending SIGNAL increment takes effect after the core's earlier deep-scratch writes have landed. -/
  | signalTakesEffect (c : CoreId)
  /-- WAITEV (R202): SEQ opcode that holds issue while a partition event counter is below a register value. -/
  | waitev (c : CoreId) (eob : Bool) (s : SReg) (e : Fin 16)
  /-- COMMIT (R203): SEQ opcode that, once every R200 condition holds, sends the core's token to the collector and ends the core's part of the run. -/
  | commit (c : CoreId) (eob : Bool)
  /-- HALT (R204): SEQ opcode, allowed in test images only, that stops issue without sending a token. -/
  | halt (c : CoreId) (eob : Bool)
  /-- BUNDLE_ISSUE_HOLD_RELEASE (R189): A bundle held at issue by a condition of Table 8-4 issues in the CCLK after the condition clears. -/
  | bundleIssueHoldRelease (c : CoreId)
  /-- ROWS (R208): AGA opcode that streams the activation rows of the array pass in the same bundle, in PLAIN, WINDOW or TRANS mode. -/
  | rows (c : CoreId) (eob : Bool) (ad : Fin 8) (aB : AReg) (sQ sY sB : SReg)
  /-- TAP (R154): AGA opcode that performs a tap load of 64 channels of one window tap into a vector register. -/
  | tap (c : CoreId) (eob : Bool) (ad : Fin 8) (aB : AReg) (sP sY : SReg) (vD : VReg) (padMax : Bool)
  /-- STLD (R121): AGA opcode that loads bytes from near scratch into a row of the MVP activation store. -/
  | stld (c : CoreId) (eob : Bool) (row : Fin 4) (a : AReg) (tag : BitVec 2) (sLen : SReg) (doff : BitVec 13)
  /-- LOADW (R91): AGB opcode that loads the shadow weight registers of the arrays named in AMASK. -/
  | loadw (c : CoreId) (eob : Bool) (amask : BitVec 4) (bd : Fin 8) (a : AReg) (nr1 : Fin 32)
  /-- MVSTREAM (R209): AGB opcode that supplies the weight stream of the MVP pass issued in the same bundle. -/
  | mvstream (c : CoreId) (eob : Bool) (bd : Fin 8) (a : AReg)
  /-- IMPORT (R114): AGB opcode that combines a RAW tile into the accumulator rows with the mode's accumulate combine. -/
  | importTile (c : CoreId) (eob : Bool) (amask : BitVec 4) (bd : Fin 8) (a : AReg) (sFirst sCount : SReg)
  /-- DMOV (R211): DMA opcode that moves data between near scratch, deep scratch, remote windows and host memory, with optional ZB64 coding or atomic add. -/
  | dmov (c : CoreId) (eob : Bool) (t dd : Fin 8) (aN : AReg) (sF sL : SReg)
  /-- DEXP (R323): DMA opcode that reads HBC blocks from host memory through the cluster expander and delivers them to address generator B. -/
  | dexp (c : CoreId) (eob : Bool) (t dd : Fin 8) (sF sL : SReg)
  /-- DMA_COMMAND_END (R199): A DMA command ends: its last byte lands, or the memory port or Stack Link port accepts its last write or flit. -/
  | dmaCommandEnd (c : CoreId) (t : Fin 8)
  /-- PASS (R213): MXA opcode that starts an array pass on each array in AMASK, from a template and register-supplied M and ACC_ROW. -/
  | pass (c : CoreId) (eob : Bool) (mt : Fin 8) (amask : BitVec 4) (sM sAcc : SReg) (init swap last : Bool)
  /-- PASS_RESULT_LANDED (R88): A pass's accumulator entries are written at the bottom edge after the fill latency. -/
  | passResultLanded (c : CoreId)
  /-- READ (R111): MXA opcode that issues a separate read-out of a row range with the read-out fields of a template. -/
  | readOut (c : CoreId) (eob : Bool) (mt : Fin 8) (amask : BitVec 4) (sFirst sCount : SReg)
  /-- MVPASS (R118): MVP opcode that starts a matrix-vector pass multiplying one weight stream by 1 to 4 activation vectors. -/
  | mvpass (c : CoreId) (eob : Bool) (vt v1 : Fin 4) (init last : Bool) (sAcc sAoff : SReg)
  /-- MVREAD (R132): MVP opcode that issues a read-out of an entry range of the MVP accumulator. -/
  | mvread (c : CoreId) (eob : Bool) (vt v1 : Fin 4) (sAcc sN : SReg)
  /-- FADD (R135): VEC opcode: FP32 addition of the lanes. -/
  | fadd (c : CoreId) (eob : Bool) (d a b : VReg)
  /-- FSUB (R135): VEC opcode: FP32 subtraction of the lanes. -/
  | fsub (c : CoreId) (eob : Bool) (d a b : VReg)
  /-- FMUL (R46): VEC opcode: FP32 multiplication of the lanes, with the IEEE result for 0 times infinity. -/
  | fmul (c : CoreId) (eob : Bool) (d a b : VReg)
  /-- FMAD (R135): VEC opcode: FP32 multiply then add, with two roundings. -/
  | fmad (c : CoreId) (eob : Bool) (d a b x : VReg)
  /-- FMIN (R135): VEC opcode: FP32 lane minimum. -/
  | fmin (c : CoreId) (eob : Bool) (d a b : VReg)
  /-- FMAX (R135): VEC opcode: FP32 lane maximum. -/
  | fmax (c : CoreId) (eob : Bool) (d a b : VReg)
  /-- FABS (R135): VEC opcode: clears the sign bit of each lane. -/
  | fabs (c : CoreId) (eob : Bool) (d a : VReg)
  /-- FNEG (R135): VEC opcode: inverts the sign bit of each lane. -/
  | fneg (c : CoreId) (eob : Bool) (d a : VReg)
  /-- FCMPLT (R135): VEC opcode: FP32 less-than compare giving an all-ones or zero mask. -/
  | fcmplt (c : CoreId) (eob : Bool) (d a b : VReg)
  /-- FCMPLE (R135): VEC opcode: FP32 less-or-equal compare. -/
  | fcmple (c : CoreId) (eob : Bool) (d a b : VReg)
  /-- FCMPEQ (R135): VEC opcode: FP32 equality compare. -/
  | fcmpeq (c : CoreId) (eob : Bool) (d a b : VReg)
  /-- SEL (R135): VEC opcode: selects lanes of a or b according to c. -/
  | sel (c : CoreId) (eob : Bool) (d a b x : VReg)
  /-- IADD (R135): VEC opcode: saturating INT32 addition. -/
  | iadd (c : CoreId) (eob : Bool) (d a b : VReg)
  /-- ISUB (R135): VEC opcode: saturating INT32 subtraction. -/
  | isub (c : CoreId) (eob : Bool) (d a b : VReg)
  /-- IMUL (R135): VEC opcode: INT32 product saturated to INT32. -/
  | imul (c : CoreId) (eob : Bool) (d a b : VReg)
  /-- IMIN (R135): VEC opcode: signed INT32 minimum. -/
  | imin (c : CoreId) (eob : Bool) (d a b : VReg)
  /-- IMAX (R135): VEC opcode: signed INT32 maximum. -/
  | imax (c : CoreId) (eob : Bool) (d a b : VReg)
  /-- ICMPLT (R135): VEC opcode: signed INT32 less-than compare. -/
  | icmplt (c : CoreId) (eob : Bool) (d a b : VReg)
  /-- ICMPEQ (R135): VEC opcode: bitwise equality compare. -/
  | icmpeq (c : CoreId) (eob : Bool) (d a b : VReg)
  /-- VEC_AND (R135): VEC opcode AND: bitwise AND of lanes. -/
  | vecAnd (c : CoreId) (eob : Bool) (d a b : VReg)
  /-- VEC_OR (R135): VEC opcode OR: bitwise OR of lanes. -/
  | vecOr (c : CoreId) (eob : Bool) (d a b : VReg)
  /-- VEC_XOR (R135): VEC opcode XOR: bitwise XOR of lanes. -/
  | vecXor (c : CoreId) (eob : Bool) (d a b : VReg)
  /-- VEC_SHL (R135): VEC opcode SHL: logical left shift of lanes. -/
  | vecShl (c : CoreId) (eob : Bool) (d a : VReg) (sh : Fin 32)
  /-- VEC_SRA (R135): VEC opcode SRA: arithmetic right shift of lanes. -/
  | vecSra (c : CoreId) (eob : Bool) (d a : VReg) (sh : Fin 32)
  /-- CVTIF (R135): VEC opcode: INT32 to FP32 conversion. -/
  | cvtif (c : CoreId) (eob : Bool) (d a : VReg)
  /-- CVTFI (R135): VEC opcode: FP32 to INT32 conversion. -/
  | cvtfi (c : CoreId) (eob : Bool) (d a : VReg)
  /-- FRND (R135): VEC opcode: narrows lanes to a format and widens them back to FP32. -/
  | frnd (c : CoreId) (eob : Bool) (d a : VReg) (f : BitVec 4)
  /-- FCEXP (R135): VEC opcode: smallest integer exponent bounding each lane's magnitude. -/
  | fcexp (c : CoreId) (eob : Bool) (d a : VReg)
  /-- FSCALB (R135): VEC opcode: multiplies lanes by a power of two. -/
  | fscalb (c : CoreId) (eob : Bool) (d a b : VReg)
  /-- VLD (R214): VEC opcode: loads 256 B from near scratch into a vector register. -/
  | vld (c : CoreId) (eob : Bool) (v : VReg) (a : AReg) (tag : BitVec 2) (off : BitVec 11)
  /-- VLDW (R135): VEC opcode: loads 64 packed elements and widens them to FP32 or INT32 lanes. -/
  | vldw (c : CoreId) (eob : Bool) (v : VReg) (a : AReg) (tag : BitVec 2) (f : BitVec 4) (off : BitVec 11)
  /-- VST (R214): VEC opcode: stores 256 B of a vector register to near scratch. -/
  | vst (c : CoreId) (eob : Bool) (v : VReg) (a : AReg) (tag : BitVec 2) (off : BitVec 11)
  /-- VSTN (R70): VEC opcode: narrows FP32 lanes with the output scale and stores them packed. -/
  | vstn (c : CoreId) (eob : Bool) (v : VReg) (a : AReg) (tag : BitVec 2) (f : BitVec 4) (off : BitVec 11)
  /-- SCLW (R140): VEC opcode: scale write that converts lanes to UE5M3 and writes them as bytes to near scratch. -/
  | sclw (c : CoreId) (eob : Bool) (v : VReg) (a : AReg) (tag : BitVec 2) (n1 : Fin 64) (off : BitVec 9)
  /-- VBCS (R135): VEC opcode: broadcasts a scalar register into every lane. -/
  | vbcs (c : CoreId) (eob : Bool) (d : VReg) (s : SReg)
  /-- VEXT (R135): VEC opcode: extracts one lane into a scalar register. -/
  | vext (c : CoreId) (eob : Bool) (d : SReg) (v : VReg) (lane : Fin 64)
  /-- FRSUM (R136): VEC opcode: pairwise-tree FP32 sum of the lanes into lane 0. -/
  | frsum (c : CoreId) (eob : Bool) (d a : VReg)
  /-- FRMAX (R136): VEC opcode: tree FP32 maximum of the lanes into lane 0. -/
  | frmax (c : CoreId) (eob : Bool) (d a : VReg)
  /-- IRSUM (R136): VEC opcode: exact INT32 lane sum clamped once into lane 0. -/
  | irsum (c : CoreId) (eob : Bool) (d a : VReg)
  /-- ARGMAX (R137): VEC opcode: merges a lane window into a running best value and index. -/
  | argmax (c : CoreId) (eob : Bool) (d a : VReg) (sN sBase : SReg) (hi idx dir int : Bool)
  /-- TOPK (R138): VEC opcode: merges a lane window into a running ordered list of the 64 best entries. -/
  | topk (c : CoreId) (eob : Bool) (d a : VReg) (sN sBase : SReg) (hi idx dir int : Bool)
  /-- CURVE (R142): VEC opcode: evaluates a table-driven curve on each lane. -/
  | curve (c : CoreId) (eob : Bool) (d a : VReg) (n : Fin 32)
  /-- ADD (R215): SCL opcode: scalar addition. -/
  | add (c : CoreId) (eob : Bool) (d a b : SReg)
  /-- SUB (R215): SCL opcode: scalar subtraction. -/
  | sub (c : CoreId) (eob : Bool) (d a b : SReg)
  /-- MUL (R215): SCL opcode: scalar multiplication, readable 3 CCLK after issue. -/
  | mul (c : CoreId) (eob : Bool) (d a b : SReg)
  /-- SCL_AND (R215): SCL opcode AND: scalar bitwise AND. -/
  | sclAnd (c : CoreId) (eob : Bool) (d a b : SReg)
  /-- SCL_OR (R215): SCL opcode OR: scalar bitwise OR. -/
  | sclOr (c : CoreId) (eob : Bool) (d a b : SReg)
  /-- SCL_XOR (R215): SCL opcode XOR: scalar bitwise XOR. -/
  | sclXor (c : CoreId) (eob : Bool) (d a b : SReg)
  /-- MIN (R215): SCL opcode: signed scalar minimum. -/
  | min (c : CoreId) (eob : Bool) (d a b : SReg)
  /-- MAX (R215): SCL opcode: signed scalar maximum. -/
  | max (c : CoreId) (eob : Bool) (d a b : SReg)
  /-- SLT (R215): SCL opcode: signed set-less-than. -/
  | slt (c : CoreId) (eob : Bool) (d a b : SReg)
  /-- SCL_SHL (R215): SCL opcode SHL: scalar left shift. -/
  | sclShl (c : CoreId) (eob : Bool) (d a b : SReg)
  /-- SHR (R215): SCL opcode: scalar logical right shift. -/
  | shr (c : CoreId) (eob : Bool) (d a b : SReg)
  /-- SCL_SRA (R215): SCL opcode SRA: scalar arithmetic right shift. -/
  | sclSra (c : CoreId) (eob : Bool) (d a b : SReg)
  /-- ADDI (R215): SCL opcode: add of a sign-extended immediate. -/
  | addi (c : CoreId) (eob : Bool) (d a : SReg) (imm : BitVec 16)
  /-- ORI (R215): SCL opcode: OR with a zero-extended immediate. -/
  | ori (c : CoreId) (eob : Bool) (d a : SReg) (imm : BitVec 16)
  /-- SHLI (R215): SCL opcode: left shift by an immediate. -/
  | shli (c : CoreId) (eob : Bool) (d a : SReg) (imm : BitVec 16)
  /-- SHRI (R215): SCL opcode: logical right shift by an immediate. -/
  | shri (c : CoreId) (eob : Bool) (d a : SReg) (imm : BitVec 16)
  /-- MOVI (R215): SCL opcode: loads a sign-extended 21-bit immediate. -/
  | movi (c : CoreId) (eob : Bool) (d : SReg) (imm : BitVec 21)
  /-- AMOV (R215): SCL opcode: copies a scalar register into an address register. -/
  | amov (c : CoreId) (eob : Bool) (d : AReg) (s : SReg)
  /-- AADD (R215): SCL opcode: adds a scalar register to an address register. -/
  | aadd (c : CoreId) (eob : Bool) (d a : AReg) (s : SReg)
  /-- AMOVI (R215): SCL opcode: loads an address register from a 22-bit immediate. -/
  | amovi (c : CoreId) (eob : Bool) (d : AReg) (imm : BitVec 22)
  /-- SMOVA (R215): SCL opcode: copies an address register into a scalar register. -/
  | smova (c : CoreId) (eob : Bool) (d : SReg) (a : AReg)
  /-- RDLC (R215): SCL opcode: reads a loop counter into a scalar register. -/
  | rdlc (c : CoreId) (eob : Bool) (d : SReg) (l : Fin 4)
  /-- SETZP (R216): SCL opcode: sets the activation zero point for later operations. -/
  | setzp (c : CoreId) (eob : Bool) (s : SReg)
  /-- SETOS (R216): SCL opcode: sets the FP32 output scale for later operations. -/
  | setos (c : CoreId) (eob : Bool) (s : SReg)
  /-- SETINC (R217): SCL opcode: sets the loop-level increment of an address register. -/
  | setinc (c : CoreId) (eob : Bool) (n : AReg) (l : Fin 4) (s : SReg)
  /-- SETBIND (R217): SCL opcode: binds an address register to loop levels. -/
  | setbind (c : CoreId) (eob : Bool) (n : AReg) (mask : BitVec 4)
  /-- TAG_WAIT_RELEASE (R168): A near-scratch access held on a slot's full tag proceeds once the tag reaches the value it waits for. -/
  | tagWaitRelease (c : CoreId) (u : AccessUnit)
  /-- SCRUB_BEAT (R181): Every SCRUB_INTERVAL ticks the scrub reads one beat of each SRAM, corrects or poisons it. -/
  | scrubBeat (m : SramId) (word : Nat) (e : EccOutcome)
  /-- SEQUENCER_WATCHDOG_EXPIRY (R205): A core that neither commits nor issues for the watchdog limit ends the step FAILED with status 0x07. -/
  | sequencerWatchdogExpiry (c : CoreId)
  /-- WCET_OVERRUN (R232): An RT run that has issued for CLAIM CCLK without a COMMIT token ends with status 0x07. -/
  | wcetOverrun
  /-- DOORBELL (R268): A DOORBELL write sets the queue's TAIL, wakes the engine and starts descriptor fetch. -/
  | doorbell (q : QueueId) (tail : Word)
  /-- DESCRIPTOR_FETCH (R238): The queue-fetch steward reads and checks descriptors from FETCH to TAIL, answering bad ones with status 0x0D. -/
  | descriptorFetch (q : QueueId) (r : ReadResult)
  /-- ACCEPT (R21): The scheduler assigns an acceptance sequence number, binds tables and weight sets and writes ACCEPTED. -/
  | accept (q : QueueId)
  /-- DISPATCH (R241): The scheduler chooses a head step, writes STARTED, resolves weight sets, loads instruction memory and starts a run. -/
  | dispatch (p : RunLoad)
  /-- TOKEN_TAKEN (R251): The collector takes one token per CCLK and, after the last, forms flags and counts, tests triggers and issues flushes. -/
  | tokenTaken (p : RunLoad)
  /-- SEALED_TIMEOUT (R253): A completion record not acknowledged within 4 µs ends the commit phase, journalling KILLED with 0x0C. -/
  | sealedTimeout (p : PartId)
  /-- TIME_SLICE_PREEMPTION (R273): A run that has reached TIME_SLICE while a lower effective class waits is killed with cause 0x01. -/
  | timeSlicePreemption (p : PartId)
  /-- RUN_DRAINED (R247): When the killed or failed run's host writes are acknowledged or lost, its cores are free and KILLED or FAILED is written. -/
  | runDrained (p : PartId)
  /-- RT_DOORBELL (R279): An RT_DOORBELL write enters the pending list when ARMED, or is refused and counted. -/
  | rtDoorbell (v : Word)
  /-- RT_STEP_START (R280): The next pending RT entry is accepted and dispatched on the armed cores within 1 µs. -/
  | rtStepStart
  /-- ENABLE_WRITE (R270): A write to a queue's ENABLE starts or stops its fetch; disabling fails KILLED steps with 0x01. -/
  | enableWrite (q : QueueId) (v : Byte) (async : Bool)
  /-- KILL (R270): Writing 1 to a queue's KILL kills its STARTED step with cause 0x01 whatever its immunity. -/
  | kill (q : QueueId) (v : Byte) (async : Bool)
  /-- FETCH_WRITE (R268): A write to a queue's FETCH sets the next QSEQ to fetch and clears STOPPED. -/
  | fetchWrite (q : QueueId) (v : Word) (async : Bool)
  /-- CORE_MASK_WRITE (R261): A write to a partition's CORE_MASK assigns cores after checking spares, usability and ownership. -/
  | coreMaskWrite (p : PartId) (v : Word) (async : Bool)
  /-- WINDOW_RECORD_WRITE (R176): A write to a partition's DW record is checked for overlaps and rights and installed. -/
  | windowRecordWrite (p : PartId) (w : Fin 4) (v : DWord) (async : Bool)
  /-- LOAD (R222): Executing a partition's LOAD starts an image read, copy and verification. -/
  | load (p : PartId) (v : QWord) (async : Bool)
  /-- IMAGE_LOAD_DONE (R225): When the image has been read, the verifier checks it and the outcome is reported in LOAD_STATUS with IRQ[3]. -/
  | imageLoadDone (p : PartId) (r : ReadResult)
  /-- ARM (R281): Writing 1 to ARM starts arming the class RT partition and its checks. -/
  | arm (v : Byte) (async : Bool)
  /-- ARM_COMPLETE (R281): Arming loads the cores and hot spare and enters ARMED, or returns to DISARMED with ARM_RESULT. -/
  | armComplete
  /-- DISARM (R282): Writing 0 to ARM moves the partition to DISARMING, or leaves HALTED at once. -/
  | disarm (async : Bool)
  /-- DISARM_COMPLETE (R282): The partition enters DISARMED when the last pending RT step has reached a final state. -/
  | disarmComplete
  /-- RT_ARM (R426): An RT_ARM register write acts as a write of the same value to ARM. -/
  | rtArm (v : Word)
  /-- SLOT (R278): A write to an RT slot checks the descriptor and makes the slot valid. -/
  | slotWrite (i : Fin 16) (bs : List Byte) (async : Bool)
  /-- SESSION_CLEAR (R274): Zeroes the accepted, committed and killed counts of the AST written. -/
  | sessionClear (ast : Half) (async : Bool)
  /-- CODEBOOK_PENDING_WRITE (R72): A write to a codebook's PENDING copy is checked and stored. -/
  | codebookPendingWrite (t : Fin 64) (bs : List Byte) (async : Bool)
  /-- CODEBOOK_SWITCH (R72): Makes the pending copies of the named codebooks active for later steps. -/
  | codebookSwitch (mask : DWord) (async : Bool)
  /-- CURVE_SWITCH (R145): Checks and makes the pending copies of the named curves active for later steps. -/
  | curveSwitch (mask : Word) (async : Bool)
  /-- QPOLICY_SWITCH (R76): Makes the pending quantisation policy of every partition active for later steps. -/
  | qpolicySwitch (v : Byte) (async : Bool)
  /-- DIRECTORY_SWITCH (R235): Checks and makes the pending routine directory active for later steps. -/
  | directorySwitch (v : Byte) (async : Bool)
  /-- PENDING (R326): A write of a weight-set version record into the slot's free place, starting a resident load for DEEP. -/
  | pendingVersion (bs : List Byte) (async : Bool)
  /-- RESIDENT_LOAD_DONE (R327): A resident weight load ends READY or FAILED with a cause and IRQ[3]. -/
  | residentLoadDone (slot : Fin 256) (r : ReadResult)
  /-- EQUINOX (R330): Makes the pending versions of the named weight-set slots active in one act between acceptances. -/
  | equinox (bs : List Byte) (async : Bool)
  /-- DELETE (R331): Discards the slot's pending version, retires the active one and increases the generation. -/
  | deleteSet (v : Byte) (async : Bool)
  /-- CWORD_WRITE (R259): A driver write of a queue's commit word, refused while a step is open. -/
  | cwordWrite (q : QueueId) (v : Word) (async : Bool)
  /-- WINDOW_START_WRITE (R259): Sets the first ASEQ of the journal window for the requester. -/
  | windowStartWrite (v : DWord) (async : Bool)
  /-- ROOT_WRITE (R304): A write of an AST's root record, which also invalidates that AST. -/
  | rootWrite (v : DWord) (walks : List (List WalkRead)) (async : Bool)
  /-- INVALIDATE (R314): Drops an AST's translation entries, restarts its walks and re-walks its pins. -/
  | invalidate (v : Half) (walks : List (List WalkRead)) (async : Bool)
  /-- RT_PIN (R317): A write of a pinned translation walks the page at once, or drops the pin. -/
  | rtPin (i : Fin 16) (v : DWord) (walk : List WalkRead) (async : Bool)
  /-- PAGE_WALK_READ_RETURN (R308): A walk read returns and the walk proceeds to the next level, completes, or faults. -/
  | pageWalkReadReturn (n : PortId) (id : Byte) (err : BitVec 2) (beat : Beat)
  /-- PORT_READ_DATA (R284): A read-data response beat is taken on a memory port. -/
  | portReadData (n : PortId) (id : Byte) (beat : Beat) (last : Bool)
  /-- PORT_WRITE_ACK (R287): A write, WRITEP or atomic acknowledgement returns, marking the operation performed at the merge point. -/
  | portWriteAck (n : PortId) (id : Byte)
  /-- PORT_FLUSH_DONE (R288): A FLUSH completion returns on a memory port. -/
  | portFlushDone (n : PortId) (id : Byte)
  /-- PORT_ERROR_RESPONSE (R295): A response with RS_ERR not 0 is counted, logged and ends its traffic as in Table 12-6. -/
  | portErrorResponse (n : PortId) (id : Byte) (err : BitVec 2)
  /-- PORT_TIMEOUT (R296): A transaction waiting TIMEOUT declares the port FAILED and acts as a link drop. -/
  | portTimeout (n : PortId) (id : Byte)
  /-- LINK_UP_FALL (R298): A fall of Mn_LINK_UP stops the port, loses its transactions and kills affected runs with 0x09. -/
  | linkUpFall (n : PortId)
  /-- LINK_UP_RISE (R299): A rise of Mn_LINK_UP moves the port to SETTLING. -/
  | linkUpRise (n : PortId)
  /-- SETTLING_EXPIRY (R299): After 256 PCLK in SETTLING the port moves to UP or HELD. -/
  | settlingExpiry (n : PortId)
  /-- RESUME (R299): Writing 1 to RESUME moves a HELD port to UP. -/
  | resume (n : PortId) (v : Byte) (async : Bool)
  /-- ATTACH (R428): An ATTACH write with the key claims or detaches the engine, moving HELD ports to UP on a claim. -/
  | attach (v : Word)
  /-- LINK_GROUP_RECEIVED (R337): A Stack Link flit group arrives and is accepted, or discarded with a NACK. -/
  | linkGroupReceived (l : LinkId) (flits : List Flit)
  /-- LINK_REPLAY (R337): On a NACK or an acknowledgement stalled for 1 µs the sender resends its unacknowledged groups. -/
  | linkReplay (l : LinkId)
  /-- IDLE_GROUP (R337): A sender with nothing to send sends an all-IDLE group at least every 250 ns. -/
  | idleGroup (l : LinkId)
  /-- LINK_FAILED (R338): REPLAY_LIMIT replays without progress or LINK_TIMEOUT without a valid group makes the port FAILED. -/
  | linkFailed (l : LinkId)
  /-- PHY_UP_CHANGE (R338): A change of the PHY ready indication; a rise is a wake event and starts HELLO exchange. -/
  | phyUpChange (l : LinkId) (up : Bool)
  /-- LINK_WRITE (R344): A WRITE message at the head of the REQ buffer is checked against the inbound window and sunk into deep scratch. -/
  | linkWrite (l : LinkId)
  /-- LINK_READ (R344): A READ message is checked and served by a read tracker returning RDATA. -/
  | linkRead (l : LinkId)
  /-- LINK_FLUSH (R342): A FLUSH message reaching the head of the REQ buffer returns FLUSH_DONE. -/
  | linkFlush (l : LinkId)
  /-- CHAIN (R351): A CHAIN message adds 1 to the named queue's CHAIN_CREDIT. -/
  | chain (l : LinkId)
  /-- RDATA (R345): Read data or a refusal status returns to the requester. -/
  | rdata (l : LinkId)
  /-- FLUSH_DONE (R346): A FLUSH_DONE returns with the count of refused writes. -/
  | flushDone (l : LinkId)
  /-- HELLO (R348): A HELLO message carries presence, identity, EPOCH and timebase and brings a port UP or into CONFLICT. -/
  | hello (l : LinkId)
  /-- HELLO_TIMER (R348): Every 100 µs each engine sends HELLO on each port. -/
  | helloTimer
  /-- PSTATE (R350): A PSTATE message carries an engine's limit report or the master's common P-state order. -/
  | pstate (l : LinkId)
  /-- PSTATE_ORDER_INSTANT (R369): At the ordered timebase instant each engine changes its PST_REQ. -/
  | pstateOrderInstant
  /-- PDMSG (R437): A relayed dictionary transaction or its answer travels between master and target. -/
  | pdmsg (l : LinkId)
  /-- EVENT (R349): A peer's health or fault event reaches the master and sets PEER_EVENT. -/
  | event (l : LinkId)
  /-- RELAY_TIMEOUT (R437): A relayed transaction not answered within 1 ms aborts with 0x06. -/
  | relayTimeout
  /-- INBOUND_WINDOW_WRITE (R344): A write of an inbound window record is checked and installed. -/
  | inboundWindowWrite (w : Fin 4) (v : DWord) (async : Bool)
  /-- PEER_EVENTS_CLEAR (R438): Clears the PEER_EVENTS bits set in the value written. -/
  | peerEventsClear (v : Byte) (async : Bool)
  /-- IDLE_TIMEOUT_EXPIRY (R360): When the idle conditions have held for IDLE_TIMEOUT the engine enters Autumn. -/
  | idleTimeoutExpiry
  /-- WINTER_ENTRY (R361): The engine enters Winter when PWR_REQ[0] falls, asserting IRQ[3]. -/
  | winterEntry
  /-- DRAIN_LIMIT_EXPIRY (R361): A drain that has not reached Winter within DRAIN_LIMIT returns the engine to Spring. -/
  | drainLimitExpiry
  /-- WAKE_EVENT (R363): A doorbell, RT, attach or PD_CTRL write, WAKE_AT or PHY rise starts Thaw or aborts Autumn. -/
  | wakeEvent (k : WakeKind)
  /-- WAKE_AT_EXPIRY (R363): The timebase reaching a non-zero WAKE_AT is a wake event. -/
  | wakeAtExpiry
  /-- THAW_COMPLETE (R364): When the Thaw sequence completes the engine enters Spring, records LAST_THAW_NS and asserts IRQ[3]. -/
  | thawComplete (r : ReadResult)
  /-- THAW_RELOAD_RETRY (R365): Thaw retries the firmware reload read every 1 ms while M0 is down or errs. -/
  | thawReloadRetry (r : ReadResult)
  /-- THAW_RELOAD_ABANDON (R365): A reload not succeeded within 500 ms abandons Thaw and begins a restart with cause 0x06. -/
  | thawReloadAbandon
  /-- ROUTINE_STORE_RELOAD (R416): After Winter the routine stores are reloaded from the host copy, or both directories become LOST. -/
  | routineStoreReload (r : ReadResult)
  /-- PWR_ACK_RISE (R444): PWR_ACK rises for a cluster whose supply is in tolerance. -/
  | pwrAckRise (cl : ClusterId)
  /-- PWR_ACK_LOSS (R445): A fall of PWR_ACK while PWR_REQ is high is handled as a cluster supply loss or, for cluster 0, a restart. -/
  | pwrAckLoss (cl : ClusterId)
  /-- PST_ACK_RISE (R369): PST_ACK high lets a faster P-state change glide the core PLL up. -/
  | pstAckRise
  /-- PST_ACK_TIMEOUT (R369): PST_ACK not high within 100 µs keeps the slower frequency and raises a health event. -/
  | pstAckTimeout
  /-- GLIDE_END (R369): A core PLL glide ends and PSTATE reads the new P-state. -/
  | glideEnd
  /-- DROOP_DETECT (R370): A supply below the detector level stretches the core's clock periods until it recovers. -/
  | droopDetect (c : CoreId) (cycles : Nat)
  /-- ALERT_N_FALL (R371): ALERT_N low for 5 ns divides every CCLK to at most 0.3 GHz and sets the limit to P5. -/
  | alertNFall
  /-- ALERT_HOLD_EXPIRY (R371): ALERT_N high for ALERT_HOLD releases the P5 limit. -/
  | alertHoldExpiry
  /-- ESTIMATOR_PERIOD (R372): Every 1 µs the engine forms the power estimate E. -/
  | estimatorPeriod (counts : List Nat)
  /-- TLM_SAMPLE (R373): A telemetry sample delivers the energy since the previous sample. -/
  | tlmSample (v : Word)
  /-- CAL_PERIOD_END (R373): At the end of CAL_PERIOD the engine recomputes k, clamping and counting out-of-range values. -/
  | calPeriodEnd
  /-- THERMAL_SAMPLE (R377): Every 10 µs the sensors are sampled and the thermal state and limit updated. -/
  | thermalSample (halfDegrees : List Int)
  /-- THERMAL_REST_EXPIRY (R377): After THERMAL_REST held wake events start Thaw. -/
  | thermalRestExpiry
  /-- LOCKSTEP_MISMATCH (R387): A comparator mismatch kills the RT run with 0x0A and starts self-test of the pair. -/
  | lockstepMismatch (pair : Fin 2)
  /-- FAILOVER (R387): After the pair's self-test the pair is kept, a member is replaced by the hot spare, or a double fault is handled. -/
  | failover (pair : Fin 2) (leadPasses checkerPasses : Bool)
  /-- PERIODIC_SELFTEST (R384): Every SELFTEST_PERIOD, or 100 ms on the hot spare, a core runs logic self-test. -/
  | periodicSelftest (c : CoreId) (corePasses : Bool) (arrayFails : BitVec 4)
  /-- STEWARD_HEARTBEAT_MISS (R389): A steward missing 4 heartbeats is faulted, its roles migrate and it reloads and rejoins. -/
  | stewardHeartbeatMiss (s : Fin 4)
  /-- STEWARD_REJOIN (R389): A reset steward reloads its firmware and rejoins, taking back its roles. -/
  | stewardRejoin (s : Fin 4)
  /-- STRIP_RATE_WINDOW_END (R276): At the end of a 16-step window cores are judged slow and reported. -/
  | stripRateWindowEnd (p : PartId)
  /-- AGING_MONITOR_READ (R396): Aging monitors are read each second and at Thaw, warning or retiring a core. -/
  | agingMonitorRead (c : CoreId) (margin : Half)
  /-- INTERCONNECT_PARITY_ERROR (R383): A parity error on an interconnect beat ends the step with 0x04, or kills an RT run with 0x0A. -/
  | interconnectParityError (p : PartId)
  /-- START (R400): Writing 1 to BOOT_CTRL START requests a start, killing runs and aborting the mailbox. -/
  | start
  /-- START_PHASE_DONE (R403): A start phase of Table 18-4 completes; after the last the firmware reports ready and PROBATION begins. -/
  | startPhaseDone (d : PhaseDone)
  /-- START_FAIL (R406): A failed start increments the boot counter, writes a start record and starts again or enters Midwinter. -/
  | startFail (outcome : StartOutcome) (detail : Word)
  /-- READY_TIMEOUT (R406): Firmware not ready within 500 ms of the start fails the start. -/
  | readyTimeout
  /-- PROBATION_END (R406): After 10 s of PROBATION the boot counter returns to 0 and STATE becomes RUNNING. -/
  | probationEnd
  /-- STEWARD_WATCHDOG_FIRE (R407): The AON steward watchdog not restarted for 250 ms causes a restart or fails the start. -/
  | stewardWatchdogFire
  /-- MW_STEP (R409): Runs one test step in Midwinter on the lowest usable core of cluster 0. -/
  | mwStep (bs : List Byte) (image desc : ReadResult) (async : Bool)
  /-- MW_SELFTEST (R409): Runs power-on self-test on each cluster in turn in Midwinter. -/
  | mwSelftest (v : Byte) (coreFail : BitVec 20) (sharedFail : Bool) (async : Bool)
  /-- SLOT_RECORD_WRITE (R410): A write of a firmware slot record reads and checks the image, setting AUTH. -/
  | slotRecordWrite (b : Bool) (bs : List Byte) (image : ReadResult) (async : Bool)
  /-- FW_UPDATE (R412): Checks the inactive slot's image and reloads the stewards one at a time. -/
  | fwUpdate (v : Byte) (image : ReadResult) (async : Bool)
  /-- UPDATE_ROLLBACK (R413): A steward failing to rejoin stops the update and reloads updated stewards from the old slot. -/
  | updateRollback (s : Fin 4) (rollbackFails : Bool)
  /-- LIBRARY_LOAD (R415): Loads and verifies a routine library into the inactive store half and forms the pending directory. -/
  | libraryLoad (v : QWord) (async : Bool)
  /-- CAL_SWITCH (R417): Applies the pending calibration set to the entries it covers. -/
  | calSwitch (v : Byte) (async : Bool)
  /-- CORE_SERVICE (R418): Substitutes the spare for a general core, tests the core and returns or retires it. -/
  | coreService (v : Byte) (async : Bool)
  /-- PD_READ (R429): A PD_CTRL write with OP READ reads one dictionary entry into PD_DATA. -/
  | pdRead (async remote : Bool) (engine : Fin 8) (index : Half) (sub : Byte) (len : BitVec 9) (offset : Half)
  /-- PD_WRITE (R430): A PD_CTRL write with OP WRITE writes a dictionary entry that has no row of its own. -/
  | pdWrite (async remote : Bool) (engine : Fin 8) (index : Half) (sub : Byte) (len : BitVec 9) (offset : Half) (bs : List Byte)
  /-- IRQ_CLEAR (R427): Writing 1s to IRQ_CLEAR clears the matching interrupt status bits. -/
  | irqClear (v : Word)
  /-- TIME_LO_READ (R424): A read of TIME_LO returns the low timebase word and latches the high word into TIME_HI. -/
  | timeLoRead
  /-- CTL_REGISTER_WRITE (R422): A write to a control-port register that has no row of its own. -/
  | ctlRegisterWrite (off : BitVec 14) (be : BitVec 4) (v : Word)
  /-- AON_RESET (R449): AON_RST_N rising resets the AON domain and latches straps and fuses. -/
  | aonReset (inst : Fin 8) (master fuseValid : Bool) (fuse : BitVec 256)
  /-- FUSE_VALID_RISE (R449): FUSE_VALID rising lets the engine latch the straps and fuse word. -/
  | fuseValidRise (inst : Fin 8) (master : Bool) (fuse : BitVec 256)
  /-- PCLK_RESET (R451): PCLK_RST_N low resets the port interfaces and acts as a link drop on every port. -/
  | pclkReset
  /-- MVP_PASS_LANDED (R128): An MVP pass or MVP read-out lands its outputs in vector registers or near scratch, some cycles after issue. -/
  | mvpPassLanded (c : CoreId)
  /-- WEIGHT_LOAD_END (R92): A LOADW or IMPORT of address generator B finishes writing its shadow rows or accumulator rows. -/
  | weightLoadEnd (c : CoreId)
  /-- READOUT_LANDED (R111): A separate array READ finishes writing its rows to near scratch or vector registers. -/
  | readoutLanded (c : CoreId)
  /-- VECTOR_OPERATION_LANDED (R134): A pipelined vector operation writes its register result, or a vector store lands in near scratch, after its latency. -/
  | vectorOperationLanded (c : CoreId)
  /-- DEEP_SCRATCH_WRITE_LANDED (R173): A deep-scratch write lands and is reported to its issuing stream, so it becomes visible to every reader. -/
  | deepScratchWriteLanded (c : CoreId)
  /-- TAP_LOAD_LANDED (R154): A tap load or an activation-store load lands its data, 9 CCLK or more after issue. -/
  | tapLoadLanded (c : CoreId)
  /-- AGE_LIMIT_ELAPSED (R271): A waiting head step's wait crosses a multiple of AGE_LIMIT, which lowers its queue's effective class and may trigger pre-emption or change the dispatch order. -/
  | ageLimitElapsed (q : QueueId)
  /-- PLL_LOCK (R364): The core and steward PLLs lock, and the timebase hands back to REF_CLK at the next AON_CLK edge. -/
  | pllLock
  /-- PWR_ACK_FALL (R444): PWR_ACK of a cluster falls after its PWR_REQ fell, and the domain is off; this also ends the 10 µs low wait before a supply retry under R445. -/
  | pwrAckFall (cl : ClusterId)
  /-- LIBRARY_LOAD_DONE (R415): A routine-library read and verification finishes, forming PENDING_DIRECTORY or rejecting the library, and reports LIBRARY_STATE with IRQ[3]. -/
  | libraryLoadDone (r : ReadResult)
  /-- CORE_SERVICE_TEST_DONE (R418): The self-test and march test of a serviced core finish, and the core takes back its index or is retired. -/
  | coreServiceTestDone (passes : Bool)
  /-- PCLK_RESET_RELEASE (R451): PCLK_RST_N rises, and each memory port with Mn_LINK_UP high resumes under R299. -/
  | pclkResetRelease
  /-- WRAPPER_INSTRUCTION_UPDATE (R454): An IEEE 1500 wrapper instruction is updated, and intrusive instructions are granted or treated as WS_BYPASS; a grant locks out START. -/
  | wrapperInstructionUpdate (code : BitVec 3)
  /-- WRAPPER_RESET (R454): WSP_WRSTN low loads WS_BYPASS into the wrapper instruction register. -/
  | wrapperReset
  /-- SEGMENT_INSERTION_UPDATE (R455): A segment-insertion bit of the IEEE 1687 network opens or stays closed for an instrument, subject to R453. -/
  | segmentInsertionUpdate (i : Instrument) (wantOpen : Bool)
  /-- NETWORK_RESET (R455): IJ_RST_N low closes every segment-insertion bit of the instrument network. -/
  | networkReset
  deriving DecidableEq, Repr

end Sys2Proof
end

