-- ==== Sys2Proof/Decode.lean ====
section
/-!
DEFINITION. The commands that a word of spec/opcode_table.json spells. No row of the table gives bits: every "fields" is
empty and none has a fixed pattern, so no word spells a command.
-/
namespace Sys2Proof

/-- The command spelt by `nbits` bits of value `w`: none, since no row of the table has bits. -/
def decodeTableWord (nbits w : Nat) : Option Instr :=
  match nbits, w with
  | _, _ => none

end Sys2Proof
end

