-- ==== Sys2Proof/Machine/Tab.lean ====
section
/-!
DEFINITION. Sparse tables (key, value) in one canonical form, updates of fixed vectors, byte strings, CRC-32C.
-/
namespace Sys2Proof.Machine

/-- A sparse table: keys strictly rising, no entry equal to what an unlisted key reads as. -/
abbrev Tab (β : Type) := List (Nat × β)

/-- What key `k` reads as; an unlisted key reads `d`. -/
def Tab.get {β : Type} (d : β) : Tab β → Nat → β
  | [], _ => d
  | (k, v) :: r, i => if i = k then v else Tab.get d r i

/-- Insert or replace in a rising list, with no regard to the default. -/
def Tab.put {β : Type} : Tab β → Nat → β → Tab β
  | [], i, x => [(i, x)]
  | (k, v) :: r, i, x =>
    if i < k then (i, x) :: (k, v) :: r
    else if i = k then (i, x) :: r
    else (k, v) :: Tab.put r i x

/-- Remove a key. -/
def Tab.del {β : Type} : Tab β → Nat → Tab β
  | [], _ => []
  | (k, v) :: r, i => if i = k then r else (k, v) :: Tab.del r i

/-- Write `x` at key `i`; writing the default removes the entry. -/
def Tab.set {β : Type} [DecidableEq β] (d : β) (t : Tab β) (i : Nat) (x : β) : Tab β :=
  if x = d then Tab.del t i else Tab.put t i x

/-- Keys strictly rising, all above `lo`. -/
def Tab.rising {β : Type} : Nat → Tab β → Bool
  | _, [] => true
  | lo, (k, _) :: r => decide (lo ≤ k) && Tab.rising (k + 1) r

/-- The canonical form of a table whose unlisted keys read `d`. -/
def Tab.wf {β : Type} [DecidableEq β] (d : β) (t : Tab β) : Bool :=
  Tab.rising 0 t && t.all (fun p => decide (p.2 ≠ d))

/-- Change one place of a fixed vector. -/
def upd {α : Type} {n : Nat} (v : Vector α n) (i : Fin n) (f : α → α) : Vector α n :=
  v.set i.val (f v[i.val]) i.isLt

/-- The number of little-endian bytes `bs`. -/
def leNat : List Byte → Nat
  | [] => 0
  | b :: r => b.toNat + 256 * leNat r

/-- The `n` little-endian bytes of `x`. -/
def leBytes : Nat → Nat → List Byte
  | 0, _ => []
  | n + 1, x => BitVec.ofNat 8 x :: leBytes n (x / 256)

/-- `n` bytes of `bs` from offset `o`, padded with zeros. -/
def slice (bs : List Byte) (o n : Nat) : List Byte :=
  let r := (bs.drop o).take n
  r ++ List.replicate (n - r.length) 0

/-- The little-endian number in `n` bytes at offset `o`. -/
def leAt (bs : List Byte) (o n : Nat) : Nat := leNat (slice bs o n)

/-- Overwrite bytes from offset `o`; the length stays. -/
def overwrite (bs : List Byte) (o : Nat) (x : List Byte) : List Byte :=
  (bs.take o ++ x ++ bs.drop (o + x.length)).take bs.length

/-- The field `[hi:lo]` of a number, as the spec writes bit fields. -/
def fld (x hi lo : Nat) : Nat := x / 2 ^ lo % 2 ^ (hi + 1 - lo)

/-- Replace the field `[hi:lo]`. -/
def setFld (x hi lo v : Nat) : Nat :=
  x - fld x hi lo * 2 ^ lo + v % 2 ^ (hi + 1 - lo) * 2 ^ lo

/-- One bit of a number. -/
def bitAt (x i : Nat) : Bool := x / 2 ^ i % 2 == 1

/-- 1 for true. -/
def b2n (b : Bool) : Nat := if b then 1 else 0

/-- Two's complement reading of the low `w` bits. -/
def sgn (w x : Nat) : Int :=
  let y := x % 2 ^ w
  if y < 2 ^ (w - 1) then (y : Int) else (y : Int) - (2 ^ w : Nat)

/-- ceil(a / b), 0 when b is 0. -/
def ceilDiv (a b : Nat) : Nat := if b = 0 then 0 else (a + b - 1) / b

/-- a rounded up to a multiple of b. -/
def roundUp (a b : Nat) : Nat := ceilDiv a b * b

/-- One bit step of the reflected CRC-32C register. -/
def crcBit (c : Nat) : Nat := if c % 2 = 1 then (c / 2) ^^^ 0x82F63B78 else c / 2

/-- One byte into the CRC-32C register. -/
def crcByte (c : Nat) (b : Byte) : Nat :=
  crcBit (crcBit (crcBit (crcBit (crcBit (crcBit (crcBit (crcBit (c ^^^ b.toNat))))))))

/-- CRC-32C (Castagnoli) of a byte string, as named in R72, R218, R236, R318, R336 and R402. -/
def crc32c (bs : List Byte) : Nat := (bs.foldl crcByte 0xFFFFFFFF) ^^^ 0xFFFFFFFF

/-- `xs[i]`, or `d` beyond the end. -/
def nth {α : Type} (d : α) (xs : List α) (i : Nat) : α := xs.getD i d

/-- `xs` with place `i` changed; unchanged beyond the end. -/
def setNth {α : Type} (xs : List α) (i : Nat) (x : α) : List α := xs.set i x

/-- Saturating increment of an unsigned counter of `w` bits. -/
def satInc {w : Nat} (x : BitVec w) (n : Nat) : BitVec w :=
  if x.toNat + n < 2 ^ w then BitVec.ofNat w (x.toNat + n) else BitVec.allOnes w

end Sys2Proof.Machine
end

