-- ==== Sys2Proof/Machine/Float.lean ====
section
/-!
DEFINITION. Number formats and arithmetic of "Number formats and arithmetic" (R29 to R59): values, rounding,
FP32 addition and multiplication, narrowing, widening, integer accumulation, requantisation, and the flag byte.
-/
namespace Sys2Proof.Machine

/-- The flag byte of Table 2-6 (R53). -/
abbrev Flags := BitVec 8
def fSAT : Flags := 0x01
def fCLIP : Flags := 0x02
def fNAN : Flags := 0x04
def fINF : Flags := 0x08
def fUFL : Flags := 0x10
def fSUBN : Flags := 0x20

/-- Flag `f` when `b` holds. -/
def flagIf (b : Bool) (f : Flags) : Flags := if b then f else 0

/-- The exact value of a float: `(-1)^neg × m × 2^e`; a zero has m = 0 and keeps its sign. -/
inductive FVal where
  | nan
  | inf (neg : Bool)
  | fin (neg : Bool) (m : Nat) (e : Int)
  deriving DecidableEq, Repr

namespace FVal
def isNan : FVal → Bool | nan => true | _ => false
def isInf : FVal → Bool | inf _ => true | _ => false
def isZero : FVal → Bool | fin _ m _ => m == 0 | _ => false
def neg : FVal → Bool | nan => false | inf n => n | fin n _ _ => n
end FVal

/-- The flags of an operand as it enters (R41): NAN for a NaN, INF for an infinity. -/
def operandFlags (v : FVal) : Flags := flagIf v.isNan fNAN ||| flagIf v.isInf fINF

/-- What distinguishes one binary float format (Table 2-1, R37, R38): mantissa bits with the hidden one, the
exponent of the smallest subnormal, the largest finite magnitude code, the width of the magnitude, the infinity
code where there is one, the canonical NaN (R34) where there is one. -/
structure FpSpec where
  p : Nat
  emin : Int
  maxCode : Nat
  magBits : Nat
  infCode : Option Nat
  nanCode : Option Nat
  deriving DecidableEq, Repr

def specE4M3 : FpSpec := ⟨4, -9, 0x7E, 7, none, some 0x7F⟩
def specE5M2 : FpSpec := ⟨3, -16, 0x7B, 7, some 0x7C, some 0x7E⟩
def specE2M1 : FpSpec := ⟨2, -1, 0x7, 3, none, none⟩
def specBF16 : FpSpec := ⟨8, -133, 0x7F7F, 15, some 0x7F80, some 0x7FC0⟩
def specFP16 : FpSpec := ⟨11, -24, 0x7BFF, 15, some 0x7C00, some 0x7E00⟩
def fp32 : FpSpec := ⟨24, -149, 0x7F7FFFFF, 31, some 0x7F800000, some 0x7FC00000⟩
/-- UE5M3 has no sign bit, no infinity and no NaN (R38). -/
def ue5m3 : FpSpec := ⟨4, -17, 0xFF, 8, none, none⟩

/-- The value of magnitude code `c` with sign `neg` (R32, R33). -/
def decMag (f : FpSpec) (neg : Bool) (c : Nat) : FVal :=
  if c ≤ f.maxCode then
    let E := c / 2 ^ (f.p - 1)
    let M := c % 2 ^ (f.p - 1)
    if E = 0 then .fin neg M f.emin
    else .fin neg (2 ^ (f.p - 1) + M) (f.emin + (E : Int) - 1)
  else if f.infCode = some c then .inf neg
  else .nan

/-- The value of an encoding with its sign bit above the magnitude. -/
def decFp (f : FpSpec) (x : Nat) : FVal :=
  decMag f (bitAt x f.magBits) (x % 2 ^ f.magBits)

/-- How a rounding breaks ties: to even (R40, R45) or away from zero (R48). -/
inductive Tie where
  | even | away
  deriving DecidableEq, Repr

/-- Divide by 2^k and round to nearest. -/
def shiftRound (t : Tie) (m k : Nat) : Nat :=
  if k = 0 then m
  else
    let q := m / 2 ^ k
    let r := m % 2 ^ k
    let half := 2 ^ (k - 1)
    match t with
    | .away => if half ≤ r then q + 1 else q
    | .even => if half < r ∨ (r = half ∧ q % 2 = 1) then q + 1 else q

/-- The magnitude code of m × 2^e rounded once with an unbounded exponent (R48): it may pass `maxCode`. -/
def roundCode (f : FpSpec) (t : Tie) (m : Nat) (e : Int) : Nat :=
  if m = 0 then 0
  else
    let L : Int := (Nat.log2 m : Int) + 1
    let te : Int := max (e + L - f.p) f.emin
    let q := if te ≤ e then m * 2 ^ (e - te).toNat else shiftRound t m (te - e).toNat
    (te - f.emin).toNat * 2 ^ (f.p - 1) + q

/-- A 32-bit FP32 word from sign and magnitude code. -/
def fp32Word (neg : Bool) (c : Nat) : Word := BitVec.ofNat 32 (b2n neg * 2 ^ 31 + c)

/-- The canonical NaN of FP32 (R34). -/
def nan32 : Word := 0x7FC00000
def inf32 (neg : Bool) : Word := fp32Word neg 0x7F800000
/-- FMAX of R37 with a sign. -/
def fmax32 (neg : Bool) : Word := fp32Word neg 0x7F7FFFFF
/-- FP32 1.0. -/
def one32 : Word := 0x3F800000

/-- The value of an FP32 word. -/
def val32 (x : Word) : FVal := decFp fp32 x.toNat

/-- An exact value rounded once to FP32, nearest even; above FMAX it is ±FMAX with SAT (R40, R45, R63). -/
def round32 (neg : Bool) (m : Nat) (e : Int) : Word × Flags :=
  let c := roundCode fp32 .even m e
  if c ≤ fp32.maxCode then (fp32Word neg c, 0) else (fmax32 neg, fSAT)

/-- An exact value as FP32: infinities and NaNs as they stand, finite values by `round32`. -/
def to32 : FVal → Word × Flags
  | .nan => (nan32, fNAN)
  | .inf n => (inf32 n, 0)
  | .fin n m e => round32 n m e

/-- m₁·2^e₁ as a signed integer at exponent e. -/
def atExp (n : Bool) (m : Nat) (e0 e : Int) : Int :=
  let x : Int := (m * 2 ^ (e0 - e).toNat : Nat)
  if n then -x else x

/-- The exact sum of two finite values, with the zero rule of R45. -/
def addFin (n1 : Bool) (m1 : Nat) (e1 : Int) (n2 : Bool) (m2 : Nat) (e2 : Int) : FVal :=
  let e := min e1 e2
  let s := atExp n1 m1 e1 e + atExp n2 m2 e2 e
  if s = 0 then .fin (n1 && n2) 0 e else .fin (decide (s < 0)) s.natAbs e

/-- FP32 addition of R45 and Table 2-9. -/
def add32 (a b : Word) : Word × Flags :=
  let x := val32 a
  let y := val32 b
  let fl := operandFlags x ||| operandFlags y
  match x, y with
  | .nan, _ => (nan32, fl)
  | _, .nan => (nan32, fl)
  | .inf n, .inf n' => if n = n' then (inf32 n, fl) else (nan32, fl ||| fNAN)
  | .inf n, _ => (inf32 n, fl)
  | _, .inf n => (inf32 n, fl)
  | .fin n1 m1 e1, .fin n2 m2 e2 =>
    match addFin n1 m1 e1 n2 m2 e2 with
    | .fin n m e => let r := round32 n m e; (r.1, fl ||| r.2)
    | v => to32 v

/-- The exact product of two values under IEEE 754 (0 × ∞ is a NaN). -/
def mulVal : FVal → FVal → FVal
  | .nan, _ => .nan
  | _, .nan => .nan
  | .inf n, .inf n' => .inf (n != n')
  | .inf n, .fin n' m _ => if m = 0 then .nan else .inf (n != n')
  | .fin n m _, .inf n' => if m = 0 then .nan else .inf (n != n')
  | .fin n m e, .fin n' m' e' => .fin (n != n') (m * m') (e + e')

/-- The product of the arrays and the MVP (R40, R41): a zero operand gives +0; operand flags are raised before gating. -/
def macMul (x y : FVal) : Word × Flags :=
  let fl := operandFlags x ||| operandFlags y
  if x.isZero || y.isZero then (0, fl)
  else let r := to32 (mulVal x y); (r.1, fl ||| r.2)

/-- FP32 multiplication of the vector unit (R46). -/
def mul32 (a b : Word) : Word × Flags :=
  let x := val32 a
  let y := val32 b
  let r := to32 (mulVal x y)
  (r.1, operandFlags x ||| operandFlags y ||| r.2)

/-- Strict order of values, −0 below +0. -/
def ltVal (x y : FVal) : Bool :=
  match x, y with
  | .nan, _ => false
  | _, .nan => false
  | .inf n, .inf n' => n && !n'
  | .inf n, _ => n
  | _, .inf n => !n
  | .fin n1 m1 e1, .fin n2 m2 e2 =>
    let e := min e1 e2
    let a := atExp n1 m1 e1 e
    let b := atExp n2 m2 e2 e
    decide (a < b) || (decide (m1 = 0 ∧ m2 = 0) && n1 && !n2)

/-- Equality of values: +0 equals −0; a NaN equals nothing. -/
def eqVal (x y : FVal) : Bool :=
  match x, y with
  | .nan, _ => false
  | _, .nan => false
  | .inf n, .inf n' => n == n'
  | .inf _, _ => false
  | _, .inf _ => false
  | .fin n1 m1 e1, .fin n2 m2 e2 =>
    let e := min e1 e2
    decide (atExp n1 m1 e1 e = atExp n2 m2 e2 e)

/-- The eight operand formats of Table 2-1. -/
inductive Fmt where
  | int8 | int4 | e4m3 | e5m2 | e2m1 | bg4 | bf16 | fp16
  deriving DecidableEq, Repr

/-- The format of a code; codes 0x8 to 0xF are reserved (R30). -/
def fmtOf : Nat → Option Fmt
  | 0 => some .int8 | 1 => some .int4 | 2 => some .e4m3 | 3 => some .e5m2
  | 4 => some .e2m1 | 5 => some .bg4 | 6 => some .bf16 | 7 => some .fp16
  | _ => none

/-- Bits per element. -/
def Fmt.bits : Fmt → Nat
  | .int8 => 8 | .int4 => 4 | .e4m3 => 8 | .e5m2 => 8 | .e2m1 => 4 | .bg4 => 4 | .bf16 => 16 | .fp16 => 16

def Fmt.isInt : Fmt → Bool
  | .int8 => true | .int4 => true | _ => false

/-- The float specification of a float format; BG4 entries are BF16 (R35). -/
def Fmt.spec : Fmt → FpSpec
  | .e4m3 => specE4M3 | .e5m2 => specE5M2 | .e2m1 => specE2M1 | .fp16 => specFP16 | _ => specBF16

/-- Bytes that `k` elements of a format take, packed (R31). -/
def Fmt.bytes (f : Fmt) (k : Nat) : Nat := (k * f.bits + 7) / 8

/-- Element `i` of a packed row (R31). -/
def elem (f : Fmt) (bs : List Byte) (i : Nat) : Nat :=
  match f.bits with
  | 4 => let b := (nth 0 bs (i / 2)).toNat; if i % 2 = 0 then b % 16 else b / 16
  | 8 => (nth 0 bs i).toNat
  | _ => (nth 0 bs (2 * i)).toNat + 256 * (nth 0 bs (2 * i + 1)).toNat

/-- Two bytes a time from nibbles, the unused high nibble 0 (R31). -/
def packNibbles : List Nat → List Byte
  | [] => []
  | [a] => [BitVec.ofNat 8 (a % 16)]
  | a :: b :: r => BitVec.ofNat 8 (a % 16 + 16 * (b % 16)) :: packNibbles r

/-- Pack encodings of a width (R31). -/
def packBits (bits : Nat) (xs : List Nat) : List Byte :=
  match bits with
  | 4 => packNibbles xs
  | n => xs.flatMap (fun x => leBytes (n / 8) x)

/-- The signed integer of an INT8 or INT4 encoding. -/
def intVal (f : Fmt) (x : Nat) : Int := sgn f.bits x

/-- An integer as an exact value. -/
def ofInt (i : Int) : FVal := .fin (decide (i < 0)) i.natAbs 0

/-- Narrowing of a finite value to a float target, ties away (R48, R50): the encoding with its sign, and CLIP, UFL, SUBN. -/
def narrowFin (f : FpSpec) (neg : Bool) (m : Nat) (e : Int) : Nat × Flags :=
  let s := b2n neg * 2 ^ f.magBits
  let c := roundCode f .away m e
  if m = 0 then (s, 0)
  else if c = 0 then (s, fUFL)
  else if f.maxCode < c then (s + f.maxCode, fCLIP)
  else (s + c, flagIf (decide (c < 2 ^ (f.p - 1))) fSUBN)

/-- Narrowing to a float operand format: R48 for finite values, R49 for the others. -/
def narrowFloat (f : FpSpec) : FVal → Nat × Flags
  | .nan => (f.nanCode.getD 0, fNAN)
  | .inf n =>
    let s := b2n n * 2 ^ f.magBits
    match f.infCode with
    | some c => (s + c, fINF)
    | none => (s + f.maxCode, fCLIP ||| fINF)
  | .fin n m e => narrowFin f n m e

/-- A finite value rounded to an integer, ties away from zero (R48). -/
def roundInt (neg : Bool) (m : Nat) (e : Int) : Int :=
  let q : Nat := if 0 ≤ e then m * 2 ^ e.toNat else shiftRound .away m (-e).toNat
  if neg then -(q : Int) else q

/-- Clamp to a range, with a mark of whether it changed. -/
def clampInt (lo hi x : Int) : Int × Bool :=
  if hi < x then (hi, true) else if x < lo then (lo, true) else (x, false)

/-- Narrowing to a signed integer of `w` bits (R48, R49). -/
def narrowInt (w : Nat) : FVal → Int × Flags
  | .nan => (0, fNAN)
  | .inf n => (if n then -(2 ^ (w - 1) : Nat) else ((2 ^ (w - 1) - 1 : Nat) : Int), fCLIP ||| fINF)
  | .fin n m e =>
    let r := clampInt (-(2 ^ (w - 1) : Nat)) ((2 ^ (w - 1) - 1 : Nat) : Int) (roundInt n m e)
    (r.1, flagIf r.2 fCLIP)

/-- The two's complement encoding of an integer in `w` bits. -/
def encInt (w : Nat) (i : Int) : Nat := (i % (2 ^ w : Nat)).toNat

/-- Narrowing to any operand format but BG4: the encoding and the flags. -/
def narrow (f : Fmt) (v : FVal) : Nat × Flags :=
  if f.isInt then let r := narrowInt f.bits v; (encInt f.bits r.1, r.2)
  else narrowFloat f.spec v

/-- Conversion to UE5M3 (R51). -/
def toUE5M3 : FVal → Nat × Flags
  | .nan => (0, fNAN)
  | .inf n => (if n then 0 else 0xFF, fCLIP ||| fINF)
  | .fin n m e =>
    if m = 0 then (0, 0)
    else if n then (0, fCLIP)
    else narrowFin ue5m3 false m e

/-- The exact value of an element of a format (R47); a BG4 code reads its codebook (R35). -/
def elemVal (f : Fmt) (cb : List Half) (x : Nat) : FVal :=
  match f with
  | .int8 => ofInt (intVal .int8 x)
  | .int4 => ofInt (intVal .int4 x)
  | .bg4 => decFp specBF16 (nth 0 cb (x % 16)).toNat
  | g => decFp g.spec x

/-- Widening to an FP32 or INT32 lane (R47, Table 5-5 VLDW): every NaN is canonical with NAN. -/
def widenLane (f : Fmt) (x : Nat) : Word × Flags :=
  match f with
  | .int8 => (BitVec.ofInt 32 (intVal .int8 x), 0)
  | .int4 => (BitVec.ofInt 32 (intVal .int4 x), 0)
  | g => to32 (decFp g.spec x)

/-- The FP32 product of x and f before narrowing (R70): IEEE at its special values. -/
def outProduct (x f : FVal) : FVal × Flags :=
  let v := mulVal x f
  match x, f with
  | .nan, _ => (.nan, fNAN)
  | _, .nan => (.nan, fNAN)
  | .inf _, _ => (v, fINF ||| flagIf v.isNan fNAN)
  | _, .inf _ => (v, fINF ||| flagIf v.isNan fNAN)
  | _, _ => (v, 0)

/-- Narrowing with the output scale: x × f exactly, narrowed once (R70). -/
def narrowScaled (t : Fmt) (x : Word) (f : Word) : Nat × Flags :=
  let p := outProduct (val32 x) (val32 f)
  let r := narrow t p.1
  (r.1, r.2 ||| p.2)

/-- INT32 to FP32 (R47, R48): ties away, no flag. -/
def cvtIF (x : Word) : Word :=
  let i := x.toInt
  fp32Word (decide (i < 0)) (roundCode fp32 .away i.natAbs 0)

/-- FP32 to INT32 (R48, R49). -/
def cvtFI (x : Word) : Word × Flags :=
  let r := narrowInt 32 (val32 x)
  (BitVec.ofInt 32 r.1, r.2)

def maxI32 : Int := 2147483647
def minI32 : Int := -2147483648

/-- Saturating INT32 of an exact integer. -/
def satI32 (x : Int) : Word × Flags :=
  let r := clampInt minI32 maxI32 x
  (BitVec.ofInt 32 r.1, flagIf r.2 fSAT)

/-- One accumulation into an INT32 entry with its sticky bit (R43, R44). -/
def accInt (entry : Word) (sticky : Bool) (p : Int) : Word × Bool × Flags :=
  if sticky then (entry, true, 0)
  else
    let r := clampInt minI32 maxI32 (entry.toInt + p)
    (BitVec.ofInt 32 r.1, r.2, flagIf r.2 fSAT)

/-- The requantisation record of Table 3-2, as 64 bits. -/
structure ReqRec where
  m : Int
  sh : Nat
  zo : Nat
  zw : Nat
  deriving DecidableEq, Repr

/-- Read a record (Table 3-2); bits [39:38] are ignored. -/
def reqRecOf (x : Nat) : ReqRec :=
  { m := sgn 32 (fld x 31 0), sh := fld x 37 32, zo := fld x 47 40, zw := fld x 55 48 }

/-- Targets of a requantisation (R68). -/
inductive ReqTgt where
  | int8 | int4 | int32
  deriving DecidableEq, Repr

/-- The rounding shift of R52: exact, ties away. -/
def reqShift (y : Int) (sh : Nat) : Int :=
  if sh = 0 then y
  else
    let q : Int := ((y.natAbs + 2 ^ (sh - 1)) / 2 ^ sh : Nat)
    if y < 0 then -q else q

/-- Requantisation of R52 and R69: the clamped result and whether the clamp changed it. -/
def requant (a : Int) (rec : ReqRec) (t : ReqTgt) : Int × Bool :=
  let z := reqShift (a * rec.m) rec.sh
  match t with
  | .int32 => clampInt minI32 maxI32 z
  | .int8 => clampInt (-128) 127 (z + sgn 8 rec.zo)
  | .int4 => clampInt (-8) 7 (z + sgn 4 rec.zo)

/-- One lane of FRND (Table 5-5): narrow to f without output scale, then widen to FP32. -/
def frnd (f : Fmt) (x : Word) : Word × Flags :=
  if f.isInt then
    let r := narrowInt f.bits (val32 x)
    ((to32 (ofInt r.1)).1, r.2)
  else
    let r := narrowFloat f.spec (val32 x)
    let w := to32 (decFp f.spec r.1)
    (w.1, r.2 ||| w.2)

end Sys2Proof.Machine
end

