-- ==== Sys2Proof/Machine/CoreTypes.lean ====
section
/-!
DEFINITION. The state of one core: registers, scratch, arrays, MVP, vector unit, DMA streams, and the operations each
of them holds in flight (chapters 4 to 8 of the spec).
-/
namespace Sys2Proof.Machine

/-- 64 lanes of 32 bits (R133). -/
abbrev Lanes := Vector Word 64

/-- A span of bytes: first byte and length. -/
abbrev Span := Nat × Nat

/-- A tag action on a near-scratch access (Table 7-4). -/
inductive ReadTag where
  | free | wait | take
  deriving DecidableEq, Repr

/-- Near-scratch base and limit in KB (Table 7-3). -/
structure NsWin where
  nsb : Nat
  nsl : Nat
  deriving DecidableEq, Repr

/-- One running loop (R191); the level is its position counted from the outermost. -/
structure LoopRec where
  cnt : Nat
  first : Nat
  last : Nat
  snap : List (Nat × Word)
  deriving DecidableEq, Repr

/-- What CALL saves (R197): the caller's pc, code length, near window, loops, address registers, AINC and ABIND. -/
structure Frame where
  pc : Nat
  codeLen : Nat
  win : NsWin
  loops : List LoopRec
  lc : Vector Word 4
  a : Vector Word 16
  ainc : Vector DWord 64
  abind : Vector DWord 16
  deriving DecidableEq, Repr

/-- Scales carried by a weight set or an activation row: group code and superscale code of one column or row. -/
structure ScaleRec where
  group : Nat
  super : Nat
  deriving DecidableEq, Repr

/-- Rate class of an array load or pass (Table 4-1): it lays out the weight block and the weight registers (R90, R91). -/
inductive RateClass where
  | eight | four | quarter
  deriving DecidableEq, Repr

/-- One loaded weight set (R90): the block of R91 in the layout of its class, its format and transposition, its columns, its
scales (one per column, or one per stored row in a transposed load), whether G is 32, its codebook, and what the load sets
beside the weights: the zero-detect bit of each weight and the parity bit of each register, in the order of the block. -/
structure WSet where
  fmt : Nat
  cls : RateClass
  trans : Bool
  nr : Nat
  block : List Byte
  sc : Bool
  smodeB : Bool
  g32 : Bool
  scales : List ScaleRec
  codebook : List Byte
  zero : BitVec 2048
  parity : BitVec 1024
  deriving DecidableEq, Repr

/-- The active and shadow registers of one array; `none` is a register not loaded in the step (R93). -/
structure ArrayW where
  active : Option WSet
  shadow : Option WSet
  deriving DecidableEq, Repr

/-- A tagged near-scratch read in progress (R168): the accesses still to be made, each within one slot, the bytes taken so far
with their physical offsets, and the slots whose first access has been made. -/
structure Feed where
  todo : List Span
  cap : List (Nat × List Byte)
  ent : List Nat
  deriving DecidableEq, Repr

/-- The near-scratch writes of a read-out that have still to land, each within one slot, and the slots entered (R168). -/
structure Puts where
  todo : List (Nat × List Byte)
  ent : List Nat
  deriving DecidableEq, Repr

/-- A chained or separate read-out with all that it reads at its own issue (R67, R213): template fields, destination
offset, the requantisation records of each array, the output scale, the near window. -/
structure ReadPlan where
  kind : Nat
  ofmt : Nat
  nr : Nat
  da : Nat
  dstr : Nat
  dtag : Bool
  vd : Nat
  isInt : Bool
  recs : List (List ReqRec)
  os : Word
  win : NsWin
  deriving DecidableEq, Repr

/-- A pass in flight (R213). `arrays` pairs each AMASK number j with the array it names. -/
structure PassFlight where
  seq : Nat
  mode : Nat
  afmt : Nat
  wfmt : Nat
  kr : Nat
  nr : Nat
  arrays : List (Nat × Nat)
  m : Nat
  accRow : Nat
  init : Bool
  swap : Bool
  plan : Option ReadPlan
  /-- descriptor, window register and operands of the ROWS of the bundle (R208) -/
  ad : Nat
  wd : List Nat
  base : Nat
  q0 : Nat
  y0 : Nat
  kb : Nat
  sa : Nat
  ssa : Nat
  zp : Byte
  zw : List (List Nat)
  win : NsWin
  /-- near bytes the pass still has to read, physical -/
  reads : List Span
  tag : ReadTag
  /-- the pass has begun: its swap is made and its rows are being read (R92, R168) -/
  feed : Option Feed
  /-- the pass has written its entries; its chained read-out has begun, and what it has still to land -/
  wrote : Bool
  out : Option Puts
  /-- set when the pass has streamed: per array and streamed row, the 32 pass results and the flags -/
  started : Bool
  sums : List (List (List Word × Flags))
  deriving DecidableEq, Repr

/-- A separate read-out in flight. -/
structure ReadFlight where
  seq : Nat
  arrays : List (Nat × Nat)
  first : Nat
  count : Nat
  plan : ReadPlan
  out : Option Puts
  deriving DecidableEq, Repr

/-- A LOADW or IMPORT in flight (R91, R114), with the register values it read at issue. -/
structure LoadFlight where
  seq : Nat
  isImport : Bool
  arrays : List (Nat × Nat)
  bd : Nat
  a : Nat
  /-- class of the passes that the set is loaded for (R91) -/
  cls : RateClass
  nr : Nat
  first : Nat
  count : Nat
  sa : Nat
  ssa : Nat
  codebook : List Byte
  win : NsWin
  reads : List Span
  tag : ReadTag
  feed : Feed
  deriving DecidableEq, Repr

/-- A tap load or a store load of address generator A (R154, Table 8-6). -/
inductive TapKind where
  | tap (vd : VReg) (ad : Nat) (wd : List Nat) (base q y0 tap c0 : Nat) (padMax : Bool) (codebook : List Byte)
  | stld (row : Fin 4) (len dst : Nat)
  deriving DecidableEq, Repr

structure TapFlight where
  seq : Nat
  kind : TapKind
  win : NsWin
  reads : List Span
  tag : ReadTag
  feed : Feed
  deriving DecidableEq, Repr

/-- The read-out of an MVP operation, as read at its issue. -/
structure MvPlan where
  kind : Nat
  ofmt : Nat
  toNs : Bool
  vd : Nat
  da : Nat
  vstr : Nat
  dtag : Bool
  recs : List ReqRec
  os : Word
  isInt : Bool
  win : NsWin
  deriving DecidableEq, Repr

/-- An MVPASS or MVREAD in flight (R127). -/
structure MvFlight where
  seq : Nat
  isPass : Bool
  v : Nat
  n : Nat
  acc : Nat
  init : Bool
  afmt : Nat
  wfmt : Nat
  k : Nat
  aoff : Nat
  /-- activation vectors read from registers at issue, narrowed; `none` for STORE -/
  vregs : Option (List (List Nat))
  bd : Nat
  a : Nat
  sa : Nat
  ssa : Nat
  zp : Byte
  zw : List Nat
  codebook : List Byte
  plan : Option MvPlan
  win : NsWin
  reads : List Span
  tag : ReadTag
  feed : Feed
  /-- the pass is accumulated (or the read-out begun), and what its read-out has still to land -/
  out : Option Puts
  deriving DecidableEq, Repr

/-- What a vector operation does when it lands. -/
inductive VecEffect where
  | regs (ws : List (VReg × Lanes))
  | scalar (d : SReg) (x : DWord)
  | store (off : Nat) (bs : List Byte) (set : Bool)
  deriving DecidableEq, Repr

structure VecFlight where
  seq : Nat
  eff : VecEffect
  deriving DecidableEq, Repr

/-- A deep-scratch write issued by the core that has not landed: physical address and byte. -/
structure DeepWrite where
  seq : Nat
  dsa : Nat
  bs : List Byte
  deriving DecidableEq, Repr

/-- One piece of a DMA command's access to host memory (R312) or, with `peer`, to an inbound window of another engine
(R178, R339): address or window offset, length, and its offset in the command's byte order. -/
structure Seg where
  va : Nat
  len : Nat
  off : Nat
  peer : Option (Nat × Nat)
  deriving DecidableEq, Repr

/-- A walk in progress (R305): the address, the level to be read next, the table it reads. -/
structure WalkSt where
  va : Nat
  ast : Nat
  level : Nat
  table : Nat
  /-- an INVALIDATE came after a read of this walk was issued (R314) -/
  restart : Bool
  /-- its read is on the port; else it waits for an ID (R293) -/
  asked : Bool
  deriving DecidableEq, Repr

/-- A DMA command in flight (R211). -/
structure DmaFlight where
  seq : Nat
  exp : Bool
  dd : Nat
  /-- near side of row 0: an offset, or a deep address when NONEAR; far side of row 0 -/
  near : Nat
  far : Nat
  len : Nat
  rows : Nat
  win : NsWin
  /-- near bytes an outbound command has still to read, physical -/
  reads : List Span
  feed : Feed
  /-- 0 waits, 1 collects its source, 2 collects the rest of its ZB64 row slots, 3 delivers -/
  phase : Nat
  /-- pieces still to be presented, the number of port transactions open, the walk it waits for -/
  todo : List Seg
  openTx : Nat
  walk : Option WalkSt
  /-- source bytes collected, by offset in the source's byte order -/
  got : Tab (List Byte)
  /-- bytes for a host or remote destination, stored bytes that the expander has still to expand; the number of the block
  it expanded last (R321) -/
  out : List Byte
  lastBlock : Option Nat
  /-- near writes that have still to land, one slot each, and the slots entered (R168) -/
  land : List (Nat × List Byte)
  begun : List Nat
  deriving DecidableEq, Repr

/-- One DMA stream: its commands, the expander's prefix-table registers and its output buffers, the oldest first (R323). -/
structure DmaStream where
  q : List DmaFlight
  prefixTabs : Tab (List Nat)
  expBufs : List (List Byte)
  deriving DecidableEq, Repr

/-- What a core is doing. -/
inductive CorePhase where
  | idle | running | halted | committed
  deriving DecidableEq, Repr

/-- One core. -/
structure Core where
  phase : CorePhase
  part : PartId
  /-- Table 8-2 -/
  s : Vector DWord 32
  a : Vector Word 16
  lc : Vector Word 4
  v : Vector Lanes 32
  /-- descriptor banks, INDEX to VALUE (Table 8-3), but for AINC and ABIND, which a program writes (R187) -/
  bank0 : Tab DWord
  bank1 : Tab DWord
  /-- codebook number of the declaration each descriptor register is linked to (R71, R220) -/
  books0 : Tab Nat
  books1 : Tab Nat
  ainc : Vector DWord 64
  abind : Vector DWord 16
  /-- output scale and activation zero point (R216) -/
  zp : Byte
  os : Word
  /-- Table 7-3 -/
  win : NsWin
  /-- sequencer -/
  pc : Nat
  codeLen : Nat
  /-- first byte of the running routine in the routine store -/
  codeBase : Nat
  loops : List LoopRec
  frame : Option Frame
  staged : List SlotOp
  fetched : List (List SlotOp)
  /-- the head bundle's hold is one of time only (DELAY, the transfers of R198): released by the hold-release command -/
  timed : Bool
  seq : Nat
  /-- CCLK without an issue (R205) and since the first issue -/
  watchdog : Nat
  issued : Nat
  runCclk : Nat
  signals : List (Nat × Fin 16)
  /-- near scratch (R160 to R167), physical offsets -/
  near : Tab Byte
  fullTag : Tab Bool
  written : Tab Bool
  /-- words with an uncorrectable error, and words in which one bit is flipped: a correctable error (R179, R180) -/
  nearPoison : Tab Bool
  nearFlip : Tab Bool
  imem : Tab Byte
  imemPoison : Tab Bool
  imemFlip : Tab Bool
  /-- arrays -/
  weights : Vector ArrayW 4
  acc : Tab Word
  sticky : Tab Bool
  rowInit : Tab Bool
  rowFp : Tab Bool
  /-- mode of the pass that wrote a row last: an IMPORT combines by it (R114) -/
  rowMode : Tab Nat
  tileFlags : Tab Flags
  tileUsed : Tab Bool
  accPoison : Tab Bool
  accFlip : Tab Bool
  stepFlags : Flags
  /-- MVP -/
  store : Tab Byte
  mvAcc : Tab Word
  mvSticky : Tab Bool
  mvInit : Tab Bool
  mvFp : Tab Bool
  mvFlags : Flags
  vecFlags : Flags
  /-- R75 -/
  narrowed : BitVec 48
  clipped : BitVec 48
  portMask : BitVec 4
  /-- in flight -/
  passQ : List PassFlight
  readQ : List ReadFlight
  agbQ : List LoadFlight
  tapQ : List TapFlight
  mvQ : List MvFlight
  vecQ : List VecFlight
  deepW : List DeepWrite
  dma : Vector DmaStream 8
  /-- engines written through a remote window in the run and not flushed since, FLUSHes open (R346) -/
  remoteDirty : BitVec 8
  remoteFlush : BitVec 8
  /-- strip statistics of the run (R276): strips taken, CCLK at the first STRIP and at the token -/
  strips : Nat
  firstStrip : Option Nat
  deriving DecidableEq, Repr

end Sys2Proof.Machine
end

