-- ==== Sys2Proof/Machine/Codec.lean ====
section
/-!
DEFINITION. The codecs of the DMA streams and the expander: ZB64 blocks and row slots (R158, R159, R182), HBC blocks and
prefix codes (R318 to R321).
-/
namespace Sys2Proof.Machine

/-! ### ZB64 -/

/-- The bitmap of 64 bytes: bit i is 1 when byte i is not 0. -/
def zbBitmap (bs : List Byte) : Nat := ((List.range 64).map (fun i => if bs.getD i 0 = 0 then 0 else 2 ^ i)).sum

/-- One block: the bitmap, then the bytes that are not 0 (R182). -/
def zbBlock (bs : List Byte) : List Byte := leBytes 8 (zbBitmap bs) ++ (bs.take 64).filter (· ≠ 0)

/-- The blocks of a byte string, the last one padded with 0. -/
def zbBlocks (bs : List Byte) : List Byte :=
  (List.range (ceilDiv bs.length 64)).flatMap (fun i => zbBlock (slice bs (64 * i) 64))

/-- Bytes of a row slot (R158). -/
def zbSlot (len : Nat) : Nat := roundUp (4 + 72 * ceilDiv len 64) 64

/-- The header and payload of a row slot (Table 6-3). -/
def zbRow (bs : List Byte) : List Byte := let p := zbBlocks bs; leBytes 3 p.length ++ [0] ++ p

/-- Place the packed bytes at the set bits. -/
def zbFill : Nat → Nat → List Byte → List Byte
  | 0, _, _ => []
  | n + 1, m, bs =>
    if m % 2 = 1 then bs.headD 0 :: zbFill n (m / 2) (bs.drop 1) else 0 :: zbFill n (m / 2) bs

/-- Set bits of the low 64. -/
def popCount64 (m : Nat) : Nat := (List.range 64).countP (fun i => bitAt m i)

/-- Decode n blocks: the bytes and what follows; none when the bytes end inside a block. -/
def zbDecode : Nat → List Byte → Option (List Byte × List Byte)
  | 0, bs => some ([], bs)
  | n + 1, bs =>
    let m := leAt bs 0 8
    let k := popCount64 m
    if bs.length < 8 + k then none
    else match zbDecode n (bs.drop (8 + k)) with
      | some (x, r) => some (zbFill 64 m ((bs.drop 8).take k) ++ x, r)
      | none => none

/-- Payload length of a row slot. -/
def zbPayload (slot : List Byte) : Nat := leAt slot 0 3

/-- Decode a row slot of a row of `len` bytes; none is the failure of R159. -/
def zbRowDecode (len : Nat) (slot : List Byte) : Option (List Byte) :=
  let p := zbPayload slot
  if zbSlot len - 4 < p then none
  else match zbDecode (ceilDiv len 64) (slice slot 4 p) with
    | some (x, []) => some (x.take len)
    | _ => none

/-! ### Prefix codes (R320) -/

/-- Canonical codes of 16 lengths: (length, code, symbol), in order of length, then symbol. -/
def prefixCodes (ls : List Nat) : List (Nat × Nat × Nat) :=
  let syms := (List.range 11).flatMap (fun l => (List.range 16).filterMap (fun s =>
    if nth 0 ls s = l + 1 then some (l + 1, s) else none))
  (syms.foldl (fun (r : List (Nat × Nat × Nat) × Option (Nat × Nat)) x =>
    let code := match r.2 with
      | none => 0
      | some (l, c) => (c + 1) * 2 ^ (x.1 - l)
    (r.1 ++ [(x.1, code, x.2)], some (x.1, code))) ([], none)).1

/-- The lengths satisfy R320: none above 11, the sum of 2^(−length) is 1. -/
def prefixOk (ls : List Nat) : Bool :=
  ls.all (fun l => decide (l ≤ 11)) && decide ((ls.map (fun l => if l = 0 then 0 else 2 ^ (11 - l))).sum = 2 ^ 11)

/-- The 16 lengths of a TABLE payload. -/
def prefixLengths (bs : List Byte) : List Nat := (List.range 16).map (fun s => fld (leNat bs) (4 * s + 3) (4 * s))

/-- Bits of a payload in the order in which the decoder reads them. -/
def bitStream (bs : List Byte) : List Bool := bs.flatMap (fun b => (List.range 8).map (fun i => b.getLsbD i))

/-- Decode `n` codes: symbols and the bits left; `acc` holds the length and value of the bits read of the code. -/
def prefixDecode (cs : List (Nat × Nat × Nat)) : Nat → Nat × Nat → List Bool → Option (List Nat × List Bool)
  | 0, _, bits => some ([], bits)
  | _, _, [] => none
  | n + 1, (l, v), b :: bits =>
    let l' := l + 1
    let v' := 2 * v + b2n b
    match cs.find? (fun x => decide (x.1 = l' ∧ x.2.1 = v')) with
    | some x => (prefixDecode cs n (0, 0) bits).map (fun r => (x.2.2 :: r.1, r.2))
    | none => prefixDecode cs (n + 1) (l', v') bits

/-! ### HBC blocks (R318, R319, R321) -/

/-- A good block: its output, the prefix tables after it, its stored size and number. -/
structure HbcOut where
  out : List Byte
  tabs : Tab (List Nat)
  size : Nat
  num : Nat
  deriving DecidableEq, Repr

/-- A failed check of Table 14-3 and the block number of the header. -/
structure HbcBad where
  cause : Nat
  num : Nat
  deriving DecidableEq, Repr

/-- The payload's output by mode; none is cause 6. -/
def hbcPayload (mode outLen : Nat) (lens : List Nat) (pay : List Byte) : Option (List Byte) :=
  match mode with
  | 0 => some pay
  | 1 =>
    match zbDecode (ceilDiv outLen 64) pay with
    | some (x, []) => if (x.drop outLen).all (· = 0) then some (x.take outLen) else none
    | _ => none
  | _ =>
    match prefixDecode (prefixCodes lens) (2 * outLen) (0, 0) (bitStream pay) with
    | some (x, rest) => if rest.length < 8 ∧ rest.all (· = false) then some (packNibbles x) else none
    | none => none

/-- Check and expand the block at the front of `bs`, with the number of the previous block of the command. -/
def hbcBlock (tabs : Tab (List Nat)) (prev : Option Nat) (bs : List Byte) : Except HbcBad HbcOut :=
  let mode := leAt bs 0 1
  let treg := leAt bs 1 1
  let outLen := leAt bs 2 2
  let payLen := leAt bs 4 4
  let num := leAt bs 12 2
  let size := roundUp (16 + payLen) 64
  let pay := slice bs 16 payLen
  let bad := fun (c : Nat) => Except.error (HbcBad.mk c num)
  if bs.length < 16 then bad 7
  else if 4096 < payLen then bad 3
  else if bs.length < size then bad 7
  else if crc32c (overwrite (bs.take 16) 8 [0, 0, 0, 0] ++ pay) ≠ leAt bs 8 4 then bad 1
  else if 3 < mode ∨ leAt bs 14 2 ≠ 0 ∨ 15 < treg ∨ (mode < 2 ∧ treg ≠ 0) then bad 2
  else if (mode = 3 ∧ outLen ≠ 0) ∨ (mode ≠ 3 ∧ (outLen = 0 ∨ 4096 < outLen)) ∨ (mode = 0 ∧ payLen ≠ outLen) then bad 3
  else if prev.any (fun p => decide (num ≠ (p + 1) % 65536)) then bad 4
  else if mode = 3 then
    if payLen ≠ 8 then bad 6
    else if !prefixOk (prefixLengths pay) then bad 5
    else .ok { out := [], tabs := Tab.put tabs treg (prefixLengths pay), size := size, num := num }
  else
    let lens := Tab.get [] tabs treg
    if mode = 2 ∧ lens = [] then bad 5
    else match hbcPayload mode outLen lens pay with
      | some x => .ok { out := x, tabs := tabs, size := size, num := num }
      | none => bad 6

/-- Expand a whole command: output, tables, blocks expanded, and the first bad block. -/
def hbcRun : Nat → Tab (List Nat) → Option Nat → List Byte → List Byte × Tab (List Nat) × Nat × Option HbcBad
  | 0, tabs, _, _ => ([], tabs, 0, none)
  | n + 1, tabs, prev, bs =>
    if bs = [] then ([], tabs, 0, none)
    else match hbcBlock tabs prev bs with
      | .error e => ([], tabs, 0, some e)
      | .ok b =>
        let r := hbcRun n b.tabs (some b.num) (bs.drop b.size)
        (b.out ++ r.1, r.2.1, r.2.2.1 + 1, r.2.2.2)

end Sys2Proof.Machine
end

