-- ==== Sys2Proof/Machine/RunTypes.lean ====
section
/-!
DEFINITION. The state of partitions, queues, steps, images, tables, the journal, the real-time partition, the memory
ports and the translation caches (chapters 3, 5 and 9 to 13 of the spec).
-/
namespace Sys2Proof.Machine

/-- One routine of the directory (Table 9-9). -/
structure RoutineRec where
  id : Nat
  flags : Nat
  storeOff : Nat
  bundles : Nat
  minLen : Nat
  wcet : Nat
  clobS : Nat
  clobV : Nat
  descOff : Nat
  crc : Nat
  deriving DecidableEq, Repr

/-- A copy of a codebook (32 B) or a curve record (1,088 B), with the count of switches that made it. -/
structure TabCopy where
  gen : Nat
  bytes : List Byte
  deriving DecidableEq, Repr

/-- Quantisation policy of a partition (Table 3-5). -/
structure Policy where
  limit : Half
  mask : Byte
  twin : Bool
  deriving DecidableEq, Repr

/-- The tables a step binds at acceptance (R26): codebooks, curves, policies, routine directory. -/
structure Tables where
  codebooks : Vector TabCopy 64
  curves : Vector TabCopy 32
  policy : Vector Policy 8
  dir : List RoutineRec
  deriving DecidableEq, Repr

/-- An accepted image (R218, R223): its bytes, whether it lies in the partition's image area, the certified WCET of an
RT image, the directory it was verified against (R234, R235). -/
structure ImgRec where
  bytes : List Byte
  resident : Bool
  wcet : Nat
  dir : List RoutineRec
  /-- where its LOAD read it: device virtual address and AST (R222, R224) -/
  va : Nat
  ast : Nat
  deriving DecidableEq, Repr

/-- A LOAD that has not reported its outcome (R222). -/
structure LoadReq where
  va : Nat
  length : Nat
  ast : Nat
  deriving DecidableEq, Repr

/-- A step descriptor (Table 10-1). -/
structure StepDesc where
  kv : Bool
  cwin : Bool
  flip : Bool
  qseq : Word
  base : Word
  adapter : Word
  strips : Nat
  kvVa : Nat
  kvMax : Nat
  args : List DWord
  deriving DecidableEq, Repr

/-- Journal states of Table 10-4. -/
inductive StepState where
  | accepted | started | killed | committed | failed
  deriving DecidableEq, Repr

/-- A weight-set version bound to a step: slot number and the version's serial number (R328). -/
structure WBind where
  slot : Nat
  serial : Nat
  deriving DecidableEq, Repr

/-- A step that is accepted and not final (R241, R242). -/
structure StepRec where
  aseq : Nat
  queue : QueueId
  part : PartId
  rt : Bool
  cls : Nat
  ast : Nat
  desc : StepDesc
  image : Option ImgRec
  tables : Tables
  base : Option WBind
  adapter : Option WBind
  state : StepState
  status : Byte
  flags : Byte
  starts : Nat
  kills : Nat
  twin : Bool
  lockKill : Bool
  tAccept : Nat
  tLast : Nat
  /-- multiples of AGE_LIMIT its wait at the head of its queue has crossed since it last became dispatchable (R271) -/
  aged : Nat
  /-- ticks at which it last became the dispatchable head of its queue (R271) -/
  since : Nat
  /-- arrival of its RT doorbell (R280) -/
  tBell : Nat
  /-- CCLK of the last run (R240), the narrowed and clipped counts are the run's -/
  cclk : Nat
  deriving DecidableEq, Repr

/-- A token of a core at the collector (R251). -/
structure Token where
  core : CoreId
  flags : Flags
  narrowed : BitVec 48
  clipped : BitVec 48
  ports : BitVec 4
  /-- strips taken, and CCLK from the first STRIP to the token (R276) -/
  strips : Nat
  stripCclk : Nat
  deriving DecidableEq, Repr

/-- Why a run is being drained (R247): a kill with its cause, or a fault with status and DETAIL. -/
inductive StopWhy where
  | kill (cause : Byte)
  | fault (status : Byte) (detail : Word)
  deriving DecidableEq, Repr

/-- Phases of a run. -/
inductive RunPhase where
  | running
  /-- the ports whose read-back flush is still to be issued, and the flushes that are open -/
  | flushing (todo : List PortId) (left : Nat)
  | commit
  | draining (why : StopWhy)
  deriving DecidableEq, Repr

/-- The current run of a partition. -/
structure RunSt where
  aseq : Nat
  cores : List CoreId
  twin : Bool
  phase : RunPhase
  arrived : List Token
  taken : List Token
  started : Nat
  firstIssue : Bool
  /-- CCLK since the STARTED write (R272) and since the first issue (R240) -/
  cclk : Nat
  issueCclk : Nat
  /-- the same two counts when the collector took the last token: what a run that commits is charged and reports -/
  tokenCclk : Nat
  tokenIssue : Nat
  /-- CCLK since the kill reached the cores (R247) -/
  stopCclk : Nat
  /-- a kill that came while the commit phase was open; it has no further effect however the phase ends (R249) -/
  heldKill : Bool
  /-- the run has lasted TIME_SLICE (R273) -/
  sliced : Bool
  /-- ticks at which the collector took the last token (R388) -/
  ended : Nat
  deriving DecidableEq, Repr

/-- Strip rates of one window (R276): per core, strips and CCLK summed, and steps counted. -/
structure RateWin where
  steps : Nat
  rates : Tab (Nat × Nat)
  deriving DecidableEq, Repr

/-- A partition (Table 11-1). -/
structure Partition where
  coreMask : Word
  flowMode : Byte
  rt : Bool
  imageArea : Word
  watchdog : Word
  loading : Option LoadReq
  loadStatus : QWord
  active : Option ImgRec
  pendingImg : Option ImgRec
  lostInWinter : Bool
  lastReject : Half
  dw : Vector DWord 4
  engineCclk : DWord
  killedCclk : DWord
  committed : DWord
  stripCounter : Nat
  events : Vector Word 16
  run : Option RunSt
  rate : RateWin
  lastNarrowed : DWord
  lastClipped : DWord
  twinRuns : DWord
  unserved : DWord
  deriving DecidableEq, Repr

/-- A queue (Table 11-2); virtual time of R272 in units of 1 / lcm(1..255) core-CCLK. -/
structure Queue where
  enable : Bool
  part : PartId
  cls : Fin 4
  share : Byte
  ast : Half
  ringVa : DWord
  compVa : DWord
  slotsLog2 : Byte
  irqEn : Bool
  fetch : Word
  tail : Word
  stopped : Bool
  engineCclk : DWord
  killedCclk : DWord
  vtime : Nat
  cword : Word
  deriving DecidableEq, Repr

/-- A fetched descriptor that passed its checks and waits for acceptance (R238, R269). -/
structure Fetched where
  queue : QueueId
  desc : StepDesc
  deriving DecidableEq, Repr

/-- Job counts of one session (R274). -/
structure Session where
  accepted : DWord
  committed : DWord
  killed : DWord
  deriving DecidableEq, Repr

/-- One journal entry (Table 10-7). -/
structure JEntry where
  aseq : Nat
  queue : Nat
  part : Nat
  state : Nat
  ast : Nat
  reruns : Nat
  status : Byte
  flags : Byte
  qseq : Word
  tAccept : DWord
  tLast : DWord
  deriving DecidableEq, Repr

/-- ARM_STATE (Table 11-4). -/
inductive ArmState where
  | disarmed | arming | armed | disarming | halted
  deriving DecidableEq, Repr

/-- An entry of the RT pending list (R279): the slot contents at the doorbell, and its arrival. -/
structure RtPending where
  bytes : List Byte
  arrival : Nat
  deriving DecidableEq, Repr

/-- The real-time partition's entries (Table 11-4) and RT slots (R278). -/
structure RtSt where
  arm : ArmState
  armResult : Byte
  /-- arming came from DISARMING: steps of before may still run (R426) -/
  again : Bool
  pend : List RtPending
  refused : DWord
  seq : Word
  worstStart : Word
  /-- when the cores of the last RT run became free (R280) -/
  freeAt : Nat
  slotValid : Half
  slots : Vector (List Byte) 16
  deriving DecidableEq, Repr

/-- States of a port (Table 12-7). -/
inductive PortState where
  | absent | down | settling | up | held | failed
  deriving DecidableEq, Repr

/-- Who made a port request. -/
inductive Owner where
  /-- a DMA piece: its offset and length in the command, and the bytes before it in its first beat -/
  | dma (c : CoreId) (t : Fin 8) (seq off len lead : Nat)
  | walkStream (c : CoreId) (t : Fin 8)
  | walkRecord (id : Nat)
  | record (id : Nat)
  | recordFlush (id : Nat)
  | dataFlush (p : PartId)
  /-- a read whose run was stopped: what it returns is discarded (R247) -/
  | dropped
  deriving DecidableEq, Repr

/-- Port opcodes (Table 12-4). -/
inductive PortOp where
  | read | write | writep | flush | addf32 | addbf16
  deriving DecidableEq, Repr

/-- An outstanding transaction (R286). -/
structure Txn where
  id : Byte
  op : PortOp
  addr : Nat
  beats : Nat
  qos : Fin 4
  owner : Owner
  issued : Nat
  /-- write data as (address, byte) and read data taken so far -/
  wdata : List (Nat × Byte)
  rdata : List Byte
  deriving DecidableEq, Repr

/-- Who waits for an ID of a port (R293). -/
inductive Waiter where
  | stream (c : CoreId) (t : Fin 8)
  | flush (p : PartId)
  | record (id : Nat)
  deriving DecidableEq, Repr

/-- A memory port (Table 12-7). -/
structure Port where
  state : PortState
  linkUp : Bool
  autoResume : Bool
  atomicEn : Bool
  timeout : Word
  linkDrops : DWord
  errors : DWord
  lastError : QWord
  rtLate : DWord
  bytesRead : DWord
  bytesWritten : DWord
  txns : List Txn
  /-- requests that wait for an ID, oldest first, and where the weighted round robin of QOS 2 to 0 stands (R293) -/
  order : List Waiter
  turn : Nat
  /-- settled during Thaw: HELD only after Spring begins (R365) -/
  settled : Bool
  deriving DecidableEq, Repr

/-- A cached leaf translation (R310): level 1, 2 or 3 is a 1 GB, 2 MB or 4 KB page. -/
structure Leaf where
  ast : Nat
  va : Nat
  level : Nat
  pa : Nat
  r : Bool
  w : Bool
  a : Bool
  /-- its parity fails (R313) -/
  parity : Bool
  deriving DecidableEq, Repr

/-- A TABLE entry of the walk cache. -/
structure TableEnt where
  ast : Nat
  va : Nat
  level : Nat
  table : Nat
  /-- its parity fails (R313) -/
  parity : Bool
  deriving DecidableEq, Repr

/-- A completion record on its way (R289): its queue, the run that commits by it, the port service level, where it goes,
and which of its two responses have returned. -/
structure PendRec where
  id : Nat
  queue : QueueId
  /-- the committing step, or none for a failed or refused descriptor -/
  commits : Option Nat
  part : PartId
  qos : Fin 4
  va : Nat
  ast : Nat
  walk : Option WalkSt
  pa : Option Nat
  bytes : List Byte
  wrDone : Bool
  flDone : Bool
  issued : Bool
  deriving DecidableEq, Repr

/-- Translation state (Tables 13-2, 13-7, R310, R317). -/
structure Xlate where
  roots : Tab DWord
  invalidations : DWord
  faults : DWord
  lastFault : BitVec 192
  walks : DWord
  parityMisses : DWord
  rtWalks : DWord
  pins : Vector DWord 16
  pinLeaf : Vector (Option Leaf) 16
  streams : Tab (List Leaf)
  stewards : Vector (List Leaf) 4
  walkCache : Vector (List TableEnt) 4
  deriving DecidableEq, Repr

end Sys2Proof.Machine
end

