-- ==== Sys2Proof/Machine/ImageFields.lean ====
section
/-!
DEFINITION. The layout of an image: header, sections, descriptor records, the WCET section (R218 to R221, R229), read out
of its bytes.
-/
namespace Sys2Proof.Machine

/-- A section table entry (Table 9-2). -/
structure Section where
  index : Nat
  typ : Nat
  reserved : Nat
  off : Nat
  size : Nat
  crc : Nat
  deriving DecidableEq, Repr

/-- Fields of Table 9-1. -/
def imgFlags (bs : List Byte) : Nat := leAt bs 6 2
def imgLength (bs : List Byte) : Nat := leAt bs 8 4
def imgCoresMin (bs : List Byte) : Nat := leAt bs 0x14 1
def imgCoresMax (bs : List Byte) : Nat := leAt bs 0x15 1
def imgArrays (bs : List Byte) : Nat := leAt bs 0x16 1
def imgNsKb (bs : List Byte) : Nat := leAt bs 0x18 2
def imgSections (bs : List Byte) : Nat := leAt bs 0x1A 2
def imgTwinNsKb (bs : List Byte) : Nat := leAt bs 0x1C 2
def imgId (bs : List Byte) : Nat := leAt bs 0x20 4

/-- Entry i of the section table. -/
def sectionAt (bs : List Byte) (i : Nat) : Section :=
  let o := 0x40 + 16 * i
  { index := i, typ := leAt bs o 2, reserved := leAt bs (o + 2) 2, off := leAt bs (o + 4) 4, size := leAt bs (o + 8) 4,
    crc := leAt bs (o + 12) 4 }

def sectionsOf (bs : List Byte) : List Section := (List.range (imgSections bs)).map (sectionAt bs)

/-- The first section of a type. -/
def findSection (bs : List Byte) (t : Nat) : Option Section := (sectionsOf bs).find? (fun x => decide (x.typ = t))

/-- Its bytes; empty when the image has none. -/
def sectionBytes (bs : List Byte) (t : Nat) : List Byte :=
  match findSection bs t with | some x => slice bs x.off x.size | none => []

/-- A descriptor record (Table 9-4). -/
structure DescRec where
  index : Nat
  tensor : Nat
  value : DWord
  /-- reserved bytes, and where the record stands in the image -/
  reserved : Nat
  off : Nat
  deriving DecidableEq, Repr

/-- The records in a byte string that stands at offset `base`. -/
def descRecs (bs : List Byte) (base : Nat) : List DescRec :=
  (List.range (bs.length / 16)).map (fun i =>
    { index := leAt bs (16 * i) 1, tensor := leAt bs (16 * i + 2) 2, value := BitVec.ofNat 64 (leAt bs (16 * i + 8) 8),
      reserved := leAt bs (16 * i + 1) 1 + leAt bs (16 * i + 4) 4, off := base + 16 * i })

/-- The bank a list of records loads: every register that no record names is zero (R220). -/
def bankOf (rs : List DescRec) : Tab DWord := rs.foldl (fun t r => Tab.set 0 t r.index r.value) []

/-- A tensor declaration (Table 9-5). -/
structure TensorDecl where
  number : Nat
  fmt : Nat
  kind : Nat
  scales : Nat
  codebook : Nat
  zpByte : Nat
  reserved : Nat
  rows : Nat
  kext : Nat
  dataOff : Nat
  gplane : Nat
  splane : Nat
  bytes : Nat
  off : Nat
  deriving DecidableEq, Repr

def tensorDecls (bs : List Byte) (base : Nat) : List TensorDecl :=
  (List.range (bs.length / 32)).map (fun i =>
    let o := 32 * i
    { number := leAt bs o 2, fmt := leAt bs (o + 2) 1, kind := leAt bs (o + 3) 1, scales := leAt bs (o + 4) 1,
      codebook := leAt bs (o + 5) 1, zpByte := leAt bs (o + 6) 1, reserved := leAt bs (o + 7) 1, rows := leAt bs (o + 8) 4,
      kext := leAt bs (o + 12) 4, dataOff := leAt bs (o + 16) 4, gplane := leAt bs (o + 20) 4, splane := leAt bs (o + 24) 4,
      bytes := leAt bs (o + 28) 4, off := base + o })

/-- Codebook numbers of the descriptor registers: that of the declaration a record names (R71, R220). -/
def booksOf (rs : List DescRec) (ds : List TensorDecl) : Tab Nat :=
  rs.foldl (fun t r => match ds.find? (fun d => decide (d.number = r.tensor)) with
    | some d => Tab.set 0 t r.index d.codebook
    | none => t) []

/-- The descriptor records of an image, or of its wide twin. -/
def ImgRec.records (i : ImgRec) (twin : Bool) : List DescRec := descRecs (sectionBytes i.bytes (if twin then 4 else 2)) 0

/-- The code of an image, or of its wide twin. -/
def ImgRec.code (i : ImgRec) (twin : Bool) : List Byte := sectionBytes i.bytes (if twin then 3 else 1)

/-- Fill a core's instruction memory. -/
def Core.withCode (k : Core) (code : List Byte) : Core :=
  { k with codeLen := code.length / 32, imem := (code.zipIdx.filter (fun b => b.1 ≠ 0)).map (fun b => (b.2, b.1)),
           imemPoison := [], imemFlip := [] }

/-- What the loader puts into a core: instruction memory, descriptor bank 0, the codebooks its registers name (R187, R220, R224). -/
def Core.withImage (k : Core) (img : ImgRec) (twin : Bool) : Core :=
  { (k.withCode (img.code twin)) with
    bank0 := bankOf (img.records twin), books0 := booksOf (img.records twin) (tensorDecls (sectionBytes img.bytes 5) 0) }

/-- The WCET section (Table 9-6). -/
def wcetBytes (bs : List Byte) : List Byte := sectionBytes bs 7
def imgClaim (bs : List Byte) : Nat := leAt (wcetBytes bs) 0 4
def imgFloor (bs : List Byte) : Nat := leAt (wcetBytes bs) 4 1
def imgArgMax (bs : List Byte) (i : Nat) : Nat := leAt (wcetBytes bs) (16 + 8 * i) 8
def imgStripsMax (bs : List Byte) : Nat := leAt (wcetBytes bs) 80 4

end Sys2Proof.Machine
end

