-- ==== Sys2Proof/Machine/SysTypes.lean ====
section
/-!
DEFINITION. The state of weight sets, the Stack Link, seasons and power, health and lockstep, start and update, the
control port, scrub and test access (chapters 7 and 14 to 20 of the spec).
-/
namespace Sys2Proof.Machine

/-- A weight-set version (Table 14-5) with a serial number of its own. -/
structure Version where
  serial : Nat
  record : List Byte
  lost : Bool
  deriving DecidableEq, Repr

/-- PENDING_STATE (Table 14-7). -/
inductive PendState where
  | none | loading | ready | failed
  deriving DecidableEq, Repr

/-- A weight-set slot (R325): generation, active version, pending record and its state, retiring versions. -/
structure WSlot where
  gen : Nat
  used : Bool
  active : Option Version
  pending : Option Version
  pendState : PendState
  loadResult : Byte
  retiring : List Version
  deriving DecidableEq, Repr

/-- Weight sets and expander counters (Table 14-7). -/
structure SetSt where
  slots : Vector WSlot 256
  serial : Nat
  equinoxGen : Word
  expBlocks : DWord
  expFails : DWord
  expLastFail : QWord
  /-- the stream of each cluster at which the expander's round robin goes on (R323) -/
  expTurn : Vector Nat 4
  deriving DecidableEq, Repr

/-- A message: header flit and data flits (R339). -/
structure Msg where
  hdr : Flit
  data : List Flit
  deriving DecidableEq, Repr

/-- PORT_STATE (Table 15-6). -/
inductive LinkPortState where
  | unconnected | down | up | failed | miswired
  deriving DecidableEq, Repr

/-- A message waiting at a port, with the core that sent it and its DMA command, where it has them. -/
structure TxMsg where
  msg : Msg
  core : Option CoreId
  stream : Fin 8
  seq : Nat
  deriving DecidableEq, Repr

/-- A sent group kept for replay: its sequence number, its SLOTS field, payload slots and the credits it returns. -/
structure SentGroup where
  seq : Nat
  slots : Nat
  flits : List Flit
  credReq : Nat
  credMgt : Nat
  deriving DecidableEq, Repr

/-- A Stack Link port (R336 to R342). -/
structure LinkPort where
  state : LinkPortState
  /-- SLx_PHY_UP, and the indication as the port sees it (R451) -/
  phyIn : Bool
  phyUp : Bool
  crcErrors : DWord
  replays : DWord
  linkFails : DWord
  protoErrors : DWord
  ackSeq : Nat
  nextSeq : Nat
  replayBuf : List SentGroup
  nack : Bool
  noProgress : Nat
  /-- messages complete in the receive buffers, and the message of each VC still being received -/
  rxReq : List Msg
  rxRsp : List Msg
  rxMgt : List Msg
  partReq : Option Msg
  partRsp : Option Msg
  partMgt : Option Msg
  /-- messages waiting to be sent: own requests, passed-through requests, responses, management -/
  txReq : List TxMsg
  passReq : List TxMsg
  txRsp : List TxMsg
  txMgt : List TxMsg
  /-- data flits still to be sent of the message begun on each VC, and whose REQ message it is -/
  curReq : List Flit
  curRsp : List Flit
  curMgt : List Flit
  curOwner : Option TxMsg
  /-- the requester that REQ serves next (R341), and the header of the RSP message begun (R343) -/
  turn : Nat
  rspHdr : Flit
  credReq : Nat
  credMgt : Nat
  oweReq : Nat
  oweMgt : Nat
  helloSent : Bool
  helloHeard : Bool
  /-- the right neighbour has been heard on the port since reset (R334) -/
  wired : Bool
  /-- the groups the port presented last to the PHY -/
  out : List (List Flit)
  deriving DecidableEq, Repr

/-- A READ this engine sent and whose RDATA is open (R340): tag, destination, who waits. -/
structure RemoteRead where
  tag : Nat
  engine : Nat
  core : CoreId
  stream : Fin 8
  seq : Nat
  off : Nat
  len : Nat
  /-- bytes of the first flit that precede the ones wanted -/
  lead : Nat
  /-- false when its run has been stopped: the reservation lasts until the RDATA returns (R340) -/
  live : Bool
  deriving DecidableEq, Repr

/-- A FLUSH this engine sent and whose FLUSH_DONE is open (R346). -/
structure RemoteFlush where
  tag : Nat
  engine : Nat
  core : CoreId
  live : Bool
  deriving DecidableEq, Repr

/-- What a dictionary write reads from host memory, or finds, before it ends: the bytes of images and descriptors, the reads
of page walks, the failing parts of a self-test. -/
structure PdExt where
  image : ReadResult
  desc : ReadResult
  walks : List (List WalkRead)
  coreFail : BitVec 20
  sharedFail : Bool
  deriving DecidableEq, Repr

/-- A dictionary transaction of the mailbox (R429), own or relayed. -/
structure PdReq where
  write : Bool
  async : Bool
  remote : Bool
  engine : Nat
  index : Nat
  sub : Nat
  len : Nat
  offset : Nat
  data : List Byte
  /-- true when it arrived relayed from the master -/
  fromMaster : Bool
  /-- what its command brings with it, if it does -/
  ext : Option PdExt
  deriving DecidableEq, Repr

/-- The Stack Link (Table 15-6). -/
structure LinkSt where
  ports : Vector LinkPort 2
  stackState : Byte
  reachable : Byte
  masterId : Byte
  linkTimeout : Word
  replayLimit : Byte
  chainDropped : DWord
  peerState : Vector Byte 8
  peerEpoch : Vector Word 8
  /-- the stack floor of the last order, the limits and floors reported to the master, the last limit and floor this
  engine reported, the order in force: P-state and instant (R350, R368) -/
  stackFloor : Nat
  reports : Vector (Option (Nat × Nat)) 8
  reported : Option (Nat × Nat)
  order : Option (Nat × Nat)
  /-- engines known to have MASTER_EN high, or another major or minor version; the ports that heard this engine's INST_ID (R348) -/
  peerMaster : Byte
  peerVersion : Byte
  duplicate : BitVec 2
  chainOut : Vector QWord 64
  chainNeed : Vector Byte 64
  chainCredit : Vector Word 64
  iw : Vector DWord 4
  iwRefused : Vector DWord 4
  iwBytesIn : Vector DWord 4
  refusedFor : Tab Nat
  reads : List RemoteRead
  flushes : List RemoteFlush
  nextTag : Nat
  /-- the transaction relayed to a peer whose answer is open, and its tag (R437) -/
  relay : Option (PdReq × Nat)
  deriving DecidableEq, Repr

/-- Seasons of Table 16-2. -/
inductive Season where
  | winter | thaw | spring | summer | autumn
  deriving DecidableEq, Repr

/-- THERMAL_STATE with the SHUTDOWN row of Table 16-8. -/
inductive Thermal where
  | normal | warm | critical | shutdown
  deriving DecidableEq, Repr

/-- A P-state change in progress (R369). -/
structure PstChange where
  target : Nat
  faster : Bool
  gliding : Bool
  deriving DecidableEq, Repr

/-- Clocks, timebase, seasons, P-states, cap, droop, thermal, estimator (Tables 16-1 to 16-11). -/
structure PowerSt where
  timebase : DWord
  /-- fraction accumulators of R356 and the driver of the timebase -/
  refFrac : Nat
  /-- REF_CLK cycles that still run the timebase at half speed, toward the master's time (R350) -/
  slow : Nat
  aonFrac : Nat
  onAon : Bool
  cclkFrac : Nat
  season : Season
  autumnStage : Nat
  idleTimeout : Word
  drainLimit : Word
  retainMask : Byte
  wakeAt : DWord
  stackWinter : Bool
  winters : DWord
  autumnAborts : DWord
  lastThawNs : Word
  thawStart : Nat
  /-- set by a wake event held during SHUTDOWN's rest -/
  wakeHeld : Bool
  pllLocked : Bool
  pstate : Fin 6
  pstateMax : Fin 6
  pstChanges : DWord
  change : Option PstChange
  pstReq : Fin 6
  pstAck : Bool
  /-- the common P-state ordered last (R368, R369) -/
  ordered : Fin 6
  pwrReq : BitVec 4
  pwrAck : BitVec 4
  capMw : Word
  estimateMw : Word
  capHold : Word
  parked : List (Fin 20)
  capUnheld : DWord
  capP : Nat
  calm : Nat
  lastAct : Nat
  excursion : Bool
  alertLimit : Bool
  alertLow : Bool
  alertDivider : Bool
  alertHold : Word
  alerts : DWord
  rtStretches : DWord
  tWarn : Word
  tCrit : Word
  tempMax : Word
  thermal : Thermal
  thermalLimit : Nat
  /-- the band TEMP_MAX lies in while WARM (1 at or above T_WARN, 2 more than 5 below, 0 between) and since when -/
  thermalBand : Nat
  thermalSince : Nat
  thermalRest : Word
  droopLevel : Vector Byte 20
  droopHyst : Vector Byte 20
  stretches : Vector DWord 20
  coeff : List Byte
  dyn : List Byte
  leak : List Byte
  unc : List Byte
  full : List Byte
  calFactor : Word
  calPeriod : Word
  tlmLsb : Word
  calOut : DWord
  /-- energy of the telemetry samples of the period, the samples, and the sum of the estimates with k = 1 -/
  tlmEnergy : Nat
  tlmSamples : Nat
  estSum : Nat
  /-- COEFF, DYN_FACTOR, LEAK_CORE_MW and UNCORE_MW of the estimator period in progress (R372) -/
  estInUse : List Byte
  /-- sensor offsets of the calibration set in 0.5 °C (Table 18-7) -/
  sensorOff : List Int
  deriving DecidableEq, Repr

/-- Health of one core (Table 17-7). -/
structure CoreHealth where
  frost : DWord
  mvpWaits : DWord
  slowWindows : Word
  slowEvents : DWord
  aging : Half
  agingBelow : Bool
  agingRaised : Nat
  selftestLast : DWord
  selftestFails : Word
  arrayEvents : Word
  deriving DecidableEq, Repr

/-- A steward (R389). -/
structure Steward where
  faulted : Bool
  retired : Bool
  faultTimes : List Nat
  /-- firmware slot it runs -/
  onB : Bool
  deriving DecidableEq, Repr

/-- A lockstep pair (R385): cluster 0 core indices, and the escalation of R390. -/
structure PairSt where
  lead : Option (Fin 5)
  checker : Option (Fin 5)
  /-- the checker that the hot spare replaced at stage 2 -/
  former : Option (Fin 5)
  stage : Nat
  /-- a mismatch waits for the self-test of its members -/
  testing : Bool
  deriving DecidableEq, Repr

/-- Health, lockstep and spares (Tables 17-7 and 17-8). -/
structure FaultSt where
  healthNext : DWord
  health : Tab QWord
  stewardFaults : DWord
  stewards : Vector Steward 4
  cores : Vector CoreHealth 20
  lockstep : Byte
  pairs : Vector PairSt 2
  hotSpare : Option (Fin 5)
  degradedOk : Bool
  borrowOk : Bool
  haltReason : Byte
  mismatches : DWord
  failovers : DWord
  worstInterruption : Word
  rtUnavailable : DWord
  haltedSince : Nat
  wcetOverruns : DWord
  rtFaultNext : Word
  rtFaults : Tab QWord
  spareSubst : Word
  retired : BitVec 20
  borrowed : BitVec 20
  slowRetire : Byte
  agingWarn : Byte
  agingRetire : Byte
  selftestPeriod : Word
  coreMap : BitVec 20
  arrayMap : BitVec 64
  spareArrays : Vector (BitVec 4) 4
  serviceState : Byte
  serviceCore : Option (Fin 20)
  /-- the usable arrays of the serviced core, which it gets back (R418) -/
  serviceArrays : BitVec 4
  /-- dispatch of the run an RT fault killed (R388) -/
  faultRunStart : Option Nat
  /-- a spare joined and its interruption is not over (0x43) -/
  failoverOpen : Bool
  deriving DecidableEq, Repr

/-- STATE of BOOT_CTRL (Table 18-1). -/
inductive BootState where
  | unstarted | starting | probation | running | midwinter
  deriving DecidableEq, Repr

/-- An update in progress (R412, R413). -/
structure Update where
  toB : Bool
  /-- the steward being reloaded, and those reloaded already -/
  cur : Fin 4
  done : List (Fin 4)
  back : Bool
  compat : Nat
  version : Word
  deriving DecidableEq, Repr

/-- A library load in progress or the last accepted one (R415, R416). -/
structure LibLoad where
  va : Nat
  length : Nat
  ast : Nat
  crc : Nat
  deriving DecidableEq, Repr

/-- Start, slots, update, library, calibration (Tables 18-1, 18-8). -/
structure StartSt where
  state : BootState
  firstSlot : Bool
  bootCount : BitVec 2
  activeSlot : Bool
  nextSlot : Bool
  bootLo : Word
  bootHi : Word
  slotA : List Byte
  slotB : List Byte
  cold : Bool
  phase : Nat
  cause : Byte
  slot : Bool
  /-- the slot image in steward 0 memory -/
  image : List Byte
  startTime : Nat
  startNext : Word
  startLog : Vector QWord 8
  mwReason : Byte
  mwResult : QWord
  fwVersion : Word
  fwCompat : Nat
  fwCrc : Word
  updateState : Word
  update : Option Update
  calPending : List Byte
  calActive : List Byte
  calModified : Bool
  libraryState : Word
  libLoading : Option LibLoad
  libLast : Option LibLoad
  store : Vector (Tab Byte) 4
  storePoison : Vector (Tab Bool) 4
  storeFlip : Vector (Tab Bool) 4
  storesLost : Bool
  /-- halves of the routine stores whose contents were lost and not reloaded, 2 × cluster + half, with the loss -/
  storeLost : Vector (Option Nat) 8
  pendingDir : Option (List RoutineRec)
  dirGen : Word
  epoch : Word
  mwTest : Option (CoreId × Nat)
  deriving DecidableEq, Repr

/-- Straps and fuses (R449), the wrapper and the instrument network (R453 to R455). -/
structure PinSt where
  instIn : Fin 8
  masterIn : Bool
  fuseValid : Bool
  fuseIn : BitVec 256
  latched : Bool
  inst : Fin 8
  master : Bool
  fuse : BitVec 256
  wir : BitVec 3
  granted : Bool
  sibs : BitVec 8
  deriving DecidableEq, Repr

/-- PD_STATUS STATE (Table 19-13). -/
inductive PdState where
  | idle | busy | done | aborted
  deriving DecidableEq, Repr

/-- The control port and the mailbox (Tables 19-1 to 19-18). -/
structure CtlSt where
  inReset : Bool
  irqStatus : Byte
  irqEnable : Byte
  ignored : DWord
  bellsIgnored : DWord
  transactions : DWord
  aborts : DWord
  lastAbort : QWord
  peerEvents : Byte
  claim : Half
  attachCount : DWord
  attachTime : DWord
  /-- writes of ATTACH that wait for the mailbox, oldest first (R428) -/
  attachWaits : List Half
  pdCtrl : Word
  pdAddr : Word
  pdLen : Word
  pdState : PdState
  overrun : Bool
  abort : Byte
  rlen : Nat
  pdData : List Byte
  latched : Option PdReq
  /-- the mailbox's transaction ends when every walk marked by its invalidation has been restarted (R314) -/
  waitWalks : Bool
  timeHi : Word
  bells : Vector Word 64
  /-- doorbells written while the stewards slept, acted on at Spring (R23, R363) -/
  heldBells : List (Fin 64)
  heldRtBells : List Word
  /-- the model's own count of draws of free values: dictionary writes whose command brings nothing from outside
  (`PdExt.free`), frost and wait cycles of landings -/
  extNext : Nat
  deriving DecidableEq, Repr

/-- Scrub and ECC (Table 7-8): regions 0 to 5. -/
structure ScrubSt where
  enable : Bool
  interval : Half
  deepPassEnd : DWord
  deepDone : BitVec 4
  /-- the next beat of each SRAM, by its number (R181) -/
  next : Tab Nat
  corrected : Vector DWord 6
  uncorrectable : Vector DWord 6
  refused : Vector DWord 6
  lastLoc : Vector DWord 6
  lastTime : Vector DWord 6
  deriving DecidableEq, Repr

/-- The journal window and the sessions (Tables 10-8, 11-3); selectors hold one value per requester (R435), own first. -/
structure JournalSt where
  entries : Tab JEntry
  nextAseq : Nat
  windowStart : Vector DWord 2
  sessionSelect : Vector Half 2
  astSelect : Vector Half 2
  setSelect : Vector Byte 2
  healthSelect : Vector DWord 2
  sessions : Tab Session
  timeSlice : Word
  ageLimit : Word
  rtLatencyNs : Word
  rtRateMbs : Word
  deriving DecidableEq, Repr

/-- The loadable tables (R25): active copies, pending copies and which of them await a switch. -/
structure TableSt where
  active : Tables
  cbPending : Vector (List Byte) 64
  cbMask : DWord
  cvPending : Vector (List Byte) 32
  cvMask : Word
  policyPending : Vector Policy 8
  policyGen : Word
  gen : Nat
  deriving DecidableEq, Repr

/-- Deep scratch (R170): listed bytes, poisoned words and words with one flipped bit (R179), and per slice the loss that
emptied it. -/
structure DeepSt where
  cells : Tab Byte
  poison : Tab Bool
  flip : Tab Bool
  lost : Vector (Option Nat) 4
  losses : Nat
  deriving DecidableEq, Repr

/-- The configuration built (R4). -/
structure Build where
  c : Nat
  k : Nat
  a : Nat
  d : Nat
  deriving DecidableEq, Repr

end Sys2Proof.Machine
end

