-- ==== Sys2Proof/Machine/LinkTx.lean ====
section
/-!
DEFINITION. The sending side of a Stack Link port: message headers, groups and tail flits, the arbiter, credits, the
replay buffer (R336 to R342).
-/
namespace Sys2Proof.Machine

/-! ### Message headers (Table 15-2) -/

/-- Build a header flit. -/
def msgHeader (typ src dst win spart tag ndata offset arg status refused : Nat) (mgt : QWord) : Flit :=
  BitVec.ofNat 256 (typ % 16 + src % 8 * 2 ^ 4 + dst % 8 * 2 ^ 7 + win % 4 * 2 ^ 10 + spart % 8 * 2 ^ 12 +
    tag % 256 * 2 ^ 16 + ndata % 64 * 2 ^ 24 + offset % 2 ^ 32 * 2 ^ 32 + arg % 2 ^ 32 * 2 ^ 64 +
    status % 256 * 2 ^ 96 + min refused 65535 * 2 ^ 104 + mgt.toNat * 2 ^ 128)

def hType (h : Flit) : Nat := fld h.toNat 3 0
def hSrc (h : Flit) : Nat := fld h.toNat 6 4
def hDst (h : Flit) : Nat := fld h.toNat 9 7
def hWin (h : Flit) : Nat := fld h.toNat 11 10
def hSpart (h : Flit) : Nat := fld h.toNat 14 12
def hTag (h : Flit) : Nat := fld h.toNat 23 16
def hNdata (h : Flit) : Nat := fld h.toNat 29 24
def hOffset (h : Flit) : Nat := fld h.toNat 63 32
def hArg (h : Flit) : Nat := fld h.toNat 95 64
def hStatus (h : Flit) : Nat := fld h.toNat 103 96
def hRefused (h : Flit) : Nat := fld h.toNat 119 104
def hMgt (h : Flit) : QWord := BitVec.ofNat 128 (h.toNat / 2 ^ 128)

/-- The VC of a type (Table 15-3); 3 for a reserved type. -/
def typeVc (t : Nat) : Nat :=
  match t with
  | 1 => 0 | 2 => 0 | 3 => 0 | 4 => 0 | 8 => 1 | 9 => 1 | 12 => 2 | 13 => 2 | 14 => 2 | 15 => 2 | _ => 3

/-- A header on its type's VC with every field in the range of Tables 15-2 and 15-3, reserved bits 0 (R339). -/
def headerOk (vc : Nat) (h : Flit) : Bool :=
  let n := hNdata h
  decide (typeVc (hType h) = vc) &&
  (match hType h with
   | 1 => decide (1 ≤ n ∧ n ≤ 32 ∧ hOffset h % 32 = 0)
   | 2 => decide (n = 0 ∧ hOffset h % 32 = 0 ∧ 32 ≤ hArg h ∧ hArg h ≤ 1024 ∧ hArg h % 32 = 0)
   | 4 => decide (n = 0 ∧ hArg h < 64)
   | 8 => decide (n ≤ 32)
   | 14 => decide (n ≤ 8)
   | _ => decide (n = 0)) &&
  decide (bitAt h.toNat 15 = false ∧ fld h.toNat 31 30 = 0 ∧ fld h.toNat 127 120 = 0) &&
  decide (hStatus h ≤ if vc = 1 then 2 else 0) && decide (hRefused h = 0 ∨ hType h = 9) && decide (hMgt h = 0 ∨ vc = 2)

/-- A message of one header flit. -/
def Msg.single (h : Flit) : Msg := { hdr := h, data := [] }

/-- Little-endian bytes of flits. -/
def flitBytes (fs : List Flit) : List Byte := fs.flatMap (fun f => leBytes 32 f.toNat)

/-- `n` flits of 32 bytes from bytes, padded with zeros. -/
def bytesFlits (n : Nat) (bs : List Byte) : List Flit := (List.range n).map (fun i => BitVec.ofNat 256 (leAt bs (32 * i) 32))

/-! ### The arbiter (R340, R341) -/

/-- Flits of a message. -/
def TxMsg.flits (m : TxMsg) : Nat := 1 + m.msg.data.length

/-- The requester of a message within REQ: a stream of a core, or the control layer. -/
def TxMsg.key (m : TxMsg) : Nat := match m.core with | some c => 8 * c.val + m.stream.val | none => 160

/-- The key of the pass-through buffer. -/
def passKey : Nat := 161

/-- Whether the head of a queue may start with `c` credits. -/
def canStart (q : List TxMsg) (c : Nat) : Bool := match q with | m :: _ => decide (m.flits ≤ c) | [] => false

/-- The first message of each requester that the credits allow: those of the engine's own, and of the pass-through buffer. -/
def LinkPort.reqHeads (p : LinkPort) : List (Nat × TxMsg) :=
  ((p.txReq.filter (fun m => p.txReq.find? (fun x => decide (x.key = m.key)) == some m)).map (fun m => (m.key, m)) ++
    (p.passReq.take 1).map (fun m => (passKey, m))).filter (fun x => decide (x.2.flits ≤ p.credReq))

/-- Of two requesters, the one whose turn comes first. -/
def earlier (turn : Nat) (x y : Nat × TxMsg) : Nat × TxMsg :=
  if (y.1 + passKey + 1 - turn) % (passKey + 1) < (x.1 + passKey + 1 - turn) % (passKey + 1) then y else x

/-- Start the next message on REQ: round robin by message among the requesters whose message the credits allow (R341). -/
def LinkPort.startReq (p : LinkPort) : Option (Flit × LinkPort) :=
  match p.reqHeads with
  | [] => none
  | x :: r =>
    let y := r.foldl (earlier p.turn) x
    let p := if y.1 = passKey then { p with passReq := p.passReq.drop 1 } else { p with txReq := p.txReq.erase y.2 }
    some (y.2.msg.hdr, { p with credReq := p.credReq - y.2.flits, curReq := y.2.msg.data, curOwner := some y.2,
                                turn := (y.1 + 1) % (passKey + 1) })

/-- The next slot: RSP, then MGT, then REQ, with round robin by message within REQ. Answers VC, header bit, flit. -/
def LinkPort.nextSlot (p : LinkPort) : Option ((Nat × Bool × Flit) × LinkPort) :=
  match p.curRsp with
  | f :: r => some ((1, false, f), { p with curRsp := r })
  | [] =>
  match p.txRsp with
  | m :: r => some ((1, true, m.msg.hdr), { p with txRsp := r, curRsp := m.msg.data, rspHdr := m.msg.hdr })
  | [] =>
  match p.curMgt with
  | f :: r => some ((2, false, f), { p with curMgt := r })
  | [] =>
  match p.txMgt, canStart p.txMgt p.credMgt with
  | m :: r, true => some ((2, true, m.msg.hdr), { p with txMgt := r, curMgt := m.msg.data, credMgt := p.credMgt - m.flits })
  | _, _ =>
  match p.curReq with
  | f :: r => some ((0, false, f), { p with curReq := r })
  | [] => p.startReq.map (fun x => ((0, true, x.1), x.2))

/-- Up to n slots. -/
def LinkPort.slots : Nat → LinkPort → List (Nat × Bool × Flit) × LinkPort
  | 0, p => ([], p)
  | n + 1, p =>
    match p.nextSlot with
    | none => ([], p)
    | some (x, p) => let r := LinkPort.slots n p; (x :: r.1, r.2)

/-! ### Groups (Table 15-1) -/

/-- SLOTS of a list of slots, IDLE from its end to slot 6. -/
def slotsField (xs : List (Nat × Bool × Flit)) : Nat :=
  ((List.range 7).map (fun j => match xs[j]? with
    | some (vc, h, _) => (vc + 4 * b2n h) * 2 ^ (3 * j)
    | none => 3 * 2 ^ (3 * j))).sum

/-- The 252 bytes that the CRC of a group covers, and the CRC. -/
def groupCrc (flits : List Flit) (tail : Nat) : Nat :=
  crc32c (flitBytes flits ++ leBytes 28 (tail % 2 ^ 224))

/-- The 8 flits of a group, with the acknowledgement of the moment. -/
def LinkPort.groupFlits (p : LinkPort) (g : SentGroup) : List Flit :=
  let t := g.slots + g.seq * 2 ^ 32 + p.ackSeq * 2 ^ 44 + b2n p.nack * 2 ^ 56 + g.credReq * 2 ^ 64 + g.credMgt * 2 ^ 72
  g.flits ++ [BitVec.ofNat 256 (t + groupCrc g.flits t * 2 ^ 224)]

/-- Send one new group: next SEQ, kept for replay, credits returned. -/
def LinkPort.sendGroup (p : LinkPort) : LinkPort :=
  let x := p.slots 7
  let p := x.2
  let cr := min p.oweReq 255
  let cm := min p.oweMgt 255
  let g : SentGroup := { seq := p.nextSeq, slots := slotsField x.1,
                         flits := (List.range 7).map (fun j => match x.1[j]? with | some (_, _, f) => f | none => 0),
                         credReq := cr, credMgt := cm }
  let p := { p with nextSeq := (p.nextSeq + 1) % 4096, replayBuf := p.replayBuf ++ [g], oweReq := p.oweReq - cr,
                    oweMgt := p.oweMgt - cm }
  { p with out := p.out ++ [p.groupFlits g], nack := false }

/-- Whether the link layer of the port runs (R338, R443). -/
def LinkPort.active (p : LinkPort) : Bool :=
  p.phyUp && (match p.state with | .unconnected => false | .miswired => false | _ => true)

/-- Send groups while something can be sent and fewer than 64 are unacknowledged (R337). -/
def LinkPort.pumpN : Nat → LinkPort → LinkPort
  | 0, p => p
  | n + 1, p =>
    if p.active && decide (p.replayBuf.length < 64) && p.nextSlot.isSome then LinkPort.pumpN n p.sendGroup else p

/-- The groups that can go after those that `out` holds already. -/
def LinkPort.pumpMore (p : LinkPort) : LinkPort := LinkPort.pumpN 64 p

/-- The groups that can go now; `out` holds exactly those. -/
def LinkPort.pump (p : LinkPort) : LinkPort :=
  if p.active && decide (p.replayBuf.length < 64) && p.nextSlot.isSome then LinkPort.pumpN 64 { p with out := [] } else p

/-- Queue a message; HELLO goes on any connected port, the rest only on one that is UP (R352). -/
def LinkPort.enqueue (p : LinkPort) (m : TxMsg) (pass : Bool) : LinkPort :=
  if p.state ≠ .up ∧ hType m.msg.hdr ≠ 12 then p
  else match typeVc (hType m.msg.hdr) with
    | 0 => if pass then { p with passReq := p.passReq ++ [m] } else { p with txReq := p.txReq ++ [m] }
    | 1 => { p with txRsp := p.txRsp ++ [m] }
    | _ => { p with txMgt := p.txMgt ++ [m], helloSent := p.helloSent || decide (hType m.msg.hdr = 12) }

/-- CHAIN messages that still wait in a port. -/
def LinkPort.chains (p : LinkPort) : Nat := (p.txReq ++ p.passReq).countP (fun m => decide (hType m.msg.hdr = 4))

/-- RDATA of an engine that a port still has to send: each holds a read tracker (R343). -/
def LinkPort.trackers (p : LinkPort) (inst : Nat) : Nat :=
  let mine := fun (h : Flit) => decide (hType h = 8 ∧ hSrc h = inst)
  p.txRsp.countP (fun m => mine m.msg.hdr) + b2n (mine p.rspHdr && !p.curRsp.isEmpty)

/-- Send every unacknowledged group again, in order (R337). -/
def LinkPort.replay (p : LinkPort) : LinkPort :=
  { p with replays := p.replays + 1, noProgress := p.noProgress + 1, nack := false, out := p.replayBuf.map p.groupFlits }

/-- In CONFLICT a port carries HELLO only (R348): every other message that waits in it is dropped, its buffer is free. -/
def LinkPort.hellosOnly (p : LinkPort) : LinkPort :=
  let flits := fun (ms : List Msg) => (ms.map (fun m => 1 + m.data.length)).sum
  let other := fun (m : Msg) => decide (hType m.hdr ≠ 12)
  { p with txReq := [], passReq := [], txRsp := [], txMgt := p.txMgt.filter (fun m => decide (hType m.msg.hdr = 12)),
           rxReq := [], rxRsp := [], rxMgt := p.rxMgt.filter (fun m => !other m), oweReq := p.oweReq + flits p.rxReq,
           oweMgt := p.oweMgt + flits (p.rxMgt.filter other) }

/-- Take a port out of service: link layer back to its first sequence number and full credits, everything that waits and
every partial message dropped (R352). -/
def LinkPort.fail (p : LinkPort) : LinkPort :=
  { p with state := .failed, linkFails := p.linkFails + 1, ackSeq := 0xFFF, nextSeq := 0, replayBuf := [], nack := false,
           noProgress := 0, partReq := none, partRsp := none, partMgt := none, txReq := [], passReq := [], txRsp := [],
           txMgt := [], curReq := [], curRsp := [], curMgt := [], curOwner := none, credReq := 256, credMgt := 32,
           oweReq := 0, oweMgt := 0, helloSent := false, helloHeard := false, out := [] }

end Sys2Proof.Machine
end

