-- ==== Sys2Proof/Config.lean ====
section
/-!
DEFINITION. What the spec leaves open as a value: free constants with no body, so that nothing proved about the model
can rest on what they are. Each is named in the assumption log.
-/
namespace Sys2Proof.Config

/-- Coefficient k of segment i of default curve c, 0 to 7, as FP32 (R144 gives the curves' properties, not their
coefficients; c0 of segment 0 of EXP2 is 1.0 and is not taken from here). -/
opaque curveCoeff (c i k : Nat) : BitVec 32
/-- ERR_BOUND of default curve c (reported, not used, R141). -/
opaque curveErr (c : Nat) : BitVec 32
/-- Whether the Ed25519 signature of a container verifies against the ROM key its KEY_ID names (R402: keys not given). -/
opaque signatureOk (keyId : Nat) (bytes : List (BitVec 8)) : Bool
/-- The byte that deep scratch returns after its slice lost its contents, by loss and address (R362, R445). -/
opaque lostByte (loss dsa : Nat) : BitVec 8
/-- CCLK by which the holds of Table 8-4 delay bundle b of an image or of a routine at worst, under the unit timings and the
resources of Table 9-8: the class RT latency and rate, CCLK in MHz, the deep-scratch beats of a core (R231). -/
opaque issueHold (image : List (BitVec 8)) (b latencyNs rateMbs mhz beats : Nat) : Nat
/-- ARG_MAX of argument i of a routine (R233: the routine's own, which no field of Table 9-9 holds). -/
opaque routineArgMax (id i : Nat) : Nat
/-- The version of the boot ROM firmware (PD 0x8000.04, no value given). -/
opaque romVersion : BitVec 32
/-- The MGT payload of a message: what each type carries is named by R348, R350, R437 and R349, its layout is not given. -/
opaque mgtEncode (kind : Nat) (fields : List Nat) : BitVec 128
/-- The fields read back from an MGT payload. -/
opaque mgtField (kind i : Nat) (payload : BitVec 128) : Nat
/-- What a read of host memory returns to a dictionary write whose command does not bring the bytes (a PD_WRITE, a relayed
write): by transaction and by which read of it. -/
opaque hostBytes (n k : Nat) : List (BitVec 8)
/-- The page-table entries that the walks of such a write read. -/
opaque hostWalks (n : Nat) : List (List (BitVec 64))
/-- The cores that fail such a write's self-test, bit 20 for a shared unit. -/
opaque testFails (n : Nat) : BitVec 21
/-- The default CAP_MW of a configuration that Table 0-2 does not list. -/
opaque capMw (c k a d : Nat) : BitVec 32

/-- Frost cycles that a core's arrays took for the pass that landed as the n-th draw (R101, R102: timing only). -/
opaque frostCycles (n : Nat) : Nat
/-- MVP wait cycles of the operation that landed as the n-th draw (R120: timing only). -/
opaque mvpWaitCycles (n : Nat) : Nat

end Sys2Proof.Config
end

