-- ==== Sys2Proof/Machine/State.lean ====
section
/-!
DEFINITION. The state of the block as plain data, the reasons a step can stop, and the state after reset: AON_RST_N has
just been released and nothing is latched yet (R449, R450), so the engine is in Winter with STATE UNSTARTED.
-/
namespace Sys2Proof.Machine

/-- Reasons a step faults. -/
inductive Fault where
  /-- Raised by the port response rows: the response answers no transaction of the port that is open, which R286 and
  R296 forbid the integrator to send and to which the spec gives no effect. Safe: the model stops. -/
  | foreignResponse
  deriving DecidableEq, Repr

/-- Reasons a step is refused. -/
inductive Refusal where
  /-- Raised by an arm of `exec` whose command has no meaning yet. Safe: nothing is claimed of it. -/
  | notModelled (mnemonic : String)
  /-- Raised by slot commands, and by the release of a bundle's hold, of a core that is in no run or issues nothing: the
  sequencer of such a core issues no bundle (R203, R204, R247), so the event cannot occur. Safe. -/
  | coreNotIssuing
  /-- Raised by slot commands whose bundle the verifier rejects (R184, R188, R208, R209 and Table 9-7): no such bundle
  issues on any core (R225). Safe. -/
  | unverifiedBundle
  /-- Raised by commands that name a cluster, port or link the build or the fuses leave out: its signals are not present
  (R5, R443). Safe. -/
  | absentPart
  /-- Raised by commands whose operand is not of the size its signal or message has (a group of other than 8 flits).
  Safe. -/
  | malformedOperand
  deriving DecidableEq, Repr

/-- The whole state of the block, and the commands that wait, first in first out. -/
structure State where
  pending : List Instr
  build : Build
  cores : Vector Core 20
  deep : DeepSt
  parts : Vector Partition 8
  queues : Vector Queue 64
  fetched : List Fetched
  steps : List StepRec
  journal : JournalSt
  records : List PendRec
  nextRec : Nat
  rt : RtSt
  ports : Vector Port 4
  xlate : Xlate
  tables : TableSt
  sets : SetSt
  link : LinkSt
  power : PowerSt
  fault : FaultSt
  start : StartSt
  pins : PinSt
  ctl : CtlSt
  scrub : ScrubSt
  deriving DecidableEq, Repr

/-- A stream with no command. -/
def DmaStream.reset : DmaStream := { q := [], prefixTabs := [], expBufs := [] }

/-- A core that has never run: Table 8-2 values, no descriptor, tags clear, nothing in flight. -/
def Core.reset : Core :=
  { phase := .idle, part := 0,
    s := Vector.replicate 32 0, a := Vector.replicate 16 0, lc := Vector.replicate 4 0,
    v := Vector.replicate 32 (Vector.replicate 64 0),
    bank0 := [], bank1 := [], books0 := [], books1 := [], ainc := Vector.replicate 64 0, abind := Vector.replicate 16 0,
    zp := 0, os := one32, win := ⟨0, 0⟩,
    pc := 0, codeLen := 0, codeBase := 0, loops := [], frame := none, staged := [], fetched := [], timed := false, seq := 0,
    watchdog := 0, issued := 0, runCclk := 0, signals := [],
    near := [], fullTag := [], written := [], nearPoison := [], nearFlip := [], imem := [], imemPoison := [], imemFlip := [],
    weights := Vector.replicate 4 ⟨none, none⟩,
    acc := [], sticky := [], rowInit := [], rowFp := [], rowMode := [], tileFlags := [], tileUsed := [], accPoison := [], accFlip := [],
    stepFlags := 0,
    store := [], mvAcc := [], mvSticky := [], mvInit := [], mvFp := [], mvFlags := 0, vecFlags := 0,
    narrowed := 0, clipped := 0, portMask := 0,
    passQ := [], readQ := [], agbQ := [], tapQ := [], mvQ := [], vecQ := [], deepW := [],
    dma := Vector.replicate 8 DmaStream.reset,
    remoteDirty := 0, remoteFlush := 0, strips := 0, firstStrip := none }

/-- The default codebook (Table 3-4), as BF16 encodings. -/
def defaultCodebook : List Nat :=
  [0xBF80, 0xBF30, 0xBF00, 0xBEC0, 0xBE90, 0xBE40, 0xBDC0, 0x0000,
   0x3DA0, 0x3E20, 0x3E80, 0x3EB0, 0x3EE0, 0x3F10, 0x3F40, 0x3F80]

/-- Its 32 bytes. -/
def defaultCodebookBytes : List Byte := defaultCodebook.flatMap (leBytes 2)

/-- A curve record of zeros: mode NONE (R144). -/
def zeroCurve : List Byte := List.replicate 1088 0

/-- Default policy of Table 3-5. -/
def Policy.reset : Policy := { limit := 0x0040, mask := 0x07, twin := true }

def TableSt.reset : TableSt :=
  { active :=
      { codebooks := Vector.replicate 64 ⟨0, defaultCodebookBytes⟩,
        curves := Vector.replicate 32 ⟨0, zeroCurve⟩,
        policy := Vector.replicate 8 Policy.reset,
        dir := [] },
    cbPending := Vector.replicate 64 (List.replicate 32 0), cbMask := 0,
    cvPending := Vector.replicate 32 zeroCurve, cvMask := 0,
    policyPending := Vector.replicate 8 Policy.reset, policyGen := 0, gen := 0 }

/-- Partition defaults (Table 11-1). -/
def Partition.reset : Partition :=
  { coreMask := 0, flowMode := 0, rt := false, imageArea := 0, watchdog := 1048576,
    loading := none, loadStatus := 0, active := none, pendingImg := none,
    lostInWinter := false, lastReject := 0, dw := Vector.replicate 4 0,
    engineCclk := 0, killedCclk := 0, committed := 0, stripCounter := 0, events := Vector.replicate 16 0,
    run := none, rate := ⟨0, []⟩, lastNarrowed := 0, lastClipped := 0, twinRuns := 0, unserved := 0 }

/-- Queue defaults (Table 11-2). -/
def Queue.reset : Queue :=
  { enable := false, part := 0, cls := 2, share := 16, ast := 0, ringVa := 0, compVa := 0, slotsLog2 := 4,
    irqEn := true, fetch := 0, tail := 0, stopped := false,
    engineCclk := 0, killedCclk := 0, vtime := 0, cword := 0 }

/-- Journal window, session and port-bound defaults (Tables 10-8, 11-3, 12-7). -/
def JournalSt.reset : JournalSt :=
  { entries := [], nextAseq := 1, windowStart := Vector.replicate 2 1,
    sessionSelect := Vector.replicate 2 0, astSelect := Vector.replicate 2 0, setSelect := Vector.replicate 2 0,
    healthSelect := Vector.replicate 2 0, sessions := [], timeSlice := 200, ageLimit := 50000,
    rtLatencyNs := 4000, rtRateMbs := 9600 }

/-- Real-time defaults (Table 11-4). -/
def RtSt.reset : RtSt :=
  { arm := .disarmed, armResult := 0, again := false, pend := [], refused := 0, seq := 0, worstStart := 0, freeAt := 0, slotValid := 0,
    slots := Vector.replicate 16 (List.replicate 128 0) }

/-- Port defaults (Table 12-7): DOWN when built. -/
def Port.reset (present : Bool) : Port :=
  { state := if present then .down else .absent, linkUp := false, autoResume := false, atomicEn := false,
    timeout := 100, linkDrops := 0, errors := 0, lastError := 0, rtLate := 0, bytesRead := 0, bytesWritten := 0,
    txns := [], order := [], turn := 0, settled := false }

/-- Translation defaults (Table 13-7). -/
def Xlate.reset : Xlate :=
  { roots := [], invalidations := 0, faults := 0, lastFault := 0, walks := 0, parityMisses := 0,
    rtWalks := 0, pins := Vector.replicate 16 0, pinLeaf := Vector.replicate 16 none, streams := [],
    stewards := Vector.replicate 4 [], walkCache := Vector.replicate 4 [] }

/-- Weight-set defaults (Table 14-7). -/
def WSlot.reset : WSlot :=
  { gen := 1, used := false, active := none, pending := none, pendState := .none, loadResult := 0, retiring := [] }

def SetSt.reset : SetSt :=
  { slots := Vector.replicate 256 WSlot.reset, serial := 0, equinoxGen := 0, expBlocks := 0, expFails := 0,
    expLastFail := 0, expTurn := Vector.replicate 4 0 }

/-- A Stack Link port with full credits (R340); ACK_SEQ is 0xFFF (Table 15-1). -/
def LinkPort.reset (connected : Bool) : LinkPort :=
  { state := if connected then .down else .unconnected, phyIn := false, phyUp := false,
    crcErrors := 0, replays := 0, linkFails := 0, protoErrors := 0, ackSeq := 0xFFF, nextSeq := 0,
    replayBuf := [], nack := false, noProgress := 0, rxReq := [], rxRsp := [], rxMgt := [],
    partReq := none, partRsp := none, partMgt := none, txReq := [], passReq := [], txRsp := [], txMgt := [],
    curReq := [], curRsp := [], curMgt := [], curOwner := none, turn := 0, rspHdr := 0,
    credReq := 256, credMgt := 32, oweReq := 0, oweMgt := 0, helloSent := false, helloHeard := false, wired := false, out := [] }

/-- Stack Link defaults (Table 15-6). -/
def LinkSt.reset (inst : Nat) (east west : Bool) : LinkSt :=
  { ports := #v[LinkPort.reset east, LinkPort.reset west], stackState := 0,
    reachable := BitVec.ofNat 8 (2 ^ inst), masterId := 0xFF, linkTimeout := 20, replayLimit := 16,
    chainDropped := 0, peerState := Vector.replicate 8 0, peerEpoch := Vector.replicate 8 0, stackFloor := 5,
    reports := Vector.replicate 8 none, reported := none, order := none, peerMaster := 0, peerVersion := 0,
    duplicate := 0, chainOut := Vector.replicate 64 0,
    chainNeed := Vector.replicate 64 0, chainCredit := Vector.replicate 64 0, iw := Vector.replicate 4 0,
    iwRefused := Vector.replicate 4 0, iwBytesIn := Vector.replicate 4 0, refusedFor := [], reads := [],
    flushes := [], nextTag := 0, relay := none }

/-- U16 values, P0 first (R380). -/
def u16s (xs : List Nat) : List Byte := xs.flatMap (leBytes 2)

/-- Default COEFF (Table 16-7). -/
def defaultCoeff : List Byte :=
  [131836, 1900, 36000, 9000, 5860, 48830, 4100, 1200, 3500, 6000, 0, 0, 0, 0, 0, 0].flatMap (leBytes 4)

def defaultDyn : List Byte := u16s [1024, 944, 864, 736, 624, 544]
def defaultLeak : List Byte := u16s [60, 52, 45, 35, 27, 21]
def defaultUnc : List Byte := u16s [1500, 1400, 1300, 1150, 1000, 850]
def defaultFull : List Byte := u16s [1438, 1160, 910, 581, 329, 143]

/-- Default CAP_MW: the power of Table 0-2. -/
def Build.capMw (b : Build) : Word :=
  match b.c, b.k, b.a, b.d with
  | 4, 4, 4, 512 => 25000
  | 4, 4, 4, 256 => 25000
  | 2, 4, 4, 256 => 12800
  | 2, 4, 2, 128 => 9400
  | 1, 4, 4, 128 => 6700
  | 1, 2, 2, 128 => 3000
  | c, k, a, d => Config.capMw c k a d

/-- The settings of Tables 16-9 to 16-11 at their defaults, everything else as it stands after an AON reset. -/
def PowerSt.reset (b : Build) : PowerSt :=
  { timebase := 0, refFrac := 0, slow := 0, aonFrac := 0, onAon := true, cclkFrac := 0, season := .winter, autumnStage := 0,
    idleTimeout := 2000, drainLimit := 100, retainMask := BitVec.ofNat 8 (2 ^ b.c - 1), wakeAt := 0,
    stackWinter := false, winters := 0, autumnAborts := 0, lastThawNs := 0, thawStart := 0, wakeHeld := false,
    pllLocked := false, pstate := 5, pstateMax := 0, pstChanges := 0, change := none, pstReq := 5, pstAck := false, ordered := 5, pwrReq := 0, pwrAck := 0, capMw := b.capMw, estimateMw := 0, capHold := 100,
    parked := [], capUnheld := 0, capP := 0, calm := 0, lastAct := 0, excursion := false, alertLimit := false,
    alertLow := false, alertDivider := false, alertHold := 1000, alerts := 0, rtStretches := 0,
    tWarn := 95, tCrit := 105, tempMax := 0, thermal := .normal, thermalLimit := 0, thermalBand := 0, thermalSince := 0,
    thermalRest := 1000, droopLevel := Vector.replicate 20 16, droopHyst := Vector.replicate 20 4,
    stretches := Vector.replicate 20 0, coeff := defaultCoeff, dyn := defaultDyn, leak := defaultLeak,
    unc := defaultUnc, full := defaultFull, calFactor := 65536, calPeriod := 10000, tlmLsb := 0, calOut := 0,
    tlmEnergy := 0, tlmSamples := 0, estSum := 0, estInUse := defaultCoeff ++ defaultDyn ++ defaultLeak ++ defaultUnc,
    sensorOff := List.replicate 18 0 }

/-- Cores built: k active cores and one spare in each of c clusters (R4, R5), in the layout of CORE_MAP. -/
def Build.coreMap (b : Build) : BitVec 20 :=
  BitVec.ofNat 20 (((List.range 20).filter (fun n => n / 5 < b.c ∧ (n % 5 < b.k ∨ n % 5 = 4))).foldl
    (fun m n => m + 2 ^ n) 0)

/-- Arrays built, in the layout of ARRAY_MAP (Table 0-1). -/
def Build.arrayMap (b : Build) : BitVec 64 :=
  BitVec.ofNat 64 (((List.range 64).filter (fun n => n / 16 < b.c ∧ n / 4 % 4 < b.k ∧ n % 4 < b.a)).foldl
    (fun m n => m + 2 ^ n) 0)

def CoreHealth.reset : CoreHealth :=
  { frost := 0, mvpWaits := 0, slowWindows := 0, slowEvents := 0, aging := 0, agingBelow := false, agingRaised := 0, selftestLast := 0,
    selftestFails := 0, arrayEvents := 0 }

def Steward.reset : Steward := { faulted := false, retired := false, faultTimes := [], onB := false }

/-- Health and spare defaults (Tables 17-7, 17-8), with the maps of the build. -/
def FaultSt.reset (b : Build) : FaultSt :=
  { healthNext := 0, health := [], stewardFaults := 0, stewards := Vector.replicate 4 Steward.reset,
    cores := Vector.replicate 20 CoreHealth.reset, lockstep := 0,
    pairs := Vector.replicate 2 ⟨none, none, none, 0, false⟩, hotSpare := none, degradedOk := false, borrowOk := true,
    haltReason := 0, mismatches := 0, failovers := 0, worstInterruption := 0, rtUnavailable := 0, haltedSince := 0,
    wcetOverruns := 0, rtFaultNext := 0, rtFaults := [], spareSubst := 0, retired := 0, borrowed := 0,
    slowRetire := 0, agingWarn := 50, agingRetire := 20, selftestPeriod := 1000, coreMap := b.coreMap,
    arrayMap := b.arrayMap, spareArrays := Vector.replicate 4 (BitVec.ofNat 4 (2 ^ b.a - 1)), serviceState := 0,
    serviceCore := none, serviceArrays := 0, faultRunStart := none,
    failoverOpen := false }

/-- Bytes 0 to 169 of the default calibration set hold the default entries (Table 18-7); its CRC covers bytes 0 to 251. -/
def defaultCal : List Byte :=
  let b := defaultCoeff ++ defaultDyn ++ defaultLeak ++ defaultUnc ++ defaultFull ++
    List.replicate 20 16 ++ List.replicate 20 4 ++ List.replicate 100 0
  b ++ leBytes 4 (crc32c b)

/-- Start defaults (Tables 18-1, 18-8). -/
def StartSt.reset : StartSt :=
  { state := .unstarted, firstSlot := false, bootCount := 0, activeSlot := false, nextSlot := false, bootLo := 0,
    bootHi := 0, slotA := List.replicate 32 0, slotB := List.replicate 32 0, cold := true, phase := 0, cause := 0,
    slot := false, image := [], startTime := 0, startNext := 0, startLog := Vector.replicate 8 0, mwReason := 0, mwResult := 0,
    fwVersion := 0, fwCompat := 0, fwCrc := 0, updateState := 0, update := none,
    calPending := List.replicate 256 0, calActive := defaultCal, calModified := false, libraryState := 0,
    libLoading := none, libLast := none, store := Vector.replicate 4 [], storePoison := Vector.replicate 4 [], storeFlip := Vector.replicate 4 [],
    storesLost := false, storeLost := Vector.replicate 8 none, pendingDir := none, dirGen := 0, epoch := 0, mwTest := none }

/-- Straps and fuses not latched yet (R449); WS_BYPASS and every segment-insertion bit closed (R454, R455). -/
def PinSt.reset : PinSt :=
  { instIn := 0, masterIn := false, fuseValid := false, fuseIn := 0, latched := false, inst := 0, master := false,
    fuse := 0, wir := 0, granted := false, sibs := 0 }

/-- Control-port reset values (Tables 19-5 to 19-18). -/
def CtlSt.reset : CtlSt :=
  { inReset := false, irqStatus := 0, irqEnable := 0, ignored := 0, bellsIgnored := 0, transactions := 0, aborts := 0,
    lastAbort := 0, peerEvents := 0, claim := 0, attachCount := 0, attachTime := 0, attachWaits := [], pdCtrl := 0,
    pdAddr := 0, pdLen := 0, pdState := .idle, overrun := false, abort := 0, rlen := 0,
    pdData := List.replicate 256 0, latched := none, timeHi := 0, waitWalks := false, bells := Vector.replicate 64 0, heldBells := [],
    heldRtBells := [], extNext := 0 }

/-- Scrub defaults (Table 7-8). -/
def ScrubSt.reset : ScrubSt :=
  { enable := true, interval := 16, deepPassEnd := 0, deepDone := 0, next := [], corrected := Vector.replicate 6 0,
    uncorrectable := Vector.replicate 6 0, refused := Vector.replicate 6 0, lastLoc := Vector.replicate 6 0,
    lastTime := Vector.replicate 6 0 }

/-- Deep scratch with every slice intact and nothing listed. -/
def DeepSt.reset : DeepSt := { cells := [], poison := [], flip := [], lost := Vector.replicate 4 none, losses := 0 }

/-- The reference configuration C4K4A4-D256 (R10). -/
def Build.reference : Build := { c := 4, k := 4, a := 4, d := 256 }

/-- The block of a build right after AON reset. -/
def State.resetOf (b : Build) : State :=
  { pending := [], build := b, cores := Vector.replicate 20 Core.reset, deep := DeepSt.reset,
    parts := Vector.replicate 8 Partition.reset, queues := Vector.replicate 64 Queue.reset, fetched := [], steps := [],
    journal := JournalSt.reset, records := [], nextRec := 0, rt := RtSt.reset,
    ports := #v[Port.reset (decide (0 < b.c)), Port.reset (decide (1 < b.c)), Port.reset (decide (2 < b.c)),
      Port.reset (decide (3 < b.c))],
    xlate := Xlate.reset, tables := TableSt.reset, sets := SetSt.reset, link := LinkSt.reset 0 false false,
    power := PowerSt.reset b, fault := FaultSt.reset b, start := StartSt.reset, pins := PinSt.reset,
    ctl := CtlSt.reset, scrub := ScrubSt.reset }

/-- The machine right after reset: the reference configuration, Winter, UNSTARTED (R450). -/
def State.reset : State := State.resetOf Build.reference

end Sys2Proof.Machine
end

