-- ==== Sys2Proof/Machine/Ops.lean ====
section
/-!
DEFINITION. Named operations shared by the meanings: updates of parts of the state, event records and interrupts, the
journal, deep scratch and near scratch with their ECC, the end of a run, completion records.
-/
namespace Sys2Proof.Machine

/-- The outcomes every meaning ends in. -/
abbrev Out := Host.Outcome State Fault Refusal

/-- The timebase in ticks of 62.5 ns (R356). -/
def State.now (s : State) : Nat := s.power.timebase.toNat

def State.core (s : State) (c : CoreId) : Core := s.cores[c.val]
def State.part (s : State) (p : PartId) : Partition := s.parts[p.val]
def State.queue (s : State) (q : QueueId) : Queue := s.queues[q.val]
def State.port (s : State) (n : PortId) : Port := s.ports[n.val]

def State.modCore (s : State) (c : CoreId) (f : Core → Core) : State := { s with cores := upd s.cores c f }
def State.modPart (s : State) (p : PartId) (f : Partition → Partition) : State := { s with parts := upd s.parts p f }
def State.modQueue (s : State) (q : QueueId) (f : Queue → Queue) : State := { s with queues := upd s.queues q f }
def State.modPort (s : State) (n : PortId) (f : Port → Port) : State := { s with ports := upd s.ports n f }

/-- The cluster of a core, and its index in it. -/
def clusterOf (c : CoreId) : ClusterId := ⟨c.val / 5, by omega⟩
def indexOf (c : CoreId) : Fin 5 := ⟨c.val % 5, by omega⟩
/-- Core i of cluster cl. -/
def coreAt (cl : ClusterId) (i : Fin 5) : CoreId := ⟨5 * cl.val + i.val, by omega⟩

/-- Every core, in ascending order. -/
def allCores : List CoreId := List.finRange 20
def allParts : List PartId := List.finRange 8
def allQueues : List QueueId := List.finRange 64
def allPorts : List PortId := List.finRange 4

/-- Nanoseconds of a number of ticks. -/
def ticksNs (t : Nat) : Nat := t * 125 / 2

/-- A counter of 64 bits plus n. -/
def bump (x : DWord) (n : Nat) : DWord := x + BitVec.ofNat 64 n

/-! ### Interrupts and event records (R398, R427) -/

/-- Set a status bit (Table 19-8); in Midwinter IRQ[0] and IRQ[1] stay low, the bits are set all the same. -/
def State.irq (s : State) (bit : Nat) : State :=
  { s with ctl := { s.ctl with irqStatus := s.ctl.irqStatus ||| BitVec.ofNat 8 (2 ^ bit) } }

/-- The 16-byte record of R398. -/
def eventRecord (code : Nat) (core : Option CoreId) (cluster detail time : Nat) : QWord :=
  BitVec.ofNat 128 (code % 256 +
    (match core with | some c => c.val % 5 | none => 7) * 2 ^ 8 +
    (match core with | some c => c.val / 5 | none => cluster % 4) * 2 ^ 11 +
    detail % 2 ^ 16 * 2 ^ 16 + time * 2 ^ 64)

/-! ### Messages to other engines (R340, R349) -/

/-- The port toward an engine (R341). -/
def State.routeTo (s : State) (dst : Nat) : LinkId := if s.pins.inst.val < dst then 0 else 1

def State.modLink (s : State) (l : LinkId) (f : LinkPort → LinkPort) : State :=
  { s with link := { s.link with ports := upd s.link.ports l f } }

/-- Queue a message at the port toward its DST, and send what can go. -/
def State.sendMsg (s : State) (m : TxMsg) : State :=
  s.modLink (s.routeTo (hDst m.msg.hdr)) (fun p => (p.enqueue m false).pump)

/-- A message of the control layer. -/
def TxMsg.ofMsg (m : Msg) : TxMsg := { msg := m, core := none, stream := 0, seq := 0 }

/-- STACK_STATE is FORMED. -/
def State.formed (s : State) : Bool := decide (s.link.stackState = 1)

/-- Forward an event record to the master (R349, Table 15-3). -/
def State.forwardEvent (s : State) (r : QWord) : State :=
  if s.formed && !s.pins.master && decide (s.link.masterId ≠ 0xFF) then
    s.sendMsg (TxMsg.ofMsg (Msg.single (msgHeader 15 s.pins.inst.val s.link.masterId.toNat 0 0 0 0 0 0 0 0
      (Config.mgtEncode 15 [r.toNat]))))
  else s

/-- Append a health record, set HEALTH (R398), and forward the event to the master. -/
def State.health (s : State) (code : Nat) (core : Option CoreId) (cluster detail : Nat) : State :=
  let n := s.fault.healthNext.toNat
  let r := eventRecord code core cluster detail s.now
  (({ s with fault := { s.fault with
      health := Tab.put s.fault.health (n % 64) r, healthNext := s.fault.healthNext + 1 } }).irq 3).forwardEvent r

/-- Append a real-time fault record, set RT_FAULT (R398), and forward the event to the master. -/
def State.rtFault (s : State) (code : Nat) (core : Option CoreId) (detail : Nat) : State :=
  let n := s.fault.rtFaultNext.toNat
  let r := eventRecord code core 0 detail s.now
  (({ s with fault := { s.fault with
      rtFaults := Tab.put s.fault.rtFaults (n % 16) r, rtFaultNext := s.fault.rtFaultNext + 1 } }).irq 1).forwardEvent r

/-! ### ECC detections (R179, R180, Table 7-8) -/

/-- Change one of the six region counters. -/
def modRegion (v : Vector DWord 6) (r : Nat) (f : DWord → DWord) : Vector DWord 6 :=
  if h : r < 6 then v.set r (f v[r]) h else v

/-- Count a correctable error of region r. -/
def State.eccCorrected (s : State) (r : Nat) : State :=
  { s with scrub := { s.scrub with corrected := modRegion s.scrub.corrected r (· + 1) } }

/-- Count n correctable errors of region r (R179). -/
def State.eccFixed (s : State) (r n : Nat) : State :=
  if n = 0 then s
  else { s with scrub := { s.scrub with corrected := modRegion s.scrub.corrected r (· + BitVec.ofNat 64 n) } }

/-- Marked words that some of the ranges of bytes touch. -/
def marksIn (t : Tab Bool) (sps : List (Nat × Nat)) : List Nat :=
  (t.filter (fun p => p.2 && sps.any (fun sp =>
    decide (0 < sp.2) && decide (sp.1 / 8 ≤ p.1) && decide (p.1 ≤ (sp.1 + sp.2 - 1) / 8)))).map (·.1)

/-- A table of marked words without some of them. -/
def unmark (t : Tab Bool) (ws : List Nat) : Tab Bool := ws.foldl (fun t w => Tab.del t w) t

/-- An uncorrectable detection: counted, located (LAST_UE_LOC), logged as health event 0x01. -/
def State.eccUncorrectable (s : State) (r loc : Nat) (core : Option CoreId) (cluster : Nat) : State :=
  let s := { s with scrub := { s.scrub with
    uncorrectable := modRegion s.scrub.uncorrectable r (· + 1),
    lastLoc := modRegion s.scrub.lastLoc r (fun _ => BitVec.ofNat 64 loc),
    lastTime := modRegion s.scrub.lastTime r (fun _ => s.power.timebase) } }
  s.health 0x01 core cluster r

/-- LAST_UE_LOC: byte offset, core index (7 outside the cores), cluster, array field of region 4. -/
def ueLoc (off : Nat) (core : Option CoreId) (cluster arr : Nat) : Nat :=
  off % 2 ^ 32 + (match core with | some c => c.val % 5 | none => 7) * 2 ^ 32 +
    (match core with | some c => c.val / 5 | none => cluster) * 2 ^ 35 + arr % 8 * 2 ^ 37

/-! ### Deep scratch (R170 to R179) -/

/-- Bytes of a slice, S. -/
def Build.sliceBytes (b : Build) : Nat := if b.c = 0 then 0 else b.d / b.c * 2 ^ 20
/-- Bytes of deep scratch. -/
def Build.deepBytes (b : Build) : Nat := b.c * b.sliceBytes
/-- The slice of a DSA. -/
def Build.sliceOf (b : Build) (dsa : Nat) : Nat := if b.sliceBytes = 0 then 0 else dsa / b.sliceBytes
/-- First byte of the journal region, at the top of slice 0 (R177). -/
def Build.journalBase (b : Build) : Nat := b.sliceBytes - 131072

/-- Whether a range of DSA meets the journal region. -/
def Build.meetsJournal (b : Build) (dsa len : Nat) : Bool :=
  decide (dsa < b.sliceBytes) && decide (b.journalBase < dsa + len) && decide (0 < len)

/-- What an unlisted byte of deep scratch reads as: 0 in an intact slice (R403), a free value after a loss (R362). -/
def State.deepDefault (s : State) (dsa : Nat) : Byte :=
  match (s.deep.lost.toList.getD (s.build.sliceOf dsa) none) with
  | none => 0
  | some e => Config.lostByte e dsa

/-- Read one byte of deep scratch. -/
def State.deepByte (s : State) (dsa : Nat) : Byte :=
  match s.deep.cells.find? (fun p => p.1 == dsa) with
  | some p => p.2
  | none => s.deepDefault dsa

def State.deepRead (s : State) (dsa len : Nat) : List Byte := (List.range len).map (fun i => s.deepByte (dsa + i))

/-- Whether the contents of the byte's slice are those of R403 and later writes, not a loss. -/
def State.sliceIntact (s : State) (dsa : Nat) : Bool :=
  (s.deep.lost.toList.getD (s.build.sliceOf dsa) none).isNone

/-- Write one byte: a 0 in an intact slice leaves no entry. -/
def State.deepPut (s : State) (dsa : Nat) (x : Byte) : State :=
  { s with deep := { s.deep with
      cells := if s.sliceIntact dsa then Tab.set 0 s.deep.cells dsa x else Tab.put s.deep.cells dsa x } }

/-- Whether 8-byte word w of deep scratch is poisoned. -/
def State.deepPoisoned (s : State) (w : Nat) : Bool := Tab.get false s.deep.poison w

/-- Any poisoned word of a range; the first one. -/
def State.deepPoisonIn (s : State) (dsa len : Nat) : Option Nat :=
  if len = 0 then none
  else s.deep.poison.findSome? (fun p =>
    if p.2 && decide (dsa / 8 ≤ p.1) && decide (p.1 ≤ (dsa + len - 1) / 8) then some p.1 else none)

/-- The bytes of one write that fall in word w, with their addresses. -/
def wordBytes (dsa : Nat) (bs : List Byte) (w : Nat) : List (Nat × Byte) :=
  (List.range 8).filterMap (fun i =>
    let a := 8 * w + i
    if dsa ≤ a ∧ a < dsa + bs.length then some (a, bs.getD (a - dsa) 0) else none)

/-- A read of deep scratch corrects the flipped words it meets: counted and written back (R179). -/
def State.fixDeep (s : State) (rs : List (Nat × Nat)) : State :=
  match marksIn s.deep.flip rs with
  | [] => s
  | ws => ({ s with deep := { s.deep with flip := unmark s.deep.flip ws } }).eccFixed 1 ws.length

/-- Write the bytes of one word (R179): a full word clears poison and flips without a check, a partial write to a poisoned
word is refused and counted, one to a word with a flipped bit corrects it and counts; answers whether it was refused. -/
def State.deepWriteWord (s : State) (w : Nat) (ps : List (Nat × Byte)) : State × Bool :=
  if s.deepPoisoned w && decide (ps.length < 8) then
    let s := { s with scrub := { s.scrub with refused := modRegion s.scrub.refused 1 (· + 1) } }
    (s.eccUncorrectable 1 (ueLoc (8 * w) none (s.build.sliceOf (8 * w)) 0) none (s.build.sliceOf (8 * w)), true)
  else
    let s := s.eccFixed 1 (if Tab.get false s.deep.flip w && decide (ps.length < 8) then 1 else 0)
    let s := { s with deep := { s.deep with poison := Tab.del s.deep.poison w, flip := Tab.del s.deep.flip w } }
    (ps.foldl (fun s p => s.deepPut p.1 p.2) s, false)

/-- Write bytes to deep scratch; true when a merge was refused. -/
def State.deepWrite (s : State) (dsa : Nat) (bs : List Byte) : State × Bool :=
  if bs.length = 0 then (s, false)
  else
    let ws := List.range ((dsa + bs.length - 1) / 8 - dsa / 8 + 1)
    ws.foldl (fun r i =>
      let w := dsa / 8 + i
      let t := r.1.deepWriteWord w (wordBytes dsa bs w)
      (t.1, r.2 || t.2)) (s, false)

/-- Lose a slice's contents (R362, R445): every listed byte and poisoned word of it goes. -/
def State.loseSlice (s : State) (sl : Fin 4) (keepJournal : Bool) : State :=
  let keep := fun (a : Nat) => decide (s.build.sliceOf a ≠ sl.val) || (keepJournal && s.build.meetsJournal a 1)
  { s with deep := { s.deep with
      cells := s.deep.cells.filter (fun p => keep p.1),
      poison := s.deep.poison.filter (fun p => keep (8 * p.1)),
      flip := s.deep.flip.filter (fun p => keep (8 * p.1)),
      lost := s.deep.lost.set sl.val (some s.deep.losses) sl.isLt,
      losses := s.deep.losses + 1 } }

/-! ### Near scratch (R160 to R169, R179) -/

/-- Whether near slot n was written in this step (R166). -/
def Core.slotWritten (c : Core) (n : Nat) : Bool := Tab.get false c.written n
/-- Full tag of slot n. -/
def Core.slotFull (c : Core) (n : Nat) : Bool := Tab.get false c.fullTag n

/-- A byte of near scratch at a physical offset; 0 in a slot whose W is clear (R166). -/
def Core.nearByte (c : Core) (off : Nat) : Byte :=
  if c.slotWritten (off / 1024) then Tab.get 0 c.near off else 0

def Core.nearRead (c : Core) (off len : Nat) : List Byte := (List.range len).map (fun i => c.nearByte (off + i))

/-- The slots a span touches. -/
def slotsOf (sp : Span) : List Nat :=
  if sp.2 = 0 then [] else (List.range ((sp.1 + sp.2 - 1) / 1024 - sp.1 / 1024 + 1)).map (· + sp.1 / 1024)

/-- A poisoned word that a read of the span meets (R179: not in a slot whose W is clear). -/
def Core.nearPoisonIn (c : Core) (sp : Span) : Option Nat :=
  if sp.2 = 0 then none
  else c.nearPoison.findSome? (fun p =>
    if p.2 && decide (sp.1 / 8 ≤ p.1) && decide (p.1 ≤ (sp.1 + sp.2 - 1) / 8) && c.slotWritten (p.1 / 128)
    then some p.1 else none)

/-- Entries of a sparse table outside [lo, lo + n). -/
def Tab.dropRange {β : Type} (t : Tab β) (lo n : Nat) : Tab β := t.filter (fun p => decide (p.1 < lo) || decide (lo + n ≤ p.1))

/-- The first write to a slot fills it with zeros (R167) and sets W. -/
def Core.openSlot (c : Core) (n : Nat) : Core :=
  if c.slotWritten n then c
  else { c with near := Tab.dropRange c.near (n * 1024) 1024,
                nearPoison := Tab.dropRange c.nearPoison (n * 128) 128,
                nearFlip := Tab.dropRange c.nearFlip (n * 128) 128,
                written := Tab.set false c.written n true }

/-- Write the bytes of one word of near scratch; true when the merge was refused (R179). -/
def Core.nearWriteWord (c : Core) (w : Nat) (ps : List (Nat × Byte)) : Core × Bool :=
  if Tab.get false c.nearPoison w && decide (ps.length < 8) then (c, true)
  else
    ({ c with nearPoison := Tab.del c.nearPoison w, nearFlip := Tab.del c.nearFlip w,
              near := ps.foldl (fun t p => Tab.set 0 t p.1 p.2) c.near }, false)

/-- Write bytes at a physical offset: slots open first, then words; the refused words are listed. -/
def Core.nearWrite (c : Core) (off : Nat) (bs : List Byte) : Core × List Nat :=
  if bs.length = 0 then (c, [])
  else
    let c := (slotsOf (off, bs.length)).foldl (fun c n => c.openSlot n) c
    let ws := List.range ((off + bs.length - 1) / 8 - off / 8 + 1)
    ws.foldl (fun r i =>
      let w := off / 8 + i
      let t := r.1.nearWriteWord w (wordBytes off bs w)
      (t.1, if t.2 then r.2 ++ [w] else r.2)) (c, [])

/-- Flipped words of written slots that spans of bytes touch. -/
def Core.nearFlips (c : Core) (sps : List Span) : List Nat :=
  (marksIn c.nearFlip sps).filter (fun w => c.slotWritten (w / 128))

/-- Flipped words that a write covers in part, in slots that are written already: each is corrected and counted (R179). -/
def Core.nearMerges (c : Core) (off : Nat) (bs : List Byte) : Nat :=
  ((c.nearFlips [(off, bs.length)]).filter (fun w => decide ((wordBytes off bs w).length < 8) &&
    !Tab.get false c.nearPoison w)).length

/-- Set the full tag of every slot of a span (R168, SET). -/
def Core.setTags (c : Core) (sp : Span) : Core :=
  { c with fullTag := (slotsOf sp).foldl (fun t n => Tab.set false t n true) c.fullTag }

/-- Whether a SET write to the span may begin: no slot is full (R168). -/
def Core.setReady (c : Core) (sp : Span) : Bool := (slotsOf sp).all (fun n => !c.slotFull n)

/-- Whether a WAIT or TAKE read of the spans may begin. -/
def Core.readReady (c : Core) (tag : ReadTag) (sps : List Span) : Bool :=
  match tag with
  | .free => true
  | _ => sps.all (fun sp => (slotsOf sp).all (fun n => c.slotFull n))

/-- A TAKE read that includes byte 1,023 of a slot clears its tag (R168). -/
def Core.takeTags (c : Core) (tag : ReadTag) (sps : List Span) : Core :=
  match tag with
  | .take =>
    let t := sps.foldl (fun t sp => (slotsOf sp).foldl (fun t n =>
      if sp.1 ≤ n * 1024 + 1023 ∧ n * 1024 + 1023 < sp.1 + sp.2 then Tab.set false t n false else t) t) c.fullTag
    { c with fullTag := t }
  | _ => c

/-! ### Steps and the journal (R241, R255, R256) -/

/-- The step of an acceptance sequence number. -/
def State.step? (s : State) (aseq : Nat) : Option StepRec := s.steps.find? (fun x => x.aseq == aseq)

def State.modStep (s : State) (aseq : Nat) (f : StepRec → StepRec) : State :=
  { s with steps := s.steps.map (fun x => if x.aseq = aseq then f x else x) }

def StepState.code : StepState → Nat
  | .accepted => 1 | .started => 2 | .killed => 3 | .committed => 4 | .failed => 5

/-- The journal entry of a step as it stands, with the time of this transition (Table 10-7). -/
def journalEntry (x : StepRec) (now : Nat) : JEntry :=
  { aseq := x.aseq, queue := x.queue.val, part := x.part.val, state := x.state.code, ast := x.ast,
    reruns := min 63 (x.starts - 1), status := x.status, flags := x.flags, qseq := x.desc.qseq,
    tAccept := BitVec.ofNat 64 x.tAccept, tLast := BitVec.ofNat 64 now }

/-- Write the entry of a step; a Midwinter test step has ASEQ 0 and no entry (R409). -/
def State.journalWrite (s : State) (x : StepRec) : State :=
  if x.aseq = 0 then s else
  { s with journal := { s.journal with
      entries := Tab.put s.journal.entries (x.aseq % 4096) (journalEntry x s.now) } }

/-- Move a step to a journal state with a status, and write its entry (R241). -/
def State.transition (s : State) (aseq : Nat) (st : StepState) (status : Byte) : State :=
  let s := s.modStep aseq (fun x => { x with state := st, status := status, tLast := s.now })
  match s.step? aseq with
  | some x => s.journalWrite x
  | none => s

/-- Job counts of a session (R274). -/
def State.session (s : State) (ast : Nat) (f : Session → Session) : State :=
  { s with journal := { s.journal with
      sessions := Tab.set ⟨0, 0, 0⟩ s.journal.sessions ast (f (Tab.get ⟨0, 0, 0⟩ s.journal.sessions ast)) } }

/-- Non-final steps bound to a weight-set version (R331). -/
def State.boundCount (s : State) (slot serial : Nat) : Nat :=
  s.steps.countP (fun x => decide (x.base = some ⟨slot, serial⟩ ∨ x.adapter = some ⟨slot, serial⟩))

/-- Free the retiring versions that no step is bound to (R331). -/
def State.freeRetiring (s : State) : State :=
  { s with sets := { s.sets with slots := Vector.ofFn (fun i : Fin 256 =>
      let w := s.sets.slots[i.val]
      { w with retiring := w.retiring.filter (fun v => decide (s.boundCount i.val v.serial ≠ 0)) }) } }

/-- The oldest step of a queue becomes its dispatchable head: its wait of R271 starts. -/
def State.headWaits (s : State) (q : QueueId) : State :=
  match s.steps.find? (fun x => decide (x.queue = q)) with
  | some y => s.modStep y.aseq (fun x => { x with since := s.now, aged := 0 })
  | none => s

/-- A step that reached a final state leaves the open steps; its bindings are released, the next step of its queue is the head. -/
def State.dropStep (s : State) (aseq : Nat) : State :=
  let t := ({ s with steps := s.steps.filter (fun x => x.aseq ≠ aseq) }).freeRetiring
  match s.step? aseq with
  | some x => t.headWaits x.queue
  | none => t

/-! ### Completion records (R239, R289) -/

/-- The port whose cluster is the lowest that holds cores of a partition (R19). -/
def State.partPort (s : State) (p : PartId) : PortId :=
  match (List.finRange 4).find? (fun cl => decide ((s.part p).coreMask.toNat / 2 ^ (5 * cl.val) % 32 ≠ 0)) with
  | some cl => cl
  | none => 0

/-- The 32 bytes of Table 10-3. -/
def recordBytes (qseq aseq : Nat) (status flags : Byte) (reruns q cclk detail cword : Nat) : List Byte :=
  leBytes 4 qseq ++ leBytes 6 aseq ++ [status, flags] ++ leBytes 1 (min 255 reruns) ++ leBytes 1 (q % 64) ++ [0, 0] ++
    leBytes 8 cclk ++ leBytes 4 detail ++ leBytes 4 cword

/-- Service level of a class (Table 12-5). -/
def qosOf (rt : Bool) (cls : Nat) : Fin 4 :=
  if rt then 3 else match cls with | 0 => 3 | 1 => 2 | 2 => 1 | _ => 0

/-- Queue a completion record for writing: it goes to slot QSEQ of the queue's completion ring (R239), that of a Midwinter
test step to the address its command names (R409). -/
def State.postRecord (s : State) (q : QueueId) (p : PartId) (commits : Option Nat) (qos : Fin 4) (qseq : Nat)
    (bs : List Byte) : State :=
  let qu := s.queue q
  let va := match s.start.mwTest with
    | some t => t.2
    | none => qu.compVa.toNat + 32 * (qseq % 2 ^ qu.slotsLog2.toNat)
  let r : PendRec := { id := s.nextRec, queue := q, commits := commits, part := p, qos := qos, va := va,
                       ast := qu.ast.toNat, walk := none, pa := none, bytes := bs, wrDone := false, flDone := false,
                       issued := false }
  { s with nextRec := s.nextRec + 1, records := s.records ++ [r] }

/-- End a step FAILED: journal, then its completion record (R241, Table 10-4). -/
def State.failStep (s : State) (aseq : Nat) (status : Byte) (detail : Nat) : State :=
  match s.step? aseq with
  | none => s
  | some x =>
    let s := (s.modStep aseq (fun x => { x with flags := 0 })).transition aseq .failed status
    let s := s.postRecord x.queue x.part none (qosOf x.rt x.cls) x.desc.qseq.toNat
      (recordBytes x.desc.qseq.toNat x.aseq status 0 (x.starts - 1) x.queue.val x.cclk detail (s.queue x.queue).cword.toNat)
    s.dropStep aseq

/-- Stop a queue (R267, R268): it enters STOPPED, with health event 0x09. -/
def State.stopQueue (s : State) (q : QueueId) : State :=
  if (s.queue q).stopped then s
  else (s.modQueue q (fun x => { x with stopped := true })).health 0x09 none 0 q.val

/-! ### Ending a run (R247) -/

/-- What is dropped of a core when its run stops: bundles, queued operations and passes; the deep-scratch writes already
issued land (the caller lands them), the registers stay until the next dispatch sets them. -/
def Core.abandon (c : Core) : Core :=
  { c with phase := .idle, staged := [], fetched := [], timed := false, frame := none, signals := [], passQ := [],
           readQ := [], agbQ := [], tapQ := [], mvQ := [], vecQ := [], deepW := [],
           dma := c.dma.map (fun _ => DmaStream.reset), remoteFlush := 0 }

/-- Land every deep-scratch write a core has issued (R247). -/
def State.landDeep (s : State) (c : CoreId) : State :=
  (s.core c).deepW.foldl (fun s w => (s.deepWrite w.dsa w.bs).1) s

/-- A kill stops new messages: what has not entered a port is dropped, and reads still open answer to no one (R346). -/
def State.dropRemote (s : State) (cs : List CoreId) : State :=
  let keep := fun (m : TxMsg) => match m.core with | some c => decide (c ∉ cs) | none => true
  let unsent := fun (typ tag engine : Nat) => s.link.ports.toList.any (fun p => p.txReq.any (fun m =>
    decide (hType m.msg.hdr = typ ∧ hTag m.msg.hdr = tag ∧ hDst m.msg.hdr = engine)))
  { s with link := { s.link with
      ports := s.link.ports.map (fun p => { p with txReq := p.txReq.filter keep }),
      reads := (s.link.reads.filter (fun r => !(decide (r.core ∈ cs) && unsent 2 r.tag r.engine))).map (fun r =>
        if r.core ∈ cs then { r with live := false } else r),
      flushes := (s.link.flushes.filter (fun r => !(decide (r.core ∈ cs) && unsent 3 r.tag r.engine))).map (fun r =>
        if r.core ∈ cs then { r with live := false } else r) } }

/-- Reads of stopped cores answer to no one (R247). -/
def Txn.abandon (t : Txn) (p : PartId) (cs : List CoreId) : Txn :=
  match t.owner with
  | .dataFlush q => if q = p then { t with owner := .dropped } else t
  | .dma c _ _ _ _ _ => if c ∈ cs ∧ t.op = .read then { t with owner := .dropped } else t
  | .walkStream c _ => if c ∈ cs then { t with owner := .dropped } else t
  | _ => t

/-- Stop the run of a partition: the cores stop and drain (R247); a run that already drains keeps its reason. -/
def State.stopRun (s : State) (p : PartId) (why : StopWhy) : State :=
  match (s.part p).run with
  | none => s
  | some r =>
    match r.phase with
    | .draining _ => s
    | _ =>
      let s := r.cores.foldl (fun s c => (s.landDeep c).modCore c Core.abandon) s
      let s := s.dropRemote r.cores
      let s := { s with ports := s.ports.map (fun (q : Port) => { q with txns := q.txns.map (fun (t : Txn) => t.abandon p r.cores) }) }
      s.modPart p (fun x => { x with run := some { r with phase := .draining why, stopCclk := 0 } })

/-- A fault that ends the step a core runs (Table 10-5). -/
def State.failRun (s : State) (p : PartId) (status : Byte) (detail : Nat) : State :=
  s.stopRun p (.fault status (BitVec.ofNat 32 detail))

/-- A kill (R249): held while the commit phase is open. -/
def State.killRun (s : State) (p : PartId) (cause : Byte) : State :=
  match (s.part p).run with
  | none => s
  | some r =>
    match r.phase with
    | .commit => s.modPart p (fun x => { x with run := some { r with heldKill := true } })
    | _ => s.stopRun p (.kill cause)

/-- lcm(1..255): the unit of virtual time, so that charge / SHARE is exact (R272). -/
def vtUnit : Nat := (List.range 255).foldl (fun l i => Nat.lcm l (i + 1)) 1

/-- Charge a run to its queue and partition (R272). -/
def State.charge (s : State) (p : PartId) (q : QueueId) (amount : Nat) (killed : Bool) : State :=
  let k := if killed then amount else 0
  let s := s.modPart p (fun x => { x with engineCclk := bump x.engineCclk amount, killedCclk := bump x.killedCclk k })
  s.modQueue q (fun x =>
    { x with engineCclk := bump x.engineCclk amount, killedCclk := bump x.killedCclk k,
             vtime := x.vtime + amount * (if x.share.toNat = 0 then 0 else vtUnit / x.share.toNat) })

/-- The partition with RT = 1 (R277). -/
def State.rtPart (s : State) : Option PartId := allParts.find? (fun p => (s.part p).rt)

/-- The queue of class 0 (R266). -/
def State.rtQueue (s : State) : Option QueueId := allQueues.find? (fun q => decide ((s.queue q).cls = 0))

/-- The partition in whose run a core is, when that run is not being stopped. -/
def State.runOf (s : State) (c : CoreId) : Option PartId :=
  allParts.find? (fun p => match (s.part p).run with | some r => decide (c ∈ r.cores) | none => false)

/-! ### Lockstep pairs (R385, R386) -/

/-- The checker of a core that leads a pair. -/
def State.checkerOf (s : State) (c : CoreId) : Option CoreId :=
  if c.val < 5 then
    (s.fault.pairs.toList.find? (fun x => decide (x.lead = some (indexOf c)))).bind (fun x => x.checker.map (coreAt 0))
  else none

/-- The lead of a core that checks in a pair. -/
def State.leadOf (s : State) (c : CoreId) : Option CoreId :=
  if c.val < 5 then
    (s.fault.pairs.toList.find? (fun x => decide (x.checker = some (indexOf c)))).bind (fun x => x.lead.map (coreAt 0))
  else none

/-- The partition in whose run a core takes part, as a core of the run or as the checker of one. -/
def State.memberRun (s : State) (c : CoreId) : Option PartId :=
  match s.runOf c with
  | some p => some p
  | none => (s.leadOf c).bind s.runOf

/-- A checker beside its lead: the same registers and the same contents of its own memories, the error marks of its own, and its
own instruction memory. It issues nothing that leaves the pair. -/
def Core.behind (k lead : Core) : Core :=
  { lead with phase := .idle, imem := k.imem, imemPoison := k.imemPoison, imemFlip := k.imemFlip, nearPoison := k.nearPoison,
              nearFlip := k.nearFlip, accPoison := k.accPoison, accFlip := k.accFlip }

/-- A core and, when it leads a pair, its checker. -/
def State.members (s : State) (c : CoreId) : List CoreId := c :: (s.checkerOf c).toList

/-- A member of the pair of lead c as it stands. -/
def State.member (s : State) (c d : CoreId) : Core := if d = c then s.core c else (s.core d).behind (s.core c)

/-- The checkers take over what their leads have done (R385). The model brings a checker up to its lead at every clock edge and at
the ends of a run; an edge is more than 2 CCLK (DESIGN CHOICE, assumption log 46). A core that leads a pair follows none. -/
def State.followLeads (s : State) : State :=
  s.fault.pairs.toList.foldl (fun s x => match x.lead, x.checker with
    | some l, some k => if s.fault.pairs.toList.any (fun y => decide (y.lead = some k)) then s else s.modCore (coreAt 0 k) (fun y => y.behind (s.core (coreAt 0 l)))
    | _, _ => s) s

/-- The same while a run of the class RT partition stands. -/
def State.followRun (s : State) : State :=
  match s.rtPart with
  | some p => if (s.part p).run.isSome then s.followLeads else s
  | none => s

/-- End the step a core runs with a status and a DETAIL. -/
def State.failCore (s : State) (c : CoreId) (status : Byte) (detail : Nat) : State :=
  match s.runOf c with
  | some p => s.failRun p status detail
  | none => s

/-- A region of deep scratch: first byte and length. -/
abbrev Region := Nat × Nat

/-- The image area of a partition (Table 11-1). -/
def Partition.area (p : Partition) : Region := (fld p.imageArea.toNat 15 0 * 65536, fld p.imageArea.toNat 31 16 * 65536)

/-- Whether a step of a partition is in STARTED. -/
def State.partStarted (s : State) (p : PartId) : Bool := (s.part p).run.isSome

/-- A partition's quiescence (R264). -/
def State.partQuiet (s : State) (p : PartId) : Bool :=
  !(s.steps.any (fun x => decide (x.part = p ∧ x.state = .started))) &&
    (!(s.part p).rt || decide (s.rt.arm = .disarmed))

/-- A queue's quiescence (R266). -/
def State.queueQuiet (s : State) (q : QueueId) : Bool :=
  !(s.queue q).enable && !(s.steps.any (fun x => decide (x.queue = q)))

/-- STATE of BOOT_CTRL in which the firmware serves (Table 19-1). -/
def State.booted (s : State) : Bool :=
  match s.start.state with
  | .unstarted => false
  | .starting => false
  | _ => true

def State.inMidwinter (s : State) : Bool := decide (s.start.state = .midwinter)

/-- STATE is PROBATION or RUNNING: the slot firmware serves. -/
def State.serving (s : State) : Bool :=
  match s.start.state with | .probation => true | .running => true | _ => false

/-- Whether the stewards run: Spring or Summer (R363, R434). -/
def State.awake (s : State) : Bool :=
  s.booted && (match s.power.season with | .spring => true | .summer => true | _ => false)

end Sys2Proof.Machine
end

