-- ==== Sys2Proof/Machine/Pstate.lean ====
section
/-!
DEFINITION. The limit, the common P-state and its changes, reports to the stack master and its orders (R350, R367 to R369).
-/
namespace Sys2Proof.Machine

def State.modPower (s : State) (f : PowerSt → PowerSt) : State := { s with power := f s.power }

/-- CCLK of a P-state in MHz (Table 16-5). -/
def mhz (p : Nat) : Nat := match p with | 0 => 1600 | 1 => 1400 | 2 => 1200 | 3 => 900 | 4 => 600 | _ => 300

/-- A number as a P-state, P5 at most. -/
def pst (n : Nat) : Fin 6 := if h : n < 6 then ⟨n, h⟩ else 5

/-- The engine's limit: the slowest of four P-states (R368). -/
def State.limit (s : State) : Fin 6 :=
  let p := s.power
  pst (max (max p.pstateMax.val p.capP) (max p.thermalLimit (if p.alertLimit then 5 else 0)))

/-- LIMIT_CAUSE (Table 16-9): the first cause whose P-state is the limit. -/
def State.limitCause (s : State) : Nat :=
  let l := s.limit.val
  if l = 0 then 0 else if s.power.pstateMax.val = l then 1 else if s.power.capP = l then 2
  else if s.power.thermalLimit = l then 3 else 4

/-- FLOOR of this engine's armed partition, P5 when none is ARMED (R368). -/
def State.ownFloor (s : State) : Nat :=
  if s.rt.arm = .armed then
    match s.rtPart with
    | some p => match (s.part p).active with | some i => imgFloor i.bytes | none => 5
    | none => 5
  else 5

/-- Start a change toward a P-state; with one in progress the later order waits (R369). -/
def State.startChange (s : State) (t : Fin 6) : State :=
  match s.power.change with
  | some _ => s
  | none =>
    let p := s.power
    if t = p.pstate then s
    else if t < p.pstate then
      { s with power := { p with pstReq := t, pstAck := false,
                                 change := some { target := t.val, faster := true, gliding := false } } }
    else
      { s with power := { p with change := some { target := t.val, faster := false, gliding := true } } }

/-- Order a common P-state to this engine; a repeated order starts nothing (R369 retries at the next order). -/
def State.orderP (s : State) (t : Fin 6) : State :=
  if t = s.power.ordered then s else (s.modPower (fun p => { p with ordered := t })).startChange t

/-- A PSTATE message: report (0) or order (1), P-state, instant, floor (R350). -/
def State.pstateMsg (s : State) (dst order p instant floor : Nat) : TxMsg :=
  TxMsg.ofMsg (Msg.single (msgHeader 13 s.pins.inst.val dst 0 0 0 0 0 0 0 0 (Config.mgtEncode 13 [order, p, instant, floor])))

/-- The HELLO of this engine (R348): INST_ID, MASTER_EN, block version, EPOCH, timebase. -/
def State.helloMsg (s : State) (l : LinkId) : TxMsg :=
  let i := s.pins.inst.val
  let d := if l.val = 0 then i + 1 else i - 1
  TxMsg.ofMsg (Msg.single (msgHeader 12 i d 0 0 0 0 0 0 0 0
    (Config.mgtEncode 12 [i, b2n s.pins.master, 0x00030200, s.start.epoch.toNat, s.now])))

/-- Whether the Stack Link runs: the slot firmware serves and the control layer is powered (R358, R366). -/
def State.linkOn (s : State) : Bool :=
  (match s.start.state with | .probation => true | .running => true | _ => false) &&
  (match s.power.season with | .winter => false | .thaw => false | _ => true)

/-- Send HELLO on a port whose link layer runs (R348). -/
def State.sendHello (s : State) (l : LinkId) : State :=
  if s.linkOn && (s.link.ports[l.val]).active then s.modLink l (fun p => (p.enqueue (s.helloMsg l) false).pump) else s

def State.sendHellos (s : State) : State := (s.sendHello 0).sendHello 1

/-- A port without power, or one that has just regained it (R366): its link layer starts over, its counters stay. -/
def LinkPort.powerOff (p : LinkPort) : LinkPort :=
  match p.state with
  | .unconnected => p
  | _ => { p.fail with state := .down, linkFails := p.linkFails, rxReq := [], rxRsp := [], rxMgt := [] }

/-- Engines that are UP, this one included (REACHABLE). -/
def State.upEngines (s : State) : List (Fin 8) := (List.finRange 8).filter (fun e => s.link.reachable.getLsbD e.val)

/-- The master orders the slowest P-state reported by an UP engine, and the stack floor (R350, R368). -/
def State.masterOrder (s : State) : State :=
  let own := (s.limit.val, s.ownFloor)
  let rep := s.upEngines.map (fun e => if e = s.pins.inst then own else (s.link.reports[e.val]).getD (0, 5))
  let p := rep.foldl (fun m r => max m r.1) own.1
  let fl := rep.foldl (fun m r => min m r.2) own.2
  if s.link.order.map (·.1) = some p ∧ s.link.stackFloor = fl then s
  else
    let t := s.now + 32
    let s := { s with link := { s.link with order := some (p, t), stackFloor := fl } }
    s.upEngines.foldl (fun s e => if e = s.pins.inst then s else s.sendMsg (s.pstateMsg e.val 1 p t fl)) s

/-- Act on a change of the limit or of the floor: at once outside a FORMED stack, by report or order within it. -/
def State.relimit (s : State) : State :=
  if s.formed then
    if s.pins.master then s.masterOrder
    else if s.link.reported = some (s.limit.val, s.ownFloor) then s
    else
      let s := { s with link := { s.link with reported := some (s.limit.val, s.ownFloor) } }
      s.sendMsg (s.pstateMsg s.link.masterId.toNat 0 s.limit.val 0 s.ownFloor)
  else ({ s with link := { s.link with stackFloor := s.ownFloor } }).orderP s.limit

/-- The answer to ALERT_N low (R371): CCLK divided at once, a change in progress abandoned, the PLL on its way to 0.3 GHz, then
PST_REQ at P5. -/
def State.answerAlert (s : State) : State :=
  let s := s.modPower (fun p =>
    let slow := decide (p.pstate ≠ 5)
    { p with alerts := p.alerts + 1, alertLimit := true, alertDivider := slow, ordered := 5,
             pstReq := if slow then p.pstReq else 5,
             change := if slow then some { target := 5, faster := false, gliding := true } else none })
  (s.health 0x0D none 0 0).relimit

/-- Once the engine can answer it, an ALERT_N that fell before and is still low (R371). -/
def State.oldAlert (s : State) : State := if s.power.alertLow && !s.power.alertLimit then s.answerAlert else s

end Sys2Proof.Machine
end

