-- ==== Sys2Proof/Machine/Spares.lean ====
section
/-!
DEFINITION. Usable cores and arrays, retirement, substitution by spares, borrowing, the halt of the real-time service
(R13, R391 to R394).
-/
namespace Sys2Proof.Machine

/-- Bit n of CORE_MAP. -/
def State.usable (s : State) (c : CoreId) : Bool := s.fault.coreMap.getLsbD c.val

/-- Number of bit array j of core c in ARRAY_MAP (active cores only). -/
def arrayBit (c : CoreId) (j : Nat) : Nat := 4 * (4 * (c.val / 5) + c.val % 5) + j

/-- The usable arrays of a core in ascending order (R209); the spare has no ARRAY_MAP bits. -/
def State.arraysOf (s : State) (c : CoreId) : List Nat :=
  (List.range 4).filter (fun j =>
    if c.val % 5 = 4 then (s.fault.spareArrays[c.val / 5]'(by omega)).getLsbD j
    else s.fault.arrayMap.getLsbD (arrayBit c j))

/-- Fuse bit n (Table 20-9), read only after the latch. -/
def State.fuseBit (s : State) (n : Nat) : Bool := s.pins.latched && s.pins.fuse.getLsbD n

/-- The index that a cluster's spare replaces (SPARE_SUBST). -/
def State.substOf (s : State) (cl : Nat) : Option Nat :=
  let x := s.fault.spareSubst.toNat / 2 ^ (8 * cl)
  if bitAt x 3 then some (x % 8) else none

/-- Whether core n as built is in service: not fused off, not retired, not borrowed. -/
def State.inService (s : State) (n : Nat) : Bool :=
  s.build.coreMap.getLsbD n && !s.fuseBit n && !s.fault.retired.getLsbD n && !s.fault.borrowed.getLsbD n

/-- Bit n of ARRAY_MAP from what stands behind its index (R9): the spare's arrays where the spare holds the index, else the arrays
built and not fused off of a core in service. -/
def State.arrayOk (s : State) (n : Nat) : Bool :=
  if s.substOf (n / 16) = some (n / 4 % 4) then
    s.inService (5 * (n / 16) + 4) && (s.fault.spareArrays.toList.getD (n / 16) 0).getLsbD (n % 4)
  else s.inService (5 * (n / 16) + n / 4 % 4) && s.build.arrayMap.getLsbD n && !s.fuseBit (20 + n)

/-- Bit n of CORE_MAP (R9, R13, R392): a core with no usable array is not usable, and a spare that holds an index has no bit of its
own. -/
def State.coreOk (s : State) (n : Nat) : Bool :=
  if n % 5 = 4 then
    (s.substOf (n / 5)).isNone && s.inService n && decide (s.fault.spareArrays.toList.getD (n / 5) 0 ≠ 0)
  else (List.range 4).any (fun j => s.arrayOk (4 * (4 * (n / 5) + n % 5) + j))

/-- CORE_MAP and ARRAY_MAP from the build, the fuses, RETIRED and SPARE_SUBST (R9, R13, R392, R397). -/
def State.mapsOf (s : State) : BitVec 20 × BitVec 64 :=
  let bits := fun (n : Nat) (ok : Nat → Bool) => (List.range n).foldl (fun m k => if ok k then m + 2 ^ k else m) 0
  (BitVec.ofNat 20 (bits 20 s.coreOk), BitVec.ofNat 64 (bits 64 s.arrayOk))

/-- Clear bit n. -/
def clearBit {w : Nat} (x : BitVec w) (n : Nat) : BitVec w := x &&& ~~~(BitVec.ofNat w (2 ^ n))
/-- Set bit n. -/
def putBit {w : Nat} (x : BitVec w) (n : Nat) : BitVec w := x ||| BitVec.ofNat w (2 ^ n)

/-- Whether a cluster's spare is free (R392): usable, not substituted, and not the hot spare. -/
def State.spareFree (s : State) (cl : ClusterId) : Bool :=
  s.usable (coreAt cl 4) && (s.substOf cl.val).isNone &&
    !(decide (cl = 0) && decide (s.fault.hotSpare = some 4)) &&
    !(decide (cl = 0) && s.fault.pairs.toList.any (fun p => decide (p.lead = some 4 ∨ p.checker = some 4)))

/-- The spare takes index i of its cluster: maps, SPARE_SUBST, health event 0x13. -/
def State.substitute (s : State) (cl : ClusterId) (i : Fin 5) : State :=
  let c := coreAt cl i
  let sp := coreAt cl 4
  let f := s.fault
  let cm := clearBit (putBit f.coreMap c.val) sp.val
  let am := (List.range 4).foldl (fun m j =>
    if (f.spareArrays[cl.val]'cl.isLt).getLsbD j then putBit m (arrayBit c j) else clearBit m (arrayBit c j)) f.arrayMap
  let ss := BitVec.ofNat 32 (setFld f.spareSubst.toNat (8 * cl.val + 7) (8 * cl.val) (8 + i.val))
  ({ s with fault := { f with coreMap := cm, arrayMap := am, spareSubst := ss } }).health 0x13 (some c) cl.val i.val

/-- Whether a core belongs to the RT set: a pair member or the hot spare. -/
def State.rtRole (s : State) (c : CoreId) : Bool :=
  decide (c.val < 5) && (decide (s.fault.hotSpare = some (indexOf c)) ||
    s.fault.pairs.toList.any (fun p => decide (p.lead = some (indexOf c) ∨ p.checker = some (indexOf c))))

/-- The maps without a retired core, and its RETIRED bit; `held` says that the spare holds its index. -/
def FaultSt.withoutCore (f : FaultSt) (c : CoreId) (held : Bool) : FaultSt :=
  let out := putBit f.retired c.val
  { f with coreMap := clearBit f.coreMap c.val,
           arrayMap := if c.val % 5 = 4 then f.arrayMap else (List.range 4).foldl (fun m j => clearBit m (arrayBit c j)) f.arrayMap,
           retired := if held then putBit out (c.val / 5 * 5 + 4) else out }

/-- Kill the run in which a core takes part (R94, R392). -/
def State.killMember (s : State) (c : CoreId) : State :=
  match s.memberRun c with | some p => s.killRun p 0x01 | none => s

/-- A core leaves service: its bits of CORE_MAP and ARRAY_MAP go, RETIRED is set (that of the spare too, where the spare holds the
index), health event 0x03. -/
def State.outOfService (s : State) (c : CoreId) (why : Nat) : State :=
  let t := { s with fault := s.fault.withoutCore c (decide (s.substOf (c.val / 5) = some (c.val % 5))) }
  (t.health 0x03 (some c) 0 why).modCore c (fun _ => Core.reset)

/-- A free spare takes a general core's index at once (R392). -/
def State.fillIndex (s : State) (c : CoreId) : State :=
  if (indexOf c).val < 4 ∧ !s.rtRole c ∧ s.spareFree (clusterOf c) then s.substitute (clusterOf c) (indexOf c) else s

/-- Retire a core (R9, R392): its run is killed, it leaves service, and a free spare takes a general index. -/
def State.retire (s : State) (c : CoreId) (why : Nat) : State := ((s.killMember c).outOfService c why).fillIndex c

/-- Disable array j of a core (R13, R94): its run is killed; with no array left the core is retired. -/
def State.disableArray (s : State) (c : CoreId) (j : Nat) : State :=
  let s := s.killMember c
  let f := s.fault
  let spare := decide (c.val % 5 = 4) || decide (s.substOf (c.val / 5) = some (c.val % 5))
  let f := if spare then { f with spareArrays := upd f.spareArrays (clusterOf c) (fun x => clearBit x j) } else f
  let f := if c.val % 5 = 4 then f else { f with arrayMap := clearBit f.arrayMap (arrayBit c j) }
  let f := { f with cores := upd f.cores c (fun h => { h with arrayEvents := h.arrayEvents + 1 }) }
  let s := ({ s with fault := f }).health 0x02 (some c) 0 j
  if s.arraysOf c = [] then s.retire c 2 else s

/-- CORES_MIN, CORES_MAX, ARRAYS of an image (Table 9-1). -/
def ImgRec.coresMin (i : ImgRec) : Nat := leAt i.bytes 0x14 1
def ImgRec.coresMax (i : ImgRec) : Nat := leAt i.bytes 0x15 1
def ImgRec.arrays (i : ImgRec) : Nat := leAt i.bytes 0x16 1

/-- The cores of a partition's mask that are usable and have at least n usable arrays (R262). -/
def State.maskCores (s : State) (p : PartId) (n : Nat) : List CoreId :=
  allCores.filter (fun c => (s.part p).coreMask.getLsbD c.val && s.usable c && decide (n ≤ (s.arraysOf c).length))

/-- CORES_MIN of a partition's active image, 0 with none. -/
def State.minOf (s : State) (p : PartId) : Nat := match (s.part p).active with | some i => i.coresMin | none => 0
def State.arraysMin (s : State) (p : PartId) : Nat := match (s.part p).active with | some i => i.arrays | none => 0

/-- Class number of a partition: that of its current run, else the highest of its queues (R375, R391). -/
def State.classOf (s : State) (p : PartId) : Nat :=
  match (s.part p).run with
  | some r => match s.step? r.aseq with | some x => x.cls | none => 3
  | none => (allQueues.filter (fun q => decide ((s.queue q).part = p ∧ (s.queue q).enable))).foldl
      (fun m q => max m (s.queue q).cls.val) 0

/-- Kind of a candidate of R391: 0 parked, 1 GATED, 2 ACTIVE. -/
def State.borrowKind (s : State) (c : CoreId) : Nat :=
  if c ∈ s.power.parked then 0 else if (s.runOf c).isNone then 1 else 2

/-- The candidates of R391 with the partition each belongs to. -/
def State.borrowCands (s : State) : List (CoreId × PartId) :=
  (allCores.filter (fun c => decide (c.val < 4) && s.usable c)).filterMap (fun c =>
    match allParts.find? (fun p => (s.part p).coreMask.getLsbD c.val) with
    | some p =>
      if !(s.part p).rt ∧ s.minOf p < (s.maskCores p (s.arraysMin p)).length then some (c, p) else none
    | none => none)

/-- The better of two candidates: kind, then class number, then core index. -/
def State.betterCand (s : State) (x y : CoreId × PartId) : CoreId × PartId :=
  let kx := s.borrowKind x.1
  let ky := s.borrowKind y.1
  if kx < ky then x else if ky < kx then y
  else if s.classOf y.2 < s.classOf x.2 then x else if s.classOf x.2 < s.classOf y.2 then y
  else if y.1.val < x.1.val then x else y

/-- Where the code of a resident image, or of its wide twin, lies in deep scratch. -/
def State.codeRange (s : State) (p : PartId) (img : ImgRec) (twin : Bool) : Nat × Nat :=
  match findSection img.bytes (if twin then 3 else 1) with
  | some x => ((s.part p).area.1 + x.off, x.size)
  | none => (0, 0)

/-- Load the RT image into cores outside a step, at arming and into a borrowed hot spare (R281, R386, R391). A poisoned word of the
image area is counted; what it leaves in instruction memory is not said, and the model poisons the word there (DESIGN CHOICE,
assumption log 70). -/
def State.preload (s : State) (p : PartId) (img : ImgRec) (cs : List CoreId) : State :=
  let r := s.codeRange p img false
  let bad := marksIn s.deep.poison [r]
  let s := bad.foldl (fun s w => s.eccUncorrectable 1 (ueLoc (8 * w) none (s.build.sliceOf (8 * w)) 0) none (s.build.sliceOf (8 * w)))
    (s.fixDeep [r])
  cs.foldl (fun s c => s.modCore c (fun k => { k.withImage img false with imemPoison := bad.map (fun w => (w - r.1 / 8, true)) })) s

/-- Borrow a hot spare (R391), or run on without one: SPARE_EXHAUSTED and RT fault 0x44. -/
def State.borrow (s : State) : State :=
  let cands := if s.fault.borrowOk then s.borrowCands else []
  match cands with
  | [] => ({ s with fault := { s.fault with hotSpare := none, lockstep := 2 } }).rtFault 0x44 none 0
  | x :: r =>
    let b := r.foldl (fun m y => s.betterCand m y) x
    let s := match s.runOf b.1 with | some p => s.killRun p 0x01 | none => s
    let f := s.fault
    let s := { s with fault := { f with coreMap := clearBit f.coreMap b.1.val, borrowed := putBit f.borrowed b.1.val,
                                        hotSpare := some (indexOf b.1), lockstep := 1 },
                      power := { s.power with parked := s.power.parked.filter (· ≠ b.1) } }
    let s := s.health 0x13 (some b.1) 0 (indexOf b.1).val
    match s.rtPart with
    | some p => match (s.part p).active with | some i => s.preload p i [b.1] | none => s
    | none => s

/-- Halt the real-time service (R393, R394): the pending list is discarded and counted. -/
def State.haltRt (s : State) (reason : Nat) : State :=
  let n := s.rt.pend.length
  ({ s with
      fault := { s.fault with lockstep := 4, haltReason := BitVec.ofNat 8 reason, haltedSince := s.now },
      rt := { s.rt with arm := .halted, pend := [], refused := bump s.rt.refused n } }).rtFault 0x46 none reason

end Sys2Proof.Machine
end

