-- ==== Sys2Proof/Machine/RunEnd.lean ====
section
/-!
DEFINITION. The head steps of queues (R271), and how a run ends: KILLED, FAILED, a commit phase without a commit
(R241, R247, R253, R271 to R274).
-/
namespace Sys2Proof.Machine

/-- The oldest step of a queue that is not final. -/
def State.headOf (s : State) (q : QueueId) : Option StepRec := s.steps.find? (fun x => decide (x.queue = q))

/-- A queue's head step (R271): its oldest step, in ACCEPTED or KILLED. -/
def State.dispatchable (s : State) (q : QueueId) : Option StepRec :=
  match s.headOf q with
  | some x => if x.state = .accepted ∨ x.state = .killed then some x else none
  | none => none

/-- Effective class (R271). -/
def effClass (x : StepRec) : Nat := max 1 (x.cls - x.aged)

/-- Virtual times of the other dispatchable queues of a partition with an effective class. -/
def State.otherTimes (s : State) (q : QueueId) (p : PartId) (e : Nat) : List Nat :=
  allQueues.filterMap (fun k => match s.dispatchable k with
    | some y => if k ≠ q ∧ y.part = p ∧ effClass y = e then some (s.queue k).vtime else none
    | none => none)

/-- A queue that held no step gains a dispatchable one: it gathers no credit (R272). -/
def State.raiseTime (s : State) (q : QueueId) (x : StepRec) : State :=
  match s.otherTimes q x.part (effClass x) with
  | [] => s
  | v :: r => s.modQueue q (fun k => { k with vtime := max k.vtime (r.foldl min v) })

/-- Enter Autumn: actions 1 to 3 of R361. -/
def State.enterAutumn (s : State) : State :=
  let s := s.modPower (fun p => { p with season := .autumn, autumnStage := 3 })
  { s with xlate := { s.xlate with streams := [], stewards := Vector.replicate 4 [], walkCache := Vector.replicate 4 [] } }

/-- Summer ends when no step is in STARTED (Table 16-3); the idle time counts from there (R360). SHUTDOWN goes on into Autumn. -/
def State.settleSeason (s : State) : State :=
  if s.power.season = .summer ∧ ¬ s.steps.any (fun x => decide (x.state = .started)) ∧
      ¬ allParts.any (fun p => (s.part p).run.isSome)
  then
    let s := s.modPower (fun p => { p with season := .spring })
    if s.power.thermal = .shutdown then s.enterAutumn else s
  else s

/-- The cores of a run are free. -/
def State.closeRun (s : State) (p : PartId) (r : RunSt) : State :=
  let s := if (s.part p).rt then s.followLeads else s
  let s := (r.cores.foldl (fun s c => s.modCore c (fun k => { k with phase := .idle })) s).modPart p (fun x => { x with run := none })
  if (s.part p).rt then { s with rt := { s.rt with freeAt := s.now } } else s

/-- KILLED is written (R247, R253): charged, counted as a kill of its session; of a disabled queue it then fails (R270). -/
def State.endKilled (s : State) (p : PartId) (cause : Byte) : State :=
  match (s.part p).run with
  | none => s
  | some r =>
    match s.step? r.aseq with
    | none => (s.closeRun p r).settleSeason
    | some x =>
      let s := (s.charge p x.queue (r.cores.length * r.cclk) true).closeRun p r
      let s := s.modStep r.aseq (fun x => { x with kills := x.kills + 1, aged := 0, since := s.now, flags := 0, cclk := r.issueCclk,
                                                   lockKill := x.lockKill || decide (cause = 0x0A) })
      let s := s.transition r.aseq .killed cause
      let s := s.session x.ast (fun j => { j with killed := j.killed + 1 })
      (if (s.queue x.queue).enable then s else s.failStep r.aseq 0x01 0).settleSeason

/-- FAILED is written, then the completion record (R247); an RT step's uncorrectable data is RT fault 0x48 (R390), in
degraded single it halts the service (R393). -/
def State.endFailed (s : State) (p : PartId) (status : Byte) (detail : Nat) : State :=
  match (s.part p).run with
  | none => s
  | some r =>
    match s.step? r.aseq with
    | none => (s.closeRun p r).settleSeason
    | some x =>
      let s := (s.charge p x.queue (r.cores.length * r.cclk) false).closeRun p r
      let s := s.modStep r.aseq (fun x => { x with cclk := r.issueCclk })
      let s := s.failStep r.aseq status detail
      let s := if x.rt ∧ status = 0x04 then
          let s := s.rtFault 0x48 none detail
          if s.fault.lockstep = 3 then s.haltRt 3 else s
        else s
      s.settleSeason

/-- A record whose commit phase is over: it is never written; a walk that it waits for goes on, for the cache. -/
def PendRec.forget (r : PendRec) : PendRec := { r with commits := none, bytes := [] }

/-- An open commit phase ends without a commit (R253, R298): its record is forgotten, KILLED is written. -/
def State.commitLost (s : State) (p : PartId) (status : Byte) : State :=
  ({ s with records := s.records.filterMap (fun (r : PendRec) =>
    if r.part = p ∧ r.commits.isSome then (if r.walk.isSome then some r.forget else none) else some r) }).endKilled p status

end Sys2Proof.Machine
end

