-- ==== Sys2Proof/Machine/Versions.lean ====
section
/-!
DEFINITION. Weight-set version records (Table 14-5), the regions of deep scratch that windows, images and versions claim,
and what is lost with a slice (R332, R362, R445).
-/
namespace Sys2Proof.Machine

/-- Fields of a version record (Table 14-5), given its 32 bytes. -/
def verKind (r : List Byte) : Nat := fld (leNat r) 0 0
def verPlace (r : List Byte) : Nat := fld (leNat r) 1 1
def verExpand (r : List Byte) : Nat := fld (leNat r) 2 2
def verOwned (r : List Byte) : Nat := fld (leNat r) 3 3
def verPmask (r : List Byte) : Nat := fld (leNat r) 15 8
def verOwner (r : List Byte) : Nat := fld (leNat r) 25 16
def verFit (r : List Byte) : Nat := fld (leNat r) 63 32
def verSrcVa (r : List Byte) : Nat := fld (leNat r) 111 64
def verSrcAst (r : List Byte) : Nat := fld (leNat r) 121 112
def verSrcLen (r : List Byte) : Nat := fld (leNat r) 159 128
def verSrcCrc (r : List Byte) : Nat := fld (leNat r) 191 160
def verBase (r : List Byte) : Nat := fld (leNat r) 207 192
def verSize (r : List Byte) : Nat := fld (leNat r) 223 208

/-- Whether two regions share a byte. -/
def overlap (a b : Region) : Bool :=
  decide (0 < a.2) && decide (0 < b.2) && decide (a.1 < b.1 + b.2) && decide (b.1 < a.1 + a.2)

/-- The region of a DEEP version; of length 0 for a HOST version. -/
def verRegion (r : List Byte) : Region := if verPlace r = 1 then (verBase r * 65536, verSize r * 65536) else (0, 0)

/-- The bytes of slice sl. -/
def State.sliceRegion (s : State) (sl : Nat) : Region := (sl * s.build.sliceBytes, s.build.sliceBytes)

/-- The versions that are not free in a slot. -/
def WSlot.versions (w : WSlot) : List Version := [w.active, w.pending].filterMap id ++ w.retiring

/-- Mark a version LOST when its region meets a lost slice. -/
def Version.lose (v : Version) (hit : Region → Bool) : Version := if hit (verRegion v.record) then { v with lost := true } else v

/-- DEEP versions of a lost region become LOST; a READY pending one becomes FAILED with cause 6 (R332). -/
def WSlot.lose (w : WSlot) (hit : Region → Bool) : WSlot :=
  let bad : Bool := match w.pending with | some v => hit (verRegion v.record) | none => false
  { w with active := w.active.map (fun v => v.lose hit), retiring := w.retiring.map (fun v => v.lose hit),
           pending := w.pending.map (fun v => v.lose hit),
           pendState := if bad ∧ w.pendState = .ready then .failed else w.pendState,
           loadResult := if bad ∧ w.pendState = .ready then 6 else w.loadResult }

/-- An image kept in a lost area is lost with it (R362, R223). -/
def Partition.lose (p : Partition) (hit : Region → Bool) : Partition :=
  if hit p.area && p.active.any (·.resident) then
    { p with active := none, pendingImg := none, lostInWinter := true, loadStatus := 0 }
  else p

/-- A slice's contents are lost: cells, DEEP versions, resident images. -/
def State.dropSlice (s : State) (sl : Fin 4) (keepJournal : Bool) : State :=
  let r := s.sliceRegion sl.val
  let s := s.loseSlice sl keepJournal
  { s with sets := { s.sets with slots := s.sets.slots.map (fun w => w.lose (overlap r)) },
           parts := s.parts.map (fun p => p.lose (overlap r)) }

/-! ### Resident loads that end early (R327) -/

def State.modSlot (s : State) (i : Fin 256) (f : WSlot → WSlot) : State :=
  { s with sets := { s.sets with slots := upd s.sets.slots i f } }

/-- A region whose contents the spec does not state: free bytes. -/
def State.deepScramble (s : State) (r : Region) : State :=
  let e := s.deep.losses
  let s := { s with deep := { s.deep with losses := e + 1 } }
  (List.range r.2).foldl (fun s i => s.deepPut (r.1 + i) (Config.lostByte e (r.1 + i))) s

/-- The port of the slice that holds a byte. -/
def State.slicePort (s : State) (dsa : Nat) : PortId := ⟨s.build.sliceOf dsa % 4, Nat.mod_lt _ (by decide)⟩

/-- A load fails: its cause, its region's bytes unstated (R327). -/
def State.failVersion (s : State) (i : Fin 256) (r : Region) (cause : Nat) : State :=
  ((s.deepScramble r).modSlot i (fun w => { w with pendState := .failed, loadResult := BitVec.ofNat 8 cause })).irq 7

/-- The loads through a port whose link is lost end with cause 2 (Table 14-6). -/
def State.dropLoads (s : State) (n : PortId) : State :=
  (List.finRange 256).foldl (fun s i =>
    match (s.sets.slots[i.val]).pending with
    | some v =>
      if (s.sets.slots[i.val]).pendState = .loading ∧ overlap (verRegion v.record) (s.sliceRegion n.val) then
        s.failVersion i (verRegion v.record) 2
      else s
    | none => s) s

end Sys2Proof.Machine
end

