-- ==== Sys2Proof/Machine/Xlate.lean ====
section
/-!
DEFINITION. Address translation: roots, walks, caches, rights, cause words, pinned pages, invalidation (R302 to R317).
-/
namespace Sys2Proof.Machine

/-- Kinds of access with the rights of Table 13-1, in the coding of ACCESS (Table 13-6). -/
inductive Access where
  | read | write | atomic
  deriving DecidableEq, Repr

def accessCode : Access → Nat
  | .read => 0 | .write => 1 | .atomic => 2

/-- log2 of the page size of a level (Table 13-3). -/
def pageLog (level : Nat) : Nat := if level = 1 then 30 else if level = 2 then 21 else 12

/-- A translation or rights failure: cause, level and error response (Table 13-5). -/
structure XFault where
  cause : Nat
  level : Nat
  err : Nat
  /-- physical address of the failing read, for cause 0x5 -/
  pa : Nat
  deriving DecidableEq, Repr

def Leaf.covers (l : Leaf) (ast va : Nat) : Bool :=
  decide (l.ast = ast) && decide (l.va / 2 ^ pageLog l.level = va / 2 ^ pageLog l.level)

/-- The physical address of va under a leaf that covers it (R307). -/
def Leaf.addr (l : Leaf) (va : Nat) : Nat := l.pa + va % 2 ^ pageLog l.level

/-- The rights check of R303; causes 0x8 to 0xA. -/
def Leaf.rights (l : Leaf) (a : Access) : Option XFault :=
  match a with
  | .read => if l.r then none else some ⟨8, l.level, 0, 0⟩
  | .write => if l.w then none else some ⟨9, l.level, 0, 0⟩
  | .atomic => if l.w && l.a then none else some ⟨10, l.level, 0, 0⟩

/-- A cache without the entry for an address whose parity fails, and whether there was one (R313). -/
def dropFailed (ls : List Leaf) (ast va : Nat) : List Leaf × Bool :=
  match ls.find? (fun l => l.covers ast va) with
  | some l => if l.parity then (ls.erase l, true) else (ls, false)
  | none => (ls, false)

/-- A lookup moves its entry to the front (least recently used goes last, R310). -/
def lookupLeaf (ls : List Leaf) (ast va : Nat) : Option (Leaf × List Leaf) :=
  match ls.find? (fun l => l.covers ast va) with
  | some l => some (l, l :: ls.erase l)
  | none => none

/-- Keep n entries, the newest first. -/
def insertLeaf (n : Nat) (l : Leaf) (ls : List Leaf) : List Leaf := (l :: ls.filter (· ≠ l)).take n

/-- The root record of an AST (Table 13-2). -/
def State.root (s : State) (ast : Nat) : Nat := (Tab.get 0 s.xlate.roots ast).toNat

/-- The address of the entry a walk reads next (Table 13-3). -/
def WalkSt.entry (w : WalkSt) : Nat :=
  w.table * 4096 + 8 * (if w.level = 1 then w.va / 2 ^ 30 else if w.level = 2 then w.va / 2 ^ 21 % 512 else w.va / 4096 % 512)

/-- The walk-cache entry that serves a level for a VA. -/
def findTable (ts : List TableEnt) (ast va level : Nat) : Option TableEnt :=
  ts.find? (fun t => decide (t.ast = ast ∧ t.level = level) && decide (t.va / 2 ^ pageLog level = va / 2 ^ pageLog level))

/-- A walk from level 1 (R305): the root checks come first. -/
def State.walkTop (s : State) (ast va : Nat) : Except XFault WalkSt :=
  let r := s.root ast
  if !bitAt r 0 then .error ⟨1, 0, 0, 0⟩
  else if 2 ^ fld r 5 1 ≤ va / 2 ^ 30 then .error ⟨2, 0, 0, 0⟩
  else .ok { va := va, ast := ast, level := 1, table := fld r 47 12, restart := false, asked := false }

/-- Begin a walk (R305, R310): the root checks, then from the deepest table that the cluster's walk cache holds. -/
def State.walkBegin (s : State) (cl : ClusterId) (ast va : Nat) : Except XFault WalkSt :=
  (s.walkTop ast va).map (fun w =>
    let ts := s.xlate.walkCache[cl.val]
    match findTable ts ast va 2, findTable ts ast va 1 with
    | some t, _ => { w with level := 3, table := t.table }
    | none, some t => { w with level := 2, table := t.table }
    | none, none => w)

/-- Entries dropped for their parity (R313). -/
def State.countParity (s : State) (n : Nat) : State :=
  if n = 0 then s else { s with xlate := { s.xlate with parityMisses := bump s.xlate.parityMisses n } }

/-- The walk cache gives up the entries for an address whose parity fails (R313). -/
def State.tableParity (s : State) (cl : ClusterId) (ast va : Nat) : State :=
  let bad := [1, 2].filterMap (fun level => match findTable s.xlate.walkCache[cl.val] ast va level with
    | some t => if t.parity then some t else none
    | none => none)
  if bad = [] then s
  else ({ s with xlate := { s.xlate with walkCache := upd s.xlate.walkCache cl (fun ts => ts.filter (· ∉ bad)) } }).countParity bad.length

/-- What one read of a walk gives. -/
inductive WalkNext where
  | fault (f : XFault)
  | more (w : WalkSt) (t : TableEnt)
  | leaf (l : Leaf)
  deriving DecidableEq, Repr

/-- One level of a walk (R306 to R308). -/
def walkRead (w : WalkSt) (pte err : Nat) : WalkNext :=
  let size := fld pte 5 4
  let pa := fld pte 47 12
  if err ≠ 0 then .fault ⟨5, w.level, err, w.entry⟩
  else if !bitAt pte 0 then .fault ⟨3, w.level, 0, 0⟩
  else if fld pte 63 48 ≠ 0 then .fault ⟨4, w.level, 0, 0⟩
  else if size = 0 then
    if w.level = 3 then .fault ⟨4, w.level, 0, 0⟩
    else .more { w with level := w.level + 1, table := pa, asked := false }
      ⟨w.ast, w.va / 2 ^ pageLog w.level * 2 ^ pageLog w.level, w.level, pa, false⟩
  else if size + w.level ≠ 4 then .fault ⟨4, w.level, 0, 0⟩
  else if (w.level = 2 ∧ pa % 512 ≠ 0) ∨ (w.level = 1 ∧ pa % 262144 ≠ 0) then .fault ⟨4, w.level, 0, 0⟩
  else .leaf ⟨w.ast, w.va / 2 ^ pageLog w.level * 2 ^ pageLog w.level, w.level, pa * 4096, bitAt pte 1, bitAt pte 2, bitAt pte 3, false⟩

/-- Put a TABLE entry into a cluster's walk cache of 64. -/
def State.cacheTable (s : State) (cl : ClusterId) (t : TableEnt) : State :=
  { s with xlate := { s.xlate with walkCache := upd s.xlate.walkCache cl (fun ts => (t :: ts.filter (· ≠ t)).take 64) } }

def State.countWalk (s : State) : State := { s with xlate := { s.xlate with walks := s.xlate.walks + 1 } }

/-- A walk that ends with a RANGE fault has started all the same (R305). -/
def State.countRange (s : State) (f : XFault) : State := if f.cause = 2 then s.countWalk else s

/-- A whole walk with the entries it reads given (R308, R317): what it ends in, none when a read is never answered, and the tables
it met. -/
def walkAll (w : WalkSt) (rs : List WalkRead) : Option (Except XFault Leaf) × List TableEnt :=
  match rs with
  | [] => (none, [])
  | r :: rest =>
    match walkRead w r.pte.toNat r.err.toNat with
    | .fault f => (some (.error f), [])
    | .leaf l => (some (.ok l), [])
    | .more w' t => let x := walkAll w' rest; (x.1, t :: x.2)

/-- The cause word of Table 13-6 for a stream of a core. -/
def causeStream (f : XFault) (a : Access) (c : CoreId) (t : Nat) : Nat :=
  let port := if 3 ≤ f.cause ∧ f.cause ≤ 6 then c.val / 5 else 0
  f.cause + f.level * 2 ^ 4 + port * 2 ^ 6 + f.err * 2 ^ 8 + accessCode a * 2 ^ 10 + t * 2 ^ 12 + c.val % 5 * 2 ^ 15 +
    c.val / 5 * 2 ^ 18

/-- The cause word of a steward's or collector's access through a port. -/
def causeSteward (f : XFault) (a : Access) (port : Nat) : Nat :=
  let p := if 3 ≤ f.cause ∧ f.cause ≤ 6 then port else 0
  f.cause + f.level * 2 ^ 4 + p * 2 ^ 6 + f.err * 2 ^ 8 + accessCode a * 2 ^ 10 + port * 2 ^ 18 + 2 ^ 20

/-- Count a reported fault and rewrite LAST_FAULT (R316). -/
def State.reportFault (s : State) (addr ast cause : Nat) : State :=
  { s with xlate := { s.xlate with
      faults := s.xlate.faults + 1,
      lastFault := BitVec.ofNat 192 (addr % 2 ^ 48 + ast % 1024 * 2 ^ 48 + cause * 2 ^ 64 + s.now * 2 ^ 128) } }

/-- The status of a cause (Table 13-5). -/
def causeStatus (cause : Nat) : Byte := if cause = 8 ∨ cause = 9 ∨ cause = 10 then 0x03 else 0x02

/-- A stream's cache (R310). -/
def streamKey (c : CoreId) (t : Fin 8) : Nat := c.val * 8 + t.val

/-- The translation of a Midwinter test step: each address to itself, readable and writable (R409). -/
def identityLeaf (ast va : Nat) : Leaf :=
  { ast := ast, va := va / 4096 * 4096, level := 3, pa := va / 4096 * 4096, r := true, w := true, a := false, parity := false }

/-- A stream's cache gives up its entry for an address when the entry's parity fails (R313). -/
def State.streamParity (s : State) (c : CoreId) (t : Fin 8) (ast va : Nat) : State :=
  let y := dropFailed (Tab.get [] s.xlate.streams (streamKey c t)) ast va
  if y.2 then ({ s with xlate := { s.xlate with streams := Tab.set [] s.xlate.streams (streamKey c t) y.1 } }).countParity 1 else s

/-- The same of a cluster's steward cache. -/
def State.stewardParity (s : State) (cl : ClusterId) (ast va : Nat) : State :=
  let y := dropFailed s.xlate.stewards[cl.val] ast va
  if y.2 then ({ s with xlate := { s.xlate with stewards := upd s.xlate.stewards cl (fun _ => y.1) } }).countParity 1 else s

/-- Translate for a stream: pins first for the RT partition (R317), then its cache. -/
def State.streamLookup (s : State) (c : CoreId) (t : Fin 8) (rt : Bool) (ast va : Nat) : Option (Leaf × State) :=
  if s.inMidwinter then some (identityLeaf ast va, s) else
  match (if rt then s.xlate.pinLeaf.toList.find? (fun o => match o with | some l => l.covers ast va | none => false)
         else none) with
  | some (some l) => some (l, s)
  | _ =>
    match lookupLeaf (Tab.get [] s.xlate.streams (streamKey c t)) ast va with
    | some (l, ls) => some (l, { s with xlate := { s.xlate with streams := Tab.set [] s.xlate.streams (streamKey c t) ls } })
    | none => none

def State.streamInsert (s : State) (c : CoreId) (t : Fin 8) (l : Leaf) : State :=
  { s with xlate := { s.xlate with
      streams := Tab.set [] s.xlate.streams (streamKey c t)
        (insertLeaf 16 l (Tab.get [] s.xlate.streams (streamKey c t))) } }

def State.stewardLookup (s : State) (cl : ClusterId) (ast va : Nat) : Option (Leaf × State) :=
  if s.inMidwinter then some (identityLeaf ast va, s) else
  match lookupLeaf s.xlate.stewards[cl.val] ast va with
  | some (l, ls) => some (l, { s with xlate := { s.xlate with stewards := upd s.xlate.stewards cl (fun _ => ls) } })
  | none => none

def State.stewardInsert (s : State) (cl : ClusterId) (l : Leaf) : State :=
  { s with xlate := { s.xlate with stewards := upd s.xlate.stewards cl (insertLeaf 16 l) } }

/-- A walk under an invalidation (R314): with a read out it is marked, and restarts from level 1 when that read returns; one that
waits for an ID starts there. -/
def WalkSt.mark (w : WalkSt) (root : Nat → Nat) (hit : Nat → Bool) : WalkSt :=
  if !hit w.ast then w
  else if w.asked then { w with restart := true }
  else { w with level := 1, table := fld (root w.ast) 47 12 }

/-- Whether a walk that an invalidation marked still waits for its read (R314). -/
def State.walksMarked (s : State) : Bool :=
  s.cores.toList.any (fun k => k.dma.toList.any (fun d => d.q.any (fun f => f.walk.any (·.restart)))) ||
  s.records.any (fun r => r.walk.any (·.restart))

end Sys2Proof.Machine
end

