-- ==== Sys2Proof/Machine/Ports.lean ====
section
/-!
DEFINITION. Transactions of the memory ports, their identifiers and errors, who waits for one, the loss of a port, and the reads that
stewards make outside runs (R284 to R299, R303 to R317).
-/
namespace Sys2Proof.Machine

/-- PORT STATE code (Table 12-7). -/
def portCode : PortState → Nat
  | .absent => 0 | .down => 1 | .settling => 2 | .up => 3 | .held => 4 | .failed => 5

/-- RQ_OP (Table 12-4). -/
def opCode : PortOp → Nat
  | .read => 1 | .write => 2 | .writep => 3 | .flush => 4 | .addf32 => 5 | .addbf16 => 6

/-- Whether an operation writes host memory. -/
def PortOp.writes : PortOp → Bool
  | .read => false | .flush => false | _ => true

/-- Whether the port carries a run's traffic, and a steward's (R299); M0 that has settled during Thaw carries its reload (R365). -/
def State.portUp (s : State) (n : PortId) : Bool := decide ((s.port n).state = .up)
def State.portCarries (s : State) (n : PortId) : Bool :=
  decide ((s.port n).state = .up ∨ (s.port n).state = .held ∨ ((s.port n).state = .settling ∧ (s.port n).settled = true))

/-- The IDs a request may use, in the order it takes them (R293). -/
def idsFor (qos : Fin 4) (record : Bool) : List Nat :=
  if qos = 3 then (List.range 16).map (· + 224) ++ List.range 224
  else if record then (List.range 16).map (· + 240)
  else List.range 224

/-- The first free ID (R286). -/
def State.freeId (s : State) (n : PortId) (qos : Fin 4) (record : Bool) : Option Nat :=
  let used := (s.port n).txns.map (fun t => t.id.toNat)
  (idsFor qos record).find? (fun i => decide (i ∉ used))

/-- Present a request; `none` while no ID is free. -/
def State.present (s : State) (n : PortId) (op : PortOp) (addr beats : Nat) (qos : Fin 4) (record : Bool) (o : Owner)
    (w : List (Nat × Byte)) : Option State :=
  match s.freeId n qos record with
  | none => none
  | some i =>
    let t : Txn := { id := BitVec.ofNat 8 i, op := op, addr := addr, beats := beats, qos := qos, owner := o,
                     issued := s.now, wdata := w, rdata := [] }
    some (s.modPort n (fun p => { p with txns := p.txns ++ [t] }))

/-- The open transaction with an ID. -/
def State.txn? (s : State) (n : PortId) (id : Byte) : Option Txn := (s.port n).txns.find? (fun t => t.id == id)

/-- A requester that finds no ID free waits, behind those that wait already (R293). -/
def State.await (s : State) (n : PortId) (w : Waiter) : State :=
  s.modPort n (fun p => { p with order := if w ∈ p.order then p.order else p.order ++ [w] })

def State.dropTxn (s : State) (n : PortId) (id : Byte) : State :=
  s.modPort n (fun p => { p with txns := p.txns.filter (fun t => t.id ≠ id) })

/-- An error response (R295): ERRORS, LAST_ERROR and health event 0x07. -/
def State.portError (s : State) (n : PortId) (addr op err qos : Nat) : State :=
  let r := BitVec.ofNat 128 (addr % 2 ^ 48 + op * 2 ^ 48 + err * 2 ^ 52 + qos * 2 ^ 54 + s.now * 2 ^ 64)
  (s.modPort n (fun p => { p with errors := p.errors + 1, lastError := r })).health 0x07 none n.val n.val

/-- Beats that a read took, counted on its port (Table 12-7). -/
def State.countRead (s : State) (n : PortId) (va len : Nat) : State :=
  s.modPort n (fun p => { p with bytesRead := bump p.bytesRead (64 * ((va % 64 + len + 63) / 64)) })

/-- A QOS 3 response later than RT_LATENCY_NS counts in RT_LATE (R294); a tick is 62.5 ns. -/
def State.rtLateness (s : State) (n : PortId) (t : Txn) : State :=
  if t.qos = 3 ∧ t.rdata = [] ∧ 2 * s.journal.rtLatencyNs.toNat < 125 * (s.now - t.issued) then
    (s.modPort n (fun p => { p with rtLate := p.rtLate + 1 })).health 0x08 none n.val n.val
  else s

/-- Whether a partition's mask holds a core of a cluster. -/
def State.maskMeets (s : State) (p : PartId) (cl : Nat) : Bool :=
  decide ((s.part p).coreMask.toNat / 2 ^ (5 * cl) % 32 ≠ 0)

/-- Whether every port of a partition's clusters is UP (R299). -/
def State.portsReady (s : State) (p : PartId) : Bool :=
  allPorts.all (fun n => !s.maskMeets p n.val || s.portUp n)

/-- Host-memory ports written in a run (R298): the masks of its cores. -/
def State.runPorts (s : State) (r : RunSt) : BitVec 4 :=
  (r.cores.map (fun c => (s.core c).portMask) ++ (r.arrived ++ r.taken).map (fun t => t.ports)).foldl (· ||| ·) 0

/-- A loss of the port (R298): transactions lost, runs killed with 0x09 (in an open commit phase they end without a commit), resident
loads through the port failed (R327), records wait for the port, event 0x06. -/
def State.portLost (s : State) (n : PortId) (st : PortState) : State :=
  let s := s.modPort n (fun p => { p with state := st, txns := [], order := [], settled := false, linkDrops := p.linkDrops + 1 })
  let s := allParts.foldl (fun s p =>
    match (s.part p).run with
    | none => s
    | some r =>
      let near := s.maskMeets p n.val
      let wrote := (s.runPorts r).getLsbD n.val
      let commits := s.records.any (fun x => decide (x.part = p) && x.commits.isSome && decide (s.partPort p = n))
      if !(near || wrote || commits) then s
      else if r.phase = .commit then s.commitLost p 0x09
      else s.killRun p 0x09) s
  let s := s.dropLoads n
  let s := { s with records := s.records.map (fun (r : PendRec) =>
    if s.partPort r.part = n then { r with issued := false, wrDone := false, flDone := false, walk := none } else r) }
  s.health 0x06 none n.val n.val

/-- A port that settled during Thaw enters HELD once Thaw is over (R365), with the event of R299. -/
def State.holdSettled (s : State) (n : PortId) : State :=
  if (s.port n).settled then
    (s.modPort n (fun p => { p with settled := false, state := .held })).health 0x06 none n.val n.val
  else s

/-! ### Reads that stewards make outside runs (R308, R311, R312) -/

/-- Pages of 4 KB that an access touches (R312). -/
def hostSegs (va len off : Nat) : List Seg :=
  if len = 0 then []
  else (List.range ((va + len - 1) / 4096 - va / 4096 + 1)).map (fun i =>
    let lo := max va ((va / 4096 + i) * 4096)
    let hi := min (va + len) ((va / 4096 + i + 1) * 4096)
    { va := lo % 2 ^ 48, len := hi - lo, off := off + (lo - va), peer := none })

/-- What a steward's read of host memory ends in. -/
inductive ReadEnd where
  | data (bs : List Byte)
  /-- the translation or the right to read failed, at this VA -/
  | fault (f : XFault) (va : Nat)
  /-- an error response, with the physical address of its request -/
  | error (err pa : Nat)
  /-- the port carries nothing, or a request was never answered -/
  | lost
  deriving DecidableEq, Repr

/-- A whole walk through a port (R305 to R308): its reads counted, its tables cached, an error response reported (R295); none when a
read is never answered, which makes the port FAILED (R296). -/
def State.portWalk (s : State) (n : PortId) (qos : Fin 4) (ast va : Nat) (rs : List WalkRead) :
    State × Option (Except XFault Leaf) :=
  let s := s.tableParity n ast va
  match s.walkBegin n ast va with
  | .error e => (s.countRange e, some (.error e))
  | .ok w =>
    let r := walkAll w rs
    let s := (r.2.foldl (fun (s : State) t => s.cacheTable n t) s.countWalk).countRead n 0 (64 * r.2.length)
    match r.1 with
    | none => (s.portLost n .failed, none)
    | some (.error e) =>
      (if e.cause = 5 then s.portError n (e.pa / 64 * 64) 1 e.err qos.val else s.countRead n 0 64, some (.error e))
    | some (.ok l) => (s.countRead n 0 64, some (.ok l))

/-- The physical address of a page a steward reads, through the steward cache and its walk (R303, R310, R312). -/
def State.stewardPage (s : State) (n : PortId) (qos : Fin 4) (ast va : Nat) (ws : List (List WalkRead)) :
    State × List (List WalkRead) × Option (Except XFault Nat) :=
  let right := fun (l : Leaf) => match l.rights .read with
    | some e => Except.error e
    | none => Except.ok (l.addr va)
  let s := s.stewardParity n ast va
  match s.stewardLookup n ast va with
  | some (l, s) => (s, ws, some (right l))
  | none =>
    match s.portWalk n qos ast va (ws.headD []) with
    | (s, none) => (s, ws.drop 1, none)
    | (s, some (.error e)) => (s, ws.drop 1, some (.error e))
    | (s, some (.ok l)) => (s.stewardInsert n l, ws.drop 1, some (right l))

/-- A read by pages, one request each, through its port: under an AST, or with physical addresses where there is none. An error
response ends it (R295); the beats of that request that came before count as taken. -/
def State.stewardPages (s : State) (tr : Option Nat) (qos : Fin 4) (r : ReadResult) :
    List (PortId × Seg) → List (List WalkRead) → State × ReadEnd
  | [], _ => (s, .data r.bytes)
  | (n, g) :: rest, ws =>
    if !s.portCarries n then (s, .lost)
    else
      let x := match tr with
        | some ast => s.stewardPage n qos ast g.va ws
        | none => (s, ws, some (.ok g.va))
      match x.2.2 with
      | none => (x.1, .lost)
      | some (.error e) => (x.1, .fault e g.va)
      | some (.ok pa) =>
        let got := r.bytes.length - g.off
        if g.len ≤ got then (x.1.countRead n pa g.len).stewardPages tr qos r rest x.2.1
        else
          let s := x.1.countRead n 0 (64 * ((pa + got) / 64 - pa / 64))
          match r.err with
          | some e => (s.portError n (pa / 64 * 64) 1 e.toNat qos.val, .error e.toNat (pa / 64 * 64))
          | none => (s.portLost n .failed, .lost)

/-- A read of host memory through one port under an AST. -/
def State.stewardRead (s : State) (n : PortId) (qos : Fin 4) (ast va len : Nat) (r : ReadResult) : State × ReadEnd :=
  s.stewardPages (some ast) qos { r with bytes := r.bytes.take len } ((hostSegs va len 0).map (fun g => (n, g))) r.walks

/-- A read of host memory at physical addresses (R401, R402, R409). -/
def State.physRead (s : State) (n : PortId) (pa len : Nat) (r : ReadResult) : State × ReadEnd :=
  s.stewardPages none 0 { r with bytes := r.bytes.take len } ((hostSegs pa len 0).map (fun g => (n, g))) []

/-- The bytes of a read that ended well. -/
def ReadEnd.bytes? (e : ReadEnd) : Option (List Byte) := match e with | .data bs => some bs | _ => none

/-- Report the fault or error of a steward's read (R316): LAST_FAULT holds the VA, the PA for causes 0x5 and 0x6. The status of
Table 13-5 and the cause word; none for data or a lost port. -/
def State.stewardFault (s : State) (n : PortId) (ast : Nat) (e : ReadEnd) : State × Option (Byte × Nat) :=
  let report := fun (f : XFault) (addr : Nat) =>
    let w := causeSteward f .read n.val
    (s.reportFault addr ast w, some (causeStatus f.cause, w))
  match e with
  | .fault f va => report f (if f.cause = 5 then f.pa else va)
  | .error err pa => report ⟨6, 0, err, pa⟩ pa
  | _ => (s, none)

end Sys2Proof.Machine
end

