-- ==== Sys2Proof/Machine/Start.lean ====
section
/-!
DEFINITION. Starts, failed starts, the boot counter, Midwinter entry, the signed container (R400 to R408).
-/
namespace Sys2Proof.Machine

/-- Codes of Table 18-5. -/
def startCode : StartOutcome → Nat
  | .success => 0 | .readyTimeout => 1 | .authFail => 2 | .imageInvalid => 3 | .rollback => 4 | .postFail => 5
  | .watchdog => 6 | .stewardLoss => 7 | .fetchFail => 8

/-- FUSE_CRC and REF_CLK_KHZ of the fuse word (R452). -/
def State.fuseOk (s : State) : Bool :=
  let f := s.pins.fuse.toNat
  decide (crc32c (leBytes 28 f) = fld f 255 224) && decide (19200 ≤ fld f 115 96) && decide (fld f 115 96 ≤ 52000)

/-- SVN_MIN of the fuses. -/
def State.svnMin (s : State) : Nat := fld s.pins.fuse.toNat 91 86
/-- REF_CLK_KHZ of the fuses. -/
def State.refKhz (s : State) : Nat := fld s.pins.fuse.toNat 115 96

/-- Whether a BLOCK_MIN allows this block (reject code 0x0104, R1). -/
def blockMinOk (x : Nat) : Bool := decide (x / 65536 % 256 = 3) && decide (x / 2 ^ 24 = 0) && decide (x ≤ 0x00030200)

/-- The first check of R402 that a container fails, in the order R402 lists them; `none` when it is accepted. -/
def State.containerCheck (s : State) (kind : Nat) (bs : List Byte) (length : Nat) (crc : Option Nat) : Option Nat :=
  let len := leAt bs 8 4
  let key := leAt bs 6 1
  if leAt bs 0 4 ≠ 0x57465356 ∨ leAt bs 4 2 ≠ 1 ∨ leAt bs 0x16 2 ≠ kind then some 1
  else if len ≠ length ∨ len % 64 ≠ 0 ∨ len < 4096 ∨ 524288 < len ∨ bs.length ≠ len ∨
      (match crc with | some c => decide (c ≠ leAt bs 0x18 4) | none => false) = true ∨
      crc32c (overwrite (bs.take (len - 64)) 0x18 [0, 0, 0, 0]) ≠ leAt bs 0x18 4 then some 2
  else if !blockMinOk (leAt bs 0x10 4) then some 3
  else if 1 < key ∨ s.fuseBit (84 + key) then some 4
  else if leAt bs 7 1 < s.svnMin then some 5
  else if !Config.signatureOk key bs then some 6
  else none

/-- How a failed check ends a start (Table 18-5). -/
def checkOutcome : Nat → StartOutcome
  | 4 => .authFail | 6 => .authFail | 5 => .rollback | _ => .imageInvalid

/-- The detail of the start record for a failed check. -/
def checkDetail (n : Nat) : Nat := if n = 5 then 0 else n

/-- Fields of a slot record (Table 18-2). -/
def slotPa (r : List Byte) : Nat := leAt r 0 6
def slotLength (r : List Byte) : Nat := leAt r 8 4
def slotCrc (r : List Byte) : Nat := leAt r 12 4
def slotValid (r : List Byte) : Bool := bitAt (leAt r 20 1) 0

def State.slotRecord (s : State) (b : Bool) : List Byte := if b then s.start.slotB else s.start.slotA

def State.setSlot (s : State) (b : Bool) (r : List Byte) : State :=
  { s with start := if b then { s.start with slotB := r } else { s.start with slotA := r } }

/-- A slot record after its check: FW_VERSION and AUTH as found, the writable fields as written (Table 18-2). -/
def slotChecked (r : List Byte) (version : Nat) (auth : Bool) : List Byte :=
  overwrite r 16 (leBytes 4 version ++ leBytes 1 (b2n (slotValid r) + 2 * b2n auth))

/-- Write a start record and count the start (Table 18-5). -/
def State.startRecord (s : State) (outcome detail : Nat) : State :=
  let r := BitVec.ofNat 128 (s.start.cause.toNat + outcome * 2 ^ 8 + b2n s.start.slot * 2 ^ 16 + detail % 2 ^ 32 * 2 ^ 32 +
    s.start.startTime * 2 ^ 64)
  let i := s.start.startNext.toNat % 8
  { s with start := { s.start with startLog := s.start.startLog.set i r (Nat.mod_lt _ (by decide)),
                                   startNext := s.start.startNext + 1 } }

/-- The calibration set's values in force (R417, Table 18-7). -/
def applyCal (p : PowerSt) (b : List Byte) : PowerSt :=
  { p with coeff := slice b 0 64, dyn := slice b 64 12, leak := slice b 76 12, unc := slice b 88 12,
           full := slice b 100 12,
           droopLevel := Vector.ofFn (fun i : Fin 20 => b.getD (112 + i.val) 0),
           droopHyst := Vector.ofFn (fun i : Fin 20 => b.getD (132 + i.val) 0),
           sensorOff := (List.range 18).map (fun i => sgn 8 (b.getD (152 + i) 0).toNat) }

/-- Clusters as built, as a mask. -/
def Build.present (b : Build) : BitVec 4 := BitVec.ofNat 4 (2 ^ b.c - 1)

/-- Everything at its default, but what R405 keeps, the clocks and pins, the control port (R422) and the ports' links. -/
def State.defaults (s : State) : State :=
  let n := State.resetOf s.build
  let p0 := n.power
  let pw := { p0 with timebase := s.power.timebase, refFrac := s.power.refFrac, aonFrac := s.power.aonFrac,
                      onAon := s.power.onAon, cclkFrac := s.power.cclkFrac, season := s.power.season,
                      pllLocked := s.power.pllLocked, pstReq := 5, pstAck := s.power.pstAck,
                      pwrReq := s.power.pwrReq, pwrAck := s.power.pwrAck, alertLow := s.power.alertLow,
                      tempMax := s.power.tempMax }
  let port := fun (i : Fin 4) =>
    let o := s.ports[i.val]
    let d := n.ports[i.val]
    { d with state := o.state, linkUp := o.linkUp }
  let link := LinkSt.reset s.pins.inst.val (s.fuseBit 92) (s.fuseBit 93)
  let lp := fun (i : Fin 2) =>
    let o := s.link.ports[i.val]
    { link.ports[i.val] with phyIn := o.phyIn, phyUp := o.phyUp }
  let f := { n.fault with retired := s.fault.retired, spareSubst := s.fault.spareSubst }
  let n := { n with
    pending := s.pending, power := applyCal pw s.start.calActive, ports := Vector.ofFn port,
    link := { link with ports := Vector.ofFn lp },
    fault := { f with spareArrays := s.fault.spareArrays }, deep := s.deep, pins := s.pins,
    journal := { n.journal with entries := s.journal.entries },
    ctl := { s.ctl with ignored := 0, bellsIgnored := 0, transactions := 0, aborts := 0, lastAbort := 0,
                        peerEvents := 0, attachCount := 0, attachTime := 0, heldBells := [], heldRtBells := [] },
    start := { s.start with mwReason := 0, mwResult := 0, updateState := 0, update := none, calModified := false,
                            libraryState := 0, libLoading := none,
                            libLast := none, store := Vector.replicate 4 [], storePoison := Vector.replicate 4 [], storeFlip := Vector.replicate 4 [],
                            storesLost := false, storeLost := Vector.replicate 8 none, pendingDir := none, dirGen := 0, mwTest := none } }
  let m := n.mapsOf
  { n with fault := { n.fault with coreMap := m.1, arrayMap := m.2 } }

/-- End the mailbox transaction in progress with an abort (R400, R433). -/
def State.mailboxAbort (s : State) (code : Nat) : State :=
  match s.ctl.pdState with
  | .busy =>
    let s := match s.ctl.latched with
      | some r => { s with ctl := { s.ctl with
          transactions := s.ctl.transactions + 1, aborts := s.ctl.aborts + 1,
          lastAbort := BitVec.ofNat 128 (r.sub + r.index * 2 ^ 8 + code * 2 ^ 24 + b2n r.remote * 2 ^ 32 + s.now * 2 ^ 64) } }
      | none => s
    { s with ctl := { s.ctl with pdState := .aborted, abort := BitVec.ofNat 8 code, rlen := 0, latched := none } }
  | _ => s

/-- Begin one start of a sequence (R400, R403): every run ends unjournalled, the mailbox aborts, supplies are asked for,
everything returns to its default (R405, R422). -/
def State.beginStart (s : State) (cause : Nat) (slot : Bool) : State :=
  let s := (s.holdSettled 0).mailboxAbort 6
  let s := { s with ctl := { s.ctl with irqStatus := 0, claim := 0, attachWaits := [], waitWalks := false } }
  let s := s.defaults
  { s with
    start := { s.start with state := .starting, phase := 0, cause := BitVec.ofNat 8 cause, slot := slot,
                            startTime := s.now, image := [] },
    power := { s.power with season := .thaw, pstate := 5, pstReq := 5,
                            pwrReq := s.power.pwrReq ||| (s.build.present &&& ~~~s.power.pwrAck) } }

/-- The first start of a sequence uses NEXT_SLOT (R406). -/
def State.restart (s : State) (cause : Nat) : State := s.beginStart cause s.start.nextSlot

/-- Enter Midwinter (R408): ROM firmware, cluster 0 alone at P5. -/
def State.enterMidwinter (s : State) (reason : Nat) : State :=
  let s := s.defaults
  ({ s with start := { s.start with state := .midwinter, mwReason := BitVec.ofNat 8 reason },
            power := { s.power with season := .spring, pstate := 5, pstReq := 5, pwrReq := 1 } }).irq 7

/-- A start fails (R406): counted, recorded, and started again from the other slot when its record is valid, or Midwinter
at the third failure. -/
def State.startFail (s : State) (o : StartOutcome) (detail : Nat) : State :=
  let s := s.startRecord (startCode o) detail
  let n := s.start.bootCount.toNat + 1
  let s := { s with start := { s.start with bootCount := BitVec.ofNat 2 (min n 3) } }
  if 3 ≤ n then s.enterMidwinter (startCode o)
  else
    let other := !s.start.slot
    s.beginStart 1 (if slotValid (s.slotRecord other) then other else s.start.slot)

/-- The last steward is lost (R389): a restart in service, a failed start while starting or in probation (R406). -/
def State.lastStewardLost (s : State) : State :=
  match s.start.state with
  | .starting => s.startFail .stewardLoss 0
  | .probation => s.startFail .stewardLoss 0
  | .running => s.restart 3
  | _ => s

/-- START (R400, R410, R453): ignored while starting and once test access was granted. -/
def execStart (s : State) : Out :=
  if s.start.state = .starting ∨ s.pins.granted ∨ s.pins.wir = 1 ∨ s.pins.wir = 2 ∨ s.pins.wir = 4 then .next s
  else
    let s := if s.start.state = .midwinter then { s with start := { s.start with bootCount := 0 } } else s
    let slot := if s.start.state = .unstarted then s.start.firstSlot else s.start.nextSlot
    let s := if s.start.state = .unstarted then { s with start := { s.start with nextSlot := s.start.firstSlot, activeSlot := s.start.firstSlot } } else s
    .next (s.beginStart 0 slot)

/-- Slot records copied from the boot block by a cold start (R401): writable fields only. -/
def bootRecord (bs : List Byte) (o : Nat) : List Byte :=
  let r := slice bs o 32
  slotChecked r 0 false

/-- Supplies and PLLs are up: every present cluster acknowledged (Table 18-4). -/
def State.powered (s : State) : Bool := decide (s.power.pwrAck &&& s.build.present = s.build.present) && s.power.pllLocked

/-- The image of the chosen slot, read through M0 (R403). -/
def State.startSlot (s : State) (img : ReadResult) : State :=
  let r := s.slotRecord s.start.slot
  if !slotValid r then s.startFail .fetchFail 0
  else
    let y := s.physRead 0 (slotPa r) (slotLength r) img
    match y.2.bytes? with
    | some bs => { y.1 with start := { y.1.start with phase := 2, image := bs } }
    | none => y.1.startFail .fetchFail 0

/-- Address of the boot block (Table 19-1). -/
def State.bootPa (s : State) : Nat := s.start.bootHi.toNat * 2 ^ 32 + s.start.bootLo.toNat

/-- Phase 2: the boot block where needed, the slot record chosen, its image read (R401, R403); a port that carries nothing fails the
read. -/
def State.startImage (s : State) (boot img : ReadResult) : State :=
  if s.start.cold then
    let y := s.physRead 0 s.bootPa 64 boot
    match y.2.bytes? with
    | some bs => State.startSlot { y.1 with start := { y.1.start with cold := false, slotA := bootRecord bs 0, slotB := bootRecord bs 32 } } img
    | none => y.1.startFail .fetchFail 0
  else s.startSlot img

/-- Phase 3: the checks of R402 on the image of the chosen slot. -/
def State.startChecks (s : State) : State :=
  let r := s.slotRecord s.start.slot
  let bs := s.start.image
  match s.containerCheck 1 bs (slotLength r) (some (slotCrc r)) with
  | some n => (s.setSlot s.start.slot (slotChecked r (leAt bs 12 4) false)).startFail (checkOutcome n) (checkDetail n)
  | none =>
    let s := s.setSlot s.start.slot (slotChecked r (leAt bs 12 4) true)
    { s with start := { s.start with phase := 3, fwVersion := BitVec.ofNat 32 (leAt bs 12 4), fwCompat := leAt bs 0x14 2,
                                     fwCrc := BitVec.ofNat 32 (crc32c bs) } }

/-- Phase 4: stewards that pass their memory test (R403, R404). -/
def State.startFirmware (s : State) (pass : BitVec 4) : State :=
  let s := { s with fault := { s.fault with stewards := Vector.ofFn (fun i : Fin 4 =>
    { faulted := false, retired := !pass.getLsbD i.val, faultTimes := [], onB := s.start.slot }) } }
  if (s.fault.stewards.toList.filter (fun w => !w.retired)).length < 2 then s.startFail .postFail 0
  else { s with start := { s.start with phase := 4 } }

/-- Phase 5, power-on self-test (R404): failing parts retired or disabled, cores whose arrays are all fused off retired (R13), deep
scratch zero, and the conditions under which the start fails. -/
def State.startPost (s : State) (coreFail : BitVec 20) (arrayFail : BitVec 64) (control : Bool) : State :=
  if !s.fuseOk then s.startFail .postFail 0xFFFFFFFF
  else
    let s := { s with deep := { DeepSt.reset with losses := s.deep.losses } }
    let built := s.fault.coreMap
    let s := allCores.foldl (fun s c =>
      if !built.getLsbD c.val then s
      else if coreFail.getLsbD c.val then
        { s with fault := { s.fault with cores := upd s.fault.cores c (fun h => { h with selftestFails := h.selftestFails + 1 }) } }
          |>.retire c 1
      else { s with fault := { s.fault with cores := upd s.fault.cores c (fun h => { h with selftestLast := s.power.timebase }) } }) s
    let s := allCores.foldl (fun s c =>
      if c.val % 5 = 4 then s
      else (List.range 4).foldl (fun s j =>
        if arrayFail.getLsbD (arrayBit c j) && s.fault.arrayMap.getLsbD (arrayBit c j) then s.disableArray c j else s) s) s
    let s := allCores.foldl (fun s c =>
      if s.inService c.val && decide (s.arraysOf c = []) && !s.usable c then s.retire c 2 else s) s
    let left := allCores.filter (fun c => decide (c.val < 5) && s.usable c)
    if control ∨ left = [] then
      s.startFail .postFail (match allCores.find? (fun c => coreFail.getLsbD c.val) with | some c => c.val | none => 0)
    else { s with start := { s.start with phase := 5 } }

/-- Phase 6: calibration applied, journal and commit words zero, EPOCH counted; the firmware reports ready (R403). -/
def State.startReady (s : State) : State :=
  let s := s.startRecord 0 0
  ({ s with
      journal := JournalSt.reset,
      power := { applyCal s.power s.start.calActive with season := .spring },
      start := { s.start with state := .probation, phase := 6, activeSlot := s.start.slot, epoch := s.start.epoch + 1,
                              image := [] } }).irq 7 |>.relimit.sendHellos.oldAlert

/-- A start phase ends (R403); a phase out of order, or before its supplies are up, changes nothing. -/
def execStartPhaseDone (d : PhaseDone) (s : State) : Out :=
  if s.start.state ≠ .starting then .next s
  else match d, s.start.phase with
    | .power, 0 => .next (if s.powered then { s with start := { s.start with phase := 1 } } else s)
    | .image boot img, 1 => .next (s.startImage boot img)
    | .checks, 2 => .next s.startChecks
    | .firmware pass, 3 => .next (s.startFirmware pass)
    | .post cf af ctl, 4 => .next (s.startPost cf af ctl)
    | .dictionary, 5 => .next s.startReady
    | _, _ => .next s

/-- A start fails with an outcome (R406). -/
def execStartFail (outcome : StartOutcome) (detail : Word) (s : State) : Out :=
  if s.start.state = .starting ∨ s.start.state = .probation then .next (s.startFail outcome detail.toNat) else .next s

/-- 500 ms without ready (R406). -/
def execReadyTimeout (s : State) : Out :=
  if s.start.state = .starting then .next (s.startFail .readyTimeout 0) else .next s

/-- 10 s of PROBATION (R406). -/
def execProbationEnd (s : State) : Out :=
  if s.start.state = .probation then .next { s with start := { s.start with state := .running, bootCount := 0 } }
  else .next s

/-- The steward watchdog fires (R407). -/
def execStewardWatchdogFire (s : State) : Out :=
  match s.start.state with
  | .starting => .next (s.startFail .watchdog 0)
  | .probation => .next (s.startFail .watchdog 0)
  | .running => .next (s.restart 2)
  | _ => .next s

end Sys2Proof.Machine
end

