-- ==== Sys2Proof/Machine/Lockstep.lean ====
section
/-!
DEFINITION. Lockstep pairs and failover (R385 to R394), self-test, stewards (R389), slow and aging cores (R276, R396),
parity on the interconnect (R383), ends of runs by watchdogs (R205, R232).
-/
namespace Sys2Proof.Machine

/-- The class RT partition while armed or disarming, with its run. -/
def State.rtRun (s : State) : Option (PartId × RunSt) :=
  match s.rtPart with
  | some p => match (s.part p).run with | some r => some (p, r) | none => none
  | none => none

def State.modFault (s : State) (f : FaultSt → FaultSt) : State := { s with fault := f s.fault }
def State.modPair (s : State) (i : Fin 2) (f : PairSt → PairSt) : State :=
  s.modFault (fun x => { x with pairs := upd x.pairs i f })
def State.modHealth (s : State) (c : CoreId) (f : CoreHealth → CoreHealth) : State :=
  s.modFault (fun x => { x with cores := upd x.cores c f })

/-- Remember when the run that a fault kills was dispatched: the interruption counts from there (R388). -/
def State.noteInterruption (s : State) (r : RunSt) : State :=
  match s.fault.faultRunStart with
  | some _ => s
  | none => s.modFault (fun x => { x with faultRunStart := some r.started })

/-- Kill the RT run with cause 0x0A (R387, R383). -/
def State.lockstepKill (s : State) (p : PartId) (r : RunSt) : State := (s.noteInterruption r).killRun p 0x0A

/-- A mismatch of a pair (R385, R387): counted, RT fault 0x42, the run killed with 0x0A, the pair's self-test awaited. -/
def State.mismatch (s : State) (pair : Fin 2) : State :=
  let x := s.fault.pairs[pair.val]
  match s.rtRun, x.lead, x.checker with
  | some (p, r), some _, some _ =>
    let s := s.modFault (fun f => { f with mismatches := f.mismatches + 1 })
    let s := s.rtFault 0x42 none pair.val
    (s.lockstepKill p r).modPair pair (fun y => { y with testing := true })
  | _, _, _ => s

/-- LOCKSTEP_MISMATCH (R385, R387). -/
def execLockstepMismatch (pair : Fin 2) (s : State) : Out := .next (s.mismatch pair)

/-- The hot spare takes a role of a pair; a new hot spare is borrowed (R387, R391). -/
def State.joinSpare (s : State) (pair : Fin 2) (lead checker : Option (Fin 5)) : State :=
  let s := s.modPair pair (fun y => { y with lead := lead, checker := checker, testing := false })
  let s := s.modFault (fun f => { f with hotSpare := none, failovers := f.failovers + 1, failoverOpen := true })
  s.borrow

/-- CORES_MIN of the RT image and how many pairs stand (each counts as one core, R385). -/
def State.pairsUp (s : State) : Nat :=
  s.fault.pairs.toList.countP (fun p => p.lead.isSome && p.checker.isSome)

/-- A failure with no hot spare (R393, rows 3 to 5): `alive` is a member of the pair that passed self-test. -/
def State.degrade (s : State) (pair : Fin 2) (alive : Option (Fin 5)) (double : Bool) : State :=
  let need := match s.rtPart with | some p => s.minOf p | none => 0
  let s := s.modPair pair (fun y => { y with testing := false })
  if !double ∧ 2 ≤ s.pairsUp ∧ need ≤ s.pairsUp - 1 then
    let s := s.modPair pair (fun y => { y with lead := none, checker := none })
    s.modFault (fun f => { f with hotSpare := alive, lockstep := 1, failovers := f.failovers + 1, failoverOpen := true })
  else match s.fault.degradedOk, alive with
    | true, some a =>
      let s := s.modPair pair (fun y => { y with lead := some a, checker := none })
      (s.modFault (fun f => { f with lockstep := 3 })).rtFault 0x45 (some (coreAt 0 a)) a.val
    | _, _ => s.haltRt (if double then 1 else 2)

/-- Both members pass (R387, R390): the pair is kept once, then the hot spare replaces the checker, then the former
checker replaces the lead and the core of every mismatch is retired, then the service halts with reason 5. -/
def State.unresolved (s : State) (pair : Fin 2) (l c : Fin 5) : State :=
  let x := s.fault.pairs[pair.val]
  match x.stage with
  | 0 => s.modPair pair (fun y => { y with stage := 1, testing := false })
  | 1 =>
    match s.fault.hotSpare with
    | some h => (s.modPair pair (fun y => { y with stage := 2, former := some c })).joinSpare pair (some l) (some h)
    | none => s.degrade pair (some l) false
  | 2 =>
    let s := s.retire (coreAt 0 l) 1
    let s := s.modPair pair (fun y =>
      { y with stage := 3, lead := x.former, checker := some c, former := none, testing := false })
    s.modFault (fun f => { f with failovers := f.failovers + 1, failoverOpen := true })
  | _ => (s.modPair pair (fun y => { y with testing := false })).haltRt 5

/-- A logic self-test of a core ended (R384): SELFTEST_LAST of a test passed, SELFTEST_FAILS of one failed. -/
def State.tested (s : State) (c : CoreId) (passes : Bool) : State :=
  s.modHealth c (fun h => if passes then { h with selftestLast := s.power.timebase }
    else { h with selftestFails := h.selftestFails + 1 })

/-- FAILOVER (R387): what the self-test of both members found. -/
def execFailover (pair : Fin 2) (leadPasses checkerPasses : Bool) (s : State) : Out :=
  let x := s.fault.pairs[pair.val]
  match x.testing, x.lead, x.checker with
  | true, some l, some c =>
    let s := (s.tested (coreAt 0 l) leadPasses).tested (coreAt 0 c) checkerPasses
    match leadPasses, checkerPasses with
    | true, true => .next (s.unresolved pair l c)
    | false, true =>
      let h := s.fault.hotSpare
      let s := s.retire (coreAt 0 l) 1
      .next (match h with | some k => s.joinSpare pair (some c) (some k) | none => s.degrade pair (some c) false)
    | true, false =>
      let h := s.fault.hotSpare
      let s := s.retire (coreAt 0 c) 1
      .next (match h with | some k => s.joinSpare pair (some l) (some k) | none => s.degrade pair (some l) false)
    | false, false =>
      let s := (s.retire (coreAt 0 l) 1).retire (coreAt 0 c) 1
      .next ((s.modPair pair (fun y => { y with testing := false })).haltRt 1)
  | _, _, _ => .next s

/-- Whether a core may be tested now (R384): GATED in a general partition, a parked core being OFF (R358), or the hot spare. -/
def State.testable (s : State) (c : CoreId) : Bool :=
  (s.usable c && (s.runOf c).isNone && !s.rtRole c && decide (c ∉ s.power.parked) &&
    allParts.any (fun p => (s.part p).coreMask.getLsbD c.val && !(s.part p).rt)) ||
  (decide (c.val < 5) && decide (s.fault.hotSpare = some (indexOf c)))

/-- PERIODIC_SELFTEST (R384): a core that fails is retired, a failing array disabled. -/
def execPeriodicSelftest (c : CoreId) (corePasses : Bool) (arrayFails : BitVec 4) (s : State) : Out :=
  if !s.testable c then .next s
  else if corePasses then
    let s := s.tested c true
    .next ((List.range 4).foldl (fun s j => if arrayFails.getLsbD j ∧ j ∈ s.arraysOf c then s.disableArray c j else s) s)
  else
    let hot := decide (c.val < 5) && decide (s.fault.hotSpare = some (indexOf c))
    let s := (s.tested c false).retire c 1
    .next (if hot then (s.modFault (fun f => { f with hotSpare := none })).borrow else s)

/-- The stewards that carry roles. -/
def State.stewardsUp (s : State) : List (Fin 4) :=
  (List.finRange 4).filter (fun i => !s.fault.stewards[i.val].faulted && !s.fault.stewards[i.val].retired)

def State.modSteward (s : State) (i : Fin 4) (f : Steward → Steward) : State :=
  s.modFault (fun x => { x with stewards := upd x.stewards i f })

/-- One hour in ticks. -/
def hourTicks : Nat := 57600000000

/-- STEWARD_HEARTBEAT_MISS (R389): faulted, roles migrate; three faults within one hour retire it; the last one ends the
engine's service (R406). -/
def execStewardHeartbeatMiss (w : Fin 4) (s : State) : Out :=
  let x := s.fault.stewards[w.val]
  if x.faulted ∨ x.retired ∨ !s.booted then .next s
  else
    let times := s.now :: x.faultTimes.filter (fun t => decide (s.now ≤ t + hourTicks))
    let s := s.modFault (fun f => { f with stewardFaults := f.stewardFaults + 1 })
    let s := s.modSteward w (fun y => { y with faulted := true, faultTimes := times, retired := decide (3 ≤ times.length) })
    let s := s.health 0x12 none 0 w.val
    .next (if s.stewardsUp = [] then s.lastStewardLost else s)

/-- The next steward an update reloads: from 3 down to 0, skipping retired and reloaded ones (R412). -/
def State.nextUpdate (s : State) (done : List (Fin 4)) : Option (Fin 4) :=
  ((List.finRange 4).reverse).find? (fun i => !s.fault.stewards[i.val].retired && decide (i ∉ done))

/-- The update, or its rollback, is over (R412, R413). -/
def State.updateEnd (s : State) (u : Update) : State :=
  let st := if u.back then { s.start with update := none, updateState := 4 }
    else { s.start with update := none, updateState := 2, activeSlot := u.toB, fwVersion := u.version, fwCompat := u.compat }
  ({ s with start := st }).irq 7

/-- STEWARD_REJOIN (R389, R412): it takes back its roles on the firmware it loaded; an update goes on with the next. -/
def execStewardRejoin (w : Fin 4) (s : State) : Out :=
  let x := s.fault.stewards[w.val]
  if !x.faulted ∨ x.retired then .next s
  else match s.start.update with
    | some u =>
      if w ≠ u.cur then .next (s.modSteward w (fun y => { y with faulted := false }))
      else
        let s := s.modSteward w (fun y => { y with faulted := false, onB := u.toB })
        let done := w :: u.done
        let left := if u.back then (u.done.find? (fun i => decide (s.fault.stewards[i.val].onB ≠ u.toB) &&
            !s.fault.stewards[i.val].retired)) else s.nextUpdate done
        match left with
        | some n =>
          let s := { s with start := { s.start with update := some { u with cur := n, done := if u.back then u.done else done } } }
          .next (s.modSteward n (fun y => { y with faulted := true }))
        | none => .next (s.updateEnd u)
    | none => .next (s.modSteward w (fun y => { y with faulted := false }))

/-- Whether S_i/C_i × 1.2 is below the mean of the others' rates, over a common denominator (R276). -/
def slowRate (all : List (Nat × (Nat × Nat))) (x : Nat × (Nat × Nat)) : Bool :=
  let prod := all.foldl (fun m y => m * y.2.2) 1
  let n := all.length - 1
  let others := (all.filter (fun y => y.1 ≠ x.1)).foldl (fun m y => m + y.2.1 * (prod / y.2.2)) 0
  decide (12 * x.2.1 * (prod / x.2.2) * n < 10 * others)

/-- Whether a core is a member of a lockstep pair. -/
def State.isMember (s : State) (c : CoreId) : Bool :=
  decide (c.val < 5) && !decide (s.fault.hotSpare = some (indexOf c)) && s.rtRole c

/-- The hot spare takes the place of an RT member that is retired for slowness or aging (R387, R396); with none the pair is degraded
(R393). -/
def State.replaceMember (s : State) (c : CoreId) : State :=
  match (List.finRange 2).find? (fun i => decide (s.fault.pairs[i.val].lead = some (indexOf c) ∨
      s.fault.pairs[i.val].checker = some (indexOf c))) with
  | none => s
  | some i =>
    let x := s.fault.pairs[i.val]
    let other := if x.lead = some (indexOf c) then x.checker else x.lead
    match s.fault.hotSpare with
    | some k => s.joinSpare i other (some k)
    | none => s.degrade i other false

/-- Retire a core, and replace it in its lockstep pair where it is a member. -/
def State.retireMember (s : State) (c : CoreId) (why : Nat) : State :=
  if s.isMember c then (s.retire c why).replaceMember c else s.retire c why

/-- Judge one core of a window (R276, R396). -/
def State.judge (s : State) (all : List (Nat × (Nat × Nat))) (x : Nat × (Nat × Nat)) : State :=
  if h : x.1 < 20 then
    let c : CoreId := ⟨x.1, h⟩
    if slowRate all x then
      let s := s.modHealth c (fun y => { y with slowWindows := y.slowWindows + 1, slowEvents := y.slowEvents + 1 })
      let n := s.fault.cores[c.val].slowWindows.toNat
      let s := s.health 0x04 (some c) 0 n
      if s.fault.slowRetire ≠ 0 ∧ s.fault.slowRetire.toNat ≤ n then s.retireMember c 3 else s
    else s.modHealth c (fun y => { y with slowWindows := 0 })
  else s

/-- STRIP_RATE_WINDOW_END (R276): 16 counted steps. -/
def execStripRateWindowEnd (p : PartId) (s : State) : Out :=
  if (s.part p).rate.steps < 16 then .next s
  else
    let all := (s.part p).rate.rates.filter (fun y => decide (0 < y.2.2))
    let s := s.modPart p (fun x => { x with rate := ⟨0, []⟩ })
    .next (if 2 ≤ all.length then all.foldl (fun s x => s.judge all x) s else s)

/-- AGING_MONITOR_READ (R396). -/
def execAgingMonitorRead (c : CoreId) (margin : Half) (s : State) : Out :=
  let h := s.fault.cores[c.val]
  let f := s.fault
  let below := decide (margin.toNat < f.agingWarn.toNat)
  let low := decide (margin.toNat < f.agingRetire.toNat)
  let member := s.isMember c
  let can := if member then f.hotSpare.isSome else decide (c.val % 5 < 4) && s.spareFree (clusterOf c)
  let again := low && !can && decide (h.agingRaised + hourTicks ≤ s.now)
  let warn := below && (!h.agingBelow || again)
  let s := s.modHealth c (fun x => { x with aging := margin, agingBelow := below,
                                            agingRaised := if warn then s.now else x.agingRaised })
  let s := if warn then s.health 0x05 (some c) 0 margin.toNat else s
  .next (if low && can && (s.usable c || f.borrowed.getLsbD c.val) then s.retireMember c 4 else s)

/-- INTERCONNECT_PARITY_ERROR (R383): an RT run is killed with 0x0A, any other run's step fails with 0x04, region 1. -/
def execInterconnectParityError (p : PartId) (s : State) : Out :=
  match (s.part p).run with
  | none => .next s
  | some r =>
    if (s.part p).rt then
      let s := s.lockstepKill p r
      .next (if s.fault.lockstep = 3 then s.haltRt 3 else s)
    else .next (s.failRun p 0x04 1)

/-- SEQUENCER_WATCHDOG_EXPIRY (R205): the step ends with 0x07 and the core's number. -/
def execSequencerWatchdogExpiry (c : CoreId) (s : State) : Out :=
  match (s.core c).phase with
  | .running => .next (s.failCore c 0x07 c.val)
  | .halted => .next (s.failCore c 0x07 c.val)
  | _ => .next s

/-- WCET_OVERRUN (R232, R390): the RT step ends with 0x07; counted, RT fault 0x47, the service stays ARMED. -/
def execWcetOverrun (s : State) : Out :=
  match s.rtRun with
  | some (p, r) =>
    if r.phase = .running ∧ r.cores.any (fun c => decide ((s.core c).phase ≠ .committed)) then
      let c := match r.cores.find? (fun c => decide ((s.core c).phase ≠ .committed)) with | some c => c | none => 0
      let s := s.modFault (fun f => { f with wcetOverruns := f.wcetOverruns + 1 })
      .next ((s.rtFault 0x47 none 0).failRun p 0x07 c.val)
    else .next s
  | none => .next s

end Sys2Proof.Machine
end

