-- ==== Sys2Proof/Machine/Operands.lean ====
section
/-!
DEFINITION. Operand forms of a core: descriptor fields (Tables 8-7 to 8-16, 6-1), near addresses (R164), deep addresses
(R175, R178), packed rows, windows (R148), scales (R64, R208, R210), rate classes (Table 4-1).
-/
namespace Sys2Proof.Machine

/-! ### Registers -/

/-- A scalar register; s0 reads as 0 (Table 8-2). -/
def Core.sreg (k : Core) (i : SReg) : DWord := if i.val = 0 then 0 else k.s[i.val]
/-- Bits [31:0] of a scalar register, unsigned (R457). -/
def Core.s32 (k : Core) (i : SReg) : Nat := (k.sreg i).toNat % 2 ^ 32
/-- Write a scalar register; a write to s0 is discarded (R184, Table 8-2). -/
def Core.setS (k : Core) (i : SReg) (x : DWord) : Core := if i.val = 0 then k else { k with s := k.s.set i.val x i.isLt }
/-- An address register. -/
def Core.areg (k : Core) (i : Nat) : Nat := (k.a.toList.getD i 0).toNat
/-- Write an address register. -/
def Core.setA (k : Core) (i : AReg) (x : Word) : Core := { k with a := k.a.set i.val x i.isLt }
/-- A vector register by number, modulo 32. -/
def Core.vreg (k : Core) (i : Nat) : Lanes := k.v[i % 32]'(Nat.mod_lt i (by decide))
def Core.setV (k : Core) (i : Nat) (x : Lanes) : Core := { k with v := k.v.set (i % 32) x (Nat.mod_lt i (by decide)) }

/-- Address arithmetic wraps modulo 2^32 (R185). -/
def a32 (x : Nat) : Nat := x % 2 ^ 32

/-! ### Descriptors -/

/-- Descriptor register of the bank in use: bank 1 while a routine runs (R197). -/
def Core.desc (k : Core) (i : Nat) : Nat := (Tab.get 0 (if k.frame.isSome then k.bank1 else k.bank0) i).toNat
/-- Codebook number of the declaration a descriptor is linked to. -/
def Core.book (k : Core) (i : Nat) : Nat := Tab.get 0 (if k.frame.isSome then k.books1 else k.books0) i
def Core.mt (k : Core) (i : Fin 8) : Nat := k.desc i.val
def Core.vtA (k : Core) (i : Fin 4) : Nat := k.desc (0x08 + 2 * i.val)
def Core.vtB (k : Core) (i : Fin 4) : Nat := k.desc (0x09 + 2 * i.val)
def Core.ad (k : Core) (i : Fin 8) : Nat := k.desc (0x10 + i.val)
def Core.bd (k : Core) (i : Fin 8) : Nat := k.desc (0x18 + i.val)
def Core.ddA (k : Core) (i : Fin 8) : Nat := k.desc (0x20 + 2 * i.val)
def Core.ddB (k : Core) (i : Fin 8) : Nat := k.desc (0x21 + 2 * i.val)
/-- The four registers of a window, least significant first. -/
def Core.wd (k : Core) (i : Nat) : List Nat := (List.range 4).map (fun j => k.desc (0x80 + 4 * i + j))

/-! Table 8-7 -/
def adMode (d : Nat) : Nat := fld d 1 0
def adWd (d : Nat) : Nat := fld d 4 2
def adTag (d : Nat) : Nat := fld d 6 5
def adTfmt (d : Nat) : Nat := fld d 10 7
def adSc (d : Nat) : Bool := bitAt d 11
def adSmodeB (d : Nat) : Bool := bitAt d 12
def adGsel (d : Nat) : Nat := fld d 14 13
def adSa (d : Nat) : Nat := fld d 18 15
def adSsa (d : Nat) : Nat := fld d 22 19
def adSpr (d : Nat) : Nat := fld d 47 32
def adRstr (d : Nat) : Nat := fld d 63 48
/-! Table 8-9 -/
def bdSrc (d : Nat) : Nat := fld d 1 0
def bdStrm (d : Nat) : Fin 8 := ⟨fld d 4 2 % 8, Nat.mod_lt _ (by decide)⟩
def bdTrans (d : Nat) : Bool := bitAt d 5
def bdTag (d : Nat) : Nat := fld d 7 6
def bdWfmt (d : Nat) : Nat := fld d 11 8
def bdSc (d : Nat) : Bool := bitAt d 12
def bdSmodeB (d : Nat) : Bool := bitAt d 13
def bdGsel (d : Nat) : Nat := fld d 15 14
def bdSa (d : Nat) : Nat := fld d 19 16
def bdSsa (d : Nat) : Nat := fld d 23 20
def bdSpr (d : Nat) : Nat := fld d 47 32
def bdBstr (d : Nat) : Nat := fld d 63 48
/-! Table 8-11 -/
def ddFar (d : Nat) : Nat := fld d 1 0
def ddOut (d : Nat) : Bool := bitAt d 2
def ddCodec (d : Nat) : Nat := fld d 4 3
def ddNtag (d : Nat) : Nat := fld d 6 5
def ddAtom (d : Nat) : Nat := fld d 8 7
def ddKva (d : Nat) : Bool := bitAt d 9
def ddNonear (d : Nat) : Bool := bitAt d 10
def ddNstr (d : Nat) : Nat := fld d 35 16
def ddFstr (d : Nat) : Nat := fld d 63 36
/-! Table 8-14 -/
def mtMode (d : Nat) : Nat := fld d 2 0
def mtAfmt (d : Nat) : Nat := fld d 6 3
def mtWfmt (d : Nat) : Nat := fld d 10 7
def mtKr (d : Nat) : Nat := fld d 16 11 + 1
def mtNr (d : Nat) : Nat := fld d 21 17 + 1
def mtRead (d : Nat) : Nat := fld d 25 23
def mtOfmt (d : Nat) : Nat := fld d 29 26
def mtDa (d : Nat) : Nat := fld d 33 30
def mtRa (d : Nat) : Nat := fld d 37 34
def mtDtag (d : Nat) : Nat := fld d 39 38
def mtVd (d : Nat) : Nat := fld d 44 40
def mtDstr (d : Nat) : Nat := fld d 60 45
/-! Table 8-16 -/
def vtAfmt (d : Nat) : Nat := fld d 3 0
def vtWfmt (d : Nat) : Nat := fld d 7 4
def vtVreg (d : Nat) : Bool := bitAt d 8
def vtVa (d : Nat) : Nat := fld d 13 9
def vtK (d : Nat) : Nat := fld d 29 14
def vtN (d : Nat) : Nat := fld d 39 30 + 1
def vtRead (d : Nat) : Nat := fld d 42 40
def vtOfmt (d : Nat) : Nat := fld d 46 43
def vtNs (d : Nat) : Bool := bitAt d 47
def vtVd (d : Nat) : Nat := fld d 52 48
def vtDa (d : Nat) : Nat := fld d 3 0
def vtRa (d : Nat) : Nat := fld d 7 4
def vtDtag (d : Nat) : Nat := fld d 9 8
def vtVstr (d : Nat) : Nat := fld d 31 16

/-- The operand format of a code, INT8 for a reserved one (a verified image names none, R30). -/
def fmtD (c : Nat) : Fmt := (fmtOf c).getD .int8

/-- Tag action of a read (R207). -/
def readTag (t : Nat) : ReadTag := if t = 1 then .wait else if t = 2 then .take else .free

/-! ### Near scratch addresses (R164) -/

/-- Whether an access of `n` bytes at an offset lies within NSL. -/
def NsWin.ok (w : NsWin) (off n : Nat) : Bool := decide (off + n ≤ w.nsl * 1024)
/-- The physical offset. -/
def NsWin.phys (w : NsWin) (off : Nat) : Nat := w.nsb * 1024 + off

/-- Physical spans of accesses, or none when one of them is illegal. -/
def NsWin.spans (w : NsWin) (xs : List Span) : Option (List Span) :=
  if xs.all (fun x => w.ok x.1 x.2) then some (xs.map (fun x => (w.phys x.1, x.2))) else none

/-- Bytes at an offset of the window. -/
def Core.nearAt (k : Core) (w : NsWin) (off n : Nat) : List Byte := k.nearRead (w.phys off) n

/-! ### Deep addresses (R175, R178) -/

/-- Where a deep address leads: a DSA, or an offset of a peer's inbound window. -/
inductive DeepPlace where
  | dsa (a : Nat)
  | remote (peer win off : Nat)
  deriving DecidableEq, Repr

/-- Resolve an access of `n` bytes at a deep address; none when it is illegal. -/
def State.deepPlace (s : State) (p : PartId) (da n : Nat) (write : Bool) : Option DeepPlace :=
  let w := ((s.part p).dw.toList.getD (fld da 31 30) 0).toNat
  let off := fld da 29 0
  if bitAt w 0 && (if write then bitAt w 2 else bitAt w 1) && decide (off + n ≤ fld w 47 32 * 65536) then
    some (if bitAt w 3 then .remote (fld w 6 4) (fld w 9 8) (fld w 31 16 * 65536 + off)
          else .dsa (fld w 31 16 * 65536 + off))
  else none

/-- A local read by address generator B: none when illegal or remote (R178). -/
def State.deepLocal (s : State) (p : PartId) (da n : Nat) : Option Nat :=
  match s.deepPlace p da n false with
  | some (.dsa a) => some a
  | _ => none

/-! ### Rate classes (R39, R62, Table 4-1) -/

/-- Whether a pair runs in the 4-bit class, before R62. -/
def fourBit (a w : Fmt) : Bool :=
  match a, w with
  | .int4, .int4 => true
  | .e2m1, .e2m1 => true
  | .bf16, .bg4 => false
  | .fp16, .bg4 => false
  | _, .bg4 => true
  | _, _ => false

/-- K-entries per pass E: 64 in the 4-bit class, 32 otherwise and when an operand of a 4-bit pair has G = 32. -/
def kEntries (mode : Nat) (a w : Fmt) (g32 : Bool) : Nat := if mode = 0 ∧ fourBit a w ∧ !g32 then 64 else 32

/-- Whether a pass forms INT32 entries (R111). -/
def intPass (mode : Nat) (a w : Fmt) : Bool :=
  if mode = 0 then a.isInt && w.isInt else if mode = 5 then true else a.isInt

/-! ### Windows (Table 6-1, R148) -/

/-- The 256-bit descriptor as a number. -/
def wdNat (rs : List Nat) : Nat := rs.foldr (fun r m => r + 2 ^ 64 * m) 0

/-- Where an element of a window lies: its byte offset from the base, and its channel; none is a pad element. -/
def winPlace (w : Nat) (y0 oh ow tap ch bits : Nat) : Option (Int × Nat) :=
  let iw := fld w 15 0
  let ih := fld w 31 16
  let ic := fld w 47 32
  let kh := fld w 83 80
  let kw := fld w 87 84
  let bs := 2 ^ fld w 112 111
  if kh * kw ≤ tap ∨ ic * bs * bs ≤ ch then none
  else
    let iy : Int := (oh * fld w 90 88 + tap / kw * fld w 96 94 : Nat) - (fld w 103 100 : Int)
    let ix : Int := (ow * fld w 93 91 + tap % kw * fld w 99 97 : Nat) - (fld w 107 104 : Int)
    if iy < 0 ∨ ix < 0 ∨ (ceilDiv ih bs : Int) ≤ iy ∨ (ceilDiv iw bs : Int) ≤ ix then none
    else
      let sub := ch / ic
      let y := iy.toNat * bs + sub / bs
      let x := ix.toNat * bs + sub % bs
      if ih ≤ y ∨ iw ≤ x then none
      else
        let ring := fld w 143 128
        let brow : Int := if ring = 0 then (y : Int) - y0 else ((y % ring : Nat) : Int)
        some (brow * (fld w 191 160 : Int) + ((x * fld w 223 192 + ch % ic * bits / 8 : Nat) : Int), ch % ic)

/-- Streamed row m, K-entry j of K block b (R148). -/
def winEntry (w : Nat) (e q0 y0 b m j bits : Nat) : Option (Int × Nat) :=
  let q := q0 + m
  let ow := fld w 63 48
  let oh := if ow = 0 then 0 else q / ow
  let icv := fld w 47 32 * 2 ^ fld w 112 111 * 2 ^ fld w 112 111
  let t := 2 ^ fld w 110 108
  if fld w 79 64 ≤ oh then none
  else if t = 1 then
    let cb := ceilDiv icv e
    if cb = 0 then none
    else winPlace w y0 oh (q % ow) (b / cb) (b % cb * e + j) bits
  else
    let cp := e / t
    if cp = 0 then none else winPlace w y0 oh (q % ow) (b * t + j / cp) (j % cp) bits

/-! ### Activation rows (R208) -/

/-- Where entry j of row m lies: offset in the window of the core and element index within the bytes there; none pads. -/
def rowEntry (p : PassFlight) (e m j : Nat) : Option (Int × Nat) :=
  let bits := (fmtD p.afmt).bits
  match adMode p.ad with
  | 0 => some (((a32 (p.base + m * adRstr p.ad) + j * bits / 8 : Nat) : Int), j)
  | 2 => some (((a32 (p.base + j * adRstr p.ad + m * (bits / 8)) : Nat) : Int), 0)
  | _ => (winEntry (wdNat p.wd) e p.q0 p.y0 p.kb m j bits).map (fun x => ((p.base : Int) + x.1, x.2))

/-- An element of a format at a byte position whose index within a packed row is `i`. -/
def elemAt (f : Fmt) (bs : List Byte) (i : Nat) : Nat := if f.bits = 4 then elem f bs (i % 2) else elem f bs 0

/-- Bytes that hold one element. -/
def Fmt.width (f : Fmt) : Nat := (f.bits + 7) / 8

/-- The encodings of row m, entries 0 to n − 1. -/
def rowCodes (k : Core) (p : PassFlight) (e m n : Nat) : List (Option Nat) :=
  let f := fmtD p.afmt
  (List.range n).map (fun j =>
    (rowEntry p e m j).map (fun x => elemAt f (k.nearAt p.win x.1.toNat f.width) x.2))

/-- Offsets of the bytes of row m; none when one lies below the base of the window. -/
def rowSpans (p : PassFlight) (e m : Nat) : Option (List Span) :=
  let f := fmtD p.afmt
  match adMode p.ad with
  | 0 => some [(a32 (p.base + m * adRstr p.ad), f.bytes e)]
  | _ => ((List.range e).filterMap (fun j => rowEntry p e m j)).mapM (fun x =>
      if x.1 < 0 then none else some (x.1.toNat, f.width))

/-! ### Scales (R60 to R65, R208, R210) -/

/-- Bytes of a scale entry: group scale, superscale; index i of a plane with row stride SPR. -/
def scaleSpans (smodeB : Bool) (sa ssa spr i : Nat) : List Span :=
  if smodeB then [(a32 (sa + i * spr), 2)] else [(a32 (sa + i * spr), 1), (a32 (ssa + i * spr / 8), 2)]

/-- Group scale and superscale codes; a superscale of mode B is 1.0 (R65). -/
def Core.scaleAt (k : Core) (w : NsWin) (smodeB : Bool) (sa ssa spr i : Nat) : ScaleRec :=
  if smodeB then ⟨leNat (k.nearAt w (a32 (sa + i * spr)) 2), 0x3F80⟩
  else ⟨leNat (k.nearAt w (a32 (sa + i * spr)) 1), leNat (k.nearAt w (a32 (ssa + i * spr / 8)) 2)⟩

/-- The value of a group scale: UE5M3 in mode S, BF16 in mode B; and of a superscale. -/
def groupVal (smodeB : Bool) (x : Nat) : FVal := if smodeB then decFp specBF16 x else decMag ue5m3 false x
def superVal (x : Nat) : FVal := decFp specBF16 x

/-- The factor of one operand, and the flags of reading it (R65). -/
def scaleFactor (smodeB : Bool) (r : ScaleRec) : FVal × Flags :=
  let g := groupVal smodeB r.group
  (mulVal g (superVal r.super), if smodeB then operandFlags g else 0)

/-- FP32 1.0 as an exact value. -/
def oneVal : FVal := .fin false 1 0

/-- The scaled pass sum of R63. -/
def scalePass (c : FVal) (p : Word) : Word × Flags :=
  let x := val32 p
  match c with
  | .nan => (nan32, fNAN)
  | _ =>
    if c.isZero then (0, 0)
    else if x.isNan then (nan32, 0)
    else if c.isInf && x.isZero then (nan32, fNAN)
    else match mulVal c x with
      | .fin n m e => round32 n m e
      | .inf n => (inf32 n, 0)
      | .nan => (nan32, fNAN)

/-! ### Weights (R91, R105, R106) -/

/-- The 16 BF16 entries of a codebook. -/
def bookEntries (bs : List Byte) : List Half := (List.range 16).map (fun i => BitVec.ofNat 16 (leAt bs (2 * i) 2))

/-- The class of a pair of operands (Table 2-3, Table 4-1). -/
def rateOf (a w : Fmt) : RateClass :=
  if fourBit a w then .four else if a.bits = 16 ∨ w.bits = 16 then .quarter else .eight

/-- The class that a LOADW lays its block out for: that of the pass that will use the set. A BD names no activation format,
so the class is that of the first template of the bank with the same WFMT, and the widest of the weight where none has it
(DEDUCED; assumption log 14). -/
def Core.loadClass (k : Core) (wfmt : Nat) : RateClass :=
  match (List.finRange 8).find? (fun i => decide (mtMode (k.mt i) = 0) && decide (mtWfmt (k.mt i) = wfmt)) with
  | some i => rateOf (fmtD (mtAfmt (k.mt i))) (fmtD wfmt)
  | none => match (fmtD wfmt).bits with | 4 => .four | 16 => .quarter | _ => .eight

/-- Bytes of one run of a block (R91). -/
def runBytes (cls : RateClass) (trans : Bool) : Nat :=
  match cls with | .quarter => 64 | .eight => 32 | .four => if trans then 16 else 32
/-- Runs of a block. -/
def runCount (cls : RateClass) (trans : Bool) : Nat :=
  match cls, trans with | .four, true => 64 | _, _ => 32
/-- Bytes of a block. -/
def blockBytes (cls : RateClass) : Nat := match cls with | .quarter => 2048 | _ => 1024

/-- Bytes of a block that a load of NR columns reads (R103). -/
def blockSpans (cls : RateClass) (trans : Bool) (nr : Nat) : List Span :=
  if trans then (List.range (runCount cls trans)).map (fun i => (i * runBytes cls trans,
    match cls with | .quarter => 2 * nr | .eight => nr | .four => (nr + 1) / 2))
  else [(0, nr * runBytes cls trans)]

/-- Element i of a run (R91): a byte in the 8-bit class, two bytes in the quarter-rate class, four bits in the 4-bit class;
a 4-bit weight that has a wider register to itself lies in its low bits (DEDUCED; R31). -/
def runElem (cls : RateClass) (f : Fmt) (run : List Byte) (i : Nat) : Nat :=
  match cls with
  | .four => elem f run i
  | .eight => leAt run i 1 % 2 ^ f.bits
  | .quarter => leAt run (2 * i) 2 % 2 ^ f.bits

/-- The code of K-entry k, column c. -/
def WSet.code (w : WSet) (k c : Nat) : Nat :=
  let f := fmtD w.fmt
  if w.trans then runElem w.cls f (w.block.drop (k * runBytes w.cls true)) c
  else runElem w.cls f (w.block.drop (c * runBytes w.cls false)) k

/-- The two nibbles of a byte, low first (R31). -/
def nibbles (b : Byte) : List Nat := [b.toNat % 16, b.toNat / 16]

/-- Pairs of bytes as 16-bit numbers. -/
def halves : List Byte → List Nat
  | a :: b :: r => (a.toNat + 256 * b.toNat) :: halves r
  | _ => []

/-- The weights of a block in block order. -/
def blockUnits (cls : RateClass) (block : List Byte) : List Nat :=
  match cls with
  | .four => block.flatMap nibbles
  | .eight => block.map (·.toNat)
  | .quarter => halves block

/-- The registers of a transposed block of the 4-bit class: elements c of runs 2r and 2r + 1 (R91). -/
def transRegs : Nat → List Byte → List Nat
  | 0, _ => []
  | n + 1, bs =>
    ((bs.take 16).flatMap nibbles).zipWith (fun a b => a + 16 * b) (((bs.drop 16).take 16).flatMap nibbles) ++
      transRegs n (bs.drop 32)

/-- The contents of the weight registers that a block fills, in block order (R90, R91). -/
def blockRegs (cls : RateClass) (trans : Bool) (block : List Byte) : List Nat :=
  match cls, trans with
  | .quarter, _ => halves block
  | .four, true => transRegs 32 block
  | _, _ => block.map (·.toNat)

/-- Parity of a number of up to 16 bits. -/
def oddBits (x : Nat) : Bool := (List.range 16).foldl (fun p i => p != x.testBit i) false

/-- Bits packed into a number, the first lowest. -/
def packBools (bs : List Bool) : Nat := bs.foldr (fun b n => b.toNat + 2 * n) 0

/-- The parity bits of the registers a block fills (R90). -/
def blockParity (cls : RateClass) (trans : Bool) (block : List Byte) : BitVec 1024 :=
  BitVec.ofNat 1024 (packBools ((blockRegs cls trans block).map oddBits))

/-- Whether the code of a weight is a zero weight as it is loaded: ±0, an integer 0, a codebook entry ±0 (R99). -/
def zeroCode (f : Fmt) (cb : List Half) (v : Nat) : Bool :=
  if f.isInt then decide (intVal f v = 0) else (elemVal f cb v).isZero

/-- Where the zero-detect bit of K-entry k, column c stands. -/
def zeroPlace (cls : RateClass) (trans : Bool) (k c : Nat) : Nat :=
  if trans then 32 * k + c else match cls with | .four => 64 * c + k | _ => 32 * c + k

/-- The zero-detect bits of a load of NR columns: the columns from NR on are zero weights (R90, R103). -/
def blockZeros (cls : RateClass) (trans : Bool) (f : Fmt) (cb : List Half) (nr : Nat) (block : List Byte) : BitVec 2048 :=
  let run := match cls, trans with | .four, false => 64 | _, _ => 32
  BitVec.ofNat 2048 (packBools ((blockUnits cls block).zipIdx.map (fun x =>
    decide (nr ≤ if trans then x.2 % 32 else x.2 / run) || zeroCode f cb (x.1 % 2 ^ f.bits))))

/-- Registers of a set whose bits and parity bit disagree, as a mask in block order (R94). -/
def WSet.parityDiff (w : WSet) : BitVec 1024 := blockParity w.cls w.trans w.block ^^^ w.parity

/-- Whether a register of the first n array rows has wrong parity. -/
def WSet.parityBadIn (w : WSet) (n : Nat) : Bool :=
  let d := w.parityDiff
  if d = 0 then false
  else (List.range 1024).any (fun i => d.getLsbD i && decide ((if w.trans then i / 32 else i % 32) < n))

end Sys2Proof.Machine
end

