-- ==== Sys2Proof/Machine/Flags.lean ====
section
/-!
DEFINITION. Flag bytes of a core (R53, R54, R110), the clip counters (R75), and the keys and rules of the accumulator
buffers (R107, R108, R130).
-/
namespace Sys2Proof.Machine

/-- Raise flags of the vector unit, and of the MVP. -/
def Core.raiseVec (k : Core) (f : Flags) : Core := { k with vecFlags := k.vecFlags ||| f }
def Core.raiseMv (k : Core) (f : Flags) : Core := { k with mvFlags := k.mvFlags ||| f }

/-- Count elements narrowed, and those clipped (R75). -/
def Core.countNarrow (k : Core) (n clipped : Nat) : Core :=
  { k with narrowed := satInc k.narrowed n, clipped := satInc k.clipped clipped }

/-- Elements of a list of flag bytes that set CLIP. -/
def clips (fs : List Flags) : Nat := fs.countP (fun f => f &&& fCLIP != 0)

/-- OR of flag bytes. -/
def orFlags (fs : List Flags) : Flags := fs.foldl (· ||| ·) 0

/-- Key of an entry, a row and a tile of array a. -/
def accKey (a row col : Nat) : Nat := a * 16384 + row * 32 + col
def rowKey (a row : Nat) : Nat := a * 512 + row
def tileKey (a row : Nat) : Nat := a * 16 + row / 32
/-- Key of the ECC word of an entry; the MVP is array 4 (R107, R130). -/
def accWord (key : Nat) : Nat := key / 2
def mvKey (v n : Nat) : Nat := 4 * 16384 + v * 1024 + n

/-- Raise flags in the tile of a row. -/
def Core.raiseTile (k : Core) (a row : Nat) (f : Flags) : Core :=
  { k with tileFlags := Tab.set 0 k.tileFlags (tileKey a row) (Tab.get 0 k.tileFlags (tileKey a row) ||| f) }

/-- A row of the tile is written (R110). -/
def Core.touchTile (k : Core) (a row : Nat) : Core := { k with tileUsed := Tab.set false k.tileUsed (tileKey a row) true }

/-- The tile is read out (R110). -/
def Core.untouchTile (k : Core) (a row : Nat) : Core := { k with tileUsed := Tab.set false k.tileUsed (tileKey a row) false }

/-- A pass initialises a row: a tile not written since its last read-out carries its flags into the step flag byte and
clears them (R110). -/
def Core.openTile (k : Core) (a row : Nat) : Core :=
  if Tab.get false k.tileUsed (tileKey a row) then k
  else { k with stepFlags := k.stepFlags ||| Tab.get 0 k.tileFlags (tileKey a row),
                tileFlags := Tab.del k.tileFlags (tileKey a row) }

/-- Every flag byte of a core, for its token (R54, R110, R251). -/
def Core.allFlags (k : Core) : Flags :=
  k.tileFlags.foldl (fun f p => f ||| p.2) (k.stepFlags ||| k.mvFlags ||| k.vecFlags)

/-- An accumulator row's entry as a read-out finds it: 0 or +0 where the row is not initialised (R108). -/
def Core.accEntry (k : Core) (a row col : Nat) : Word :=
  if Tab.get false k.rowInit (rowKey a row) then Tab.get 0 k.acc (accKey a row col) else 0
def Core.accSticky (k : Core) (a row col : Nat) : Bool :=
  Tab.get false k.rowInit (rowKey a row) && Tab.get false k.sticky (accKey a row col)

/-- Write one entry with its sticky bit. -/
def Core.putAcc (k : Core) (a row col : Nat) (x : Word) (st : Bool) : Core :=
  { k with acc := Tab.set 0 k.acc (accKey a row col) x, sticky := Tab.set false k.sticky (accKey a row col) st }

/-- Whole words of the accumulators are written: their poison and flips go (R107, R179). -/
def Core.freshAcc (k : Core) (keys : List Nat) : Core :=
  { k with accPoison := keys.foldl (fun t q => Tab.del t (accWord q)) k.accPoison,
           accFlip := keys.foldl (fun t q => Tab.del t (accWord q)) k.accFlip }

/-- The accumulate combine of a mode (R96): minimum, maximum, or addition. -/
def minMax (max : Bool) (a b : Word) : Word × Flags :=
  let x := val32 a
  let y := val32 b
  if x.isNan || y.isNan then (nan32, fNAN)
  else if (if max then ltVal x y else ltVal y x) then (b, 0) else (a, 0)

/-- Combine an entry with a pass result (R43 to R45, R96): value, sticky bit, flags. -/
def combine (mode : Nat) (int : Bool) (e : Word) (st : Bool) (p : Word) : Word × Bool × Flags :=
  if int then
    match mode with
    | 3 => (if !st && decide (p.toInt < e.toInt) then p else e, st, 0)
    | 4 => (if !st && decide (e.toInt < p.toInt) then p else e, st, 0)
    | _ => accInt e st p.toInt
  else
    match mode with
    | 3 => let r := minMax false e p; (r.1, false, r.2)
    | 4 => let r := minMax true e p; (r.1, false, r.2)
    | _ => let r := add32 e p; (r.1, false, r.2)

/-- Write a pass's 32 results into a row (R108, R110): fresh rows are initialised, others combined. -/
def Core.writeRow (k : Core) (a row mode : Nat) (int init : Bool) (xs : List Word) (fl : Flags) : Core :=
  let rk := rowKey a row
  let fresh := init || !Tab.get false k.rowInit rk || (Tab.get false k.rowFp rk != !int)
  let k := if fresh then k.openTile a row else k
  let r := (List.range 32).foldl (fun (r : Core × Flags) c =>
    let x := nth 0 xs c
    if fresh then (r.1.putAcc a row c x false, r.2)
    else
      let y := combine mode int (Tab.get 0 r.1.acc (accKey a row c)) (Tab.get false r.1.sticky (accKey a row c)) x
      (r.1.putAcc a row c y.1 y.2.1, r.2 ||| y.2.2)) (k, fl)
  let k := { r.1 with rowInit := Tab.set false r.1.rowInit rk true, rowFp := Tab.set false r.1.rowFp rk (!int),
                      rowMode := Tab.set 0 r.1.rowMode rk mode }
  (k.touchTile a row).raiseTile a row r.2

/-- An imported entry (R114): it raises no flag, and a sticky partial makes the entry its limit. -/
def importEntry (mode : Nat) (int : Bool) (e : Word) (st : Bool) (x : Word) (sx : Bool) : Word × Bool :=
  if st then (e, true) else if int ∧ sx then (x, true) else let y := combine mode int e st x; (y.1, y.2.1)

/-- IMPORT of one row: a row not initialised takes the type the descriptor's WFMT gives and the tile as it stands. -/
def Core.importRow (k : Core) (a row : Nat) (intFresh : Bool) (xs : List Word) (sticky : Nat) : Core :=
  let rk := rowKey a row
  let fresh := !Tab.get false k.rowInit rk
  let int := if fresh then intFresh else !Tab.get false k.rowFp rk
  let mode := if fresh then 0 else Tab.get 0 k.rowMode rk
  let k := if fresh then k.openTile a row else k
  let k := (List.range 32).foldl (fun (k : Core) c =>
    let x := nth 0 xs c
    let y := if fresh then (x, int && bitAt sticky c)
      else importEntry mode int (Tab.get 0 k.acc (accKey a row c)) (Tab.get false k.sticky (accKey a row c)) x (bitAt sticky c)
    k.putAcc a row c y.1 y.2) k
  let k := { k with rowInit := Tab.set false k.rowInit rk true, rowFp := Tab.set false k.rowFp rk (!int),
                    rowMode := Tab.set 0 k.rowMode rk mode }
  k.touchTile a row

/-- Write one MVP entry (R124, R130): the first block of an accumulation initialises it. -/
def Core.writeMv (k : Core) (v n : Nat) (int init : Bool) (x : Word) : Core :=
  let q := mvKey v n
  let fresh := init || !Tab.get false k.mvInit q || (Tab.get false k.mvFp q != !int)
  let y := if fresh then (x, false, 0)
    else combine 0 int (Tab.get 0 k.mvAcc q) (Tab.get false k.mvSticky q) x
  { k with mvAcc := Tab.set 0 k.mvAcc q y.1, mvSticky := Tab.set false k.mvSticky q y.2.1,
           mvInit := Tab.set false k.mvInit q true, mvFp := Tab.set false k.mvFp q (!int),
           mvFlags := k.mvFlags ||| y.2.2 }

/-- The MVP entry as a read-out finds it. -/
def Core.mvEntry (k : Core) (v n : Nat) : Word :=
  if Tab.get false k.mvInit (mvKey v n) then Tab.get 0 k.mvAcc (mvKey v n) else 0

/-! ### Narrowing rows of results -/

/-- One value of a REQUANT read-out: the result and its flags (R69). -/
def requantOne (x : Word) (rec : ReqRec) (ofmt : Nat) : Int × Flags :=
  let t := if ofmt = 0xF then ReqTgt.int32 else if ofmt = 1 then .int4 else .int8
  let r := requant x.toInt rec t
  (r.1, flagIf r.2 fCLIP)

/-- Bits of a REQUANT target. -/
def requantBits (ofmt : Nat) : Nat := if ofmt = 0xF then 32 else if ofmt = 1 then 4 else 8

/-- The encodings of one read-out row (REQUANT or NARROW), with bits per element and the flags of each. -/
def narrowRow (kind ofmt : Nat) (os : Word) (recs : List ReqRec) (xs : List Word) : Nat × List (Nat × Flags) :=
  if kind = 1 then
    (requantBits ofmt, (xs.zip recs).map (fun x =>
      let r := requantOne x.1 x.2 ofmt; (encInt (requantBits ofmt) r.1, r.2)))
  else
    let f := fmtD ofmt
    (f.bits, xs.map (fun x => narrowScaled f x os))

end Sys2Proof.Machine
end

