-- ==== Sys2Proof/Machine/Vector.lean ====
section
/-!
DEFINITION. The arithmetic of the vector unit: lane operations of Table 5-5, reductions (R136), ARGMAX and TOPK (R137,
R138), curves (R141 to R144).
-/
namespace Sys2Proof.Machine

/-- A lane operation with its flags over 64 lanes. -/
def lanes1 (f : Word → Word × Flags) (a : Lanes) : Lanes × Flags :=
  let r := a.map f
  (r.map (·.1), orFlags (r.toList.map (·.2)))
def lanes2 (f : Word → Word → Word × Flags) (a b : Lanes) : Lanes × Flags :=
  let r := a.zipWith f b
  (r.map (·.1), orFlags (r.toList.map (·.2)))

/-- The FP32 word with its sign inverted. -/
def neg32 (x : Word) : Word := x ^^^ 0x80000000
/-- FP32 subtraction (R45). -/
def sub32 (a b : Word) : Word × Flags := add32 a (neg32 b)
/-- All ones for true (FCMPLT). -/
def maskW (b : Bool) : Word := if b then BitVec.allOnes 32 else 0

/-- A float compare: a NaN gives 0 and sets NAN. -/
def fcmp (p : FVal → FVal → Bool) (a b : Word) : Word × Flags :=
  let x := val32 a
  let y := val32 b
  if x.isNan || y.isNan then (0, fNAN) else (maskW (p x y), 0)

/-- a × 2^b rounded once (FSCALB); |b| above 400 overflows or underflows as 400 does. -/
def fscalb (a b : Word) : Word × Flags :=
  let x := val32 a
  match x with
  | .fin n m e => round32 n m (e + (clampInt (-400) 400 b.toInt).1)
  | v => ((to32 v).1, operandFlags v)

/-- The two-operand lane operations of Table 5-5. -/
def laneBin (f : VBin) (a b : Word) : Word × Flags :=
  match f with
  | .fadd => add32 a b
  | .fsub => sub32 a b
  | .fmul => mul32 a b
  | .fmin => minMax false a b
  | .fmax => minMax true a b
  | .fcmplt => fcmp ltVal a b
  | .fcmple => fcmp (fun x y => !ltVal y x) a b
  | .fcmpeq => fcmp eqVal a b
  | .iadd => satI32 (a.toInt + b.toInt)
  | .isub => satI32 (a.toInt - b.toInt)
  | .imul => satI32 (a.toInt * b.toInt)
  | .imin => (if b.toInt < a.toInt then b else a, 0)
  | .imax => (if a.toInt < b.toInt then b else a, 0)
  | .icmplt => (maskW (decide (a.toInt < b.toInt)), 0)
  | .icmpeq => (maskW (a == b), 0)
  | .and => (a &&& b, 0)
  | .or => (a ||| b, 0)
  | .xor => (a ^^^ b, 0)
  | .fscalb => fscalb a b

/-- Smallest e with |a| ≤ 2^e (FCEXP). -/
def fcexp (a : Word) : Word × Flags :=
  match val32 a with
  | .nan => (0, fNAN)
  | .inf _ => (128, fINF)
  | .fin _ m e =>
    if m = 0 then (0x80000000, 0)
    else
      let l := Nat.log2 m
      (BitVec.ofInt 32 (e + (l : Int) + (if m = 2 ^ l then 0 else 1)), 0)

/-- A NaN gives the canonical NaN and NAN, any other word goes through g (FABS, FNEG). -/
def signOp (g : Word → Word) (a : Word) : Word × Flags := if (val32 a).isNan then (nan32, fNAN) else (g a, 0)

/-- FMAD: two roundings (R46, then R45). -/
def fmadLane (a b x : Word) : Word × Flags :=
  let p := mul32 a b
  let r := add32 p.1 x
  (r.1, p.2 ||| r.2)

/-- One level of the pairwise tree. -/
def treeLevel (f : Word → Word → Word × Flags) : List Word → List Word × Flags
  | a :: b :: r =>
    let x := f a b
    let y := treeLevel f r
    (x.1 :: y.1, x.2 ||| y.2)
  | xs => (xs, 0)

/-- n levels of the tree (R136); the head is the result. -/
def tree (f : Word → Word → Word × Flags) : Nat → List Word → Word × Flags
  | 0, xs => (nth 0 xs 0, 0)
  | n + 1, xs =>
    let x := treeLevel f xs
    let y := tree f n x.1
    (y.1, x.2 ||| y.2)

/-- A value in lane 0 and +0 elsewhere (R136). -/
def lane0 (x : Word) : Lanes := Vector.ofFn (fun i : Fin 64 => if i.val = 0 then x else 0)

/-- One-operand operations of Table 5-5. -/
def vecUn (f : VUn) (a : Lanes) : Lanes × Flags :=
  match f with
  | .fabs => lanes1 (signOp (· &&& 0x7FFFFFFF)) a
  | .fneg => lanes1 (signOp neg32) a
  | .cvtif => lanes1 (fun x => (cvtIF x, 0)) a
  | .cvtfi => lanes1 cvtFI a
  | .fcexp => lanes1 fcexp a
  | .frsum => let r := tree add32 6 a.toList; (lane0 r.1, r.2)
  | .frmax => let r := tree (minMax true) 6 a.toList; (lane0 r.1, r.2)
  | .irsum => let r := satI32 (a.toList.map (·.toInt)).sum; (lane0 r.1, r.2)

/-! ### ARGMAX and TOPK -/

/-- Whether a is below b: as signed INT32, or as FP32. −0 is below +0, as R135 has it for FMIN and FMAX; whether ARGMAX and TOPK take
the two as equal is not said (DESIGN CHOICE; R137, R138, assumption log 59). -/
def below (int : Bool) (a b : Word) : Bool := if int then decide (a.toInt < b.toInt) else ltVal (val32 a) (val32 b)

/-- The candidates of a lane window: value and index, NaNs left out, and whether one was (R137, R138). -/
def candidates (int : Bool) (a : Lanes) (idx : Nat → Word) (f n : Nat) : List (Word × Word) × Flags :=
  let xs := (List.range n).map (fun j => (nth 0 a.toList (f + j), idx j))
  let bad := fun (x : Word × Word) => !int && (val32 x.1).isNan
  (xs.filter (fun x => !bad x), flagIf (xs.any bad) fNAN)

/-- ARGMAX (R137): lanes 0 and 1 of d hold the running best. -/
def argmax (int : Bool) (d : Lanes) (cs : List (Word × Word)) : Lanes :=
  let r := cs.foldl (fun (b : Word × Word) x => if below int b.1 x.1 then x else b) (nth 0 d.toList 0, nth 0 d.toList 1)
  Vector.ofFn (fun i : Fin 64 => if i.val = 0 then r.1 else if i.val = 1 then r.2 else d[i.val])

/-- The order of a running list (R138): by value, ascending or descending, then by ascending index. -/
def before (int desc : Bool) (x y : Word × Word) : Bool :=
  let lt := if desc then below int y.1 x.1 else below int x.1 y.1
  let gt := if desc then below int x.1 y.1 else below int y.1 x.1
  lt || (!gt && decide (x.2.toInt < y.2.toInt))

/-- Insert in order, after equal entries. -/
def insertBy (lt : Word × Word → Word × Word → Bool) (x : Word × Word) : List (Word × Word) → List (Word × Word)
  | [] => [x]
  | y :: r => if lt x y then x :: y :: r else y :: insertBy lt x r

/-- TOPK (R138): the 64 best of the list in d, d + 1 and the candidates, in order. -/
def topk (int desc : Bool) (vals idxs : Lanes) (cs : List (Word × Word)) : Lanes × Lanes :=
  let all := (vals.toList.zip idxs.toList ++ cs).foldl (fun l x => insertBy (before int desc) x l) []
  (Vector.ofFn (fun i : Fin 64 => (nth (0, 0) all i.val).1), Vector.ofFn (fun i : Fin 64 => (nth (0, 0) all i.val).2))

/-! ### Curves -/

/-- An FP32 value of a record (Table 5-6). -/
def curveWord (bs : List Byte) (o : Nat) : Word := BitVec.ofNat 32 (leAt bs o 4)

/-- A free coefficient made finite: curve values are finite (R145). -/
def finite32 (x : Word) : Word := match val32 x with | .fin _ _ _ => x | _ => 0

/-- MODE, LO, HI, SLO, BLO, SHI, BHI, INV_W of the default curves (Table 5-8). -/
def defaultHeader (c : Nat) : List Nat :=
  match c with
  | 0 => [1, 0, 0x3F800000, 0, 0, 0, 0, 0x42800000]
  | 1 => [2, 0x3F800000, 0x40000000, 0, 0, 0, 0, 0x42800000]
  | 2 => [3, 0x3F800000, 0x40000000, 0, 0, 0, 0, 0x42800000]
  | 3 => [4, 0x3F800000, 0x40800000, 0, 0, 0, 0, 0x41AAAAAB]
  | 4 => [0, 0xC1800000, 0x41800000, 0, 0, 0, 0x3F800000, 0x40000000]
  | 5 => [0, 0xC1100000, 0x41100000, 0, 0xBF800000, 0, 0x3F800000, 0x40638E39]
  | 6 => [0, 0xC1000000, 0x41000000, 0, 0, 0x3F800000, 0, 0x40800000]
  | _ => [0, 0xC0800000, 0x40800000, 0, 0xBF800000, 0, 0x3F800000, 0x41000000]

/-- The record of default curve c (R144). -/
def defaultCurve (c : Nat) : List Byte :=
  (defaultHeader c).flatMap (leBytes 4) ++ leBytes 4 (finite32 (Config.curveErr c)).toNat ++ List.replicate 28 0 ++
    (List.range 256).flatMap (fun j =>
      leBytes 4 (if c = 0 ∧ j = 0 then one32 else finite32 (Config.curveCoeff c (j / 4) (j % 4))).toNat)

/-- The active record of a curve, of a step's tables (R26, R144). -/
def curveBytes (t : Tables) (n : Fin 32) : List Byte := if n.val < 8 then defaultCurve n.val else t.curves[n.val].bytes

/-- Floor of a finite value. -/
def floorVal (n : Bool) (m : Nat) (e : Int) : Int :=
  if 0 ≤ e then atExp n m e 0
  else
    let k := (-e).toNat
    if n then -(((m + (2 ^ k - 1)) / 2 ^ k : Nat) : Int) else ((m / 2 ^ k : Nat) : Int)

/-- Floor of an FP32 word; 0 for an infinity or a NaN. -/
def floor32 (x : Word) : Int := match val32 x with | .fin n m e => floorVal n m e | _ => 0

/-- A small integer as FP32. -/
def int32f (i : Int) : Word := (to32 (ofInt i)).1

/-- The segment polynomial of R142. -/
def poly (h : List Byte) (v : Word) : Word × Flags :=
  let a := sub32 v (curveWord h 4)
  let t := mul32 a.1 (curveWord h 28)
  let i := (min (max (floor32 t.1) 0) 63).toNat
  let u := sub32 t.1 (int32f i)
  let c := fun j => curveWord h (64 + 16 * i + 4 * j)
  let p1 := mul32 (c 3) u.1
  let p2 := add32 p1.1 (c 2)
  let p3 := mul32 p2.1 u.1
  let p4 := add32 p3.1 (c 1)
  let p5 := mul32 p4.1 u.1
  let p6 := add32 p5.1 (c 0)
  (p6.1, orFlags [a.2, t.2, u.2, p1.2, p2.2, p3.2, p4.2, p5.2, p6.2])

/-- The line outside the domain (R142). -/
def side (sl b x : Word) : Word × Flags :=
  if (val32 sl).isZero then (b, 0)
  else
    let p := mul32 sl x
    let r := add32 p.1 b
    (r.1, p.2 ||| r.2)

/-- A poly value scaled by 2^k exactly and rounded once. -/
def scale2 (neg : Bool) (p : Word × Flags) (k : Int) : Word × Flags :=
  match val32 p.1 with
  | .fin n m e => let r := round32 (n != neg) m (e + k); (r.1, p.2 ||| r.2)
  | v => ((to32 v).1, p.2)

/-- Numeric order, with the zeros equal. -/
def ltNum (x y : FVal) : Bool := ltVal x y && !eqVal x y

/-- The reduction modes for a finite non-zero value (R142); EXP2 also takes zero. -/
def curveReduce (h : List Byte) (mode : Nat) (n : Bool) (m : Nat) (e : Int) : Word × Flags :=
  let l := Nat.log2 m
  let x := e + (l : Int)
  match mode with
  | 1 =>
    let f := floorVal n m e
    let d := addFin n m e (decide (0 < f)) f.natAbs 0
    scale2 false (poly h (to32 d).1) f
  | 2 =>
    let p := poly h (round32 false m (-(l : Int))).1
    let r := add32 (int32f x) p.1
    (r.1, p.2 ||| r.2)
  | 3 => scale2 n (poly h (round32 false m (-(l : Int))).1) (-x)
  | _ =>
    let odd := x % 2
    scale2 false (poly h (round32 false m (odd - (l : Int))).1) (-((x - odd) / 2))

/-- Special inputs of the reduction modes (Table 5-7). -/
def curveSpecial (mode : Nat) (v : FVal) : Option (Word × Flags) :=
  match v with
  | .nan => some (nan32, fNAN)
  | .inf n =>
    match mode, n with
    | 1, false => some (inf32 false, fINF)
    | 1, true => some (0, fINF)
    | 2, false => some (inf32 false, fINF)
    | 3, n => some (fp32Word n 0, fINF)
    | 4, false => some (0, fINF)
    | _, _ => some (nan32, fNAN ||| fINF)
  | .fin n m _ =>
    match mode with
    | 1 =>
      if !ltVal v (.fin false 128 0) then some (fmax32 false, fSAT)
      else if ltVal v (.fin true 150 0) then some (0, 0) else none
    | 2 => if m = 0 then some (fmax32 true, fSAT) else if n then some (nan32, fNAN) else none
    | 3 => if m = 0 then some (fmax32 n, fSAT) else none
    | _ => if m = 0 then some (fmax32 n, fSAT) else if n then some (nan32, fNAN) else none

/-- CURVE on one lane (R142). -/
def curveLane (h : List Byte) (x : Word) : Word × Flags :=
  let v := val32 x
  let mode := leAt h 0 1
  if v.isNan then (nan32, fNAN)
  else if mode = 0 then
    if ltNum v (val32 (curveWord h 4)) then side (curveWord h 12) (curveWord h 16) x
    else if !ltNum v (val32 (curveWord h 8)) then side (curveWord h 20) (curveWord h 24) x
    else poly h x
  else match curveSpecial mode v with
    | some r => r
    | none => match v with
      | .fin n m e => curveReduce h mode n m e
      | _ => (nan32, fNAN)

end Sys2Proof.Machine
end

