-- ==== Sys2Proof/Machine/Sequencer.lean ====
section
/-!
DEFINITION. The sequencer and the scalar slot of a core: loops and increments (R191 to R194, R217), calls (R196 to R198),
scalar operations (R185, R215, R216), what is in flight (R134, R200).
-/
namespace Sys2Proof.Machine

/-! ### In flight -/

/-- The flight writes no scalar register d any more: a later write to d stands. -/
def VecFlight.dropS (f : VecFlight) (d : SReg) : VecFlight :=
  match f.eff with
  | .scalar e _ => if e = d then { f with eff := .regs [] } else f
  | _ => f

/-- Write a scalar register at issue, over a VEXT that has not landed. -/
def Core.issueS (k : Core) (d : SReg) (x : DWord) : Core :=
  ({ k with vecQ := k.vecQ.map (fun (f : VecFlight) => f.dropS d) }).setS d x

/-- Whether a VEXT issued earlier has still to write a scalar register. -/
def Core.pendingS (k : Core) (i : SReg) : Bool :=
  k.vecQ.any (fun f => match f.eff with | .scalar d _ => decide (d = i ∧ i.val ≠ 0) | _ => false)

/-- Vector registers a TO_VEC read-out of n rows writes, from VD, wrapping past v31. -/
def toVecRegs (vd n : Nat) : List Nat := (List.range ((n + 1) / 2)).map (fun k => (vd + k) % 32)
/-- Vector registers an MVP read-out writes (R132). Registers past v31, which only an MVREAD whose sN exceeds the template's N can
reach, wrap to v0 (DESIGN CHOICE; assumption log 58). -/
def mvRegs (p : MvPlan) (v n : Nat) : List Nat :=
  if p.toNs ∨ p.kind = 0 then [] else (List.range (v * ceilDiv n 64)).map (fun k => (p.vd + k) % 32)

/-- The writes of vector registers in flight: issue number and registers (R134). -/
def Core.vecWrites (k : Core) : List (Nat × List Nat) :=
  k.vecQ.map (fun f => (f.seq, match f.eff with | .regs ws => ws.map (fun w => w.1.val) | _ => [])) ++
  k.tapQ.map (fun f => (f.seq, match f.kind with | .tap v _ _ _ _ _ _ _ _ _ => [v.val] | _ => [])) ++
  k.readQ.map (fun f => (f.seq, if f.plan.kind = 4 then toVecRegs f.plan.vd f.count else [])) ++
  k.passQ.map (fun f => (f.seq, match f.plan with
    | some p => if p.kind = 4 then toVecRegs p.vd f.m else [] | none => [])) ++
  k.mvQ.map (fun f => (f.seq, match f.plan with | some p => mvRegs p f.v f.n | none => []))

/-- Whether an earlier-issued write to a vector register is in flight. -/
def Core.pendingV (k : Core) (i : Nat) : Bool := k.vecWrites.any (fun w => decide (i ∈ w.2))
/-- Whether a write issued before `seq` to one of some registers is in flight: a later one is held (R134). -/
def Core.olderV (k : Core) (seq : Nat) (rs : List Nat) : Bool :=
  k.vecWrites.any (fun w => decide (w.1 < seq) && w.2.any (fun i => decide (i ∈ rs)))

/-- Whether a DMA command has a deep-scratch side that it writes. -/
def DmaFlight.writesDeep (f : DmaFlight) : Bool :=
  if ddNonear f.dd then !ddOut f.dd else ddOut f.dd && decide (ddFar f.dd = 0)

/-- Every deep-scratch write issued before `seq` has landed (R173, R202). -/
def Core.deepLanded (k : Core) (seq : Nat) : Bool :=
  k.deepW.all (fun w => decide (seq ≤ w.seq)) &&
  k.dma.toList.all (fun d => d.q.all (fun f => decide (seq ≤ f.seq) || !f.writesDeep))

/-- Condition b of WAIT (R200). -/
def Core.waitBit (k : Core) (b : Nat) : Bool :=
  match b with
  | 0 => k.passQ.isEmpty && k.readQ.isEmpty
  | 1 => k.agbQ.isEmpty
  | 2 => k.mvQ.isEmpty
  | 3 => k.vecQ.all (fun f => match f.eff with | .store _ _ _ => false | _ => true)
  | 12 => k.deepLanded (k.seq + 1)
  | 13 => k.tapQ.isEmpty
  | n => match k.dma.toList[n - 4]? with | some d => d.q.isEmpty | none => true

/-- Every condition that a mask selects holds. -/
def Core.waitDone (k : Core) (mask : BitVec 14) : Bool :=
  (List.range 14).all (fun b => !mask.getLsbD b || k.waitBit b)

/-! ### Loops (R191) -/

/-- Change the address registers bound to a level. -/
def Core.mapBound (k : Core) (lv : Nat) (f : Nat → Word → Word) : Core :=
  { k with a := Vector.ofFn (fun i : Fin 16 =>
      if (k.abind[i.val]).getLsbD lv then f i.val k.a[i.val] else k.a[i.val]) }

def Core.setLc (k : Core) (lv : Nat) (x : Word) : Core :=
  { k with lc := if h : lv < 4 then k.lc.set lv x h else k.lc }

/-- Leave the innermost loop: bound registers restored, its count 0 (R191, R194). -/
def Core.leaveLoop (k : Core) (r : LoopRec) (rest : List LoopRec) : Core :=
  let lv := rest.length
  let k := k.mapBound lv (fun i x => Tab.get x r.snap i)
  { k.setLc lv 0 with loops := rest }

/-- End tests after the bundle at b, innermost level first; `loops` holds the innermost loop first. -/
def Core.endTest : Nat → Nat → Core → Core
  | 0, b, k => { k with pc := b + 1 }
  | n + 1, b, k =>
    match k.loops with
    | [] => { k with pc := b + 1 }
    | r :: rest =>
      if r.last ≠ b then { k with pc := b + 1 }
      else
        let lv := rest.length
        let l := (k.lc.toList.getD lv 0).toNat + 1
        if l < r.cnt then
          let k := (k.setLc lv (BitVec.ofNat 32 l)).mapBound lv (fun i x =>
            x + ((k.ainc.toList.getD (4 * i + lv) 0).setWidth 32))
          { k with pc := r.first }
        else Core.endTest n b (k.leaveLoop r rest)

/-- Fetched-ahead bundles stay only where control goes on in sequence (R206). -/
def Core.refetch (k : Core) (pc0 : Nat) : Core := if k.pc = pc0 + 1 then k else { k with fetched := [] }

/-- After an ordinary bundle. -/
def Core.advance (k : Core) : Core := (Core.endTest 5 k.pc k).refetch k.pc

/-- Issue of LOOP with count n and END e; the snapshot is taken after the bundle's own SCL writes (DEDUCED, assumption log 16). -/
def Core.openLoop (k : Core) (n e : Nat) : Core :=
  if n = 0 then (Core.endTest 5 (k.pc + e) k).refetch k.pc
  else
    let lv := k.loops.length
    let snap := ((List.range 16).filter (fun i => (k.abind.toList.getD i 0).getLsbD lv)).map (fun i =>
      (i, BitVec.ofNat 32 (k.areg i)))
    { k.setLc lv 0 with loops := ⟨n, k.pc + 1, k.pc + e, snap⟩ :: k.loops, pc := k.pc + 1 }

/-- EXITN taken (R194). -/
def Core.exitLoop (k : Core) : Core :=
  match k.loops with
  | [] => k.advance
  | r :: rest => (Core.endTest 5 r.last (k.leaveLoop r rest)).refetch k.pc

/-- Skip the next n bundles (R193). -/
def Core.skip (k : Core) (n : Nat) : Core := { k with pc := k.pc + 1 + n, fetched := [] }

/-! ### Calls (R197) -/

/-- Write descriptor records into a bank: AINC and ABIND where they are named. -/
def Core.loadRecs (k : Core) (rs : List DescRec) : Core :=
  rs.foldl (fun (k : Core) r =>
    { k with ainc := if h : 0x30 ≤ r.index ∧ r.index < 0x70 then k.ainc.set (r.index - 0x30) r.value (by omega) else k.ainc,
             abind := if h : 0x70 ≤ r.index ∧ r.index < 0x80 then k.abind.set (r.index - 0x70) r.value (by omega) else k.abind }) k

/-- Enter a routine: what CALL saves, the narrowed window, bank 1. -/
def Core.enter (k : Core) (r : RoutineRec) (off len : Nat) (rs : List DescRec) (ds : List TensorDecl) : Core :=
  let k := k.advance
  let f : Frame := { pc := k.pc, codeLen := k.codeLen, win := k.win, loops := k.loops, lc := k.lc, a := k.a, ainc := k.ainc,
                     abind := k.abind }
  let k := { k with frame := some f, pc := 0, codeLen := r.bundles,
                    codeBase := 32 * r.storeOff, win := ⟨k.win.nsb + off, len⟩, loops := [],
                    lc := Vector.replicate 4 0, ainc := Vector.replicate 64 0, abind := Vector.replicate 16 0, bank1 := bankOf rs, books1 := booksOf rs ds,
                    fetched := [], timed := true }
  k.loadRecs rs

/-- RET: everything CALL saved, and bank 0 (R197). -/
def Core.leave (k : Core) (f : Frame) : Core :=
  { k with frame := none, pc := f.pc, codeLen := f.codeLen, codeBase := 0, win := f.win, loops := f.loops, lc := f.lc, a := f.a,
           ainc := f.ainc, abind := f.abind, fetched := [], timed := true }

/-! ### The scalar slot (Table 8-18) -/

/-- The three-register operations. -/
def scalarBin (f : SBin) (x y : DWord) : DWord :=
  let n := y.toNat % 64
  match f with
  | .add => x + y
  | .sub => x - y
  | .mul => x * y
  | .and => x &&& y
  | .or => x ||| y
  | .xor => x ^^^ y
  | .min => if y.toInt < x.toInt then y else x
  | .max => if x.toInt < y.toInt then y else x
  | .slt => if x.toInt < y.toInt then 1 else 0
  | .shl => x <<< n
  | .shr => x >>> n
  | .sra => x.sshiftRight n

/-- An SCL operation: reads from the bundle's registers k0, writes into k (R188). -/
def scalarAct (k0 : Core) (o : SclOp) (k : Core) : Core :=
  match o with
  | .bin f d a b => k.issueS d (scalarBin f (k0.sreg a) (k0.sreg b))
  | .addi d a imm => k.issueS d (k0.sreg a + imm.signExtend 64)
  | .ori d a imm => k.issueS d (k0.sreg a ||| imm.zeroExtend 64)
  | .shli d a imm => k.issueS d (k0.sreg a <<< (imm.toNat % 64))
  | .shri d a imm => k.issueS d (k0.sreg a >>> (imm.toNat % 64))
  | .movi d imm => k.issueS d (imm.signExtend 64)
  | .amov d s => k.setA d ((k0.sreg s).setWidth 32)
  | .aadd d a s => k.setA d (k0.a[a.val] + (k0.sreg s).setWidth 32)
  | .amovi d imm => k.setA d (imm.zeroExtend 32)
  | .smova d a => k.issueS d ((k0.a[a.val]).zeroExtend 64)
  | .rdlc d l => k.issueS d ((k0.lc[l.val]).zeroExtend 64)
  | .setzp s => { k with zp := (k0.sreg s).setWidth 8 }
  | .setos s => { k with os := (k0.sreg s).setWidth 32 }
  | .setinc n l s => { k with ainc := k.ainc.set (4 * n.val + l.val) ((k0.sreg s).setWidth 32 |>.zeroExtend 64) (by omega) }
  | .setbind n m => { k with abind := k.abind.set n.val (m.zeroExtend 64) n.isLt }

end Sys2Proof.Machine
end

