-- ==== Sys2Proof/Machine/CoreOps.lean ====
section
/-!
DEFINITION. What the units of a core share: uncorrectable words met by a step (R179, R386), near-scratch writes that land
(R163, R167, R168), the order of accesses of different units (R163), the step a core runs.
-/
namespace Sys2Proof.Machine

/-- The pair whose lead or checker a core is, while it has both. -/
def State.pairOf (s : State) (c : CoreId) : Option (Fin 2) :=
  if c.val < 5 then (List.finRange 2).find? (fun i =>
    let x := s.fault.pairs[i.val]
    x.checker.isSome && x.lead.isSome && (decide (x.lead = some (indexOf c)) || decide (x.checker = some (indexOf c))))
  else none

/-- A step's unit meets an uncorrectable word of a memory that its core shares (R179): counted and logged, the step ends with 0x04
and the region. -/
def State.eccFail (s : State) (c : CoreId) (region loc : Nat) : State :=
  (s.eccUncorrectable region loc none (if region = 3 then c.val / 5 else 0)).failCore c 0x04 region

/-- The members of a pair, or the core alone, that see an uncorrectable word in a memory of their own. -/
def State.seenBy (s : State) (c : CoreId) (look : Core → Option Nat) : List (CoreId × Nat) :=
  (s.members c).filterMap (fun d => (look (s.member c d)).map (fun w => (d, w)))

/-- Words of a memory that a core has of its own are seen uncorrectable, each by the member named (R179, R386): counted and logged.
Seen by one member of a pair only it is a mismatch; by both, or by a core that has no partner, the step ends with 0x04. -/
def State.ownFail (s : State) (c : CoreId) (region : Nat) (loc : CoreId → Nat → Nat) (bad : List (CoreId × Nat)) : State :=
  let s := bad.foldl (fun s x => s.eccUncorrectable region (loc x.1 x.2) (some x.1) 0) s
  match s.pairOf c with
  | some i => if bad.any (fun x => decide (x.1 = c)) && bad.any (fun x => decide (x.1 ≠ c)) then s.failCore c 0x04 region else s.mismatch i
  | none => s.failCore c 0x04 region

/-- Run what reads such a memory: a word seen uncorrectable ends it instead. -/
def State.withOwn (s : State) (c : CoreId) (region : Nat) (loc : CoreId → Nat → Nat) (look : Core → Option Nat)
    (f : State → State) : State :=
  match s.seenBy c look with
  | [] => f s
  | bad => s.ownFail c region loc bad

/-- LAST_UE_LOC of near-scratch word w, of a deep-scratch word, of an accumulator word (Table 7-8). -/
def nearLoc (c : CoreId) (w : Nat) : Nat := ueLoc (8 * w) (some c) 0 0
def State.deepLoc (s : State) (w : Nat) : Nat := ueLoc (8 * w) none (s.build.sliceOf (8 * w)) 0
def accLoc (c : CoreId) (w : Nat) : Nat :=
  if w < 4 * 8192 then ueLoc (8 * (w % 8192)) (some c) 0 (w / 8192) else ueLoc (8 * (w - 4 * 8192)) (some c) 0 7

/-- The flipped words that near-scratch reads meet are corrected, written back and counted (R179), in each member of a pair (R386). -/
def State.fixNear (s : State) (c : CoreId) (spans : List Span) : State :=
  (s.members c).foldl (fun s d => match (s.member c d).nearFlips spans with
    | [] => s
    | ws => (s.modCore d (fun k => { k with nearFlip := unmark k.nearFlip ws })).eccFixed 0 ws.length) s

/-- The flipped words of accumulator entries that an operation reads are corrected, written back and counted (R107, R130). -/
def State.fixAcc (s : State) (c : CoreId) (keys : List Nat) : State :=
  (s.members c).foldl (fun s d =>
    match ((s.core d).accFlip.filter (fun p => p.2 && keys.any (fun q => decide (accWord q = p.1)))).map (·.1) with
    | [] => s
    | ws => (s.modCore d (fun k => { k with accFlip := unmark k.accFlip ws })).eccFixed 4 ws.length) s

/-- Run an access whose near-scratch reads are given: a poisoned word ends the step instead. -/
def State.withNear (s : State) (c : CoreId) (spans : List Span) (f : State → State) : State :=
  s.withOwn c 0 nearLoc (fun k => spans.findSome? (fun sp => k.nearPoisonIn sp)) (fun s => f (s.fixNear c spans))

/-- The same for accumulator words, by entry keys. -/
def State.withAcc (s : State) (c : CoreId) (keys : List Nat) (f : State → State) : State :=
  s.withOwn c 4 accLoc (fun k => (keys.find? (fun q => Tab.get false k.accPoison (accWord q))).map accWord)
    (fun s => f (s.fixAcc c keys))

/-- A checker that holds error marks on accumulator words which its lead writes whole loses them too (R107, R385). -/
def State.freshChecker (s : State) (c : CoreId) (keys : List Nat) : State :=
  match s.checkerOf c with
  | none => s
  | some d => if (s.core d).accPoison = [] ∧ (s.core d).accFlip = [] then s else s.modCore d (fun k => k.freshAcc keys)

/-- The same for local deep-scratch ranges. -/
def State.withDeep (s : State) (c : CoreId) (rs : List (Nat × Nat)) (f : State → State) : State :=
  match rs.findSome? (fun r => s.deepPoisonIn r.1 r.2) with
  | some w => s.eccFail c 1 (s.deepLoc w)
  | none => f (s.fixDeep rs)

/-- The same near-scratch write in a checker that holds error marks: full words lose theirs, merges into poisoned words are
refused; the refused words. -/
def State.nearPutChecker (s : State) (c : CoreId) (off : Nat) (bs : List Byte) : State × List (CoreId × Nat) :=
  match s.checkerOf c with
  | none => (s, [])
  | some d =>
    if (s.core d).nearPoison = [] ∧ (s.core d).nearFlip = [] then (s, [])
    else
      let k := s.member c d
      let r := k.nearWrite off bs
      ((s.modCore d (fun k => { k with nearPoison := r.1.nearPoison, nearFlip := r.1.nearFlip })).eccFixed 0 (k.nearMerges off bs),
        r.2.map (fun w => (d, w)))

/-- A near-scratch write lands: slots open, poisoned words are refused (R167, R179). -/
def State.nearPut (s : State) (c : CoreId) (off : Nat) (bs : List Byte) : State :=
  let y := s.nearPutChecker c off bs
  let r := (s.core c).nearWrite off bs
  let s := (y.1.modCore c (fun _ => r.1)).eccFixed 0 ((s.core c).nearMerges off bs)
  match r.2.map (fun w => (c, w)) ++ y.2 with
  | [] => s
  | bad =>
    ({ s with scrub := { s.scrub with refused := modRegion s.scrub.refused 0 (· + BitVec.ofNat 64 bad.length) } }).ownFail
      c 0 nearLoc bad

/-- A list of writes with their tag action: the tags of SET are set when the last byte has landed (R168). -/
def State.nearPuts (s : State) (c : CoreId) (ws : List (Nat × List Byte)) (set : Bool) : State :=
  let s := ws.foldl (fun s w => s.nearPut c w.1 w.2) s
  if set then s.modCore c (fun k => ws.foldl (fun k w => k.setTags (w.1, w.2.length)) k) else s

/-! ### Order of near-scratch accesses (R163) -/

/-- Whether two spans share a slot. -/
def shareSlot (a b : Span) : Bool :=
  decide (0 < a.2) && decide (0 < b.2) && decide (a.1 / 1024 ≤ (b.1 + b.2 - 1) / 1024) &&
    decide (b.1 / 1024 ≤ (a.1 + a.2 - 1) / 1024)

/-- Reads issued in a bundle up to `seq` that have not taken their data. -/
def Core.openReads (k : Core) (seq : Nat) : List Span :=
  (k.passQ.filter (fun f => decide (f.seq ≤ seq))).flatMap (·.reads) ++
  (k.agbQ.filter (fun f => decide (f.seq ≤ seq))).flatMap (·.reads) ++
  (k.tapQ.filter (fun f => decide (f.seq ≤ seq))).flatMap (·.reads) ++
  (k.mvQ.filter (fun f => decide (f.seq ≤ seq))).flatMap (·.reads) ++
  k.dma.toList.flatMap (fun d => (d.q.filter (fun f => decide (f.seq ≤ seq))).flatMap (·.reads))

/-- Whether two spans share a byte. -/
def shareByte (a b : Span) : Bool := decide (a.1 < b.1 + b.2) && decide (b.1 < a.1 + a.2)

/-- Write-after-read: a write waits until every read of its slots issued earlier has taken its data (R163, R157). -/
def Core.warFree (k : Core) (seq : Nat) (ws : List Span) : Bool :=
  let rs := k.openReads seq
  ws.all (fun w => rs.all (fun r => !shareSlot w r))

/-- Whether writes with a tag action may begin (R163, R168). -/
def Core.mayWrite (k : Core) (seq : Nat) (ws : List (Nat × List Byte)) (set : Bool) : Bool :=
  let sp := ws.map (fun w => (w.1, w.2.length))
  k.warFree seq sp && (!set || sp.all k.setReady)

/-! ### Reads and writes with tags, slot by slot (R168) -/

/-- A span cut at slot boundaries. -/
def slotSpans (sp : Span) : List Span :=
  (slotsOf sp).map (fun n => (max sp.1 (n * 1024), min (sp.1 + sp.2) (n * 1024 + 1024) - max sp.1 (n * 1024)))

/-- A tagged read of some spans before its first access; a FREE read takes its data where it lands. -/
def Feed.start (tag : ReadTag) (sps : List Span) : Feed :=
  match tag with
  | .free => ⟨[], [], []⟩
  | _ => ⟨sps.flatMap slotSpans, [], []⟩

/-- The accesses a tagged read can make now, in order, and those after the first that waits: an access waits for the full tag
of a slot that the read has not entered. -/
def feedSplit (full : Nat → Bool) : List Nat → List Span → List Span × List Span
  | _, [] => ([], [])
  | ent, sp :: r =>
    if sp.1 / 1024 ∈ ent ∨ full (sp.1 / 1024) = true then
      let y := feedSplit full (sp.1 / 1024 :: ent) r
      (sp :: y.1, y.2)
    else ([], sp :: r)

/-- What a read still waits for. -/
def Core.feedRest (k : Core) (fd : Feed) : List Span := (feedSplit k.slotFull fd.ent fd.todo).2

/-- The read after the accesses it can make now. -/
def Core.fed (k : Core) (fd : Feed) : Feed :=
  let y := feedSplit k.slotFull fd.ent fd.todo
  ⟨y.2, fd.cap ++ y.1.map (fun sp => (sp.1, k.nearRead sp.1 sp.2)), fd.ent ++ y.1.map (fun sp => sp.1 / 1024)⟩

/-- A tagged read goes on: a poisoned word ends the step, a TAKE clears the tags it passes (R168, R179); `put` stores the read
that has gone on. -/
def State.goFeed (s : State) (c : CoreId) (tag : ReadTag) (fd : Feed) (put : Feed → Core → Core) : State :=
  match (feedSplit (s.core c).slotFull fd.ent fd.todo).1 with
  | [] => s
  | now => s.withNear c now (fun s => s.modCore c (fun k => put ((s.core c).fed fd) (k.takeTags tag now)))

/-- Near scratch as a read sees it that has taken some of its data already. -/
def Core.withCap (k : Core) (fd : Feed) : Core :=
  match fd.cap with
  | [] => k
  | cap => { k with near := cap.flatMap (fun x => x.2.zipIdx.map (fun b => (x.1 + b.2, b.1))) ++ k.near,
                    written := cap.map (fun x => (x.1 / 1024, true)) ++ k.written }

/-- The writes of a read-out cut at slot boundaries. -/
def Puts.start (ws : List (Nat × List Byte)) : Puts :=
  ⟨ws.flatMap (fun w => (slotSpans (w.1, w.2.length)).map (fun sp => (sp.1, (w.2.drop (sp.1 - w.1)).take sp.2))), []⟩

/-- Land what can land of a read-out's writes, in order: the first write into a slot waits for the reads of R163 and, with SET,
for the slot's tag; SET sets the tag after the last byte in the slot (R168). What is left is answered. -/
def State.landPuts (s : State) (c : CoreId) (seq : Nat) (set : Bool) :
    List (Nat × List Byte) → List Nat → State × Puts
  | [], ent => (s, ⟨[], ent⟩)
  | w :: r, ent =>
    let k := s.core c
    let n := w.1 / 1024
    if n ∉ ent ∧ (!k.warFree seq [(w.1, w.2.length)] ∨ (set ∧ k.slotFull n)) then (s, ⟨w :: r, ent⟩)
    else
      let s := s.nearPut c w.1 w.2
      let s := if set && !(r.any (fun x => decide (x.1 / 1024 = n))) then s.modCore c (fun k => k.setTags (w.1, w.2.length)) else s
      s.landPuts c seq set r (n :: ent)

/-! ### The step a core runs -/

/-- The run and the step of a core. -/
def State.stepOf (s : State) (c : CoreId) : Option (PartId × RunSt × StepRec) :=
  match s.runOf c with
  | none => none
  | some p => match (s.part p).run with
    | none => none
    | some r => match s.step? r.aseq with
      | some x => some (p, r, x)
      | none => none

/-- The tables bound to the step (R26). -/
def State.tablesOf (s : State) (c : CoreId) : Tables :=
  match s.stepOf c with | some (_, _, x) => x.tables | none => s.tables.active

/-- A codebook of the step, by number. -/
def State.codebook (s : State) (c : CoreId) (n : Nat) : List Byte :=
  ((s.tablesOf c).codebooks.toList.getD n ⟨0, defaultCodebookBytes⟩).bytes

/-- Whether the core issues bundles of a run. -/
def State.issuing (s : State) (c : CoreId) : Bool := decide ((s.core c).phase = .running) && (s.runOf c).isSome

/-- The pairs (j, array) of an AMASK: the j-th array of those the loader maps (R209). -/
def State.maskArrays (s : State) (c : CoreId) (m : BitVec 4) : List (Nat × Nat) :=
  let us := s.arraysOf c
  (List.range 4).filterMap (fun j => if m.getLsbD j then (us[j]?).map (fun a => (j, a)) else none)

end Sys2Proof.Machine
end

