-- ==== Sys2Proof/Machine/Expander.lean ====
section
/-!
DEFINITION. The heads of the DMA streams and the expander of a cluster: its buffers, its round robin, the bytes that an
operation of address generator B takes (R321, R323).
-/
namespace Sys2Proof.Machine

/-- The command at the head of a stream. -/
def State.dmaHead (s : State) (c : CoreId) (t : Fin 8) : Option DmaFlight := ((s.core c).dma[t.val]).q.head?

/-- Change the head command of a stream. -/
def State.modHead (s : State) (c : CoreId) (t : Fin 8) (g : DmaFlight → DmaFlight) : State :=
  s.modCore c (fun k => { k with dma := upd k.dma t (fun d =>
    { d with q := match d.q with | f :: r => g f :: r | [] => [] }) })

/-- A block failed its check (R321): counted, recorded, logged, and the step ends with 0x05. -/
def State.expanderFail (s : State) (c : CoreId) (t : Fin 8) (b : HbcBad) : State :=
  let r := BitVec.ofNat 128 (b.cause % 16 + c.val / 5 * 2 ^ 4 + t.val * 2 ^ 6 + c.val % 5 * 2 ^ 9 + b.num % 65536 * 2 ^ 32 +
    s.now * 2 ^ 64)
  let s := { s with sets := { s.sets with expFails := s.sets.expFails + 1, expLastFail := r } }
  (s.health 0x0A (some c) 0 b.cause).failCore c 0x05 0

/-- Output bytes of a stream that no operation has taken yet. -/
def DmaStream.expOut (d : DmaStream) : List Byte := d.expBufs.flatten

/-- Stream j of a cluster: core j / 8, stream j mod 8. -/
def expStream (cl : ClusterId) (j : Nat) : CoreId × Fin 8 :=
  (⟨5 * cl.val + j / 8 % 5, by omega⟩, ⟨j % 8, by omega⟩)

/-- Output buffers of a cluster in use. -/
def State.expHeld (s : State) (cl : ClusterId) : Nat :=
  ((List.range 40).map (fun j => let x := expStream cl j; ((s.core x.1).dma[x.2.val]).expBufs.length)).sum

/-- Whether the expander can serve stream j: stored bytes to expand, a buffer it may hold (R323). -/
def State.expReady (s : State) (cl : ClusterId) (j : Nat) : Bool :=
  let x := expStream cl j
  match s.dmaHead x.1 x.2 with
  | some f => f.exp && decide (f.phase = 3) && !f.out.isEmpty && decide (((s.core x.1).dma[x.2.val]).expBufs.length < 2)
  | none => false

/-- Check and expand the next block of a stream (R318 to R321). -/
def State.expandBlock (s : State) (c : CoreId) (t : Fin 8) : State :=
  match s.dmaHead c t with
  | none => s
  | some f =>
    match hbcBlock ((s.core c).dma[t.val]).prefixTabs f.lastBlock f.out with
    | .error b => s.expanderFail c t b
    | .ok b =>
      let s := { s with sets := { s.sets with expBlocks := bump s.sets.expBlocks 1 } }
      (s.modCore c (fun k => { k with dma := upd k.dma t (fun d =>
        { d with prefixTabs := b.tabs, expBufs := if b.out = [] then d.expBufs else d.expBufs ++ [b.out] }) })).modHead c t
          (fun f => { f with out := f.out.drop b.size, lastBlock := some b.num })

/-- Serve the streams of a cluster one block at a time in round robin, while a buffer is free (R323). -/
def State.expandN (s : State) (cl : ClusterId) : Nat → State
  | 0 => s
  | n + 1 =>
    if 8 ≤ s.expHeld cl then s
    else match ((List.range 40).map (fun i => ((s.sets.expTurn[cl.val]) + i) % 40)).find? (s.expReady cl) with
      | some j =>
        let x := expStream cl j
        (({ s with sets := { s.sets with expTurn := upd s.sets.expTurn cl (fun _ => (j + 1) % 40) } }).expandBlock x.1 x.2).expandN cl n
      | none => s

/-- The expander of a core's cluster goes on as far as it can: a block is 64 stored bytes at least. -/
def State.expand (s : State) (c : CoreId) : State :=
  s.expandN (clusterOf c) ((List.range 40).map (fun j => let x := expStream (clusterOf c) j
    match s.dmaHead x.1 x.2 with | some f => f.out.length / 64 + 1 | none => 0)).sum

/-- Take up to n bytes of a stream's output in order, while the expander goes on into the buffers that come free. -/
def State.takeExp (s : State) (c : CoreId) (t : Fin 8) : Nat → Nat → List Byte → State × List Byte
  | 0, _, got => (s, got)
  | fuel + 1, n, got =>
    let s := s.expand c
    match ((s.core c).dma[t.val]).expBufs with
    | b :: r =>
      if n = 0 then (s, got)
      else
        let left := b.drop n
        let s := s.modCore c (fun k => { k with dma := upd k.dma t (fun d => { d with expBufs := if left = [] then r else left :: r }) })
        s.takeExp c t fuel (n - b.length) (got ++ b.take n)
    | [] => (s, got)

/-- Bytes that an operation with SRC = 2 has taken. -/
def Feed.count (fd : Feed) : Nat := (fd.cap.map (fun x => x.2.length)).sum

/-- Those bytes in order. -/
def Feed.bytes (fd : Feed) : List Byte := fd.cap.flatMap (·.2)

/-- An operation that needs n bytes of a stream in all takes what the stream can supply (R323); `put` stores the read. -/
def State.feedExp (s : State) (c : CoreId) (t : Fin 8) (n : Nat) (fd : Feed) (put : Feed → Core → Core) : State :=
  let r := s.takeExp c t (n + 1) (n - fd.count) []
  if r.2 = [] then r.1 else r.1.modCore c (put { fd with cap := fd.cap ++ [(0, r.2)] })

end Sys2Proof.Machine
end

