-- ==== Sys2Proof/Machine/Arrays.lean ====
section
/-!
DEFINITION. The arrays of a core: passes, weight loads, swaps, imports, read-outs (R84 to R116, R208 to R213).
-/
namespace Sys2Proof.Machine

/-! ### Terms and pass results -/

/-- The zero point of an operand: the low 4 bits for INT4 (R67). -/
def zpVal (f : Fmt) (z : Nat) : Int := sgn f.bits z

/-- An activation entry as an integer after its zero point; a pad entry is a zero activation (R36, R149). -/
def actInt (f : Fmt) (zp : Byte) (x : Option Nat) : Int :=
  match x with | some v => intVal f v - zpVal f zp.toNat | none => 0

/-- An activation entry as an exact value; an integer keeps its zero point subtracted (R40). -/
def actVal (f : Fmt) (zp : Byte) (x : Option Nat) : FVal :=
  if f.isInt then ofInt (actInt f zp x)
  else match x with | some v => decFp f.spec v | none => .fin false 0 0

/-- A weight code, none where the weight is a zero weight (R93, R103). -/
def weightCode (w : Option WSet) (k c : Nat) : Option Nat :=
  match w with
  | some x => if c < x.nr then some (x.code k c) else none
  | none => none

/-- A product of the arrays or the MVP; `sc` is the factor of a transposed BG4 weight's row (R40, R41, R106). Where that factor
is zero the product is exact like any other: a zero with the sign of a × e × c, and the NaN of R40 for an infinity (DESIGN
CHOICE: R106 does not state the zero's sign; assumption log 51). -/
def product (a e : FVal) (sc : Option FVal) : Word × Flags :=
  match sc with
  | none => macMul a e
  | some x =>
    let fl := operandFlags a ||| operandFlags e
    if a.isZero || e.isZero then (0, fl)
    else let r := to32 (mulVal (mulVal a e) x); (r.1, fl ||| r.2)

/-- The factor of the stored row that K-entry k of a transposed scaled set holds, and the flags of reading it (R106, R65). -/
def rowScale (w : Option WSet) (k : Nat) : Option (FVal × Flags) :=
  match w with
  | some x => if x.trans && x.sc then some (scaleFactor x.smodeB (nth ⟨0, 0⟩ x.scales k)) else none
  | none => none

/-- The zero-detect bit of a weight (R90, R99). -/
def weightZero (w : Option WSet) (k c : Nat) : Bool :=
  match w with
  | some x => x.zero.getLsbD (zeroPlace x.cls x.trans k c)
  | none => true

/-- The flags that a row raises at its input edge whatever its columns select: SAT of each of the 16 products of a BG4 table
(R74), and the flags of the row scales of a transposed load (R65). -/
def tableFlags (f : PassFlight) (w : Option WSet) (as : List (Option Nat)) : Flags :=
  match w with
  | none => 0
  | some x =>
    if f.mode = 0 ∧ fmtD f.wfmt = .bg4 then
      orFlags (as.zipIdx.map (fun y =>
        let sc := rowScale w y.2
        let a := actVal (fmtD f.afmt) f.zp y.1
        (match sc with | some z => z.2 | none => 0) |||
          orFlags ((bookEntries x.codebook).map (fun e => (product a (decFp specBF16 e.toNat) (sc.map (·.1))).2 &&& fSAT))))
    else 0

/-- Fold words in row order: p = t₀, then combine (R42, R96). -/
def foldTerms (g : Word → Word → Word × Flags) : List (Word × Flags) → Word × Flags
  | [] => (0, 0)
  | t :: r => r.foldl (fun p x => let y := g p.1 x.1; (y.1, p.2 ||| x.2 ||| y.2)) t

/-- A distance term on INT8 operands (R97). -/
def distInt (mode : Nat) (a w : Int) : Int :=
  match mode with
  | 1 => ((a - w).natAbs : Int)
  | 2 => (a - w) * (a - w)
  | 5 => if a = w then 1 else 0
  | _ => a + w

/-- A distance term on float operands (R97). -/
def distFloat (mode : Nat) (a w : Word) : Word × Flags :=
  let d := add32 a (neg32 w)
  match mode with
  | 1 => if (val32 d.1).isNan then d else (d.1 &&& 0x7FFFFFFF, d.2)
  | 2 => if (val32 d.1).isNan then d else let r := mul32 d.1 d.1; (r.1, d.2 ||| r.2)
  | _ => add32 a w

/-- MATCH on float operands: a count, and NAN alone (R97). -/
def matchFloat (a w : FVal) : Int × Flags := (b2n (eqVal a w), flagIf (a.isNan || w.isNan) fNAN)

/-- The pass result of column c of one streamed row, before the pass scale. `as` holds the KR activation codes. -/
def columnSum (f : PassFlight) (w : Option WSet) (j : Nat) (as : List (Option Nat)) (c : Nat) : Word × Flags :=
  let af := fmtD f.afmt
  let wf := fmtD f.wfmt
  let ks := as.zipIdx
  let zw := nth 0 (nth [] f.zw j) c
  if f.mode = 0 then
    if af.isInt && wf.isInt then
      (BitVec.ofInt 32 ((ks.map (fun x => match weightCode w x.2 c with
        | some v => actInt af f.zp x.1 * (intVal wf v - zpVal wf zw)
        | none => 0)).sum), 0)
    else
      let cb := match w with | some x => bookEntries x.codebook | none => []
      foldTerms add32 (ks.map (fun x => match weightCode w x.2 c with
        | some v =>
          if weightZero w x.2 c then product (actVal af f.zp x.1) (.fin false 0 0) none
          else product (actVal af f.zp x.1) (elemVal wf cb v) ((rowScale w x.2).map (·.1))
        | none => product (actVal af f.zp x.1) (.fin false 0 0) none))
  else if af.isInt then
    let ts := ks.map (fun x => distInt f.mode (intVal af (x.1.getD 0)) (intVal wf ((weightCode w x.2 c).getD 0)))
    match f.mode, ts with
    | 3, t :: r => (BitVec.ofInt 32 (r.foldl min t), 0)
    | 4, t :: r => (BitVec.ofInt 32 (r.foldl max t), 0)
    | _, _ => (BitVec.ofInt 32 ts.sum, 0)
  else
    let v := fun (x : Option Nat × Nat) => (decFp af.spec (x.1.getD 0), decFp wf.spec ((weightCode w x.2 c).getD 0))
    if f.mode = 5 then
      let ts := ks.map (fun x => matchFloat (v x).1 (v x).2)
      (BitVec.ofInt 32 ((ts.map (·.1)).sum), orFlags (ts.map (·.2)))
    else
      let ts := ks.map (fun x => distFloat f.mode (to32 (v x).1).1 (to32 (v x).2).1)
      foldTerms (match f.mode with | 3 => minMax false | 4 => minMax true | _ => add32) ts

/-- The 32 pass results of one array and row with the row's flags (R42, R63, R103). The columns from NR on raise no flag: in MAC
mode their terms are the +0 of R103, and of the distance modes the spec does not say (DESIGN CHOICE; assumption log 52). -/
def rowSums (f : PassFlight) (w : Option WSet) (j : Nat) (as : List (Option Nat)) (asc : Option (FVal × Flags)) :
    List Word × Flags :=
  let int := intPass f.mode (fmtD f.afmt) (fmtD f.wfmt)
  let col := fun (c : Nat) =>
    if f.nr ≤ c then
      if f.mode = 0 then ((0 : Word), (0 : Flags)) else ((columnSum f none j as c).1, 0)
    else
      let p := columnSum f w j as c
      let wsc := match w with
        | some x => if x.sc && !x.trans && decide (c < x.nr) then some (scaleFactor x.smodeB (nth ⟨0, 0⟩ x.scales c)) else none
        | none => none
      if int then p
      else match asc, wsc with
        | none, none => p
        | a, b =>
          let fa := a.getD (oneVal, 0)
          let fb := b.getD (oneVal, 0)
          let r := scalePass (mulVal fa.1 fb.1) p.1
          (r.1, p.2 ||| fa.2 ||| fb.2 ||| r.2)
  let xs := (List.range 32).map col
  (xs.map (·.1), orFlags (xs.map (·.2)) ||| tableFlags f w as)

/-! ### Read-outs (R108, R111, R112) -/

/-- Columns 0 to NR − 1 of row `row` of array a. -/
def Core.accRow (k : Core) (a row nr : Nat) : List Word := (List.range nr).map (fun c => k.accEntry a row c)

/-- Row i of array (j, a): the bytes it writes, the flags of its narrowing, elements narrowed and clipped. -/
def readRow (k : Core) (p : ReadPlan) (x : Nat × Nat) (recs : List ReqRec) (row i count : Nat) :
    List (Nat × List Byte) × Flags × Nat × Nat :=
  match p.kind with
  | 3 =>
    let off := a32 (p.da + x.1 * p.dstr)
    let body := ((List.range 32).flatMap (fun c => leBytes 4 (if c < p.nr then (k.accEntry x.2 row c).toNat else 0)))
    let st := ((List.range p.nr).map (fun c => b2n (k.accSticky x.2 row c) * 2 ^ c)).sum
    ((a32 (off + 128 * i), body) :: (if p.isInt then [(a32 (off + 128 * count + 4 * i), leBytes 4 st)] else []), 0, 0, 0)
  | 4 => ([], 0, 0, 0)
  | kd =>
    let r := narrowRow kd p.ofmt p.os recs (k.accRow x.2 row p.nr)
    let fs := r.2.map (·.2)
    ([(a32 (p.da + i * p.dstr + x.1 * (4 * r.1)), packBits r.1 (r.2.map (·.1)))], orFlags fs, fs.length, clips fs)

/-- Every row of a read-out: near writes (offsets in the window), flags by array and row, counts. -/
def readRows (k : Core) (p : ReadPlan) (arrays : List (Nat × Nat)) (first count : Nat) :
    List (List (Nat × List Byte) × Flags × Nat × Nat) :=
  (List.range count).flatMap (fun i => arrays.zipIdx.map (fun y => readRow k p y.1 (nth [] p.recs y.2) (first + i) i count))

/-- Lanes of a TO_VEC register: rows 2q and 2q + 1 of the read-out; lanes that no column writes stay. -/
def toVecLanes (k : Core) (p : ReadPlan) (a first count q : Nat) : Lanes :=
  Vector.ofFn (fun l : Fin 64 =>
    let i := 2 * q + l.val / 32
    if i < count ∧ l.val % 32 < p.nr then k.accEntry a (first + i) (l.val % 32) else (k.vreg (p.vd + q))[l.val])

/-- Physical near writes of a read-out. -/
def readWrites (k : Core) (p : ReadPlan) (arrays : List (Nat × Nat)) (first count : Nat) : List (Nat × List Byte) :=
  (readRows k p arrays first count).flatMap (fun r => r.1.map (fun w => (p.win.phys w.1, w.2)))

/-- Whether a read-out may begin to land: its registers have no older write, or its first slot is free (R134, R163, R168). -/
def Core.readReadyToLand (k : Core) (seq : Nat) (p : ReadPlan) (arrays : List (Nat × Nat)) (first count : Nat) : Bool :=
  if p.kind = 4 then !k.olderV seq (toVecRegs p.vd count)
  else k.mayWrite seq ((Puts.start (readWrites k p arrays first count)).todo.take 1) p.dtag

/-- Keys of the entries a row range of some arrays holds. -/
def rangeKeys (arrays : List (Nat × Nat)) (first count : Nat) : List Nat :=
  arrays.flatMap (fun x => (List.range count).flatMap (fun i => (List.range 16).map (fun w => accKey x.2 (first + i) (2 * w))))

/-- Of those, the keys in rows that are initialised: nothing else is read (R108). -/
def Core.initKeys (k : Core) (arrays : List (Nat × Nat)) (first count : Nat) : List Nat :=
  arrays.flatMap (fun x => ((List.range count).filter (fun i => Tab.get false k.rowInit (rowKey x.2 (first + i)))).flatMap
    (fun i => (List.range 16).map (fun w => accKey x.2 (first + i) (2 * w))))

/-- A read-out takes its rows (R111): flags of its tiles, counts of R75, its vector registers; `put` stores the writes to near
scratch that it forms. -/
def State.takeRows (s : State) (c : CoreId) (p : ReadPlan) (arrays : List (Nat × Nat)) (first count : Nat)
    (put : Puts → Core → Core) : State :=
  s.withAcc c ((s.core c).initKeys arrays first count) (fun s =>
    let k := s.core c
    let rows := readRows k p arrays first count
    let ix := (List.range count).flatMap (fun i => arrays.map (fun x => (x.2, first + i)))
    s.modCore c (fun k =>
      let k := (ix.zip rows).foldl (fun k y => (k.untouchTile y.1.1 y.1.2).raiseTile y.1.1 y.1.2 y.2.2.1) k
      let k := k.countNarrow ((rows.map (·.2.2.1)).sum) ((rows.map (·.2.2.2)).sum)
      let k := match p.kind, arrays with
        | 4, x :: _ => (List.range ((count + 1) / 2)).foldl (fun k q => k.setV (p.vd + q) (toVecLanes k p x.2 first count q)) k
        | _, _ => k
      put (Puts.start (rows.flatMap (fun r => r.1.map (fun w => (p.win.phys w.1, w.2))))) k))

/-- Offsets a read-out writes, with lengths, for the check of R164. A RAW tile goes where its address says: the spec gives no
consequence for an address that is not a multiple of 128 (DESIGN CHOICE; R112, assumption log 53). -/
def planSpans (p : ReadPlan) (arrays : List (Nat × Nat)) (count : Nat) : List Span :=
  match p.kind with
  | 3 => arrays.map (fun x => (a32 (p.da + x.1 * p.dstr), 128 * count + (if p.isInt then 4 * count else 0)))
  | 4 => []
  | kd =>
    let bits := if kd = 1 then requantBits p.ofmt else (fmtD p.ofmt).bits
    (List.range count).flatMap (fun i => arrays.map (fun x => (a32 (p.da + i * p.dstr + x.1 * (4 * bits)), (p.nr * bits + 7) / 8)))

/-- The physical spans that a read-out writes. -/
def planPhys (p : ReadPlan) (arrays : List (Nat × Nat)) (count : Nat) : List Span :=
  (planSpans p arrays count).map (fun x => (p.win.phys x.1, x.2))

/-- Whether two lists of spans share a byte. -/
def spansMeet (xs ys : List Span) : Bool := xs.any (fun x => ys.any (fun y => shareByte x y))

/-- Spans of the requantisation records of some arrays (R67, R68). -/
def recSpans (k : Core) (mt : Nat) (arrays : List (Nat × Nat)) : List Span :=
  arrays.map (fun x => (a32 (k.areg (mtRa mt) + 256 * x.1), 8 * mtNr mt))

/-- The records of one array. -/
def recsAt (k : Core) (mt j : Nat) : List ReqRec :=
  (List.range (mtNr mt)).map (fun c => reqRecOf (leNat (k.nearAt k.win (a32 (k.areg (mtRa mt) + 256 * j + 8 * c)) 8)))

/-- The read-out of a template, read at its issue. -/
def planOf (k : Core) (mt : Nat) (arrays : List (Nat × Nat)) : ReadPlan :=
  { kind := mtRead mt, ofmt := mtOfmt mt, nr := mtNr mt, da := k.areg (mtDa mt), dstr := mtDstr mt,
    dtag := decide (mtDtag mt = 1), vd := mtVd mt,
    isInt := intPass (mtMode mt) (fmtD (mtAfmt mt)) (fmtD (mtWfmt mt)),
    recs := if mtRead mt = 1 then arrays.map (fun x => recsAt k mt x.1) else arrays.map (fun _ => []),
    os := k.os, win := k.win }

/-! ### Issue of PASS, READ, LOADW, IMPORT -/

/-- Near spans that an operation reads at issue and those it only forms; an illegal one ends the step (R164). -/
def State.checked (s : State) (c : CoreId) (w : NsWin) (spans : List Span) (f : List Span → State) : State :=
  match w.spans spans with
  | some xs => f xs
  | none => s.failCore c 0x03 0

/-- The physical slots a pass reads, of its rows and its scale planes, as far as they lie in the window. -/
def passReads (f : PassFlight) (e : Nat) : List Span :=
  let rows := (List.range f.m).flatMap (fun m => (rowSpans f e m).getD [])
  let sc := if adSc f.ad then (List.range f.m).flatMap (fun m => scaleSpans (adSmodeB f.ad) f.sa f.ssa (adSpr f.ad) m) else []
  (rows ++ sc).map (fun x => (f.win.phys x.1, x.2))

/-- Whether a PASS forms INT32 entries by integer products: it then reads the ZW of its records (R67, R213). -/
def passInt (t : Nat) : Bool := decide (mtMode t = 0) && (fmtD (mtAfmt t)).isInt && (fmtD (mtWfmt t)).isInt

/-- The record spans that a PASS reads at issue. -/
def passRecs (k0 : Core) (t : Nat) (arrays : List (Nat × Nat)) (last : Bool) : List Span :=
  if passInt t || (last && decide (mtRead t = 1)) then recSpans k0 t arrays else []

/-- The spans that the chained read-out of a PASS of m rows forms. -/
def passPlanSpans (k0 : Core) (t : Nat) (arrays : List (Nat × Nat)) (last : Bool) (m : Nat) : List Span :=
  if last && decide (mtRead t ≠ 0) then planSpans (planOf k0 t arrays) arrays m else []

/-- Whether a set is scaled with G = 32. -/
def setG32 (w : Option WSet) : Bool := match w with | some x => x.sc && x.g32 | none => false

/-- Apply the LOADWs in flight of array a that were issued from bundle lo to before bundle hi to its pair of marks (active,
shadow). -/
def Core.g32Loads (k : Core) (a lo hi : Nat) (x : Bool × Bool) : Bool × Bool :=
  (k.agbQ.filter (fun l => !l.isImport && decide (lo ≤ l.seq) && decide (l.seq < hi) && l.arrays.any (fun y => decide (y.2 = a)))).foldl
    (fun x l => (x.1, bdSc l.bd && decide (bdGsel l.bd = 0))) x

/-- Whether the set that a pass of bundle `seq` will use in array a has G = 32 (R62): the loads issued before it have ended and
the passes issued before it have swapped by then (R92). -/
def Core.g32At (k : Core) (seq : Nat) (swap : Bool) (a : Nat) : Bool :=
  let w := k.weights.toList.getD a ⟨none, none⟩
  let r := (k.passQ.filter (fun f => f.feed.isNone && !f.started && f.swap && f.arrays.any (fun y => decide (y.2 = a)))).foldl
    (fun (r : (Bool × Bool) × Nat) f => let y := k.g32Loads a r.2 f.seq r.1; ((y.2, y.1), f.seq))
    ((setG32 w.active, setG32 w.shadow), 0)
  let y := k.g32Loads a r.2 seq r.1
  if swap then y.2 else y.1

/-- A PASS with its ROWS as it enters the queue: ZW and the records of a chained read-out are read now (R208, R213). -/
def passOf (k0 : Core) (t d : Nat) (arrays : List (Nat × Nat)) (sM sAcc : SReg) (init swap last : Bool) (aB : AReg)
    (sQ sY sB : SReg) : PassFlight :=
  let f : PassFlight :=
    { seq := k0.seq, mode := mtMode t, afmt := mtAfmt t, wfmt := mtWfmt t, kr := mtKr t, nr := mtNr t, arrays := arrays,
      m := k0.s32 sM, accRow := k0.s32 sAcc, init := init, swap := swap,
      plan := if last && decide (mtRead t ≠ 0) then some (planOf k0 t arrays) else none,
      ad := d, wd := if adMode d = 1 then k0.wd (adWd d) else [], base := k0.areg aB.val, q0 := k0.s32 sQ, y0 := k0.s32 sY,
      kb := k0.s32 sB, sa := k0.areg (adSa d), ssa := k0.areg (adSsa d), zp := k0.zp,
      zw := if passInt t then arrays.map (fun x => (recsAt k0 t x.1).map (·.zw)) else [],
      win := k0.win, reads := [], tag := readTag (adTag d), feed := none, wrote := false, out := none, started := false,
      sums := [] }
  { f with reads := passReads f (kEntries f.mode (fmtD f.afmt) (fmtD f.wfmt)
      ((adSc d && decide (adGsel d = 0)) || arrays.any (fun x => k0.g32At k0.seq swap x.2))) }

/-- PASS with its ROWS (R208, R213). -/
def State.issuePass (s : State) (c : CoreId) (k0 : Core) (mt : Fin 8) (am : BitVec 4) (sM sAcc : SReg)
    (init swap last : Bool) (ad : Fin 8) (aB : AReg) (sQ sY sB : SReg) : State :=
  let t := k0.mt mt
  let arrays := s.maskArrays c am
  let recs := passRecs k0 t arrays last
  s.checked c k0.win (recs ++ passPlanSpans k0 t arrays last (k0.s32 sM)) (fun _ =>
    s.withNear c (recs.map (fun x => (k0.win.phys x.1, x.2))) (fun s =>
      s.modCore c (fun k => { k with passQ := k.passQ ++ [passOf k0 t (k0.ad ad) arrays sM sAcc init swap last aB sQ sY sB] })))

/-- The record spans that a READ reads at issue. -/
def readRecs (k0 : Core) (t : Nat) (arrays : List (Nat × Nat)) : List Span :=
  if mtRead t = 1 then recSpans k0 t arrays else []

/-- A READ as it enters the queue (R111). -/
def readOf (k0 : Core) (t : Nat) (arrays : List (Nat × Nat)) (sFirst sCount : SReg) : ReadFlight :=
  { seq := k0.seq, arrays := arrays, first := k0.s32 sFirst, count := k0.s32 sCount, plan := planOf k0 t arrays, out := none }

/-- READ (R111). -/
def State.issueRead (s : State) (c : CoreId) (k0 : Core) (mt : Fin 8) (am : BitVec 4) (sFirst sCount : SReg) : State :=
  let t := k0.mt mt
  let arrays := s.maskArrays c am
  let recs := readRecs k0 t arrays
  if mtRead t = 0 then s
  else s.checked c k0.win (recs ++ planSpans (planOf k0 t arrays) arrays (k0.s32 sCount)) (fun _ =>
    s.withNear c (recs.map (fun x => (k0.win.phys x.1, x.2))) (fun s =>
      s.modCore c (fun k => { k with readQ := k.readQ ++ [readOf k0 t arrays sFirst sCount] })))

/-- Bytes of a RAW tile of n rows; the sticky words of an INT32 tile follow the rows (R112). -/
def rawBytes (int : Bool) (n : Nat) : Nat := 128 * n + (if int then 4 * n else 0)

/-- Whether an IMPORT reads sticky words: the type of its first row, or of the descriptor's WFMT where that row is fresh. -/
def importInt (k : Core) (bd : Nat) (a row : Nat) : Bool :=
  if Tab.get false k.rowInit (rowKey a row) then !Tab.get false k.rowFp (rowKey a row) else (fmtD (bdWfmt bd)).isInt

/-- Where a load reads, per array: address of its block or tile, and the spans in it. -/
def loadParts (k : Core) (f : LoadFlight) : List (Nat × List Span) :=
  f.arrays.map (fun x =>
    (a32 (f.a + x.1 * bdBstr f.bd),
      if f.isImport then [(0, rawBytes (importInt k f.bd x.2 f.first) f.count)]
      else blockSpans f.cls (bdTrans f.bd) f.nr))

/-- Data spans of a load at its source. -/
def loadSpans (k : Core) (f : LoadFlight) : List Span :=
  (loadParts k f).flatMap (fun p => p.2.map (fun x => (a32 (p.1 + x.1), x.2)))

/-- Scale bytes of a LOADW (R210): one entry per column, or per stored row of a transposed load. -/
def loadScales (f : LoadFlight) : List Span :=
  if f.isImport || !bdSc f.bd then []
  else f.arrays.flatMap (fun x =>
    (List.range (if bdTrans f.bd then runCount f.cls true else f.nr)).flatMap (fun i =>
      scaleSpans (bdSmodeB f.bd) f.sa f.ssa (bdSpr f.bd) (32 * x.1 + i)))

/-- Near bytes a load reads. -/
def loadNear (k : Core) (f : LoadFlight) : List Span := (if bdSrc f.bd = 0 then loadSpans k f else []) ++ loadScales f

/-- A LOADW or IMPORT as it enters the queue of address generator B, without the near spans it reads. -/
def loadOf (s : State) (c : CoreId) (k0 : Core) (isImport : Bool) (am : BitVec 4) (bd : Fin 8) (a : AReg)
    (nr first count : Nat) : LoadFlight :=
  let d := k0.bd bd
  { seq := k0.seq, isImport := isImport, arrays := s.maskArrays c am, bd := d, a := k0.areg a.val,
    cls := k0.loadClass (bdWfmt d), nr := nr, first := first, count := count, sa := k0.areg (bdSa d), ssa := k0.areg (bdSsa d),
    codebook := s.codebook c (k0.book (0x18 + bd.val)), win := k0.win, reads := [],
    tag := if bdSrc d = 0 then readTag (bdTag d) else .free, feed := ⟨[], [], []⟩ }

/-- The load with its tagged reads still to be made (R168). -/
def LoadFlight.armed (f : LoadFlight) (k : Core) (xs : List Span) : LoadFlight :=
  { f with reads := xs, feed := Feed.start f.tag ((loadSpans k f).map (fun x => (f.win.phys x.1, x.2))) }

/-- Whether the deep-scratch spans of a load lie in local windows (R175, R178). -/
def State.loadDeepOk (s : State) (c : CoreId) (k0 : Core) (f : LoadFlight) : Bool :=
  match s.runOf c with
  | some p => bdSrc f.bd ≠ 1 || (loadSpans k0 f).all (fun x => (s.deepLocal p x.1 x.2).isSome)
  | none => false

/-- LOADW and IMPORT enter the queue of address generator B; near and deep addresses are checked (R164, R175, R178). -/
def State.issueLoad (s : State) (c : CoreId) (k0 : Core) (isImport : Bool) (am : BitVec 4) (bd : Fin 8) (a : AReg)
    (nr first count : Nat) : State :=
  let f := loadOf s c k0 isImport am bd a nr first count
  s.checked c k0.win (loadNear k0 f) (fun xs =>
    if s.loadDeepOk c k0 f then s.modCore c (fun k => { k with agbQ := k.agbQ ++ [f.armed k0 xs] })
    else s.failCore c 0x03 0)

/-! ### Streaming a pass -/

/-- Whether a load of the queue has its data: tags, or expander bytes (R169, R323). -/
def loadFed (k : Core) (f : LoadFlight) : Bool :=
  match bdSrc f.bd with
  | 0 => (k.feedRest f.feed).isEmpty
  | 2 => decide (((loadSpans k f).map (·.2)).sum ≤ f.feed.count)
  | _ => true

/-- Whether a tap load may read: its tags allow (R169). -/
def tapFed (k : Core) (f : TapFlight) : Bool := (k.feedRest f.feed).isEmpty

/-- Whether something that queues before `seq` in address generator A waits (R169). -/
def Core.agaBlocked (k : Core) (seq : Nat) : Bool :=
  k.tapQ.any (fun f => decide (f.seq < seq) && !tapFed k f) ||
  k.passQ.any (fun f => decide (f.seq < seq) && !f.started)

/-- Shadow and active registers of an array after a swap (R92). -/
def ArrayW.swap (w : ArrayW) : ArrayW := { active := w.shadow, shadow := w.active }

/-- Exchange the registers of the arrays of a pass. -/
def Core.swapArrays (k : Core) (arrays : List (Nat × Nat)) : Core :=
  { k with weights := Vector.ofFn (fun i : Fin 4 =>
      if arrays.any (fun x => decide (x.2 = i.val)) then (k.weights[i.val]).swap else k.weights[i.val]) }

/-- The active set of an array. -/
def Core.active (k : Core) (a : Nat) : Option WSet := (k.weights.toList.getD a ⟨none, none⟩).active

/-- K-entries of a pass, with the weight sets it uses (R62). -/
def passEntries (k : Core) (f : PassFlight) : Nat :=
  let g := f.arrays.any (fun x => setG32 (k.active x.2))
  kEntries f.mode (fmtD f.afmt) (fmtD f.wfmt) (g || (adSc f.ad && decide (adGsel f.ad = 0)))

/-- Rows of registers that a pass uses of a set: the cells of the K-entries below KR (R91, R104). -/
def passRegRows (f : PassFlight) (w : WSet) : Nat := match w.cls with | .four => (f.kr + 1) / 2 | _ => f.kr

/-- The array of a pass in which a weight register has wrong parity (R94): of both sets of every register that swaps, of the set
in use where it supplies a product. -/
def parityError (k : Core) (f : PassFlight) : Option Nat :=
  (f.arrays.find? (fun x =>
    let w := k.weights.toList.getD x.2 ⟨none, none⟩
    if f.swap then [w.active, w.shadow].any (fun o => match o with | some y => y.parityBadIn 32 | none => false)
    else match w.active with | some y => y.parityBadIn (passRegRows f y) | none => false)).map (·.2)

/-- Scale spans that a pass reads beside its rows (R208). -/
def passScaleSpans (f : PassFlight) : List Span :=
  if adSc f.ad then (List.range f.m).flatMap (fun m => scaleSpans (adSmodeB f.ad) f.sa f.ssa (adSpr f.ad) m) else []

/-- Change the pass of a bundle in the queue. -/
def Core.modPass (k : Core) (seq : Nat) (g : PassFlight → PassFlight) : Core :=
  { k with passQ := k.passQ.map (fun f => if f.seq = seq then g f else f) }

/-- A pass begins (R92, R94, R208): its registers are checked and swapped, its addresses checked. -/
def State.beginPass (s : State) (c : CoreId) (f : PassFlight) : State :=
  match parityError (s.core c) f with
  | some a => s.disableArray c a
  | none =>
    let k := s.core c
    let k := if f.swap then k.swapArrays f.arrays else k
    let rows := (List.range f.m).mapM (fun m => rowSpans f (passEntries k f) m)
    match rows.bind (fun r => (f.win.spans (r.flatten ++ passScaleSpans f)).map (fun xs => (r, xs))) with
    | none => s.failCore c 0x03 0
    | some (r, xs) => s.modCore c (fun _ => k.modPass f.seq (fun g =>
        { g with feed := some (Feed.start f.tag (r.flatten.map (fun x => (f.win.phys x.1, x.2)))), reads := xs }))

/-- The results of a pass from the bytes it has read (R88, R208). -/
def passSums (k : Core) (f : PassFlight) : List (List (List Word × Flags)) :=
  let e := passEntries k f
  let acts := (List.range f.m).map (fun m =>
    (rowCodes k f e m f.kr,
      if adSc f.ad then some (scaleFactor (adSmodeB f.ad) (k.scaleAt f.win (adSmodeB f.ad) f.sa f.ssa (adSpr f.ad) m)) else none))
  f.arrays.zipIdx.map (fun x => acts.map (fun y => rowSums f (k.active x.1.2) x.2 y.1 y.2))

/-- A pass that has begun reads on, and when it has its last row it has streamed (R88, R168). -/
def State.streamPass (s : State) (c : CoreId) (seq : Nat) : State :=
  match (s.core c).passQ.find? (fun f => decide (f.seq = seq)) with
  | some f => match f.feed with
    | none => s
    | some fd =>
      let sc := (passScaleSpans f).map (fun x => (f.win.phys x.1, x.2))
      let s := s.goFeed c f.tag fd (fun fd k => k.modPass seq (fun g => { g with feed := some fd, reads := fd.todo ++ sc }))
      match (s.core c).passQ.find? (fun f => decide (f.seq = seq)) with
      | some f => match f.feed with
        | some fd =>
          if !fd.todo.isEmpty then s
          else s.withNear c f.reads (fun s =>
            s.modCore c (fun k => k.modPass seq (fun g =>
              { g with started := true, reads := [], sums := passSums (k.withCap fd) f })))
        | none => s
      | none => s
  | none => s

/-- The pass streams as far as its tags let it (R88, R92, R168). -/
def State.startPass (s : State) (c : CoreId) (f : PassFlight) : State :=
  match f.feed with
  | none => (s.beginPass c f).streamPass c f.seq
  | some _ => s.streamPass c f.seq

/-- Whether the next pass may stream: the AGA is free, and no earlier load of its swap is open (R92, R169). -/
def Core.passMayStart (k : Core) (f : PassFlight) : Bool :=
  !k.agaBlocked f.seq &&
  (!f.swap || k.agbQ.all (fun l => l.isImport || decide (f.seq ≤ l.seq) ||
    !(l.arrays.any (fun x => f.arrays.any (fun y => decide (x.2 = y.2))))))

/-- Start every pass that may stream now, in order. -/
def State.startPasses (s : State) (c : CoreId) : Nat → State
  | 0 => s
  | n + 1 =>
    let k := s.core c
    match k.passQ.find? (fun f => !f.started) with
    | some f =>
      if k.phase ≠ .idle ∧ (f.feed.isSome ∨ k.passMayStart f) then
        let t := s.startPass c f
        if (t.core c).passQ.any (fun g => decide (g.seq = f.seq) && g.started) then t.startPasses c n else t
      else s
    | none => s

/-- After anything that may let a pass stream. -/
def State.settleAga (s : State) (c : CoreId) : State := s.startPasses c ((s.core c).passQ.length)

/-! ### Landings -/

/-- Whether two operations touch a common row of a common array. -/
def rowsMeet (xs : List (Nat × Nat)) (f n : Nat) (ys : List (Nat × Nat)) (g m : Nat) : Bool :=
  xs.any (fun x => ys.any (fun y => decide (x.2 = y.2))) && decide (f < g + m) && decide (g < f + n)

/-- The order of R109: read-outs issued before, and imports issued up to, a pass into the same rows come first. -/
def Core.passOrdered (k : Core) (f : PassFlight) : Bool :=
  k.readQ.all (fun r => !(decide (r.seq < f.seq) && rowsMeet r.arrays r.first r.count f.arrays f.accRow f.m)) &&
  k.agbQ.all (fun l => !(l.isImport && decide (l.seq ≤ f.seq) && rowsMeet l.arrays l.first l.count f.arrays f.accRow f.m))

/-- The pass's results enter the accumulator (R107, R108). -/
def State.writePass (s : State) (c : CoreId) (f : PassFlight) : State :=
  let int := intPass f.mode (fmtD f.afmt) (fmtD f.wfmt)
  let k := s.core c
  let old := f.arrays.flatMap (fun x => ((List.range f.m).filter (fun i =>
    !f.init && Tab.get false k.rowInit (rowKey x.2 (f.accRow + i)) && (Tab.get false k.rowFp (rowKey x.2 (f.accRow + i)) == !int))).flatMap
      (fun i => (List.range 16).map (fun w => accKey x.2 (f.accRow + i) (2 * w))))
  s.withAcc c old (fun s => (s.freshChecker c (rangeKeys f.arrays f.accRow f.m)).modCore c (fun k =>
    ((f.arrays.zip f.sums).foldl (fun k y =>
      (y.2.zipIdx).foldl (fun k r => k.writeRow y.1.2 (f.accRow + r.2) f.mode int f.init r.1.1 r.1.2) k) k).freshAcc
        (rangeKeys f.arrays f.accRow f.m)))

/-- Whether no READ issued before bundle `seq` has still to write bytes that a later read-out writes (R163: one unit, issue
order). -/
def Core.readsBefore (k : Core) (seq : Nat) (sp : List Span) : Bool :=
  k.readQ.all (fun r => !(decide (r.seq < seq) && spansMeet (planPhys r.plan r.arrays r.count) sp))

/-- The chained read-out at the head goes on landing; with its last byte the pass leaves the queue (R111, R168). -/
def State.goChained (s : State) (c : CoreId) : State :=
  match (s.core c).passQ with
  | f :: _ => match f.out, f.plan with
    | some pt, some p =>
      let y := s.landPuts c f.seq p.dtag pt.todo pt.ent
      y.1.modCore c (fun k => match k.passQ with
        | g :: r => if y.2.todo = [] then { k with passQ := r } else { k with passQ := { g with out := some y.2 } :: r }
        | [] => k)
    | _, _ => s
  | [] => s

/-- A pass that has written its entries leaves the queue, after its chained read-out (R111). -/
def State.endPass (s : State) (c : CoreId) : State :=
  match (s.core c).passQ with
  | f :: rest => match f.plan with
    | none => (s.modCore c (fun k => { k with passQ := rest })).settleAga c
    | some p =>
      match f.out with
      | some _ => (s.goChained c).settleAga c
      | none =>
        let q := { s.core c with passQ := rest }
        if !q.readReadyToLand f.seq p f.arrays f.accRow f.m || !q.readsBefore f.seq (planPhys p f.arrays f.m) then s
        else ((s.takeRows c p f.arrays f.accRow f.m (fun pt k => match k.passQ with
            | g :: r => { k with passQ := { g with out := some pt } :: r }
            | [] => k)).goChained c).settleAga c
  | [] => s

/-- PASS_RESULT_LANDED: the oldest streamed pass writes its entries, and its chained read-out acts (R88, R111). -/
def State.landPass (s : State) (c : CoreId) : State :=
  let s := s.settleAga c
  let k := s.core c
  match k.passQ with
  | f :: rest =>
    if f.wrote then s.endPass c
    else if !f.started || !k.passOrdered f then s
    else
      let t := s.writePass c f
      if (t.core c).phase = .idle ∧ k.phase ≠ .idle then t
      else (t.modCore c (fun k => { k with passQ := { f with wrote := true } :: rest })).endPass c
  | [] => s

/-- Whether a read-out's rows have been written by every pass and import issued before it (R109), and no chained read-out
issued before it has still to write the same bytes (R163). -/
def Core.readOrdered (k : Core) (r : ReadFlight) : Bool :=
  k.passQ.all (fun f => !(decide (f.seq < r.seq) && (rowsMeet f.arrays f.accRow f.m r.arrays r.first r.count ||
    (match f.plan with
      | some p => spansMeet (planPhys p f.arrays f.m) (planPhys r.plan r.arrays r.count)
      | none => false)))) &&
  k.agbQ.all (fun l => !(l.isImport && decide (l.seq < r.seq) && rowsMeet l.arrays l.first l.count r.arrays r.first r.count))

/-- The READ at the head goes on landing; with its last byte it leaves the queue (R168). -/
def State.goReadout (s : State) (c : CoreId) : State :=
  match (s.core c).readQ with
  | r :: _ => match r.out with
    | some pt =>
      let y := s.landPuts c r.seq r.plan.dtag pt.todo pt.ent
      y.1.modCore c (fun k => match k.readQ with
        | g :: q => if y.2.todo = [] then { k with readQ := q } else { k with readQ := { g with out := some y.2 } :: q }
        | [] => k)
    | none => s
  | [] => s

/-- READOUT_LANDED: the oldest separate read-out (R111). -/
def State.landReadout (s : State) (c : CoreId) : State :=
  let k := s.core c
  match k.readQ with
  | r :: rest =>
    match r.out with
    | some _ => s.goReadout c
    | none =>
      if !k.readOrdered r || !({ k with readQ := rest } : Core).readReadyToLand r.seq r.plan r.arrays r.first r.count then s
      else (s.takeRows c r.plan r.arrays r.first r.count (fun pt k => match k.readQ with
          | g :: q => { k with readQ := { g with out := some pt } :: q }
          | [] => k)).goReadout c
  | [] => s

/-- The bytes of a load, per array: those of its spans in order. -/
def State.loadBytes (s : State) (c : CoreId) (p : PartId) (f : LoadFlight) : List (List (List Byte)) :=
  let k := (s.core c).withCap f.feed
  let parts := loadParts k f
  match bdSrc f.bd with
  | 0 => parts.map (fun q => q.2.map (fun x => k.nearAt f.win (a32 (q.1 + x.1)) x.2))
  | 1 => parts.map (fun q => q.2.map (fun x => match s.deepLocal p (a32 (q.1 + x.1)) x.2 with
      | some a => s.deepRead a x.2 | none => []))
  | _ =>
    let out := f.feed.bytes
    (parts.foldl (fun (r : List (List (List Byte)) × Nat) q =>
      let g := q.2.foldl (fun (y : List (List Byte) × Nat) x => (y.1 ++ [slice out y.2 x.2], y.2 + x.2)) ([], r.2)
      (r.1 ++ [g.1], g.2)) ([], 0)).1

/-- The block of a load, zero where it read nothing. -/
def blockOf (f : LoadFlight) (bss : List (List Byte)) : List Byte :=
  let sp := blockSpans f.cls (bdTrans f.bd) f.nr
  (sp.zip bss).foldl (fun b x => overwrite b x.1.1 x.2) (List.replicate (blockBytes f.cls) 0)

/-- A LOADW writes the shadow registers of its arrays (R91, R103, R105). -/
def Core.writeShadow (k : Core) (f : LoadFlight) (bss : List (List (List Byte))) : Core :=
  let n := if bdTrans f.bd then runCount f.cls true else f.nr
  let set := fun (x : Nat × Nat) (bs : List (List Byte)) =>
    let b := blockOf f bs
    ({ fmt := bdWfmt f.bd, cls := f.cls, trans := bdTrans f.bd, nr := f.nr, block := b, sc := bdSc f.bd, smodeB := bdSmodeB f.bd,
       g32 := decide (bdGsel f.bd = 0),
       scales := if bdSc f.bd then (List.range n).map (fun i =>
         k.scaleAt f.win (bdSmodeB f.bd) f.sa f.ssa (bdSpr f.bd) (32 * x.1 + i)) else [],
       codebook := f.codebook,
       zero := blockZeros f.cls (bdTrans f.bd) (fmtD (bdWfmt f.bd)) (bookEntries f.codebook) f.nr b,
       parity := blockParity f.cls (bdTrans f.bd) b } : WSet)
  { k with weights := Vector.ofFn (fun i : Fin 4 =>
      match (f.arrays.zip bss).find? (fun y => decide (y.1.2 = i.val)) with
      | some y => { k.weights[i.val] with shadow := some (set y.1 y.2) }
      | none => k.weights[i.val]) }

/-- An IMPORT combines its tiles into the accumulator (R114). -/
def Core.importTiles (k : Core) (f : LoadFlight) (bss : List (List (List Byte))) : Core :=
  ((f.arrays.zip bss).foldl (fun k y =>
    let bs := y.2.flatten
    (List.range f.count).foldl (fun (k : Core) i =>
      k.importRow y.1.2 (f.first + i) (fmtD (bdWfmt f.bd)).isInt
        ((List.range 32).map (fun c => BitVec.ofNat 32 (leAt bs (128 * i + 4 * c) 4))) (leAt bs (128 * f.count + 4 * i) 4)) k) k).freshAcc
          (rangeKeys f.arrays f.first f.count)

/-- The order of R92 for a LOADW, of R109 for an IMPORT. -/
def Core.loadOrdered (k : Core) (f : LoadFlight) : Bool :=
  if f.isImport then
    k.passQ.all (fun p => !(decide (p.seq < f.seq) && rowsMeet p.arrays p.accRow p.m f.arrays f.first f.count)) &&
    k.readQ.all (fun r => !(decide (r.seq < f.seq) && rowsMeet r.arrays r.first r.count f.arrays f.first f.count))
  else
    k.passQ.all (fun p => !(p.swap && p.feed.isNone && !p.started && decide (p.seq ≤ f.seq) &&
      p.arrays.any (fun x => f.arrays.any (fun y => decide (x.2 = y.2)))))

/-! ### The stream of an MVP pass -/

/-- Bytes of output n that a pass streams from near or deep scratch (R209). -/
def mvWeightSpans (f : MvFlight) : List Span :=
  if bdSrc f.bd = 2 then []
  else (List.range f.n).map (fun n => (a32 (f.a + n * bdBstr f.bd), (fmtD f.wfmt).bytes f.k))

/-- K-blocks of a pass. -/
def MvFlight.blocks (f : MvFlight) : Nat := ceilDiv f.k 32
/-- Entries of block b. -/
def MvFlight.blockLen (f : MvFlight) (b : Nat) : Nat := min 32 (f.k - 32 * b)

/-- Bytes that a pass takes from the expander: blocks in order, the outputs of each in order (R210, R126). Of a ragged last
block each output has the bytes of its remaining entries alone (DESIGN CHOICE: R119 and R126 give the order, not the bytes of a
short block; assumption log 54). -/
def mvExpanded (f : MvFlight) : Nat :=
  if bdSrc f.bd = 2 then ((List.range f.blocks).map (fun b => f.n * (fmtD f.wfmt).bytes (f.blockLen b))).sum else 0

/-- Whether the stream of a pass has its bytes: tags, or expander output (R120, R169). -/
def mvFed (k : Core) (f : MvFlight) : Bool :=
  if !f.isPass then true
  else match bdSrc f.bd with
  | 0 => (k.feedRest f.feed).isEmpty
  | 2 => decide (mvExpanded f ≤ f.feed.count)
  | _ => true

/-! ### The end of a load -/

/-- Whether an access of address generator B issued in bundle `seq` waits behind an earlier one of the same unit that waits for
a tag or for the expander (R169). -/
def Core.agbBlocked (k : Core) (seq : Nat) : Bool :=
  k.agbQ.any (fun l => decide (l.seq < seq) && !loadFed k l) || k.mvQ.any (fun m => decide (m.seq < seq) && !mvFed k m)

/-- The oldest load reads as far as its tags let it (R168). -/
def State.feedLoad (s : State) (c : CoreId) : State :=
  let k := s.core c
  match k.agbQ with
  | f :: _ =>
    if k.agbBlocked f.seq || !k.loadOrdered f then s
    else
      let sc := (loadScales f).map (fun x => (f.win.phys x.1, x.2))
      let put := fun (fd : Feed) (k : Core) => match k.agbQ with
        | g :: r => { k with agbQ := { g with feed := fd, reads := fd.todo ++ sc } :: r }
        | [] => k
      if bdSrc f.bd = 2 then s.feedExp c (bdStrm f.bd) ((loadSpans k f).map (·.2)).sum f.feed put
      else s.goFeed c f.tag f.feed put
  | [] => s

/-- WEIGHT_LOAD_END: the oldest load of address generator B ends (R91, R92, R114). -/
def State.landLoad (s : State) (c : CoreId) : State :=
  let s := (s.settleAga c).feedLoad c
  let k := s.core c
  match k.agbQ, s.runOf c with
  | f :: rest, some p =>
    if k.agbBlocked f.seq || !k.loadOrdered f || !loadFed k f then s
    else
      let sp := loadSpans k f
      let deep := if bdSrc f.bd = 1 then sp.filterMap (fun x => (s.deepLocal p x.1 x.2).map (fun a => (a, x.2))) else []
      s.withNear c f.reads (fun s => s.withDeep c deep (fun s =>
        s.withAcc c (if f.isImport then (s.core c).initKeys f.arrays f.first f.count else []) (fun s =>
          let bss := s.loadBytes c p f
          let k := { s.core c with agbQ := rest }
          let k := if f.isImport then k.importTiles f bss else k.writeShadow f bss
          let s := if f.isImport then s.freshChecker c (rangeKeys f.arrays f.first f.count) else s
          (s.modCore c (fun _ => k)).settleAga c)))
  | _, _ => s

end Sys2Proof.Machine
end

