-- ==== Sys2Proof/Machine/Dma.lean ====
section
/-!
DEFINITION. The DMA streams of a core: commands, host accesses by pages, remote windows, codecs, the expander (R159, R199,
R211, R212, R245, R287, R311, R312, R321, R323, R340, R344).
-/
namespace Sys2Proof.Machine

/-! ### The two sides of a command -/

/-- Where a side of a command lies. -/
inductive Side where
  | near | deep | host | expander
  deriving DecidableEq, Repr

def DmaFlight.src (f : DmaFlight) : Side :=
  if f.exp then .host
  else if ddOut f.dd then (if ddNonear f.dd then .deep else .near)
  else if ddFar f.dd = 1 then .host else .deep

def DmaFlight.dst (f : DmaFlight) : Side :=
  if f.exp then .expander
  else if ddOut f.dd then (if ddFar f.dd = 1 then .host else .deep)
  else if ddNonear f.dd then .deep else .near

/-- The address of row r on the near side and on the far side (R211). -/
def DmaFlight.nearRow (f : DmaFlight) (r : Nat) : Nat := a32 (f.near + r * ddNstr f.dd)
def DmaFlight.farRow (f : DmaFlight) (r : Nat) : Nat :=
  if ddFar f.dd = 1 then (f.far + r * ddFstr f.dd) % 2 ^ 48 else a32 (f.far + r * ddFstr f.dd)
def DmaFlight.srcRow (f : DmaFlight) (r : Nat) : Nat := if ddOut f.dd then f.nearRow r else f.farRow r
def DmaFlight.dstRow (f : DmaFlight) (r : Nat) : Nat := if ddOut f.dd then f.farRow r else f.nearRow r

/-- ZB64 in use. -/
def DmaFlight.zb (f : DmaFlight) : Bool := decide (ddCodec f.dd = 1)

/-- Bytes between rows in the source's byte order. -/
def DmaFlight.stride (f : DmaFlight) : Nat := if f.zb && !ddOut f.dd then zbSlot f.len else f.len

/-- Messages of an access to a peer: at most 1,024 B from a flit boundary; a write that starts inside a flit writes that
flit alone, since only the last data flit has byte enables (R339). -/
def remoteSegs (write : Bool) (peer : Nat × Nat) : Nat → Nat → Nat → Nat → List Seg
  | 0, _, _, _ => []
  | n + 1, o, len, off =>
    if len = 0 then []
    else
      let k := min len (if write && decide (o % 32 ≠ 0) then 32 - o % 32 else 1024 - o % 32)
      { va := o, len := k, off := off, peer := some peer } :: remoteSegs write peer n (o + k) (len - k) (off + k)

/-- Pieces of a remote access. -/
def remotePieces (write : Bool) (peer win o len off : Nat) : List Seg :=
  remoteSegs write (peer, win) (len / 992 + 3) o len off

/-- Concatenated bytes of [o, o + n) of what a command collected. -/
def gather (got : Tab (List Byte)) (o n : Nat) : List Byte :=
  ((got.filter (fun p => decide (o ≤ p.1 ∧ p.1 < o + n))).flatMap (·.2)).take n

/-- A near write cut at slot boundaries. -/
def splitSlots (off : Nat) (bs : List Byte) : List (Nat × List Byte) :=
  (slotsOf (off, bs.length)).map (fun n =>
    let lo := max off (n * 1024)
    let hi := min (off + bs.length) (n * 1024 + 1024)
    (lo, (bs.drop (lo - off)).take (hi - lo)))

/-! ### Host and remote accesses -/

/-- A fault of a stream's host access ends the step (R316). -/
def State.streamFault (s : State) (c : CoreId) (t : Fin 8) (ast addr : Nat) (a : Access) (f : XFault) : State :=
  match s.runOf c with
  | none => s
  | some p =>
    let w := causeStream f a c t.val
    (s.reportFault addr ast w).failRun p (causeStatus f.cause) w

/-- The kind of access a command's host pieces make. -/
def DmaFlight.access (f : DmaFlight) : Access :=
  if f.phase < 3 then .read else if ddAtom f.dd = 0 then .write else .atomic

/-- The port opcode of a write piece (Table 12-4). -/
def DmaFlight.writeOp (f : DmaFlight) (pa len : Nat) : PortOp :=
  match ddAtom f.dd with
  | 1 => .addf32
  | 2 => .addbf16
  | _ => if pa % 64 = 0 ∧ len % 64 = 0 then .write else .writep

/-- The port of a core's cluster (R18). -/
def portOf (c : CoreId) : PortId := clusterOf c

/-- Present the next read of a stream's walk (R308); without an ID the walk waits for one. -/
def State.presentWalk (s : State) (c : CoreId) (t : Fin 8) (qos : Fin 4) (w : WalkSt) : State :=
  match s.present (portOf c) .read (w.entry / 64 * 64) 1 qos false (.walkStream c t) [] with
  | some s => s.modHead c t (fun f => { f with walk := some { w with asked := true } })
  | none => (s.modHead c t (fun f => { f with walk := some { w with asked := false } })).await (portOf c) (.stream c t)

/-- A walk of a stream starts; one of an RT stream counts in RT_WALKS with its event (R317). -/
def State.countStreamWalk (s : State) (c : CoreId) (rt : Bool) : State :=
  let s := s.countWalk
  if rt then ({ s with xlate := { s.xlate with rtWalks := s.xlate.rtWalks + 1 } }).health 0x0B (some c) 0 0xFFFF else s

/-- The bytes of a write piece with their addresses: an atomic add enables whole elements only (R290). -/
def DmaFlight.writeData (f : DmaFlight) (g : Seg) (pa : Nat) : List (Nat × Byte) :=
  let es := match ddAtom f.dd with | 1 => 4 | 2 => 2 | _ => 1
  ((slice f.out g.off g.len).zipIdx.map (fun b => (pa + b.2, b.1))).filter (fun x =>
    decide (pa ≤ x.1 / es * es ∧ x.1 / es * es + es ≤ pa + g.len))

/-- Present the first piece of a command's host access, or begin its walk (R303, R311); none while it waits for an ID. -/
def State.hostPiece (s : State) (c : CoreId) (t : Fin 8) (x : StepRec) (f : DmaFlight) (g : Seg) : State × Bool :=
  let qos := qosOf x.rt x.cls
  let s := (s.streamParity c t x.ast g.va).tableParity (clusterOf c) x.ast g.va
  match s.streamLookup c t x.rt x.ast g.va with
  | some (l, s) =>
    match l.rights f.access with
    | some e => (s.streamFault c t x.ast g.va f.access e, true)
    | none =>
      let pa := l.addr g.va
      let beats := (pa % 64 + g.len + 63) / 64
      let o := Owner.dma c t f.seq g.off g.len (pa % 64)
      let wr := decide (f.phase = 3)
      let data := if wr then f.writeData g pa else []
      match s.present (portOf c) (if wr then f.writeOp pa g.len else .read) (pa / 64 * 64) beats qos false o data with
      | none => (s.await (portOf c) (.stream c t), false)
      | some s =>
        let s := s.modHead c t (fun f => { f with todo := f.todo.drop 1, openTx := f.openTx + 1 })
        (if wr then s.modCore c (fun k => { k with portMask := k.portMask ||| BitVec.ofNat 4 (2 ^ (portOf c).val) }) else s, true)
  | none =>
    match s.walkBegin (clusterOf c) x.ast g.va with
    | .error e => ((if e.cause = 2 then s.countStreamWalk c x.rt else s).streamFault c t x.ast g.va f.access e, true)
    | .ok w => ((s.countStreamWalk c x.rt).presentWalk c t qos w, true)

/-- Flits that the reads and flushes open toward other engines reserve in the response buffer (R340). -/
def State.reservedFlits (s : State) : Nat :=
  (s.link.reads.map (fun r => (r.lead + r.len + 31) / 32 + 1)).sum + s.link.flushes.length

/-- Send the message of a remote piece; a peer that is not UP ends the step (R352). -/
def State.remotePiece (s : State) (c : CoreId) (t : Fin 8) (p : PartId) (f : DmaFlight) (g : Seg) (e w : Nat) : State × Bool :=
  let lead := g.va % 32
  let n := (lead + g.len + 31) / 32
  let mk := fun (typ nd arg tag : Nat) (data : List Flit) =>
    ({ msg := { hdr := msgHeader typ s.pins.inst.val e w p.val tag nd (g.va - lead) arg 0 0 0, data := data },
       core := some c, stream := t, seq := f.seq } : TxMsg)
  if (s.link.peerState.toList.getD e 0) ≠ 1 then (s.failRun p 0x0F e, true)
  else if f.phase < 3 then
    if 2048 < s.reservedFlits + n + 1 then (s, false)
    else
      let tag := s.link.nextTag
      let r : RemoteRead := { tag := tag, engine := e, core := c, stream := t, seq := f.seq, off := g.off, len := g.len, lead := lead, live := true }
      let s := { s with link := { s.link with reads := s.link.reads ++ [r], nextTag := (tag + 1) % 256 } }
      ((s.sendMsg (mk 2 0 (32 * n) tag [])).modHead c t (fun f => { f with todo := f.todo.drop 1 }), true)
  else
    let bytes := List.replicate lead 0 ++ slice f.out g.off g.len
    let last := (lead + g.len) - 32 * (n - 1)
    let en := 2 ^ last - (if n = 1 then 2 ^ lead else 1)
    let s := (s.sendMsg (mk 1 n en 0 (bytesFlits n bytes))).modHead c t (fun f => { f with todo := f.todo.drop 1 })
    (s.modCore c (fun k => { k with remoteDirty := k.remoteDirty ||| BitVec.ofNat 8 (2 ^ e) }), true)

/-- Present the pieces of the head command while they can be presented; a miss stalls the stream until its own walk returns
(R311). -/
def State.pumpN (s : State) (c : CoreId) (t : Fin 8) : Nat → State
  | 0 => s
  | n + 1 =>
    match s.dmaHead c t, s.stepOf c with
    | some f, some (p, _, x) =>
      match f.walk, f.todo with
      | some w, _ => if w.asked then s else s.presentWalk c t (qosOf x.rt x.cls) w
      | none, g :: _ =>
        let r := match g.peer with
          | some (e, w) => s.remotePiece c t p f g e w
          | none => s.hostPiece c t x f g
        if r.2 then r.1.pumpN c t n else r.1
      | none, [] => s
    | _, _ => s

def State.pumpDma (s : State) (c : CoreId) (t : Fin 8) : State :=
  match s.dmaHead c t with
  | some f => s.pumpN c t (f.todo.length + 1)
  | none => s

/-! ### Collecting the source -/

/-- Parts of a deep-scratch source: local ranges (DSA, length, offset) and pieces of remote ones; none when illegal. -/
def State.deepParts (s : State) (p : PartId) (ps : List (Nat × Nat × Nat)) : Option (List (Nat × Nat × Nat) × List Seg) :=
  ps.foldl (fun r x => match r with
    | none => none
    | some (ls, gs) => match s.deepPlace p x.1 x.2.1 false with
      | some (.dsa a) => some (ls ++ [(a, x.2.1, x.2.2)], gs)
      | some (.remote e w o) => some (ls, gs ++ remotePieces false e w o x.2.1 x.2.2)
      | none => none) (some ([], []))

/-- Begin to collect parts (address, length, offset) of the source. -/
def State.collect (s : State) (c : CoreId) (t : Fin 8) (p : PartId) (f : DmaFlight) (phase : Nat)
    (ps : List (Nat × Nat × Nat)) : State :=
  match f.src with
  | .deep =>
    match s.deepParts p ps with
    | none => s.failCore c 0x03 0
    | some (ls, gs) => s.withDeep c (ls.map (fun x => (x.1, x.2.1))) (fun s =>
        s.modHead c t (fun f => { f with
          phase := phase, todo := gs,
          got := ls.foldl (fun g x => if x.2.1 = 0 then g else Tab.put g x.2.2 (s.deepRead x.1 x.2.1)) f.got }))
  | _ => s.modHead c t (fun f => { f with phase := phase, todo := ps.flatMap (fun x => hostSegs x.1 x.2.1 x.2.2) })

/-- Start the head command of a stream when its tags let it (R169, R212). -/
def State.startDma (s : State) (c : CoreId) (t : Fin 8) : State :=
  match s.dmaHead c t, s.runOf c with
  | some f, some p =>
    if f.phase ≠ 0 then s
    else match f.src with
      | .near =>
        let s := s.goFeed c (readTag (ddNtag f.dd)) f.feed (fun fd k => { k with dma := upd k.dma t (fun d =>
          { d with q := match d.q with | g :: r => { g with feed := fd, reads := fd.todo } :: r | [] => [] }) })
        match s.dmaHead c t with
        | some f =>
          if !f.feed.todo.isEmpty then s
          else s.withNear c f.reads (fun s =>
            let k := (s.core c).withCap f.feed
            let got := (List.range f.rows).foldl (fun g r =>
              if f.len = 0 then g else Tab.put g (r * f.len) (k.nearAt f.win (f.nearRow r) f.len)) []
            s.modHead c t (fun f => { f with phase := 1, reads := [], got := got }))
        | none => s
      | _ =>
        let s := if f.exp then s.modCore c (fun k => { k with dma := upd k.dma t (fun d => { d with prefixTabs := [] }) }) else s
        let n := if f.zb && !ddOut f.dd then 64 else f.len
        s.collect c t p f 1 ((List.range f.rows).map (fun r => (f.srcRow r, n, r * f.stride)))
  | _, _ => s

/-- Whether everything a command asked for has come back. -/
def State.collected (s : State) (c : CoreId) (t : Fin 8) (f : DmaFlight) : Bool :=
  f.todo.isEmpty && decide (f.openTx = 0) && f.walk.isNone &&
    !(s.link.reads.any (fun r => decide (r.core = c ∧ r.stream = t ∧ r.seq = f.seq)))

/-! ### Delivering -/

/-- The rows a command delivers, decoded or encoded; none is the failure of R159. -/
def DmaFlight.rowsOut (f : DmaFlight) : Option (List (List Byte)) :=
  (List.range f.rows).mapM (fun r =>
    let bs := gather f.got (r * f.stride) f.stride
    if !f.zb then some bs
    else if ddOut f.dd then some (zbRow bs)
    else zbRowDecode f.len bs)

/-- Start offsets of byte strings laid end to end. -/
def offsets : Nat → List (List Byte) → List Nat
  | _, [] => []
  | o, b :: r => o :: offsets (o + b.length) r

/-- Whether a KV append lies in the step's KV range (R245). -/
def kvOk (d : StepDesc) (va len : Nat) : Bool := d.kv && decide (d.kvVa ≤ va) && decide (va + len ≤ d.kvVa + d.kvMax)

/-- Deliver the rows to the destination. -/
def State.deliver (s : State) (c : CoreId) (t : Fin 8) (p : PartId) (x : StepRec) (f : DmaFlight) (rows : List (List Byte)) :
    State :=
  let dsts := rows.zipIdx.map (fun y => (f.dstRow y.2, y.1))
  match f.dst with
  | .near =>
    s.modHead c t (fun f => { f with phase := 3, land := dsts.flatMap (fun y => splitSlots (f.win.phys y.1) y.2) })
  | .deep =>
    match dsts.mapM (fun y => (s.deepPlace p y.1 y.2.length true).map (fun z => (z, y.2))) with
    | none => s.failCore c 0x03 0
    | some zs =>
      let offs := offsets 0 rows
      let dw := zs.filterMap (fun z => match z.1 with
        | .dsa a => if z.2 = [] then none else some ({ seq := f.seq, dsa := a, bs := z.2 } : DeepWrite) | _ => none)
      let segs := (zs.zip offs).flatMap (fun z => match z.1.1 with
        | .remote e w o => remotePieces true e w o z.1.2.length z.2 | _ => [])
      (s.modHead c t (fun f => { f with phase := 3, todo := segs, out := if segs = [] then [] else rows.flatten })).modCore c
        (fun k => { k with deepW := k.deepW ++ dw })
  | .host =>
    if ddKva f.dd && !(dsts.all (fun y => kvOk x.desc y.1 y.2.length)) then s.failCore c 0x03 0
    else
      let segs := (dsts.zip (offsets 0 rows)).flatMap (fun y => hostSegs y.1.1 y.1.2.length y.2)
      s.modHead c t (fun f => { f with phase := 3, todo := segs, out := rows.flatten })
  | .expander =>
    (s.modHead c t (fun f => { f with phase := 3, out := rows.flatten, lastBlock := none })).expand c

/-- Go on from a finished phase: the rest of the ZB64 row slots, then the delivery (R159). -/
def State.turnDma (s : State) (c : CoreId) (t : Fin 8) : State :=
  match s.dmaHead c t, s.stepOf c with
  | some f, some (p, _, x) =>
    if f.phase = 0 ∨ f.phase = 3 ∨ !s.collected c t f then s
    else if f.phase = 1 ∧ f.zb ∧ !ddOut f.dd then
      let ps := (List.range f.rows).map (fun r => zbPayload (gather f.got (r * f.stride) 64))
      if ps.any (fun n => decide (zbSlot f.len - 4 < n)) then s.failCore c 0x05 0
      else s.collect c t p f 2 (ps.zipIdx.filterMap (fun y =>
        let n := roundUp (4 + y.1) 64
        if 64 < n then some (f.srcRow y.2 + 64, n - 64, y.2 * f.stride + 64) else none))
    else match f.rowsOut with
      | none => s.failCore c 0x05 0
      | some rows => s.deliver c t p x f rows
  | _, _ => s

/-- Everything the head of a stream can do now. -/
def State.driveDma (s : State) (c : CoreId) (t : Fin 8) : State :=
  let s := ((s.expand c).startDma c t).pumpDma c t
  let s := (s.turnDma c t).pumpDma c t
  (s.turnDma c t).pumpDma c t

/-! ### Landing in near scratch, and the end of a command -/

/-- Land the near pieces of the head command in order while their slots let them (R163, R168). -/
def State.landPieces (s : State) (c : CoreId) (t : Fin 8) : Nat → State
  | 0 => s
  | n + 1 =>
    match s.dmaHead c t with
    | none => s
    | some f =>
      match f.land with
      | [] => s
      | (o, bs) :: rest =>
        let k := s.core c
        let slot := o / 1024
        let set := decide (ddNtag f.dd = 1)
        if slot ∈ f.begun ∨ (k.warFree f.seq [(o, bs.length)] ∧ (!set ∨ !k.slotFull slot)) then
          let s := s.modHead c t (fun f => { f with land := rest, begun := if slot ∈ f.begun then f.begun else slot :: f.begun })
          let s := s.nearPut c o bs
          let s := if set && !(rest.any (fun x => decide (x.1 / 1024 = slot))) && (s.dmaHead c t).isSome then
              s.modCore c (fun k => k.setTags (o, bs.length)) else s
          s.landPieces c t n
        else s

def State.landNear (s : State) (c : CoreId) (t : Fin 8) : State :=
  match s.dmaHead c t with
  | some f => s.landPieces c t f.land.length
  | none => s

/-- Whether the Stack Link port still holds flits of a command (R199). -/
def State.linkHolds (s : State) (c : CoreId) (t : Fin 8) (seq : Nat) : Bool :=
  let mine := fun (m : TxMsg) => decide (m.core = some c ∧ m.stream = t ∧ m.seq = seq)
  s.link.ports.toList.any (fun p => p.txReq.any mine || (!p.curReq.isEmpty && p.curOwner.any mine))

/-- Land the deep-scratch writes of one command. -/
def State.landDeepOf (s : State) (c : CoreId) (seq : Nat) : State :=
  let ws := (s.core c).deepW.filter (fun w => decide (w.seq = seq))
  let s := s.modCore c (fun k => { k with deepW := k.deepW.filter (fun w => decide (w.seq ≠ seq)) })
  ws.foldl (fun s w =>
    let r := s.deepWrite w.dsa w.bs
    if r.2 then r.1.failCore c 0x04 1 else r.1) s

/-- DMA_COMMAND_END (R199): the head command of a stream ends if nothing of it is left to do, and the next one starts. -/
def State.endDma (s : State) (c : CoreId) (t : Fin 8) : State :=
  let s := (s.driveDma c t).landNear c t
  match s.dmaHead c t with
  | none => s
  | some f =>
    if f.phase ≠ 3 ∨ !s.collected c t f ∨ f.land ≠ [] ∨ (f.exp ∧ f.out ≠ []) ∨ s.linkHolds c t f.seq then s
    else
      let s := s.landDeepOf c f.seq
      let s := s.modCore c (fun k => { k with dma := upd k.dma t (fun d => { d with q := d.q.drop 1 }) })
      s.driveDma c t

/-- DEEP_SCRATCH_WRITE_LANDED (R173): the oldest deep-scratch write of the core lands. -/
def State.landOneDeep (s : State) (c : CoreId) : State :=
  match (s.core c).deepW with
  | [] => s
  | w :: rest =>
    let s := s.modCore c (fun k => { k with deepW := rest })
    let r := s.deepWrite w.dsa w.bs
    if r.2 then r.1.failCore c 0x04 1 else r.1

/-! ### Issue -/

/-- Deep-scratch rows of a command: address, length, write. -/
def DmaFlight.deepRows (f : DmaFlight) : List (Nat × Nat × Bool) :=
  let n := if f.zb then 0 else f.len
  (if f.src = .deep then (List.range f.rows).map (fun r => (f.srcRow r, n, false)) else []) ++
  (if f.dst = .deep then (List.range f.rows).map (fun r => (f.dstRow r, n, true)) else [])

/-- Bytes and rows of a command: from the register sL, or from the descriptor where it is s0; no row counts as one (R211). -/
def dmaSize (k0 : Core) (dd : Fin 8) (sL : SReg) : Nat × Nat :=
  let b := k0.ddB dd
  let x := (k0.sreg sL).toNat
  if sL.val = 0 then (fld b 31 0, max 1 (fld b 47 32)) else (fld x 31 0, max 1 (fld x 47 32))

/-- A DMOV or DEXP as it enters its stream, without the near spans it reads (R211). -/
def dmaOf (k0 : Core) (exp : Bool) (dd : Fin 8) (near : Nat) (sF sL : SReg) : DmaFlight :=
  let a := k0.ddA dd
  let y := (k0.sreg sF).toNat
  { seq := k0.seq, exp := exp, dd := a, near := near, far := if ddFar a = 1 then y % 2 ^ 48 else y % 2 ^ 32,
    len := (dmaSize k0 dd sL).1, rows := (dmaSize k0 dd sL).2, win := k0.win, reads := [], feed := ⟨[], [], []⟩, phase := 0, todo := [], openTx := 0,
    walk := none, got := [], out := [], lastBlock := none, land := [], begun := [] }

/-- The near rows of a command. -/
def DmaFlight.nearSpans (f : DmaFlight) : List Span :=
  if f.src = .near ∨ f.dst = .near then (List.range f.rows).map (fun r => (f.nearRow r, f.len)) else []

/-- The command with the near reads it has to make, by their tags (R168). -/
def DmaFlight.armed (f : DmaFlight) (xs : List Span) : DmaFlight :=
  if f.src = .near then { f with reads := xs, feed := Feed.start (readTag (ddNtag f.dd)) xs } else f

/-- Whether its deep-scratch rows lie in windows that give the right (R175, R178). -/
def State.dmaDeepOk (s : State) (c : CoreId) (f : DmaFlight) : Bool :=
  match s.runOf c with
  | some p => f.deepRows.all (fun d => (s.deepPlace p d.1 d.2.1 d.2.2).isSome)
  | none => false

/-- DMOV and DEXP (R211): length and addresses are taken now and checked (R164, R175). -/
def State.issueDma (s : State) (c : CoreId) (k0 : Core) (exp : Bool) (t dd : Fin 8) (near : Nat) (sF sL : SReg) : State :=
  let f := dmaOf k0 exp dd near sF sL
  s.checked c k0.win f.nearSpans (fun xs =>
    if s.dmaDeepOk c f then
      (s.modCore c (fun k => { k with dma := upd k.dma t (fun d =>
        { d with q := d.q ++ [f.armed xs] }) })).driveDma c t
    else s.failCore c 0x03 0)

end Sys2Proof.Machine
end

