-- ==== Sys2Proof/Machine/Mvp.lean ====
section
/-!
DEFINITION. The matrix-vector path: passes, read-outs, activation-store loads and tap loads (R117 to R132, R154).
-/
namespace Sys2Proof.Machine

/-! ### The activation store (R121) -/

/-- Key of a byte of store row v. -/
def storeKey (v off : Nat) : Nat := v * 16384 + off

/-- n bytes of store row v; a byte not loaded in the step is 0 (R121). -/
def Core.storeRead (k : Core) (v off n : Nat) : List Byte := (List.range n).map (fun i => Tab.get 0 k.store (storeKey v (off + i)))

/-- Load bytes into a store row (R121). -/
def Core.storeWrite (k : Core) (v off : Nat) (bs : List Byte) : Core :=
  { k with store := (bs.zipIdx).foldl (fun t x => Tab.set 0 t (storeKey v (off + x.2)) x.1) k.store }

/-! ### Issue -/

/-- G of a GSEL code (Table 8-7). -/
def gSize (gsel : Nat) : Nat := 32 * 2 ^ gsel

/-- Scale bytes of a pass: the groups and superblocks of each output (R210, R64). -/
def mvScaleSpans (f : MvFlight) : List Span :=
  if !bdSc f.bd then []
  else
    let g := gSize (bdGsel f.bd)
    (List.range f.n).flatMap (fun n =>
      if bdSmodeB f.bd then [(a32 (f.sa + n * bdSpr f.bd), 2 * ceilDiv f.k g)]
      else [(a32 (f.sa + n * bdSpr f.bd), ceilDiv f.k g), (a32 (f.ssa + n * bdSpr f.bd / 8), 2 * ceilDiv f.k (16 * g))])

/-- A lane of an activation register narrowed to AFMT (R121): an integer format takes INT32 lanes and clamps them. -/
def vregElem (f : Fmt) (x : Word) : Nat × Flags :=
  if f.isInt then
    let r := clampInt (-(2 ^ (f.bits - 1) : Nat)) ((2 ^ (f.bits - 1) - 1 : Nat) : Int) x.toInt
    (encInt f.bits r.1, flagIf r.2 fCLIP)
  else narrow f (val32 x)

/-- Records of a read-out or of the zero points: n of them at RA. -/
def mvRecs (k : Core) (tb n : Nat) : List ReqRec :=
  (List.range n).map (fun i => reqRecOf (leNat (k.nearAt k.win (a32 (k.areg (vtRa tb) + 8 * i)) 8)))

/-- The read-out of a template as read at its issue. A near-scratch destination or a record address that is not a multiple of
64 or of 8 is used as it stands: the verifier cannot see it, and the spec gives no consequence (DESIGN CHOICE; R127, assumption
log 55). -/
def mvPlanOf (k : Core) (ta tb n : Nat) : MvPlan :=
  { kind := vtRead ta, ofmt := vtOfmt ta, toNs := vtNs ta, vd := vtVd ta, da := k.areg (vtDa tb), vstr := vtVstr tb,
    dtag := decide (vtDtag tb = 1), recs := if vtRead ta = 2 then mvRecs k tb n else [], os := k.os,
    isInt := (fmtD (vtAfmt ta)).isInt && (fmtD (vtWfmt ta)).isInt, win := k.win }

/-- Bits of an element that a read-out packs. -/
def MvPlan.bits (p : MvPlan) : Nat := if p.kind = 2 then requantBits p.ofmt else (fmtD p.ofmt).bits

/-- Near spans a read-out writes. -/
def MvPlan.spans (p : MvPlan) (v n : Nat) : List Span :=
  if p.toNs then (List.range v).map (fun i => (a32 (p.da + i * p.vstr), (n * p.bits + 7) / 8)) else []

/-- Whether an MVP template multiplies integers. -/
def vtInt (ta : Nat) : Bool := (fmtD (vtAfmt ta)).isInt && (fmtD (vtWfmt ta)).isInt

/-- The activation vectors of an MVPASS from registers, narrowed, with the flags of each element (R121). -/
def mvRegActs (k0 : Core) (ta v : Nat) : List (List (Nat × Flags)) :=
  (List.range v).map (fun i => ((k0.vreg (vtVa ta + i)).toList.take (vtK ta)).map (vregElem (fmtD (vtAfmt ta))))

/-- An MVPASS with its MVSTREAM as it enters the queue, without the near spans it reads (R118, R121, R127). -/
def mvPassOf (s : State) (c : CoreId) (k0 : Core) (vt v1 : Fin 4) (init last : Bool) (sAcc sAoff : SReg) (bd : Fin 8)
    (a : AReg) : MvFlight :=
  let ta := k0.vtA vt
  let tb := k0.vtB vt
  let d := k0.bd bd
  { seq := k0.seq, isPass := true, v := v1.val + 1, n := vtN ta, acc := k0.s32 sAcc, init := init, afmt := vtAfmt ta,
    wfmt := vtWfmt ta, k := vtK ta, aoff := k0.s32 sAoff,
    vregs := if vtVreg ta then some ((mvRegActs k0 ta (v1.val + 1)).map (fun r => r.map (·.1))) else none,
    bd := d, a := k0.areg a.val, sa := k0.areg (bdSa d), ssa := k0.areg (bdSsa d), zp := k0.zp,
    zw := if vtInt ta then (mvRecs k0 tb (vtN ta)).map (·.zw) else [],
    codebook := s.codebook c (k0.book (0x18 + bd.val)),
    plan := if last && decide (vtRead ta ≠ 0) then some (mvPlanOf k0 ta tb (vtN ta)) else none, win := k0.win,
    reads := [], tag := if bdSrc d = 0 then readTag (bdTag d) else .free, feed := ⟨[], [], []⟩, out := none }

/-- The pass with the near bytes it has to read, and those of its stream still to be made by their tags (R168). -/
def MvFlight.armed (f : MvFlight) (xs : List Span) : MvFlight :=
  { f with reads := xs, feed := Feed.start f.tag ((mvWeightSpans f).map (fun x => (f.win.phys x.1, x.2))) }

/-- The record span that an MVPASS reads at issue. -/
def mvPassRecs (k0 : Core) (ta tb : Nat) (last : Bool) : List Span :=
  if vtInt ta || (last && decide (vtRead ta ≠ 0) && decide ((mvPlanOf k0 ta tb (vtN ta)).kind = 2)) then
    [(a32 (k0.areg (vtRa tb)), 8 * vtN ta)] else []

/-- The near spans of its stream and scales. -/
def mvPassNear (f : MvFlight) : List Span := (if bdSrc f.bd = 0 then mvWeightSpans f else []) ++ mvScaleSpans f

/-- The near spans that its chained read-out writes. -/
def mvPassOut (f : MvFlight) : List Span := match f.plan with | some p => p.spans f.v f.n | none => []

/-- Whether its deep-scratch spans lie in local windows (R175, R178). -/
def State.mvDeepOk (s : State) (c : CoreId) (f : MvFlight) : Bool :=
  match s.runOf c with
  | some p => bdSrc f.bd ≠ 1 || (mvWeightSpans f).all (fun x => (s.deepLocal p x.1 x.2).isSome)
  | none => false

/-- MVPASS with its MVSTREAM (R118, R121, R127): registers, records and addresses are read now. -/
def State.issueMvPass (s : State) (c : CoreId) (k0 : Core) (vt v1 : Fin 4) (init last : Bool) (sAcc sAoff : SReg)
    (bd : Fin 8) (a : AReg) : State :=
  let f := mvPassOf s c k0 vt v1 init last sAcc sAoff bd a
  let recs := mvPassRecs k0 (k0.vtA vt) (k0.vtB vt) last
  s.checked c k0.win (recs ++ mvPassNear f ++ mvPassOut f) (fun _ =>
    s.withNear c (recs.map (fun x => (k0.win.phys x.1, x.2))) (fun s =>
      if s.mvDeepOk c f then
        s.modCore c (fun k =>
          let k := if vtVreg (k0.vtA vt) then
              k.raiseMv (orFlags ((mvRegActs k0 (k0.vtA vt) (v1.val + 1)).flatten.map (·.2))) else k
          { k with mvQ := k.mvQ ++ [f.armed ((mvPassNear f).map (fun x => (k0.win.phys x.1, x.2)))] })
      else s.failCore c 0x03 0))

/-- An MVREAD as it enters the queue (R132). -/
def mvReadOf (k0 : Core) (vt v1 : Fin 4) (sAcc sN : SReg) : MvFlight :=
  let ta := k0.vtA vt
  { seq := k0.seq, isPass := false, v := v1.val + 1, n := k0.s32 sN, acc := k0.s32 sAcc, init := false, afmt := vtAfmt ta,
    wfmt := vtWfmt ta, k := 0, aoff := 0, vregs := none, bd := 0, a := 0, sa := 0, ssa := 0, zp := 0, zw := [],
    codebook := [], plan := some (mvPlanOf k0 ta (k0.vtB vt) (k0.s32 sN)), win := k0.win, reads := [],
    tag := .free, feed := ⟨[], [], []⟩, out := none }

/-- The record span that an MVREAD of n outputs reads at issue. -/
def mvReadRecs (k0 : Core) (ta tb n : Nat) : List Span :=
  if (mvPlanOf k0 ta tb n).kind = 2 then [(a32 (k0.areg (vtRa tb)), 8 * n)] else []

/-- MVREAD (R132). -/
def State.issueMvRead (s : State) (c : CoreId) (k0 : Core) (vt v1 : Fin 4) (sAcc sN : SReg) : State :=
  let ta := k0.vtA vt
  let tb := k0.vtB vt
  let n := k0.s32 sN
  let plan := mvPlanOf k0 ta tb n
  let recs := mvReadRecs k0 ta tb n
  if plan.kind = 0 then s
  else s.checked c k0.win (recs ++ plan.spans (v1.val + 1) n) (fun _ =>
    s.withNear c (recs.map (fun x => (k0.win.phys x.1, x.2))) (fun s =>
      s.modCore c (fun k => { k with mvQ := k.mvQ ++ [mvReadOf k0 vt v1 sAcc sN] })))

/-! ### Arithmetic -/

/-- The weight codes of output n, entries 0 to K − 1. TRANS of the descriptor has no effect: the MVP has no transposed loads
(R122), and no check of Table 9-7 names the pair (DESIGN CHOICE; assumption log 56). -/
def State.mvCodes (s : State) (c : CoreId) (p : PartId) (f : MvFlight) (n : Nat) : List Nat :=
  let wf := fmtD f.wfmt
  let o := a32 (f.a + n * bdBstr f.bd)
  let len := wf.bytes f.k
  match bdSrc f.bd with
  | 0 => let bs := ((s.core c).withCap f.feed).nearAt f.win o len; (List.range f.k).map (elem wf bs)
  | 1 =>
    let bs := match s.deepLocal p o len with | some a => s.deepRead a len | none => []
    (List.range f.k).map (elem wf bs)
  | _ =>
    let out := f.feed.bytes
    (List.range f.blocks).flatMap (fun b =>
      let bs := slice out (b * f.n * wf.bytes 32 + n * wf.bytes (f.blockLen b)) (wf.bytes (f.blockLen b))
      (List.range (f.blockLen b)).map (elem wf bs))

/-- The activation codes of vector v. -/
def mvActs (k : Core) (f : MvFlight) (v : Nat) : List Nat :=
  match f.vregs with
  | some r => nth [] r v
  | none => let af := fmtD f.afmt
            let bs := k.storeRead v f.aoff (af.bytes f.k)
            (List.range f.k).map (elem af bs)

/-- The block sum of R123: products by the fixed pairwise tree, absent leaves skipped; exact for integers. -/
def mvBlock (f : MvFlight) (n b : Nat) (acts codes : List Nat) : Word × Flags :=
  let af := fmtD f.afmt
  let wf := fmtD f.wfmt
  let xs := ((acts.drop (32 * b)).take (f.blockLen b)).zip ((codes.drop (32 * b)).take (f.blockLen b))
  if af.isInt && wf.isInt then
    (BitVec.ofInt 32 ((xs.map (fun x => actInt af f.zp (some x.1) * (intVal wf x.2 - zpVal wf (nth 0 f.zw n)))).sum), 0)
  else
    let cb := bookEntries f.codebook
    let ps := xs.map (fun x => product (actVal af f.zp (some x.1)) (elemVal wf cb x.2) none)
    let r := tree add32 5 (ps.map (·.1))
    (r.1, orFlags (ps.map (·.2)) ||| r.2)

/-- SAT of the product tables that a block builds for one vector (R126): each of the 16 products of an activation is rounded. -/
def mvTableFlags (f : MvFlight) (b : Nat) (acts : List Nat) : Flags :=
  if fmtD f.wfmt = .bg4 then
    orFlags (((acts.drop (32 * b)).take (f.blockLen b)).flatMap (fun x => (bookEntries f.codebook).map (fun e =>
      (product (actVal (fmtD f.afmt) f.zp (some x)) (decFp specBF16 e.toNat) none).2 &&& fSAT)))
  else 0

/-- Group scale and superscale of output n in block b. -/
def mvScale (k : Core) (f : MvFlight) (n b : Nat) : ScaleRec :=
  let g := gSize (bdGsel f.bd)
  let sa := f.sa + n * bdSpr f.bd
  if bdSmodeB f.bd then ⟨leNat (k.nearAt f.win (a32 (sa + 2 * (32 * b / g))) 2), 0x3F80⟩
  else ⟨leNat (k.nearAt f.win (a32 (sa + 32 * b / g)) 1),
        leNat (k.nearAt f.win (a32 (f.ssa + n * bdSpr f.bd / 8 + 2 * (32 * b / (16 * g)))) 2)⟩

/-- The scaled block sum (R124). -/
def mvTerm (k : Core) (f : MvFlight) (n b : Nat) (acts codes : List Nat) : Word × Flags :=
  let p := mvBlock f n b acts codes
  let int := (fmtD f.afmt).isInt && (fmtD f.wfmt).isInt
  if int || !bdSc f.bd then p
  else
    let sc := scaleFactor (bdSmodeB f.bd) (mvScale k f n b)
    let r := scalePass sc.1 p.1
    (r.1, p.2 ||| sc.2 ||| r.2)

/-- Whether a pass forms INT32 entries. -/
def MvFlight.int (f : MvFlight) : Bool := (fmtD f.afmt).isInt && (fmtD f.wfmt).isInt

/-- Whether an entry is initialised by the pass (R124, R130). -/
def mvFresh (k : Core) (f : MvFlight) (v n : Nat) : Bool :=
  f.init || !Tab.get false k.mvInit (mvKey v n) || (Tab.get false k.mvFp (mvKey v n) != !f.int)

/-- Keys of the words that a pass reads and modifies: an entry is combined, or only half of the word is written. -/
def mvRmwKeys (k : Core) (f : MvFlight) : List Nat :=
  (List.range f.v).flatMap (fun v => ((List.range f.n).map (· + f.acc)).filterMap (fun n =>
    let m := if n % 2 = 0 then n + 1 else n - 1
    if mvFresh k f v n && decide (f.acc ≤ m) && decide (m < f.acc + f.n) && mvFresh k f v m then none else some (mvKey v n)))

/-- Keys of the entries of an operation. -/
def mvKeys (f : MvFlight) : List Nat := (List.range f.v).flatMap (fun v => (List.range f.n).map (fun n => mvKey v (f.acc + n)))

/-- The accumulation of a pass: blocks in ascending K order (R124). -/
def State.mvAccumulate (s : State) (c : CoreId) (p : PartId) (f : MvFlight) : Core :=
  let k := s.core c
  let acts := (List.range f.v).map (mvActs k f)
  let k := k.raiseMv (orFlags (acts.flatMap (fun a => (List.range f.blocks).map (fun b => mvTableFlags f b a))))
  let k := (List.range f.n).foldl (fun k n =>
    let codes := s.mvCodes c p f n
    (List.range f.v).foldl (fun k v =>
      (List.range f.blocks).foldl (fun (k : Core) b =>
        let t := mvTerm (s.core c) f n b (nth [] acts v) codes
        (k.writeMv v (f.acc + n) f.int (f.init && decide (b = 0)) t.1).raiseMv t.2) k) k) k
  k.freshAcc (mvKeys f)

/-! ### Read-outs (R132) -/

/-- The entries of vector v that a read-out takes. -/
def mvEntries (k : Core) (f : MvFlight) (v : Nat) : List Word := (List.range f.n).map (fun n => k.mvEntry v (f.acc + n))

/-- The encodings of vector v and their flags (REQUANT or NARROW). -/
def mvNarrow (k : Core) (f : MvFlight) (p : MvPlan) (v : Nat) : List (Nat × Flags) :=
  (narrowRow (if p.kind = 2 then 1 else 2) p.ofmt p.os p.recs (mvEntries k f v)).2

/-- A narrowed element widened to FP32, an integer format as well (Table 5-4). -/
def widenFp (f : Fmt) (x : Nat) : Word := if f.isInt then (to32 (ofInt (intVal f x))).1 else (widenLane f x).1

/-- The lanes of vector v for a vector register destination. -/
def mvWords (k : Core) (f : MvFlight) (p : MvPlan) (v : Nat) : List Word :=
  match p.kind with
  | 1 => mvEntries k f v
  | 2 => (mvNarrow k f p v).map (fun x => BitVec.ofInt 32 (sgn (requantBits p.ofmt) x.1))
  | _ => (mvNarrow k f p v).map (fun x => widenFp (fmtD p.ofmt) x.1)

/-- Write a vector's outputs to registers VD + v × ceil(N / 64) onward. -/
def Core.putMvWords (k : Core) (f : MvFlight) (p : MvPlan) (v : Nat) (ws : List Word) : Core :=
  let r := ceilDiv f.n 64
  (List.range r).foldl (fun (k : Core) q =>
    let i := p.vd + v * r + q
    k.setV i (Vector.ofFn (fun l : Fin 64 => (ws[64 * q + l.val]?).getD ((k.vreg i)[l.val])))) k

/-- Near writes of a read-out, physical. -/
def mvNearWrites (k : Core) (f : MvFlight) (p : MvPlan) : List (Nat × List Byte) :=
  if p.toNs then (List.range f.v).map (fun v =>
    (p.win.phys (a32 (p.da + v * p.vstr)), packBits p.bits ((mvNarrow k f p v).map (·.1)))) else []

/-- Keys of the initialised entries that a read-out takes: nothing else is read (R130). -/
def mvReadKeys (k : Core) (f : MvFlight) : List Nat :=
  ((List.range f.v).flatMap (fun v => (List.range f.n).map (fun n => mvKey v (f.acc + n)))).filter (Tab.get false k.mvInit)

/-- Change an operation of the MVP queue. -/
def Core.modMv (k : Core) (seq : Nat) (g : MvFlight → MvFlight) : Core :=
  { k with mvQ := k.mvQ.map (fun f => if f.seq = seq then g f else f) }

/-- An operation leaves the MVP queue. -/
def Core.dropMv (k : Core) (seq : Nat) : Core := { k with mvQ := k.mvQ.filter (fun f => decide (f.seq ≠ seq)) }

/-- A read-out takes its entries: flags of its narrowing, counts of R75, vector registers; its writes to near scratch are
formed. -/
def State.mvTake (s : State) (c : CoreId) (f : MvFlight) (p : MvPlan) : State :=
  s.withAcc c (mvReadKeys (s.core c) f) (fun s =>
    let k := s.core c
    let fs := if p.kind = 1 then [] else (List.range f.v).flatMap (fun v => (mvNarrow k f p v).map (·.2))
    let ws := mvNearWrites k f p
    let k := (k.raiseMv (orFlags fs)).countNarrow fs.length (clips fs)
    let k := if p.toNs then k.modMv f.seq (fun g => { g with out := some (Puts.start ws) })
      else ((List.range f.v).foldl (fun (q : Core) v => q.putMvWords f p v (mvWords k f p v)) k).dropMv f.seq
    s.modCore c (fun _ => k))

/-- A read-out goes on landing in near scratch; with its last byte it leaves the queue (R168). -/
def State.goMv (s : State) (c : CoreId) (seq : Nat) : State :=
  match (s.core c).mvQ.find? (fun f => decide (f.seq = seq) && !f.isPass) with
  | some f => match f.out, f.plan with
    | some pt, some p =>
      let y := s.landPuts c seq p.dtag pt.todo pt.ent
      y.1.modCore c (fun k => if y.2.todo = [] then k.dropMv seq else k.modMv seq (fun g => { g with out := some y.2 }))
    | _, _ => s
  | none => s

/-- Whether a read-out's destination is free for its first piece, or for the next (R134, R163, R168). -/
def Core.mvMayLand (k : Core) (f : MvFlight) : Bool :=
  match f.plan with
  | none => true
  | some p =>
    if p.toNs then
      match f.out with
      | none => k.mayWrite f.seq ((Puts.start (mvNearWrites k f p)).todo.take 1) p.dtag
      | some pt => match pt.todo with
        | w :: _ => decide (w.1 / 1024 ∈ pt.ent) || k.mayWrite f.seq [w] p.dtag
        | [] => true
    else !k.olderV f.seq (mvRegs p f.v f.n)

/-- Whether two store ranges of a row meet. -/
def storeMeets (f : MvFlight) (row : Fin 4) (dst len : Nat) : Bool :=
  f.isPass && f.vregs.isNone && decide (row.val < f.v) && decide (0 < len) && decide (dst < f.aoff + (fmtD f.afmt).bytes f.k) &&
    decide (f.aoff < dst + len)

/-- Whether the activation-store loads issued before a pass into bytes that it reads have ended (R131). A load of the same bundle
comes after the pass: every slot of a bundle reads before any write of the bundle takes effect (DEDUCED from R163 and R188;
assumption log 57). -/
def Core.storeReady (k : Core) (f : MvFlight) : Bool :=
  k.tapQ.all (fun t => match t.kind with
    | .stld row len dst => decide (f.seq ≤ t.seq) || !storeMeets f row dst len
    | _ => true)

/-- Whether two MVP operations touch a common accumulator entry. -/
def mvMeet (f g : MvFlight) : Bool := decide (f.acc < g.acc + g.n) && decide (g.acc < f.acc + f.n)

/-- Near spans that a read-out, or the chained read-out of a pass, writes. -/
def mvOutSpans (f : MvFlight) : List Span :=
  match f.plan with | some p => (p.spans f.v f.n).map (fun x => (p.win.phys x.1, x.2)) | none => []

/-- Whether an operation of the MVP comes after those before it in the queue (R131, R163): passes stream in order; an operation
waits for those before it that have still to take or write a common entry; a read-out waits for near bytes that an earlier one
has still to write. -/
def mvOrdered (pre : List MvFlight) (f : MvFlight) : Bool :=
  if f.isPass then pre.all (fun g => !g.isPass && !(g.out.isNone && mvMeet g f))
  else pre.all (fun g => !(g.isPass && mvMeet g f) && !spansMeet (mvOutSpans g) (mvOutSpans f))

/-- Whether a pass may stream: the unit is free (R169), the activations are there (R131). -/
def Core.mvMayStream (k : Core) (pre : List MvFlight) (f : MvFlight) : Bool :=
  mvOrdered pre f && !k.agbBlocked f.seq && k.storeReady f

/-- The first operation of the queue that can take effect, with those before it. -/
def mvNext (k : Core) : List MvFlight → List MvFlight → Option MvFlight
  | _, [] => none
  | pre, f :: r =>
    if (if f.isPass then k.mvMayStream pre f && mvFed k f else mvOrdered pre f && k.mvMayLand f) then some f
    else mvNext k (pre ++ [f]) r

/-- The oldest pass streams as far as its tags or the expander let it (R120, R168, R323). -/
def State.feedMv (s : State) (c : CoreId) : State :=
  let k := s.core c
  match k.mvQ.find? (·.isPass) with
  | some f =>
    if !k.mvMayStream (k.mvQ.takeWhile (fun g => !g.isPass)) f then s
    else
      let sc := (mvScaleSpans f).map (fun x => (f.win.phys x.1, x.2))
      let put := fun (fd : Feed) (k : Core) => k.modMv f.seq (fun g => { g with feed := fd, reads := fd.todo ++ sc })
      if bdSrc f.bd = 2 then s.feedExp c (bdStrm f.bd) (mvExpanded f) f.feed put else s.goFeed c f.tag f.feed put
  | none => s

/-- A pass that has its stream accumulates (R124, R128); one with a chained read-out stays in the queue as that read-out. -/
def State.accumulateMv (s : State) (c : CoreId) (p : PartId) (f : MvFlight) : State :=
  let k := s.core c
  let deep := if bdSrc f.bd = 1 then
      (mvWeightSpans f).filterMap (fun x => (s.deepLocal p x.1 x.2).map (fun a => (a, x.2))) else []
  s.withNear c f.reads (fun s => s.withDeep c deep (fun s => s.withAcc c (mvRmwKeys k f) (fun s =>
    let k := s.mvAccumulate c p f
    (s.freshChecker c (mvKeys f)).modCore c (fun _ => match f.plan with
      | some _ => k.modMv f.seq (fun g => { g with isPass := false, reads := [], feed := ⟨[], [], []⟩ })
      | none => k.dropMv f.seq))))

/-- A read-out of the queue lands, or goes on landing. -/
def State.landMvRead (s : State) (c : CoreId) (f : MvFlight) : State :=
  match f.plan, f.out with
  | some pl, none => (s.mvTake c f pl).goMv c f.seq
  | some _, some _ => s.goMv c f.seq
  | none, _ => s.modCore c (fun k => k.dropMv f.seq)

/-- MVP_PASS_LANDED: the first pass or read-out of the MVP that can take effect (R128, R131); a chained read-out follows its
pass at once where it may. -/
def State.landMv (s : State) (c : CoreId) : State :=
  let s := s.feedMv c
  match mvNext (s.core c) [] (s.core c).mvQ, s.runOf c with
  | some f, some p =>
    if !f.isPass then s.landMvRead c f
    else
      let s := s.accumulateMv c p f
      match (s.core c).mvQ.find? (fun g => decide (g.seq = f.seq) && !g.isPass) with
      | some g => if mvOrdered ((s.core c).mvQ.takeWhile (fun h => decide (h.seq ≠ f.seq))) g && (s.core c).mvMayLand g then
          s.landMvRead c g else s
      | none => s
  | _, _ => s

/-! ### Tap loads and store loads (R154, Table 8-6) -/

/-- The value of a pad element of a tap load. -/
def tapPad (f : Fmt) (padMax : Bool) : Word :=
  if !padMax then 0 else if f.isInt then 0x80000000 else 0xFF800000

/-- Where channel c0 + i of a tap lies: offset and element index, or pad. -/
def tapPlace (ad : Nat) (wd : List Nat) (base q y tap c0 i : Nat) : Option (Int × Nat) :=
  let w := wdNat wd
  let ow := fld w 63 48
  let oh := if ow = 0 then 0 else q / ow
  if fld w 79 64 ≤ oh then none
  else (winPlace w y oh (q % ow) tap (c0 + i) (fmtD (adTfmt ad)).bits).map (fun x => ((base : Int) + x.1, x.2))

/-- Near spans of a tap load; none when a byte lies below the window. -/
def tapSpans (ad : Nat) (wd : List Nat) (base q y tap c0 : Nat) : Option (List Span) :=
  ((List.range 64).filterMap (tapPlace ad wd base q y tap c0)).mapM (fun x =>
    if x.1 < 0 then none else some (x.1.toNat, (fmtD (adTfmt ad)).width))

/-- TAP (R154): sP holds output pixel, tap and first channel. -/
def State.issueTap (s : State) (c : CoreId) (k0 : Core) (ad : Fin 8) (aB : AReg) (sP sY : SReg) (vD : VReg)
    (padMax : Bool) : State :=
  let d := k0.ad ad
  let x := (k0.sreg sP).toNat
  let wd := k0.wd (adWd d)
  let base := k0.areg aB.val
  let q := fld x 31 0
  let tap := fld x 47 32
  let c0 := fld x 59 48
  match tapSpans d wd base q (k0.s32 sY) tap c0 with
  | none => s.failCore c 0x03 0
  | some sp => s.checked c k0.win sp (fun xs => s.modCore c (fun k => { k with tapQ := k.tapQ ++
      [{ seq := k0.seq, kind := .tap vD d wd base q (k0.s32 sY) tap c0 padMax (s.codebook c (k0.book (0x10 + ad.val))), win := k0.win, reads := xs,
         tag := readTag (adTag d), feed := Feed.start (readTag (adTag d)) xs }] }))

/-- STLD (R121). -/
def State.issueStld (s : State) (c : CoreId) (k0 : Core) (row : Fin 4) (a : AReg) (tag : BitVec 2) (sLen : SReg)
    (doff : BitVec 13) : State :=
  let len := k0.s32 sLen % 2 ^ 24
  s.checked c k0.win [(k0.areg a.val, len)] (fun xs => s.modCore c (fun k => { k with tapQ := k.tapQ ++
    [{ seq := k0.seq, kind := .stld row len (2 * doff.toNat), win := k0.win, reads := xs,
       tag := readTag tag.toNat, feed := Feed.start (readTag tag.toNat) xs }] }))

/-- One element of a tap load widened to a lane: a BG4 code stands for its codebook entry (R154, R35, R71). -/
def tapLane (f : Fmt) (cb : List Half) (x : Nat) : Word × Flags :=
  match f with | .bg4 => to32 (elemVal .bg4 cb x) | g => widenLane g x

/-- The lanes of a tap load with their flags. -/
def tapLanes (k : Core) (win : NsWin) (ad : Nat) (wd : List Nat) (base q y tap c0 : Nat) (padMax : Bool) (book : List Byte) :
    Lanes × Flags :=
  let f := fmtD (adTfmt ad)
  let cb := bookEntries book
  let one := fun (i : Nat) => match tapPlace ad wd base q y tap c0 i with
    | some x => tapLane f cb (elemAt f (k.nearAt win x.1.toNat f.width) x.2)
    | none => (tapPad f padMax, 0)
  let r := Vector.ofFn (fun i : Fin 64 => one i.val)
  (r.map (·.1), orFlags (r.toList.map (·.2)))

/-- What a load of address generator A delivers (R121, R154). -/
def Core.deliverTap (k : Core) (f : TapFlight) (read : Core) : Core :=
  match f.kind with
  | .tap v ad wd base p y tap c0 padMax book =>
    let r := tapLanes read f.win ad wd base p y tap c0 padMax book
    (k.setV v.val r.1).raiseVec r.2
  | .stld row len dst =>
    match f.feed.cap.map (·.1) ++ f.reads.map (·.1) with
    | off :: _ => k.storeWrite row.val dst (read.nearRead off len)
    | [] => k

/-- Whether a load of address generator A waits for an older write of its register, or for a pass that reads the bytes it
would write (R131, R134). -/
def Core.tapBlocked (k : Core) (f : TapFlight) : Bool :=
  match f.kind with
  | .tap v _ _ _ _ _ _ _ _ _ => k.olderV f.seq [v.val]
  | .stld row len dst => k.mvQ.any (fun m => decide (m.seq ≤ f.seq) && storeMeets m row dst len)

/-- The oldest load of address generator A reads as far as its tags let it; rows of passes issued before it come first (R168,
R169). -/
def State.feedTap (s : State) (c : CoreId) : State :=
  match (s.core c).tapQ with
  | f :: _ =>
    if (s.core c).passQ.any (fun p => decide (p.seq < f.seq) && !p.started) then s
    else s.goFeed c f.tag f.feed (fun fd k => match k.tapQ with
      | g :: r => { k with tapQ := { g with feed := fd, reads := fd.todo } :: r }
      | [] => k)
  | [] => s

/-- TAP_LOAD_LANDED: the oldest load of address generator A lands (R131, R134, R154). -/
def State.landTap (s : State) (c : CoreId) : State :=
  let s := (s.settleAga c).feedTap c
  let k := s.core c
  match k.tapQ with
  | [] => s
  | f :: rest =>
    if ({ k with tapQ := rest } : Core).tapBlocked f || !tapFed k f ||
        k.passQ.any (fun p => decide (p.seq < f.seq) && !p.started) then s
    else s.withNear c f.reads (fun s =>
      (s.modCore c (fun k => ({ k with tapQ := rest }).deliverTap f (k.withCap f.feed))).settleAga c)

end Sys2Proof.Machine
end

