-- ==== Sys2Proof/Machine/VecIssue.lean ====
section
/-!
DEFINITION. The vector slot: what its operations read and write, loads and stores, and their landing (R133 to R140, R214).
-/
namespace Sys2Proof.Machine

/-- Vector registers that an operation reads (R214). -/
def vecReadsV (o : VecOp) : List Nat :=
  match o with
  | .bin _ _ a b => [a.val, b.val]
  | .fmad _ a b x => [a.val, b.val, x.val]
  | .sel _ a b x => [a.val, b.val, x.val]
  | .un _ _ a => [a.val]
  | .shl _ a _ => [a.val]
  | .sra _ a _ => [a.val]
  | .frnd _ a _ => [a.val]
  | .curve _ a _ => [a.val]
  | .vld _ _ _ _ => []
  | .vldw _ _ _ _ _ => []
  | .vst v _ _ _ => [v.val]
  | .vstn v _ _ _ _ => [v.val]
  | .sclw v _ _ _ _ => [v.val]
  | .vbcs _ _ => []
  | .vext _ v _ => [v.val]
  | .argmax d a _ _ _ _ _ _ => [d.val, a.val]
  | .topk d a _ _ _ idx _ _ => [d.val, (d.val + 1) % 32, a.val] ++ (if idx then [(a.val + 1) % 32] else [])

/-- Vector registers that an operation writes. -/
def vecWritesV (o : VecOp) : List Nat :=
  match o with
  | .bin _ d _ _ => [d.val]
  | .fmad d _ _ _ => [d.val]
  | .sel d _ _ _ => [d.val]
  | .un _ d _ => [d.val]
  | .shl d _ _ => [d.val]
  | .sra d _ _ => [d.val]
  | .frnd d _ _ => [d.val]
  | .curve d _ _ => [d.val]
  | .vld v _ _ _ => [v.val]
  | .vldw v _ _ _ _ => [v.val]
  | .vst _ _ _ _ => []
  | .vstn _ _ _ _ _ => []
  | .sclw _ _ _ _ _ => []
  | .vbcs d _ => [d.val]
  | .vext _ _ _ => []
  | .argmax d _ _ _ _ _ _ _ => [d.val]
  | .topk d _ _ _ _ _ _ _ => [d.val, (d.val + 1) % 32]

/-- Scalar registers that an operation reads. -/
def vecReadsS (o : VecOp) : List SReg :=
  match o with
  | .vbcs _ s => [s]
  | .argmax _ _ n b _ _ _ _ => [n, b]
  | .topk _ _ n b _ _ _ _ => [n, b]
  | _ => []

/-- Offset and length of a load or store in the window (R214). -/
def vecSpan (k : Core) (o : VecOp) : Option Span :=
  match o with
  | .vld _ a _ off => some (a32 (k.areg a.val + 32 * off.toNat), 256)
  | .vst _ a _ off => some (a32 (k.areg a.val + 32 * off.toNat), 256)
  | .vldw _ a _ f off => some (a32 (k.areg a.val + 32 * off.toNat), (fmtD f.toNat).bytes 64)
  | .vstn _ a _ f off => some (a32 (k.areg a.val + 32 * off.toNat), (fmtD f.toNat).bytes 64)
  | .sclw _ a _ n off => some (a32 (k.areg a.val + off.toNat), n.val + 1)
  | _ => none

/-- Whether an operation loads. -/
def vecLoads (o : VecOp) : Bool := match o with | .vld _ _ _ _ => true | .vldw _ _ _ _ _ => true | _ => false
/-- Whether an operation stores. -/
def vecStores (o : VecOp) : Bool :=
  match o with | .vst _ _ _ _ => true | .vstn _ _ _ _ _ => true | .sclw _ _ _ _ _ => true | _ => false

/-- The TAG field. -/
def vecTag (o : VecOp) : Nat :=
  match o with
  | .vld _ _ t _ => t.toNat
  | .vldw _ _ t _ _ => t.toNat
  | .vst _ _ t _ => t.toNat
  | .vstn _ _ t _ _ => t.toNat
  | .sclw _ _ t _ _ => t.toNat
  | _ => 0

/-- Whether a load's tags let it read (R169); an illegal span does not wait, it ends the step. -/
def vecFed (k : Core) (o : VecOp) : Bool :=
  if vecLoads o then
    match vecSpan k o with
    | some x => !k.win.ok x.1 x.2 || k.readReady (readTag (vecTag o)) [(k.win.phys x.1, x.2)]
    | none => true
  else true

/-- Near scratch as a vector load sees it: the vector stores issued before it are in it (R163). -/
def Core.withStores (k : Core) : Core :=
  k.vecQ.foldl (fun k f => match f.eff with | .store off bs _ => (k.nearWrite off bs).1 | _ => k) k

/-- A register result enters the vector pipeline with its flags. -/
def Core.vecResult (k : Core) (seq : Nat) (ws : List (VReg × Lanes)) (fl : Flags) : Core :=
  { k with vecQ := k.vecQ ++ [{ seq := seq, eff := .regs ws }], vecFlags := k.vecFlags ||| fl }

/-- The lane that follows register d. -/
def nextV (d : VReg) : VReg := ⟨(d.val + 1) % 32, Nat.mod_lt _ (by decide)⟩

/-- Register results of an operation that touches no memory: registers, flags. -/
def vecCompute (t : Tables) (k : Core) (o : VecOp) : Option (List (VReg × Lanes) × Flags) :=
  let v := fun (r : VReg) => k.v[r.val]
  match o with
  | .bin f d a b => let r := lanes2 (laneBin f) (v a) (v b); some ([(d, r.1)], r.2)
  | .fmad d a b x =>
    let r := Vector.ofFn (fun i : Fin 64 => fmadLane (v a)[i.val] (v b)[i.val] (v x)[i.val])
    some ([(d, r.map (·.1))], orFlags (r.toList.map (·.2)))
  | .sel d a b x => some ([(d, Vector.ofFn (fun i : Fin 64 => if (v x)[i.val] ≠ 0 then (v a)[i.val] else (v b)[i.val]))], 0)
  | .un f d a => let r := vecUn f (v a); some ([(d, r.1)], r.2)
  | .shl d a sh => some ([(d, (v a).map (fun (w : Word) => w <<< sh.val))], 0)
  | .sra d a sh => some ([(d, (v a).map (fun (w : Word) => w.sshiftRight sh.val))], 0)
  | .frnd d a f => let r := lanes1 (frnd (fmtD f.toNat)) (v a); some ([(d, r.1)], r.2)
  | .curve d a n => let h := curveBytes t n; let r := lanes1 (curveLane h) (v a); some ([(d, r.1)], r.2)
  | .vbcs d s => some ([(d, Vector.replicate 64 ((k.sreg s).setWidth 32))], 0)
  | .argmax d a sN sB hi _ _ int =>
    let base := (k.sreg sB).setWidth 32
    let c := candidates int (v a) (fun j => base + BitVec.ofNat 32 j) (if hi then 32 else 0) (k.s32 sN)
    some ([(d, argmax int (v d) c.1)], c.2)
  | .topk d a sN sB hi idx dir int =>
    let base := (k.sreg sB).setWidth 32
    let f := if hi then 32 else 0
    let c := candidates int (v a) (fun j => if idx then nth 0 (v (nextV a)).toList (f + j) else base + BitVec.ofNat 32 j) f
      (k.s32 sN)
    let r := topk int dir (v d) (v (nextV d)) c.1
    some ([(d, r.1), (nextV d, r.2)], c.2)
  | _ => none

/-- The bytes a store writes, with the flags of each element narrowed; VST narrows nothing. -/
def vecStore (k : Core) (o : VecOp) : List Byte × Option (List Flags) :=
  match o with
  | .vst v _ _ _ => ((k.v[v.val]).toList.flatMap (fun w => leBytes 4 w.toNat), none)
  | .vstn v _ _ f _ =>
    let g := fmtD f.toNat
    let r := (k.v[v.val]).toList.map (fun w => narrowScaled g w k.os)
    (packBits g.bits (r.map (·.1)), some (r.map (·.2)))
  | .sclw v _ _ n _ =>
    let r := ((k.v[v.val]).toList.take (n.val + 1)).map (fun w => toUE5M3 (val32 w))
    (r.map (fun x => BitVec.ofNat 8 x.1), some (r.map (·.2)))
  | _ => ([], none)

/-- The lanes a load brings. -/
def vecLoad (o : VecOp) (bs : List Byte) : Lanes × Flags :=
  match o with
  | .vldw _ _ _ f _ =>
    let g := fmtD f.toNat
    let r := Vector.ofFn (fun i : Fin 64 => widenLane g (elem g bs i.val))
    (r.map (·.1), orFlags (r.toList.map (·.2)))
  | _ => (Vector.ofFn (fun i : Fin 64 => BitVec.ofNat 32 (leAt bs (4 * i.val) 4)), 0)

/-- Issue of a vector operation: its result is formed now and lands later (R133, R134). -/
def State.issueVec (s : State) (c : CoreId) (k0 : Core) (o : VecOp) : State :=
  match vecSpan k0 o with
  | some x =>
    s.checked c k0.win [x] (fun _ =>
      let off := k0.win.phys x.1
      if vecLoads o then
        s.withNear c [(off, x.2)] (fun s =>
          let r := vecLoad o ((s.core c).withStores.nearRead off x.2)
          let d : VReg := match o with | .vld v _ _ _ => v | .vldw v _ _ _ _ => v | _ => 0
          s.modCore c (fun k => (k.takeTags (readTag (vecTag o)) [(off, x.2)]).vecResult k0.seq [(d, r.1)] r.2))
      else
        let r := vecStore k0 o
        s.modCore c (fun k =>
          let k := match r.2 with
            | some fs => { k.countNarrow fs.length (clips fs) with vecFlags := k.vecFlags ||| orFlags fs }
            | none => k
          { k with vecQ := k.vecQ ++ [{ seq := k0.seq, eff := .store off r.1 (decide (vecTag o = 1)) }] }))
  | none =>
    match o with
    | .vext d v lane =>
      s.modCore c (fun k => { k with vecQ := k.vecQ ++
        [{ seq := k0.seq, eff := .scalar d (((k0.v[v.val])[lane.val]).signExtend 64) }] })
    | _ =>
      match vecCompute (s.tablesOf c) k0 o with
      | some r => s.modCore c (fun k => k.vecResult k0.seq r.1 r.2)
      | none => s

/-- Whether a flight may land: no older write to its registers, its slots free, stores in order (R134, R163, R168). -/
def Core.vecMayLand (k : Core) (f : VecFlight) : Bool :=
  match f.eff with
  | .regs ws => !k.olderV f.seq (ws.map (fun w => w.1.val))
  | .scalar _ _ => true
  | .store off bs set =>
    k.mayWrite f.seq ((Puts.start [(off, bs)]).todo.take 1) set &&
    k.vecQ.all (fun g => match g.eff with | .store _ _ _ => decide (f.seq ≤ g.seq) | _ => true)

/-- VECTOR_OPERATION_LANDED: the first operation that may land does; of a store over two slots the part that may (R168). -/
def State.landVec (s : State) (c : CoreId) : State :=
  let k := s.core c
  match k.vecQ.find? k.vecMayLand with
  | none => s
  | some f =>
    let k := { k with vecQ := k.vecQ.erase f }
    match f.eff with
    | .regs ws => s.modCore c (fun _ => ws.foldl (fun (k : Core) w => k.setV w.1.val w.2) k)
    | .scalar d x => s.modCore c (fun _ => k.setS d x)
    | .store off bs set =>
      let y := s.landPuts c f.seq set (Puts.start [(off, bs)]).todo []
      y.1.modCore c (fun k => { k with vecQ := match y.2.todo with
        | [] => k.vecQ.erase f
        | w :: _ => k.vecQ.map (fun g => if g = f then { g with eff := .store w.1 (bs.drop (w.1 - off)) set } else g) })

end Sys2Proof.Machine
end

