-- ==== Sys2Proof/Machine/Issue.lean ====
section
/-!
DEFINITION. Issue of bundles: what the verifier lets no bundle hold, the holds of Table 8-4, the operand checks of R457,
the action of every slot, the sequencer (R184 to R206).
-/
namespace Sys2Proof.Machine

/-! ### What a slot reads and writes -/

/-- Scalar registers that a slot reads. -/
def slotReadsS (o : SlotOp) : List SReg :=
  match o with
  | .seq (.loop false _ cnt) => [⟨cnt.toNat % 32, Nat.mod_lt _ (by decide)⟩]
  | .seq (.skipz s _) => [s]
  | .seq (.skipnz s _) => [s]
  | .seq (.exitn s) => [s]
  | .seq (.call s _) => [s]
  | .seq (.waitev s _) => [s]
  | .seq _ => []
  | .aga (.rows _ _ q y b) => [q, y, b]
  | .aga (.tap _ _ p y _ _) => [p, y]
  | .aga (.stld _ _ _ l _) => [l]
  | .agb (.importTile _ _ _ f n) => [f, n]
  | .agb _ => []
  | .dma (.dmov _ _ _ f l) => [f, l]
  | .dma (.dexp _ _ f l) => [f, l]
  | .mxa (.pass _ _ m a _ _ _) => [m, a]
  | .mxa (.readOut _ _ f n) => [f, n]
  | .mvp (.mvpass _ _ _ _ a o) => [a, o]
  | .mvp (.mvread _ _ a n) => [a, n]
  | .vec v => vecReadsS v
  | .scl (.bin _ _ a b) => [a, b]
  | .scl (.addi _ a _) => [a]
  | .scl (.ori _ a _) => [a]
  | .scl (.shli _ a _) => [a]
  | .scl (.shri _ a _) => [a]
  | .scl (.amov _ s) => [s]
  | .scl (.aadd _ _ s) => [s]
  | .scl (.setzp s) => [s]
  | .scl (.setos s) => [s]
  | .scl (.setinc _ _ s) => [s]
  | .scl _ => []

/-- Vector registers that a slot reads. -/
def slotReadsV (k : Core) (o : SlotOp) : List Nat :=
  match o with
  | .vec v => vecReadsV v
  | .mvp (.mvpass vt v1 _ _ _ _) =>
    if vtVreg (k.vtA vt) then (List.range (v1.val + 1)).map (fun i => (vtVa (k.vtA vt) + i) % 32) else []
  | _ => []

/-- Scalar registers that a slot writes. -/
def slotWritesS (o : SlotOp) : List SReg :=
  match o with
  | .seq (.strip d) => [d]
  | .vec (.vext d _ _) => [d]
  | .scl (.bin _ d _ _) => [d]
  | .scl (.addi d _ _) => [d]
  | .scl (.ori d _ _) => [d]
  | .scl (.shli d _ _) => [d]
  | .scl (.shri d _ _) => [d]
  | .scl (.movi d _) => [d]
  | .scl (.smova d _) => [d]
  | .scl (.rdlc d _) => [d]
  | _ => []

/-- Vector registers that a slot writes. -/
def slotWritesV (o : SlotOp) : List Nat :=
  match o with
  | .aga (.tap _ _ _ _ v _) => [v.val]
  | .vec v => vecWritesV v
  | _ => []

/-! ### What no accepted image holds -/

/-- A format code that a vector operation may name (R135). -/
def vecFmtOk (f : BitVec 4) : Bool := (fmtOf f.toNat).isSome && decide (f.toNat ≠ 5)

/-- Whether an address register is bound to the level of a running loop. -/
def Core.boundRunning (k : Core) (a : AReg) : Bool :=
  (List.range k.loops.length).any (fun l => (k.abind[a.val]).getLsbD l)

/-- Arrays named by an AMASK. -/
def maskCount (m : BitVec 4) : Nat := (List.range 4).countP (fun j => m.getLsbD j)

/-- Whether every bit of an AMASK lies below ARRAYS (R209). -/
def maskOk (n : Nat) (m : BitVec 4) : Bool := (List.range 4).all (fun j => !m.getLsbD j || decide (j < n))

/-- The checks of Table 9-7 on one slot in its bundle and its loops: true where the verifier rejects it. -/
def slotBad (k : Core) (flags arrays : Nat) (ops : List SlotOp) (o : SlotOp) : Bool :=
  match o with
  | .seq (.loop csrc len cnt) =>
    decide (len = 0) || decide (4 ≤ k.loops.length) || (!csrc && decide (32 ≤ cnt.toNat)) ||
      decide (k.codeLen ≤ k.pc + len.toNat) ||
      (match k.loops with | r :: _ => decide (r.last < k.pc + len.toNat) | [] => false)
  | .seq (.skipz _ n) => decide (n = 0)
  | .seq (.skipnz _ n) => decide (n = 0)
  | .seq (.call _ _) => k.frame.isSome || !bitAt flags 2
  | .seq .halt => !bitAt flags 0
  | .seq _ => false
  | .aga (.rows ad _ q y b) =>
    !(ops.any (fun p => match p with | .mxa (.pass _ _ _ _ _ _ _) => true | _ => false)) ||
    (decide (adMode (k.ad ad) ≠ 1) && !decide (q.val = 0 ∧ y.val = 0 ∧ b.val = 0)) ||
    (decide (adMode (k.ad ad) = 1) && ops.any (fun p => match p with
      | .mxa (.pass mt _ _ _ _ _ _) => decide (mtMode (k.mt mt) ≠ 0) || bitAt (k.mt mt) 22 | _ => false))
  | .aga (.tap ad _ _ _ _ _) => decide (adMode (k.ad ad) ≠ 1)
  | .aga (.stld _ _ t _ _) => decide (t = 3)
  | .agb (.loadw m _ _ _) => !maskOk arrays m
  | .agb (.mvstream _ _) => !(ops.any (fun p => match p with | .mvp (.mvpass _ _ _ _ _ _) => true | _ => false))
  | .agb (.importTile m _ _ _ _) => !maskOk arrays m
  | .dma (.dmov _ dd _ _ _) => decide (ddCodec (k.ddA dd) = 2)
  | .dma (.dexp _ dd _ _) =>
    let d := k.ddA dd
    !decide (ddCodec d = 2 ∧ ddFar d = 1) || ddOut d || ddNonear d
  | .mxa (.pass mt m _ _ _ _ last) =>
    !(ops.any (fun p => match p with | .aga (.rows _ _ _ _ _) => true | _ => false)) || !maskOk arrays m ||
    (last && decide (mtRead (k.mt mt) = 4) && decide (maskCount m ≠ 1))
  | .mxa (.readOut mt m _ _) => !maskOk arrays m || (decide (mtRead (k.mt mt) = 4) && decide (maskCount m ≠ 1))
  | .mvp (.mvpass vt _ _ _ _ off) =>
    !(ops.any (fun p => match p with | .agb (.mvstream _ _) => true | _ => false)) ||
    (vtVreg (k.vtA vt) && decide (off.val ≠ 0))
  | .mvp (.mvread _ _ _ _) => false
  | .vec (.frnd _ _ f) => !vecFmtOk f
  | .vec (.vldw _ _ t f _) => !vecFmtOk f || decide (t = 3)
  | .vec (.vld _ _ t _) => decide (t = 3)
  | .vec (.vst _ _ t _) => decide (2 ≤ t.toNat)
  | .vec (.vstn _ _ t f _) => !vecFmtOk f || decide (2 ≤ t.toNat)
  | .vec (.sclw _ _ t _ _) => decide (2 ≤ t.toNat)
  | .vec (.topk d _ _ _ _ _ _ _) => decide (d.val % 2 = 1)
  | .vec _ => false
  | .scl (.amov d _) => k.boundRunning d
  | .scl (.aadd d _ _) => k.boundRunning d
  | .scl (.amovi d _) => k.boundRunning d
  | .scl (.setinc n _ _) => k.boundRunning n
  | .scl (.setbind n _) => k.boundRunning n
  | .scl _ => false

/-- Whether a list names a value twice. -/
def dupes {α : Type} [DecidableEq α] : List α → Bool
  | [] => false
  | x :: r => decide (x ∈ r) || dupes r

/-- Whether the verifier rejects a bundle (R184, R188, Table 9-7). -/
def bundleBad (k : Core) (flags arrays : Nat) (ops : List SlotOp) : Bool :=
  dupes (ops.map SlotOp.slot) ||
  dupes ((ops.flatMap slotWritesS).filter (fun d => decide (d.val ≠ 0))) ||
  dupes (ops.flatMap slotWritesV) || ops.any (slotBad k flags arrays ops)

/-! ### Holds (Table 8-4) -/

/-- Operations from the first that cannot start yet. -/
def blockedFrom {α : Type} (p : α → Bool) (xs : List α) : List α := xs.dropWhile p

/-- The MVP passes that cannot go on to their end yet: one streams, one waits (R129). -/
def Core.passesHeld (k : Core) : List MvFlight :=
  blockedFrom (fun f => k.storeReady f && mvFed k f && !k.agbBlocked f.seq) (k.mvQ.filter (·.isPass))

/-- Of a queue of operations that cannot go on, those that have made no access: the first one may have. -/
def unstarted (started : Bool) (n : Nat) : Nat := if started then n - 1 else n

/-- MVSTREAMs in the queue of address generator B that have not started (R189). -/
def Core.streamsUnstarted (k : Core) : Nat :=
  unstarted (match k.passesHeld with | f :: _ => !f.feed.cap.isEmpty | [] => false) k.passesHeld.length

/-- Loads in that queue that have not started. -/
def Core.loadsUnstarted (k : Core) : Nat :=
  let b := blockedFrom (fun f => k.loadOrdered f && loadFed k f && !k.agbBlocked f.seq) k.agbQ
  unstarted (match b with | f :: _ => !f.feed.cap.isEmpty | [] => false) b.length

/-- Whether a slot holds its bundle. -/
def slotHeld (k : Core) (events : List Word) (o : SlotOp) : Bool :=
  match o with
  | .mxa (.pass _ _ _ _ _ _ _) => decide (2 ≤ (k.passQ.filter (fun f => !f.started)).length)
  | .mxa (.readOut _ _ _ _) => decide (2 ≤ (k.readQ.filter (fun r => !k.readOrdered r)).length)
  | .agb _ => decide (2 ≤ k.loadsUnstarted + k.streamsUnstarted)
  | .mvp _ => decide (2 ≤ k.passesHeld.length)
  | .aga (.tap _ _ _ _ _ _) =>
    decide (4 ≤ ((blockedFrom (tapFed k) k.tapQ).filter (fun f => match f.kind with
      | .tap _ _ _ _ _ _ _ _ _ _ => true | _ => false)).length)
  | .aga (.stld _ _ _ _ _) =>
    decide (2 ≤ ((blockedFrom (tapFed k) k.tapQ).filter (fun f => match f.kind with | .stld _ _ _ => true | _ => false)).length)
  | .aga (.rows _ _ _ _ _) => false
  | .dma (.dmov t _ _ _ _) => decide (4 ≤ (k.dma[t.val]).q.length)
  | .dma (.dexp t _ _ _) => decide (4 ≤ (k.dma[t.val]).q.length)
  | .vec v =>
    !vecFed k v || (vecStores v && decide (4 ≤ (k.vecQ.filter (fun f => match f.eff with
      | .store _ _ _ => true | _ => false)).length))
  | .seq (.signal _) => decide (4 ≤ k.signals.length)
  | .seq (.wait m) => !k.waitDone m
  | .seq (.waitev s e) => decide ((nth 0 events e.val).toNat < k.s32 s)
  | .seq .commit => !(k.waitDone (BitVec.allOnes 14) && k.signals.isEmpty)
  | .seq _ => false
  | .scl _ => false

/-- Whether a bundle is held at issue (R189). -/
def bundleHeld (k : Core) (events : List Word) (ops : List SlotOp) : Bool :=
  k.timed || ops.any (fun o => (slotReadsS o).any k.pendingS || (slotReadsV k o).any k.pendingV || slotHeld k events o)

/-! ### Operands (R457) -/

/-- Whether the operands that a slot takes from scalar registers lie in their ranges. -/
def operandsOk (k : Core) (o : SlotOp) : Bool :=
  match o with
  | .mxa (.pass _ _ m a _ _ _) => decide (1 ≤ k.s32 m ∧ k.s32 m ≤ 512 ∧ k.s32 a + k.s32 m ≤ 512)
  | .mxa (.readOut _ _ f n) => decide (1 ≤ k.s32 n ∧ k.s32 n ≤ 512 ∧ k.s32 f + k.s32 n ≤ 512)
  | .agb (.importTile _ _ _ f n) => decide (1 ≤ k.s32 n ∧ k.s32 n ≤ 512 ∧ k.s32 f + k.s32 n ≤ 512)
  | .mvp (.mvpass vt _ _ _ a o) =>
    let t := k.vtA vt
    decide (k.s32 a + vtN t ≤ 1024) && decide (k.s32 o + (fmtD (vtAfmt t)).bytes (vtK t) ≤ 16384)
  | .mvp (.mvread _ _ a n) => decide (1 ≤ k.s32 n ∧ k.s32 n ≤ 1024 ∧ k.s32 a + k.s32 n ≤ 1024)
  | .aga (.stld _ _ _ l d) => decide (2 * d.toNat + k.s32 l % 2 ^ 24 ≤ 16384)
  | .vec (.argmax _ _ n _ hi _ _ _) => decide (1 ≤ k.s32 n) && decide (k.s32 n ≤ if hi then 32 else 64)
  | .vec (.topk _ _ n _ hi _ _ _) => decide (1 ≤ k.s32 n) && decide (k.s32 n ≤ if hi then 32 else 64)
  | _ => true

/-! ### The action of the slots -/

/-- Everything but the sequencer slot; k0 is the core as the bundle issues (R188). -/
def State.actSlot (s : State) (c : CoreId) (k0 : Core) (ops : List SlotOp) (o : SlotOp) : State :=
  match o with
  | .seq _ => s
  | .aga (.rows _ _ _ _ _) => s
  | .aga (.tap ad aB p y v m) => s.issueTap c k0 ad aB p y v m
  | .aga (.stld row a t l d) => s.issueStld c k0 row a t l d
  | .agb (.loadw m bd a n) => s.issueLoad c k0 false m bd a (n.val + 1) 0 0
  | .agb (.mvstream _ _) => s
  | .agb (.importTile m bd a f n) => s.issueLoad c k0 true m bd a 32 (k0.s32 f) (k0.s32 n)
  | .dma (.dmov t dd a f l) => s.issueDma c k0 false t dd (k0.areg a.val) f l
  | .dma (.dexp t dd f l) => s.issueDma c k0 true t dd 0 f l
  | .mxa (.pass mt m sM sA init swap last) =>
    match ops.findSome? (fun p => match p with | .aga (.rows ad a q y b) => some (ad, a, q, y, b) | _ => none) with
    | some (ad, a, q, y, b) => s.issuePass c k0 mt m sM sA init swap last ad a q y b
    | none => s
  | .mxa (.readOut mt m f n) => s.issueRead c k0 mt m f n
  | .mvp (.mvpass vt v1 init last a off) =>
    match ops.findSome? (fun p => match p with | .agb (.mvstream bd b) => some (bd, b) | _ => none) with
    | some (bd, b) => s.issueMvPass c k0 vt v1 init last a off bd b
    | none => s
  | .mvp (.mvread vt v1 a n) => s.issueMvRead c k0 vt v1 a n
  | .vec v => s.issueVec c k0 v
  | .scl o => s.modCore c (scalarAct k0 o)

/-- The slots 1 to 7 in order, while the run goes on. -/
def State.actSlots (s : State) (c : CoreId) (k0 : Core) (ops : List SlotOp) : State :=
  (List.range 8).foldl (fun s i => match ops.find? (fun o => decide (o.slot = i)) with
    | some o => if s.issuing c then s.actSlot c k0 ops o else s
    | none => s) s

/-! ### The sequencer slot -/

/-- Send the core's token to the collector (R203, R251). -/
def State.sendToken (s : State) (c : CoreId) : State :=
  match s.runOf c with
  | none => s
  | some p =>
    let k := s.core c
    let t : Token := { core := c, flags := k.allFlags, narrowed := k.narrowed, clipped := k.clipped, ports := k.portMask,
                       strips := k.strips, stripCclk := match k.firstStrip with | some x => k.runCclk - x | none => 0 }
    s.modPart p (fun x => { x with run := x.run.map (fun r => { r with arrived := r.arrived ++ [t] }) })

/-- Send the FLUSHes that a committed core still has to send while their FLUSH_DONEs have room in the response buffer (R340). -/
def State.sendFlushes (s : State) (c : CoreId) : State :=
  match s.runOf c with
  | none => s
  | some p =>
    (List.range 8).foldl (fun (s : State) e =>
      if !(s.core c).remoteFlush.getLsbD e || s.link.flushes.any (fun r => decide (r.core = c ∧ r.engine = e) && r.live) ||
          decide (2048 ≤ s.reservedFlits) then s
      else
        let tag := s.link.nextTag
        let s := { s with link := { s.link with flushes := s.link.flushes ++ [RemoteFlush.mk tag e c true],
                                                nextTag := (tag + 1) % 256 } }
        s.sendMsg ({ msg := Msg.single (msgHeader 3 s.pins.inst.val e 0 p.val tag 0 0 0 0 0 0), core := some c, stream := 0,
                     seq := (s.core c).seq } : TxMsg)) s

/-- COMMIT issues (R203, R346): the core's part ends; a FLUSH goes to each engine it wrote, and the token follows the last
FLUSH_DONE. -/
def State.commitCore (s : State) (c : CoreId) (p : PartId) : State :=
  let k := s.core c
  let es := (List.range 8).filter (fun e => k.remoteDirty.getLsbD e)
  let s := s.modCore c (fun k => { k with phase := .committed, remoteFlush := k.remoteDirty })
  match es.find? (fun e => decide ((s.link.peerState.toList.getD e 0) ≠ 1)) with
  | some e => s.failRun p 0x0F e
  | none => if es = [] then s.sendToken c else s.sendFlushes c

/-- Room in the response buffer has come free (R340): reads and FLUSHes that waited for it go on. -/
def State.driveRemote (s : State) : State :=
  allCores.foldl (fun (s : State) c =>
    let s := if (s.core c).phase = .committed ∧ (s.core c).remoteFlush ≠ 0 then s.sendFlushes c else s
    (List.finRange 8).foldl (fun (s : State) t =>
      match s.dmaHead c t with
      | some f => if (f.todo.head?.bind (·.peer)).isSome then s.driveDma c t else s
      | none => s) s) s

/-- Bytes of the routine store of a core's cluster; free values in a half lost and not reloaded (R362). -/
def State.storeBytes (s : State) (c : CoreId) (o n : Nat) : List Byte :=
  (List.range n).map (fun i =>
    let free : Byte := match s.start.storeLost.toList.getD (2 * (c.val / 5) + (o + i) / 262144) none with
      | some e => Config.lostByte e (o + i)
      | none => 0
    match (s.start.store[c.val / 5]'(by omega)).find? (fun p => p.1 == o + i) with
    | some p => p.2
    | none => free)

/-- A poisoned word of the routine store. -/
def State.storePoisonIn (s : State) (c : CoreId) (o n : Nat) : Option Nat :=
  (List.range ((o + n + 7) / 8 - o / 8)).findSome? (fun i =>
    if Tab.get false (s.start.storePoison[c.val / 5]'(by omega)) (o / 8 + i) then some (o / 8 + i) else none)

/-- The flipped words that a read of the routine store meets are corrected, written back and counted (R179). -/
def State.fixStore (s : State) (c : CoreId) (o n : Nat) : State :=
  match marksIn (s.start.storeFlip[c.val / 5]'(by omega)) [(o, n)] with
  | [] => s
  | ws => ({ s with start := { s.start with
      storeFlip := upd s.start.storeFlip (clusterOf c) (fun t => unmark t ws) } }).eccFixed 3 ws.length

/-- Location of a routine-store word (Table 7-8). -/
def storeLoc (c : CoreId) (w : Nat) : Nat := ueLoc (8 * w) none (c.val / 5) 0

/-- CALL (R196, R197, R234). -/
def State.callRoutine (s : State) (c : CoreId) (k0 : Core) (r : SReg) (id : BitVec 16) (x : StepRec) : State :=
  match x.tables.dir.find? (fun d => decide (d.id = id.toNat)) with
  | none => s.failCore c 0x0B id.toNat
  | some d =>
    let v := (k0.sreg r).toNat
    let off := fld v 10 0
    let len := fld v 27 16
    if k0.win.nsl < off + len ∨ len = 0 ∨ len < d.minLen then s.failCore c 0x03 0
    else
      let n := 16 * (d.flags / 256 % 256)
      match s.storePoisonIn c d.descOff n with
      | some w => s.eccFail c 3 (storeLoc c w)
      | none =>
        let ds := match x.image with | some i => tensorDecls (sectionBytes i.bytes 5) 0 | none => []
        (s.fixStore c d.descOff n).modCore c (fun k => k.enter d off len (descRecs (s.storeBytes c d.descOff n) 0) ds)

/-- STRIP (R201): the next number, or all ones when the counter is exhausted or the core is parked. -/
def State.takeStrip (s : State) (c : CoreId) (d : SReg) (p : PartId) (x : StepRec) : State :=
  let n := (s.part p).stripCounter
  let first := fun (k : Core) => { k with firstStrip := match k.firstStrip with | some v => some v | none => some k.runCclk }
  if x.desc.strips ≤ n ∨ c ∈ s.power.parked then
    s.modCore c (fun k => (first (k.issueS d (BitVec.allOnes 64))))
  else
    (s.modPart p (fun y => { y with stripCounter := n + 1 })).modCore c (fun k =>
      { first (k.issueS d (BitVec.ofNat 64 n)) with strips := k.strips + 1 })

/-- The sequencer slot, after the others (R191 to R205). -/
def State.actSeq (s : State) (c : CoreId) (k0 : Core) (o : Option SeqOp) (p : PartId) (x : StepRec) : State :=
  let go := fun (s : State) => s.modCore c Core.advance
  match o with
  | none => go s
  | some (.loop csrc len cnt) =>
    let n := if csrc then cnt.toNat else k0.s32 ⟨cnt.toNat % 32, Nat.mod_lt _ (by decide)⟩
    s.modCore c (fun k => k.openLoop n len.toNat)
  | some (.skipz r n) => if k0.sreg r = 0 then s.modCore c (fun k => k.skip n.toNat) else go s
  | some (.skipnz r n) => if k0.sreg r ≠ 0 then s.modCore c (fun k => k.skip n.toNat) else go s
  | some (.exitn r) => if (k0.sreg r).getLsbD 63 then s.modCore c Core.exitLoop else go s
  | some (.call r id) => s.callRoutine c k0 r id x
  | some .ret => match k0.frame with | some f => s.modCore c (fun k => k.leave f) | none => go s
  | some (.wait _) => go s
  | some (.delay n) => go (s.modCore c (fun k => { k with timed := decide (n ≠ 0) }))
  | some (.strip d) => go (s.takeStrip c d p x)
  | some (.signal e) => go (s.modCore c (fun k => { k with signals := k.signals ++ [(k0.seq, e)] }))
  | some (.waitev _ _) => go s
  | some .commit => (go s).commitCore c p
  | some .halt => (go s).modCore c (fun k => { k with phase := .halted, fetched := [] })

/-! ### Issue -/

/-- The fetch of the bundle at the pc corrects the flipped words it meets (R179), in each member of a pair (R386). -/
def State.fixFetch (s : State) (c : CoreId) (k : Core) : State :=
  if k.frame.isSome then s.fixStore c (k.codeBase + 32 * k.pc) 32
  else (s.members c).foldl (fun s d => match marksIn (s.core d).imemFlip [(32 * k.pc, 32)] with
    | [] => s
    | ws => (s.modCore d (fun k => { k with imemFlip := unmark k.imemFlip ws })).eccFixed 2 ws.length) s

/-- Location of a word of instruction memory (Table 7-8). -/
def imemLoc (c : CoreId) (w : Nat) : Nat := ueLoc (8 * w) (some c) 0 0

/-- Fetch the bundle at the pc: a poisoned word of instruction memory or of the routine store ends the step (R179, R206, R386). -/
def State.withFetch (s : State) (c : CoreId) (k : Core) (f : State → State) : State :=
  if k.frame.isSome then match s.storePoisonIn c (k.codeBase + 32 * k.pc) 32 with
    | some w => s.eccFail c 3 (storeLoc c w)
    | none => f (s.fixFetch c k)
  else s.withOwn c 2 imemLoc (fun q => (List.range 4).findSome? (fun i =>
    if Tab.get false q.imemPoison (4 * k.pc + i) then some (4 * k.pc + i) else none)) (fun s => f (s.fixFetch c k))

/-- Past the last bundle without a COMMIT (R205). -/
def State.pastEnd (s : State) (c : CoreId) : State :=
  let k := s.core c
  if s.issuing c && decide (k.codeLen ≤ k.pc) then s.failCore c 0x07 c.val else s

/-- The first bundle of a run issues; of the first run of an RT step, WORST_START is kept (R280). -/
def State.firstBundle (s : State) (p : PartId) (x : StepRec) : State :=
  match (s.part p).run with
  | none => s
  | some r =>
    if r.firstIssue then s
    else
      let s := s.modPart p (fun y => { y with run := some { r with firstIssue := true } })
      if x.rt ∧ x.starts = 1 then
        let ns := ticksNs (s.now - max x.tBell s.rt.freeAt)
        { s with rt := { s.rt with worstStart := BitVec.ofNat 32 (max s.rt.worstStart.toNat ns) } }
      else s

/-- The bundle at the head issues unless it is held. -/
def State.tryIssue (s : State) (c : CoreId) : State :=
  let k := s.core c
  match k.fetched, s.stepOf c with
  | ops :: rest, some (p, _, x) =>
    if !s.issuing c || bundleHeld k (s.part p).events.toList ops then s
    else s.withFetch c k (fun s =>
        if !(ops.all (operandsOk k)) then s.failCore c 0x03 0
        else
          let s := s.modCore c (fun k => { k with fetched := rest, watchdog := 0, issued := k.issued + 1 })
          let s := s.firstBundle p x
          let s := s.actSlots c k ops
          if !s.issuing c then s
          else
            let sq := ops.findSome? (fun o => match o with | .seq q => some q | _ => none)
            let s := s.actSeq c k sq p x
            let s := s.modCore c (fun k => { k with seq := k.seq + 1 })
            (s.pastEnd c).settleAga c)
  | _, _ => s

/-- FLAGS and ARRAYS of the image of a step. -/
def imageLimits (x : StepRec) : Nat × Nat :=
  match x.image with | some i => (imgFlags i.bytes, i.arrays) | none => (0, 0)

/-- A slot of the bundle that the core fetches arrives; `eob` closes the bundle, which issues at once when no earlier one
waits and nothing holds it (R188, R206). -/
def State.issueSlot (s : State) (c : CoreId) (eob : Bool) (o : SlotOp) : Out :=
  match s.issuing c, s.stepOf c with
  | true, some (_, _, x) =>
    let k := s.core c
    let ops := k.staged ++ [o]
    if dupes (ops.map SlotOp.slot) then .refused .unverifiedBundle
    else if !eob then .next (s.modCore c (fun k => { k with staged := ops }))
    else if k.fetched = [] then
      if bundleBad k (imageLimits x).1 (imageLimits x).2 ops then .refused .unverifiedBundle
      else .next ((s.modCore c (fun k => { k with staged := [], fetched := [ops] })).tryIssue c)
    else .next (s.modCore c (fun k => { k with staged := [], fetched := k.fetched ++ [ops] }))
  | _, _ => .refused .coreNotIssuing

/-- Whether the bundle at the pc holds a NOP in every slot (R184): no slot command names it. -/
def State.emptyBundle (s : State) (c : CoreId) (k : Core) : Bool :=
  decide (k.pc < k.codeLen) && k.staged.isEmpty &&
  (if k.frame.isSome then s.storeBytes c (k.codeBase + 32 * k.pc) 32
   else (List.range 32).map (fun i => Tab.get 0 k.imem (32 * k.pc + i))).all (fun b => decide (b = 0))

/-- BUNDLE_ISSUE_HOLD_RELEASE (R189): a hold of time is over; the head bundle issues if nothing else holds it, a bundle of
NOPs included, which brings no slot of its own. -/
def State.releaseHold (s : State) (c : CoreId) : Out :=
  match s.issuing c, s.stepOf c with
  | true, some (_, _, x) =>
    let s := s.modCore c (fun k => { k with timed := false })
    let k := s.core c
    match k.fetched with
    | ops :: _ =>
      if bundleBad k (imageLimits x).1 (imageLimits x).2 ops then .refused .unverifiedBundle else .next (s.tryIssue c)
    | [] =>
      if s.emptyBundle c k then .next ((s.modCore c (fun k => { k with fetched := [[]] })).tryIssue c) else .next s
  | _, _ => .refused .coreNotIssuing

end Sys2Proof.Machine
end

