-- ==== Sys2Proof/Machine/Commit.lean ====
section
/-!
DEFINITION. The collector and the commit phase: triggers, read-back flushes, completion records on their way, COMMITTED,
chain doorbells, strip rates, the interruption of a failover (R77, R239, R240, R243, R246, R251 to R253, R267, R276, R289,
R351, R388).
-/
namespace Sys2Proof.Machine

/-! ### Figures of a run -/

def RunSt.flags (r : RunSt) : Flags := orFlags (r.taken.map (·.flags))
/-- Narrowed and clipped counts of the run, saturating (R75). -/
def RunSt.narrowed (r : RunSt) : BitVec 48 := r.taken.foldl (fun n t => satInc n t.narrowed.toNat) 0
def RunSt.clipped (r : RunSt) : BitVec 48 := r.taken.foldl (fun n t => satInc n t.clipped.toNat) 0
/-- The ports to flush (R251). -/
def RunSt.ports (r : RunSt) : List PortId :=
  allPorts.filter (fun n => r.taken.any (fun t => t.ports.getLsbD n.val))

/-- Whether a trigger fires (R77). -/
def triggered (pol : Policy) (r : RunSt) : Bool :=
  let f := r.flags
  (pol.mask &&& f &&& (fSAT ||| fNAN ||| fINF)) != 0 ||
  (pol.mask.getLsbD 1 && decide (r.narrowed ≠ 0) &&
    decide (pol.limit.toNat * r.narrowed.toNat < r.clipped.toNat * 65536))

/-- Status of a committing run (R243). -/
def commitStatus (x : StepRec) (twin : Bool) : Byte := if twin then 0x08 else if x.lockKill then 0x0A else 0x00

/-! ### COMMITTED -/

/-- The windows of strip rates (R276): a step counts when its run had 2 cores or more and 2 strips or more per core. -/
def Partition.countRates (p : Partition) (r : RunSt) (strips : Nat) : Partition :=
  if r.cores.length < 2 ∨ strips < 2 * r.cores.length ∨ 16 ≤ p.rate.steps then p
  else { p with rate :=
    { steps := p.rate.steps + 1,
      rates := r.taken.foldl (fun t k =>
        let o := Tab.get (0, 0) t k.core.val
        Tab.set (0, 0) t k.core.val (o.1 + k.strips, o.2 + k.stripCclk)) p.rate.rates } }

/-- Credit of a queue for one CHAIN (R351). -/
def State.addCredit (s : State) (q : QueueId) : State :=
  { s with link := { s.link with chainCredit := upd s.link.chainCredit q (· + 1) } }

/-- One CHAIN message to target (engine, queue): this engine's own queue is credited, an engine that is not UP is counted
in CHAIN_DROPPED (R351, R352). -/
def State.sendChain (s : State) (p : PartId) (e : Nat) (q : QueueId) : State :=
  if e = s.pins.inst.val then s.addCredit q
  else if (s.link.peerState.toList.getD e 0) ≠ 1 then
    { s with link := { s.link with chainDropped := s.link.chainDropped + 1 } }
  else s.sendMsg (TxMsg.ofMsg (Msg.single (msgHeader 4 s.pins.inst.val e 0 p.val 0 0 0 q.val 0 0 0)))

/-- The targets of CHAIN_OUT of a queue: engine and queue. -/
def State.chainTargets (s : State) (q : QueueId) : List (Nat × QueueId) :=
  let v := (s.link.chainOut[q.val]).toNat
  (List.range 8).filterMap (fun i =>
    let t := fld v (16 * i + 15) (16 * i)
    if bitAt t 15 then some (fld t 8 6, ⟨t % 64, Nat.mod_lt _ (by decide)⟩) else none)

/-- An RT run committed (R388, R390, R395): the interruption that was open ends at its last token, the pairs' escalation is
over. -/
def State.rtCommitted (s : State) (r : RunSt) : State :=
  let f := s.fault
  let s := { s with fault := { f with
    pairs := f.pairs.map (fun (y : PairSt) => { y with stage := 0, former := none }), faultRunStart := none, failoverOpen := false } }
  match f.faultRunStart with
  | none => s
  | some t =>
    let ns := ticksNs (r.ended - t)
    let s := { s with fault := { s.fault with
      worstInterruption := BitVec.ofNat 32 (max f.worstInterruption.toNat ns),
      rtUnavailable := if s.rt.arm = .armed then bump f.rtUnavailable ns else f.rtUnavailable } }
    if f.failoverOpen then s.rtFault 0x43 none (ns / 1000) else s

/-- The interrupt of a completion record (R22, R279, Table 19-8); that of a Midwinter test step is IRQ[3] (R409). -/
def State.recordIrq (s : State) (q : QueueId) : State :=
  if s.start.mwTest.isSome then ({ s with start := { s.start with mwTest := none } }).irq 7
  else if (s.queue q).irqEn then s.irq (if (s.queue q).cls = 0 then 0 else 2) else s

/-- COMMITTED, with the commit word of a sealed step in the same act (R246, R253); a held kill is dropped (R249). -/
def State.commitStep (s : State) (p : PartId) (acked : Bool) : State :=
  match (s.part p).run with
  | none => s
  | some r =>
    match s.step? r.aseq with
    | none => s
    | some x =>
      if r.phase ≠ .commit then s
      else
        let s := s.transition r.aseq .committed (commitStatus x r.twin)
        let s := if x.desc.flip then s.modQueue x.queue (fun k => { k with cword := k.cword + 1 }) else s
        let s := if acked then s.recordIrq x.queue else s
        let s := (s.charge p x.queue (r.cores.length * r.tokenCclk) false).closeRun p r
        let s := s.modPart p (fun y =>
          { y.countRates r x.desc.strips with
            committed := y.committed + 1, lastNarrowed := r.narrowed.setWidth 64, lastClipped := r.clipped.setWidth 64 })
        let s := s.session x.ast (fun j => { j with committed := j.committed + 1 })
        let s := (s.chainTargets x.queue).foldl (fun s t => s.sendChain p t.1 t.2) s
        let s := if x.rt then s.rtCommitted r else s
        (s.dropStep r.aseq).settleSeason

/-! ### Completion records (R239, R267, R289) -/

/-- A record that cannot be written (R267, Table 12-6): its queue stops, its step reaches its final state all the same. -/
def State.recordFail (s : State) (r : PendRec) : State :=
  let s := ({ s with records := s.records.filter (fun x => x.id ≠ r.id), start := { s.start with mwTest := none } }).stopQueue r.queue
  match r.commits with
  | some _ => s.commitStep r.part false
  | none => s

def State.modRecord (s : State) (id : Nat) (f : PendRec → PendRec) : State :=
  { s with records := s.records.map (fun x => if x.id = id then f x else x) }

/-- Present a record's WRITEP and its FLUSH, one after the other, when two IDs are free; else it waits. -/
def State.presentRecord (s : State) (r : PendRec) (n : PortId) (pa : Nat) : State :=
  let w := r.bytes.zipIdx.map (fun b => (pa + b.2, b.1))
  match s.present n .writep (pa / 64 * 64) 1 r.qos true (.record r.id) w with
  | none => s.await n (.record r.id)
  | some s1 =>
    match s1.present n .flush 0 1 r.qos true (.recordFlush r.id) [] with
    | none => s.await n (.record r.id)
    | some s2 => s2.modRecord r.id (fun x => { x with issued := true, pa := some pa })

/-- Present the next read of a record's walk (R308). -/
def State.presentRecordWalk (s : State) (r : PendRec) (n : PortId) (w : WalkSt) : State :=
  match s.present n .read (w.entry / 64 * 64) 1 r.qos false (.walkRecord r.id) [] with
  | some s => s.modRecord r.id (fun x => { x with walk := some { w with asked := true } })
  | none => (s.modRecord r.id (fun x => { x with walk := some { w with asked := false } })).await n (.record r.id)

/-- Records that walk through a port: the four stewards have one walk slot each per cluster (R311). -/
def State.recordWalks (s : State) (n : PortId) : Nat :=
  s.records.countP (fun x => x.walk.isSome && decide (s.partPort x.part = n))

/-- Send a record on its way as far as it can go: translated through the steward cache, walked, or presented. It waits for
its port to be UP (R299), a Midwinter test step's goes through a HELD port. -/
def State.driveRecord (s : State) (id : Nat) : State :=
  match s.records.find? (fun x => x.id == id) with
  | none => s
  | some r =>
    let n := s.partPort r.part
    if r.bytes = [] ∧ !r.walk.any (·.asked) then { s with records := s.records.filter (fun x => x.id ≠ id) }
    else if r.issued ∨ !(s.portUp n || (s.inMidwinter && s.portCarries n)) then s
    else match r.walk with
      | some w => if w.asked then s else s.presentRecordWalk r n w
      | none =>
        let s := (s.stewardParity n r.ast r.va).tableParity n r.ast r.va
        match s.stewardLookup n r.ast r.va with
        | some (l, s) =>
          match l.rights .write with
          | some _ => s.recordFail r
          | none => s.presentRecord r n (l.addr r.va)
        | none =>
          if 4 ≤ s.recordWalks n then s
          else match s.walkBegin n r.ast r.va with
            | .error e => (s.countRange e).recordFail r
            | .ok w => s.countWalk.presentRecordWalk r n w

/-- Every record that waits. -/
def State.driveRecords (s : State) : State := s.records.foldl (fun s r => s.driveRecord r.id) s

/-- A response of a record has returned without error; with both it is acknowledged (R289). -/
def State.recordAck (s : State) (id : Nat) (flush : Bool) : State :=
  let s := s.modRecord id (fun x => if flush then { x with flDone := true } else { x with wrDone := true })
  match s.records.find? (fun x => x.id == id) with
  | none => s
  | some r =>
    if r.wrDone && r.flDone then
      let s := { s with records := s.records.filter (fun x => x.id ≠ id) }
      match r.commits with
      | some _ => s.commitStep r.part true
      | none => s.recordIrq r.queue
    else s

/-! ### Flushes and the commit phase -/

/-- Open the commit phase (R253): the record of the committing run is sent, with the commit word as it will be. -/
def State.openCommit (s : State) (p : PartId) : State :=
  match (s.part p).run with
  | none => s
  | some r =>
    let s := s.modPart p (fun y => { y with run := some { r with phase := .commit } })
    let s := s.modStep r.aseq (fun x => { x with flags := r.flags, cclk := r.tokenIssue })
    match s.step? r.aseq with
    | none => s
    | some x =>
      let w := (s.queue x.queue).cword
      let cw := if x.desc.flip then w + 1 else w
      (s.postRecord x.queue p (some r.aseq) (qosOf x.rt x.cls) x.desc.qseq.toNat
        (recordBytes x.desc.qseq.toNat x.aseq (commitStatus x r.twin) r.flags (x.starts - 1) x.queue.val r.tokenIssue 0
          cw.toNat)).driveRecords

/-- Issue the read-back flushes that are still to be issued (R251). -/
def State.driveFlush (s : State) (p : PartId) : State :=
  match (s.part p).run with
  | none => s
  | some r =>
    match r.phase, s.step? r.aseq with
    | .flushing todo left, some x =>
      let t := todo.foldl (fun (a : State × List PortId × Nat) n =>
        match a.1.present n .flush 0 1 (qosOf x.rt x.cls) false (.dataFlush p) [] with
        | some s => (s, a.2.1, a.2.2 + 1)
        | none => (a.1.await n (.flush p), a.2.1 ++ [n], a.2.2)) (s, [], left)
      t.1.modPart p (fun y => { y with run := some { r with phase := .flushing t.2.1 t.2.2 } })
    | _, _ => s

/-- A read-back flush returned; after the last the commit phase opens (R251). -/
def State.flushBack (s : State) (p : PartId) : State :=
  match (s.part p).run with
  | none => s
  | some r =>
    match r.phase with
    | .flushing todo left =>
      let s := s.modPart p (fun y => { y with run := some { r with phase := .flushing todo (left - 1) } })
      if todo = [] ∧ left ≤ 1 then s.openCommit p else s
    | _ => s

/-- Begin stage 8 (R251): the last token is taken; one flush on each port of the run's mask, none when it wrote no host memory. -/
def State.beginFlush (s : State) (p : PartId) : State :=
  match (s.part p).run with
  | none => s
  | some r0 =>
    let r := { r0 with tokenCclk := r0.cclk, tokenIssue := r0.issueCclk }
    let s := s.modPart p (fun y => { y with run := some r })
    if r.ports = [] then s.openCommit p
    else (s.modPart p (fun y => { y with run := some { r with phase := .flushing r.ports 0 } })).driveFlush p

end Sys2Proof.Machine
end

