-- ==== Sys2Proof/Machine/PortRows.lean ====
section
/-!
DEFINITION. Responses on the memory ports: read data, walk reads, acknowledgements, flushes, errors, timeouts, and the
settling of a port (R284 to R299, R308, R314, R316).
-/
namespace Sys2Proof.Machine

/-! ### The arbiter (R293) -/

/-- QOS of what a waiter asks for; none where it asks for nothing any more. -/
def State.waiterQos (s : State) (w : Waiter) : Option Nat :=
  match w with
  | .stream c t => if (s.dmaHead c t).isSome then (s.stepOf c).map (fun y => (qosOf y.2.2.rt y.2.2.cls).val) else none
  | .flush p => ((s.part p).run.bind (fun r => s.step? r.aseq)).map (fun x => (qosOf x.rt x.cls).val)
  | .record id => (s.records.find? (fun x => x.id == id)).map (fun r => r.qos.val)

/-- The order in which weighted round robin serves QOS 2, 1 and 0 at 4 : 2 : 1; how the shares interleave is a DESIGN CHOICE
(assumption log 71). -/
def qosTurns : List Nat := [2, 2, 2, 2, 1, 1, 0]

/-- The place in the round robin of the next level that has a waiter. -/
def nextTurn (turn : Nat) (levels : List Nat) : Option Nat :=
  ((List.range 7).map (fun i => (turn + i) % 7)).find? (fun i => decide (qosTurns.getD i 0 ∈ levels))

/-- The waiter the arbiter serves next, and where the round robin goes on: the oldest of QOS 3, else the oldest of the level whose
turn it is. -/
def State.pickWaiter (s : State) (n : PortId) (tried : List Waiter) : Option (Waiter × Nat) :=
  let p := s.port n
  let ws := (p.order.filter (· ∉ tried)).filterMap (fun w => (s.waiterQos w).map (fun q => (w, q)))
  match ws.find? (fun x => decide (x.2 = 3)) with
  | some x => some (x.1, p.turn)
  | none =>
    match nextTurn p.turn (ws.map (·.2)) with
    | none => none
    | some i => (ws.find? (fun x => decide (x.2 = qosTurns.getD i 0))).map (fun x => (x.1, (i + 1) % 7))

/-- Let one waiter go on. -/
def State.serveWaiter (s : State) (w : Waiter) : State :=
  match w with
  | .stream c t => s.driveDma c t
  | .flush p => s.driveFlush p
  | .record id => s.driveRecord id

/-- Serve the waiters of a port in the arbiter's order; one for whose request no ID is free keeps its place. -/
def State.wakeN (s : State) (n : PortId) : Nat → List Waiter → State
  | 0, _ => s
  | k + 1, tried =>
    match s.pickWaiter n tried with
    | none => s
    | some (w, turn) =>
      let t := (s.modPort n (fun p => { p with order := p.order.erase w })).serveWaiter w
      if (t.port n).txns.length ≤ (s.port n).txns.length ∧ w ∈ (t.port n).order then
        (t.modPort n (fun p => { p with order := (s.port n).order })).wakeN n k (w :: tried)
      else (t.modPort n (fun p => { p with turn := turn })).wakeN n k tried

/-- Everything that waits for a port's IDs goes on, then the records that wait for a walk slot. -/
def State.wakePort (s : State) (n : PortId) : State := (s.wakeN n ((s.port n).order.length + 8) []).driveRecords

/-- The head of a stream when it is the command that a response belongs to. -/
def State.headIs (s : State) (c : CoreId) (t : Fin 8) (seq : Nat) : Bool :=
  match s.dmaHead c t with | some f => decide (f.seq = seq) | none => false

/-- Read data of a DMA piece: the bytes asked for, at their offset (R284, R303). -/
def State.takeData (s : State) (c : CoreId) (t : Fin 8) (seq off len lead : Nat) (bs : List Byte) : State :=
  if s.headIs c t seq then
    (s.modHead c t (fun f => { f with openTx := f.openTx - 1, got := Tab.put f.got off ((bs.drop lead).take len) })).driveDma c t
  else s

/-- A read of a stream's walk returned (R305 to R308, R314, R316). -/
def State.walkStreamBack (s : State) (c : CoreId) (t : Fin 8) (bs : List Byte) (err : Nat) : State :=
  match s.dmaHead c t, s.stepOf c with
  | some f, some (_, _, x) =>
    match f.walk with
    | none => s
    | some w =>
      let idle := fun (s : State) => s.modHead c t (fun f => { f with walk := none })
      let qos := qosOf x.rt x.cls
      if w.restart then
        match s.walkTop w.ast w.va with
        | .error e => (idle (s.countRange e)).streamFault c t x.ast w.va f.access e
        | .ok w' => s.countWalk.presentWalk c t qos w'
      else match walkRead w (leAt bs (w.entry % 64) 8) err with
        | .fault e => (idle s).streamFault c t x.ast (if e.cause = 5 then e.pa else w.va) f.access e
        | .more w' te =>
          (s.cacheTable (clusterOf c) te).presentWalk c t qos w'
        | .leaf l => ((idle s).streamInsert c t l).driveDma c t
  | _, _ => s

/-- A read of a record's walk returned; a fault stops the queue (R267). -/
def State.walkRecordBack (s : State) (id : Nat) (n : PortId) (bs : List Byte) (err : Nat) : State :=
  match s.records.find? (fun x => x.id == id) with
  | none => s
  | some r =>
    match r.walk with
    | none => s
    | some w =>
      let idle := fun (s : State) => s.modRecord id (fun x => { x with walk := none })
      if r.bytes = [] then (idle s).driveRecord id
      else if w.restart then
        match s.walkTop w.ast w.va with
        | .error e => (s.countRange e).recordFail r
        | .ok w' => s.countWalk.presentRecordWalk r n w'
      else match walkRead w (leAt bs (w.entry % 64) 8) err with
        | .fault _ => s.recordFail r
        | .more w' te => (s.cacheTable n te).presentRecordWalk r n w'
        | .leaf l => ((idle s).stewardInsert n l).driveRecord id

/-- A read returned whole, without error. -/
def State.readBack (s : State) (n : PortId) (o : Owner) (bs : List Byte) : State :=
  match o with
  | .dma c t seq off len lead => s.takeData c t seq off len lead bs
  | .walkStream c t => s.walkStreamBack c t bs 0
  | .walkRecord id => s.walkRecordBack id n bs 0
  | _ => s

/-- The access of a port operation (Table 13-6). -/
def opAccess : PortOp → Access
  | .read => .read | .addf32 => .atomic | .addbf16 => .atomic | _ => .write

/-- An error response reaches its traffic (Table 12-6). A fault detected after the run was stopped is not reported (R316). -/
def State.errorBack (s : State) (n : PortId) (t : Txn) (err : Nat) : State :=
  let e : XFault := ⟨6, 0, err, 0⟩
  match t.owner with
  | .dma c st seq _ _ _ =>
    match s.stepOf c with
    | some (_, _, x) => if s.headIs c st seq then s.streamFault c st x.ast t.addr (opAccess t.op) e else s
    | none => s
  | .walkStream c st => s.walkStreamBack c st [] err
  | .walkRecord id => s.walkRecordBack id n [] err
  | .record id => match s.records.find? (fun x => x.id == id) with | some r => s.recordFail r | none => s
  | .recordFlush id => match s.records.find? (fun x => x.id == id) with | some r => s.recordFail r | none => s
  | .dataFlush p =>
    match (s.part p).run with
    | some r =>
      let w := causeSteward e .write n.val
      let ast := match s.step? r.aseq with | some x => x.ast | none => 0
      (s.reportFault 0 ast w).failRun p 0x02 w
    | none => s
  | .dropped => s

/-- What every response does first: an absent port has no signals, a port that is down takes no response (R298), a response
must answer an open transaction of its kind (R286). -/
def State.response (s : State) (n : PortId) (id : Byte) (kind : PortOp → Bool) (f : Txn → Out) : Out :=
  if s.build.c ≤ n.val then .refused .absentPart
  else if !s.portCarries n then .next s
  else match s.txn? n id with
    | none => .fault .foreignResponse
    | some t => if kind t.op then f t else .fault .foreignResponse

/-- PORT_READ_DATA (R284, R286, R294): one beat; after the last the read is over. -/
def execPortReadData (n : PortId) (id : Byte) (beat : Beat) (last : Bool) (s : State) : Out :=
  s.response n id (fun o => decide (o = .read)) (fun t =>
    let bs := t.rdata ++ leBytes 64 beat.toNat
    if last ≠ decide (64 * t.beats ≤ bs.length) then .refused .malformedOperand
    else
      let s := (s.rtLateness n t).modPort n (fun p => { p with bytesRead := bump p.bytesRead 64 })
      if last then .next (((s.readBack n t.owner bs).dropTxn n id).wakePort n)
      else .next (s.modPort n (fun p => { p with txns := p.txns.map (fun (x : Txn) => if x.id = id then { x with rdata := bs } else x) })))

/-- PAGE_WALK_READ_RETURN (R308): the read of one entry returns, with or without an error. -/
def execPageWalkReadReturn (n : PortId) (id : Byte) (err : BitVec 2) (beat : Beat) (s : State) : Out :=
  s.response n id (fun o => decide (o = .read)) (fun t =>
    if t.beats ≠ 1 then .refused .malformedOperand
    else
      let s := s.rtLateness n t
      if err = 0 then
        let s := s.modPort n (fun p => { p with bytesRead := bump p.bytesRead 64 })
        .next (((s.readBack n t.owner (leBytes 64 beat.toNat)).dropTxn n id).wakePort n)
      else .next ((((s.portError n t.addr (opCode t.op) err.toNat t.qos.val).errorBack n t err.toNat).dropTxn n id).wakePort n))

/-- PORT_WRITE_ACK (R287). -/
def execPortWriteAck (n : PortId) (id : Byte) (s : State) : Out :=
  s.response n id PortOp.writes (fun t =>
    let s := (s.rtLateness n t).modPort n (fun p => { p with bytesWritten := bump p.bytesWritten t.wdata.length })
    let s := match t.owner with
      | .dma c st seq _ _ _ =>
        if s.headIs c st seq then (s.modHead c st (fun f => { f with openTx := f.openTx - 1 })).driveDma c st else s
      | .record r => s.recordAck r false
      | _ => s
    .next ((s.dropTxn n id).wakePort n))

/-- PORT_FLUSH_DONE (R288, R251, R289). -/
def execPortFlushDone (n : PortId) (id : Byte) (s : State) : Out :=
  s.response n id (fun o => decide (o = .flush)) (fun t =>
    let s := s.rtLateness n t
    let s := match t.owner with
      | .dataFlush p => s.flushBack p
      | .recordFlush r => s.recordAck r true
      | _ => s
    .next ((s.dropTxn n id).wakePort n))

/-- PORT_ERROR_RESPONSE (R295, Table 12-6): it ends its transaction. -/
def execPortErrorResponse (n : PortId) (id : Byte) (err : BitVec 2) (s : State) : Out :=
  s.response n id (fun _ => true) (fun t =>
    if err = 0 then .refused .malformedOperand
    else
      let s := (s.rtLateness n t).portError n t.addr (opCode t.op) err.toNat t.qos.val
      .next (((s.errorBack n t err.toNat).dropTxn n id).wakePort n))

/-- PORT_TIMEOUT (R296): a transaction that has waited TIMEOUT makes the port FAILED. -/
def execPortTimeout (n : PortId) (id : Byte) (s : State) : Out :=
  match s.txn? n id with
  | none => .next s
  | some _ => .next (s.portLost n .failed)

/-- A port reaches UP: what waited for it goes on (R299). -/
def State.portRises (s : State) (n : PortId) : State := (s.modPort n (fun p => { p with state := .up })).driveRecords

/-- SETTLING_EXPIRY (R299): UP with AUTO_RESUME, else HELD with health event 0x06; M0 enters HELD only after a Thaw (R365). -/
def execSettlingExpiry (n : PortId) (s : State) : Out :=
  if (s.port n).state ≠ .settling then .next s
  else if (s.port n).autoResume then .next (s.portRises n)
  else if n = 0 ∧ s.power.season = .thaw ∧ s.serving then .next (s.modPort n (fun p => { p with settled := true }))
  else .next (((s.modPort n (fun p => { p with state := .held })).health 0x06 none n.val n.val).driveRecords)

end Sys2Proof.Machine
end

