-- ==== Sys2Proof/Machine/Power.lean ====
section
/-!
DEFINITION. Seasons, supplies, P-state changes, droop, ALERT_N, the estimator, telemetry, the cap loop and the thermal
response (R355 to R380, R444, R445).
-/
namespace Sys2Proof.Machine

/-! ### Seasons (R358 to R363) -/

/-- The conditions of R360. -/
def State.idle (s : State) : Bool :=
  decide (s.power.season = .spring) && s.serving && s.steps.isEmpty &&
  allQueues.all (fun q => !(s.queue q).enable || decide ((s.queue q).tail = (s.queue q).fetch)) &&
  decide (s.rt.arm = .disarmed) &&
  allParts.all (fun p => (s.part p).loading.isNone) &&
  s.sets.slots.toList.all (fun w => decide (w.pendState ≠ .loading)) &&
  s.start.update.isNone && s.start.libLoading.isNone && decide (s.ctl.pdState ≠ .busy) &&
  (!s.formed || s.power.stackWinter)

/-- IDLE_TIMEOUT_EXPIRY (R360). -/
def execIdleTimeoutExpiry (s : State) : Out :=
  if s.idle ∧ s.power.idleTimeout ≠ 0 then .next s.enterAutumn else .next s

/-- Present clusters as a list. -/
def State.presentClusters (s : State) : List ClusterId := (List.finRange 4).filter (fun cl => decide (cl.val < s.build.c))

/-- The Stack Link ports lose power (R366): until their HELLO comes again the peers are LOST here, without an event, and an
engine that knew a master is STANDALONE. -/
def LinkSt.sleep (x : LinkSt) (master : Bool) (inst : Nat) : LinkSt :=
  { x with ports := x.ports.map LinkPort.powerOff, peerState := x.peerState.map (fun (v : Byte) => if v = 1 then 2 else v),
           reachable := BitVec.ofNat 8 (2 ^ inst), masterId := if master then x.masterId else 0xFF,
           stackState := if x.stackState = 1 ∧ !master then 2 else x.stackState,
           reports := Vector.replicate 8 none, reported := none, order := none,
           duplicate := 0, refusedFor := [], reads := [], flushes := [] }

/-- Autumn's actions 4 and 5 are over: the engine is in Winter, with the losses of Table 16-6. -/
def State.enterWinter (s : State) : State :=
  let s := s.presentClusters.foldl (fun s cl =>
    if s.power.retainMask.getLsbD cl.val then s else s.dropSlice cl (decide (cl = 0))) s
  let s := { s with
    cores := s.cores.map (fun _ => Core.reset),
    xlate := { s.xlate with streams := [], stewards := Vector.replicate 4 [], walkCache := Vector.replicate 4 [] },
    link := s.link.sleep (decide (s.pins.master = true)) s.pins.inst.val,
    start := { s.start with store := Vector.replicate 4 [], storePoison := Vector.replicate 4 [], storeFlip := Vector.replicate 4 [],
                            storesLost := s.start.libLast.isSome, storeLost := Vector.replicate 8 (some s.deep.losses) },
    deep := { s.deep with losses := s.deep.losses + 1 } }
  (s.modPower (fun p => { p with season := .winter, autumnStage := 0, onAon := true, pllLocked := false, pwrReq := 0,
                                 winters := p.winters + 1, change := none, ordered := p.pstate, pstReq := p.pstate,
                                 slow := 0 })).irq 6

/-- WINTER_ENTRY (R361): PWR_REQ[0] falls, the last of the requests, once action 4 is over and the other clusters' have fallen. -/
def execWinterEntry (s : State) : Out :=
  if s.power.season = .autumn ∧ s.power.autumnStage = 4 ∧ s.power.pwrReq.toNat ≤ 1 then .next s.enterWinter else .next s

/-- Raise PWR_REQ where the acknowledgement is low (R444). -/
def State.raiseSupplies (s : State) : State :=
  s.modPower (fun p => { p with pwrReq := p.pwrReq ||| (s.build.present &&& ~~~p.pwrAck) })

/-- A wake event (R363): it starts Thaw, or ends Autumn; during SHUTDOWN's rest it is held (Table 16-8). -/
def State.wake (s : State) : State :=
  if !s.serving then s
  else match s.power.season with
    | .winter =>
      if s.power.thermal = .shutdown then s.modPower (fun p => { p with wakeHeld := true })
      else (s.modPower (fun p => { p with season := .thaw, thawStart := s.now })).raiseSupplies
    | .autumn =>
      if s.power.thermal = .shutdown then s.modPower (fun p => { p with wakeHeld := true })
      else if s.power.autumnStage < 4 then
        s.modPower (fun p => { p with season := .spring, autumnStage := 0 })
      else (s.modPower (fun p => { p with autumnStage := 5 })).raiseSupplies
    | _ => s

/-- Autumn is given up before Winter (R361): at once while the PLLs run, else when they have locked again. -/
def State.leaveAutumn (s : State) : State :=
  if s.power.autumnStage < 4 then s.modPower (fun p => { p with season := .spring, autumnStage := 0 })
  else (s.modPower (fun p => { p with autumnStage := 5 })).raiseSupplies

/-! ### Supplies (R444, R445) -/

/-- Whether a cluster's supply is wanted (R408, R444). -/
def State.wantsSupply (s : State) (cl : ClusterId) : Bool :=
  decide (cl.val < s.build.c) &&
  (match s.start.state with
   | .unstarted => false
   | .midwinter => decide (cl = 0)
   | _ => decide (s.power.season ≠ .winter))

/-- A port whose link is high settles (R299). -/
def State.settlePort (s : State) (n : PortId) : State :=
  if (s.port n).state = .down ∧ (s.port n).linkUp then s.modPort n (fun p => { p with state := .settling }) else s

/-- PWR_ACK_RISE (R444); the acknowledgement of an absent cluster is ignored. -/
def execPwrAckRise (cl : ClusterId) (s : State) : Out :=
  if s.build.c ≤ cl.val then .next s
  else .next ((s.modPower (fun p => { p with pwrAck := putBit p.pwrAck cl.val })).settlePort cl)

/-- PWR_ACK_FALL (R444, R445): the domain is off; a supply that is wanted is asked for again. -/
def execPwrAckFall (cl : ClusterId) (s : State) : Out :=
  if s.build.c ≤ cl.val ∨ s.power.pwrReq.getLsbD cl.val then .next s
  else
    let s := s.modPower (fun p => { p with pwrAck := clearBit p.pwrAck cl.val })
    .next (if s.wantsSupply cl then s.modPower (fun p => { p with pwrReq := putBit p.pwrReq cl.val }) else s)

/-- A cluster other than 0 loses its supply (R445). -/
def State.loseCluster (s : State) (cl : ClusterId) : State :=
  let s := s.portLost cl (if (s.port cl).state = .failed then .failed else .down)
  let s := (List.finRange 5).foldl (fun s i => s.modCore (coreAt cl i) (fun _ => Core.reset)) s
  let s := s.dropSlice cl false
  let s := { s with start := { s.start with store := upd s.start.store cl (fun _ => []),
                                            storePoison := upd s.start.storePoison cl (fun _ => []),
                                            storeFlip := upd s.start.storeFlip cl (fun _ => []),
                                            storesLost := s.start.libLast.isSome,
                                            storeLost := Vector.ofFn (fun i : Fin 8 =>
                                              if i.val / 2 = cl.val then some s.deep.losses else s.start.storeLost[i.val]) },
                         deep := { s.deep with losses := s.deep.losses + 1 } }
  s.modPower (fun p => { p with pwrReq := clearBit p.pwrReq cl.val })

/-- PWR_ACK_LOSS (R445). -/
def execPwrAckLoss (cl : ClusterId) (s : State) : Out :=
  if s.build.c ≤ cl.val ∨ !s.power.pwrReq.getLsbD cl.val ∨ !s.power.pwrAck.getLsbD cl.val then .next s
  else
    let s := s.modPower (fun p => { p with pwrAck := clearBit p.pwrAck cl.val })
    if cl.val ≠ 0 then .next (s.loseCluster cl)
    else match s.start.state with
      | .starting => .next (s.startFail .stewardLoss 0)
      | .probation => .next (s.startFail .stewardLoss 0)
      | _ => .next (s.restart 3)

/-! ### P-state changes (R369) -/

/-- Go on with an order that waited (R369). -/
def State.nextChange (s : State) : State := s.startChange s.power.ordered

/-- PST_ACK_RISE: a faster change glides the core PLL up. -/
def execPstAckRise (s : State) : Out :=
  let s := s.modPower (fun p => { p with pstAck := true })
  match s.power.change with
  | some c =>
    if c.faster ∧ !c.gliding then .next (s.modPower (fun p => { p with change := some { c with gliding := true } }))
    else .next s
  | none => .next s

/-- A faster change is given up: an order for the same P-state is a new one (R369), a later one that waited stands. -/
def State.giveUpChange (s : State) (c : PstChange) : State :=
  (s.modPower (fun p => { p with change := none, ordered := if p.ordered.val = c.target then p.pstate else p.ordered })).health
    0x0C none 0 c.target

/-- PST_ACK_TIMEOUT: the engine stays at the slower frequency; event 0x0C. An order that waited goes on. -/
def execPstAckTimeout (s : State) : Out :=
  match s.power.change with
  | some c =>
    if c.faster ∧ !c.gliding then .next (s.giveUpChange c).nextChange
    else .next s
  | none => .next s

/-- GLIDE_END: PSTATE reads the new P-state; a slower change then drives its code; the divider of R371 goes. -/
def execGlideEnd (s : State) : Out :=
  match s.power.change with
  | some c =>
    if c.gliding then
      .next (s.modPower (fun p =>
        { p with change := none, pstate := pst c.target, pstReq := pst c.target, pstChanges := p.pstChanges + 1,
                 alertDivider := false })).nextChange
    else .next s
  | none => .next s

/-- PSTATE_ORDER_INSTANT (R350, R369): the order in force takes effect; a slower change has glided and drives its code
now, a faster one drives its code and waits for PST_ACK. -/
def execPstateOrderInstant (s : State) : Out :=
  match s.link.order with
  | none => .next s
  | some (p, _) =>
    if !s.formed then .next s
    else
      let t := pst p
      if s.power.pstate < t ∧ s.power.change = none then
        .next (s.modPower (fun w => { w with ordered := t, pstate := t, pstReq := t, pstChanges := w.pstChanges + 1 }))
      else .next (s.orderP t)

/-! ### Droop and ALERT_N (R370, R371) -/

/-- The cores that stretch with a core: a pair and the spare kept in step with it, on a detection at any of them (R370). -/
def State.stretchSet (s : State) (c : CoreId) : List CoreId :=
  let hot := fun (i : Fin 5) => decide (s.fault.hotSpare = some i)
  let inPair := fun (y : PairSt) (i : Fin 5) => decide (y.lead = some i ∨ y.checker = some i)
  if !s.rtRole c then [c]
  else allCores.filter (fun d => decide (d = c) || (decide (d.val < 5) && s.fault.pairs.toList.any (fun y =>
    (hot (indexOf c) || inPair y (indexOf c)) && (hot (indexOf d) || inPair y (indexOf d)))))

/-- DROOP_DETECT: stretched cycles are counted. -/
def execDroopDetect (c : CoreId) (cycles : Nat) (s : State) : Out :=
  if !s.booted ∨ s.power.season = .winter ∨ s.power.season = .thaw then .next s
  else
    let set := s.stretchSet c
    let s := set.foldl (fun s d => s.modPower (fun p =>
      { p with stretches := upd p.stretches d (fun x => bump x cycles) })) s
    .next (if s.rtRole c then s.modPower (fun p => { p with rtStretches := bump p.rtStretches cycles }) else s)

/-- ALERT_N_FALL (R371). -/
def execAlertNFall (s : State) : Out :=
  let s := s.modPower (fun p => { p with alertLow := true })
  if !s.serving ∨ s.power.season = .winter ∨ s.power.season = .thaw then .next s
  else .next s.answerAlert

/-- ALERT_HOLD_EXPIRY (R371): ALERT_N has been high for ALERT_HOLD. -/
def execAlertHoldExpiry (s : State) : Out :=
  if !s.power.alertLimit then .next (s.modPower (fun p => { p with alertLow := false }))
  else .next (s.modPower (fun p => { p with alertLimit := false, alertLow := false })).relimit

/-! ### Estimator, telemetry and the cap loop (R372 to R375) -/

/-- U16 entry of a per-P-state table. -/
def perP (bs : List Byte) (p : Nat) : Nat := leAt bs (2 * p) 2

/-- A spare in use: the hot spare, or the spare that holds an index. -/
def State.spareUsed (s : State) (c : CoreId) : Bool :=
  s.rtRole c || (decide (c.val % 5 = 4) && (s.substOf (c.val / 5)).isSome)

/-- A core in a run whose token it has not sent (R375). -/
def State.tokenDue (s : State) (c : CoreId) : Bool :=
  match s.runOf c with
  | some p => (s.part p).run.any (fun r => (r.arrived ++ r.taken).all (fun t => decide (t.core ≠ c)))
  | none => false

/-- Powered: GATED or ACTIVE (R358). A parked core goes OFF once its token is sent (R375); a core whose index the spare serves is
OFF. -/
def State.powered? (s : State) (c : CoreId) : Bool :=
  (decide (s.power.season ≠ .winter) && decide (s.power.season ≠ .thaw)) && (decide (c ∉ s.power.parked) || s.tokenDue c) &&
  ((s.usable c && decide (s.substOf (c.val / 5) ≠ some (c.val % 5)) && allParts.any (fun p => (s.part p).coreMask.getLsbD c.val)) ||
    s.spareUsed c)

def State.poweredCores (s : State) : Nat := (allCores.filter (fun c => s.powered? c)).length

/-- E and the estimate with k = 1 (R372), rounded down to mW. -/
def State.estimate (s : State) (counts : List Nat) : Nat × Nat :=
  let t := s.power.estInUse
  let p := s.power.pstate.val
  let dyn := perP (slice t 64 12) p
  let ev := ((List.range 16).map (fun e => counts.getD e 0 * leAt t (4 * e) 4)).sum
  let num := ev * dyn + (perP (slice t 76 12) p * s.poweredCores + perP (slice t 88 12) p) * (1024 * 1000000)
  (s.power.calFactor.toNat * num / (65536 * (1024 * 1000000)), num / (1024 * 1000000))

/-- Parked cores that are not OFF yet (R374). -/
def State.pendingParks (s : State) : Nat := (s.power.parked.filter (fun c => s.tokenDue c)).length

/-- Unparked usable cores of a partition that serve its image. -/
def State.unparked (s : State) (p : PartId) : Nat :=
  ((s.maskCores p (s.arraysMin p)).filter (fun c => decide (c ∉ s.power.parked))).length

/-- Cores that may be parked, with their partition (R375). -/
def State.parkable (s : State) : List (CoreId × PartId) :=
  allCores.filterMap (fun c =>
    match allParts.find? (fun p => (s.part p).coreMask.getLsbD c.val) with
    | some p =>
      let spare := if c ∈ s.maskCores p (s.arraysMin p) then 1 else 0
      if !(s.part p).rt ∧ !s.rtRole c ∧ s.usable c ∧ s.substOf (c.val / 5) ≠ some (c.val % 5) ∧ c ∉ s.power.parked ∧ s.minOf p + spare ≤ s.unparked p then some (c, p)
      else none
    | none => none)

/-- The order of R375: GATED first, then the highest class number, then the highest core. -/
def State.parkBefore (s : State) (x y : CoreId × PartId) : Bool :=
  let gx := (s.runOf x.1).isNone
  let gy := (s.runOf y.1).isNone
  if gx ≠ gy then gx
  else if gx then decide (y.1 < x.1)
  else if s.classOf x.2 ≠ s.classOf y.2 then decide (s.classOf y.2 < s.classOf x.2)
  else decide (y.1 < x.1)

def State.parkPick (s : State) : Option CoreId :=
  match s.parkable with
  | [] => none
  | x :: r => some (r.foldl (fun m y => if s.parkBefore y m then y else m) x).1

/-- Whether the state one faster is estimated at 0.95 × CAP_MW or less (R374). -/
def State.fasterFits (s : State) (e p : Nat) : Bool :=
  let w := s.power
  let k := w.calFactor.toNat
  let base := fun q => perP w.leak q * s.poweredCores + perP w.unc q
  let den := mhz p * perP w.dyn p
  let nxt := (e * 65536 - k * base p) * (mhz (p - 1) * perP w.dyn (p - 1)) + k * base (p - 1) * den
  decide (20 * nxt ≤ 19 * w.capMw.toNat * 65536 * den)

/-- The cap loop (R374). -/
def State.capLoop (s : State) (e : Nat) : State :=
  let w := s.power
  let c := w.pstate.val
  let p := max w.capP c
  let proj := e - s.pendingParks * perP w.full c
  let rested := decide (w.lastAct + 64 ≤ s.now)
  if w.capMw.toNat < proj then
    let s := s.modPower (fun w => { w with calm := 0, capP := p })
    if !rested then s
    else
      let s := s.modPower (fun w => { w with lastAct := s.now })
      if p < s.link.stackFloor then s.modPower (fun w => { w with capP := p + 1 })
      else match s.parkPick with
        | some x => s.modPower (fun w => { w with parked := x :: w.parked })
        | none =>
          let first := !s.power.excursion
          let s := s.modPower (fun w => { w with capUnheld := w.capUnheld + 1, excursion := true })
          if first then s.health 0x0F none 0 0 else s
  else
    let calm := w.calm + 1
    let s := s.modPower (fun w => { w with calm := calm, capP := p, excursion := false })
    if calm < w.capHold.toNat ∨ !rested then s
    else match w.parked with
      | _ :: r =>
        if 20 * (proj + perP w.full c) ≤ 19 * w.capMw.toNat then
          s.modPower (fun w => { w with parked := r, lastAct := s.now, calm := 0 })
        else s
      | [] =>
        if 0 < p ∧ p = c ∧ s.fasterFits e p then s.modPower (fun w => { w with capP := p - 1, lastAct := s.now, calm := 0 })
        else s

/-- ESTIMATOR_PERIOD (R372, R374): the estimate, the cap loop, and the settings of the next period. -/
def execEstimatorPeriod (counts : List Nat) (s : State) : Out :=
  if !s.serving ∨ !(s.awake || (decide (s.power.season = .autumn) && decide (s.power.autumnStage = 3))) then .next s
  else
    let e := s.estimate counts
    let s := s.modPower (fun p => { p with estimateMw := BitVec.ofNat 32 e.1, estSum := p.estSum + e.2,
                                           estInUse := p.coeff ++ p.dyn ++ p.leak ++ p.unc })
    .next (s.capLoop e.1).relimit

/-- TLM_SAMPLE (R373, R447): samples of Winter and Thaw are discarded. -/
def execTlmSample (v : Word) (s : State) : Out :=
  if !s.serving ∨ s.power.season = .winter ∨ s.power.season = .thaw then .next s
  else .next (s.modPower (fun p => { p with tlmEnergy := p.tlmEnergy + v.toNat * p.tlmLsb.toNat, tlmSamples := p.tlmSamples + 1 }))

/-- k of a period in 1/65,536, before the clamp; a period whose estimates sum to 0 is above any clamp. -/
def calRatio (energy est : Nat) : Nat := if est = 0 then 131073 else energy * 65536 / est

/-- CAL_PERIOD_END (R373). -/
def execCalPeriodEnd (s : State) : Out :=
  if !s.serving then .next s
  else
    let w := s.power
    let clear := fun (p : PowerSt) => { p with tlmEnergy := 0, tlmSamples := 0, estSum := 0 }
    if w.tlmSamples = 0 ∨ w.tlmLsb = 0 then .next (s.modPower clear)
    else
      let k := calRatio w.tlmEnergy w.estSum
      let out := decide (k < 32768) || decide (131072 < k)
      let s := s.modPower (fun p => { clear p with calFactor := BitVec.ofNat 32 (max 32768 (min 131072 k)) })
      .next (if out then (s.modPower (fun p => { p with calOut := p.calOut + 1 })).health 0x0E none 0 0 else s)

/-! ### Thermal response (R377) -/

/-- The hottest reading in half degrees, over the sensors of present clusters and of the control layer. -/
def State.hottest (s : State) (xs : List Int) : Option Int :=
  let ys := ((xs.zip (s.power.sensorOff ++ List.replicate 18 0)).zipIdx.filter
    (fun y => decide (y.2 < 4 * s.build.c) || (decide (16 ≤ y.2) && decide (y.2 < 18)))).map (fun y => y.1.1 + y.1.2)
  match ys with
  | [] => none
  | y :: r => some (r.foldl max y)

/-- Every run is killed, the service halts with reason 4, Autumn is entered, from Summer once the runs have drained (Tables 16-3 and
16-8); a wake event that was bringing the engine back is held. -/
def State.shutdown (s : State) : State :=
  let s := allParts.foldl (fun s p => s.killRun p 0x01) s
  let s := if s.rt.arm = .disarmed ∨ s.rt.arm = .halted then s else s.haltRt 4
  let s := s.modPower (fun p => { p with thermal := .shutdown })
  match s.power.season with
  | .spring => s.enterAutumn
  | .summer => s.settleSeason
  | .autumn =>
    if s.power.autumnStage = 5 then s.modPower (fun p => { p with autumnStage := 4, pllLocked := false, wakeHeld := true }) else s
  | _ => s

/-- The limit of WARM: one slower per 1 ms at or above T_WARN, one faster per 10 ms below T_WARN − 5 °C. -/
def State.warm (s : State) (t : Int) : State :=
  let w := s.power
  let tw := w.tWarn.toInt
  let band := if tw ≤ t then 1 else if t < tw - 5 then 2 else 0
  if t < tw ∧ w.thermalLimit = 0 then s.modPower (fun p => { p with thermal := .normal, thermalBand := 0 })
  else if band ≠ w.thermalBand then s.modPower (fun p => { p with thermalBand := band, thermalSince := s.now })
  else if band = 1 ∧ w.thermalSince + 16000 ≤ s.now then
    s.modPower (fun p => { p with thermalLimit := min 5 (p.thermalLimit + 1), thermalSince := s.now })
  else if band = 2 ∧ w.thermalSince + 160000 ≤ s.now then
    s.modPower (fun p => { p with thermalLimit := p.thermalLimit - 1, thermalSince := s.now,
                                  thermal := if p.thermalLimit ≤ 1 then .normal else .warm })
  else s

/-- THERMAL_SAMPLE (R377), readings in half degrees Celsius. -/
def execThermalSample (halfDegrees : List Int) (s : State) : Out :=
  if !s.serving ∨ s.power.season = .winter ∨ s.power.season = .thaw then .next s
  else match s.hottest halfDegrees with
    | none => .next s
    | some h =>
      let t := h / 2
      let s := s.modPower (fun p => { p with tempMax := BitVec.ofInt 32 t })
      if 115 ≤ t then .next s.shutdown
      else match s.power.thermal with
        | .shutdown => .next (if s.power.season = .spring then s.enterAutumn else s)
        | .critical =>
          if t < s.power.tWarn.toInt then
            .next (s.modPower (fun p => { p with thermal := .warm, thermalLimit := 5, thermalBand := 0, thermalSince := s.now })).relimit
          else .next s
        | _ =>
          if s.power.tCrit.toInt ≤ t then
            .next ((s.modPower (fun p => { p with thermal := .critical, thermalLimit := 5 })).health 0x10 none 0 t.toNat).relimit
          else if s.power.thermal = .normal ∧ t < s.power.tWarn.toInt then .next s
          else if s.power.thermal = .normal then
            .next (s.modPower (fun p => { p with thermal := .warm, thermalBand := 1, thermalSince := s.now }))
          else .next (s.warm t).relimit

end Sys2Proof.Machine
end

