-- ==== Sys2Proof/Machine/Mailbox.lean ====
section
/-!
DEFINITION. The mailbox: one dictionary transaction at a time, its start, its precedence of aborts and its end
(R408, R422, R428 to R436).
-/
namespace Sys2Proof.Machine

/-- How a transaction ends: the state after it and the bytes it returns, an abort code of Table 19-16, or an abort after which the
state has moved (an error response counts, R295). -/
inductive Served where
  | ok (x : State × List Byte)
  | error (code : Nat)
  | fail (code : Nat) (s : State)

/-- The RO entries of the ranges 0x6000, 0x6100 and 0x6200 (Tables 7-8, 17-7, 17-8, 18-8). -/
def readOnly6 (index sub : Nat) : Bool :=
  (decide (index = 0x6000) && decide (sub = 1 ∨ sub = 3 ∨ sub = 4 ∨ sub = 5)) ||
  (decide (0x6010 ≤ index ∧ index ≤ 0x6023) && decide (1 ≤ sub ∧ sub ≤ 9)) ||
  (decide (index = 0x6100) && decide (sub = 1 ∨ sub = 2 ∨ (5 ≤ sub ∧ sub ≤ 10) ∨ sub = 0x10 ∨ sub = 0x11 ∨
    (0x20 ≤ sub ∧ sub ≤ 0x22) ∨ sub = 0x31)) ||
  (decide (index = 0x6200) && decide (sub = 3)) ||
  (decide (0x6210 ≤ index ∧ index ≤ 0x6215) && decide (1 ≤ sub ∧ sub ≤ 5))

/-- The entries that Midwinter serves (R408). -/
def midwinterEntry (index sub : Nat) : Bool :=
  let r := index / 256
  decide (r = 0x10 ∨ r = 0x11 ∨ r = 0x13 ∨ r = 0x80) || readOnly6 index sub

/-- Codes that Table 19-16 places before 0x06. -/
def beforeBusy (e : Nat) : Bool := decide (e = 1 ∨ e = 2 ∨ e = 7 ∨ e = 3 ∨ e = 5)

/-- Serve a transaction: 0x08 first, 0x06 while no firmware serves, and the handler's own answer (R433, Table 19-1). -/
def State.pdServe (s : State) (r : PdReq) (h : State → Served) : Served :=
  if s.inMidwinter && !midwinterEntry r.index r.sub then .error 8
  else match h s with
    | .error e => if s.booted || beforeBusy e then .error e else .error 6
    | .fail e t => if s.booted then .fail e t else .error 6
    | .ok x => if s.booted then .ok x else .error 6

/-- Count a transaction that ended on this engine, and its abort (R433). -/
def State.pdCount (s : State) (r : PdReq) (code : Option Nat) : State :=
  let s := { s with ctl := { s.ctl with transactions := s.ctl.transactions + 1 } }
  match code with
  | none => s
  | some e => { s with ctl := { s.ctl with
      aborts := s.ctl.aborts + 1,
      lastAbort := BitVec.ofNat 128 (r.sub % 256 + r.index % 65536 * 2 ^ 8 + e * 2 ^ 24 +
        b2n (r.remote || r.fromMaster) * 2 ^ 32 + s.now * 2 ^ 64) } }

/-- A write of ATTACH takes effect (R428): CLAIM 0 only detaches; a claim counts, sets its time, moves HELD ports to UP and
sets status bit 7. -/
def State.attach (s : State) (claim : Half) : State :=
  if claim = 0 then { s with ctl := { s.ctl with claim := 0 } }
  else
    let s := { s with ctl := { s.ctl with claim := claim, attachCount := s.ctl.attachCount + 1,
                                          attachTime := s.power.timebase } }
    (allPorts.foldl (fun s n => if (s.port n).state = .held then s.portRises n else s) s).irq 7

/-- The value that a READ leaves in PD_DATA: zeros beyond its length (R429). -/
def readData (bs : List Byte) : List Byte := slice bs 0 256

/-- The mailbox's transaction ends (R429): DONE or ABORTED; a claim that waited discards the result, and the writes of ATTACH
that waited take effect in order (R421, R428). -/
def State.pdEnd (s : State) (r : PdReq) (x : Except Nat (List Byte)) : State :=
  let c := { s.ctl with latched := none }
  let c := match x with
    | .ok bs => { c with pdState := .done, abort := 0, rlen := if r.write then 0 else bs.length,
                         pdData := if r.write then c.pdData else readData bs }
    | .error e => { c with pdState := .aborted, abort := BitVec.ofNat 8 e, rlen := 0 }
  let s := { s with ctl := c }
  let s := if r.async then s.irq 5 else s
  match s.ctl.attachWaits with
  | [] => s
  | ks => ks.foldl (fun (s : State) k => s.attach k)
      { s with ctl := { s.ctl with pdState := .idle, abort := 0, rlen := 0, attachWaits := [] } }

/-- Serve this engine's own transaction to its end; an invalidation with marked walks outstanding stays BUSY (R314). -/
def State.pdRun (s : State) (r : PdReq) (h : State → Served) : State :=
  match s.pdServe r h with
  | .ok (t, bs) => if t.ctl.waitWalks ∧ !s.ctl.waitWalks then t else (t.pdCount r none).pdEnd r (.ok bs)
  | .error e => (s.pdCount r (some e)).pdEnd r (.error e)
  | .fail e t => (t.pdCount r (some e)).pdEnd r (.error e)

/-- The registers PD_ADDR, PD_LEN and PD_DATA as a transaction's command writes them (Tables 19-11, 19-12). -/
def State.pdRegs (s : State) (r : PdReq) : State :=
  { s with ctl := { s.ctl with
      pdAddr := BitVec.ofNat 32 (r.sub % 256 + r.index % 65536 * 2 ^ 8 + r.engine % 8 * 2 ^ 24 + b2n r.remote * 2 ^ 27),
      pdLen := BitVec.ofNat 32 (r.len % 512 + r.offset % 65536 * 2 ^ 16),
      pdData := if r.write then overwrite s.ctl.pdData 0 (r.data.take 256) else s.ctl.pdData } }

/-- A transaction started in Winter, Thaw or Autumn is a wake event and waits for Spring (R434); then `go` serves it. -/
def State.pdStart (s : State) (r : PdReq) (go : State → State) : State :=
  let s := { s with ctl := { s.ctl with pdCtrl := BitVec.ofNat 32 ((if r.write then 2 else 1) + 4 * b2n r.async),
                                        pdState := .busy, overrun := false, abort := 0, rlen := 0, latched := some r } }
  if s.serving && !s.awake then
    let s := s.wake
    if s.awake then go s else s
  else go s

/-- A PD_CTRL write with OP 1 or 2 (R429); while BUSY it is ignored and sets OVERRUN. -/
def State.pdBegin (s : State) (r : PdReq) (go : State → State) : Out :=
  if s.ctl.inReset then .next s
  else
    let s := s.pdRegs r
    if s.ctl.pdState = .busy then .next { s with ctl := { s.ctl with overrun := true } }
    else .next (s.pdStart r go)

/-- A transaction of an entry with a row of its own. -/
def State.pdCommand (s : State) (r : PdReq) (h : State → Served) : Out := s.pdBegin r (fun s => s.pdRun r h)

/-- The request of a write of an entry through this engine's own port. -/
def writeReq (async : Bool) (index sub : Nat) (data : List Byte) : PdReq :=
  { write := true, async := async, remote := false, engine := 0, index := index, sub := sub, len := data.length, offset := 0,
    data := data, fromMaster := false, ext := none }

/-- The same, with what its command brings from outside. -/
def writeReqX (async : Bool) (index sub : Nat) (data : List Byte) (x : PdExt) : PdReq := { writeReq async index sub data with ext := some x }

def PdExt.empty : PdExt := { image := .data [], desc := .data [], walks := [], coreFail := 0, sharedFail := false }

/-- What a write without such data meets outside: free values (assumption log). -/
def PdExt.free (n : Nat) : PdExt :=
  { image := .data (Config.hostBytes n 0), desc := .data (Config.hostBytes n 1),
    walks := (Config.hostWalks n).map (fun w => w.map (fun e => { pte := e, err := 0 })),
    coreFail := (Config.testFails n).setWidth 20, sharedFail := (Config.testFails n).getLsbD 20 }

/-- A write that only answers a state. -/
def done (s : State) : Served := .ok (s, [])

/-- A row of one entry: its size is checked first (R431), then its own rule acts. -/
def sized (n : Nat) (data : List Byte) (h : State → Served) (s : State) : Served :=
  if data.length = n then h s else .error 3

/-- The first of two answers: a refusal of the entry comes before what follows. -/
def refuse (b : Bool) (code : Nat) (k : Served) : Served := if b then .error code else k

/-- Own value of the requester of a selector (R435). -/
def requester (r : PdReq) : Fin 2 := if r.fromMaster then 1 else 0

/-- RESUME (R299): an absent port's entries do not exist; only a HELD port moves to UP. -/
def State.writeResume (s : State) (n : PortId) (v : Nat) : Served :=
  refuse (decide (s.build.c ≤ n.val)) 1 <| refuse (decide (v ≠ 1 ∨ (s.port n).state ≠ .held)) 4 <| done (s.portRises n)

/-- RESUME as a command. -/
def execResume (n : PortId) (v : Byte) (async : Bool) (s : State) : Out :=
  s.pdCommand (writeReq async (0x2210 + n.val) 2 [v]) (fun s => s.writeResume n v.toNat)

end Sys2Proof.Machine
end

