-- ==== Sys2Proof/Machine/Runs.lean ====
section
/-!
DEFINITION. Stages 3 to 7 of a step: descriptors, acceptance, the start of a run, tokens (R236 to R251, R268 to R273,
R328, R329).
-/
namespace Sys2Proof.Machine

/-! ### Descriptors (Tables 10-1 and 10-2) -/

def parseDesc (b : List Byte) : StepDesc :=
  let f := leAt b 1 1
  { kv := bitAt f 0, cwin := bitAt f 1, flip := bitAt f 2, qseq := BitVec.ofNat 32 (leAt b 4 4),
    base := BitVec.ofNat 32 (leAt b 8 4), adapter := BitVec.ofNat 32 (leAt b 12 4), strips := leAt b 16 4,
    kvVa := leAt b 0x18 8, kvMax := leAt b 0x20 4,
    args := (List.range 8).map (fun i => BitVec.ofNat 64 (leAt b (0x40 + 8 * i) 8)) }

/-- R230, with argument word 7 of a CWIN step at its largest value (R237). -/
def rtBoundsOk (img : ImgRec) (d : StepDesc) : Bool :=
  (d.args.zipIdx.all (fun a =>
    let v := if a.2 = 7 ∧ d.cwin then 0xFFFFFFFF else a.1.toNat
    decide (v ≤ imgArgMax img.bytes a.2))) && decide (d.strips ≤ imgStripsMax img.bytes)

/-- The checks of Table 10-2 but check 4, in their order; `none` when all hold. -/
def descChecks (b : List Byte) (slot : Option (Nat × Nat)) (rt : Option ImgRec) : Option Nat :=
  let d := parseDesc b
  let reserved := leAt b 1 1 / 8 + leAt b 2 2 + leAt b 0x14 4 + leAt b 0x24 24
  let badSlot := match slot with | some (n, slots) => decide (d.qseq.toNat % slots ≠ n % slots) | none => false
  let badKv := if d.kv then decide (d.kvMax = 0 ∨ 2 ^ 48 ≤ d.kvVa) else decide (d.kvVa ≠ 0 ∨ d.kvMax ≠ 0)
  let badRt := match rt with | some i => !rtBoundsOk i d | none => false
  if crc32c (overwrite b 0x3C [0, 0, 0, 0]) ≠ leAt b 0x3C 4 then some 1
  else if leAt b 0 1 ≠ 1 then some 2
  else if reserved ≠ 0 then some 3
  else if badSlot then some 4
  else if d.strips = 0 ∨ 16777215 < d.strips then some 5
  else if badKv then some 6
  else if d.cwin ∧ d.args.getD 7 0 ≠ 0 then some 7
  else if badRt then some 8
  else none

/-- A record of a descriptor that was not accepted: ASEQ 0 (R238). -/
def State.refuseDesc (s : State) (q : QueueId) (qseq : Nat) (status : Byte) (detail : Nat) : State :=
  let x := s.queue q
  (s.postRecord q x.part none (qosOf false x.cls.val) qseq
    (recordBytes qseq 0 status 0 0 q.val 0 detail x.cword.toNat)).driveRecords

/-! ### Stage 3 (R238, R268, R269, R351) -/

def State.slots (s : State) (q : QueueId) : Nat := 2 ^ (s.queue q).slotsLog2.toNat

/-- Descriptors posted and not fetched, modulo 2^32. -/
def State.posted (s : State) (q : QueueId) : Nat := ((s.queue q).tail - (s.queue q).fetch).toNat

/-- Steps of a queue in ACCEPTED, and its descriptor on the way there. -/
def State.heldSteps (s : State) (q : QueueId) : Nat :=
  s.steps.countP (fun x => decide (x.queue = q ∧ x.state = .accepted)) + s.fetched.countP (fun f => decide (f.queue = q))

/-- Whether the journal entries for n ASEQs from NEXT_ASEQ are all final (R257, R269). -/
def State.journalFree (s : State) (n : Nat) : Bool :=
  s.steps.all (fun x => decide (n ≤ (x.aseq + 4096 - s.journal.nextAseq % 4096) % 4096))

/-- Whether stage 3 may read the queue's next descriptor now. -/
def State.mayFetch (s : State) (q : QueueId) : Bool :=
  let x := s.queue q
  s.serving && s.awake && x.enable && !x.stopped && decide (x.cls ≠ 0) && decide (0 < s.posted q) &&
  decide (s.posted q ≤ s.slots q) && decide (s.heldSteps q < 4) && s.fetched.all (fun f => decide (f.queue ≠ q)) &&
  s.journalFree 17 && s.portUp (s.partPort x.part) &&
  decide ((s.link.chainNeed[q.val]).toNat ≤ (s.link.chainCredit[q.val]).toNat)

/-- Whether an enabled queue's TAIL runs more than the slot count ahead of its FETCH (R268). -/
def State.overrun (s : State) (q : QueueId) : Bool :=
  s.serving && s.awake && (s.queue q).enable && decide (s.slots q < s.posted q)

/-- FETCH goes on by one, and CHAIN_NEED is taken from the credit (R351). -/
def State.advanceFetch (s : State) (q : QueueId) : State :=
  let n := (s.link.chainNeed[q.val]).toNat
  { (s.modQueue q (fun x => { x with fetch := x.fetch + 1 })) with
    link := { s.link with chainCredit := upd s.link.chainCredit q (fun c => c - BitVec.ofNat 32 n) } }

/-- DESCRIPTOR_FETCH (R238, R316, Table 12-6): one descriptor, read through the queue's ring port. One that does not translate is
passed over with its record, one whose read errs stays where it is; a read that the port lost is made again. -/
def execDescriptorFetch (q : QueueId) (r : ReadResult) (s : State) : Out :=
  if s.overrun q then .next (s.stopQueue q)
  else if !s.mayFetch q then .next s
  else
    let x := s.queue q
    let n := s.partPort x.part
    let qseq := x.fetch.toNat
    let y := s.stewardRead n (qosOf false x.cls.val) x.ast.toNat (x.ringVa.toNat + 128 * (qseq % s.slots q)) 128 r
    let f := y.1.stewardFault n x.ast.toNat y.2
    match y.2, f.2 with
    | .data bs, _ =>
      let s := y.1.advanceFetch q
      match descChecks bs (some (qseq, s.slots q)) none with
      | some c => .next (s.refuseDesc q (leAt bs 4 4) 0x0D c)
      | none => .next { s with fetched := s.fetched ++ [{ queue := q, desc := parseDesc bs }] }
    | .fault _ _, some w => .next ((f.1.advanceFetch q).refuseDesc q qseq w.1 w.2)
    | .error _ _, some w => .next ((f.1.refuseDesc q qseq w.1 w.2).stopQueue q)
    | _, _ => .next y.1

/-! ### Stage 4 (R21, R26, R223, R328) -/

/-- The version that a handle binds (R328); none for a stale handle or a slot with no active version. -/
def State.bindHandle (s : State) (h : Word) : Option WBind :=
  let w := s.sets.slots[h.toNat % 256]'(Nat.mod_lt _ (by decide))
  match w.active with
  | some v => if w.gen = h.toNat / 256 then some ⟨h.toNat % 256, v.serial⟩ else none
  | none => none

/-- Accept a descriptor: ASEQ, image, tables and weight sets bound, ACCEPTED written (R21). -/
def State.acceptStep (s : State) (q : QueueId) (d : StepDesc) (rt : Bool) (bell : Nat) : State :=
  let x := s.queue q
  let idle := (s.headOf q).isNone
  let n := s.journal.nextAseq
  let st : StepRec :=
    { aseq := n, queue := q, part := x.part, rt := rt, cls := x.cls.val, ast := x.ast.toNat, desc := d,
      image := (s.part x.part).active, tables := s.tables.active, base := s.bindHandle d.base,
      adapter := s.bindHandle d.adapter, state := .accepted, status := 0, flags := 0, starts := 0, kills := 0,
      twin := false, lockKill := false, tAccept := s.now, tLast := s.now, aged := 0, since := s.now, tBell := bell, cclk := 0 }
  let s := { s with steps := s.steps ++ [st], journal := { s.journal with nextAseq := (n + 1) % 2 ^ 48 } }
  let s := s.journalWrite st
  let s := s.session x.ast.toNat (fun j => { j with accepted := j.accepted + 1 })
  if idle ∧ !rt then s.raiseTime q st else s

/-- ACCEPT (R21, R269): the queue's fetched descriptor. -/
def execAccept (q : QueueId) (s : State) : Out :=
  match s.fetched.find? (fun f => decide (f.queue = q)) with
  | none => .next s
  | some f =>
    if !(s.serving && s.awake && s.journalFree 17) then .next s
    else .next (({ s with fetched := s.fetched.erase f }).acceptStep q f.desc false 0)

/-! ### Stage 5 (R165, R186, R201, R202, R224, R262, R329) -/

/-- The active version a binding names, or the retiring one. -/
def State.boundVersion (s : State) (b : WBind) : Option Version :=
  ((s.sets.slots.toList.getD b.slot WSlot.reset).versions).find? (fun v => decide (v.serial = b.serial))

/-- The lowest window of a partition that covers a region for reads (R329). -/
def State.coveringWindow (s : State) (p : PartId) (r : Region) : Option (Nat × Nat) :=
  (List.range 4).findSome? (fun i =>
    let w := ((s.part p).dw.toList.getD i 0).toNat
    let lo := fld w 31 16 * 65536
    if bitAt w 0 ∧ bitAt w 1 ∧ !bitAt w 3 ∧ lo ≤ r.1 ∧ r.1 + r.2 ≤ lo + fld w 47 32 * 65536 then some (i, lo) else none)

/-- Resolve one handle into a locator (R329); none ends the step with 0x0E. `kind` is 0 for the base, 1 for the adapter. -/
def State.resolve (s : State) (x : StepRec) (kind : Nat) (b : Option WBind) : Option DWord :=
  match b.bind s.boundVersion with
  | none => none
  | some v =>
    let r := v.record
    let rtBad : Bool := match x.image with
      | some i => bitAt (imgFlags i.bytes) 1 && decide (imgArgMax i.bytes (5 + kind) < 2 ^ 64 - 1)
      | none => false
    if verKind r ≠ kind ∨ !bitAt (verPmask r) x.part.val ∨ (verOwned r = 1 ∧ verOwner r ≠ x.ast) ∨
        (verFit r ≠ 0 ∧ verFit r ≠ x.desc.base.toNat) ∨ v.lost ∨ rtBad then none
    else if verPlace r = 0 then some (BitVec.ofNat 64 (verSrcVa r))
    else match s.coveringWindow x.part (verRegion r) with
      | some (i, lo) => some (BitVec.ofNat 64 (2 ^ 63 + i * 2 ^ 30 + ((verRegion r).1 - lo)))
      | none => none

/-- Argument words with the locators in words 5 and 6 and the commit word in word 7 (R237, R329); a handle that does not
resolve is the error. -/
def State.stepArgs (s : State) (x : StepRec) : Except Word (List DWord) :=
  let one := fun (h : Word) (kind : Nat) (b : Option WBind) (as : List DWord) =>
    if h = 0 then Except.ok as
    else match s.resolve x kind b with
      | some l => .ok (setNth as (5 + kind) l)
      | none => .error h
  match one x.desc.base 0 x.base x.desc.args with
  | .error h => .error h
  | .ok as => match one x.desc.adapter 1 x.adapter as with
    | .error h => .error h
    | .ok as => .ok (if x.desc.cwin then setNth as 7 ((s.queue x.queue).cword.zeroExtend 64) else as)

/-- A core at the start of a run (R165, R186, R187, R220), with the image it holds. Operation numbers go on, so that a response to
an earlier run is never taken for one of this run. -/
def Core.started (k : Core) (p : PartId) (img : ImgRec) (twin : Bool) (args : List DWord) : Core :=
  let k' : Core := { Core.reset with
    phase := .running, part := p, seq := k.seq + 1, nearPoison := k.nearPoison, nearFlip := k.nearFlip,
    accPoison := k.accPoison, accFlip := k.accFlip, imem := k.imem, imemPoison := k.imemPoison, imemFlip := k.imemFlip,
    s := Vector.ofFn (fun i : Fin 32 => if 1 ≤ i.val ∧ i.val ≤ 8 then args.getD (i.val - 1) 0 else 0),
    bank0 := k.bank0, books0 := k.books0, codeLen := k.codeLen,
    win := ⟨0, if twin then imgTwinNsKb img.bytes else imgNsKb img.bytes⟩ }
  k'.loadRecs (img.records twin)

/-- The same after the loader has filled the core from the image (R224); the cores of the class RT partition hold it since arming
(R24, R281). -/
def Core.loaded (k : Core) (p : PartId) (img : ImgRec) (twin rt : Bool) (args : List DWord) : Core :=
  (if rt then k else k.withImage img twin).started p img twin args

/-- Give every core of a run its start state, the strip counter 0 and the event counters 0 (R201, R202). -/
def State.loadCores (s : State) (p : PartId) (cores : List CoreId) (img : ImgRec) (twin rt : Bool) (args : List DWord) : State :=
  let s := cores.foldl (fun s c => s.modCore c (fun k => k.loaded p img twin rt args)) s
  let s := s.modPart p (fun y => { y with stripCounter := 0, events := Vector.replicate 16 0 })
  if rt then s.followRun else s

/-- The clusters that hold cores of a list. -/
def clustersOf (cores : List CoreId) : List ClusterId := (List.finRange 4).filter (fun cl => cores.any (fun c => decide (clusterOf c = cl)))

/-- The loader's reads of an image that is not resident: its code once for each cluster of the run, through the port of the cluster
(R224), under the AST of its load (assumption log 74). What each cluster loads, or the fault that ends the step. -/
def State.codeReads (s : State) (x : StepRec) (img : ImgRec) (twin : Bool) : List ClusterId → List ReadResult →
    State × Except (Byte × Nat) (Tab (List Byte))
  | [], _ => (s, .ok [])
  | cl :: rest, rs =>
    let at' := match findSection img.bytes (if twin then 3 else 1) with | some y => (y.off, y.size) | none => (0, 0)
    let y := s.stewardRead cl (qosOf x.rt x.cls) img.ast (img.va + at'.1) at'.2 (rs.headD (.data []))
    let f := y.1.stewardFault cl img.ast y.2
    match y.2, f.2 with
    | .data bs, _ =>
      match y.1.codeReads x img twin rest (rs.drop 1) with
      | (s, .ok t) => (s, .ok ((cl.val, bs) :: t))
      | (s, .error e) => (s, .error e)
    | _, some w => (f.1, .error w)
    | _, none => (y.1, .ok [])

/-- Fill the cores of a run (R24, R224): from what the control layer holds of a resident image or of a Midwinter test's, or through the
ports. A read that fails ends the step with its cause; one that its port loses ends the run with the port (R298). -/
def State.loadRun (s : State) (p : PartId) (x : StepRec) (cores : List CoreId) (img : ImgRec) (twin : Bool) (args : List DWord)
    (code : Option (List ReadResult)) : State :=
  let s := s.loadCores p cores img twin x.rt args
  match code with
  | none => s
  | some rs =>
    if img.resident then s
    else match s.codeReads x img twin (clustersOf cores) rs with
      | (s, .ok t) => cores.foldl (fun s c => s.modCore c (fun k => k.withCode (Tab.get (img.code twin) t (clusterOf c).val))) s
      | (s, .error w) => s.failRun p w.1 w.2

/-- The loader's read of a resident image (R179, R224): a flipped word is corrected, a poisoned one ends the step. -/
def State.loaderRead (s : State) (p : PartId) (img : ImgRec) (twin : Bool) : State :=
  if !img.resident then s
  else
    let r := s.codeRange p img twin
    match s.deepPoisonIn r.1 r.2 with
    | some w => (s.eccUncorrectable 1 (ueLoc (8 * w) none (s.build.sliceOf (8 * w)) 0) none (s.build.sliceOf (8 * w))).failRun p 0x04 1
    | none => s.fixDeep [r]

/-- Write STARTED, then load and start the cores (R24, R241); RT cores load nothing. -/
def State.startRun (s : State) (p : PartId) (x : StepRec) (cores : List CoreId) (img : ImgRec) (args : List DWord)
    (code : Option (List ReadResult)) : State :=
  let r : RunSt :=
    { aseq := x.aseq, cores := cores, twin := x.twin, phase := .running, arrived := [], taken := [], started := s.now,
      firstIssue := false, cclk := 0, issueCclk := 0, tokenCclk := 0, tokenIssue := 0, stopCclk := 0, heldKill := false, sliced := false, ended := s.now }
  let s := s.modStep x.aseq (fun y => { y with starts := y.starts + 1, aged := 0, flags := 0 })
  let s := (s.transition x.aseq .started x.status).modPart p (fun y => { y with run := some r })
  let s := s.modPower (fun w => { w with season := .summer })
  let s := s.loadRun p x cores img x.twin args code
  if x.rt then s else s.loaderRead p img x.twin

/-- DETAIL of 0x06 (Table 10-5). -/
def State.imageDetail (s : State) (p : PartId) : Nat :=
  if (s.part p).lostInWinter then 0xFFFF else (s.part p).lastReject.toNat

/-- Whether an image holds a DMA descriptor with ATOM not 0 (R291). -/
def usesAtomics (img : ImgRec) : Bool :=
  (descRecs (sectionBytes img.bytes 2 ++ sectionBytes img.bytes 4) 0).any (fun r =>
    decide (0x20 ≤ r.index ∧ r.index < 0x30 ∧ r.index % 2 = 0) && decide (ddAtom r.value.toNat ≠ 0))

/-- The cores a run of a general partition uses (R262, R375): usable, enough arrays, not parked, the lowest CORES_MAX. -/
def State.coresFor (s : State) (p : PartId) (img : ImgRec) : List CoreId :=
  ((s.maskCores p img.arrays).filter (fun c => decide (c ∉ s.power.parked))).take img.coresMax

/-- Whether a member of the RT set can run an image: its CORE_MAP bit is set or it is borrowed and not retired, and its arrays
suffice (R262, R391). -/
def State.memberFits (s : State) (img : ImgRec) (i : Fin 5) : Bool :=
  let c := coreAt 0 i
  (s.usable c || (s.fault.borrowed.getLsbD c.val && !s.fault.retired.getLsbD c.val)) &&
    decide (img.arrays ≤ (s.arraysOf c).length)

/-- The leads of the pairs whose members can run the image, the cores of an RT run (R262, R385). -/
def State.rtCores (s : State) (img : ImgRec) : List CoreId :=
  (s.fault.pairs.toList.filterMap (fun y => match y.lead with
    | some l => if s.memberFits img l && y.checker.all (s.memberFits img) then some (coreAt 0 l) else none
    | none => none)).take img.coresMax

/-- A step that ends at dispatch, with its record. -/
def State.failAtDispatch (s : State) (x : StepRec) (status : Byte) (detail : Nat) : State :=
  (s.failStep x.aseq status detail).driveRecords

/-- Stage 5 on a step: its run starts, or it ends FAILED (R230, Table 10-4). -/
def State.dispatchStep (s : State) (p : PartId) (x : StepRec) (code : Option (List ReadResult)) : State :=
  match x.image, (s.part p).active with
  | some img, some _ =>
    if x.rt && !rtBoundsOk img x.desc then s.failAtDispatch x 0x0D 8
    else match s.stepArgs x with
    | .error h => s.failAtDispatch x 0x0E h.toNat
    | .ok args =>
      let cores := if x.rt then s.rtCores img else s.coresFor p img
      let count := if x.rt then cores.length else (s.maskCores p img.arrays).length
      if count < img.coresMin ∨ count = 0 then s.failAtDispatch x 0x0B 0
      else if cores = [] then s
      else if usesAtomics img ∧ cores.any (fun c => !(s.port (portOf c)).atomicEn) then s.failAtDispatch x 0x0B 0
      else s.startRun p x cores img args code
  | _, _ => s.failAtDispatch x 0x06 (s.imageDetail p)

/-- Whether a queue is chosen before another (R271). -/
def State.before (s : State) (x y : StepRec) : Bool :=
  let kx := (s.queue x.queue).vtime
  let ky := (s.queue y.queue).vtime
  if effClass x ≠ effClass y then decide (effClass x < effClass y)
  else if kx ≠ ky then decide (kx < ky)
  else decide (x.queue < y.queue)

/-- The step a partition dispatches next (R271). -/
def State.nextStep (s : State) (p : PartId) : Option StepRec :=
  match allQueues.filterMap (fun q => match s.dispatchable q with | some x => if x.part = p then some x else none | none => none) with
  | [] => none
  | x :: r => some (r.foldl (fun m y => if s.before y m then y else m) x)

/-- Whether a partition may dispatch now: awake, no run, its ports UP (R299), its routine stores loaded (R362), no
thermal shutdown on its way (Table 16-8). -/
def State.mayDispatch (s : State) (p : PartId) : Bool :=
  s.serving && s.awake && decide (s.power.thermal ≠ .shutdown) && (s.part p).run.isNone && s.portsReady p &&
    !(s.start.storesLost && decide ((s.part p).flowMode = 1))

/-- DISPATCH (R241, R271): of a general partition; RT steps start through RT_STEP_START. -/
def execDispatch (l : RunLoad) (s : State) : Out :=
  let p := l.part
  if (s.part p).rt ∨ !s.mayDispatch p then .next s
  else match s.nextStep p with
    | none => .next s
    | some x => .next (s.dispatchStep p x (some l.code))

/-! ### Stage 7 (R77 to R80, R251) -/

/-- Start the wide twin of a run (R78, R224): same cores, same arguments, the twin's code. TWIN_RUNS counts the twins that a trigger
starts; whether it also counts a re-run that runs the twin directly (R80) is not said (DESIGN CHOICE; R76, assumption log 66). -/
def State.startTwin (s : State) (p : PartId) (r : RunSt) (x : StepRec) (img : ImgRec) (code : List ReadResult) : State :=
  match s.stepArgs x with
  | .error h => s.failRun p 0x0E h.toNat
  | .ok args =>
    let s := s.modStep x.aseq (fun y => { y with twin := true })
    let s := s.modPart p (fun y => { y with twinRuns := y.twinRuns + 1,
                                            run := some { r with twin := true, phase := .running, arrived := [], taken := [] } })
    (s.loadRun p x r.cores img true args (if s.inMidwinter then none else some code)).loaderRead p img true

/-- After the last token: triggers, then the flushes (R77, R251). -/
def State.collectEnd (s : State) (p : PartId) (r : RunSt) (code : List ReadResult) : State :=
  match s.step? r.aseq with
  | none => s
  | some x =>
    let pol := x.tables.policy[p.val]
    if !r.twin && triggered pol r then
      match x.rt, pol.twin, x.image with
      | false, true, some img =>
        if (findSection img.bytes 3).isSome then s.startTwin p r x img code
        else (s.modPart p (fun y => { y with unserved := y.unserved + 1 })).beginFlush p
      | _, _, _ => (s.modPart p (fun y => { y with unserved := y.unserved + 1 })).beginFlush p
    else s.beginFlush p

/-- TOKEN_TAKEN (R251): the oldest token at the collector. -/
def execTokenTaken (l : RunLoad) (s : State) : Out :=
  let p := l.part
  match (s.part p).run with
  | none => .next s
  | some r =>
    match r.phase, r.arrived with
    | .running, t :: rest =>
      let r := { r with arrived := rest, taken := r.taken ++ [t], ended := s.now }
      let s := s.modPart p (fun y => { y with run := some r })
      .next (if r.taken.length = r.cores.length then s.collectEnd p r l.code else s)
    | _, _ => .next s

/-- SEALED_TIMEOUT (R253): KILLED with 0x0C. -/
def execSealedTimeout (p : PartId) (s : State) : Out :=
  match (s.part p).run with
  | some r => if r.phase = .commit then .next (s.commitLost p 0x0C) else .next s
  | none => .next s

/-! ### Pre-emption and the end of a stopped run -/

/-- Kill a run for pre-emption when R273 lets it. -/
def State.preempt (s : State) (p : PartId) : State :=
  match (s.part p).run with
  | none => s
  | some r =>
    match s.step? r.aseq with
    | none => s
    | some x =>
      let lower := allQueues.any (fun q => match s.dispatchable q with
        | some y => decide (y.part = p ∧ q ≠ x.queue ∧ effClass y < x.cls)
        | none => false)
      if r.sliced ∧ !x.rt ∧ x.kills < 2 ∧ lower then s.killRun p 0x01 else s

/-- TIME_SLICE_PREEMPTION (R273): the run has lasted TIME_SLICE. -/
def execTimeSlicePreemption (p : PartId) (s : State) : Out :=
  .next ((s.modPart p (fun y => { y with run := y.run.map (fun r => { r with sliced := true }) })).preempt p)

/-- AGE_LIMIT_ELAPSED (R271): the queue's head step has waited one more AGE_LIMIT. -/
def execAgeLimitElapsed (q : QueueId) (s : State) : Out :=
  match s.dispatchable q with
  | none => .next s
  | some x =>
    if s.journal.ageLimit = 0 then .next s
    else .next ((s.modStep x.aseq (fun y => { y with aged := y.aged + 1 })).preempt x.part)

/-- Whether a host-memory write of a run is still unanswered (R247). -/
def State.writesOpen (s : State) (r : RunSt) : Bool :=
  s.ports.toList.any (fun p => p.txns.any (fun t => match t.owner with
    | .dma c _ _ _ _ _ => t.op.writes && decide (c ∈ r.cores)
    | _ => false))

/-- RUN_DRAINED (R247): KILLED or FAILED is written once the cores are free. -/
def execRunDrained (p : PartId) (s : State) : Out :=
  match (s.part p).run with
  | none => .next s
  | some r =>
    match r.phase with
    | .draining why =>
      if s.writesOpen r then .next s
      else match why with
        | .kill cause => .next (s.endKilled p cause).driveRecords
        | .fault status detail => .next (s.endFailed p status detail.toNat).driveRecords
    | _ => .next s

end Sys2Proof.Machine
end

