-- ==== Sys2Proof/Machine/QueueRows.lean ====
section
/-!
DEFINITION. Doorbells, queues, partitions' masks and windows, the class RT partition: its slots, doorbells, step starts,
arming and disarming (R176, R261, R266 to R282, R376, R394, R425, R426).
-/
namespace Sys2Proof.Machine

/-! ### Doorbells (R268, R363, R425) -/

/-- A doorbell the stewards act on: TAIL, and STOPPED when it runs more than the slot count ahead of FETCH (R268). -/
def State.ringBell (s : State) (q : QueueId) : State :=
  let s := s.modQueue q (fun x => { x with tail := s.ctl.bells[q.val] })
  if s.slots q < s.posted q then s.stopQueue q else s

/-- DOORBELL (R268, R425): ignored and counted where nothing serves it or its queue has class 0. -/
def execDoorbell (q : QueueId) (tail : Word) (s : State) : Out :=
  if s.ctl.inReset then .next s
  else if !s.serving ∨ (s.queue q).cls = 0 then
    .next { s with ctl := { s.ctl with bellsIgnored := s.ctl.bellsIgnored + 1 } }
  else
    let s := ({ s with ctl := { s.ctl with bells := upd s.ctl.bells q (fun _ => tail) } }).wake
    if s.awake then .next (s.ringBell q)
    else .next { s with ctl := { s.ctl with heldBells := s.ctl.heldBells.filter (· ≠ q) ++ [q] } }

/-! ### Queue entries (R268, R270, R259, Table 11-2) -/

/-- ENABLE: a STOPPED queue is not enabled before FETCH is written; disabling ends KILLED steps with 0x01 (R270). -/
def State.writeEnable (s : State) (q : QueueId) (v : Nat) : Served :=
  refuse (decide (1 < v) || (decide (v = 1) && (s.queue q).stopped)) 4 <|
    let s := s.modQueue q (fun x => { x with enable := decide (v = 1) })
    done (if v = 1 then s
      else (((s.steps.filter (fun x => decide (x.queue = q ∧ x.state = .killed))).foldl
        (fun s x => s.failStep x.aseq 0x01 0) s).driveRecords))

def execEnableWrite (q : QueueId) (v : Byte) (async : Bool) (s : State) : Out :=
  s.pdCommand (writeReq async (0x3110 + q.val) 1 [v]) (fun s => s.writeEnable q v.toNat)

/-- KILL: the queue's step in STARTED is killed with cause 0x01 (R270). -/
def State.writeKill (s : State) (q : QueueId) (v : Nat) : Served :=
  refuse (decide (v ≠ 1)) 4 <|
    done ((s.steps.filter (fun x => decide (x.queue = q ∧ x.state = .started))).foldl (fun s x => s.killRun x.part 0x01) s)

def execKill (q : QueueId) (v : Byte) (async : Bool) (s : State) : Out :=
  s.pdCommand (writeReq async (0x3110 + q.val) 0x0D [v]) (fun s => s.writeKill q v.toNat)

/-- Quiescence of a queue (R266), with no descriptor between stage 3 and acceptance. -/
def State.queueRest (s : State) (q : QueueId) : Bool := s.queueQuiet q && s.fetched.all (fun f => decide (f.queue ≠ q))

/-- FETCH: clears STOPPED (Table 11-2); a queue whose TAIL runs more than the slot count ahead of the new FETCH enters it again
(R268). -/
def State.writeFetch (s : State) (q : QueueId) (v : Word) : Served :=
  refuse (!s.queueRest q) 5 <|
    let s := s.modQueue q (fun x => { x with fetch := v, stopped := false })
    done (if s.slots q < s.posted q then s.stopQueue q else s)

def execFetchWrite (q : QueueId) (v : Word) (async : Bool) (s : State) : Out :=
  s.pdCommand (writeReq async (0x3110 + q.val) 0x0A (leBytes 4 v.toNat)) (fun s => s.writeFetch q v)

/-- CWORD: refused while a step of the queue is open (R259, Table 19-19). -/
def State.writeCword (s : State) (q : QueueId) (v : Word) : Served :=
  refuse (s.steps.any (fun x => decide (x.queue = q))) 5 <| done (s.modQueue q (fun x => { x with cword := v }))

def execCwordWrite (q : QueueId) (v : Word) (async : Bool) (s : State) : Out :=
  s.pdCommand (writeReq async (0x1210 + q.val) 1 (leBytes 4 v.toNat)) (fun s => s.writeCword q v)

/-- WINDOW_START of one requester (R259, R435): an ASEQ already assigned. -/
def State.writeWindowStart (s : State) (who : Fin 2) (v : DWord) : Served :=
  refuse (decide (v.toNat = 0 ∨ s.journal.nextAseq ≤ v.toNat)) 4 <|
    done { s with journal := { s.journal with windowStart := upd s.journal.windowStart who (fun _ => v) } }

def execWindowStartWrite (v : DWord) (async : Bool) (s : State) : Out :=
  s.pdCommand (writeReq async 0x1200 2 (leBytes 8 v.toNat)) (fun s => s.writeWindowStart 0 v)

/-- SESSION_CLEAR (R274). -/
def State.writeSessionClear (s : State) (ast : Nat) : Served :=
  refuse (decide (1023 < ast)) 4 <| done (s.session ast (fun _ => ⟨0, 0, 0⟩))

def execSessionClear (ast : Half) (async : Bool) (s : State) : Out :=
  s.pdCommand (writeReq async 0x3200 0x14 (leBytes 2 ast.toNat)) (fun s => s.writeSessionClear ast.toNat)

/-! ### Masks and windows (R261, R277, R176, R347) -/

/-- CORE_MASK of a class RT partition: 2 or 4 active cores of cluster 0 (R277). -/
def rtMaskOk (v : Nat) : Bool :=
  decide (v < 16) && (let n := ((List.range 4).filter (fun i => bitAt v i)).length; decide (n = 2 ∨ n = 4))

/-- CORE_MASK (R261). -/
def State.writeCoreMask (s : State) (p : PartId) (v : Word) : Served :=
  refuse (!s.partQuiet p) 5 <|
  refuse ((List.range 32).any (fun n => v.getLsbD n &&
      (decide (n % 5 = 4) || !s.fault.coreMap.getLsbD n ||
        allParts.any (fun k => decide (k ≠ p) && (s.part k).coreMask.getLsbD n))) ||
    ((s.part p).rt && !rtMaskOk v.toNat)) 4 <|
  done (s.modPart p (fun x => { x with coreMask := v }))

def execCoreMaskWrite (p : PartId) (v : Word) (async : Bool) (s : State) : Out :=
  s.pdCommand (writeReq async (0x3010 + p.val) 1 (leBytes 4 v.toNat)) (fun s => s.writeCoreMask p v)

/-- The region of a valid local window record; of length 0 otherwise. -/
def dwRegion (v : DWord) : Region :=
  if bitAt v.toNat 0 && !bitAt v.toNat 3 then (fld v.toNat 31 16 * 65536, fld v.toNat 47 32 * 65536) else (0, 0)

/-- A region that leaves deep scratch or meets the journal region (R177). -/
def State.badPlace (s : State) (r : Region) : Bool :=
  decide (s.build.deepBytes < r.1 + r.2) || s.build.meetsJournal r.1 r.2

/-- Regions of the DEEP versions that a predicate names and that are not free (R326, R331). -/
def State.deepVersions (s : State) (f : List Byte → Bool) : List Region :=
  s.sets.slots.toList.flatMap (fun w => (w.versions.filter (fun v => f v.record)).map (fun v => verRegion v.record))

/-- An engine that a remote window may name: another one, present in the stack and not LOST (R176, R352). -/
def State.peerOk (s : State) (e : Nat) : Bool :=
  decide (e ≠ s.pins.inst.val) && decide ((s.link.peerState.toList.getD e 0) = 1)

/-- What R176 refuses of a window record of a partition. -/
def State.dwBad (s : State) (p : PartId) (v : DWord) : Bool :=
  let x := v.toNat
  let r := dwRegion v
  decide (fld x 7 7 ≠ 0 ∨ fld x 15 10 ≠ 0 ∨ fld x 63 48 ≠ 0 ∨ 16384 < fld x 47 32) ||
  (bitAt x 0 && decide (fld x 47 32 = 0)) ||
  (bitAt x 3 && ((s.part p).rt || !s.peerOk (fld x 6 4))) ||
  s.badPlace r ||
  allParts.any (fun k => decide (k ≠ p) && (s.part k).dw.toList.any (fun y =>
    (bitAt x 2 || bitAt y.toNat 2) && overlap r (dwRegion y))) ||
  (bitAt x 2 && (allParts.any (fun k => overlap r (s.part k).area) ||
    (s.deepVersions (fun b => decide (verKind b = 0))).any (overlap r)))

/-- DW0 to DW3 (R176). -/
def State.writeDw (s : State) (p : PartId) (w : Fin 4) (v : DWord) : Served :=
  refuse (!s.partQuiet p) 5 <| refuse (s.dwBad p v) 4 <|
    done (s.modPart p (fun x => { x with dw := upd x.dw w (fun _ => v) }))

def execWindowRecordWrite (p : PartId) (w : Fin 4) (v : DWord) (async : Bool) (s : State) : Out :=
  s.pdCommand (writeReq async (0x3010 + p.val) (0x10 + w.val) (leBytes 8 v.toNat)) (fun s => s.writeDw p w v)

/-! ### RT slots, doorbells and step starts (R278 to R280, R426) -/

/-- The active image of the class RT partition. -/
def State.rtImage (s : State) : Option ImgRec := s.rtPart.bind (fun p => (s.part p).active)

/-- A slot write (R278): checks 1 to 3 and 5 to 8 of Table 10-2. -/
def State.writeSlot (s : State) (i : Fin 16) (bs : List Byte) : Served :=
  refuse (descChecks bs none s.rtImage).isSome 4 <|
    done { s with rt := { s.rt with slots := upd s.rt.slots i (fun _ => bs), slotValid := putBit s.rt.slotValid i.val } }

def execSlotWrite (i : Fin 16) (bs : List Byte) (async : Bool) (s : State) : Out :=
  s.pdCommand (writeReq async (0x3310 + i.val) 1 bs) (sized 128 bs (fun s => s.writeSlot i bs))

/-- A refused RT doorbell (R279): counted, RT fault 0x41 with the slot. -/
def State.refuseRtBell (s : State) (v : Word) : State :=
  ({ s with rt := { s.rt with refused := s.rt.refused + 1 } }).rtFault 0x41 none (v.toNat % 16)

/-- An RT doorbell enters the pending list, or is refused (R279). -/
def State.rtBell (s : State) (v : Word) : State :=
  if s.rt.arm = .armed ∧ v.toNat < 16 ∧ s.rt.slotValid.getLsbD v.toNat ∧ s.rt.pend.length < 8 then
    { s with rt := { s.rt with pend := s.rt.pend ++ [{ bytes := s.rt.slots.toList.getD v.toNat [], arrival := s.now }] } }
  else s.refuseRtBell v

/-- RT_DOORBELL (R279, R363, R426): one written while the engine is not awake is refused when Thaw ends. -/
def execRtDoorbell (v : Word) (s : State) : Out :=
  if s.ctl.inReset ∨ !s.serving then .next s
  else
    let s := s.wake
    if s.awake then .next (s.rtBell v)
    else .next { s with ctl := { s.ctl with heldRtBells := s.ctl.heldRtBells ++ [v] } }

/-- The next pending entry is accepted, with RT_SEQ for its QSEQ, and dispatched (R279). -/
def State.startPending (s : State) (p : PartId) (q : QueueId) : State :=
  match s.rt.pend with
  | [] => s
  | e :: rest =>
    if !s.journalFree 1 then s
    else
      let d := { parseDesc e.bytes with qseq := s.rt.seq }
      let s := { s with rt := { s.rt with pend := rest, seq := s.rt.seq + 1 } }
      let s := s.acceptStep q d true e.arrival
      match s.headOf q with
      | some x => s.dispatchStep p x none
      | none => s

/-- RT_STEP_START (R242, R279, R280, R387): a KILLED step is re-run first; the self-test of a pair is waited for. -/
def execRtStepStart (s : State) : Out :=
  match s.rtPart, s.rtQueue with
  | some p, some q =>
    if (s.rt.arm ≠ .armed ∧ s.rt.arm ≠ .disarming) ∨ (s.queue q).part ≠ p ∨ !s.mayDispatch p ∨
        s.fault.pairs.toList.any (fun y => y.testing) then .next s
    else match s.headOf q with
      | some x => .next (if x.state = .started then s else s.dispatchStep p x none)
      | none => .next (s.startPending p q)
  | _, _ => .next s

/-! ### Arming and disarming (R281, R282, R376, R394) -/

/-- The hot spare that an armed partition has (R386): the spare of cluster 0 where it is free and can run the image, or the core
borrowed before. -/
def State.hotSpareFor (s : State) (i : ImgRec) : Option (Fin 5) :=
  if s.usable 4 && (s.substOf 0).isNone && decide (i.arrays ≤ (s.arraysOf 4).length) then some 4 else s.fault.hotSpare

/-- The check of R376 on P-state, with a CAP_MW and a PSTATE_MAX. -/
def State.floorHolds (s : State) (p : PartId) (img : ImgRec) (cap pmax : Nat) : Bool :=
  let f := imgFloor img.bytes
  let w := s.power
  let cores := ((List.range 20).filter (fun n => (s.part p).coreMask.getLsbD n)).length
  let spare := if (s.hotSpareFor img).isSome then 1 else 0
  let others := (allParts.filter (fun k => decide (k ≠ p) && (s.part k).active.isSome)).map (fun k => s.minOf k)
  let n := cores + spare + others.sum
  let peers := s.upEngines.all (fun e => decide (e = s.pins.inst) || decide (((s.link.reports[e.val]).getD (0, 5)).1 ≤ f))
  decide (leAt w.unc (2 * f) 2 + leAt w.full (2 * f) 2 * n ≤ cap) && decide (pmax ≤ f) && (!s.formed || peers) &&
    decide (w.thermal ≠ .critical ∧ w.thermal ≠ .shutdown)

/-- The first failed check of R281, in the order of ARM_RESULT; the image is the pending one, if there is one (R223). -/
def State.armCheck (s : State) (p : PartId) (img : Option ImgRec) : Nat :=
  match img with
  | none => 1
  | some i =>
    let mask := (List.range 20).filter (fun n => (s.part p).coreMask.getLsbD n)
    let cs := s.maskCores p i.arrays
    if !(bitAt (imgFlags i.bytes) 1 && i.resident) then 1
    else if !(match s.rtQueue with | some q => (s.queue q).enable | none => false) then 2
    else if cs.length ≠ mask.length ∨ !rtMaskOk (s.part p).coreMask.toNat ∨ cs.length / 2 < i.coresMin then 3
    else if !s.floorHolds p i s.power.capMw.toNat s.power.pstateMax.val then 4
    else 0

/-- The pairs of R385 over the cores of a mask, in ascending order. -/
def pairsOf (cs : List CoreId) : Vector PairSt 2 :=
  let pair := fun (i : Nat) => match cs.drop (2 * i) with
    | a :: b :: _ => { lead := some (indexOf a), checker := some (indexOf b), former := none, stage := 0, testing := false }
    | _ => ({ lead := none, checker := none, former := none, stage := 0, testing := false } : PairSt)
  #v[pair 0, pair 1]

/-- ARMED (R281, R386): pairs, hot spare, LOCKSTEP_STATE; members and hot spare hold the image. -/
def State.enterArmed (s : State) (p : PartId) (i : ImgRec) : State :=
  let cs := s.maskCores p i.arrays
  let hot := s.hotSpareFor i
  let s := if (s.part p).pendingImg.isSome then (s.deepWrite (s.part p).area.1 i.bytes).1 else s
  let s := s.modPart p (fun x => { x with active := some i, pendingImg := none })
  let s := { s with rt := { s.rt with arm := .armed, armResult := 0, again := false, freeAt := s.now },
                    fault := { s.fault with pairs := pairsOf cs, hotSpare := hot,
                                            lockstep := if hot.isSome then 1 else 2, haltReason := 0 } }
  (s.preload p i (cs ++ (hot.map (coreAt 0)).toList)).relimit

/-- Whether the common P-state is no slower than an image's FLOOR, or one of the two causes of R282 holds it lower; in a FORMED
stack the master's next order brings it there. -/
def State.floorMet (s : State) (i : ImgRec) : Bool :=
  let f := imgFloor i.bytes
  s.formed || decide (s.power.pstate.val ≤ f) || s.power.alertLimit || decide (f < s.power.thermalLimit)

/-- The cap loop holds no state slower than the FLOOR of an image that is to be armed (R282, R374). -/
def State.liftCap (s : State) (i : ImgRec) : State := s.modPower (fun p => { p with capP := min p.capP (imgFloor i.bytes) })

/-- DISARMED: borrowed cores return (R391), the pairs end. -/
def State.enterDisarmed (s : State) : State :=
  let f := s.fault
  let back := f.borrowed &&& ~~~f.retired
  let s := { s with rt := { s.rt with arm := .disarmed },
                    fault := { f with coreMap := f.coreMap ||| back, borrowed := 0, lockstep := 0, hotSpare := none,
                                      pairs := Vector.replicate 2 ⟨none, none, none, 0, false⟩, faultRunStart := none,
                                      failoverOpen := false } }
  s.relimit

/-- ARM_COMPLETE (R281, R282): ARMED once the common P-state is at FLOOR or faster, or DISARMED with ARM_RESULT (DISARMING where
arming began there and its steps remain); the outcome is reported either way. -/
def execArmComplete (s : State) : Out :=
  match s.rtPart with
  | none => .next s
  | some p =>
    if s.rt.arm ≠ .arming ∨ !s.awake ∨ (s.part p).run.isSome then .next s
    else
      let x := s.part p
      let img := match x.pendingImg with | some i => some i | none => x.active
      match s.armCheck p img, img with
      | 0, some i =>
        let s := (s.liftCap i).relimit
        .next (if s.floorMet i then (s.enterArmed p i).irq 7 else s)
      | n, _ =>
        let s := { s with rt := { s.rt with armResult := BitVec.ofNat 8 n } }
        .next ((if !s.rt.again ∨ (s.rt.pend = [] ∧ ¬ s.steps.any (fun x => x.rt)) then s.enterDisarmed
          else { s with rt := { s.rt with arm := .disarming } }).irq 7)

/-- Write 0 to ARM (R282, R394): HALTED is left at once, its time counted as unavailable (R395). -/
def State.disarm (s : State) : State :=
  match s.rt.arm with
  | .armed => { s with rt := { s.rt with arm := .disarming } }
  | .arming => { s with rt := { s.rt with arm := .disarming } }
  | .halted =>
    let f := s.fault
    ({ s with fault := { f with rtUnavailable := bump f.rtUnavailable (ticksNs (s.now - f.haltedSince)) } }).enterDisarmed
  | _ => s

/-- Write 1 to ARM (R281); the later of two writes decides (R426). -/
def State.arm (s : State) : State :=
  match s.rt.arm with
  | .disarmed => { s with rt := { s.rt with arm := .arming, again := false } }
  | .disarming => { s with rt := { s.rt with arm := .arming, again := true } }
  | _ => s

/-- ARM (Table 11-4). -/
def State.writeArm (s : State) (v : Nat) : Served :=
  refuse s.rtPart.isNone 2 <| refuse (decide (1 < v)) 4 <| done (if v = 1 then s.arm else s.disarm)

def execArm (v : Byte) (async : Bool) (s : State) : Out :=
  s.pdCommand (writeReq async 0x3300 2 [v]) (fun s => s.writeArm v.toNat)

def execDisarm (async : Bool) (s : State) : Out :=
  s.pdCommand (writeReq async 0x3300 2 [0]) (fun s => s.writeArm 0)

/-- DISARM_COMPLETE (R282): the last pending step has reached a final state. -/
def execDisarmComplete (s : State) : Out :=
  if s.rt.arm = .disarming ∧ s.rt.pend = [] ∧ ¬ s.steps.any (fun x => x.rt) then .next s.enterDisarmed else .next s

/-- RT_ARM (R426, Table 19-7): a write with a reserved high bit is ignored, and one with no class RT partition only wakes. -/
def execRtArm (v : Word) (s : State) : Out :=
  if s.ctl.inReset ∨ !s.serving ∨ 2 ^ 11 ≤ v.toNat then .next s
  else
    let s := s.wake
    if s.rtPart.isNone then .next s
    else .next (if v.getLsbD 0 then s.arm else s.disarm)

/-! ### ATTACH, IRQ_CLEAR, TIME_LO (R424, R427, R428) -/

/-- ATTACH (R428): without the key ignored and counted; a claim waits for the mailbox. -/
def execAttach (v : Word) (s : State) : Out :=
  if s.ctl.inReset ∨ !s.serving then .next s
  else if v.toNat / 65536 ≠ 0xA77A then .next { s with ctl := { s.ctl with ignored := s.ctl.ignored + 1 } }
  else
    let s := s.wake
    let c : Half := BitVec.ofNat 16 v.toNat
    if s.ctl.pdState = .busy ∧ (c ≠ 0 ∨ s.ctl.attachWaits ≠ []) then
      .next { s with ctl := { s.ctl with attachWaits := s.ctl.attachWaits ++ [c] } }
    else if c = 0 then .next (s.attach 0)
    else .next (({ s with ctl := { s.ctl with pdState := .idle, abort := 0, rlen := 0 } }).attach c)

/-- IRQ_CLEAR (R427). -/
def execIrqClear (v : Word) (s : State) : Out :=
  if s.ctl.inReset then .next s
  else .next { s with ctl := { s.ctl with irqStatus := s.ctl.irqStatus &&& ~~~(BitVec.ofNat 8 v.toNat) } }

/-- TIME_LO_READ (R424): the high word is latched. -/
def execTimeLoRead (s : State) : Out :=
  if s.ctl.inReset then .next s
  else .next { s with ctl := { s.ctl with timeHi := BitVec.ofNat 32 (s.power.timebase.toNat / 2 ^ 32) } }

end Sys2Proof.Machine
end

