-- ==== Sys2Proof/Machine/SlotDecode.lean ====
section
/-!
DEFINITION. The words of a bundle's slots (Tables 8-1, 8-5, 8-6, 8-8, 8-10, 8-12, 8-15, 8-17, 8-18; R183, R184, R207,
R214): total decoders, `none` where R184 rejects the word.
-/
namespace Sys2Proof.Machine

/-! ### Fields -/

def fSreg (w hi : Nat) : SReg := ⟨fld w hi (hi - 4) % 32, Nat.mod_lt _ (by decide)⟩
def fVreg (w hi : Nat) : VReg := ⟨fld w hi (hi - 4) % 32, Nat.mod_lt _ (by decide)⟩
def fAreg (w hi : Nat) : AReg := ⟨fld w hi (hi - 3) % 16, Nat.mod_lt _ (by decide)⟩
def fDesc (w hi : Nat) : Fin 8 := ⟨fld w hi (hi - 2) % 8, Nat.mod_lt _ (by decide)⟩
def fQuad (w hi : Nat) : Fin 4 := ⟨fld w hi (hi - 1) % 4, Nat.mod_lt _ (by decide)⟩
def fBits (n w hi lo : Nat) : BitVec n := BitVec.ofNat n (fld w hi lo)
/-- The opcode. -/
def slotOpcode (w : Nat) : Nat := fld w 31 26
/-- Reserved bits [hi:lo] are zero. -/
def zeroAt (w hi lo : Nat) : Bool := decide (fld w hi lo = 0)

/-- An operation whose reserved bits are zero. -/
def when {α : Type} (ok : Bool) (x : α) : Option α := if ok then some x else none

/-! ### The slots -/

/-- Table 8-5. -/
def decodeSeq (w : Nat) : Option SeqOp :=
  match slotOpcode w with
  | 0x01 => when (bitAt w 25 || zeroAt w 13 5) (.loop (bitAt w 25) (fBits 11 w 24 14) (fBits 14 w 13 0))
  | 0x02 => when (zeroAt w 20 11) (.skipz (fSreg w 25) (fBits 11 w 10 0))
  | 0x03 => when (zeroAt w 20 11) (.skipnz (fSreg w 25) (fBits 11 w 10 0))
  | 0x04 => when (zeroAt w 20 0) (.exitn (fSreg w 25))
  | 0x05 => when (zeroAt w 20 16) (.call (fSreg w 25) (fBits 16 w 15 0))
  | 0x06 => when (zeroAt w 25 0) .ret
  | 0x07 => when (zeroAt w 25 14) (.wait (fBits 14 w 13 0))
  | 0x08 => when (zeroAt w 25 16) (.delay (fBits 16 w 15 0))
  | 0x09 => when (zeroAt w 20 0) (.strip (fSreg w 25))
  | 0x0A => when (zeroAt w 25 4) (.signal ⟨fld w 3 0 % 16, Nat.mod_lt _ (by decide)⟩)
  | 0x0B => when (zeroAt w 20 4) (.waitev (fSreg w 25) ⟨fld w 3 0 % 16, Nat.mod_lt _ (by decide)⟩)
  | 0x0C => when (zeroAt w 25 0) .commit
  | 0x0D => when (zeroAt w 25 0) .halt
  | _ => none

/-- Table 8-6; a reserved TAG of STLD is rejected with the slot (R207). -/
def decodeAga (w : Nat) : Option AgaOp :=
  match slotOpcode w with
  | 0x01 => when (zeroAt w 3 0) (.rows (fDesc w 25) (fAreg w 22) (fSreg w 18) (fSreg w 13) (fSreg w 8))
  | 0x02 => when (zeroAt w 2 0) (.tap (fDesc w 25) (fAreg w 22) (fSreg w 18) (fSreg w 13) (fVreg w 8) (bitAt w 3))
  | 0x03 => when (decide (fld w 19 18 ≠ 3)) (.stld (fQuad w 25) (fAreg w 23) (fBits 2 w 19 18) (fSreg w 17) (fBits 13 w 12 0))
  | _ => none

/-- Table 8-8. -/
def decodeAgb (w : Nat) : Option AgbOp :=
  match slotOpcode w with
  | 0x01 => when (zeroAt w 9 0) (.loadw (fBits 4 w 25 22) (fDesc w 21) (fAreg w 18) (fSreg w 14))
  | 0x02 => when (zeroAt w 25 22 && zeroAt w 14 0) (.mvstream (fDesc w 21) (fAreg w 18))
  | 0x03 => when (zeroAt w 4 0) (.importTile (fBits 4 w 25 22) (fDesc w 21) (fAreg w 18) (fSreg w 14) (fSreg w 9))
  | _ => none

/-- Table 8-10. -/
def decodeDma (w : Nat) : Option DmaOp :=
  match slotOpcode w with
  | 0x01 => when (zeroAt w 5 0) (.dmov (fDesc w 25) (fDesc w 22) (fAreg w 19) (fSreg w 15) (fSreg w 10))
  | 0x02 => when (zeroAt w 19 16 && zeroAt w 5 0) (.dexp (fDesc w 25) (fDesc w 22) (fSreg w 15) (fSreg w 10))
  | _ => none

/-- Table 8-12. -/
def decodeMxa (w : Nat) : Option MxaOp :=
  match slotOpcode w with
  | 0x01 => when (zeroAt w 5 0)
      (.pass (fDesc w 25) (fBits 4 w 22 19) (fSreg w 18) (fSreg w 13) (bitAt w 8) (bitAt w 7) (bitAt w 6))
  | 0x02 => when (zeroAt w 8 0) (.readOut (fDesc w 25) (fBits 4 w 22 19) (fSreg w 18) (fSreg w 13))
  | _ => none

/-- Table 8-15. -/
def decodeMvp (w : Nat) : Option MvpOp :=
  match slotOpcode w with
  | 0x01 => when (zeroAt w 9 0) (.mvpass (fQuad w 25) (fQuad w 23) (bitAt w 21) (bitAt w 20) (fSreg w 19) (fSreg w 14))
  | 0x02 => when (zeroAt w 21 20 && zeroAt w 9 0) (.mvread (fQuad w 25) (fQuad w 23) (fSreg w 19) (fSreg w 14))
  | _ => none

/-- The two-operand operations by opcode (Table 5-5). -/
def opVecBin (o : Nat) : Option VBin :=
  match o with
  | 0x01 => some .fadd | 0x02 => some .fsub | 0x03 => some .fmul | 0x05 => some .fmin | 0x06 => some .fmax
  | 0x09 => some .fcmplt | 0x0A => some .fcmple | 0x0B => some .fcmpeq | 0x10 => some .iadd | 0x11 => some .isub
  | 0x12 => some .imul | 0x13 => some .imin | 0x14 => some .imax | 0x15 => some .icmplt | 0x16 => some .icmpeq
  | 0x17 => some .and | 0x18 => some .or | 0x19 => some .xor | 0x24 => some .fscalb
  | _ => none

/-- The one-operand operations by opcode (Table 5-5). -/
def opVecUn (o : Nat) : Option VUn :=
  match o with
  | 0x07 => some .fabs | 0x08 => some .fneg | 0x20 => some .cvtif | 0x21 => some .cvtfi | 0x23 => some .fcexp
  | 0x30 => some .frsum | 0x31 => some .frmax | 0x32 => some .irsum
  | _ => none

/-- The remaining rows of Table 8-17; TAG is a read action in loads and a write action in stores (R207). -/
def decodeVecRest (w : Nat) : Option VecOp :=
  let d := fVreg w 25
  let a := fVreg w 20
  let m := fAreg w 20
  let t := fBits 2 w 16 15
  let readOk := decide (fld w 16 15 ≠ 3)
  let writeOk := decide (fld w 16 15 < 2)
  match slotOpcode w with
  | 0x04 => when (zeroAt w 5 0) (.fmad d a (fVreg w 15) (fVreg w 10))
  | 0x0C => when (zeroAt w 5 0) (.sel d a (fVreg w 15) (fVreg w 10))
  | 0x1A => when (zeroAt w 15 5) (.shl d a (fSreg w 4))
  | 0x1B => when (zeroAt w 15 5) (.sra d a (fSreg w 4))
  | 0x22 => when (zeroAt w 15 4) (.frnd d a (fBits 4 w 3 0))
  | 0x28 => when (readOk && zeroAt w 14 11) (.vld d m t (fBits 11 w 10 0))
  | 0x29 => when readOk (.vldw d m t (fBits 4 w 14 11) (fBits 11 w 10 0))
  | 0x2A => when (writeOk && zeroAt w 14 11) (.vst d m t (fBits 11 w 10 0))
  | 0x2B => when writeOk (.vstn d m t (fBits 4 w 14 11) (fBits 11 w 10 0))
  | 0x2C => when writeOk (.sclw d m t ⟨fld w 14 9 % 64, Nat.mod_lt _ (by decide)⟩ (fBits 9 w 8 0))
  | 0x2D => when (zeroAt w 15 0) (.vbcs d (fSreg w 20))
  | 0x2E => when (zeroAt w 15 6) (.vext (fSreg w 25) a ⟨fld w 5 0 % 64, Nat.mod_lt _ (by decide)⟩)
  | 0x33 => when (zeroAt w 1 0 && zeroAt w 4 3) (.argmax d a (fSreg w 15) (fSreg w 10) (bitAt w 5) (bitAt w 4) (bitAt w 3) (bitAt w 2))
  | 0x34 => when (zeroAt w 1 0 && decide (d.val % 2 = 0))
      (.topk d a (fSreg w 15) (fSreg w 10) (bitAt w 5) (bitAt w 4) (bitAt w 3) (bitAt w 2))
  | 0x38 => when (zeroAt w 15 11 && zeroAt w 5 0) (.curve d a (fSreg w 10))
  | _ => none

/-- Table 8-17: an operand field that the operation does not read is zero (R214). -/
def decodeVec (w : Nat) : Option VecOp :=
  match opVecBin (slotOpcode w), opVecUn (slotOpcode w) with
  | some f, _ => when (zeroAt w 10 0) (.bin f (fVreg w 25) (fVreg w 20) (fVreg w 15))
  | none, some f => when (zeroAt w 15 0) (.un f (fVreg w 25) (fVreg w 20))
  | none, none => decodeVecRest w

/-- The three-register operations by opcode (Table 8-18). -/
def opSclBin (o : Nat) : Option SBin :=
  match o with
  | 0x01 => some .add | 0x02 => some .sub | 0x03 => some .mul | 0x04 => some .and | 0x05 => some .or | 0x06 => some .xor
  | 0x07 => some .min | 0x08 => some .max | 0x09 => some .slt | 0x0A => some .shl | 0x0B => some .shr | 0x0C => some .sra
  | _ => none

/-- Table 8-18. -/
def decodeScl (w : Nat) : Option SclOp :=
  match opSclBin (slotOpcode w), slotOpcode w with
  | some f, _ => when (zeroAt w 10 0) (.bin f (fSreg w 25) (fSreg w 20) (fSreg w 15))
  | none, 0x10 => some (.addi (fSreg w 25) (fSreg w 20) (fBits 16 w 15 0))
  | none, 0x11 => some (.ori (fSreg w 25) (fSreg w 20) (fBits 16 w 15 0))
  | none, 0x12 => some (.shli (fSreg w 25) (fSreg w 20) (fBits 16 w 15 0))
  | none, 0x13 => some (.shri (fSreg w 25) (fSreg w 20) (fBits 16 w 15 0))
  | none, 0x14 => some (.movi (fSreg w 25) (fBits 21 w 20 0))
  | none, 0x18 => when (zeroAt w 21 21 && zeroAt w 15 0) (.amov (fAreg w 25) (fSreg w 20))
  | none, 0x19 => when (zeroAt w 17 16 && zeroAt w 10 0) (.aadd (fAreg w 25) (fAreg w 21) (fSreg w 15))
  | none, 0x1A => some (.amovi (fAreg w 25) (fBits 22 w 21 0))
  | none, 0x1B => when (zeroAt w 16 0) (.smova (fSreg w 25) (fAreg w 20))
  | none, 0x1C => when (zeroAt w 20 2) (.rdlc (fSreg w 25) (fQuad w 1))
  | none, 0x20 => when (zeroAt w 25 21 && zeroAt w 15 0) (.setzp (fSreg w 20))
  | none, 0x21 => when (zeroAt w 25 21 && zeroAt w 15 0) (.setos (fSreg w 20))
  | none, 0x22 => when (zeroAt w 19 16 && zeroAt w 10 0) (.setinc (fAreg w 25) (fQuad w 21) (fSreg w 15))
  | none, 0x23 => when (zeroAt w 21 4) (.setbind (fAreg w 25) (fBits 4 w 3 0))
  | none, _ => none

/-- A slot's word: `none` where R184 rejects it, `some none` for a NOP. -/
def decodeSlot (slot w : Nat) : Option (Option SlotOp) :=
  if w = 0 then some none
  else match slot with
    | 0 => (decodeSeq w).map (fun o => some (.seq o))
    | 1 => (decodeAga w).map (fun o => some (.aga o))
    | 2 => (decodeAgb w).map (fun o => some (.agb o))
    | 3 => (decodeDma w).map (fun o => some (.dma o))
    | 4 => (decodeMxa w).map (fun o => some (.mxa o))
    | 5 => (decodeMvp w).map (fun o => some (.mvp o))
    | 6 => (decodeVec w).map (fun o => some (.vec o))
    | _ => (decodeScl w).map (fun o => some (.scl o))

/-- The word of slot i of bundle b in a code section (R183). -/
def slotWord (code : List Byte) (b i : Nat) : Nat := leAt code (32 * b + 4 * i) 4

end Sys2Proof.Machine
end

