-- ==== Sys2Proof/Machine/VerifyCtx.lean ====
section
/-!
DEFINITION. What the verifier works on (R225): an image with its partition's facts, its code sections decoded, the successors
of a bundle (R191, R193, R194), and the header and section checks 0x0101 to 0x0108 of Table 9-7.
-/
namespace Sys2Proof.Machine

/-- The facts of the partition, and of the engine, that the checks use. -/
structure VerCtx where
  midwinter : Bool
  callFlow : Bool
  rtPart : Bool
  rtQueue : Bool
  resident : Bool
  /-- for each number of arrays 1 to 4, the cores that have so many, a pair of a class RT partition counted as one -/
  cores : List Nat
  dir : List RoutineRec
  latencyNs : Nat
  rateMbs : Nat
  /-- for each slice on which the partition has cores: how many, and whether an inbound remote window maps onto it (Table 9-8) -/
  slices : List (Nat × Bool)
  deriving DecidableEq, Repr

/-- A code section: where its bundles lie in the image, its bytes, the descriptor records it runs with, its slots decoded (`none`
where R184 rejects one), and a core that holds the bank. -/
structure CodeSec where
  off : Nat
  code : List Byte
  recs : List DescRec
  bundles : List (List (Option (Option SlotOp)))
  core : Core
  deriving DecidableEq, Repr

def CodeSec.of (bs : List Byte) (codeTyp descTyp : Nat) : CodeSec :=
  let code := sectionBytes bs codeTyp
  let recs := descRecs (sectionBytes bs descTyp) 0
  { off := (findSection bs codeTyp).elim 0 (fun x => x.off), code := code, recs := recs,
    bundles := (List.range (code.length / 32)).map (fun b => (List.range 8).map (fun i => decodeSlot i (slotWord code b i))),
    core := { Core.reset with bank0 := bankOf recs } }

/-- CODE, then TWIN_CODE. -/
def codeSecs (bs : List Byte) : List CodeSec :=
  CodeSec.of bs 1 2 :: (if (findSection bs 3).isSome then [CodeSec.of bs 3 4] else [])

def CodeSec.length (x : CodeSec) : Nat := x.bundles.length
/-- The operations of bundle b. -/
def CodeSec.ops (x : CodeSec) (b : Nat) : List SlotOp := (nth [] x.bundles b).filterMap (fun o => o.bind id)
/-- Image offset of slot i of bundle b (R225). -/
def CodeSec.at' (x : CodeSec) (b i : Nat) : Nat := x.off + 32 * b + 4 * i
/-- Whether a descriptor register has a record. -/
def CodeSec.has (x : CodeSec) (i : Nat) : Bool := x.recs.any (fun r => decide (r.index = i))
/-- Whether each of the four registers of a window has a record (R220: 0x0404 otherwise, and no field of it is judged). -/
def CodeSec.hasWd (x : CodeSec) (w : Nat) : Bool := (List.range 4).all (fun i => x.has (0x80 + 4 * w + i))
/-- The sequencer operation of bundle b. -/
def CodeSec.seqOp (x : CodeSec) (b : Nat) : Option SeqOp :=
  (x.ops b).findSome? (fun o => match o with | .seq q => some q | _ => none)

/-- The first failing slot of a check, in the order of R225. -/
def firstSlot (secs : List CodeSec) (bad : CodeSec → Nat → List SlotOp → SlotOp → Bool) : Option Nat :=
  secs.findSome? (fun x => (List.range x.length).findSome? (fun b =>
    let ops := x.ops b
    (ops.find? (bad x b ops)).map (fun o => x.at' b o.slot)))

/-! ### Loops and successors -/

/-- A loop of the code: its LOOP bundle, first and last bundle of its body, and whether its count is known to be 0, known to
be at least 1, known to be at most 1. -/
structure LoopSpan where
  first : Nat
  last : Nat
  zero : Bool
  entered : Bool
  once : Bool
  deriving DecidableEq, Repr

/-- The loops of a section. -/
def CodeSec.loops (x : CodeSec) : List (Nat × LoopSpan) :=
  (List.range x.length).filterMap (fun b => match x.seqOp b with
    | some (.loop csrc len cnt) =>
      some (b, ⟨b + 1, b + len.toNat, csrc && decide (cnt = 0), csrc && decide (cnt ≠ 0), csrc && decide (cnt.toNat ≤ 1)⟩)
    | _ => none)

/-- The loops whose bodies hold bundle b, outermost first. -/
def enclosing (ls : List (Nat × LoopSpan)) (b : Nat) : List LoopSpan :=
  (ls.filter (fun l => decide (l.2.first ≤ b ∧ b ≤ l.2.last))).map (·.2)

/-- Where control goes after the end test at bundle b of the loops given innermost first (R191). -/
def afterEnd (inner : List LoopSpan) (b : Nat) : List Nat :=
  match inner with
  | [] => [b + 1]
  | l :: r => if l.last ≠ b then [b + 1] else (if l.once then [] else [l.first]) ++ afterEnd r b

/-- The bundles that may issue after bundle b (R191, R193, R194, R203, R204). -/
def CodeSec.succ (x : CodeSec) (ls : List (Nat × LoopSpan)) (b : Nat) : List Nat :=
  let inner := (enclosing ls b).reverse
  let next := afterEnd inner b
  let all := match x.seqOp b with
    | some .commit => []
    | some .halt => []
    | some (.skipz _ n) => next ++ [b + 1 + n.toNat]
    | some (.skipnz _ n) => next ++ [b + 1 + n.toNat]
    | some (.loop csrc len cnt) =>
      (if csrc && decide (cnt = 0) then [] else [b + 1]) ++
        (if csrc && decide (cnt ≠ 0) then [] else afterEnd inner (b + len.toNat))
    | some (.exitn _) =>
      (match inner with | [] => next | l :: r => next ++ afterEnd r l.last)
    | _ => next
  all.filter (fun t => decide (t < x.length))

/-! ### Header and sections (0x0101 to 0x0108) -/

/-- The first byte of a range that is not zero. -/
def firstNonzero (bs : List Byte) (lo hi : Nat) : Option Nat :=
  (List.range (hi - lo)).findSome? (fun i => if bs.getD (lo + i) 0 ≠ 0 then some (lo + i) else none)

/-- Offsets whose condition fails, the first of them. -/
def firstBad (xs : List (Nat × Bool)) : Option Nat := (xs.find? (fun x => x.2)).map (·.1)

def check0105 (bs : List Byte) : Option Nat :=
  firstBad [
    (0x06, decide (8 ≤ imgFlags bs)),
    (0x14, decide (imgCoresMin bs = 0 ∨ 16 < imgCoresMin bs)),
    (0x15, decide (imgCoresMax bs < imgCoresMin bs ∨ 16 < imgCoresMax bs)),
    (0x16, decide (imgArrays bs = 0 ∨ 4 < imgArrays bs)),
    (0x17, decide (leAt bs 0x17 1 ≠ 0)),
    (0x18, decide (imgNsKb bs = 0 ∨ 2048 < imgNsKb bs)),
    (0x1A, decide (imgSections bs = 0 ∨ 16 < imgSections bs)),
    (0x1C, decide (2048 < imgTwinNsKb bs)),
    (0x1E, decide (leAt bs 0x1E 2 ≠ 0)),
    (0x28, decide (leAt bs 0x28 24 ≠ 0))]

/-- Entry i of the section table, with the regions of the entries before it. -/
def sectionBad (len tend : Nat) (prev : List Section) (x : Section) : Bool :=
  decide (len < 0x40 + 16 * (x.index + 1)) || decide (x.reserved ≠ 0) || decide (x.typ = 0) ||
  decide (8 ≤ x.typ ∧ x.typ ≤ 0xFF) || decide (x.off % 32 ≠ 0) || decide (x.off < tend) || decide (len < x.off + x.size) ||
  prev.any (fun y => overlap (x.off, x.size) (y.off, y.size))

def check0106 (bs : List Byte) (len : Nat) : Option Nat :=
  let xs := sectionsOf bs
  let tend := 0x40 + 16 * xs.length
  match xs.find? (fun x => sectionBad len tend (xs.take x.index) x) with
  | some x => some (0x40 + 16 * x.index)
  | none => (List.range (len - tend)).findSome? (fun i =>
      let o := tend + i
      if bs.getD o 0 ≠ 0 ∧ ¬ xs.any (fun x => decide (x.off ≤ o ∧ o < x.off + x.size)) then some o else none)

def check0107 (bs : List Byte) : Option Nat :=
  ((sectionsOf bs).find? (fun x => decide (crc32c (slice bs x.off x.size) ≠ x.crc))).map (fun x => 0x40 + 16 * x.index)

/-- Whole numbers of records (Table 9-7, row 0x0108). -/
def sectionSizeOk (typ size : Nat) : Bool :=
  match typ with
  | 1 => decide (size % 32 = 0 ∧ 0 < size ∧ size ≤ 65536)
  | 2 => decide (size % 16 = 0)
  | 3 => decide (size % 32 = 0 ∧ 0 < size ∧ size ≤ 65536)
  | 4 => decide (size % 16 = 0)
  | 5 => decide (size % 32 = 0)
  | 6 => decide (size % 8 = 0)
  | 7 => decide (size = 96)
  | _ => true

/-- A routine requirement (Table 9-3): ID, requirement, the rest, its offset. -/
structure RoutineReq where
  id : Nat
  req : Nat
  rest : Nat
  off : Nat
  deriving DecidableEq, Repr

def routineReqs (bs : List Byte) : List RoutineReq :=
  let base := (findSection bs 6).elim 0 (fun x => x.off)
  let s := sectionBytes bs 6
  (List.range (s.length / 8)).map (fun i =>
    { id := leAt s (8 * i) 2, req := leAt s (8 * i + 2) 2, rest := leAt s (8 * i + 4) 4, off := base + 8 * i })

def check0108 (bs : List Byte) : Option Nat :=
  let xs := sectionsOf bs
  let has := fun (t : Nat) => xs.any (fun x => decide (x.typ = t))
  let fl := imgFlags bs
  let missing := !has 1 || !has 2 || !has 5 || (has 3 && !has 4) || (bitAt fl 2 && !has 6) || (bitAt fl 1 && !has 7)
  let twin := decide (has 3 ≠ decide (imgTwinNsKb bs ≠ 0))
  let entry := xs.find? (fun x => decide (x.typ < 0x100) &&
    ((xs.take x.index).any (fun y => decide (y.typ = x.typ)) || !sectionSizeOk x.typ x.size))
  let rs := routineReqs bs
  let bad := (rs.zipIdx).find? (fun r => decide (r.1.rest ≠ 0) || decide (1 < r.1.req) ||
    (rs.take r.2).any (fun y => decide (y.id = r.1.id)))
  let w := (findSection bs 7).map (fun x => x.off)
  if missing then some 0x1A
  else if twin then some 0x1C
  else match entry with
    | some x => some (0x40 + 16 * x.index)
    | none => match bad with
      | some r => some r.1.off
      | none => w.bind (fun o => firstBad [
          (o + 4, decide (5 < imgFloor bs)), (o + 5, decide (leAt bs (o + 5) 11 ≠ 0)), (o + 84, decide (leAt bs (o + 84) 12 ≠ 0))])

/-- Checks 0x0101 to 0x0108: `length` is what the load asked for. -/
def layoutChecks (bs : List Byte) (length : Nat) : List (Nat × (Unit → Option Nat)) :=
  let len := imgLength bs
  [(0x0101, fun _ => firstBad [(0, decide (leAt bs 0 4 ≠ 0x4C4D5849)), (4, decide (leAt bs 4 2 ≠ 2))]),
   (0x0102, fun _ => if len % 32 ≠ 0 ∨ len < 128 ∨ 1048576 < len ∨ len ≠ length ∨ bs.length ≠ len then some 8 else none),
   (0x0103, fun _ => if crc32c (overwrite bs 12 [0, 0, 0, 0]) ≠ leAt bs 12 4 then some 12 else none),
   (0x0104, fun _ => if blockMinOk (leAt bs 0x10 4) then none else some 0x10),
   (0x0105, fun _ => check0105 bs),
   (0x0106, fun _ => check0106 bs len),
   (0x0107, fun _ => check0107 bs),
   (0x0108, fun _ => check0108 bs)]

/-- The first failing check: its code and the offset of the failing item (R225). -/
def firstFailure : List (Nat × (Unit → Option Nat)) → Option (Nat × Nat)
  | [] => none
  | (c, f) :: r => match f () with | some o => some (c, o) | none => firstFailure r

end Sys2Proof.Machine
end

