-- ==== Sys2Proof/Machine/VerifyFlow.lean ====
section
/-!
DEFINITION. What the verifier traces along the paths of a code section: bindings of address registers (R192, R217), weight
sets (R62, R98, R146, R209), registers a routine may have changed (R234), and the intervals of R229.
-/
namespace Sys2Proof.Machine

/-! ### Intervals (R229) -/

/-- A signed interval of a scalar register. -/
structure Itv where
  lo : Int
  hi : Int
  deriving DecidableEq, Repr

def Itv.full : Itv := ⟨-2 ^ 63, 2 ^ 63 - 1⟩
/-- An interval that an operation forms: wrap-around counts as unbounded. -/
def Itv.mk' (lo hi : Int) : Itv := if lo < -2 ^ 63 ∨ 2 ^ 63 - 1 < hi then Itv.full else ⟨lo, hi⟩
def Itv.const (x : Int) : Itv := ⟨x, x⟩
def Itv.join (x y : Itv) : Itv := ⟨min x.lo y.lo, max x.hi y.hi⟩
def Itv.isConst (x : Itv) : Bool := decide (x.lo = x.hi)
/-- Whether bits [n − 1:0] of the register are the register. -/
def Itv.bounded (x : Itv) (n : Nat) : Bool := decide (0 ≤ x.lo ∧ x.hi < 2 ^ n)
/-- The smallest number of the form 2^k − 1 that is no less than x. -/
def maskUp (x : Int) : Int := if x ≤ 0 then 0 else 2 ^ (Nat.log2 x.toNat + 1) - 1

def Itv.mul (x y : Itv) : Itv :=
  let ps := [x.lo * y.lo, x.lo * y.hi, x.hi * y.lo, x.hi * y.hi]
  Itv.mk' (ps.foldl min (x.lo * y.lo)) (ps.foldl max (x.lo * y.lo))

/-- The shifts of R215, by bits [5:0] of a known amount. -/
def Itv.shl (x : Itv) (k : Nat) : Itv := Itv.mul x ⟨2 ^ (k % 64), 2 ^ (k % 64)⟩
def Itv.shr (x : Itv) (k : Nat) : Itv :=
  if 0 ≤ x.lo then ⟨x.lo / 2 ^ (k % 64), x.hi / 2 ^ (k % 64)⟩
  else if k % 64 = 0 then x else ⟨0, 2 ^ (64 - k % 64) - 1⟩
def Itv.sra (x : Itv) (k : Nat) : Itv := ⟨x.lo / 2 ^ (k % 64), x.hi / 2 ^ (k % 64)⟩
/-- A shift by a register. -/
def Itv.byReg (f : Itv → Nat → Itv) (x y : Itv) : Itv :=
  if y.isConst then f x (y.lo % 64).toNat else if 0 ≤ x.lo then (f x 0).join (f x 63) else Itv.full

def Itv.bin (f : SBin) (x y : Itv) : Itv :=
  match f with
  | .add => Itv.mk' (x.lo + y.lo) (x.hi + y.hi)
  | .sub => Itv.mk' (x.lo - y.hi) (x.hi - y.lo)
  | .mul => x.mul y
  | .min => ⟨min x.lo y.lo, min x.hi y.hi⟩
  | .max => ⟨max x.lo y.lo, max x.hi y.hi⟩
  | .slt => ⟨0, 1⟩
  | .and => if 0 ≤ x.lo ∧ 0 ≤ y.lo then ⟨0, min x.hi y.hi⟩ else if 0 ≤ x.lo then ⟨0, x.hi⟩
            else if 0 ≤ y.lo then ⟨0, y.hi⟩ else Itv.full
  | .or => if 0 ≤ x.lo ∧ 0 ≤ y.lo then ⟨max x.lo y.lo, maskUp (max x.hi y.hi)⟩ else Itv.full
  | .xor => if 0 ≤ x.lo ∧ 0 ≤ y.lo then ⟨0, maskUp (max x.hi y.hi)⟩ else Itv.full
  | .shl => Itv.byReg Itv.shl x y
  | .shr => Itv.byReg Itv.shr x y
  | .sra => Itv.byReg Itv.sra x y

/-! ### The traced state -/

/-- A weight set that a register may hold: the format, TRANS and AMASK of its load (R209), whether G is 32 (R62), whether
its scales or zero points are declared (R98). -/
structure SetInfo where
  wfmt : Nat
  trans : Bool
  amask : Nat
  g32 : Bool
  scaled : Bool
  deriving DecidableEq, Repr

/-- What may hold before a bundle issues. -/
structure FlowSt where
  /-- loop levels to which each address register may be bound -/
  bind : List Nat
  /-- weight sets each array's shadow and active registers may hold -/
  shadow : List (List SetInfo)
  active : List (List SetInfo)
  /-- registers that a routine may have changed since they were written -/
  clobS : Nat
  clobV : Nat
  itv : List Itv
  deriving DecidableEq, Repr

/-- What the trace reads of the image besides the code. -/
structure FlowCtx where
  decls : List TensorDecl
  dir : List RoutineRec
  stripsMax : Nat
  args : List Nat

/-- The state at the first bundle (R93, R186): an address register is bound as its ABIND record says (R187, R220). -/
def FlowSt.start (x : CodeSec) (c : FlowCtx) : FlowSt :=
  { bind := (List.range 16).map (fun i => (x.recs.find? (fun r => decide (r.index = 0x70 + i))).elim 0 (fun r => r.value.toNat % 16))
    shadow := List.replicate 4 [], active := List.replicate 4 [], clobS := 0, clobV := 0
    itv := (List.range 32).map (fun i =>
      if 1 ≤ i ∧ i ≤ 8 then (if nth 0 c.args (i - 1) < 2 ^ 63 then ⟨0, (nth 0 c.args (i - 1) : Nat)⟩ else Itv.full)
      else Itv.const 0) }

def unite (x y : List SetInfo) : List SetInfo := x ++ y.filter (fun s => decide (s ∉ x))

/-- What may hold where two paths meet; `wide` gives up on an interval that still grows. -/
def FlowSt.join (wide : Bool) (x y : FlowSt) : FlowSt :=
  { bind := List.zipWith (fun a b => a ||| b) x.bind y.bind, shadow := List.zipWith unite x.shadow y.shadow
    active := List.zipWith unite x.active y.active, clobS := x.clobS ||| y.clobS, clobV := x.clobV ||| y.clobV
    itv := List.zipWith (fun (a b : Itv) => if a.join b = a then a else if wide then Itv.full else a.join b) x.itv y.itv }

/-- The declaration a record of a section is linked to. -/
def CodeSec.decl (x : CodeSec) (decls : List TensorDecl) (i : Nat) : Option TensorDecl :=
  (x.recs.find? (fun r => decide (r.index = i))).bind (fun r => decls.find? (fun t => decide (t.number = r.tensor)))

/-- SC and ZP of a declaration. -/
def declSc (t : TensorDecl) : Bool := bitAt t.scales 0
def declZp (t : TensorDecl) : Bool := bitAt t.zpByte 0

/-- The set that a LOADW leaves in the shadow registers. -/
def CodeSec.loadInfo (x : CodeSec) (decls : List TensorDecl) (m : BitVec 4) (bd : Fin 8) : SetInfo :=
  let d := x.core.bd bd
  { wfmt := bdWfmt d, trans := bdTrans d, amask := m.toNat, g32 := bdSc d && decide (bdGsel d = 0),
    scaled := bdSc d || ((x.decl decls (0x18 + bd.val)).elim false (fun t => declSc t || declZp t)) }

/-- Vector registers that a slot certainly writes, read-outs included. -/
def CodeSec.writesV (x : CodeSec) (o : SlotOp) : List Nat :=
  match o with
  | .mxa (.pass mt _ _ _ _ _ true) => if mtRead (x.core.mt mt) = 4 then [mtVd (x.core.mt mt)] else []
  | .mxa (.readOut mt _ _ _) => if mtRead (x.core.mt mt) = 4 then [mtVd (x.core.mt mt)] else []
  | .mvp (.mvpass vt v1 _ true _ _) =>
    let d := x.core.vtA vt
    if vtNs d || decide (vtRead d = 0) then []
    else (List.range ((v1.val + 1) * ceilDiv (vtN d) 64)).map (fun i => vtVd d + i)
  | .mvp (.mvread vt v1 _ _) =>
    let d := x.core.vtA vt
    if vtNs d || decide (vtRead d = 0) then [] else (List.range (v1.val + 1)).map (fun i => vtVd d + i)
  | _ => slotWritesV o

def bitsOf (xs : List Nat) : Nat := xs.foldl (fun m i => m ||| 2 ^ i) 0
/-- m without the bits of n. -/
def dropBits (m n : Nat) : Nat := m ^^^ (m &&& n)

/-! ### One bundle -/

/-- PASS exchanges the sets (R92), then a LOADW of the bundle fills the shadow. -/
def FlowSt.sets (x : CodeSec) (c : FlowCtx) (st : FlowSt) (o : SlotOp) : FlowSt :=
  match o with
  | .mxa (.pass _ m _ _ _ true _) =>
    let pick := fun (j : Nat) (a b : List SetInfo) => if m.getLsbD j then a else b
    { st with
      shadow := (List.range 4).map (fun j => pick j (nth [] st.active j) (nth [] st.shadow j))
      active := (List.range 4).map (fun j => pick j (nth [] st.shadow j) (nth [] st.active j)) }
  | .agb (.loadw m bd _ _) =>
    { st with shadow := (List.range 4).map (fun j =>
        if m.getLsbD j then [x.loadInfo c.decls m bd] else nth [] st.shadow j) }
  | .scl (.setbind n m) => { st with bind := setNth st.bind n.val m.toNat }
  | _ => st

/-- The interval of a register; s0 is 0. -/
def FlowSt.s (st : FlowSt) (r : SReg) : Itv := if r.val = 0 then Itv.const 0 else nth Itv.full st.itv r.val

/-- What a slot writes into a scalar register, as an interval. -/
def FlowSt.value (c : FlowCtx) (st : FlowSt) (o : SlotOp) : Option (SReg × Itv) :=
  match o with
  | .seq (.strip d) => some (d, ⟨-1, (c.stripsMax : Int) - 1⟩)
  | .vec (.vext d _ _) => some (d, Itv.full)
  | .scl (.bin f d a b) => some (d, Itv.bin f (st.s a) (st.s b))
  | .scl (.addi d a i) => some (d, Itv.bin .add (st.s a) (Itv.const i.toInt))
  | .scl (.ori d a i) => some (d, Itv.bin .or (st.s a) (Itv.const i.toNat))
  | .scl (.shli d a i) => some (d, (st.s a).shl i.toNat)
  | .scl (.shri d a i) => some (d, (st.s a).shr i.toNat)
  | .scl (.movi d i) => some (d, Itv.const i.toInt)
  | .scl (.smova d _) => some (d, ⟨0, 2 ^ 32 - 1⟩)
  | .scl (.rdlc d _) => some (d, ⟨0, 2 ^ 32 - 1⟩)
  | _ => none

/-- The routine record of an ID in the active directory. -/
def FlowCtx.routine (c : FlowCtx) (id : Nat) : Option RoutineRec := c.dir.find? (fun r => decide (r.id = id))

/-- The state after bundle b: every slot reads before any writes (R188), a routine runs after its CALL's bundle. -/
def FlowSt.after (x : CodeSec) (c : FlowCtx) (st : FlowSt) (b : Nat) : FlowSt :=
  let ops := x.ops b
  let s1 := (ops.filter (fun o => decide (o.slot = 4)) ++ ops.filter (fun o => decide (o.slot ≠ 4))).foldl
    (fun (s : FlowSt) o => s.sets x c o) st
  let ws := ops.filterMap (fun o => st.value c o)
  let s2 : FlowSt := { s1 with
    itv := ws.foldl (fun (l : List Itv) w => setNth l w.1.val w.2) s1.itv
    clobS := dropBits s1.clobS (bitsOf ((ops.flatMap slotWritesS).map (fun r => r.val)))
    clobV := dropBits s1.clobV (bitsOf (ops.flatMap x.writesV)) }
  match x.seqOp b with
  | some (.call _ id) =>
    let r := c.routine id.toNat
    let cs := r.elim 0 (fun r => r.clobS)
    { s2 with
      clobS := s2.clobS ||| cs, clobV := s2.clobV ||| r.elim 0 (fun r => r.clobV)
      itv := s2.itv.mapIdx (fun i v => if bitAt cs i then Itv.full else v) }
  | _ => s2

/-- What a successor of bundle b sees: past an EXITN that is not taken the register is not negative (R194). -/
def FlowSt.edge (x : CodeSec) (ls : List (Nat × LoopSpan)) (st : FlowSt) (b t : Nat) : FlowSt :=
  match x.seqOp b, (enclosing ls b).reverse with
  | some (.exitn r), l :: _ =>
    if t ≤ l.last ∧ l.first ≤ t then
      { st with itv := st.itv.mapIdx (fun i v => if i = r.val then ⟨max 0 v.lo, max 0 v.hi⟩ else v) }
    else st
  | _, _ => st

/-! ### The whole section -/

/-- One bundle's state into its successors. -/
def flowPush (x : CodeSec) (c : FlowCtx) (ls : List (Nat × LoopSpan)) (wide : Bool) (m : List (Option FlowSt)) (b : Nat) :
    List (Option FlowSt) :=
  match nth none m b with
  | none => m
  | some st =>
    let st' := st.after x c b
    (x.succ ls b).foldl (fun (m : List (Option FlowSt)) t =>
      let e := st'.edge x ls b t
      setNth m t (some (match nth none m t with | some o => o.join wide e | none => e))) m

/-- Rounds over all bundles until nothing changes. -/
def flowRounds (x : CodeSec) (c : FlowCtx) (ls : List (Nat × LoopSpan)) : Nat → Nat → List (Option FlowSt) → List (Option FlowSt)
  | 0, _, m => m
  | f + 1, i, m =>
    let m' := (List.range x.length).foldl (flowPush x c ls (decide (x.length + 4 < i))) m
    if m' = m then m else flowRounds x c ls f (i + 1) m'

/-- The state before each bundle that may issue. -/
def CodeSec.flow (x : CodeSec) (c : FlowCtx) : List (Option FlowSt) :=
  flowRounds x c x.loops (x.length * (200 + 8 * x.length)) 0
    (setNth (List.replicate x.length none) 0 (some (FlowSt.start x c)))

end Sys2Proof.Machine
end

