-- ==== Sys2Proof/Machine/Bound.lean ====
section
/-!
DEFINITION. The derived bound of a bundle stream (R231, R233, Table 9-8): the abstract run over its loops, skips, calls and
strips. By how much the holds of Table 8-4 delay each bundle is a free value of Config.
-/
namespace Sys2Proof.Machine

/-- What a derivation assumes: the bytes it is about, the resources of Table 9-8, the routines it may call. -/
structure BoundCtx where
  image : List Byte
  latencyNs : Nat
  rateMbs : Nat
  mhz : Nat
  beats : Nat
  dir : List RoutineRec

/-- Deep-scratch beats per CCLK that a core has at worst (Table 9-8): 8 of its slice, less 1 for the journal, less those of the Stack
Link sink at 256 GB/s where an inbound window maps onto the slice, shared by the cores of the partition on it, at most 4. -/
def deepBeats (mhz : Nat) (slices : List (Nat × Bool)) : Nat :=
  slices.foldl (fun m x =>
    let sink := if x.2 then (4000 + mhz - 1) / mhz else 0
    min m ((7 - sink) / max 1 x.1)) 4

/-- CCLK of bundle b but for what a jump adds: its hold, its issue, its call (Table 9-8); none where nothing bounds it. -/
def CodeSec.cost (x : CodeSec) (c : BoundCtx) (b : Nat) : Option Nat :=
  let one := Config.issueHold c.image b c.latencyNs c.rateMbs c.mhz c.beats + 1
  match x.seqOp b with
  | some (.call _ id) => (c.dir.find? (fun r => decide (r.id = id.toNat))).map (fun r => one + 24 + r.wcet + 4)
  | some (.waitev _ _) => none
  | _ => some one

/-- The bound of a loop's count; none where it has none (R229). -/
def CodeSec.countBound (fl : List (Option FlowSt)) (b : Nat) (csrc : Bool) (cnt : BitVec 14) : Option Nat :=
  if csrc then some cnt.toNat
  else (nth none fl b).bind (fun st =>
    let i := st.s ⟨cnt.toNat % 32, Nat.mod_lt _ (by decide)⟩
    if i.bounded 32 then some i.hi.toNat else none)

/-- Sum and maximum of costs that may have no bound. -/
def optAdd (x y : Option Nat) : Option Nat := x.bind (fun a => y.map (fun b => a + b))
def optMax (x y : Option Nat) : Option Nat := x.bind (fun a => y.map (fun b => max a b))

/-- The cost from bundle b to the end of its innermost loop's body, or of the stream, given those of the bundles after it in
`after`. At `stop` the run ends, and a loop around it runs once and no further. A skip or an exit that is taken costs 2 CCLK;
the dearer outcome counts. -/
def CodeSec.costFrom (x : CodeSec) (c : BoundCtx) (fl : List (Option FlowSt)) (stop : Option Nat) (b : Nat)
    (after : List (Option Nat)) : Option Nat :=
  let last := match (enclosing x.loops b).reverse with | l :: _ => l.last | [] => x.length - 1
  let at' := fun (t : Nat) => if last < t then some 0 else nth (some 0) after (t - (b + 1))
  if stop = some b then some 0
  else match x.seqOp b with
    | some .commit => x.cost c b
    | some .halt => x.cost c b
    | some (.loop csrc len cnt) =>
      let body := nth (some 0) after 0
      if stop.any (fun t => decide (b < t ∧ t ≤ b + len.toNat)) then optAdd (x.cost c b) body
      else optAdd (x.cost c b) (optAdd ((CodeSec.countBound fl b csrc cnt).bind (fun n => body.map (fun d => n * d)))
        (at' (b + len.toNat + 1)))
    | some (.skipz _ n) => optAdd (x.cost c b) (optMax (at' (b + 1)) (optAdd (some 1) (at' (b + 1 + n.toNat))))
    | some (.skipnz _ n) => optAdd (x.cost c b) (optMax (at' (b + 1)) (optAdd (some 1) (at' (b + 1 + n.toNat))))
    | some (.exitn _) => optAdd (x.cost c b) (optMax (at' (b + 1)) (some 1))
    | _ => optAdd (x.cost c b) (at' (b + 1))

/-- The costs of every bundle, from the last to the first. -/
def CodeSec.costs (x : CodeSec) (c : BoundCtx) (fl : List (Option FlowSt)) (stop : Option Nat) : List (Option Nat) :=
  (List.range x.length).foldr (fun b after => x.costFrom c fl stop b after :: after) []

/-- The cost of the bundles of [lo, hi) in sequence. -/
def CodeSec.straight (x : CodeSec) (c : BoundCtx) (lo hi : Nat) : Option Nat :=
  (List.range (hi - lo)).foldl (fun n i => optAdd n (x.cost c (lo + i))) (some 0)

/-- The first STRIP in a loop that no other loop holds, with that loop. -/
def CodeSec.stripLoop (x : CodeSec) : Option (Nat × LoopSpan) :=
  (List.range x.length).findSome? (fun b => match x.seqOp b, enclosing x.loops b with
    | some (.strip _), [l] => some (b, l)
    | _, _ => none)

/-- D of a stream that n cores run: to the first STRIP, ceil(STRIPS_MAX / n) strip bodies, from the exhausted STRIP to COMMIT; of a
stream that takes no strips in such a loop, its whole cost (R231). -/
def derive (c : BoundCtx) (x : CodeSec) (fl : List (Option FlowSt)) (stripsMax n : Nat) : Option Nat :=
  let all := x.costs c fl none
  match x.stripLoop with
  | none => nth none all 0
  | some (p, l) =>
    let exit := match (List.range (l.last + 1 - p)).findSome? (fun i => match x.seqOp (p + i) with
        | some (.exitn _) => some (p + i) | _ => none) with
      | some e => optAdd (x.straight c p (e + 1)) (some 1)
      | none => nth none all p
    let rest := if x.length ≤ l.last + 1 then some 0 else nth none all (l.last + 1)
    optAdd (nth none (x.costs c fl (some p)) 0)
      (optAdd ((nth none all l.first).map (fun d => ceilDiv stripsMax n * d)) (optAdd exit rest))

end Sys2Proof.Machine
end

