-- ==== Sys2Proof/Machine/Verifier.lean ====
section
/-!
DEFINITION. Checks 0x0201 to 0x0604 of Table 9-7, in the order of R225, and the verifier.
-/
namespace Sys2Proof.Machine

/-- An image as the checks see it: bytes, partition facts, code sections, declarations, the traced states. -/
structure Ver where
  bs : List Byte
  ctx : VerCtx
  secs : List CodeSec
  decls : List TensorDecl
  flows : List (List (Option FlowSt))

/-- DESC records, then TWIN_DESC records, with their image offsets. -/
def imageRecs (bs : List Byte) : List (Bool × DescRec) :=
  let one := fun (t : Nat) (twin : Bool) =>
    (descRecs (sectionBytes bs t) ((findSection bs t).elim 0 (fun x => x.off))).map (fun r => (twin, r))
  one 2 false ++ one 4 true

def imageDecls (bs : List Byte) : List TensorDecl := tensorDecls (sectionBytes bs 5) ((findSection bs 5).elim 0 (fun x => x.off))

/-- Kinds of descriptor registers (Table 8-3). -/
inductive DescKind where
  | mt | vta | vtb | ad | bd | dda | ddb | ainc | abind | wd (q : Nat) | none
  deriving DecidableEq, Repr

def descKind (i : Nat) : DescKind :=
  if i < 0x08 then .mt
  else if i < 0x10 then (if i % 2 = 0 then .vta else .vtb)
  else if i < 0x18 then .ad
  else if i < 0x20 then .bd
  else if i < 0x30 then (if i % 2 = 0 then .dda else .ddb)
  else if i < 0x70 then .ainc
  else if i < 0x80 then .abind
  else if i < 0xA0 then .wd (i % 4)
  else .none

/-- Registers that may name a declaration (R220). -/
def linkable (k : DescKind) : Bool := decide (k = .ad ∨ k = .bd ∨ k = .dda ∨ k = .vta)

/-- The first failing record. -/
def firstRec (bs : List Byte) (bad : DescRec → Bool) : Option Nat := ((imageRecs bs).find? (fun r => bad r.2)).map (fun r => r.2.off)
def firstDecl (v : Ver) (bad : TensorDecl → Bool) : Option Nat := (v.decls.find? bad).map (fun t => t.off)

/-! ### Descriptors (0x0201 to 0x0208) -/

/-- Reserved fields and field values of Tables 8-7 to 8-16 and 6-1, but for formats and semiring modes. -/
def reservedValue (k : DescKind) (d : Nat) : Bool :=
  match k with
  | .mt => decide (fld d 63 61 ≠ 0 ∨ 4 < mtRead d ∨ 1 < mtDtag d)
  | .vta => decide (fld d 63 53 ≠ 0 ∨ 3 < vtRead d)
  | .vtb => decide (fld d 15 10 ≠ 0 ∨ fld d 63 32 ≠ 0 ∨ 1 < vtDtag d)
  | .ad => decide (fld d 31 23 ≠ 0 ∨ adMode d = 3 ∨ adTag d = 3 ∨ adGsel d = 3)
  | .bd => decide (fld d 31 24 ≠ 0 ∨ bdSrc d = 3 ∨ bdTag d = 3 ∨ bdGsel d = 3)
  | .dda => decide (fld d 15 11 ≠ 0 ∨ 1 < ddFar d ∨ ddCodec d = 3 ∨ ddAtom d = 3 ∨ (if ddOut d then 2 else 1) < ddNtag d)
  | .ddb => decide (fld d 63 48 ≠ 0)
  | .ainc => decide (fld d 63 32 ≠ 0)
  | .abind => decide (fld d 63 4 ≠ 0)
  | .wd 1 => decide (fld d 63 49 ≠ 0)
  | .wd 2 => decide (fld d 31 16 ≠ 0)
  | .wd 3 => decide (fld d 63 32 ≠ 0)
  | .wd _ => false
  | .none => true

def check0201 (v : Ver) : Option Nat :=
  let rs := imageRecs v.bs
  (rs.zipIdx.find? (fun r =>
    let k := descKind r.1.2.index
    reservedValue k r.1.2.value.toNat || decide (r.1.2.reserved ≠ 0) || (!linkable k && decide (r.1.2.tensor ≠ 0xFFFF)) ||
    (rs.take r.2).any (fun y => decide (y.1 = r.1.1 ∧ y.2.index = r.1.2.index)))).map (fun r => r.1.2.off)

/-- Whether a code is reserved (R30). -/
def badFmt (c : Nat) : Bool := (fmtOf c).isNone
/-- Whether an OFMT is reserved, read or not; 0xF is INT32 with REQUANT. -/
def badOfmt (requant : Bool) (o : Nat) : Bool := badFmt o && !(requant && decide (o = 0xF))

def fmtsBad (k : DescKind) (d : Nat) : Bool :=
  match k with
  | .mt => badFmt (mtAfmt d) || badFmt (mtWfmt d) || badOfmt (decide (mtRead d = 1)) (mtOfmt d)
  | .vta => badFmt (vtAfmt d) || badFmt (vtWfmt d) || badOfmt (decide (vtRead d = 2)) (vtOfmt d)
  | .ad => badFmt (adTfmt d)
  | .bd => badFmt (bdWfmt d)
  | _ => false

/-- The format field of a vector operation. -/
def vecFmt : SlotOp → Option Nat
  | .vec (.frnd _ _ f) => some f.toNat
  | .vec (.vldw _ _ _ f _) => some f.toNat
  | .vec (.vstn _ _ _ f _) => some f.toNat
  | _ => none

/-- The format field of a VEC slot's word by its opcode: FRND, VLDW, VSTN (Table 8-17). -/
def wordFmt (w : Nat) : Option Nat :=
  match slotOpcode w with | 0x22 => some (fld w 3 0) | 0x29 => some (fld w 14 11) | 0x2B => some (fld w 14 11) | _ => none

def check0202 (v : Ver) : Option Nat :=
  (firstRec v.bs (fun r => fmtsBad (descKind r.index) r.value.toNat)).orElse (fun _ =>
  (firstDecl v (fun t => badFmt t.fmt)).orElse (fun _ =>
  v.secs.findSome? (fun x => ((List.range x.length).find? (fun b => (wordFmt (slotWord x.code b 6)).elim false badFmt)).map
    (fun b => x.at' b 6))))

/-- Table 2-3. -/
def operandPair (a w : Fmt) : Bool :=
  let small := fun (f : Fmt) => decide (f = .e4m3 ∨ f = .e5m2 ∨ f = .e2m1)
  match w with
  | .bg4 => decide (a ≠ .bg4)
  | .bf16 => decide (a = .bf16)
  | .fp16 => decide (a = .fp16)
  | .int8 => a.isInt
  | .int4 => a.isInt
  | _ => small a

def check0203 (v : Ver) : Option Nat := firstRec v.bs (fun r =>
  let d := r.value.toNat
  match descKind r.index with
  | .mt => decide (mtMode d = 0) && !operandPair (fmtD (mtAfmt d)) (fmtD (mtWfmt d))
  | .vta => !operandPair (fmtD (vtAfmt d)) (fmtD (vtWfmt d))
  | _ => false)

/-- Sets that a pass may use in array j, by the traced states (R62, R98, R146). -/
def usedSets (st : FlowSt) (m : BitVec 4) (swap : Bool) : List SetInfo :=
  (List.range 4).flatMap (fun j => if m.getLsbD j then nth [] (if swap then st.shadow else st.active) j else [])

/-- The first failing slot, with the traced state of its bundle; bundles that no path reaches are passed tooMany. -/
def firstFlow (v : Ver) (bad : CodeSec → FlowSt → Nat → List SlotOp → SlotOp → Bool) : Option Nat :=
  (v.secs.zip v.flows).findSome? (fun p => (List.range p.1.length).findSome? (fun b =>
    match nth none p.2 b with
    | none => none
    | some st => let ops := p.1.ops b
                 (ops.find? (bad p.1 st b ops)).map (fun o => p.1.at' b o.slot)))

/-- The AD of the ROWS of a bundle. -/
def rowsAd (ops : List SlotOp) : Option (Fin 8) :=
  ops.findSome? (fun o => match o with | .aga (.rows ad _ _ _ _) => some ad | _ => none)
/-- The PASS of a bundle: MT, AMASK, SWAP. -/
def bundlePass (ops : List SlotOp) : Option (Fin 8 × BitVec 4 × Bool) :=
  ops.findSome? (fun o => match o with | .mxa (.pass mt m _ _ _ sw _) => some (mt, m, sw) | _ => none)

def check0204 (v : Ver) : Option Nat :=
  (firstRec v.bs (fun r =>
    let d := r.value.toNat
    decide (descKind r.index = .mt) && decide (mtMode d ≠ 0) &&
      (decide (5 < mtMode d) || decide (mtAfmt d ≠ mtWfmt d) ||
        !decide (fmtD (mtAfmt d) = .int8 ∨ fmtD (mtAfmt d) = .e4m3 ∨ fmtD (mtAfmt d) = .bf16)))).orElse (fun _ =>
  firstFlow v (fun x st _ ops o => match o with
    | .mxa (.pass mt m _ _ _ sw _) =>
      decide (mtMode (x.core.mt mt) ≠ 0) &&
        ((usedSets st m sw).any (fun w => w.scaled) ||
         (rowsAd ops).elim false (fun ad => adSc (x.core.ad ad) ||
           (x.decl v.decls (0x10 + ad.val)).elim false (fun t => declSc t || declZp t)))
    | _ => false))

/-- Whether a read-out does not suit its entries (R111, R132). -/
def readoutBad (requant narrow int : Bool) (ofmt : Nat) : Bool :=
  (requant && !(int && decide (ofmt = 0 ∨ ofmt = 1 ∨ ofmt = 0xF))) || (narrow && (int || decide (ofmt = 5)))

/-- Template parameters out of range (Tables 4-4 and 5-2). -/
def templateBad (k : DescKind) (d : Nat) : Bool :=
  match k with
  | .mt =>
    let a := fmtD (mtAfmt d); let w := fmtD (mtWfmt d)
    decide (kEntries (mtMode d) a w false < mtKr d) ||
      readoutBad (decide (mtRead d = 1)) (decide (mtRead d = 2)) (intPass (mtMode d) a w) (mtOfmt d)
  | .vta =>
    let a := fmtD (vtAfmt d); let w := fmtD (vtWfmt d)
    decide (vtK d = 0) || decide ((if vtVreg d then 64 else 131072 / a.bits) < vtK d) ||
      (decide (vtRead d = 1) && vtNs d) || readoutBad (decide (vtRead d = 2)) (decide (vtRead d = 3)) (a.isInt && w.isInt) (vtOfmt d)
  | .vtb => decide (vtVstr d % 64 ≠ 0)
  | _ => false

def check0205 (v : Ver) : Option Nat :=
  let arr := imgArrays v.bs
  (firstRec v.bs (fun r => templateBad (descKind r.index) r.value.toNat)).orElse (fun _ =>
  (v.secs.zip v.flows).findSome? (fun p => (List.range p.1.length).findSome? (fun b =>
    let x := p.1
    let ops := x.ops b
    let g32 := fun (m : BitVec 4) (sw : Bool) => (nth none p.2 b).elim false (fun st => (usedSets st m sw).any (fun w => w.g32))
    (ops.find? (fun o => match o with
      | .mxa (.pass mt m _ _ _ sw _) =>
        let d := x.core.mt mt
        !maskOk arr m || (decide (mtRead d = 4) && decide (maskCount m ≠ 1)) ||
        (decide (mtMode d = 0) && fourBit (fmtD (mtAfmt d)) (fmtD (mtWfmt d)) && decide (32 < mtKr d) &&
          (g32 m sw || (rowsAd ops).elim false (fun ad => adSc (x.core.ad ad) && decide (adGsel (x.core.ad ad) = 0))))
      | .mxa (.readOut mt m _ _) => !maskOk arr m || (decide (mtRead (x.core.mt mt) = 4) && decide (maskCount m ≠ 1))
      | .agb (.loadw m _ _ _) => !maskOk arr m
      | .agb (.importTile m _ _ _ _) => !maskOk arr m
      | .mvp (.mvpass vt v1 _ _ _ _) =>
        let d := x.core.vtA vt
        (!vtNs d && decide (vtRead d ≠ 0) && decide (32 < vtVd d + (v1.val + 1) * ceilDiv (vtN d) 64)) ||
        (vtVreg d && decide (32 < vtVa d + v1.val + 1))
      | .mvp (.mvread vt v1 _ _) =>
        let d := x.core.vtA vt
        !vtNs d && decide (vtRead d ≠ 0) && decide (32 < vtVd d + (v1.val + 1) * ceilDiv (vtN d) 64)
      | o => (vecFmt o).elim false (fun f => decide (f = 5)))).map (fun o => x.at' b o.slot))))

/-- Ranges of Table 6-1 that one register of a window shows. -/
def windowBad (q d : Nat) : Bool :=
  let out := fun (x lo hi : Nat) => decide (x < lo ∨ hi < x)
  match q with
  | 0 => out (fld d 15 0) 1 4096 || out (fld d 31 16) 1 4096 || out (fld d 47 32) 1 4096 || out (fld d 63 48) 1 4096
  | 1 => out (fld d 15 0) 1 4096 || out (fld d 19 16) 1 15 || out (fld d 23 20) 1 15 || out (fld d 26 24) 1 7 ||
         out (fld d 29 27) 1 7 || out (fld d 32 30) 1 7 || out (fld d 35 33) 1 7 || decide (5 < fld d 46 44) ||
         decide (fld d 48 47 = 3)
  | 2 => decide (4096 < fld d 15 0) || decide (fld d 63 32 % 32 ≠ 0)
  | _ => false

/-- ICv of a window (R152). -/
def icv (w : Nat) : Nat := fld w 47 32 * 2 ^ fld w 112 111 * 2 ^ fld w 112 111

/-- What a windowed stream of format f needs of its window (Table 6-1, R150, R152). -/
def streamWindowBad (w : Nat) (f : Fmt) (e : Nat) : Bool :=
  (decide (f.bits = 4) && decide (fld w 47 32 % 2 = 1)) || decide (fld w 223 192 < ceilDiv (fld w 47 32 * f.bits) 8) ||
  decide (4096 < icv w) || (decide (fld w 110 108 ≠ 0) && decide (e / 2 ^ fld w 110 108 < icv w))

def check0206 (v : Ver) : Option Nat :=
  (firstRec v.bs (fun r => match descKind r.index with | .wd q => windowBad q r.value.toNat | _ => false)).orElse (fun _ =>
  (v.secs.zip v.flows).findSome? (fun p => (List.range p.1.length).findSome? (fun b =>
    let x := p.1
    let ops := x.ops b
    (ops.find? (fun o => match o with
      | .aga (.rows ad _ _ _ _) =>
        let d := x.core.ad ad
        (match bundlePass ops with
        | some (mt, m, sw) =>
          let t := x.core.mt mt
          let g := (nth none p.2 b).elim false (fun st => (usedSets st m sw).any (fun w => w.g32)) ||
            (adSc d && decide (adGsel d = 0))
          decide (adMode d = 1) && x.hasWd (adWd d) &&
            streamWindowBad (wdNat (x.core.wd (adWd d))) (fmtD (mtAfmt t)) (kEntries (mtMode t) (fmtD (mtAfmt t)) (fmtD (mtWfmt t)) g)
        | none => false)
      | .aga (.tap ad _ _ _ _ _) =>
        let d := x.core.ad ad
        let w := wdNat (x.core.wd (adWd d))
        let f := fmtD (adTfmt d)
        (x.has (0x10 + ad.val) && decide (adMode d ≠ 1)) ||
        (decide (adMode d = 1) && x.hasWd (adWd d) && ((decide (f.bits = 4) && decide (fld w 47 32 % 2 = 1)) ||
          decide (fld w 223 192 < ceilDiv (fld w 47 32 * f.bits) 8) || decide (4096 < icv w)))
      | _ => false)).map (fun o => x.at' b o.slot))))

def check0207 (v : Ver) : Option Nat :=
  (firstRec v.bs (fun r =>
    let d := r.value.toNat
    decide (descKind r.index = .bd) && bdTrans d && bdSc d && decide (bdWfmt d ≠ 5))).orElse (fun _ =>
  firstSlot v.secs (fun x _ ops o => match o, bundlePass ops with
    | .aga (.rows ad _ _ _ _), some (mt, _, _) =>
      decide (adMode (x.core.ad ad) = 2) && decide ((fmtD (mtAfmt (x.core.mt mt))).bits = 4)
    | _, _ => false))

def check0208 (v : Ver) : Option Nat :=
  (firstRec v.bs (fun r =>
    let d := r.value.toNat
    decide (descKind r.index = .dda) &&
      ((decide (ddAtom d ≠ 0) && !(ddOut d && decide (ddFar d = 1 ∧ ddCodec d = 0))) ||
       (ddKva d && (!ddOut d || decide (ddFar d ≠ 1) || decide (ddAtom d ≠ 0))) ||
       (ddNonear d && decide (ddFar d = 0 ∨ ddCodec d = 2))))).orElse (fun _ =>
  firstSlot v.secs (fun x _ _ o => match o with
    | .dma (.dmov _ dd _ _ _) => decide (ddCodec (x.core.ddA dd) = 2)
    | .dma (.dexp _ dd _ _) =>
      let d := x.core.ddA dd
      x.has (0x20 + 2 * dd.val) && (!decide (ddCodec d = 2 ∧ ddFar d = 1) || ddOut d || ddNonear d)
    | _ => false))

/-! ### Tensors (0x0301 to 0x0306) -/

def declGsel (t : TensorDecl) : Nat := fld t.scales 3 2
def declSmodeB (t : TensorDecl) : Bool := bitAt t.scales 1

def check0301 (v : Ver) : Option Nat :=
  (v.decls.zipIdx.find? (fun t =>
    let d := t.1
    decide (1023 < d.number) || (v.decls.take t.2).any (fun y => decide (y.number = d.number)) || decide (7 < d.kind) ||
    decide (16 ≤ d.scales) || decide (declGsel d = 3) || decide (2 ≤ d.zpByte) || decide (d.reserved ≠ 0) ||
    (if d.fmt = 5 then decide (63 < d.codebook) else decide (d.codebook ≠ 0)) || (declZp d && !(fmtD d.fmt).isInt) ||
    (declSc d && decide (d.kext % (16 * (32 * 2 ^ declGsel d)) ≠ 0)) || (declSmodeB d && decide (d.splane ≠ 0)) ||
    (decide (1 < d.kind) && decide (d.bytes ≠ 0)))).map (fun t => t.1.off)

/-- Formats that may carry a group scale (R60). -/
def scalable (f : Nat) : Bool := decide (f = 2 ∨ f = 3 ∨ f = 4 ∨ f = 5)

def check0302 (v : Ver) : Option Nat :=
  (firstRec v.bs (fun r => decide (descKind r.index = .bd) && bdSc r.value.toNat && !scalable (bdWfmt r.value.toNat))).orElse (fun _ =>
  (firstDecl v (fun t => declSc t && !scalable t.fmt)).orElse (fun _ =>
  firstSlot v.secs (fun x _ ops o => match o, bundlePass ops with
    | .aga (.rows ad _ _ _ _), some (mt, _, _) => adSc (x.core.ad ad) && !scalable (mtAfmt (x.core.mt mt))
    | _, _ => false)))

def check0303 (v : Ver) : Option Nat := firstDecl v (fun t => decide (t.gplane % 64 ≠ 0 ∨ t.splane % 64 ≠ 0))

/-- Scale modes of R66. -/
def smodeBad (v : Ver) (b : Bool) : Bool := if v.ctx.midwinter then !b else b && !bitAt (imgFlags v.bs) 0

def check0304 (v : Ver) : Option Nat :=
  (firstRec v.bs (fun r =>
    let d := r.value.toNat
    match descKind r.index with
    | .ad => adSc d && smodeBad v (adSmodeB d)
    | .bd => bdSc d && smodeBad v (bdSmodeB d)
    | _ => false)).orElse (fun _ => firstDecl v (fun t => declSc t && smodeBad v (declSmodeB t)))

/-- Whether a stream of address generator A reads a format other than f: TFMT of its tap loads, AFMT of its passes. -/
def CodeSec.streamDiffers (x : CodeSec) (ad : Nat) (f : Nat) : Bool :=
  (List.range x.length).any (fun b =>
    let ops := x.ops b
    ops.any (fun o => match o with
      | .aga (.tap i _ _ _ _ _) => decide (i.val = ad) && decide (adTfmt (x.core.ad i) ≠ f)
      | .aga (.rows i _ _ _ _) => decide (i.val = ad) && (match bundlePass ops with
        | some (mt, _, _) => decide (mtAfmt (x.core.mt mt) ≠ f) | none => false)
      | _ => false))

/-- Whether a record disagrees with the declaration that it names (R220, R221). -/
def linkBad (v : Ver) (twin : Bool) (r : DescRec) : Bool :=
  decide (r.tensor ≠ 0xFFFF) &&
  (match v.decls.find? (fun t => decide (t.number = r.tensor)) with
  | none => true
  | some t =>
    let d := r.value.toNat
    match descKind r.index with
    | .ad => decide (adSc d ≠ declSc t) || (adSc d && decide (adSmodeB d ≠ declSmodeB t ∨ adGsel d ≠ declGsel t)) ||
             ((v.secs[if twin then 1 else 0]?).elim false (fun x => x.streamDiffers (r.index - 0x10) t.fmt))
    | .bd => decide (bdWfmt d ≠ t.fmt) || decide (bdSc d ≠ declSc t) ||
             (bdSc d && decide (bdSmodeB d ≠ declSmodeB t ∨ bdGsel d ≠ declGsel t))
    | .vta => decide (vtAfmt d ≠ t.fmt)
    | _ => false)

def check0305 (v : Ver) : Option Nat := ((imageRecs v.bs).find? (fun r => linkBad v r.1 r.2)).map (fun r => r.2.off)

def check0306 (v : Ver) : Option Nat := firstDecl v (fun t =>
  let bad := fun (f : Nat) => decide (t.fmt ≠ f) || !declSc t || declSmodeB t || decide (declGsel t ≠ 0)
  (decide (t.kind = 4) && bad 3) || (decide (t.kind = 5) && bad 2))

/-! ### Code (0x0401 to 0x040C) -/

def check0401 (v : Ver) : Option Nat :=
  v.secs.findSome? (fun x => (List.range x.length).findSome? (fun b =>
    ((List.range 8).find? (fun i => decide (nth none (nth [] x.bundles b) i = none))).map (fun i => x.at' b i)))

/-- Address registers that a slot writes. -/
def slotWritesA : SlotOp → List AReg
  | .scl (.amov d _) => [d]
  | .scl (.aadd d _ _) => [d]
  | .scl (.amovi d _) => [d]
  | _ => []

def check0402 (v : Ver) : Option Nat := firstSlot v.secs (fun x _ ops o =>
  let before := ops.filter (fun y => decide (y.slot < o.slot))
  (slotWritesS o).any (fun d => decide (d.val ≠ 0) && before.any (fun y => decide (d ∈ slotWritesS y))) ||
  (x.writesV o).any (fun d => before.any (fun y => decide (d ∈ x.writesV y))))

def check0403 (v : Ver) : Option Nat := firstSlot v.secs (fun x _ ops o => match o with
  | .aga (.rows ad _ q y b) =>
    (bundlePass ops).isNone || (x.has (0x10 + ad.val) && decide (adMode (x.core.ad ad) ≠ 1) && !decide (q.val = 0 ∧ y.val = 0 ∧ b.val = 0))
  | .agb (.mvstream _ _) => !ops.any (fun p => match p with | .mvp (.mvpass _ _ _ _ _ _) => true | _ => false)
  | .mxa (.pass _ _ _ _ _ _ _) => (rowsAd ops).isNone
  | .mvp (.mvpass vt _ _ _ _ off) =>
    !ops.any (fun p => match p with | .agb (.mvstream _ _) => true | _ => false) ||
    (vtVreg (x.core.vtA vt) && decide (off.val ≠ 0))
  | _ => false)

/-- Descriptor registers that a slot names (R220). -/
def CodeSec.names (x : CodeSec) (o : SlotOp) : List Nat :=
  let stream := fun (ad : Fin 8) => (0x10 + ad.val) ::
    (if adMode (x.core.ad ad) = 1 then (List.range 4).map (fun q => 0x80 + 4 * adWd (x.core.ad ad) + q) else [])
  let vt := fun (i : Fin 4) => (0x08 + 2 * i.val) ::
    (let d := x.core.vtA i
     if vtNs d || decide (vtRead d = 2) || (fmtD (vtWfmt d)).isInt then [0x09 + 2 * i.val] else [])
  let dd := fun (i : Fin 8) (l : SReg) => (0x20 + 2 * i.val) :: (if l.val = 0 then [0x21 + 2 * i.val] else [])
  match o with
  | .aga (.rows ad _ _ _ _) => stream ad
  | .aga (.tap ad _ _ _ _ _) => stream ad
  | .agb (.loadw _ bd _ _) => [0x18 + bd.val]
  | .agb (.mvstream bd _) => [0x18 + bd.val]
  | .agb (.importTile _ bd _ _ _) => [0x18 + bd.val]
  | .dma (.dmov _ d _ _ l) => dd d l
  | .dma (.dexp _ d _ l) => dd d l
  | .mxa (.pass mt _ _ _ _ _ _) => [mt.val]
  | .mxa (.readOut mt _ _ _) => [mt.val]
  | .mvp (.mvpass i _ _ _ _ _) => vt i
  | .mvp (.mvread i _ _ _) => vt i
  | _ => []

def check0404 (v : Ver) : Option Nat := firstSlot v.secs (fun x _ _ o => (x.names o).any (fun i => !x.has i))

def check0405 (v : Ver) : Option Nat := firstFlow v (fun x st _ _ o => match o with
  | .mxa (.pass mt m _ _ _ true _) =>
    let d := x.core.mt mt
    (usedSets st m true).any (fun w => decide (w.wfmt ≠ mtWfmt d) || decide (w.trans ≠ bitAt d 22) || decide (w.amask ≠ m.toNat))
  | _ => false)

def check0406 (v : Ver) : Option Nat :=
  (v.secs.zip v.flows).findSome? (fun p => (List.range p.1.length).findSome? (fun b =>
    let x := p.1
    let ops := x.ops b
    (ops.find? (fun o => match o, bundlePass ops with
      | .aga (.rows ad _ _ _ _), some (mt, m, sw) =>
        let d := x.core.mt mt
        decide (adMode (x.core.ad ad) = 1) && (decide (mtMode d ≠ 0) || bitAt d 22 ||
          (nth none p.2 b).elim false (fun st => (usedSets st m sw).any (fun w => w.trans)))
      | _, _ => false)).map (fun o => x.at' b o.slot)))

def check0407 (v : Ver) : Option Nat := firstSlot v.secs (fun x b _ o => match o with
  | .seq (.loop _ len _) =>
    let outer := enclosing x.loops b
    decide (len = 0) || decide (4 ≤ outer.length) || decide (x.length ≤ b + len.toNat) ||
    outer.any (fun l => decide (l.last < b + len.toNat))
  | _ => false)

/-- A skip of n bundles at bundle b (R193). -/
def CodeSec.skipBad (x : CodeSec) (b n : Nat) : Bool :=
  decide (n = 0) || decide (x.length ≤ b + n) || (enclosing x.loops b).any (fun l => decide (l.last ≤ b + n)) ||
  x.loops.any (fun l => decide (b < l.1 ∧ l.1 ≤ b + n ∧ b + n < l.2.last))

def check0408 (v : Ver) : Option Nat := firstSlot v.secs (fun x b _ o => match o with
  | .seq (.skipz _ n) => x.skipBad b n.toNat
  | .seq (.skipnz _ n) => x.skipBad b n.toNat
  | _ => false)

def check0409 (v : Ver) : Option Nat := firstFlow v (fun x st b _ o =>
  let running := (enclosing x.loops b).length
  let bound := fun (a : AReg) => decide (nth 0 st.bind a.val % 2 ^ running ≠ 0)
  match o with
  | .scl (.setinc n _ _) => bound n
  | .scl (.setbind n _) => bound n
  | o => (slotWritesA o).any bound)

def check040A (v : Ver) : Option Nat :=
  let flag := bitAt (imgFlags v.bs) 2
  let ids := (routineReqs v.bs).map (fun r => r.id)
  let isCall := fun (o : SlotOp) => match o with | .seq (.call _ _) => true | _ => false
  (if flag && !(v.secs.any (fun x => (List.range x.length).any (fun b => (x.ops b).any isCall))) then some 6 else none).orElse (fun _ =>
  firstSlot v.secs (fun _ _ _ o => match o with
    | .seq (.call _ id) => !flag || decide (id.toNat ∉ ids)
    | _ => false))

def check040B (v : Ver) : Option Nat := firstFlow v (fun x st _ _ o =>
  (slotReadsS o).any (fun r => decide (r.val ≠ 0) && bitAt st.clobS r.val) ||
  (slotReadsV x.core o).any (fun r => bitAt st.clobV r))

def check040C (v : Ver) : Option Nat := firstSlot v.secs (fun _ _ _ o =>
  match o with | .seq .halt => !bitAt (imgFlags v.bs) 0 | _ => false)

/-! ### Real time (0x0501 to 0x0504) -/

/-- Operands that R229 wants bounded, each with its width. -/
def boundedOperands (o : SlotOp) : List (SReg × Nat) :=
  match o with
  | .seq (.loop false _ c) => [(⟨c.toNat % 32, Nat.mod_lt _ (by decide)⟩, 32)]
  | .aga (.stld _ _ _ l _) => [(l, 24)]
  | .agb (.importTile _ _ _ _ n) => [(n, 32)]
  | .dma (.dmov _ _ _ _ l) => [(l, 48)]
  | .dma (.dexp _ _ _ l) => [(l, 48)]
  | .mxa (.pass _ _ m _ _ _ _) => [(m, 32)]
  | .mxa (.readOut _ _ _ n) => [(n, 32)]
  | .mvp (.mvread _ _ _ n) => [(n, 32)]
  | .vec (.argmax _ _ n _ _ _ _ _) => [(n, 32)]
  | .vec (.topk _ _ n _ _ _ _ _) => [(n, 32)]
  | _ => []

def check0501 (v : Ver) : Option Nat := firstFlow v (fun _ st _ _ o =>
  (boundedOperands o).any (fun p => !(st.s p.1).bounded p.2))

/-- The most bytes a DMA command moves: rows times bytes per row (R211). -/
def commandBytes (x : CodeSec) (st : FlowSt) (dd : Fin 8) (l : SReg) : Nat :=
  let amount := fun (n : Nat) => fld n 31 0 * max 1 (fld n 47 32)
  if l.val = 0 then amount (x.core.ddB dd)
  else
    let i := st.s l
    if i.hi < 2 ^ 32 then i.hi.toNat else (2 ^ 32 - 1) * max 1 (fld i.hi.toNat 47 32)

/-- How often bundle b of one core's stream runs in a step at most: the bounds of the loops around it, of which one that takes
strips runs once per strip (R228, R231). -/
def CodeSec.runsOf (x : CodeSec) (fl : List (Option FlowSt)) (stripsMax b : Nat) : Nat :=
  (x.loops.filter (fun l => decide (l.2.first ≤ b ∧ b ≤ l.2.last))).foldl (fun n l =>
    let count := match x.seqOp l.1, nth none fl l.1 with
      | some (.loop csrc _ cnt), st =>
        if csrc then cnt.toNat
        else st.elim 0 (fun s => (s.s ⟨cnt.toNat % 32, Nat.mod_lt _ (by decide)⟩).hi.toNat)
      | _, _ => 0
    let strips := (List.range x.length).any (fun i => decide (l.2.first ≤ i ∧ i ≤ l.2.last) &&
      (match x.seqOp i with | some (.strip _) => true | _ => false))
    n * (if strips then min count stripsMax else count)) 1

/-- The host transfers of a section in order: offset of the slot, tensor, bytes of a step; no tensor where none is linked. -/
def CodeSec.hostMoves (x : CodeSec) (decls : List TensorDecl) (fl : List (Option FlowSt)) (stripsMax : Nat) :
    List (Nat × Option TensorDecl × Nat) :=
  (List.range x.length).flatMap (fun b => match nth none fl b with
    | none => []
    | some st => (x.ops b).filterMap (fun o =>
      let one := fun (dd : Fin 8) (l : SReg) =>
        if ddFar (x.core.ddA dd) = 1 then
          some (x.at' b 3, x.decl decls (0x20 + 2 * dd.val), x.runsOf fl stripsMax b * commandBytes x st dd l)
        else none
      match o with
      | .dma (.dmov _ dd _ _ l) => one dd l
      | .dma (.dexp _ dd _ l) => one dd l
      | _ => none))

/-- The first transfer at which a tensor's bytes of a step exceed BYTES (R228). -/
def tooMany : List (Nat × Nat) → List (Nat × Option TensorDecl × Nat) → Option Nat
  | _, [] => none
  | seen, (o, none, _) :: _ => let _ := seen; some o
  | seen, (o, some t, n) :: r =>
    let total := n + ((seen.filter (fun y => decide (y.1 = t.number))).map (·.2)).sum
    if t.bytes < total then some o else tooMany ((t.number, n) :: seen) r

def check0502 (v : Ver) : Option Nat :=
  let io := fun (t : Nat) => v.decls.find? (fun d => decide (d.number = t ∧ d.kind ≤ 1))
  (firstRec v.bs (fun r =>
    let d := r.value.toNat
    match descKind r.index with
    | .dda => decide (ddFar d = 1) && ((io r.tensor).isNone || decide (ddCodec d = 2))
    | .bd => decide (bdSrc d = 2)
    | _ => false)).orElse (fun _ =>
  (v.secs.zip v.flows).findSome? (fun p => tooMany [] (p.1.hostMoves v.decls p.2 (imgStripsMax v.bs))))

def check0503 (v : Ver) : Option Nat := firstSlot v.secs (fun _ _ _ o => match o with
  | .seq (.waitev _ _) => true
  | .seq (.call _ id) => !v.ctx.dir.any (fun r => decide (r.id = id.toNat) && bitAt r.flags 0)
  | _ => false)

/-- The bound D of an image (R231): that of its main run. -/
def Ver.bound (v : Ver) : Option Nat :=
  let f := mhz (imgFloor v.bs)
  let c : BoundCtx := { image := v.bs, latencyNs := v.ctx.latencyNs, rateMbs := v.ctx.rateMbs, mhz := f
                        beats := deepBeats f v.ctx.slices, dir := v.ctx.dir }
  match v.secs, v.flows with
  | x :: _, fl :: _ => derive c x fl (imgStripsMax v.bs) (imgCoresMin v.bs)
  | _, _ => none

def check0504 (v : Ver) : Option Nat :=
  if v.bound.any (fun d => decide (d ≤ imgClaim v.bs)) then none else (findSection v.bs 7).map (fun x => x.off)

/-! ### Partition (0x0601 to 0x0604) -/

def check0601 (v : Ver) : Option Nat := if bitAt (imgFlags v.bs) 2 && !v.ctx.callFlow then some 6 else none
def check0602 (v : Ver) : Option Nat := if nth 0 v.ctx.cores (imgArrays v.bs - 1) < imgCoresMin v.bs then some 0x14 else none
def check0603 (v : Ver) : Option Nat :=
  let f := imgFlags v.bs
  if (bitAt f 0 && v.ctx.rtQueue) || decide (bitAt f 1 ≠ v.ctx.rtPart) || (bitAt f 1 && !v.ctx.resident) then some 6 else none
def check0604 (v : Ver) : Option Nat :=
  ((routineReqs v.bs).find? (fun r => match v.ctx.dir.find? (fun d => decide (d.id = r.id)) with
    | none => true
    | some d => decide (r.req = 1) && !bitAt d.flags 0)).map (fun r => r.off)

/-! ### The verifier -/

/-- What the checks after 0x0108 see. -/
def Ver.of (ctx : VerCtx) (bs : List Byte) : Ver :=
  let secs := codeSecs bs
  let decls := imageDecls bs
  { bs := bs, ctx := ctx, secs := secs, decls := decls
    flows := secs.map (fun x => x.flow
      { decls := decls, dir := ctx.dir, stripsMax := imgStripsMax bs, args := (List.range 8).map (imgArgMax bs) }) }

/-- Checks 0x0201 to 0x0604. -/
def contentChecks (ctx : VerCtx) (bs : List Byte) : List (Nat × (Unit → Option Nat)) :=
  let v := Ver.of ctx bs
  let rt := fun (f : Ver → Option Nat) (_ : Unit) => if bitAt (imgFlags bs) 1 then f v else none
  let on := fun (f : Ver → Option Nat) (_ : Unit) => f v
  [(0x0201, on check0201), (0x0202, on check0202), (0x0203, on check0203), (0x0204, on check0204), (0x0205, on check0205),
   (0x0206, on check0206), (0x0207, on check0207), (0x0208, on check0208), (0x0301, on check0301), (0x0302, on check0302),
   (0x0303, on check0303), (0x0304, on check0304), (0x0305, on check0305), (0x0306, on check0306), (0x0401, on check0401),
   (0x0402, on check0402), (0x0403, on check0403), (0x0404, on check0404), (0x0405, on check0405), (0x0406, on check0406),
   (0x0407, on check0407), (0x0408, on check0408), (0x0409, on check0409), (0x040A, on check040A), (0x040B, on check040B),
   (0x040C, on check040C), (0x0501, rt check0501), (0x0502, rt check0502), (0x0503, rt check0503), (0x0504, rt check0504),
   (0x0601, on check0601), (0x0602, on check0602), (0x0603, on check0603), (0x0604, on check0604)]

/-- The verifier (R225): the first failing check's code and offset; `none` accepts. -/
def verify (ctx : VerCtx) (bs : List Byte) (length : Nat) : Option (Nat × Nat) :=
  match firstFailure (layoutChecks bs length) with
  | some r => some r
  | none => firstFailure (contentChecks ctx bs)

end Sys2Proof.Machine
end

