-- ==== Sys2Proof/Machine/Images.lean ====
section
/-!
DEFINITION. Image loads (R222, R223, R226, R265, Table 11-1).
-/
namespace Sys2Proof.Machine

/-- Cores of a partition that have at least n usable arrays; a pair of the class RT partition counts as one (R262, R385). -/
def State.coresWith (s : State) (p : PartId) (n : Nat) : Nat :=
  let k := (s.maskCores p n).length
  if (s.part p).rt then k / 2 else k

/-- The slices on which a partition has cores, and whether a valid inbound window maps onto each (Table 9-8, R344). -/
def State.sliceLoads (s : State) (p : PartId) : List (Nat × Bool) :=
  (List.range 4).filterMap (fun cl =>
    let n := ((List.range 5).filter (fun i => (s.part p).coreMask.getLsbD (5 * cl + i))).length
    if n = 0 then none
    else some (n, s.link.iw.toList.any (fun v => let x := v.toNat
      bitAt x 0 && overlap (fld x 31 16 * 65536, fld x 47 32 * 65536) (s.sliceRegion cl))))

/-- What the verifier knows of a partition. -/
def State.verCtx (s : State) (p : PartId) (resident midwinter : Bool) : VerCtx :=
  { midwinter := midwinter, callFlow := decide ((s.part p).flowMode = 1), rtPart := (s.part p).rt,
    rtQueue := allQueues.any (fun q => decide ((s.queue q).cls = 0 ∧ (s.queue q).part = p)), resident := resident,
    cores := (List.range 4).map (fun i => s.coresWith p (i + 1)), dir := s.tables.active.dir,
    latencyNs := s.journal.rtLatencyNs.toNat, rateMbs := s.journal.rtRateMbs.toNat, slices := s.sliceLoads p }

/-- Valid local windows of every partition. -/
def State.windows (s : State) (f : Nat → Bool) : List Region :=
  allParts.flatMap (fun k => ((s.part k).dw.toList.filter (fun y => f y.toNat)).map dwRegion)

/-- LOAD (R222, R265, Table 11-1): accepted when the image read has started. -/
def State.writeLoad (s : State) (p : PartId) (v : Nat) : Served :=
  let x := s.part p
  let length := fld v 95 64
  let area := x.area
  refuse x.loading.isSome 6 <|
  refuse (decide (fld v 63 48 ≠ 0 ∨ fld v 127 106 ≠ 0) || (decide (area.2 ≠ 0) &&
      (decide (area.2 < length) || s.badPlace area || (s.windows (fun _ => true)).any (overlap area)))) 4 <|
  done (s.modPart p (fun x => { x with loading := some { va := fld v 47 0, length := length, ast := fld v 105 96 }, loadStatus := 1 }))

def execLoad (p : PartId) (v : QWord) (async : Bool) (s : State) : Out :=
  s.pdCommand (writeReq async (0x3010 + p.val) 6 (leBytes 16 v.toNat)) (fun s => s.writeLoad p v.toNat)

/-- LOAD_STATUS (Table 11-1). -/
def loadStatusWord (st code offset id : Nat) : QWord := BitVec.ofNat 128 (st + code * 2 ^ 8 + offset * 2 ^ 32 + id * 2 ^ 64)

/-- A load ends rejected: the partition keeps its active image (R223). -/
def State.rejectImage (s : State) (p : PartId) (code offset id : Nat) : State :=
  (s.modPart p (fun x => { x with loading := none, loadStatus := loadStatusWord 3 code offset id,
                                  lastReject := BitVec.ofNat 16 code })).irq 7

/-- Copy a resident image into its area (R222). -/
def State.placeImage (s : State) (p : PartId) (i : ImgRec) : State :=
  if i.resident then (s.deepWrite (s.part p).area.1 i.bytes).1 else s

/-- An accepted image (R223): active at once, or pending while the class RT partition is not disarmed. -/
def State.acceptImage (s : State) (p : PartId) (i : ImgRec) : State :=
  let st := loadStatusWord 2 0 0 (imgId i.bytes)
  if (s.part p).rt ∧ s.rt.arm ≠ .disarmed then
    (s.modPart p (fun x => { x with loading := none, loadStatus := st, pendingImg := some i })).irq 7
  else
    ((s.placeImage p i).modPart p (fun x => { x with
      loading := none, loadStatus := st, lostInWinter := false, active := some i, pendingImg := none })).irq 7

/-- The verifier's turn on the bytes of a load (R222, R225). -/
def State.checkImage (s : State) (p : PartId) (l : LoadReq) (bs : List Byte) : State :=
  let resident := decide ((s.part p).area.2 ≠ 0)
  match verify (s.verCtx p resident false) bs l.length with
  | some (code, o) => s.rejectImage p code o (if bs.length < 0x24 then 0 else imgId bs)
  | none =>
    s.acceptImage p { bytes := bs, resident := resident, wcet := if bitAt (imgFlags bs) 1 then imgClaim bs else 0,
                      dir := s.tables.active.dir, va := l.va, ast := l.ast }

/-- IMAGE_LOAD_DONE (R222, R225, Table 12-6): a read that failed rejects the load with 0x0102, as does one that is never answered
(DESIGN CHOICE; assumption log 73); while the port carries nothing the load waits. -/
def execImageLoadDone (p : PartId) (r : ReadResult) (s : State) : Out :=
  match (s.part p).loading with
  | none => .next s
  | some l =>
    let n := s.partPort p
    if !(s.serving && s.awake && s.portCarries n) then .next s
    else
      let y := s.stewardRead n 0 l.ast l.va l.length r
      match y.2.bytes? with
      | none => .next (y.1.rejectImage p 0x0102 8 0)
      | some bs => .next (y.1.checkImage p l bs)

end Sys2Proof.Machine
end

