-- ==== Sys2Proof/Machine/Tables.lean ====
section
/-!
DEFINITION. Loadable tables: codebooks, curves, quantisation policy, routine directory (R25, R26, R35, R72, R76, R141, R145,
R235).
-/
namespace Sys2Proof.Machine

/-- Finite encodings: BF16, FP32. -/
def finiteBf16 (x : Nat) : Bool := decide (x / 128 % 256 ≠ 255)
def isFinite32 (x : Nat) : Bool := decide (x / 2 ^ 23 % 256 ≠ 255)

def State.modTables (s : State) (f : TableSt → TableSt) : State := { s with tables := f s.tables }

/-! ### Codebooks (R35, R72) -/

/-- Whether a copy of codebook t older than the active one is bound to a step (R26, R72). -/
def State.bookBound (s : State) (t : Fin 64) : Bool :=
  s.steps.any (fun x => decide (x.tables.codebooks[t.val].gen ≠ s.tables.active.codebooks[t.val].gen))

/-- PENDING of a codebook (R72). -/
def State.writeCodebook (s : State) (t : Fin 64) (bs : List Byte) : Served :=
  refuse (decide (t.val = 0)) 2 <| refuse (decide (bs.length ≠ 32)) 3 <| refuse (s.bookBound t) 6 <|
  refuse ((List.range 16).any (fun i => !finiteBf16 (leAt bs (2 * i) 2))) 4 <|
  done (s.modTables (fun x => { x with cbPending := upd x.cbPending t (fun _ => bs),
                                       cbMask := x.cbMask ||| BitVec.ofNat 64 (2 ^ t.val) }))

def execCodebookPendingWrite (t : Fin 64) (bs : List Byte) (async : Bool) (s : State) : Out :=
  s.pdCommand (writeReq async (0x4010 + t.val) 2 bs) (fun s => s.writeCodebook t bs)

/-- CODEBOOK_SWITCH (R72): every named table has a pending copy, or none is switched. PENDING goes on reading the bytes that were
switched: the spec does not say what it reads then (DESIGN CHOICE; assumption log 65). -/
def State.switchCodebooks (s : State) (mask : DWord) : Served :=
  refuse (decide (mask &&& ~~~s.tables.cbMask ≠ 0)) 4 <|
  done (s.modTables (fun x =>
    { x with
      gen := x.gen + 1, cbMask := x.cbMask &&& ~~~mask
      active := { x.active with codebooks := Vector.ofFn (fun t : Fin 64 =>
        if mask.getLsbD t.val then { gen := x.gen + 1, bytes := x.cbPending[t.val] } else x.active.codebooks[t.val]) } }))

def execCodebookSwitch (mask : DWord) (async : Bool) (s : State) : Out :=
  s.pdCommand (writeReq async 0x4000 3 (leBytes 8 mask.toNat)) (fun s => s.switchCodebooks mask)

/-! ### Curves (R141, R145) -/

def State.curveBound (s : State) (c : Fin 32) : Bool :=
  s.steps.any (fun x => decide (x.tables.curves[c.val].gen ≠ s.tables.active.curves[c.val].gen))

/-- A part of a curve's pending record: its header, or 16 segments (Table 5-9). -/
def State.writeCurve (s : State) (c : Fin 32) (off n : Nat) (bs : List Byte) : Served :=
  refuse (decide (c.val < 8)) 2 <| refuse (decide (bs.length ≠ n)) 3 <| refuse (s.curveBound c) 6 <|
  done (s.modTables (fun x => { x with cvPending := upd x.cvPending c (fun r => overwrite r off bs),
                                       cvMask := x.cvMask ||| BitVec.ofNat 32 (2 ^ c.val) }))

/-- LO and HI of the reduction modes (Table 5-8). -/
def curveDomain (mode : Nat) : Nat × Nat :=
  match mode with
  | 1 => (0, 0x3F800000)
  | 2 => (0x3F800000, 0x40000000)
  | 3 => (0x3F800000, 0x40000000)
  | _ => (0x3F800000, 0x40800000)

/-- What R145 refuses of a pending record. -/
def curveBad (b : List Byte) : Bool :=
  let mode := leAt b 0 1
  let lo := leAt b 4 4
  let hi := leAt b 8 4
  decide (4 < mode) ||
  ((List.range 8).any (fun i => !isFinite32 (leAt b (4 + 4 * i) 4))) ||
  ((List.range 256).any (fun i => !isFinite32 (leAt b (64 + 4 * i) 4))) ||
  !ltNum (val32 (BitVec.ofNat 32 lo)) (val32 (BitVec.ofNat 32 hi)) ||
  !ltNum (val32 0) (val32 (BitVec.ofNat 32 (leAt b 28 4))) ||
  (decide (1 ≤ mode) && decide ((lo, hi) ≠ curveDomain mode))

/-- CURVE_SWITCH (R145). -/
def State.switchCurves (s : State) (mask : Word) : Served :=
  refuse (decide (mask &&& ~~~s.tables.cvMask ≠ 0) ||
    (List.finRange 32).any (fun c => mask.getLsbD c.val && curveBad s.tables.cvPending[c.val])) 4 <|
  done (s.modTables (fun x =>
    { x with
      gen := x.gen + 1, cvMask := x.cvMask &&& ~~~mask
      active := { x.active with curves := Vector.ofFn (fun c : Fin 32 =>
        if mask.getLsbD c.val then { gen := x.gen + 1, bytes := x.cvPending[c.val] } else x.active.curves[c.val]) } }))

def execCurveSwitch (mask : Word) (async : Bool) (s : State) : Out :=
  s.pdCommand (writeReq async 0x4100 3 (leBytes 4 mask.toNat)) (fun s => s.switchCurves mask)

/-! ### Quantisation policy (R76) -/

/-- QPOLICY_SWITCH. -/
def State.switchPolicy (s : State) (v : Nat) : Served :=
  refuse (decide (v ≠ 1)) 4 <|
  done (s.modTables (fun x => { x with policyGen := x.policyGen + 1, active := { x.active with policy := x.policyPending } }))

def execQpolicySwitch (v : Byte) (async : Bool) (s : State) : Out :=
  s.pdCommand (writeReq async 0x4200 1 [v]) (fun s => s.switchPolicy v.toNat)

/-! ### Routine directory (R235) -/

/-- Images a directory must go on serving: the active and the pending ones. -/
def State.images (s : State) : List ImgRec := allParts.flatMap (fun p => [(s.part p).active, (s.part p).pendingImg].filterMap id)

/-- What R235 refuses: a routine of the pending directory, as an image uses its ID. -/
def routineWorse (i : ImgRec) (cur new : RoutineRec) : Bool :=
  let was := (i.dir.find? (fun r => decide (r.id = new.id))).getD cur
  let rt := bitAt (imgFlags i.bytes) 1
  (routineReqs i.bytes).any (fun q => decide (q.id = new.id)) &&
  ((i.resident && decide (new.clobS &&& was.clobS ≠ new.clobS ∨ new.clobV &&& was.clobV ≠ new.clobV)) ||
   (rt && ((bitAt cur.flags 0 && !bitAt new.flags 0) || decide (cur.wcet < new.wcet))))

/-- DIRECTORY_SWITCH (R235). -/
def State.switchDirectory (s : State) (v : Nat) : Served :=
  match s.start.pendingDir with
  | none => .error 4
  | some d =>
    refuse (decide (v ≠ 1) || d.any (fun new => s.tables.active.dir.any (fun cur => decide (cur.id = new.id) &&
      s.images.any (fun i => routineWorse i cur new)))) 4 <|
    let s := s.modTables (fun x => { x with active := { x.active with dir := d } })
    done { s with start := { s.start with pendingDir := none, dirGen := s.start.dirGen + 1 } }

def execDirectorySwitch (v : Byte) (async : Bool) (s : State) : Out :=
  s.pdCommand (writeReq async 0x4300 3 [v]) (fun s => s.switchDirectory v.toNat)

end Sys2Proof.Machine
end

