-- ==== Sys2Proof/Machine/Sets.lean ====
section
/-!
DEFINITION. Weight sets: pending versions, resident loads, the Equinox switch, deletion (R325 to R332).
-/
namespace Sys2Proof.Machine

def State.slotW (s : State) (i : Fin 256) : WSlot := s.sets.slots[i.val]

/-- The slot that SET_SELECT of a requester names (R333, R435). -/
def State.selectedSlot (s : State) (who : Fin 2) : Fin 256 :=
  ⟨(s.journal.setSelect[who.val]).toNat, (s.journal.setSelect[who.val]).isLt⟩

/-- Every region of a version that is not free, but for the pending version of slot i, whose place is written. -/
def State.takenRegions (s : State) (i : Fin 256) : List Region :=
  (List.finRange 256).flatMap (fun k =>
    let w := s.slotW k
    ((if k = i then { w with pending := none } else w).versions).map (fun v => verRegion v.record))

/-- What R326 refuses of a version record. -/
def State.versionBad (s : State) (i : Fin 256) (b : List Byte) : Bool :=
  let x := leNat b
  let r := verRegion b
  let deep := decide (verPlace b = 1)
  decide (fld x 7 4 ≠ 0 ∨ fld x 31 26 ≠ 0 ∨ fld x 127 122 ≠ 0 ∨ fld x 255 224 ≠ 0) || decide (verPmask b = 0) ||
  decide (verKind b = 0 ∧ verFit b ≠ 0) || decide (verExpand b = 1 ∧ verPlace b = 0) ||
  (deep && (decide (verSize b = 0 ∨ 8192 < verSize b) || s.badPlace r || allParts.any (fun p => overlap r (s.part p).area) ||
    (s.takenRegions i).any (overlap r) ||
    (decide (verKind b = 0) && (s.windows (fun w => bitAt w 2)).any (overlap r))))

/-- PENDING (R326): HOST is READY at once, DEEP starts a resident load (R327). -/
def State.writePending (s : State) (who : Fin 2) (b : List Byte) : Served :=
  let i := s.selectedSlot who
  let w := s.slotW i
  refuse (decide (b.length ≠ 32)) 3 <|
  refuse (!w.retiring.isEmpty || decide (w.pendState = .loading)) 6 <|
  refuse (s.versionBad i b) 4 <|
  let n := s.sets.serial + 1
  let s := s.modSlot i (fun w => { w with
    used := true, pending := some { serial := n, record := b, lost := false }, loadResult := 0,
    pendState := if verPlace b = 1 then .loading else .ready })
  done { s with sets := { s.sets with serial := n } }

def execPendingVersion (bs : List Byte) (async : Bool) (s : State) : Out :=
  s.pdCommand (writeReq async 0x4400 0x12 bs) (fun s => s.writePending 0 bs)

/-! ### The resident load (R327) -/

/-- Clear a region: every byte 0, no poison. -/
def State.deepClear (s : State) (r : Region) : State :=
  let out := fun (a : Nat) => decide (a < r.1 ∨ r.1 + r.2 ≤ a)
  let s := { s with deep := { s.deep with cells := s.deep.cells.filter (fun c => out c.1),
                                          poison := s.deep.poison.filter (fun w => out (8 * w.1)),
                                          flip := s.deep.flip.filter (fun w => out (8 * w.1)) } }
  if (List.range 4).all (fun i => (s.deep.lost.toList.getD i none).isNone) then s
  else (List.range r.2).foldl (fun s i => s.deepPut (r.1 + i) 0) s

/-- The pieces of a host copy with the place in the region where the output of each goes: offset there, offset in the copy, length.
An expanded copy goes by blocks, any other by the slices of the region. -/
def blockPieces (total : Nat) : Nat → Nat → Nat → List Byte → List (Nat × Nat × Nat)
  | 0, d, o, _ => [(d, o, total - o)]
  | n + 1, d, o, bs =>
    let size := roundUp (16 + leAt bs 4 4) 64
    if total ≤ o then []
    else if bs.length < 16 ∨ 4096 < leAt bs 4 4 ∨ bs.length < size then [(d, o, total - o)]
    else (d, o, size) :: blockPieces total n (d + leAt bs 2 2) (o + size) (bs.drop size)

def State.slicePieces (s : State) (reg : Region) (total : Nat) : List (Nat × Nat × Nat) :=
  let n := s.build.sliceBytes
  let last := (reg.1 + reg.2 - 1) / n
  (List.range (last + 1 - reg.1 / n)).map (fun i =>
    let lo := min total ((reg.1 / n + i) * n - reg.1)
    let hi := if reg.1 / n + i = last then total else min total ((reg.1 / n + i + 1) * n - reg.1)
    (lo, lo, hi - lo))

/-- The port of a place in a region: that of its slice; a place beyond the region has the port of its last byte. -/
def State.placePort (s : State) (reg : Region) (d : Nat) : PortId := s.slicePort (reg.1 + min d (reg.2 - 1))

/-- The requests of a resident load (R327): each beat through the port of the slice where it goes; for an expanded copy that is the
slice of the first byte that the block gives (DESIGN CHOICE; assumption log 72). -/
def State.loadPages (s : State) (b : List Byte) (bs : List Byte) : List (PortId × Seg) :=
  let reg := verRegion b
  let ps := if verExpand b = 0 then s.slicePieces reg (verSrcLen b) else blockPieces (verSrcLen b) (bs.length + 1) 0 0 bs
  ps.flatMap (fun x => (hostSegs (verSrcVa b + x.2.1) x.2.2 x.2.1).map (fun g => (s.placePort reg x.1, g)))

/-- What a load's bytes give: the output, the blocks expanded, and the cause of Table 14-6 where it fails, with the damaged block. A
damaged block comes before all else (R321), then output beyond the region, then SRC_CRC, which is known last. -/
def loadOutput (b : List Byte) (bs : List Byte) : List Byte × Nat × Option (Nat × Option HbcBad) :=
  let r := if verExpand b = 0 then (bs, [], 0, none) else hbcRun (bs.length + 1) [] none bs
  (r.1, r.2.2.1,
    match r.2.2.2 with
    | some e => some (4, some e)
    | none => if (verRegion b).2 < r.1.length then some (5, none) else if crc32c bs ≠ verSrcCrc b then some (3, none) else none)

/-- A damaged block of a resident load: counted and recorded, health event 0x0A (R321, R333). -/
def State.loaderBlockFail (s : State) (n : PortId) (e : HbcBad) : State :=
  ({ s with sets := { s.sets with
      expFails := s.sets.expFails + 1,
      expLastFail := BitVec.ofNat 128 (e.cause + n.val * 2 ^ 4 + e.num * 2 ^ 32 + s.now * 2 ^ 64) } }).health 0x0A none n.val e.cause

/-- The bytes of a resident load have come: written, or the cause of its failure. -/
def State.endLoad (s : State) (slot : Fin 256) (b bs : List Byte) : State :=
  let reg := verRegion b
  let x := loadOutput b bs
  let s := { s with sets := { s.sets with expBlocks := bump s.sets.expBlocks x.2.1 } }
  match x.2.2 with
  | some (cause, e) =>
    (match e with | some e => s.loaderBlockFail (s.placePort reg x.1.length) e | none => s).failVersion slot reg cause
  | none => ((((s.deepClear reg).deepWrite reg.1 x.1).1).modSlot slot (fun w => { w with pendState := .ready, loadResult := 0 })).irq 7

/-- RESIDENT_LOAD_DONE (R327): READY or FAILED; a load whose port carries nothing waits. -/
def execResidentLoadDone (slot : Fin 256) (r : ReadResult) (s : State) : Out :=
  let w := s.slotW slot
  match w.pending with
  | none => .next s
  | some v =>
    let b := v.record
    if w.pendState ≠ .loading ∨ !(s.serving && s.awake) then .next s
    else
      let r := { r with bytes := r.bytes.take (verSrcLen b) }
      let y := s.stewardPages (some (verSrcAst b)) 0 r (s.loadPages b r.bytes) r.walks
      match y.2 with
      | .lost => .next y.1
      | .fault _ _ => .next (y.1.failVersion slot (verRegion b) 1)
      | .error _ _ => .next (y.1.failVersion slot (verRegion b) 2)
      | .data bs => .next (y.1.endLoad slot b bs)

/-! ### Switch and deletion (R330, R331) -/

/-- The slots that the handles of EQUINOX name. -/
def equinoxHandles (b : List Byte) : List Nat := ((List.range 16).map (fun i => leAt b (4 * i) 4)).filter (fun h => decide (h ≠ 0))
def handleSlot (h : Nat) : Fin 256 := ⟨h % 256, Nat.mod_lt _ (by decide)⟩

/-- Make a slot's pending version active; the one before retires. -/
def WSlot.switch (w : WSlot) : WSlot :=
  match w.pending with
  | some v => { w with active := some v, retiring := w.active.toList ++ w.retiring, pending := none, pendState := .none, loadResult := 0 }
  | none => w

/-- EQUINOX (R330). -/
def State.switchSets (s : State) (b : List Byte) : Served :=
  let hs := equinoxHandles b
  let stale := fun (h : Nat) => decide ((s.slotW (handleSlot h)).gen ≠ h / 256)
  refuse (decide (b.length ≠ 64)) 3 <|
  refuse (hs.any (fun h => !stale h && decide ((s.slotW (handleSlot h)).pendState = .loading))) 6 <|
  refuse (hs.any (fun h => stale h || decide ((s.slotW (handleSlot h)).pendState ≠ .ready))) 4 <|
  let s := (hs.map handleSlot).dedup.foldl (fun (s : State) i => s.modSlot i WSlot.switch) s
  done ({ s with sets := { s.sets with equinoxGen := s.sets.equinoxGen + 1 } }).freeRetiring

def execEquinox (bs : List Byte) (async : Bool) (s : State) : Out :=
  s.pdCommand (writeReq async 0x4400 2 bs) (fun s => s.switchSets bs)

/-- DELETE (R331): the pending version goes, the active one retires, the generation increases; 24 bits, never 0. -/
def State.deleteVersion (s : State) (who : Fin 2) (v : Nat) : Served :=
  let i := s.selectedSlot who
  refuse (decide (v ≠ 1)) 4 <|
  done (s.modSlot i (fun w => { w with
    pending := none, pendState := .none, loadResult := 0, active := none,
    retiring := w.active.toList ++ w.retiring,
    gen := if w.gen + 1 < 2 ^ 24 then w.gen + 1 else 1 })).freeRetiring

def execDeleteSet (v : Byte) (async : Bool) (s : State) : Out :=
  s.pdCommand (writeReq async 0x4400 0x19 [v]) (fun s => s.deleteVersion 0 v.toNat)

end Sys2Proof.Machine
end

