-- ==== Sys2Proof/Machine/Roots.lean ====
section
/-!
DEFINITION. Root records, invalidation, pinned translations as dictionary writes (R304, R314, R317).
-/
namespace Sys2Proof.Machine

/-- Whether an AST is in use (R304). -/
def State.astInUse (s : State) (ast : Nat) : Bool :=
  s.steps.any (fun x => decide (x.state = .started) && decide ((s.queue x.queue).ast.toNat = ast)) ||
  allParts.any (fun p => match (s.part p).loading with | some l => decide (l.ast = ast) | none => false) ||
  (decide (s.rt.arm = .armed) && (match s.rtQueue with | some q => decide ((s.queue q).ast.toNat = ast) | none => false))

/-- What R304 refuses of a root record. -/
def rootBad (v : Nat) : Bool :=
  let l1 := fld v 5 1
  decide (18 < l1) || decide (fld v 11 6 ≠ 0 ∨ fld v 63 48 ≠ 0) || decide (fld v 47 12 * 4096 % 2 ^ (l1 + 3) ≠ 0)

/-- Walk a pinned page again through M0 (R314, R317): a walk that faults or is not answered drops the pin, with event 0x0B. -/
def State.rewalkPin (s : State) (i : Fin 16) (rs : List WalkRead) : State :=
  match s.xlate.pinLeaf[i.val] with
  | none => s
  | some l =>
    let y := if s.portCarries 0 then s.portWalk 0 3 l.ast (fld (s.xlate.pins[i.val]).toNat 47 12 * 4096) rs else (s, none)
    match y.2 with
    | some (.ok l) => { y.1 with xlate := { y.1.xlate with pinLeaf := upd y.1.xlate.pinLeaf i (fun _ => some l) } }
    | _ => ({ y.1 with xlate := { y.1.xlate with pins := upd y.1.xlate.pins i (fun _ => 0),
                                                 pinLeaf := upd y.1.xlate.pinLeaf i (fun _ => none) } }).health 0x0B none 0 i.val

/-- An invalidation is done (R314). -/
def State.endInvalidate (s : State) : State :=
  if s.ctl.waitWalks then
    { s with ctl := { s.ctl with waitWalks := false }, xlate := { s.xlate with invalidations := s.xlate.invalidations + 1 } }
  else s

/-- Drop the entries of the ASTs that are hit, mark their walks, walk their pins again (R314); done once no marked walk waits for its
read. -/
def State.invalidate (s : State) (hit : Nat → Bool) (walks : List (List WalkRead)) : State :=
  let keep := fun (ls : List Leaf) => ls.filter (fun l => !hit l.ast)
  let x := s.xlate
  let x := { x with streams := (x.streams.map (fun y => (y.1, keep y.2))).filter (fun y => !y.2.isEmpty), stewards := x.stewards.map keep,
                    walkCache := x.walkCache.map (fun ts => ts.filter (fun t => !hit t.ast)) }
  let mark := fun (w : Option WalkSt) => w.map (fun w => w.mark s.root hit)
  let s := { s with
    xlate := x,
    cores := s.cores.map (fun (k : Core) => { k with dma := k.dma.map (fun d =>
      { d with q := d.q.map (fun f => { f with walk := mark f.walk }) }) }),
    records := s.records.map (fun (r : PendRec) => { r with walk := mark r.walk }) }
  let pins := (List.finRange 16).filter (fun i => (s.xlate.pinLeaf[i.val]).any (fun l => hit l.ast))
  let s := pins.zipIdx.foldl (fun (s : State) y => s.rewalkPin y.1 (walks.getD y.2 [])) s
  let s := { s with ctl := { s.ctl with waitWalks := true } }
  if s.walksMarked then s else s.endInvalidate

/-- ROOT of the AST that AST_SELECT names: the record, and the invalidation of its AST (R304, R314). -/
def State.writeRoot (s : State) (who : Fin 2) (v : DWord) (walks : List (List WalkRead)) : Served :=
  let ast := (s.journal.astSelect[who.val]).toNat
  refuse (s.astInUse ast) 5 <| refuse (rootBad v.toNat) 4 <|
  let s := { s with xlate := { s.xlate with roots := Tab.set 0 s.xlate.roots ast v } }
  done (s.invalidate (fun a => decide (a = ast)) walks)

def execRootWrite (v : DWord) (walks : List (List WalkRead)) (async : Bool) (s : State) : Out :=
  s.pdCommand (writeReqX async 0x2300 0x11 (leBytes 8 v.toNat) { PdExt.empty with walks := walks }) (fun s => s.writeRoot 0 v walks)

/-- INVALIDATE (R314). -/
def State.writeInvalidate (s : State) (v : Nat) (walks : List (List WalkRead)) : Served :=
  refuse (decide (1023 < v ∧ v ≠ 0xFFFF)) 4 <| done (s.invalidate (fun a => decide (v = 0xFFFF ∨ a = v)) walks)

def execInvalidate (v : Half) (walks : List (List WalkRead)) (async : Bool) (s : State) : Out :=
  s.pdCommand (writeReqX async 0x2300 0x12 (leBytes 2 v.toNat) { PdExt.empty with walks := walks }) (fun s => s.writeInvalidate v.toNat walks)

/-- RT_PIN (R317): V = 1 walks the page at once through M0 under the AST of the class 0 queue, V = 0 drops the pin. A port that carries
nothing, or a read that is never answered, ends the write like a walk that faults (DESIGN CHOICE; assumption log 49); an aborted
write changes no pin (R430). -/
def State.writePin (s : State) (i : Fin 16) (v : DWord) (walk : List WalkRead) : Served :=
  let x := v.toNat
  let put := fun (s : State) (l : Option Leaf) =>
    { s with xlate := { s.xlate with pins := upd s.xlate.pins i (fun _ => v), pinLeaf := upd s.xlate.pinLeaf i (fun _ => l) } }
  refuse (decide (s.rt.arm = .armed)) 5 <|
  refuse (decide (fld x 11 1 ≠ 0 ∨ fld x 63 48 ≠ 0)) 4 <|
  if !bitAt x 0 then done (put s none)
  else match s.rtQueue with
    | none => .error 4
    | some q =>
      if !s.portCarries 0 then .error 4
      else
        let y := s.portWalk 0 3 (s.queue q).ast.toNat (fld x 47 12 * 4096) walk
        match y.2 with
        | some (.ok l) => done (put y.1 (some l))
        | _ => .fail 4 y.1

def execRtPin (i : Fin 16) (v : DWord) (walk : List WalkRead) (async : Bool) (s : State) : Out :=
  s.pdCommand (writeReqX async 0x2301 (1 + i.val) (leBytes 8 v.toNat) { PdExt.empty with walks := [walk] }) (fun s => s.writePin i v walk)

end Sys2Proof.Machine
end

