-- ==== Sys2Proof/Machine/Clock.lean ====
section
/-!
DEFINITION. One edge of the clock that drives the timebase: a REF_CLK cycle, or an AON_CLK edge in Winter, Thaw and late
Autumn (R355 to R357), with the CCLK cycles that pass meanwhile.
-/
namespace Sys2Proof.Machine

/-- CCLK in 1/60 MHz, behind the divider of R371, at most 6, while it is in. -/
def State.cclk60 (s : State) : Nat :=
  let f := mhz s.power.pstate.val
  if s.power.alertDivider then 60 * f / ceilDiv f 300 else 60 * f

/-- n CCLK pass on a core: since its dispatch, and without a bundle issued (R205, R276). -/
def Core.passCclk (k : Core) (n : Nat) : Core :=
  match k.phase with
  | .idle => k
  | .committed => { k with runCclk := k.runCclk + n }
  | _ => { k with runCclk := k.runCclk + n, watchdog := k.watchdog + n }

/-- n CCLK pass in a run: from STARTED, and from its first issue, until its cores are free (R240, R247, R272). -/
def RunSt.passCclk (r : RunSt) (n : Nat) : RunSt :=
  { r with cclk := r.cclk + n, issueCclk := if r.firstIssue then r.issueCclk + n else r.issueCclk,
           stopCclk := match r.phase with | .draining _ => r.stopCclk + n | _ => r.stopCclk }

/-- n CCLK pass; the checkers come up to their leads (R385). -/
def State.passCclk (s : State) (n : Nat) : State :=
  let t := { s with cores := s.cores.map (fun (k : Core) => k.passCclk n),
                    parts := s.parts.map (fun (p : Partition) => { p with run := p.run.map (fun (r : RunSt) => r.passCclk n) }) }
  t.followRun

/-- A REF_CLK cycle: 16,000 / REF_CLK_KHZ ticks, through a fraction (R356), and CCLK at the rate of the P-state. -/
def State.refEdge (s : State) : State :=
  let khz := s.refKhz
  if khz = 0 then s
  else
    let a := s.power.refFrac + if s.power.slow = 0 then 16000 else 8000
    let c := s.power.cclkFrac + s.cclk60 * 1000
    (s.modPower (fun p => { p with timebase := bump p.timebase (a / khz), refFrac := a % khz, slow := p.slow - 1,
                                   cclkFrac := c % (60 * khz) })).passCclk (c / (60 * khz))

/-- Action 5 of R361: PWR_REQ of the highest cluster that is still asked for falls, cluster 0 excepted. -/
def PowerSt.lowerOne (p : PowerSt) : PowerSt :=
  if p.season = .autumn ∧ p.autumnStage = 4 then
    match [3, 2, 1].find? (fun i => p.pwrReq.getLsbD i) with
    | some i => { p with pwrReq := clearBit p.pwrReq i }
    | none => p
  else p

/-- An AON_CLK edge: 488 + 9/32 ticks (R356); the timebase hands back once the PLLs have locked (R357, R364), and CCLK has run since
they did (Table 16-1). -/
def State.aonEdge (s : State) : State :=
  let a := s.power.aonFrac + 9
  (s.modPower (fun p => { p.lowerOne with timebase := bump p.timebase (488 + a / 32), aonFrac := a % 32,
                                          onAon := !(p.pllLocked && decide (p.season ≠ .autumn)) })).passCclk
    (if s.power.pllLocked then s.cclk60 * 15625 / (60 * 512) else 0)

/-- Action 4 of R361, at an AON_CLK edge: the timebase moves to AON_CLK, the PLLs stop. -/
def State.stopPlls (s : State) : State := s.modPower (fun p => { p with autumnStage := 4, onAon := true, pllLocked := false })

/-- The mailbox reports an invalidation done once its marked walks have returned (R314). -/
def State.finishInvalidate (s : State) : State :=
  if s.ctl.waitWalks && !s.walksMarked then
    match s.ctl.latched with
    | some r => (s.endInvalidate.pdCount r none).pdEnd r (.ok [])
    | none => s.endInvalidate
  else s

/-- One edge of the clock that drives the timebase. -/
def State.tick (s : State) : State :=
  if s.power.onAon then s.aonEdge
  else if s.power.season = .autumn ∧ s.power.autumnStage = 3 ∧ ¬ allParts.any (fun p => (s.part p).run.isSome) then s.stopPlls
  else s.refEdge

/-- The same with what the stewards finish meanwhile. -/
def clockEdge (s : State) : State := s.tick.finishInvalidate

end Sys2Proof.Machine
end

