-- ==== Sys2Proof/Machine/Landings.lean ====
section
/-!
DEFINITION. What happens in a core after issue: landings, ends of commands, releases of holds and of tag waits; scrub.
-/
namespace Sys2Proof.Machine

/-- SIGNAL_TAKES_EFFECT (R202): the oldest SIGNAL increments its counter once every deep-scratch write issued before it has
landed. -/
def execSignalTakesEffect (c : CoreId) (s : State) : Out :=
  let k := s.core c
  match k.signals, s.runOf c with
  | (q, e) :: rest, some p =>
    if k.deepLanded q then
      .next ((s.modCore c (fun k => { k with signals := rest })).modPart p (fun x =>
        { x with events := upd x.events e (fun n => satInc n 1) }))
    else .next s
  | _, _ => .next s

/-- BUNDLE_ISSUE_HOLD_RELEASE (R189). -/
def execBundleIssueHoldRelease (c : CoreId) (s : State) : Out := s.releaseHold c

/-- DMA_COMMAND_END (R199). -/
def execDmaCommandEnd (c : CoreId) (t : Fin 8) (s : State) : Out := .next (s.endDma c t)

/-- FROST_CYCLES and MVP_WAITS of a core (R102, R120) grow by what the landed operation met: free values. -/
def State.countStalls (s : State) (c : CoreId) (frost wait : Nat) : State :=
  let s := s.modHealth c (fun h => { h with frost := bump h.frost frost, mvpWaits := bump h.mvpWaits wait })
  { s with ctl := { s.ctl with extNext := s.ctl.extNext + 1 } }

/-- PASS_RESULT_LANDED (R88). -/
def execPassResultLanded (c : CoreId) (s : State) : Out :=
  let t := s.landPass c
  .next (if (t.core c).passQ.length < (s.core c).passQ.length then t.countStalls c (Config.frostCycles s.ctl.extNext) 0 else t)

/-- MVP_PASS_LANDED (R128): a pass that has streamed has met wait cycles, a read-out has none (R120). -/
def execMvpPassLanded (c : CoreId) (s : State) : Out :=
  let t := s.landMv c
  let passes := fun (s : State) => ((s.core c).mvQ.filter (·.isPass)).length
  .next (if passes t < passes s then t.countStalls c 0 (Config.mvpWaitCycles s.ctl.extNext) else t)

/-- WEIGHT_LOAD_END (R92, R114). -/
def execWeightLoadEnd (c : CoreId) (s : State) : Out := .next (s.landLoad c)

/-- READOUT_LANDED (R111). -/
def execReadoutLanded (c : CoreId) (s : State) : Out := .next (s.landReadout c)

/-- VECTOR_OPERATION_LANDED (R134). -/
def execVectorOperationLanded (c : CoreId) (s : State) : Out := .next (s.landVec c)

/-- DEEP_SCRATCH_WRITE_LANDED (R173). -/
def execDeepScratchWriteLanded (c : CoreId) (s : State) : Out := .next (s.landOneDeep c)

/-- TAP_LOAD_LANDED (R154). -/
def execTapLoadLanded (c : CoreId) (s : State) : Out := .next (s.landTap c)

/-- TAG_WAIT_RELEASE (R168, R169): the access that waits goes on as far as its tags let it. -/
def execTagWaitRelease (c : CoreId) (u : AccessUnit) (s : State) : Out :=
  match u with
  | .aga => .next ((s.settleAga c).feedTap c)
  | .agb => .next ((s.settleAga c).feedLoad c)
  | .mvp => .next (s.feedMv c)
  | .vec =>
    match (s.core c).fetched, s.stepOf c with
    | ops :: _, some (_, _, x) =>
      if bundleBad (s.core c) (imageLimits x).1 (imageLimits x).2 ops then .refused .unverifiedBundle else .next (s.tryIssue c)
    | _, _ => .next s
  | .dma t => .next ((s.driveDma c t).landNear c t)

/-! ### Scrub (R180, R181) -/

/-- Region number of Table 7-8. -/
def sramRegion : SramId → Nat
  | .near _ => 0 | .deep => 1 | .imem _ => 2 | .store _ => 3 | .acc _ _ => 4

/-- Words of 8 bytes of an SRAM as built; 0 when it is not built. -/
def State.sramWords (s : State) (m : SramId) : Nat :=
  match m with
  | .near c => if s.build.coreMap.getLsbD c.val then 262144 else 0
  | .deep => s.build.deepBytes / 8
  | .imem c => if s.build.coreMap.getLsbD c.val then 8192 else 0
  | .store cl => if cl.val < s.build.c then 65536 else 0
  | .acc c a =>
    if s.build.coreMap.getLsbD c.val ∧ (a.val = 4 ∨ a.val < s.build.a) then (if a.val = 4 then 2048 else 8192) else 0

/-- Poison a word (R180). -/
def State.poison (s : State) (m : SramId) (w : Nat) : State :=
  match m with
  | .near c => s.modCore c (fun k => { k with nearPoison := Tab.set false k.nearPoison w true })
  | .deep => { s with deep := { s.deep with poison := Tab.set false s.deep.poison w true } }
  | .imem c => s.modCore c (fun k => { k with imemPoison := Tab.set false k.imemPoison w true })
  | .store cl => { s with start := { s.start with storePoison := upd s.start.storePoison cl (fun t => Tab.set false t w true) } }
  | .acc c a => s.modCore c (fun k => { k with accPoison := Tab.set false k.accPoison (a.val * 8192 + w) true })

/-- Location and owner of a word for the records. -/
def State.sramLoc (s : State) (m : SramId) (w : Nat) : Nat × Option CoreId × Nat :=
  match m with
  | .near c => (nearLoc c w, some c, 0)
  | .deep => (s.deepLoc w, none, s.build.sliceOf (8 * w))
  | .imem c => (ueLoc (8 * w) (some c) 0 0, some c, 0)
  | .store cl => (ueLoc (8 * w) none cl.val 0, none, cl.val)
  | .acc c a => (accLoc c (a.val * 8192 + w), some c, 0)

/-- Whether a word is poisoned, and whether one of its bits is flipped. -/
def State.sramPoisoned (s : State) (m : SramId) (w : Nat) : Bool :=
  match m with
  | .near c => Tab.get false (s.core c).nearPoison w
  | .deep => s.deepPoisoned w
  | .imem c => Tab.get false (s.core c).imemPoison w
  | .store cl => Tab.get false s.start.storePoison[cl.val] w
  | .acc c a => Tab.get false (s.core c).accPoison (a.val * 8192 + w)

def State.sramFlipped (s : State) (m : SramId) (w : Nat) : Bool :=
  match m with
  | .near c => Tab.get false (s.core c).nearFlip w
  | .deep => Tab.get false s.deep.flip w
  | .imem c => Tab.get false (s.core c).imemFlip w
  | .store cl => Tab.get false s.start.storeFlip[cl.val] w
  | .acc c a => Tab.get false (s.core c).accFlip (a.val * 8192 + w)

/-- Write a word back corrected. -/
def State.unflip (s : State) (m : SramId) (w : Nat) : State :=
  match m with
  | .near c => s.modCore c (fun k => { k with nearFlip := Tab.del k.nearFlip w })
  | .deep => { s with deep := { s.deep with flip := Tab.del s.deep.flip w } }
  | .imem c => s.modCore c (fun k => { k with imemFlip := Tab.del k.imemFlip w })
  | .store cl => { s with start := { s.start with storeFlip := upd s.start.storeFlip cl (fun t => Tab.del t w) } }
  | .acc c a => s.modCore c (fun k => { k with accFlip := Tab.del k.accFlip (a.val * 8192 + w) })

/-- The SRAM that a word of SRAM id m lies in: its number, its first word, its beats of 64 B. A slice of deep scratch is an SRAM
of its own. -/
def State.sramOf (s : State) (m : SramId) (w : Nat) : Nat × Nat × Nat :=
  match m with
  | .near c => (c.val, 0, s.sramWords m / 8)
  | .imem c => (20 + c.val, 0, s.sramWords m / 8)
  | .store cl => (40 + cl.val, 0, s.sramWords m / 8)
  | .acc c a => (44 + 5 * c.val + a.val, 0, s.sramWords m / 8)
  | .deep => let sl := s.build.sliceOf (8 * w); (144 + sl, sl * s.build.sliceBytes / 8, s.build.sliceBytes / 64)

/-- Whether the clock of an SRAM runs (R181): not in Winter and Thaw, nor in Autumn, where scrub has stopped (R361); that of a
core's SRAMs while the core is ACTIVE (R358). -/
def State.sramClocked (s : State) (m : SramId) : Bool :=
  (match s.power.season with | .spring => true | .summer => true | _ => false) &&
  (match m with
   | .near c => (s.memberRun c).isSome | .imem c => (s.memberRun c).isSome | .acc c _ => (s.memberRun c).isSome | _ => true)

/-- The scrub of an SRAM goes on to its next beat, and wraps at the end; a pass over deep scratch ends when every slice has
wrapped (Table 7-8). -/
def State.scrubOn (s : State) (m : SramId) (num beats : Nat) : State :=
  let b := Tab.get 0 s.scrub.next num
  let wraps := decide (beats ≤ b + 1)
  let s := { s with scrub := { s.scrub with next := Tab.set 0 s.scrub.next num (if wraps then 0 else b + 1) } }
  match m with
  | .deep =>
    if wraps then
      let d := s.scrub.deepDone ||| BitVec.ofNat 4 (2 ^ (num - 144))
      if d = s.build.present then { s with scrub := { s.scrub with deepDone := 0, deepPassEnd := s.power.timebase } }
      else { s with scrub := { s.scrub with deepDone := d } }
    else s
  | _ => s

/-- Scrub reads a word (Table 7-7): a poisoned one counts as uncorrectable again (R180); one that State holds flipped, or in which
the scrub finds a correctable error, is written back corrected and counted; an uncorrectable finding is poisoned and counted. -/
def State.scrubWord (s : State) (m : SramId) (w : Nat) (e : EccOutcome) : State :=
  let l := s.sramLoc m w
  if s.sramPoisoned m w then s.eccUncorrectable (sramRegion m) l.1 l.2.1 l.2.2
  else match e with
    | .uncorrectable => (s.poison m w).eccUncorrectable (sramRegion m) l.1 l.2.1 l.2.2
    | .correctable => (s.unflip m w).eccCorrected (sramRegion m)
    | .clean => if s.sramFlipped m w then (s.unflip m w).eccCorrected (sramRegion m) else s

/-- SCRUB_BEAT (R181, Table 7-7): the next beat of an SRAM, its 8 words in order. The operand `word` names the slice, in deep
scratch, and, modulo 8, the word of the beat in which scrub finds e: an upset that no row of the table brings into the machine. -/
def execScrubBeat (m : SramId) (word : Nat) (e : EccOutcome) (s : State) : Out :=
  if !s.scrub.enable ∨ s.power.season = .autumn ∨ !s.sramClocked m ∨ s.sramWords m = 0 then .next s
  else
    let x := s.sramOf m (word % s.sramWords m)
    let w := x.2.1 + 8 * Tab.get 0 s.scrub.next x.1
    .next (((List.range 8).foldl (fun s i => s.scrubWord m (w + i) (if i = word % 8 then e else .clean)) s).scrubOn m x.1 x.2.2)

end Sys2Proof.Machine
end

