-- ==== Sys2Proof/Machine/LinkRx.lean ====
section
/-!
DEFINITION. The receiving side of the Stack Link: groups, replay, membership, the messages at the heads of the receive
buffers, inbound windows (R336 to R354).
-/
namespace Sys2Proof.Machine

/-! ### Membership of the stack (R348, R352, R353) -/

def State.modSt (s : State) (f : LinkSt → LinkSt) : State := { s with link := f s.link }

/-- A bit of a mask of engines, set or cleared. -/
def markBit (m : Byte) (e : Nat) (b : Bool) : Byte := if b then putBit m e else clearBit m e

/-- Other engines that are UP. -/
def State.upPeers (s : State) : List (Fin 8) :=
  (List.finRange 8).filter (fun e => decide (e ≠ s.pins.inst) && decide (s.link.peerState[e.val] = 1))

/-- Whether a run of a partition has something open toward an engine (R352). -/
def State.remoteOpen (s : State) (r : RunSt) (e : Fin 8) : Bool :=
  r.cores.any (fun c => (s.core c).remoteDirty.getLsbD e.val || (s.core c).remoteFlush.getLsbD e.val) ||
  s.link.reads.any (fun x => decide (x.engine = e.val) && decide (x.core ∈ r.cores) && x.live)

/-- An engine that was UP is LOST: runs that need it end with 0x0F (R352). -/
def State.losePeer (s : State) (e : Fin 8) : State :=
  let s := s.modSt (fun x => { x with peerState := x.peerState.set e.val 2, reports := x.reports.set e.val none })
  let s := allParts.foldl (fun s p => match (s.part p).run with
    | some r => if s.remoteOpen r e then s.failRun p 0x0F e.val else s
    | none => s) s
  s.modSt (fun x => { x with reads := x.reads.filter (fun y => decide (y.engine ≠ e.val)),
                             flushes := x.flushes.filter (fun y => decide (y.engine ≠ e.val)) })

/-- Whether an engine lies behind a port that is not FAILED: what its HELLO said is still judged (R348). -/
def State.heard (s : State) (e : Fin 8) : Bool := decide ((s.link.ports[(s.routeTo e.val).val]).state ≠ .failed)

/-- Engines known to be master, this one included. -/
def State.masters (s : State) : List (Fin 8) :=
  (List.finRange 8).filter (fun e =>
    if e = s.pins.inst then s.pins.master else s.link.peerMaster.getLsbD e.val && s.heard e)

/-- What R348 calls CONFLICT and a HELLO shows at once; that no engine is master is judged at the HELLO timer. -/
def State.stackConflict (s : State) : Bool :=
  decide (s.link.duplicate ≠ 0) || (List.finRange 8).any (fun e => s.link.peerVersion.getLsbD e.val && s.heard e) ||
    decide (2 ≤ s.masters.length)

/-- The reachable master: this engine, or one that is UP (MASTER_ID). -/
def State.masterNow (s : State) : Option (Fin 8) :=
  if s.pins.master then some s.pins.inst else s.upPeers.find? (fun e => s.link.peerMaster.getLsbD e.val)

/-- STACK_STATE as it follows from what is known: 0 SINGLE, 1 FORMED, 2 STANDALONE, 3 CONFLICT. -/
def State.stackNow (s : State) (noMaster : Bool) : Byte :=
  let was := s.link.stackState
  if s.stackConflict then 3
  else match s.masterNow with
    | some _ => if s.upPeers = [] ∧ was ≠ 1 then 0 else 1
    | none =>
      if was = 1 ∨ was = 2 then 2
      else if s.upPeers ≠ [] ∧ noMaster then 3
      else if was = 3 ∧ s.link.ports.toList.any (fun p => decide (p.state = .up)) then 3
      else 0

/-- Bring STACK_STATE, REACHABLE and MASTER_ID up to date; in CONFLICT no peer is UP, and at its entry the ports drop all but HELLO and
IRQ[3] rises (R348); then the limit goes its new way (R350). -/
def State.restack (s : State) (noMaster : Bool) : State :=
  let was := s.link.stackState
  let st := s.stackNow noMaster
  let s := if st = 3 then s.upPeers.foldl (fun s e => s.losePeer e) s else s
  let up := s.upPeers.foldl (fun (m : Byte) e => putBit m e.val) (BitVec.ofNat 8 (2 ^ s.pins.inst.val))
  let id : Byte := if st = 3 then 0xFF else match s.masterNow with | some e => BitVec.ofNat 8 e.val | none => 0xFF
  let s := s.modSt (fun x => { x with stackState := st, reachable := up, masterId := id })
  let s := if st = was then s else s.modSt (fun x => { x with reported := none, order := none })
  let s := if st = 3 ∧ was ≠ 3 then
      (s.modSt (fun x => { x with chainDropped := bump x.chainDropped (x.ports.toList.map LinkPort.chains).sum,
                                  ports := x.ports.map LinkPort.hellosOnly })).irq 7
    else s
  s.relimit

/-- Engines on the side of a port. -/
def State.sideOf (s : State) (l : LinkId) : List (Fin 8) :=
  (List.finRange 8).filter (fun e => decide (e ≠ s.pins.inst) && decide (s.routeTo e.val = l))

/-- The engine that must sit at the other end of a port (R334). -/
def State.neighbour (s : State) (l : LinkId) : Option Nat :=
  if l.val = 0 then some (s.pins.inst.val + 1) else if s.pins.inst.val = 0 then none else some (s.pins.inst.val - 1)

/-- LINK_FAILED: the port is FAILED, the CHAIN messages that wait in it are counted as dropped, every engine behind it is LOST with
event 0x11 (R338, R352). What its engines said of themselves is kept for their return (R353). -/
def State.failPort (s : State) (l : LinkId) : State :=
  let lost := (s.sideOf l).filter (fun e => decide (s.link.peerState[e.val] = 1))
  let s := s.modSt (fun x => { x with chainDropped := bump x.chainDropped (s.link.ports[l.val]).chains,
                                      duplicate := clearBit x.duplicate l.val })
  let s := s.modLink l LinkPort.fail
  let s := lost.foldl (fun s e => (s.losePeer e).health 0x11 none 0 e.val) s
  s.restack false

/-- LINK_FAILED (R338): no valid group has arrived for LINK_TIMEOUT, or REPLAY_LIMIT is seen to be reached. -/
def execLinkFailed (l : LinkId) (s : State) : Out :=
  let p := s.link.ports[l.val]
  if !s.linkOn then .next s
  else match p.state with
    | .up => .next (s.failPort l)
    | .down => if p.phyUp then .next (s.failPort l) else .next s
    | _ => .next s

/-- A HELLO of this engine that is not acknowledged yet. -/
def LinkPort.helloOpen (p : LinkPort) : Bool :=
  p.txMgt.any (fun m => decide (hType m.msg.hdr = 12)) ||
  p.replayBuf.any (fun g => g.flits.zipIdx.any (fun f =>
    decide (fld g.slots (3 * f.2 + 1) (3 * f.2) = 2) && bitAt g.slots (3 * f.2 + 2) && decide (hType f.1 = 12)))

/-- A port reaches UP after a HELLO received and one acknowledged (R348); the engines behind it are UP again (R353). -/
def State.tryUp (s : State) (l : LinkId) : State :=
  let p := s.link.ports[l.val]
  let down : Bool := match p.state with | .down => true | .failed => true | _ => false
  if down && p.helloHeard && p.helloSent && !p.helloOpen then
    let s := s.modLink l (fun p => { p with state := .up })
    let s := s.modSt (fun x => { x with peerState := Vector.ofFn (fun e : Fin 8 =>
      if e ∈ s.sideOf l ∧ (some e.val = s.neighbour l ∨ x.peerState[e.val] = 2) then 1 else x.peerState[e.val]) })
    s.restack false
  else s

/-! ### Groups received (R336, R337, R339) -/

/-- Flits of a VC that leave the receive buffer are owed to the sender as credits (R340). -/
def LinkPort.owe (p : LinkPort) (vc n : Nat) : LinkPort :=
  match vc with
  | 0 => { p with oweReq := p.oweReq + n }
  | 2 => { p with oweMgt := p.oweMgt + n }
  | _ => p

/-- The message being received on a VC. -/
def LinkPort.open? (p : LinkPort) (vc : Nat) : Option Msg :=
  match vc with | 0 => p.partReq | 1 => p.partRsp | _ => p.partMgt

def LinkPort.setOpen (p : LinkPort) (vc : Nat) (m : Option Msg) : LinkPort :=
  match vc with | 0 => { p with partReq := m } | 1 => { p with partRsp := m } | _ => { p with partMgt := m }

/-- A dropped message or flit (R339). -/
def LinkPort.drop (p : LinkPort) (vc flits : Nat) : LinkPort := { p.owe vc flits with protoErrors := p.protoErrors + 1 }

/-- What a port does with a complete message: dropped, kept for this engine, or passed on (answered beside the port); in
CONFLICT the engines carry HELLO only (R348). -/
def LinkPort.complete (p : LinkPort) (inst : Nat) (conflict : Bool) (vc : Nat) (m : Msg) : LinkPort × Option Msg :=
  let n := 1 + m.data.length
  if !headerOk vc m.hdr then (p.drop vc n, none)
  else if conflict && decide (hType m.hdr ≠ 12) then (p.owe vc n, none)
  else if hDst m.hdr ≠ inst ∧ hType m.hdr ≠ 12 then (p.owe vc n, some m)
  else match vc with
    | 0 => ({ p with rxReq := p.rxReq ++ [m] }, none)
    | 1 => ({ p with rxRsp := p.rxRsp ++ [m] }, none)
    | _ => ({ p with rxMgt := p.rxMgt ++ [m] }, none)

/-- One payload slot. -/
def LinkPort.takeSlot (p : LinkPort) (inst : Nat) (conflict : Bool) (vc : Nat) (hdr : Bool) (f : Flit) : LinkPort × Option Msg :=
  if vc = 3 then (p, none)
  else if hdr then
    let p := match p.open? vc with | some m => p.drop vc (1 + m.data.length) | none => p
    if hNdata f = 0 then (p.setOpen vc none).complete inst conflict vc (Msg.single f)
    else (p.setOpen vc (some (Msg.single f)), none)
  else match p.open? vc with
    | none => (p.drop vc 1, none)
    | some m =>
      let m := { m with data := m.data ++ [f] }
      if hNdata m.hdr ≤ m.data.length then (p.setOpen vc none).complete inst conflict vc m
      else (p.setOpen vc (some m), none)

/-- The seven payload slots, in order; the messages to pass on. -/
def LinkPort.takeSlots (p : LinkPort) (inst : Nat) (conflict : Bool) (tail : Nat) (fs : List Flit) : LinkPort × List Msg :=
  fs.zipIdx.foldl (fun r f =>
    let x := r.1.takeSlot inst conflict (fld tail (3 * f.2 + 1) (3 * f.2)) (bitAt tail (3 * f.2 + 2)) f.1
    (x.1, r.2 ++ x.2.toList)) (p, [])

/-- The acknowledgement of a tail flit frees replayed groups (R337). -/
def LinkPort.acked (p : LinkPort) (ack : Nat) : LinkPort :=
  match p.replayBuf with
  | [] => p
  | g :: _ =>
    let n := (ack + 4097 - g.seq) % 4096
    if n = 0 ∨ p.replayBuf.length < n then p else { p with replayBuf := p.replayBuf.drop n, noProgress := 0 }

/-- Credits returned to the sender, at most the receiver's buffers (R340). -/
def LinkPort.credited (p : LinkPort) (tail : Nat) : LinkPort :=
  { p with credReq := Nat.min 256 (p.credReq + fld tail 71 64), credMgt := Nat.min 32 (p.credMgt + fld tail 79 72) }

/-- Whether a group is accepted (R337). -/
def LinkPort.accepts (p : LinkPort) (tail : Nat) : Bool := decide (fld tail 43 32 = (p.ackSeq + 1) % 4096)

/-- The other port. -/
def otherPort (l : LinkId) : LinkId := if l.val = 0 then 1 else 0

/-- Replay (R337); where REPLAY_LIMIT replays in a row have brought no progress, the port is FAILED in place of one more (R338). -/
def State.replayPort (s : State) (l : LinkId) : State :=
  let p := s.link.ports[l.val]
  if p.replayBuf.isEmpty then s
  else if s.link.replayLimit.toNat ≤ p.noProgress then s.failPort l
  else s.modLink l LinkPort.replay

/-- A message passed on (R341); a CHAIN whose port is not UP is counted as dropped (R352). -/
def State.passOn (s : State) (l : LinkId) (m : Msg) : State :=
  if (s.link.ports[l.val]).state ≠ .up ∧ hType m.hdr = 4 then s.modSt (fun x => { x with chainDropped := x.chainDropped + 1 })
  else s.modLink l (fun q => q.enqueue (TxMsg.ofMsg m) true)

/-- A group of 8 flits arrives (R337): discarded with a NACK, or taken; the NACK it carries starts a replay. -/
def State.takeGroup (s : State) (l : LinkId) (fs : List Flit) : State :=
  let p := s.link.ports[l.val]
  let tail := (fs.getD 7 0).toNat
  if groupCrc (fs.take 7) tail ≠ fld tail 255 224 then
    s.modLink l (fun p => { p with crcErrors := p.crcErrors + 1, nack := true })
  else if !p.accepts tail then s.modLink l (fun p => { p with nack := true })
  else
    let p := ({ p with ackSeq := fld tail 43 32, nack := false } : LinkPort)
    let p := (p.acked (fld tail 55 44)).credited tail
    let r := p.takeSlots s.pins.inst.val (decide (s.link.stackState = 3)) tail (fs.take 7)
    let s := (s.modLink l (fun _ => r.1)).tryUp l
    let s := r.2.foldl (fun (s : State) m => s.passOn (otherPort l) m) s
    let s := s.modLink (otherPort l) LinkPort.pump
    if bitAt tail 56 ∧ !(s.link.ports[l.val]).replayBuf.isEmpty then (s.replayPort l).modLink l LinkPort.pumpMore
    else s.modLink l LinkPort.pump

/-- LINK_GROUP_RECEIVED (R337); nothing arrives at a port whose link layer does not run. -/
def execLinkGroupReceived (l : LinkId) (flits : List Flit) (s : State) : Out :=
  if flits.length ≠ 8 then .refused .malformedOperand
  else if s.linkOn && (s.link.ports[l.val]).active then .next (s.takeGroup l flits) else .next s

/-- LINK_REPLAY (R337): ACK_SEQ has not advanced for 1 µs; every unacknowledged group again, in order. -/
def execLinkReplay (l : LinkId) (s : State) : Out :=
  if s.linkOn && (s.link.ports[l.val]).active then .next (s.replayPort l) else .next s

/-- IDLE_GROUP (R337): an all-IDLE group when there is nothing to send. -/
def execIdleGroup (l : LinkId) (s : State) : Out :=
  let p := s.link.ports[l.val]
  if s.linkOn && p.active && p.nextSlot.isNone && decide (p.replayBuf.length < 64) then
    .next (s.modLink l (fun p => { p with out := [] }.sendGroup))
  else .next s

/-! ### The PHY and HELLO (R338, R348) -/

/-- The PHY indication of a connected port rises: a wake event (R363), and HELLO is sent (R348). -/
def State.phyRise (s : State) (l : LinkId) : State :=
  let s := s.modLink l (fun p => { p with phyUp := true })
  s.wake.sendHello l

/-- PHY_UP_CHANGE (R338, R363, R451); a fall leaves the state of the port. -/
def execPhyUpChange (l : LinkId) (up : Bool) (s : State) : Out :=
  let p := s.link.ports[l.val]
  let s := s.modLink l (fun p => { p with phyIn := up })
  match p.state with
  | .unconnected => .next s
  | _ =>
    if s.ctl.inReset ∨ p.phyUp = up then .next s
    else if up then .next (s.phyRise l)
    else .next (s.modLink l (fun p => { p with phyUp := false }))

/-- HELLO_TIMER (R348): HELLO on each port; a stack whose engines know no master is in CONFLICT. -/
def execHelloTimer (s : State) : Out :=
  if s.linkOn then .next (s.restack true).sendHellos else .next s

/-- The timebase comes within 2 ticks of the master's (R350): one that lags is set; one that is ahead runs at half speed until it is
not, since it never goes backward and never stops (R357; how it is slowed is a DESIGN CHOICE, assumption log 67). -/
def State.followTime (s : State) (t : Nat) : State :=
  if s.now + 2 < t then s.modPower (fun p => { p with timebase := BitVec.ofNat 64 t, slow := 0 })
  else s.modPower (fun p => { p with slow := if t + 2 < s.now then 2 * (s.now - t) * s.refKhz / 16000 else 0 })

/-- A HELLO from engine e (R348, R353). -/
def State.hearHello (s : State) (l : LinkId) (m : Msg) : State :=
  let e := hSrc m.hdr
  let f := fun i => Config.mgtField 12 i (hMgt m.hdr)
  let first := !(s.link.ports[l.val]).wired
  let s := if e = s.pins.inst.val then s.modSt (fun x => { x with duplicate := putBit x.duplicate l.val }) else s
  if first ∧ s.neighbour l ≠ some e then
    (s.modLink l (fun p => { p.powerOff with state := .miswired })).restack false
  else if e = s.pins.inst.val then s.restack false
  else
    let s := s.modLink l (fun p => { p with helloHeard := true, wired := true })
    let s := s.modSt (fun x => { x with
      peerEpoch := x.peerEpoch.set! e (BitVec.ofNat 32 (f 3)),
      peerMaster := markBit x.peerMaster e (decide (f 1 ≠ 0)),
      peerVersion := markBit x.peerVersion e (decide (f 2 / 256 ≠ 0x00030200 / 256)) })
    let s := s.modLink (otherPort l) (fun q => if q.active then (q.enqueue (TxMsg.ofMsg m) true).pump else q)
    let s := if (s.link.ports[l.val]).state = .up then
        s.modSt (fun x => { x with peerState := x.peerState.set! e 1 }) else s
    let s := (s.restack false).tryUp l
    if f 1 ≠ 0 ∧ s.link.masterId.toNat = e then s.followTime (f 4) else s

/-! ### The heads of the receive buffers -/

/-- The message at the head of a receive buffer, when it has a type. -/
def headMsg (typ : Nat) (q : List Msg) : Option Msg :=
  match q with | m :: _ => if hType m.hdr = typ then some m else none | [] => none

/-- The head leaves its buffer and its credits return; then what can be sent is sent. -/
def State.popReq (s : State) (l : LinkId) (m : Msg) : State :=
  s.modLink l (fun p => ({ p with rxReq := p.rxReq.drop 1 }.owe 0 (1 + m.data.length)).pump)
def State.popMgt (s : State) (l : LinkId) (m : Msg) : State :=
  s.modLink l (fun p => ({ p with rxMgt := p.rxMgt.drop 1 }.owe 2 (1 + m.data.length)).pump)
def State.popRsp (s : State) (l : LinkId) : State := s.modLink l (fun p => { p with rxRsp := p.rxRsp.drop 1 })

/-- Act on the head of a receive buffer when it has a type. -/
def State.onReq (s : State) (l : LinkId) (typ : Nat) (f : State → Msg → State) : Out :=
  match s.linkOn, headMsg typ (s.link.ports[l.val]).rxReq with
  | true, some m => .next (f (s.popReq l m) m)
  | _, _ => .next s
def State.onMgt (s : State) (l : LinkId) (typ : Nat) (f : State → Msg → State) : Out :=
  match s.linkOn, headMsg typ (s.link.ports[l.val]).rxMgt with
  | true, some m => .next (f (s.popMgt l m) m)
  | _, _ => .next s
def State.onRsp (s : State) (l : LinkId) (typ : Nat) (f : State → Msg → State) : Out :=
  match s.linkOn, headMsg typ (s.link.ports[l.val]).rxRsp with
  | true, some m => .next (f (s.popRsp l) m)
  | _, _ => .next s

/-- HELLO (R348). -/
def execHello (l : LinkId) (s : State) : Out := s.onMgt l 12 (fun s m => s.hearHello l m)

/-- PSTATE (R350): a report at the master, the master's order elsewhere. -/
def State.hearPstate (s : State) (m : Msg) : State :=
  let e := hSrc m.hdr
  let f := fun i => Config.mgtField 13 i (hMgt m.hdr)
  if !s.formed then s
  else if s.pins.master then
    if f 0 ≠ 0 then s
    else
      let s := s.modSt (fun x => { x with reports := x.reports.set! e (some ((pst (f 1)).val, (pst (f 3)).val)) })
      let was := s.link.order
      let t := s.masterOrder
      if t.link.order = was then
        match was with
        | some (p, instant) => t.sendMsg (t.pstateMsg e 1 p instant t.link.stackFloor)
        | none => t
      else t
  else if f 0 ≠ 0 ∧ s.link.masterId.toNat = e then
    s.modSt (fun x => { x with order := some ((pst (f 1)).val, f 2), stackFloor := (pst (f 3)).val })
  else s

def execPstate (l : LinkId) (s : State) : Out := s.onMgt l 13 (fun s m => s.hearPstate m)

/-- EVENT (R349): PEER_EVENTS and PEER_EVENT of the master; never set on another engine (Table 19-8). -/
def State.hearEvent (s : State) (m : Msg) : State :=
  if s.pins.master then ({ s with ctl := { s.ctl with peerEvents := putBit s.ctl.peerEvents (hSrc m.hdr) } }).irq 4 else s

def execEvent (l : LinkId) (s : State) : Out := s.onMgt l 15 (fun s m => s.hearEvent m)

/-! ### Inbound windows (R344, R345) -/

/-- The DSA that a window gives a request, or none when it is refused (R344). -/
def State.windowDsa (s : State) (w : Fin 4) (src off len : Nat) (write : Bool) : Option Nat :=
  let r := (s.link.iw[w.val]).toNat
  if bitAt r 0 ∧ bitAt r (8 + src) ∧ bitAt r (if write then 2 else 1) ∧ off + len ≤ fld r 47 32 * 65536 then
    some (fld r 31 16 * 65536 + off) else none

def hWin4 (h : Flit) : Fin 4 := ⟨hWin h % 4, Nat.mod_lt _ (by decide)⟩

/-- The key of a source engine and partition in `refusedFor`. -/
def spartKey (h : Flit) : Nat := hSrc h * 8 + hSpart h

/-- A refused message is counted (R345, Table 15-6). -/
def State.countRefused (s : State) (w : Fin 4) : State :=
  s.modSt (fun x => { x with iwRefused := upd x.iwRefused w (· + 1) })

/-- Write the enabled bytes of the last flit, word by word. -/
def State.writeEnabled (s : State) (dsa en : Nat) (bs : List Byte) : State :=
  (List.range 4).foldl (fun (s : State) i =>
    let ps := (List.range 8).filterMap (fun j => if bitAt en (8 * i + j) then some (dsa + 8 * i + j, bs.getD (8 * i + j) 0) else none)
    if ps = [] then s else (s.deepWriteWord (dsa / 8 + i) ps).1) s

/-- WRITE at the head (R342 to R345): it lands, or is counted against its SPART. -/
def State.sinkWrite (s : State) (m : Msg) : State :=
  let h := m.hdr
  let n := m.data.length
  let w := hWin4 h
  match s.windowDsa w (hSrc h) (hOffset h) (32 * n) true with
  | none =>
    (s.countRefused w).modSt (fun x => { x with
      refusedFor := Tab.set 0 x.refusedFor (spartKey h) (Tab.get 0 x.refusedFor (spartKey h) + 1) })
  | some a =>
    let bs := flitBytes m.data
    let en := hArg h
    let bytes := 32 * (n - 1) + ((List.range 32).filter (fun i => bitAt en i)).length
    let s := (s.deepWrite a (bs.take (32 * (n - 1)))).1
    (s.writeEnabled (a + 32 * (n - 1)) en (bs.drop (32 * (n - 1)))).modSt (fun x => { x with
      iwBytesIn := upd x.iwBytesIn w (fun c => bump c bytes) })

def execLinkWrite (l : LinkId) (s : State) : Out := s.onReq l 1 (fun s m => s.sinkWrite m)

/-- A response to the sender of a message. -/
def State.respond (s : State) (h : Flit) (typ nd status refused : Nat) (data : List Flit) : State :=
  s.sendMsg (TxMsg.ofMsg { hdr := msgHeader typ s.pins.inst.val (hSrc h) (hWin h) (hSpart h) (hTag h) nd 0 0 status refused 0,
                           data := data })

/-- READ at the head (R343 to R345, Table 7-7): RDATA with the data, or with STATUS 1 or 2. -/
def State.serveRead (s : State) (m : Msg) : State :=
  let h := m.hdr
  let w := hWin4 h
  let len := hArg h
  match s.windowDsa w (hSrc h) (hOffset h) len false with
  | none => (s.countRefused w).respond h 8 0 1 0 []
  | some a =>
    match s.deepPoisonIn a len with
    | some k =>
      let sl := s.build.sliceOf (8 * k)
      (s.eccUncorrectable 1 (ueLoc (8 * k) none sl 0) none sl).respond h 8 0 2 0 []
    | none => (s.eccFixed 1 (marksIn s.deep.flip [(a, len)]).length).respond h 8 (len / 32) 0 0
        (bytesFlits (len / 32) (s.deepRead a len))

/-- LINK_READ at the head of a REQ buffer; it waits there while all 64 read trackers hold unsent RDATA (R343). -/
def execLinkRead (l : LinkId) (s : State) : Out :=
  if 64 ≤ (s.link.ports.toList.map (fun p => p.trackers s.pins.inst.val)).sum then .next s
  else s.onReq l 2 (fun s m => s.serveRead m)

/-- FLUSH at the head (R342, R345): every earlier WRITE has landed; FLUSH_DONE takes the refusals of its SPART with it. -/
def State.serveFlush (s : State) (m : Msg) : State :=
  let h := m.hdr
  let n := Tab.get 0 s.link.refusedFor (spartKey h)
  (s.modSt (fun x => { x with refusedFor := Tab.set 0 x.refusedFor (spartKey h) 0 })).respond h 9 0 0 n []

def execLinkFlush (l : LinkId) (s : State) : Out := s.onReq l 3 (fun s m => s.serveFlush m)

/-- CHAIN (R351). -/
def execChain (l : LinkId) (s : State) : Out :=
  s.onReq l 4 (fun s m => s.addCredit ⟨hArg m.hdr % 64, Nat.mod_lt _ (by decide)⟩)

/-! ### Responses to this engine (R178, R345, R346) -/

/-- RDATA: the bytes of one piece of a command, or the end of its step. -/
def State.readReturns (s : State) (m : Msg) : State :=
  let h := m.hdr
  match s.link.reads.find? (fun r => decide (r.tag = hTag h ∧ r.engine = hSrc h)) with
  | none => s
  | some r =>
    let s := s.modSt (fun x => { x with reads := x.reads.erase r })
    if !r.live then s.driveRemote
    else match hStatus h with
      | 0 =>
        (if s.headIs r.core r.stream r.seq then
          (s.modHead r.core r.stream (fun f => { f with
            got := Tab.put f.got r.off (slice (flitBytes m.data) r.lead r.len) })).driveDma r.core r.stream
        else s).driveRemote
      | 2 => s.failCore r.core 0x04 1
      | _ => s.failCore r.core 0x03 0

def execRdata (l : LinkId) (s : State) : Out := s.onRsp l 8 (fun s m => s.readReturns m)

/-- FLUSH_DONE: with refusals the step ends with 0x03; after the last one the core sends its token. -/
def State.flushReturns (s : State) (m : Msg) : State :=
  let h := m.hdr
  match s.link.flushes.find? (fun r => decide (r.tag = hTag h ∧ r.engine = hSrc h)) with
  | none => s
  | some r =>
    let s := s.modSt (fun x => { x with flushes := x.flushes.erase r })
    if !r.live then s.driveRemote
    else if hRefused h ≠ 0 then s.failCore r.core 0x03 0
    else
      let s := s.modCore r.core (fun k => { k with remoteDirty := clearBit k.remoteDirty r.engine,
                                                   remoteFlush := clearBit k.remoteFlush r.engine })
      (if (s.core r.core).remoteFlush = 0 ∧ (s.core r.core).phase = .committed then s.sendToken r.core else s).driveRemote

def execFlushDone (l : LinkId) (s : State) : Out := s.onRsp l 9 (fun s m => s.flushReturns m)

/-! ### Entries of their own -/

/-- Whether an RWM entry may be written through this engine's own control port (R349, R432). -/
def State.ownsRwm (s : State) : Bool := !s.formed || s.pins.master

/-- What R344 refuses of an inbound window record, valid or not. -/
def State.iwBad (s : State) (v : Nat) : Bool :=
  let size := fld v 47 32
  let r : Region := (fld v 31 16 * 65536, size * 65536)
  decide (fld v 7 3 ≠ 0 ∨ fld v 63 48 ≠ 0 ∨ 16384 < size) || (bitAt v 0 && decide (size = 0)) || s.badPlace r ||
    allParts.any (fun p => overlap r (s.part p).area) || (s.deepVersions (fun _ => true)).any (overlap r)

/-- IW0 to IW3 (R344). -/
def State.writeIw (s : State) (who : Fin 2) (w : Fin 4) (v : DWord) : Served :=
  refuse (decide (who = 0) && !s.ownsRwm) 7 <| refuse (s.iwBad v.toNat) 4 <|
  done (s.modSt (fun x => { x with iw := upd x.iw w (fun _ => v) }))

def execInboundWindowWrite (w : Fin 4) (v : DWord) (async : Bool) (s : State) : Out :=
  s.pdCommand (writeReq async (0x7110 + w.val) 1 (leBytes 8 v.toNat)) (fun s => s.writeIw 0 w v)

/-- PEER_EVENTS_CLEAR (Table 19-18). -/
def State.clearPeerEvents (s : State) (v : Byte) : Served :=
  done { s with ctl := { s.ctl with peerEvents := s.ctl.peerEvents &&& ~~~v } }

def execPeerEventsClear (v : Byte) (async : Bool) (s : State) : Out :=
  s.pdCommand (writeReq async 0x2000 7 [v]) (fun s => s.clearPeerEvents v)

end Sys2Proof.Machine
end

