-- ==== Sys2Proof/Machine/Update.lean ====
section
/-!
DEFINITION. Firmware slots and updates, the routine library, calibration sets, core service, tests in Midwinter
(R409 to R419, R233, R362).
-/
namespace Sys2Proof.Machine

def State.modStart (s : State) (f : StartSt → StartSt) : State := { s with start := f s.start }

/-! ### Slot records (R402, R410, Table 18-2) -/

/-- Keep a slot record that was written: while V is 1 the image is read through M0 and checked. -/
def State.keepRecord (s : State) (slot : Bool) (bs : List Byte) (image : ReadResult) : State :=
  if !slotValid bs then s.setSlot slot (slotChecked bs 0 false)
  else
    let y := s.physRead 0 (slotPa bs) (slotLength bs) image
    match y.2.bytes? with
    | some b => y.1.setSlot slot (slotChecked bs (leAt b 12 4) (s.containerCheck 1 b (slotLength bs) (some (slotCrc bs))).isNone)
    | none => y.1.setSlot slot (slotChecked bs 0 false)

/-- SLOT_A and SLOT_B: the active slot is refused, but in Midwinter (R410). -/
def State.writeSlotRecord (s : State) (b : Bool) (bs : List Byte) (image : ReadResult) : Served :=
  let x := leNat bs
  refuse (!s.inMidwinter && decide (b = s.start.activeSlot)) 2 <| refuse (decide (bs.length ≠ 32)) 3 <|
  refuse (decide (fld x 63 48 ≠ 0 ∨ fld x 255 162 ≠ 0 ∨ slotPa bs % 4096 ≠ 0)) 4 <|
  done (s.keepRecord b bs image)

def execSlotRecordWrite (b : Bool) (bs : List Byte) (image : ReadResult) (async : Bool) (s : State) : Out :=
  s.pdCommand (writeReqX async (if b then 0x8011 else 0x8010) 1 bs { PdExt.empty with image := image })
    (fun s => s.writeSlotRecord b bs image)

/-! ### The firmware update (R412, R413) -/

/-- UPDATE_STATE (Table 18-8). -/
def updateWord (st check : Nat) : Word := BitVec.ofNat 32 (st + check * 2 ^ 8)

/-- The checks of R412 on the inactive slot's image: its R402 check number, 0 for another COMPAT or an unread image. -/
def State.updateCheck (s : State) (r : List Byte) (image : Option (List Byte)) : Except Nat (List Byte) :=
  match image with
  | some b =>
    match s.containerCheck 1 b (slotLength r) (some (slotCrc r)) with
    | some n => .error n
    | none => if leAt b 0x14 2 = s.start.fwCompat then .ok b else .error 0
  | none => .error 0

/-- Start the update: the first steward is reset and reloads. -/
def State.beginUpdate (s : State) (toB : Bool) (b : List Byte) : State :=
  let r := s.slotRecord toB
  let s := s.setSlot toB (slotChecked r (leAt b 12 4) true)
  match s.nextUpdate [] with
  | some n =>
    let u : Update := { toB := toB, cur := n, done := [], back := false, compat := leAt b 0x14 2,
                        version := BitVec.ofNat 32 (leAt b 12 4) }
    (s.modStart (fun x => { x with updateState := updateWord 1 0, update := some u })).modSteward n (fun y => { y with faulted := true })
  | none => s.modStart (fun x => { x with updateState := updateWord 3 0 })

/-- FW_UPDATE (R412). -/
def State.writeFwUpdate (s : State) (v : Nat) (image : ReadResult) : Served :=
  let toB := decide (v = 1)
  let r := s.slotRecord toB
  refuse (s.start.update.isSome || s.start.libLoading.isSome) 6 <|
  refuse (decide (1 < v) || decide (toB = s.start.activeSlot) || !slotValid r) 4 <|
  let y := s.physRead 0 (slotPa r) (slotLength r) image
  let s := y.1
  match s.updateCheck r y.2.bytes? with
  | .error n => done ((s.modStart (fun x => { x with updateState := updateWord 3 n })).irq 7)
  | .ok b => done (s.beginUpdate toB b)

def execFwUpdate (v : Byte) (image : ReadResult) (async : Bool) (s : State) : Out :=
  s.pdCommand (writeReqX async 0x8000 5 [v] { PdExt.empty with image := image }) (fun s => s.writeFwUpdate v.toNat image)

/-- UPDATE_ROLLBACK (R413): a steward on the new firmware fails; every updated steward is reloaded from the old slot. -/
def execUpdateRollback (w : Fin 4) (rollbackFails : Bool) (s : State) : Out :=
  match s.start.update with
  | none => .next s
  | some u =>
    if u.back ∨ (w ≠ u.cur ∧ w ∉ u.done) then .next s
    else if rollbackFails then .next (s.restart 5)
    else
      let all := w :: u.done.filter (· ≠ w)
      let s := s.modSteward u.cur (fun y => { y with faulted := if u.cur = w ∨ u.cur ∈ u.done then y.faulted else false })
      match all.find? (fun i => !s.fault.stewards[i.val].retired) with
      | some n =>
        let s := s.modStart (fun x => { x with update := some { u with back := true, toB := !u.toB, cur := n, done := all } })
        .next (s.modSteward n (fun y => { y with faulted := true, onB := u.toB }))
      | none => .next (s.updateEnd { u with back := true })

/-! ### The routine library (R233, R415, R416) -/

/-- LIBRARY_STATE (Table 18-8). -/
def libraryWord (st code : Nat) : Word := BitVec.ofNat 32 (st + code * 2 ^ 8)

/-- The store half of a routine: bit 13 of STORE_OFF. -/
def RoutineRec.half (r : RoutineRec) : Nat := r.storeOff / 8192 % 2

/-- The half that a directory uses. -/
def dirHalf (d : List RoutineRec) : Option Nat := d.head?.map RoutineRec.half

/-- Whether a step is bound to a directory in the half that a load would write (R415). -/
def State.halfBound (s : State) : Bool :=
  let cur := dirHalf s.tables.active.dir
  s.steps.any (fun x => (dirHalf x.tables.dir).isSome && decide (dirHalf x.tables.dir ≠ cur))

/-- LIBRARY_LOAD (R415, R412). -/
def State.writeLibraryLoad (s : State) (v : Nat) : Served :=
  refuse (s.start.libLoading.isSome || s.halfBound) 6 <|
  refuse (decide (fld v 63 48 ≠ 0 ∨ fld v 127 106 ≠ 0)) 4 <|
  done (s.modStart (fun x => { x with
    libraryState := libraryWord 1 0,
    libLoading := some { va := fld v 47 0, length := fld v 95 64, ast := fld v 105 96, crc := 0 } }))

def execLibraryLoad (v : QWord) (async : Bool) (s : State) : Out :=
  s.pdCommand (writeReq async 0x4300 7 (leBytes 16 v.toNat)) (fun s => s.writeLibraryLoad v.toNat)

/-- A routine record (Table 9-9) at a byte string's offset, not certified. -/
def routineAt (b : List Byte) (o : Nat) : RoutineRec :=
  { id := leAt b o 2, flags := leAt b (o + 2) 2 / 2 * 2, storeOff := leAt b (o + 4) 4, bundles := leAt b (o + 8) 2,
    minLen := leAt b (o + 10) 2, wcet := leAt b (o + 12) 4, clobS := leAt b (o + 16) 4, clobV := leAt b (o + 20) 4,
    descOff := leAt b (o + 24) 4, crc := leAt b (o + 28) 4 }

/-- DESC_COUNT. -/
def RoutineRec.descCount (r : RoutineRec) : Nat := r.flags / 256

/-- A library's records, and its store contents. -/
def libraryRecs (b : List Byte) : List RoutineRec := (List.range (leAt b 0x40 4)).map (fun i => routineAt b (0x50 + 32 * i))
def libraryStore (b : List Byte) : List Byte :=
  let o := 0x50 + 32 * leAt b 0x40 4
  (b.take (b.length - 64)).drop o

/-- The code and the descriptor records of a routine in a half's contents. -/
def RoutineRec.code (r : RoutineRec) (st : List Byte) : List Byte := slice st (32 * (r.storeOff % 8192)) (32 * r.bundles)
def RoutineRec.desc (r : RoutineRec) (st : List Byte) : List Byte := slice st (r.descOff % 262144) (16 * r.descCount)

/-- What R233, R415 and Table 9-9 ask of a record: 0x0702 else. -/
def routineBad (r : RoutineRec) (st : List Byte) : Bool :=
  decide (r.flags % 256 ≠ 0) || decide (160 < r.descCount) || decide (r.bundles = 0 ∨ 2048 < r.bundles) ||
  decide (r.minLen = 0 ∨ 2048 < r.minLen) || decide (16384 ≤ r.storeOff ∨ 7168 < r.storeOff % 8192 + r.bundles) ||
  decide (r.descOff / 262144 ≠ r.half) || decide (r.descOff % 262144 < 229376) ||
  decide (262144 < r.descOff % 262144 + 16 * r.descCount) || decide (crc32c (r.code st ++ r.desc st) ≠ r.crc)

/-- A routine as the verifier sees an image: a CODE and a DESC section, no declarations. -/
def routineImage (code desc : List Byte) : List Byte :=
  let entry := fun (t off size : Nat) => leBytes 2 t ++ [0, 0] ++ leBytes 4 off ++ leBytes 4 size ++ leBytes 4 0
  overwrite (List.replicate 64 0) 0x1A (leBytes 2 2) ++ entry 1 96 code.length ++ entry 2 (96 + code.length) desc.length ++
    code ++ desc

/-- RET ends a routine as COMMIT ends a program. -/
def CodeSec.retEnds (x : CodeSec) : CodeSec :=
  { x with bundles := x.bundles.map (fun b => b.map (fun o => match o with
      | some (some (.seq .ret)) => some (some (.seq .commit))
      | o => o)) }

/-- The first code of Table 9-7, from 0x0201 to 0x040C, that a routine fails (R415); a CALL in it is 0x040A. -/
def routineVerify (code desc : List Byte) : Option Nat :=
  let bs := routineImage code desc
  let ctx : VerCtx := { midwinter := false, callFlow := true, rtPart := false, rtQueue := false, resident := false,
                        cores := [], dir := [], latencyNs := 0, rateMbs := 0, slices := [] }
  let secs := [(CodeSec.of bs 1 2).retEnds]
  let v : Ver := { bs := bs, ctx := ctx, secs := secs, decls := [], flows := secs.map (fun x => x.flow
    { decls := [], dir := [], stripsMax := 16777215, args := List.replicate 8 (2 ^ 64 - 1) }) }
  (firstFailure ([(0x0201, check0201), (0x0202, check0202), (0x0203, check0203), (0x0204, check0204), (0x0205, check0205),
    (0x0206, check0206), (0x0207, check0207), (0x0208, check0208), (0x0304, check0304), (0x0305, check0305),
    (0x0401, check0401), (0x0402, check0402), (0x0403, check0403), (0x0404, check0404), (0x0405, check0405),
    (0x0406, check0406), (0x0407, check0407), (0x0408, check0408), (0x0409, check0409), (0x040A, check040A),
    (0x040C, check040C)].map (fun (c : Nat × (Ver → Option Nat)) => (c.1, fun (_ : Unit) => c.2 v)))).map (·.1)

/-- The bound of a routine from its first bundle to RET, with its arguments bounded by its own ARG_MAX (R231, R233); a routine has
no FLOOR and no strips, so CCLK is that of P5 and the deep-scratch share that of four cores (DESIGN CHOICE; assumption log 25). -/
def State.routineBound (s : State) (r : RoutineRec) (st : List Byte) : Option Nat :=
  let bs := routineImage (r.code st) (r.desc st)
  let x := (CodeSec.of bs 1 2).retEnds
  let fl := x.flow { decls := [], dir := [], stripsMax := 16777215, args := (List.range 8).map (Config.routineArgMax r.id) }
  derive { image := bs, latencyNs := s.journal.rtLatencyNs.toNat, rateMbs := s.journal.rtRateMbs.toNat, mhz := mhz 5,
           beats := deepBeats (mhz 5) [(4, true)], dir := [] } x fl 0 1

/-- The engine derives certification itself; WCET of a routine that is not certified is 0 (R233, Table 9-9). -/
def State.certify (s : State) (r : RoutineRec) (st : List Byte) : RoutineRec :=
  if (s.routineBound r st).any (fun d => decide (d ≤ r.wcet)) then { r with flags := r.flags + 1 } else { r with wcet := 0 }

/-- A directory in ascending ID order (Table 9-10). -/
def dirSorted (d : List RoutineRec) : List RoutineRec :=
  d.foldl (fun out r => out.takeWhile (fun y => decide (y.id < r.id)) ++ r :: out.dropWhile (fun y => decide (y.id < r.id))) []

/-- A library's reject code, or its directory, half and contents (R402, R415). -/
def State.libraryCheck (s : State) (b : List Byte) (length : Nat) : Except Nat (List RoutineRec × Nat × List Byte) :=
  if (s.containerCheck 2 b length none).isSome then .error 0x0701
  else
    let rs := libraryRecs b
    let st := libraryStore b
    let h := (rs.map RoutineRec.half).headD 0
    if 512 < leAt b 0x40 4 ∨ b.length < 0x90 + 32 * leAt b 0x40 4 ∨ 262144 < st.length ∨ !(rs.map (·.id)).Nodup ∨
        rs.any (fun r => decide (r.half ≠ h)) ∨ rs.any (fun r => routineBad r st) ∨
        dirHalf s.tables.active.dir = some h then .error 0x0702
    else match rs.findSome? (fun r => routineVerify (r.code st) (r.desc st)) with
      | some c => .error c
      | none => .ok (dirSorted (rs.map (fun r => s.certify r st)), h, st)

/-- Write a half of every present cluster's routine store. -/
def State.fillStores (s : State) (h : Nat) (st : List Byte) : State :=
  let base := 262144 * h
  let new : Tab Byte := (st.take 262144).zipIdx.filterMap (fun x => if x.1 = 0 then none else some (base + x.2, x.1))
  let fill := fun (t : Tab Byte) => t.filter (fun p => decide (p.1 < base)) ++ new ++ t.filter (fun p => decide (base + 262144 ≤ p.1))
  s.presentClusters.foldl (fun (s : State) cl => s.modStart (fun x => { x with
    store := upd x.store cl fill,
    storePoison := upd x.storePoison cl (fun t => Tab.dropRange t (base / 8) 32768),
    storeFlip := upd x.storeFlip cl (fun t => Tab.dropRange t (base / 8) 32768),
    storeLost := Vector.ofFn (fun i : Fin 8 => if i.val = 2 * cl.val + h then none else x.storeLost[i.val]) })) s

/-- The steward's read of a library: its port is that of cluster 0. -/
def State.libraryRead (s : State) (l : LibLoad) (r : ReadResult) : State × Option (List Byte) :=
  let y := s.stewardRead 0 0 l.ast l.va l.length r
  (y.1, y.2.bytes?)

/-- LIBRARY_LOAD_DONE (R415). -/
def execLibraryLoadDone (r : ReadResult) (s : State) : Out :=
  match s.start.libLoading with
  | none => .next s
  | some l =>
    if !(s.serving && s.awake && s.portCarries 0) then .next s
    else
      let x := s.libraryRead l r
      let s := x.1.modStart (fun y => { y with libLoading := none })
      let reject := fun (code : Nat) => (s.modStart (fun y => { y with libraryState := libraryWord 3 code })).irq 7
      match x.2 with
      | none => .next (reject 0x0701)
      | some b =>
        match s.libraryCheck b l.length with
        | .error c => .next (reject c)
        | .ok (d, h, st) =>
          .next (((s.fillStores h st).modStart (fun y => { y with
            libraryState := libraryWord 2 0, pendingDir := some d, libLast := some { l with crc := crc32c b } })).irq 7)

/-- ROUTINE_STORE_RELOAD (R416): the host copy of the last accepted load, or both directories are LOST. -/
def execRoutineStoreReload (r : ReadResult) (s : State) : Out :=
  match s.start.libLast with
  | none => .next s
  | some l =>
    if !s.start.storesLost ∨ !(s.serving && s.awake && s.portCarries 0) then .next s
    else
      let x := s.libraryRead l r
      let s := x.1.modStart (fun y => { y with storesLost := false })
      let lost := ((s.modTables (fun t => { t with active := { t.active with dir := [] } })).modStart (fun y => { y with
        pendingDir := none, libLast := none, libraryState := libraryWord 4 0 })).irq 7
      match x.2 with
      | none => .next lost
      | some b =>
        if crc32c b ≠ l.crc then .next lost
        else .next (s.fillStores (((libraryRecs b).map RoutineRec.half).headD 0) (libraryStore b))

/-! ### Calibration sets (R417) -/

/-- What R417 refuses of a pending set: a droop value out of range, reserved bytes, its CRC. -/
def calBad (b : List Byte) : Bool :=
  (List.range 20).any (fun i => let v := leAt b (112 + i) 1; decide (v < 4 ∨ 64 < v)) ||
  (List.range 20).any (fun i => let v := leAt b (132 + i) 1; decide (v < 1 ∨ 16 < v)) ||
  decide (leAt b 170 78 ≠ 0) || decide (crc32c (slice b 0 252) ≠ leAt b 252 4)

/-- CAL_SWITCH. -/
def State.switchCal (s : State) (v : Nat) : Served :=
  refuse (decide (v ≠ 1) || calBad s.start.calPending) 4 <|
  done ((s.modPower (fun p => applyCal p s.start.calPending)).modStart (fun x => { x with
    calActive := x.calPending, calModified := false }))

def execCalSwitch (v : Byte) (async : Bool) (s : State) : Out :=
  s.pdCommand (writeReq async 0x8100 1 [v]) (fun s => s.switchCal v.toNat)

/-! ### Core service (R418) -/

/-- A general core that may be serviced. -/
def State.serviceable (s : State) (c : CoreId) : Bool :=
  decide (c.val % 5 < 4) && s.usable c && !s.fault.retired.getLsbD c.val && (s.substOf (c.val / 5) != some (c.val % 5)) &&
  !s.rtRole c && !allParts.any (fun p => (s.part p).rt && (s.part p).coreMask.getLsbD c.val)

/-- The spare takes the core's index; the test begins once no run in progress uses the core. -/
def State.beginService (s : State) (c : CoreId) : State :=
  let arrays := (List.range 4).foldl (fun (m : BitVec 4) j => if s.fault.arrayMap.getLsbD (arrayBit c j) then putBit m j else m) 0
  let busy := (s.runOf c).isSome
  (s.substitute (clusterOf c) (indexOf c)).modFault (fun f =>
    { f with serviceCore := some c, serviceArrays := arrays, serviceState := if busy then 1 else 2 })

/-- CORE_SERVICE. -/
def State.writeService (s : State) (v : Nat) : Served :=
  if h : v < 20 then
    let c : CoreId := ⟨v, h⟩
    refuse (s.fault.serviceCore.isSome || (s.serviceable c && !s.spareFree (clusterOf c))) 6 <|
    refuse (!s.serviceable c) 4 <| done (s.beginService c)
  else .error 4

def execCoreService (v : Byte) (async : Bool) (s : State) : Out :=
  s.pdCommand (writeReq async 0x6100 0x30 [v]) (fun s => s.writeService v.toNat)

/-- CORE_SERVICE_TEST_DONE: the core takes its index back and the spare is free, or it is retired. -/
def execCoreServiceTestDone (passes : Bool) (s : State) : Out :=
  match s.fault.serviceCore with
  | none => .next s
  | some c =>
    if !s.serving then .next s
    else
      let cl := clusterOf c
      let s := s.modFault (fun f => { f with serviceCore := none })
      if passes then
        let s := s.modHealth c (fun h => { h with selftestLast := s.power.timebase })
        .next ((s.modFault (fun f => { f with
          serviceState := 3,
          spareSubst := BitVec.ofNat 32 (setFld f.spareSubst.toNat (8 * cl.val + 7) (8 * cl.val) 0),
          coreMap := putBit f.coreMap (coreAt cl 4).val,
          arrayMap := (List.range 4).foldl (fun m j =>
            if f.serviceArrays.getLsbD j then putBit m (arrayBit c j) else clearBit m (arrayBit c j)) f.arrayMap })).irq 7)
      else
        let s := s.modHealth c (fun h => { h with selftestFails := h.selftestFails + 1 })
        .next (((s.modFault (fun f => { f with serviceState := 4, retired := putBit f.retired c.val })).health 0x03 (some c) 0 1).irq 7)

/-! ### Tests in Midwinter (R409) -/

/-- The lowest-numbered usable active core of cluster 0. -/
def State.testCore (s : State) : Option CoreId := allCores.find? (fun c => decide (c.val < 4) && s.usable c)

/-- A record of a test step that does not run. -/
def State.testRecord (s : State) (qseq : Nat) (status : Byte) (detail : Nat) : State :=
  (s.postRecord 0 0 none 1 qseq (recordBytes qseq 0 status 0 0 0 0 detail 0)).driveRecords

/-- Run the test step of an accepted image. -/
def State.runTest (s : State) (img : ImgRec) (d : StepDesc) : State :=
  let st : StepRec :=
    { aseq := 0, queue := 0, part := 0, rt := false, cls := 2, ast := 0, desc := d, image := some img,
      tables := s.tables.active, base := s.bindHandle d.base, adapter := s.bindHandle d.adapter, state := .accepted,
      status := 0, flags := 0, starts := 0, kills := 0, twin := false, lockKill := false, tAccept := s.now, tLast := s.now,
      aged := 0, since := s.now, tBell := 0, cclk := 0 }
  ({ s with steps := s.steps ++ [st] }.modPart 0 (fun p => { p with active := some img })).dispatchStep 0 st none

/-- The test step: image verified under the Midwinter rule, descriptor checked, one core (R409). -/
def State.startTest (s : State) (v : Nat) (image desc : ReadResult) : State :=
  let s := s.modStart (fun x => { x with mwTest := some (s.testCore.getD 0, fld v 239 192) })
  match s.testCore with
  | none => s.testRecord 0 0x0B 0
  | some c =>
    let s := s.modPart 0 (fun p => { p with coreMask := BitVec.ofNat 32 (2 ^ c.val) })
    let y := s.physRead 0 (fld v 175 128) 128 desc
    match y.2 with
    | .data db =>
      let d := parseDesc db
      let q := d.qseq.toNat
      let z := y.1.physRead 0 (fld v 47 0) (fld v 95 64) image
      let s := z.1
      match z.2.bytes? with
      | some b =>
        match verify (s.verCtx 0 false true) b (fld v 95 64) with
        | some (code, _) => s.testRecord q 0x06 code
        | none =>
          if !bitAt (imgFlags b) 0 ∨ imgCoresMin b ≠ 1 ∨ imgCoresMax b ≠ 1 then s.testRecord q 0x06 0x0603
          else match descChecks db none none with
            | some n => s.testRecord q 0x0D n
            | none => s.runTest { bytes := b, resident := false, wcet := 0, dir := [], va := fld v 47 0, ast := 0 } d
      | none => s.testRecord q 0x06 0x0102
    | .error err pa => y.1.testRecord 0 0x02 (causeSteward ⟨6, 0, err, pa⟩ .read 0)
    | _ => y.1.testRecord 0 0x09 0

/-- MW_STEP: outside Midwinter 0x02. -/
def State.writeMwStep (s : State) (bs : List Byte) (image desc : ReadResult) : Served :=
  let x := leNat bs
  refuse (!s.inMidwinter) 2 <| refuse (decide (bs.length ≠ 32)) 3 <| refuse s.start.mwTest.isSome 6 <|
  refuse (decide (fld x 63 48 ≠ 0 ∨ fld x 127 96 ≠ 0 ∨ fld x 191 176 ≠ 0 ∨ fld x 255 240 ≠ 0)) 4 <|
  done (s.startTest x image desc)

def execMwStep (bs : List Byte) (image desc : ReadResult) (async : Bool) (s : State) : Out :=
  s.pdCommand (writeReqX async 0x1300 5 bs { PdExt.empty with image := image, desc := desc })
    (fun s => s.writeMwStep bs image desc)

/-- MW_SELFTEST: every core as built is tested; MW_RESULT and the health entries say what failed. -/
def State.writeMwSelftest (s : State) (v : Nat) (coreFail : BitVec 20) (sharedFail : Bool) : Served :=
  refuse (!s.inMidwinter) 2 <| refuse (decide (v ≠ 1)) 4 <|
  let fails := coreFail &&& s.build.coreMap
  let s := s.modStart (fun x => { x with
    mwResult := BitVec.ofNat 128 (fails.toNat + b2n sharedFail * 2 ^ 20 + s.now * 2 ^ 64) })
  done ((allCores.foldl (fun (s : State) c =>
    if !s.build.coreMap.getLsbD c.val then s
    else if fails.getLsbD c.val then s.modHealth c (fun h => { h with selftestFails := h.selftestFails + 1 })
    else s.modHealth c (fun h => { h with selftestLast := s.power.timebase })) s).irq 7)

def execMwSelftest (v : Byte) (coreFail : BitVec 20) (sharedFail : Bool) (async : Bool) (s : State) : Out :=
  s.pdCommand (writeReqX async 0x1300 6 [v] { PdExt.empty with coreFail := coreFail, sharedFail := sharedFail })
    (fun s => s.writeMwSelftest v.toNat coreFail sharedFail)

end Sys2Proof.Machine
end

