-- ==== Sys2Proof/Machine/Entries.lean ====
section
/-!
DEFINITION. The Parameter Dictionary: every entry of the tables that Table 19-19 names, with its size, its access class, the
value it reads and the rule of its writes (R431, R432, R438 to R440).
-/
namespace Sys2Proof.Machine

/-- Access classes of Table 19-15 as far as READ and WRITE differ by them alone; RWQ and RWM are in the entry's own rule. -/
inductive EntAcc where
  | ro | rw | ex | table
  deriving DecidableEq, Repr

/-- An entry as one requester finds it: size in bytes, access, value, what refuses every write before its length is looked
at (0x02, 0x07), and the write. -/
structure Entry where
  size : Nat
  acc : EntAcc
  val : List Byte
  deny : Option Nat
  put : List Byte → Served

/-- The entries of an index by subindex. -/
abbrev Rows := List (Nat × Entry)

def entRo (n v : Nat) : Entry := { size := n, acc := .ro, val := leBytes n v, deny := none, put := fun _ => .error 2 }
def entRoB (n : Nat) (bs : List Byte) : Entry := { size := n, acc := .ro, val := slice bs 0 n, deny := none, put := fun _ => .error 2 }
def entTable (bs : List Byte) : Entry := { size := 0, acc := .table, val := bs, deny := none, put := fun _ => .error 2 }
/-- A number of n bytes, written as a number. -/
def entRw (n v : Nat) (put : Nat → Served) : Entry :=
  { size := n, acc := .rw, val := leBytes n v, deny := none, put := fun bs => put (leNat bs) }
def entRwB (n : Nat) (bs : List Byte) (put : List Byte → Served) : Entry :=
  { size := n, acc := .rw, val := slice bs 0 n, deny := none, put := put }
def entEx (n : Nat) (put : Nat → Served) : Entry :=
  { size := n, acc := .ex, val := [], deny := none, put := fun bs => put (leNat bs) }
def entExB (n : Nat) (put : List Byte → Served) : Entry := { size := n, acc := .ex, val := [], deny := none, put := put }
/-- An entry that refuses every write under a condition. -/
def Entry.denied (e : Entry) (b : Bool) (code : Nat) : Entry := { e with deny := if b then some code else e.deny }

/-- A value within a range, else 0x04. -/
def within (lo hi v : Nat) (k : Served) : Served := refuse (decide (v < lo ∨ hi < v)) 4 k

/-! ### 0x1000 to 0x1300: identity, configuration, journal, start records -/

/-- Table 0-1 and Table 19-18. -/
def State.rows1000 (s : State) : Rows :=
  [(1, entRo 4 0x00030200), (2, entRo 4 0x56490301),
   (3, entRoB 16 ([0x53, 0x76, 0x61, 0x62, 0x6F, 0x6E, 0x74, 0x65, 0x20, 0x48, 0x4E, 0x53, 0x2D, 0x33] ++ List.replicate 2 0)),
   (4, entRo 8 (fld s.pins.fuse.toNat 191 128)), (5, entRo 4 0x00010000)]

/-- Table 0-1. -/
def State.rows1100 (s : State) : Rows :=
  [(1, entRo 1 s.build.c), (2, entRo 1 s.build.k), (3, entRo 1 s.build.a), (4, entRo 2 s.build.d),
   (5, entRo 4 s.fault.coreMap.toNat), (6, entRo 8 s.fault.arrayMap.toNat)]

/-- The 32 bytes of a journal entry (Table 10-7). -/
def JEntry.bytes (e : JEntry) : List Byte :=
  leBytes 6 e.aseq ++ leBytes 1 (e.queue % 64) ++ leBytes 1 (e.part % 8 + 8 * (e.state % 8)) ++
    leBytes 2 (e.ast % 1024 + 1024 * min 63 e.reruns) ++ [e.status, e.flags] ++ leBytes 4 e.qseq.toNat ++
    leBytes 8 e.tAccept.toNat ++ leBytes 8 e.tLast.toNat

/-- The entry of an ASEQ, or zeros when it is not assigned or its place has been reused (Table 10-8). -/
def State.journalAt (s : State) (n : Nat) : List Byte :=
  match s.journal.entries.find? (fun p => decide (p.1 = n % 4096)) with
  | some p => if p.2.aseq = n ∧ n < s.journal.nextAseq then p.2.bytes else List.replicate 32 0
  | none => List.replicate 32 0

/-- OLDEST_OPEN. -/
def State.oldestOpen (s : State) : Nat :=
  (s.steps.filter (fun x => decide (x.aseq ≠ 0))).foldl (fun m x => min m x.aseq) s.journal.nextAseq

/-- Table 10-8. -/
def State.rows1200 (s : State) (w : Fin 2) : Rows :=
  let st := (s.journal.windowStart[w.val]).toNat
  [(1, entRo 8 s.journal.nextAseq),
   (2, entRw 8 st (fun v => s.writeWindowStart w (BitVec.ofNat 64 v))),
   (3, entRoB 256 ((List.range 8).flatMap (fun i => s.journalAt (st + i)))),
   (4, entRo 4 s.start.epoch.toNat), (5, entRo 8 s.oldestOpen)]

def State.rows1210 (s : State) (q : QueueId) : Rows :=
  [(1, entRw 4 (s.queue q).cword.toNat (fun v => s.writeCword q (BitVec.ofNat 32 v)))]

/-- Table 18-8: start records and Midwinter. -/
def State.rows1300 (s : State) (x : PdExt) : Rows :=
  [(1, entRo 1 s.start.mwReason.toNat), (2, entRo 4 s.start.startNext.toNat),
   (3, entRoB 128 (s.start.startLog.toList.flatMap (fun r => leBytes 16 r.toNat))), (4, entRo 1 s.start.bootCount.toNat),
   (5, (entExB 32 (fun bs => s.writeMwStep bs x.image x.desc)).denied (!s.inMidwinter) 2),
   (6, (entEx 1 (fun v => s.writeMwSelftest v x.coreFail x.sharedFail)).denied (!s.inMidwinter) 2),
   (7, entRo 16 s.start.mwResult.toNat)]

/-! ### 0x2000 to 0x2300: control port, attach, ports, translation -/

/-- Table 19-18. -/
def State.rows2000 (s : State) : Rows :=
  [(1, entRo 8 s.ctl.ignored.toNat), (2, entRo 8 s.ctl.bellsIgnored.toNat), (3, entRo 8 s.ctl.transactions.toNat),
   (4, entRo 8 s.ctl.aborts.toNat), (5, entRo 16 s.ctl.lastAbort.toNat), (6, entRo 1 s.ctl.peerEvents.toNat),
   (7, entEx 1 (fun v => s.clearPeerEvents (BitVec.ofNat 8 v)))]

def State.rows2100 (s : State) : Rows :=
  [(1, entRo 2 s.ctl.claim.toNat), (2, entRo 8 s.ctl.attachCount.toNat), (3, entRo 8 s.ctl.attachTime.toNat)]

/-- RT_LATENCY_NS, RT_RATE_MBS: refused while ARMED (R301). -/
def State.rows2200 (s : State) : Rows :=
  let armed := decide (s.rt.arm = .armed)
  let j := s.journal
  [(1, entRo 1 s.build.c),
   (2, entRw 4 j.rtLatencyNs.toNat (fun v => refuse armed 5 <| within 100 1000000 v <|
     done { s with journal := { j with rtLatencyNs := BitVec.ofNat 32 v } })),
   (3, entRw 4 j.rtRateMbs.toNat (fun v => refuse armed 5 <| within 1 76800 v <|
     done { s with journal := { j with rtRateMbs := BitVec.ofNat 32 v } }))]

/-- Table 12-7; of the port of an absent cluster only STATE, which reads 0. -/
def State.rows2210 (s : State) (n : PortId) : Rows :=
  let p := s.port n
  if s.build.c ≤ n.val then [(1, entRo 1 0)]
  else
    [(1, entRo 1 (portCode p.state)), (2, entEx 1 (fun v => s.writeResume n v)),
     (3, entRw 1 (b2n p.autoResume) (fun v => within 0 1 v <| done (s.modPort n (fun p => { p with autoResume := decide (v = 1) })))),
     (4, entRw 1 (b2n p.atomicEn) (fun v =>
       refuse (allParts.any (fun k => s.maskMeets k n.val && s.partStarted k)) 5 <| within 0 1 v <|
       done (s.modPort n (fun p => { p with atomicEn := decide (v = 1) })))),
     (5, entRw 4 p.timeout.toNat (fun v => within 10 10000 v <| done (s.modPort n (fun p => { p with timeout := BitVec.ofNat 32 v })))),
     (6, entRo 8 p.linkDrops.toNat), (7, entRo 8 p.errors.toNat), (8, entRo 16 p.lastError.toNat), (9, entRo 8 p.rtLate.toNat),
     (0x0A, entRo 8 p.bytesRead.toNat), (0x0B, entRo 8 p.bytesWritten.toNat)]

/-- Table 13-7. -/
def State.rows2300 (s : State) (w : Fin 2) (x : PdExt) : Rows :=
  let t := s.xlate
  let ast := s.journal.astSelect[w.val]
  [(1, entRo 2 1024), (2, entRo 1 16), (3, entRo 1 64),
   (0x10, entRw 2 ast.toNat (fun v => within 0 1023 v <|
     done { s with journal := { s.journal with astSelect := upd s.journal.astSelect w (fun _ => BitVec.ofNat 16 v) } })),
   (0x11, entRw 8 (s.root ast.toNat) (fun v => s.writeRoot w (BitVec.ofNat 64 v) x.walks)),
   (0x12, entEx 2 (fun v => s.writeInvalidate v x.walks)), (0x13, entRo 8 t.invalidations.toNat),
   (0x20, entRo 8 t.faults.toNat), (0x21, entRo 24 t.lastFault.toNat), (0x22, entRo 8 t.walks.toNat),
   (0x23, entRo 8 t.parityMisses.toNat), (0x30, entRo 1 16), (0x31, entRo 8 t.rtWalks.toNat)]

/-- RT_PIN (R317). -/
def State.rows2301 (s : State) (x : PdExt) : Rows :=
  (List.finRange 16).map (fun i => (1 + i.val,
    entRw 8 (s.xlate.pins[i.val]).toNat (fun v => s.writePin i (BitVec.ofNat 64 v) (x.walks.headD []))))

/-! ### 0x3000 to 0x3300: partitions, queues, scheduling, real time -/

def State.rows3000 (s : State) : Rows :=
  [(1, entRo 1 8), (2, entRo 1 (match s.rtPart with | some p => p.val | none => 0xFF))]

/-- FLOW_MODE (R263). -/
def State.writeFlowMode (s : State) (p : PartId) (v : Nat) : Served :=
  refuse (!s.partQuiet p) 5 <|
  refuse (decide (1 < v) || (decide (v = 0) && (match (s.part p).active with | some i => bitAt (imgFlags i.bytes) 2 | none => false))) 4 <|
  done (s.modPart p (fun x => { x with flowMode := BitVec.ofNat 8 v }))

/-- RT (R277, R347): one partition at most, a legal CORE_MASK, no remote window. -/
def State.writeRt (s : State) (p : PartId) (v : Nat) : Served :=
  refuse (!s.partQuiet p) 5 <|
  refuse (decide (1 < v) || (decide (v = 1) && (allParts.any (fun k => decide (k ≠ p) && (s.part k).rt) ||
    !rtMaskOk (s.part p).coreMask.toNat || (s.part p).dw.toList.any (fun y => bitAt y.toNat 3)))) 4 <|
  done (s.modPart p (fun x => { x with rt := decide (v = 1) }))

/-- IMAGE_AREA (R222, R265). -/
def State.writeImageArea (s : State) (p : PartId) (v : Nat) : Served :=
  let area : Region := (fld v 15 0 * 65536, fld v 31 16 * 65536)
  refuse (!s.partQuiet p) 5 <|
  refuse (decide (16 < fld v 31 16) ||
    (decide (area.2 ≠ 0) && (s.badPlace area || (s.windows (fun _ => true)).any (overlap area)))) 4 <|
  done (s.modPart p (fun x => { x with imageArea := BitVec.ofNat 32 v }))

/-- Table 11-1. -/
def State.rows3010 (s : State) (p : PartId) : Rows :=
  let x := s.part p
  [(1, entRw 4 x.coreMask.toNat (fun v => s.writeCoreMask p (BitVec.ofNat 32 v))),
   (2, entRw 1 x.flowMode.toNat (fun v => s.writeFlowMode p v)), (3, entRw 1 (b2n x.rt) (fun v => s.writeRt p v)),
   (4, entRw 4 x.imageArea.toNat (fun v => s.writeImageArea p v)),
   (5, entRw 4 x.watchdog.toNat (fun v => within 65536 0xFFFFFFFF v <| done (s.modPart p (fun x => { x with watchdog := BitVec.ofNat 32 v })))),
   (6, entEx 16 (fun v => s.writeLoad p v)), (7, entRo 16 x.loadStatus.toNat),
   (8, entRo 4 (match x.active with | some i => imgId i.bytes | none => 0)),
   (0x20, entRo 8 x.engineCclk.toNat), (0x21, entRo 8 x.killedCclk.toNat), (0x22, entRo 8 x.committed.toNat)] ++
  (List.finRange 4).map (fun w => (0x10 + w.val, entRw 8 (x.dw[w.val]).toNat (fun v => s.writeDw p w (BitVec.ofNat 64 v))))

/-- The bindings that R266 allows. -/
def State.bindingOk (s : State) (q : QueueId) (part cls : Nat) : Bool :=
  let rt := (s.parts.toList.getD part Partition.reset).rt
  decide (part < 8) && decide (cls < 4) && (decide (cls = 0) == rt) &&
  (decide (cls ≠ 0) || allQueues.all (fun k => decide (k = q) || decide ((s.queue k).cls ≠ 0)))

/-- An RWQ entry of a queue (R266): 0x05 first, then its range. -/
def State.writeQueue (s : State) (q : QueueId) (ok : Bool) (f : Queue → Queue) : Served :=
  refuse (!s.queueRest q) 5 <| refuse (!ok) 4 <| done (s.modQueue q f)

/-- STATE of a queue (Table 11-2). -/
def Queue.stateCode (x : Queue) : Nat := if x.stopped then 2 else b2n x.enable

/-- Table 11-2. -/
def State.rows3110 (s : State) (q : QueueId) : Rows :=
  let x := s.queue q
  [(1, entRw 1 (b2n x.enable) (fun v => s.writeEnable q v)),
   (2, entRw 1 x.part.val (fun v => s.writeQueue q (s.bindingOk q v x.cls.val)
     (fun y => { y with part := ⟨v % 8, Nat.mod_lt _ (by decide)⟩ }))),
   (3, entRw 1 x.cls.val (fun v => s.writeQueue q (s.bindingOk q x.part.val v)
     (fun y => { y with cls := ⟨v % 4, Nat.mod_lt _ (by decide)⟩ }))),
   (4, entRw 1 x.share.toNat (fun v => s.writeQueue q (decide (v ≠ 0)) (fun y => { y with share := BitVec.ofNat 8 v }))),
   (5, entRw 2 x.ast.toNat (fun v => s.writeQueue q (decide (v < 1024)) (fun y => { y with ast := BitVec.ofNat 16 v }))),
   (6, entRw 8 x.ringVa.toNat (fun v => s.writeQueue q (decide (v < 2 ^ 48 ∧ v % 128 = 0)) (fun y => { y with ringVa := BitVec.ofNat 64 v }))),
   (7, entRw 8 x.compVa.toNat (fun v => s.writeQueue q (decide (v < 2 ^ 48 ∧ v % 32 = 0)) (fun y => { y with compVa := BitVec.ofNat 64 v }))),
   (8, entRw 1 x.slotsLog2.toNat (fun v => s.writeQueue q (decide (4 ≤ v ∧ v ≤ 12)) (fun y => { y with slotsLog2 := BitVec.ofNat 8 v }))),
   (9, entRw 1 (b2n x.irqEn) (fun v => within 0 1 v <| done (s.modQueue q (fun y => { y with irqEn := decide (v = 1) })))),
   (0x0A, entRw 4 x.fetch.toNat (fun v => s.writeFetch q (BitVec.ofNat 32 v))), (0x0B, entRo 4 x.tail.toNat),
   (0x0C, entRo 1 x.stateCode), (0x0D, entEx 1 (fun v => s.writeKill q v)), (0x20, entRo 8 x.engineCclk.toNat),
   (0x21, entRo 8 x.killedCclk.toNat)]

/-- AGE_LIMIT (R271): the waits of the steps that wait are counted in the new period of v µs; with 0 no aging applies. -/
def State.setAgeLimit (s : State) (v : Nat) : State :=
  { s with journal := { s.journal with ageLimit := BitVec.ofNat 32 v },
           steps := s.steps.map (fun x => if x.state = .accepted ∨ x.state = .killed then
             { x with aged := if v = 0 then 0 else (s.now - x.since) / (16 * v) } else x) }

/-- Table 11-3. -/
def State.rows3200 (s : State) (w : Fin 2) : Rows :=
  let j := s.journal
  let sel := j.sessionSelect[w.val]
  let n := Tab.get ⟨0, 0, 0⟩ j.sessions sel.toNat
  [(1, entRw 4 j.timeSlice.toNat (fun v => within 10 100000 v <| done { s with journal := { j with timeSlice := BitVec.ofNat 32 v } })),
   (2, entRw 4 j.ageLimit.toNat (fun v => done (s.setAgeLimit v))),
   (3, entRo 1 2),
   (0x10, entRw 2 sel.toNat (fun v => within 0 1023 v <|
     done { s with journal := { j with sessionSelect := upd j.sessionSelect w (fun _ => BitVec.ofNat 16 v) } })),
   (0x11, entRo 8 n.accepted.toNat), (0x12, entRo 8 n.committed.toNat), (0x13, entRo 8 n.killed.toNat),
   (0x14, entEx 2 (fun v => s.writeSessionClear v))]

def ArmState.code : ArmState → Nat
  | .disarmed => 0 | .arming => 1 | .armed => 2 | .disarming => 3 | .halted => 4

/-- Table 11-4. -/
def State.rows3300 (s : State) : Rows :=
  [(1, entRo 1 s.rt.arm.code), (2, (entEx 1 (fun v => s.writeArm v)).denied s.rtPart.isNone 2), (3, entRo 1 s.rt.armResult.toNat),
   (4, entRo 1 s.rt.pend.length), (5, entRo 8 s.rt.refused.toNat),
   (6, entRw 4 s.rt.seq.toNat (fun v => refuse (decide (s.rt.arm = .armed)) 5 <|
     done { s with rt := { s.rt with seq := BitVec.ofNat 32 v } })),
   (7, entRo 4 s.rt.worstStart.toNat), (8, entRo 2 s.rt.slotValid.toNat)]

def State.rows3310 (s : State) (i : Fin 16) : Rows := [(1, entRwB 128 s.rt.slots[i.val] (fun bs => s.writeSlot i bs))]

/-! ### 0x4000 to 0x4400: loadable tables, routine library, weight sets -/

def State.rows4000 (s : State) : Rows :=
  [(1, entRo 1 64), (2, entRo 8 s.tables.cbMask.toNat), (3, entEx 8 (fun v => s.switchCodebooks (BitVec.ofNat 64 v)))]

/-- Table 3-3. -/
def State.rows4010 (s : State) (t : Fin 64) : Rows :=
  let a := s.tables.active.codebooks[t.val]
  [(1, entRoB 32 a.bytes), (2, (entRwB 32 s.tables.cbPending[t.val] (fun bs => s.writeCodebook t bs)).denied (decide (t.val = 0)) 2),
   (3, entRo 4 (crc32c a.bytes))]

def State.rows4100 (s : State) : Rows :=
  [(1, entRo 1 32), (2, entRo 4 s.tables.cvMask.toNat), (3, entEx 4 (fun v => s.switchCurves (BitVec.ofNat 32 v)))]

/-- Table 5-9: header and segments, pending and active. -/
def State.rows4110 (s : State) (c : Fin 32) : Rows :=
  let p := s.tables.cvPending[c.val]
  let a := curveBytes s.tables.active c
  let ro := decide (c.val < 8)
  [(1, (entRwB 64 (slice p 0 64) (fun bs => s.writeCurve c 0 64 bs)).denied ro 2), (6, entRo 4 (crc32c a)),
   (0x81, entRoB 64 (slice a 0 64))] ++
  (List.range 4).map (fun q => (2 + q, (entRwB 256 (slice p (64 + 256 * q) 256) (fun bs => s.writeCurve c (64 + 256 * q) 256 bs)).denied ro 2)) ++
  (List.range 4).map (fun q => (0x82 + q, entRoB 256 (slice a (64 + 256 * q) 256)))

def State.rows4200 (s : State) : Rows :=
  [(1, entEx 1 (fun v => s.switchPolicy v)), (2, entRo 4 s.tables.policyGen.toNat)]

/-- Table 3-5. -/
def State.rows4210 (s : State) (p : PartId) : Rows :=
  let x := s.tables.policyPending[p.val]
  let a := s.tables.active.policy[p.val]
  let k := s.part p
  let put := fun (f : Policy → Policy) => done (s.modTables (fun t => { t with policyPending := upd t.policyPending p f }))
  [(1, entRw 2 x.limit.toNat (fun v => put (fun y => { y with limit := BitVec.ofNat 16 v }))),
   (2, entRw 1 x.mask.toNat (fun v => within 0 15 v <| put (fun y => { y with mask := BitVec.ofNat 8 v }))),
   (3, entRw 1 (b2n x.twin) (fun v => within 0 1 v <| put (fun y => { y with twin := decide (v = 1) }))),
   (0x81, entRo 2 a.limit.toNat), (0x82, entRo 1 a.mask.toNat), (0x83, entRo 1 (b2n a.twin)),
   (0x20, entRo 8 k.lastNarrowed.toNat), (0x21, entRo 8 k.lastClipped.toNat), (0x22, entRo 8 k.twinRuns.toNat),
   (0x23, entRo 8 k.unserved.toNat)]

/-- The 32 bytes of a routine record (Table 9-9). -/
def RoutineRec.bytes (r : RoutineRec) : List Byte :=
  leBytes 2 r.id ++ leBytes 2 r.flags ++ leBytes 4 r.storeOff ++ leBytes 2 r.bundles ++ leBytes 2 r.minLen ++ leBytes 4 r.wcet ++
    leBytes 4 r.clobS ++ leBytes 4 r.clobV ++ leBytes 4 r.descOff ++ leBytes 4 r.crc

/-- Tables 9-10 and 18-8. -/
def State.rows4300 (s : State) : Rows :=
  let d := s.tables.active.dir
  let bs := d.flatMap RoutineRec.bytes
  [(1, entRo 2 d.length), (2, entRo 4 s.start.dirGen.toNat), (3, entEx 1 (fun v => s.switchDirectory v)), (4, entTable bs),
   (5, entTable ((s.start.pendingDir.getD []).flatMap RoutineRec.bytes)), (6, entRo 4 (if d = [] then 0 else crc32c bs)),
   (7, entEx 16 (fun v => s.writeLibraryLoad v)), (8, entRo 4 s.start.libraryState.toNat)]

def PendState.code : PendState → Nat
  | .none => 0 | .loading => 1 | .ready => 2 | .failed => 3

/-- Table 14-7. -/
def State.rows4400 (s : State) (w : Fin 2) : Rows :=
  let i := s.selectedSlot w
  let x := s.slotW i
  [(1, entRo 2 256), (2, entExB 64 (fun bs => s.switchSets bs)), (3, entRo 4 s.sets.equinoxGen.toNat),
   (8, entRo 8 s.sets.expBlocks.toNat), (9, entRo 8 s.sets.expFails.toNat), (0x0A, entRo 16 s.sets.expLastFail.toNat),
   (0x10, entRw 1 i.val (fun v => done { s with journal := { s.journal with
     setSelect := upd s.journal.setSelect w (fun _ => BitVec.ofNat 8 v) } })),
   (0x11, entRo 4 (if x.used then i.val + 256 * x.gen else 0)),
   (0x12, entRwB 32 (match x.pending with | some v => v.record | none => List.replicate 32 0) (fun bs => s.writePending w bs)),
   (0x13, entRo 1 x.pendState.code), (0x14, entRo 1 x.loadResult.toNat),
   (0x15, entRoB 32 (match x.active with | some v => v.record | none => List.replicate 32 0)),
   (0x16, entRo 1 (match x.active with | some v => 1 + b2n v.lost | none => 0)),
   (0x17, entRo 4 (match x.active with | some v => s.boundCount i.val v.serial | none => 0)),
   (0x18, entRo 4 ((x.retiring.map (fun v => s.boundCount i.val v.serial)).sum)), (0x19, entEx 1 (fun v => s.deleteVersion w v))]

/-! ### 0x5000 to 0x5200: seasons, power, estimator -/

/-- Code of Table 16-2. -/
def Season.code : Season → Nat
  | .winter => 0 | .thaw => 1 | .spring => 2 | .summer => 3 | .autumn => 4

/-- Whether a CAP_MW or a PSTATE_MAX would fail R376 while the partition is ARMED. -/
def State.breaksFloor (s : State) (cap pmax : Nat) : Bool :=
  decide (s.rt.arm = .armed) && (match s.rtPart with
    | some p => (match (s.part p).active with | some i => !s.floorHolds p i cap pmax | none => false)
    | none => false)

/-- A set of cores in the layout of CORE_MAP. -/
def coreBits (cs : List (Fin 20)) : Nat := (cs.foldl (fun (m : BitVec 20) c => putBit m c.val) 0).toNat

/-- Table 16-9; `rwm` says that a write of an RWM entry is turned away (R349). PSTATE_MAX is not slower than the stack floor
(R368). -/
def State.rows5000 (s : State) (rwm : Bool) : Rows :=
  let p := s.power
  let set := fun (f : PowerSt → PowerSt) => done (s.modPower f)
  [(1, entRo 1 p.season.code),
   (2, entRw 4 p.idleTimeout.toNat (fun v => within 0 10000000 v <| set (fun p => { p with idleTimeout := BitVec.ofNat 32 v }))),
   (3, entRw 4 p.drainLimit.toNat (fun v => within 10 10000 v <| set (fun p => { p with drainLimit := BitVec.ofNat 32 v }))),
   (4, entRw 1 p.retainMask.toNat (fun v => set (fun p => { p with retainMask := BitVec.ofNat 8 v }))),
   (5, entRw 8 p.wakeAt.toNat (fun v => set (fun p => { p with wakeAt := BitVec.ofNat 64 v }))),
   (6, (entRw 1 (b2n p.stackWinter) (fun v => within 0 1 v <| set (fun p => { p with stackWinter := decide (v = 1) }))).denied rwm 7),
   (7, entRo 8 p.winters.toNat), (8, entRo 8 p.autumnAborts.toNat), (9, entRo 4 p.lastThawNs.toNat), (0x0A, entRo 4 s.refKhz),
   (0x10, entRo 1 p.pstate.val),
   (0x11, (entRw 1 p.pstateMax.val (fun v => refuse (decide (5 < v) || decide (s.link.stackFloor < v) || s.breaksFloor p.capMw.toNat v) 4 <|
     set (fun p => { p with pstateMax := pst v }))).denied rwm 7),
   (0x12, entRo 1 s.limit.val), (0x13, entRo 1 s.limitCause), (0x14, entRo 8 p.pstChanges.toNat),
   (0x20, entRw 4 p.capMw.toNat (fun v => within 500 s.build.capMw.toNat v <| refuse (s.breaksFloor v p.pstateMax.val) 4 <|
     set (fun p => { p with capMw := BitVec.ofNat 32 v }))),
   (0x21, entRo 4 p.estimateMw.toNat),
   (0x22, entRw 4 p.capHold.toNat (fun v => within 4 100000 v <| set (fun p => { p with capHold := BitVec.ofNat 32 v }))),
   (0x23, entRo 4 (coreBits p.parked)), (0x24, entRo 8 p.capUnheld.toNat)]

def Thermal.code : Thermal → Nat
  | .normal => 0 | .warm => 1 | .critical => 2 | .shutdown => 2

/-- Table 16-10; T_WARN < T_CRIT < 115 °C (R377). -/
def State.rows5100 (s : State) : Rows :=
  let p := s.power
  let set := fun (f : PowerSt → PowerSt) => done (s.modPower f)
  [(1, entRw 4 p.alertHold.toNat (fun v => within 10 1000000 v <| set (fun p => { p with alertHold := BitVec.ofNat 32 v }))),
   (2, entRo 8 p.alerts.toNat), (3, entRo 8 p.rtStretches.toNat),
   (0x10, entRw 4 p.tWarn.toNat (fun v => refuse (decide (p.tCrit.toInt ≤ sgn 32 v)) 4 <|
     set (fun p => { p with tWarn := BitVec.ofNat 32 v }))),
   (0x11, entRw 4 p.tCrit.toNat (fun v => refuse (decide (sgn 32 v ≤ p.tWarn.toInt ∨ 115 ≤ sgn 32 v)) 4 <|
     set (fun p => { p with tCrit := BitVec.ofNat 32 v }))),
   (0x12, entRo 4 115), (0x13, entRo 4 p.tempMax.toNat), (0x14, entRo 1 p.thermal.code),
   (0x15, entRw 4 p.thermalRest.toNat (fun v => within 100 60000 v <| set (fun p => { p with thermalRest := BitVec.ofNat 32 v })))]

/-- A direct write of an entry that a calibration set covers (R417). -/
def State.calWrite (s : State) (f : PowerSt → PowerSt) : Served := done ((s.modPower f).modStart (fun x => { x with calModified := true }))

/-- Table 16-10: the entries of a core. -/
def State.rows5110 (s : State) (c : CoreId) : Rows :=
  let p := s.power
  [(1, entRw 1 (p.droopLevel[c.val]).toNat (fun v => within 4 64 v <|
     s.calWrite (fun p => { p with droopLevel := upd p.droopLevel c (fun _ => BitVec.ofNat 8 v) }))),
   (2, entRw 1 (p.droopHyst[c.val]).toNat (fun v => within 1 16 v <|
     s.calWrite (fun p => { p with droopHyst := upd p.droopHyst c (fun _ => BitVec.ofNat 8 v) }))),
   (3, entRo 8 (p.stretches[c.val]).toNat)]

/-- Table 16-11. -/
def State.rows5200 (s : State) : Rows :=
  let p := s.power
  [(1, entRwB 64 p.coeff (fun bs => s.calWrite (fun p => { p with coeff := bs }))),
   (2, entRwB 12 p.dyn (fun bs => s.calWrite (fun p => { p with dyn := bs }))),
   (3, entRwB 12 p.leak (fun bs => s.calWrite (fun p => { p with leak := bs }))),
   (4, entRwB 12 p.unc (fun bs => s.calWrite (fun p => { p with unc := bs }))),
   (5, entRwB 12 p.full (fun bs => s.calWrite (fun p => { p with full := bs }))), (6, entRo 4 p.calFactor.toNat),
   (7, entRw 4 p.calPeriod.toNat (fun v => within 1000 1000000 v <| done (s.modPower (fun p => { p with calPeriod := BitVec.ofNat 32 v })))),
   (8, entRw 4 p.tlmLsb.toNat (fun v => done (s.modPower (fun p => { p with tlmLsb := BitVec.ofNat 32 v })))),
   (9, entRo 8 p.calOut.toNat)]

/-! ### 0x6000 to 0x6200: health, lockstep, scrub -/

/-- A record of a log by its number; zeros once overwritten (R399), or not yet written. -/
def logRecord (log : Tab QWord) (next size n : Nat) : List Byte :=
  if n < next ∧ next ≤ n + size then leBytes 16 (Tab.get 0 log (n % size)).toNat else List.replicate 16 0

/-- Table 17-7. -/
def State.rows6000 (s : State) (w : Fin 2) : Rows :=
  let f := s.fault
  let sel := (s.journal.healthSelect[w.val]).toNat
  [(1, entRo 8 f.healthNext.toNat),
   (2, entRw 8 sel (fun v => done { s with journal := { s.journal with
     healthSelect := upd s.journal.healthSelect w (fun _ => BitVec.ofNat 64 v) } })),
   (3, entRoB 256 ((List.range 16).flatMap (fun i => logRecord f.health f.healthNext.toNat 64 (sel + i)))),
   (4, entRo 8 f.stewardFaults.toNat),
   (5, entRo 1 ((f.stewards.toList.zipIdx.map (fun y => b2n y.1.retired * 2 ^ y.2)).sum))]

/-- ROLE (Table 17-7). -/
def State.role (s : State) (c : CoreId) : Nat :=
  let i := indexOf c
  let own := decide (c.val < 5)
  if s.fuseBit c.val then 6
  else if s.fault.retired.getLsbD c.val then 5
  else if own && s.fault.pairs.toList.any (fun y => decide (y.lead = some i)) then 2
  else if own && s.fault.pairs.toList.any (fun y => decide (y.checker = some i)) then 3
  else if own && decide (s.fault.hotSpare = some i) then 4
  else if decide (c.val % 5 = 4) then b2n (s.substOf (c.val / 5)).isSome
  else b2n (s.usable c && allParts.any (fun p => !(s.part p).rt && (s.part p).coreMask.getLsbD c.val))

/-- Table 17-7: the entries of a core. -/
def State.rows6010 (s : State) (c : CoreId) : Rows :=
  let h := s.fault.cores[c.val]
  [(1, entRo 8 h.frost.toNat), (2, entRo 8 h.mvpWaits.toNat), (3, entRo 4 h.slowWindows.toNat), (4, entRo 8 h.slowEvents.toNat),
   (5, entRo 2 h.aging.toNat), (6, entRo 8 h.selftestLast.toNat), (7, entRo 4 h.selftestFails.toNat),
   (8, entRo 4 h.arrayEvents.toNat), (9, entRo 1 (s.role c))]

/-- A nibble of PAIR_MAP. -/
def pairNibble (x : Option (Fin 5)) : Nat := match x with | some i => i.val | none => 15

/-- PAIR_MAP (Table 17-8). -/
def FaultSt.pairMap (f : FaultSt) : Nat :=
  pairNibble f.pairs[0].lead + pairNibble f.pairs[0].checker * 16 + pairNibble f.pairs[1].lead * 2 ^ 8 +
    pairNibble f.pairs[1].checker * 2 ^ 12 + pairNibble f.hotSpare * 2 ^ 16

/-- Tables 17-8 and 18-8. -/
def State.rows6100 (s : State) : Rows :=
  let f := s.fault
  let set := fun (g : FaultSt → FaultSt) => done (s.modFault g)
  let moving := decide (s.rt.arm ≠ .disarmed ∧ s.rt.arm ≠ .halted)
  [(1, entRo 1 f.lockstep.toNat), (2, entRo 4 f.pairMap),
   (3, entRw 1 (b2n f.degradedOk) (fun v => refuse moving 5 <| within 0 1 v <| set (fun f => { f with degradedOk := decide (v = 1) }))),
   (4, entRw 1 (b2n f.borrowOk) (fun v => refuse moving 5 <| within 0 1 v <| set (fun f => { f with borrowOk := decide (v = 1) }))),
   (5, entRo 1 f.haltReason.toNat), (6, entRo 8 f.mismatches.toNat), (7, entRo 8 f.failovers.toNat),
   (8, entRo 4 f.worstInterruption.toNat), (9, entRo 8 f.rtUnavailable.toNat), (0x0A, entRo 8 f.wcetOverruns.toNat),
   (0x10, entRo 4 f.rtFaultNext.toNat), (0x11, entRoB 256 ((List.range 16).flatMap (fun i => leBytes 16 (Tab.get 0 f.rtFaults i).toNat))),
   (0x20, entRo 4 f.spareSubst.toNat), (0x21, entRo 4 f.retired.toNat), (0x22, entRo 4 f.borrowed.toNat),
   (0x23, entRw 1 f.slowRetire.toNat (fun v => set (fun f => { f with slowRetire := BitVec.ofNat 8 v }))),
   (0x24, entRw 1 f.agingWarn.toNat (fun v => set (fun f => { f with agingWarn := BitVec.ofNat 8 v }))),
   (0x25, entRw 1 f.agingRetire.toNat (fun v => refuse (decide (f.agingWarn.toNat ≤ v)) 4 <|
     set (fun f => { f with agingRetire := BitVec.ofNat 8 v }))),
   (0x26, entRw 4 f.selftestPeriod.toNat (fun v => within 10 3600000 v <| set (fun f => { f with selftestPeriod := BitVec.ofNat 32 v }))),
   (0x30, entEx 1 (fun v => s.writeService v)), (0x31, entRo 1 f.serviceState.toNat)]

/-- Table 7-8. -/
def State.rows6200 (s : State) : Rows :=
  let x := s.scrub
  [(1, entRw 1 (b2n x.enable) (fun v => within 0 1 v <| done { s with scrub := { x with enable := decide (v = 1) } })),
   (2, entRw 2 x.interval.toNat (fun v => refuse (decide (v = 0)) 4 <| done { s with scrub := { x with interval := BitVec.ofNat 16 v } })),
   (3, entRo 8 x.deepPassEnd.toNat)]

def State.rows6210 (s : State) (r : Fin 6) : Rows :=
  let x := s.scrub
  [(1, entRo 8 (x.corrected[r.val]).toNat), (2, entRo 8 (x.uncorrectable[r.val]).toNat), (3, entRo 8 (x.refused[r.val]).toNat),
   (4, entRo 8 (x.lastLoc[r.val]).toNat), (5, entRo 8 (x.lastTime[r.val]).toNat)]

/-! ### 0x7000 to 0x8100: the Stack Link, slots, calibration -/

def LinkPortState.code : LinkPortState → Nat
  | .unconnected => 0 | .down => 1 | .up => 2 | .failed => 3 | .miswired => 4

/-- Table 15-6. -/
def State.rows7000 (s : State) (rwm : Bool) : Rows :=
  let x := s.link
  [(1, entRo 1 s.pins.inst.val), (2, entRo 1 (b2n s.pins.master)), (3, entRo 1 x.stackState.toNat), (4, entRo 1 x.reachable.toNat),
   (5, entRo 1 x.masterId.toNat),
   (6, (entRw 4 x.linkTimeout.toNat (fun v => within 5 10000 v <| done (s.modSt (fun x => { x with linkTimeout := BitVec.ofNat 32 v })))).denied rwm 7),
   (7, (entRw 1 x.replayLimit.toNat (fun v => within 1 255 v <| done (s.modSt (fun x => { x with replayLimit := BitVec.ofNat 8 v })))).denied rwm 7),
   (8, entRo 8 x.chainDropped.toNat)]

def State.rows7010 (s : State) (l : LinkId) : Rows :=
  let p := s.link.ports[l.val]
  [(1, entRo 1 p.state.code), (2, entRo 8 p.crcErrors.toNat), (3, entRo 8 p.replays.toNat), (4, entRo 8 p.linkFails.toNat),
   (5, entRo 8 p.protoErrors.toNat)]

def State.rows7020 (s : State) (e : Fin 8) : Rows :=
  [(1, entRo 1 (s.link.peerState[e.val]).toNat), (2, entRo 4 (s.link.peerEpoch[e.val]).toNat)]

/-- CHAIN_OUT, CHAIN_NEED, CHAIN_CREDIT (R351). -/
def State.rows7040 (s : State) (q : QueueId) : Rows :=
  let x := s.link
  [(1, entRwB 16 (leBytes 16 (x.chainOut[q.val]).toNat) (fun bs =>
     refuse ((List.range 8).any (fun i => decide (fld (leAt bs (2 * i) 2) 14 9 ≠ 0))) 4 <|
     done (s.modSt (fun x => { x with chainOut := upd x.chainOut q (fun _ => BitVec.ofNat 128 (leNat bs)) })))),
   (2, entRw 1 (x.chainNeed[q.val]).toNat (fun v => refuse (!s.queueRest q) 5 <| within 0 7 v <|
     done (s.modSt (fun x => { x with chainNeed := upd x.chainNeed q (fun _ => BitVec.ofNat 8 v) })))),
   (3, entRw 4 (x.chainCredit[q.val]).toNat (fun v => refuse (!s.queueRest q) 5 <|
     done (s.modSt (fun x => { x with chainCredit := upd x.chainCredit q (fun _ => BitVec.ofNat 32 v) }))))]

def State.rows7110 (s : State) (k : Fin 2) (rwm : Bool) (w : Fin 4) : Rows :=
  let x := s.link
  [(1, (entRw 8 (x.iw[w.val]).toNat (fun v => s.writeIw k w (BitVec.ofNat 64 v))).denied rwm 7),
   (2, entRo 8 (x.iwRefused[w.val]).toNat), (3, entRo 8 (x.iwBytesIn[w.val]).toNat)]

/-- Table 18-8. -/
def State.rows8000 (s : State) (x : PdExt) : Rows :=
  let t := s.start
  [(1, entRo 1 (b2n t.activeSlot)),
   (2, entRw 1 (b2n t.nextSlot) (fun v => within 0 1 v <| done (s.modStart (fun t => { t with nextSlot := decide (v = 1) })))),
   (3, entRo 4 t.fwVersion.toNat), (4, entRo 4 Config.romVersion.toNat), (5, entEx 1 (fun v => s.writeFwUpdate v x.image)),
   (6, entRo 4 t.updateState.toNat), (7, entRo 1 s.svnMin)]

def State.rows8010 (s : State) (b : Bool) (x : PdExt) : Rows :=
  [(1, (entRwB 32 (s.slotRecord b) (fun bs => s.writeSlotRecord b bs x.image)).denied
    (!s.inMidwinter && decide (b = s.start.activeSlot)) 2)]

def State.rows8100 (s : State) : Rows :=
  [(1, entEx 1 (fun v => s.switchCal v)), (2, entRo 4 (leAt s.start.calActive 248 4)), (3, entRo 1 (b2n s.start.calModified))]

/-- CAL_PENDING: its reserved bytes are 0 (R431, Table 18-7). -/
def State.rows8110 (s : State) : Rows :=
  [(1, entRwB 256 s.start.calPending (fun bs => refuse (decide (leAt bs 170 78 ≠ 0)) 4 <|
     done (s.modStart (fun t => { t with calPending := bs })))),
   (2, entRoB 256 s.start.calActive)]

/-! ### The catalogue (R439) -/

/-- An index base + k, k below a bound. -/
def ofIndex (n base i : Nat) : Option (Fin n) := if h : i - base < n then (if base ≤ i then some ⟨i - base, h⟩ else none) else none

/-- The rows of one of a range of indices. -/
def rowsAt {n : Nat} (base i : Nat) (f : Fin n → Rows) : Rows := match ofIndex n base i with | some k => f k | none => []

/-- The entries of an index: those of absent ports and cores do not exist (Table 19-16). -/
def State.rows (s : State) (r : PdReq) (x : PdExt) : Rows :=
  let i := r.index
  let w := requester r
  let rwm := !r.fromMaster && !s.ownsRwm
  let core := fun (f : CoreId → Rows) (c : CoreId) => if s.build.coreMap.getLsbD c.val then f c else []
  if i < 0x4000 then
    if i = 0x1000 then s.rows1000 else if i = 0x1100 then s.rows1100 else if i = 0x1200 then s.rows1200 w
    else if i = 0x1300 then s.rows1300 x else if i = 0x2000 then s.rows2000 else if i = 0x2100 then s.rows2100
    else if i = 0x2200 then s.rows2200 else if i = 0x2300 then s.rows2300 w x else if i = 0x2301 then s.rows2301 x
    else if i = 0x3000 then s.rows3000 else if i = 0x3200 then s.rows3200 w else if i = 0x3300 then s.rows3300
    else rowsAt 0x1210 i s.rows1210 ++ rowsAt 0x2210 i s.rows2210 ++ rowsAt 0x3010 i s.rows3010 ++ rowsAt 0x3110 i s.rows3110 ++
      (if i = 0x3100 then [(1, entRo 1 64)] else []) ++ rowsAt 0x3310 i s.rows3310
  else if i < 0x6000 then
    if i = 0x4000 then s.rows4000 else if i = 0x4100 then s.rows4100 else if i = 0x4200 then s.rows4200
    else if i = 0x4300 then s.rows4300 else if i = 0x4400 then s.rows4400 w else if i = 0x5000 then s.rows5000 rwm
    else if i = 0x5100 then s.rows5100 else if i = 0x5200 then s.rows5200
    else rowsAt 0x4010 i s.rows4010 ++ rowsAt 0x4110 i s.rows4110 ++ rowsAt 0x4210 i s.rows4210 ++ rowsAt 0x5110 i (core s.rows5110)
  else
    if i = 0x6000 then s.rows6000 w else if i = 0x6100 then s.rows6100 else if i = 0x6200 then s.rows6200
    else if i = 0x7000 then s.rows7000 rwm else if i = 0x8000 then s.rows8000 x else if i = 0x8010 then s.rows8010 false x
    else if i = 0x8011 then s.rows8010 true x else if i = 0x8100 then s.rows8100 else if i = 0x8110 then s.rows8110
    else rowsAt 0x6010 i (core s.rows6010) ++ rowsAt 0x6210 i s.rows6210 ++ rowsAt 0x7010 i s.rows7010 ++
      rowsAt 0x7020 i s.rows7020 ++ rowsAt 0x7040 i s.rows7040 ++ rowsAt 0x7110 i (s.rows7110 w rwm)

/-- The entry that a transaction names, if it is defined. -/
def State.entry (s : State) (r : PdReq) : Option Entry := (s.rows r (r.ext.getD PdExt.empty)).lookup r.sub

/-- What Tables 19-15 and 19-16 refuse of a transaction on an entry, before its value is looked at: 0x02 and 0x07. -/
def Entry.refusal (e : Entry) (write : Bool) : Option Nat :=
  match e.acc, write with
  | .ex, false => some 2
  | .ro, true => some 2
  | .table, true => some 2
  | _, true => e.deny
  | _, false => none

/-- A READ (R431). -/
def Entry.read (e : Entry) (s : State) (len offset : Nat) : Served :=
  match e.acc with
  | .table => refuse (decide (len ≠ 256 ∨ offset % 256 ≠ 0 ∨ e.val.length < offset)) 3 <| .ok (s, (e.val.drop offset).take 256)
  | _ => refuse (decide (len ≠ e.size ∨ offset ≠ 0)) 3 <| .ok (s, e.val)

/-- A READ or a WRITE of one entry of this engine (R430 to R433). -/
def State.pdEntry (r : PdReq) (s : State) : Served :=
  match s.entry r with
  | none => .error 1
  | some e => match e.refusal r.write with
    | some c => .error c
    | none =>
      if r.write then refuse (decide (r.len ≠ e.size ∨ r.offset ≠ 0)) 3 <| e.put (slice r.data 0 e.size)
      else e.read s r.len r.offset

end Sys2Proof.Machine
end

