-- ==== Sys2Proof/Machine/Pd.lean ====
section
/-!
DEFINITION. Transactions of any entry through the mailbox, relayed transactions, the registers of the control port
(R420 to R437).
-/
namespace Sys2Proof.Machine

/-! ### Relayed transactions (R433, R437) -/

/-- REMOTE = 1 on an engine that is not the master: 0x07, after what comes before it in Table 19-16. -/
def State.notMaster (r : PdReq) (s : State) : Served :=
  match s.entry r with
  | none => .error 1
  | some e => if e.refusal r.write = some 2 then .error 2 else .error 7

/-- Whether the target of a relayed transaction is there. -/
def State.targetUp (s : State) (e : Nat) : Bool := decide ((s.link.peerState.toList.getD e 0) = 1)

/-- A PDMSG: its kind (0 request, 1 answer), the entry, LEN and OFFSET, or the abort code and the bytes returned. -/
def State.pdMsg (s : State) (dst tag : Nat) (fields : List Nat) (data : List Byte) : TxMsg :=
  let n := min 8 (ceilDiv data.length 32)
  TxMsg.ofMsg { hdr := msgHeader 14 s.pins.inst.val dst 0 0 tag n 0 0 0 0 (Config.mgtEncode 14 fields),
                data := bytesFlits n data }

/-- Relay a transaction to its target; it stays BUSY until the answer or the timeout. -/
def State.relayOut (s : State) (r : PdReq) : State :=
  let tag := s.link.nextTag
  let s := s.modSt (fun x => { x with relay := some (r, tag), nextTag := (tag + 1) % 256 })
  s.sendMsg (s.pdMsg r.engine tag [0, b2n r.write, r.index, r.sub, r.len, r.offset] (if r.write then r.data.take (min 256 r.len) else []))

/-- What a write of the seasons' entries sets going: the limit is judged again. -/
def State.afterWrite (s : State) (r : PdReq) : State := if r.write ∧ r.index = 0x5000 then s.relimit else s

/-- A write of PSTATE_MAX that the master refuses for the stack floor (R368). -/
def State.belowFloor (s : State) (r : PdReq) : Bool :=
  r.write && decide (r.index = 0x5000 ∧ r.sub = 0x11 ∧ r.len = 1 ∧ r.offset = 0) && decide (s.link.stackFloor < leNat (r.data.take 1))

/-- Serve a transaction of the own mailbox, or relay it. -/
def State.pdGo (s : State) (r : PdReq) : State :=
  if !r.remote then (s.pdRun r (State.pdEntry r)).afterWrite r
  else if r.engine ≠ s.pins.inst.val ∧ !s.targetUp r.engine then s.pdRun r (fun _ => .error 1)
  else if !s.pins.master then s.pdRun r (State.notMaster r)
  else if r.engine = s.pins.inst.val then (s.pdRun r (State.pdEntry r)).afterWrite r
  else if s.belowFloor r then s.pdRun r (fun _ => .error 4)
  else s.relayOut r

/-- A transaction that starts (R429); what its write meets outside, if it reads anything, is not part of the command. -/
def State.pdTransaction (s : State) (r : PdReq) : Out :=
  if r.write then
    let r := { r with ext := some (PdExt.free s.ctl.extNext) }
    ({ s with ctl := { s.ctl with extNext := s.ctl.extNext + 1 } }).pdBegin r (fun s => s.pdGo r)
  else s.pdBegin r (fun s => s.pdGo r)

/-- PD_READ (R429, R431). -/
def execPdRead (async remote : Bool) (engine : Fin 8) (index : Half) (sub : Byte) (len : BitVec 9) (offset : Half) (s : State) : Out :=
  s.pdTransaction { write := false, async := async, remote := remote, engine := engine.val, index := index.toNat, sub := sub.toNat,
                    len := len.toNat, offset := offset.toNat, data := [], fromMaster := false, ext := none }

/-- PD_WRITE (R429, R430). -/
def execPdWrite (async remote : Bool) (engine : Fin 8) (index : Half) (sub : Byte) (len : BitVec 9) (offset : Half) (bs : List Byte)
    (s : State) : Out :=
  s.pdTransaction { write := true, async := async, remote := remote, engine := engine.val, index := index.toNat, sub := sub.toNat,
                    len := len.toNat, offset := offset.toNat, data := bs, fromMaster := false, ext := none }

/-- A request of the master: served and answered, counted on this engine (R433); an invalidation is answered while marked walks are
still out (DESIGN CHOICE; assumption log 49). -/
def State.serveRelayed (s : State) (m : Msg) : State :=
  let f := fun i => Config.mgtField 14 i (hMgt m.hdr)
  let write := decide (f 1 ≠ 0)
  let r : PdReq := { write := write, async := false, remote := false, engine := 0, index := f 2 % 65536, sub := f 3 % 256,
                     len := f 4 % 512, offset := f 5 % 65536, data := flitBytes m.data, fromMaster := true,
                     ext := some (PdExt.free s.ctl.extNext) }
  let s := { s with ctl := { s.ctl with extNext := s.ctl.extNext + 1 } }
  let answer := fun (s : State) (code : Nat) (bs : List Byte) => s.sendMsg (s.pdMsg (hSrc m.hdr) (hTag m.hdr) [1, code, bs.length] bs)
  match s.pdServe r (State.pdEntry r) with
  | .ok (t, bs) => (answer (t.endInvalidate.pdCount r none) 0 bs).afterWrite r
  | .error e => answer (s.pdCount r (some e)) e []
  | .fail e t => answer (t.pdCount r (some e)) e []

/-- The answer of a target: it ends the transaction that waits for it (R437). -/
def State.takeAnswer (s : State) (m : Msg) : State :=
  let f := fun i => Config.mgtField 14 i (hMgt m.hdr)
  match s.link.relay with
  | none => s
  | some (r, tag) =>
    if tag ≠ hTag m.hdr ∨ r.engine ≠ hSrc m.hdr then s
    else
      let s := s.modSt (fun x => { x with relay := none })
      if f 1 = 0 then (s.pdCount r none).pdEnd r (.ok ((flitBytes m.data).take (f 2)))
      else (s.pdCount r (some (f 1 % 256))).pdEnd r (.error (f 1 % 256))

/-- PDMSG (R436, R437): a request wakes the stewards and is served once they run (R434); one that the master did not send is
dropped. -/
def execPdmsg (l : LinkId) (s : State) : Out :=
  if s.linkOn && !s.awake && (headMsg 14 (s.link.ports[l.val]).rxMgt).isSome then .next s.wake
  else s.onMgt l 14 (fun s m =>
    if Config.mgtField 14 0 (hMgt m.hdr) = 0 then (if s.link.masterId.toNat = hSrc m.hdr ∧ !s.pins.master then s.serveRelayed m else s)
    else s.takeAnswer m)

/-- RELAY_TIMEOUT (R437). -/
def execRelayTimeout (s : State) : Out :=
  match s.link.relay with
  | some (r, _) => .next (((s.modSt (fun x => { x with relay := none })).pdCount r (some 6)).pdEnd r (.error 6))
  | none => .next s

/-! ### Registers (R420 to R428, Tables 19-1 to 19-13) -/

/-- PD_CTRL (Table 19-10): the transaction that PD_ADDR, PD_LEN and PD_DATA describe. -/
def State.writePdCtrl (s : State) (v : Nat) : Out :=
  let op := v % 4
  if 8 ≤ v ∨ op = 0 ∨ op = 3 then .next s
  else
    let a := s.ctl.pdAddr.toNat
    let n := s.ctl.pdLen.toNat
    s.pdTransaction { write := decide (op = 2), async := bitAt v 2, remote := bitAt a 27, engine := fld a 26 24, index := fld a 23 8,
                      sub := fld a 7 0, len := fld n 8 0, offset := fld n 31 16, data := s.ctl.pdData, fromMaster := false, ext := none }

/-- BOOT_CTRL (Table 18-1). -/
def State.writeBootCtrl (s : State) (v : Nat) : Out :=
  let s := s.modStart (fun x => { x with firstSlot := bitAt v 1 })
  if bitAt v 0 then execStart s else .next s

/-- A 32-bit write at an offset of Table 19-1; other offsets ignore writes (R420). -/
def State.writeRegister (s : State) (off : Nat) (v : Word) : Out :=
  let ctl := fun (f : CtlSt → CtlSt) => .next { s with ctl := f s.ctl }
  if off = 0x24 then ctl (fun c => { c with irqEnable := BitVec.ofNat 8 v.toNat })
  else if off = 0x28 then execIrqClear v s
  else if off = 0x40 then
    .next (if s.start.state = .unstarted then s.modStart (fun x => { x with bootLo := v &&& 0xFFFFF000 }) else s)
  else if off = 0x44 then
    .next (if s.start.state = .unstarted then s.modStart (fun x => { x with bootHi := v &&& 0x0000FFFF }) else s)
  else if off = 0x48 then s.writeBootCtrl v.toNat
  else if h : 0x100 ≤ off ∧ off < 0x200 then execDoorbell ⟨(off - 0x100) / 4, by omega⟩ v s
  else if off = 0x200 then s.writePdCtrl v.toNat
  else if off = 0x204 then ctl (fun c => { c with pdAddr := v &&& 0x0FFFFFFF })
  else if off = 0x208 then ctl (fun c => { c with pdLen := v &&& 0xFFFF01FF })
  else if 0x300 ≤ off ∧ off < 0x400 then ctl (fun c => { c with pdData := overwrite c.pdData (off - 0x300) (leBytes 4 v.toNat) })
  else if off = 0x400 then execRtDoorbell v s
  else if off = 0x404 then execRtArm v s
  else if off = 0x800 then execAttach v s
  else .next s

/-- CTL_REGISTER_WRITE (R420 to R422): with byte enables missing, ignored and counted. -/
def execCtlRegisterWrite (off : BitVec 14) (be : BitVec 4) (v : Word) (s : State) : Out :=
  if s.ctl.inReset then .next s
  else if be ≠ 15 then .next { s with ctl := { s.ctl with ignored := s.ctl.ignored + 1 } }
  else if off.toNat % 4 ≠ 0 then .next s
  else s.writeRegister off.toNat v

/-! ### What the host reads and sees (Tables 19-2 to 19-13, 18-1, 19-8): no command, but what the state means -/

/-- CAPS (Table 19-3). -/
def State.caps (s : State) : Nat :=
  s.build.c % 8 + s.build.k % 8 * 2 ^ 3 + s.build.a % 8 * 2 ^ 6 + s.build.d / 128 % 8 * 2 ^ 9 + s.pins.inst.val * 2 ^ 12 +
    b2n s.pins.master * 2 ^ 15 + b2n (s.pins.latched && !s.fuseBit 4) * 2 ^ 16

def BootState.code : BootState → Nat
  | .unstarted => 0 | .starting => 1 | .probation => 2 | .running => 3 | .midwinter => 4

def PdState.code : PdState → Nat
  | .idle => 0 | .busy => 1 | .done => 2 | .aborted => 3

/-- The value that a read of a register returns (R420): 0 at an offset that Table 19-1 does not list. -/
def State.readRegister (s : State) (off : Nat) : Word :=
  let c := s.ctl
  if off = 0 then 0x56490301
  else if off = 4 then 0x00030200
  else if off = 8 then BitVec.ofNat 32 s.caps
  else if off = 0x10 then
    BitVec.ofNat 32 (s.power.season.code + s.power.pstate.val * 2 ^ 4 + b2n (decide (s.rt.arm = .armed)) * 2 ^ 8)
  else if off = 0x20 then BitVec.ofNat 32 c.irqStatus.toNat
  else if off = 0x24 then BitVec.ofNat 32 c.irqEnable.toNat
  else if off = 0x40 then s.start.bootLo
  else if off = 0x44 then s.start.bootHi
  else if off = 0x48 then
    BitVec.ofNat 32 (b2n s.start.firstSlot * 2 + s.start.state.code * 2 ^ 4 + s.start.bootCount.toNat * 2 ^ 8 +
      b2n s.start.activeSlot * 2 ^ 10)
  else if h : 0x100 ≤ off ∧ off < 0x200 then s.ctl.bells[(off - 0x100) / 4]'(by omega)
  else if off = 0x200 then c.pdCtrl
  else if off = 0x204 then c.pdAddr
  else if off = 0x208 then c.pdLen
  else if off = 0x20C then
    BitVec.ofNat 32 (c.pdState.code + b2n c.overrun * 4 + c.abort.toNat * 2 ^ 8 + c.rlen % 512 * 2 ^ 16)
  else if 0x300 ≤ off ∧ off < 0x400 then BitVec.ofNat 32 (leAt c.pdData (off - 0x300) 4)
  else if off = 0x400 then BitVec.ofNat 32 s.rt.pend.length
  else if off = 0x404 then
    BitVec.ofNat 32 (b2n (decide (s.rt.arm = .arming ∨ s.rt.arm = .armed)) + s.rt.arm.code * 2 ^ 4 + s.rt.armResult.toNat % 8 * 2 ^ 8)
  else if off = 0x800 then BitVec.ofNat 32 (c.claim.toNat + s.start.epoch.toNat % 65536 * 2 ^ 16)
  else if off = 0xC00 then BitVec.ofNat 32 s.power.timebase.toNat
  else if off = 0xC04 then c.timeHi
  else 0

/-- Whether IRQ[i] is high (Table 19-8, R427); in Midwinter IRQ[0] and IRQ[1] stay low (R408). -/
def State.irqLine (s : State) (i : Fin 4) : Bool :=
  let mask : Byte := match i with | 0 => 0x03 | 1 => 0x04 | 2 => 0x18 | 3 => 0xE0
  decide (s.ctl.irqStatus &&& s.ctl.irqEnable &&& mask ≠ 0) && !(s.inMidwinter && decide (i.val < 2))

end Sys2Proof.Machine
end

