-- ==== Sys2Proof/Machine/Pins.lean ====
section
/-!
DEFINITION. Reset, straps and fuses, the falls and rises of port links at the pins, test access (R298, R299, R441 to R455).
-/
namespace Sys2Proof.Machine

/-! ### AON reset (R449, R450) -/

/-- Latch straps and fuses: identity, connected Stack Link ports, fused-off parts (R397, R443, R449). -/
def State.latch (s : State) (inst : Fin 8) (master : Bool) (fuse : BitVec 256) : State :=
  let s := { s with pins := { s.pins with latched := true, inst := inst, master := master, fuse := fuse,
                                          instIn := inst, masterIn := master, fuseIn := fuse, fuseValid := true } }
  let l := LinkSt.reset inst.val (s.fuseBit 92) (s.fuseBit 93)
  let m := s.mapsOf
  { s with link := { l with ports := Vector.ofFn (fun i : Fin 2 =>
                       { l.ports[i.val] with
                         phyIn := (s.link.ports[i.val]).phyIn,
                         phyUp := (s.link.ports[i.val]).phyUp || ((s.link.ports[i.val]).phyIn && !s.ctl.inReset) }) },
           fault := { s.fault with coreMap := m.1, arrayMap := m.2 } }

/-- What the pins outside keep over an AON reset: links, supplies, PHYs, the alert, the test access in force. -/
def State.aonReset (s : State) : State :=
  let n := State.resetOf s.build
  { n with
    pending := s.pending,
    ports := Vector.ofFn (fun i : Fin 4 => { n.ports[i.val] with linkUp := (s.ports[i.val]).linkUp }),
    power := { n.power with pwrAck := s.power.pwrAck, alertLow := s.power.alertLow, pstAck := s.power.pstAck },
    link := { n.link with ports := Vector.ofFn (fun i : Fin 2 =>
      { n.link.ports[i.val] with phyIn := (s.link.ports[i.val]).phyIn, phyUp := (s.link.ports[i.val]).phyUp }) },
    pins := { n.pins with wir := s.pins.wir, sibs := s.pins.sibs },
    deep := { n.deep with losses := s.deep.losses },
    ctl := { n.ctl with inReset := s.ctl.inReset, extNext := s.ctl.extNext } }

/-- AON_RESET (R449): AON_RST_N rises with these straps; they are latched when FUSE_VALID is high. -/
def execAonReset (inst : Fin 8) (master fuseValid : Bool) (fuse : BitVec 256) (s : State) : Out :=
  let t := s.aonReset
  .next (if fuseValid then t.latch inst master fuse
    else { t with pins := { t.pins with instIn := inst, masterIn := master, fuseIn := fuse, fuseValid := false } })

/-- FUSE_VALID_RISE (R449): later changes of the straps are ignored. -/
def execFuseValidRise (inst : Fin 8) (master : Bool) (fuse : BitVec 256) (s : State) : Out :=
  if s.pins.latched then .next s else .next (s.latch inst master fuse)

/-! ### Memory-port links (R298, R299) -/

/-- A fall of Mn_LINK_UP as the port sees it (R298); a FAILED port stays FAILED, the fall counts all the same (Table 12-7). -/
def State.linkFall (s : State) (n : PortId) : State :=
  match (s.port n).state with
  | .settling => s.portLost n .down
  | .up => s.portLost n .down
  | .held => s.portLost n .down
  | .failed => if (s.port n).linkUp then s.portLost n .failed else s
  | _ => s

/-- A rise of Mn_LINK_UP as the port sees it (R299). -/
def State.linkRise (s : State) (n : PortId) : State :=
  match (s.port n).state with
  | .down => s.modPort n (fun p => { p with state := .settling })
  | .failed => s.modPort n (fun p => { p with state := .settling })
  | _ => s

/-- LINK_UP_FALL (R298). -/
def execLinkUpFall (n : PortId) (s : State) : Out :=
  if s.build.c ≤ n.val then .refused .absentPart
  else .next ((s.linkFall n).modPort n (fun p => { p with linkUp := false }))

/-- LINK_UP_RISE (R299): the port settles once its cluster's supply and PCLK_RST_N let it. -/
def execLinkUpRise (n : PortId) (s : State) : Out :=
  if s.build.c ≤ n.val then .refused .absentPart
  else
    let s := s.modPort n (fun p => { p with linkUp := true })
    .next (if s.power.pwrAck.getLsbD n.val && !s.ctl.inReset then s.linkRise n else s)

/-! ### PCLK reset (R451) -/

/-- The PHY of a connected Stack Link port as the engine sees it. -/
def State.setPhy (s : State) (l : LinkId) (up : Bool) : State := s.modLink l (fun p => { p with phyUp := up })

/-- PCLK_RESET (R451): every present memory port acts as on a fall of its link, every Stack Link port as on a fall of its
PHY indication. -/
def execPclkReset (s : State) : Out :=
  if s.ctl.inReset then .next s
  else
    let s := { s with ctl := { s.ctl with inReset := true } }
    let s := s.presentClusters.foldl (fun s n => s.linkFall n) s
    .next ((s.setPhy 0 false).setPhy 1 false)

/-! ### Test access (R453 to R455) -/

/-- Intrusive wrapper instructions (Table 20-11). -/
def intrusiveWir (code : BitVec 3) : Bool := decide (code = 1 ∨ code = 2 ∨ code = 4)

/-- Whether R453 grants intrusive access: STATE UNSTARTED and TEST_LOCK read as 0 from the latched fuses. -/
def State.grants (s : State) : Bool :=
  decide (s.start.state = .unstarted) && s.pins.latched && !s.fuseBit 94

/-- WRAPPER_INSTRUCTION_UPDATE: an intrusive instruction that is not granted, and a reserved code, act as WS_BYPASS. -/
def execWrapperInstructionUpdate (code : BitVec 3) (s : State) : Out :=
  if intrusiveWir code then
    if s.grants then .next { s with pins := { s.pins with wir := code, granted := true } }
    else .next { s with pins := { s.pins with wir := 0 } }
  else .next { s with pins := { s.pins with wir := if code = 3 then 3 else 0 } }

/-- WRAPPER_RESET: WS_BYPASS is loaded (R454). -/
def execWrapperReset (s : State) : Out := .next { s with pins := { s.pins with wir := 0 } }

/-- Place of an instrument in Table 20-12. -/
def instrumentBit : Instrument → Nat
  | .temp => 0 | .aging => 1 | .pll => 2 | .droop => 3 | .aon => 4 | .mbist => 5 | .lbist => 6 | .eccInject => 7

/-- SEGMENT_INSERTION_UPDATE (R455): the bit of an intrusive instrument stays closed while access is refused. -/
def execSegmentInsertionUpdate (i : Instrument) (wantOpen : Bool) (s : State) : Out :=
  let b := instrumentBit i
  if !wantOpen then .next { s with pins := { s.pins with sibs := clearBit s.pins.sibs b } }
  else if b < 5 then .next { s with pins := { s.pins with sibs := putBit s.pins.sibs b } }
  else if s.grants then .next { s with pins := { s.pins with sibs := putBit s.pins.sibs b, granted := true } }
  else .next s

/-- NETWORK_RESET: every segment-insertion bit closes (R455). -/
def execNetworkReset (s : State) : Out := .next { s with pins := { s.pins with sibs := 0 } }

end Sys2Proof.Machine
end

