-- ==== Sys2Proof/Machine/Seasons.lean ====
section
/-!
DEFINITION. Wake events, Thaw and its end, a drain given up, the rest after a thermal shutdown, the release of PCLK_RST_N
(R361 to R366, R377, R451).
-/
namespace Sys2Proof.Machine

/-! ### Spring begins (R363, R434) -/

/-- Doorbells held in sleep are acted on (R23, R363). -/
def State.ringHeld (s : State) : State :=
  let qs := s.ctl.heldBells
  qs.foldl (fun (s : State) q => s.ringBell q) { s with ctl := { s.ctl with heldBells := [] } }

/-- RT doorbells written in sleep are refused when Thaw ends (R363). -/
def State.refuseHeld (s : State) : State :=
  let vs := s.ctl.heldRtBells
  vs.foldl (fun (s : State) v => s.refuseRtBell v) { s with ctl := { s.ctl with heldRtBells := [] } }

/-- The mailbox transaction that waited for Spring is served (R434). -/
def State.serveLatched (s : State) : State :=
  match s.ctl.pdState, s.ctl.latched, s.link.relay with
  | .busy, some r, none => s.pdGo r
  | _, _, _ => s

/-- What waits for Spring, after the limit has been judged again. -/
def State.springBegins (s : State) : State := if s.awake then s.relimit.oldAlert.ringHeld.refuseHeld.serveLatched else s

/-! ### Wake events (R363) -/

/-- A wake event, and what Spring lets go on when it ends Autumn at once. -/
def State.wakeUp (s : State) : State := s.wake.springBegins

/-- Whether a wake event of a kind can occur: PCLK_RST_N low takes no write (R451), WAKE_AT 0 is none. -/
def State.canWake (s : State) (k : WakeKind) : Bool :=
  match k with
  | .wakeAt => decide (s.power.wakeAt ≠ 0)
  | .phyRise => !s.ctl.inReset && s.link.ports.toList.any (fun p => decide (p.state ≠ .unconnected))
  | _ => !s.ctl.inReset

/-- WAKE_EVENT (R363): it starts Thaw, or returns the engine from Autumn. -/
def execWakeEvent (k : WakeKind) (s : State) : Out := .next (if s.canWake k && !s.awake then s.wakeUp else s)

/-- WAKE_AT_EXPIRY (R363). -/
def execWakeAtExpiry (s : State) : Out := .next (if s.canWake .wakeAt && !s.awake then s.wakeUp else s)

/-! ### Autumn (R361) -/

/-- DRAIN_LIMIT_EXPIRY: back to Spring, counted. -/
def execDrainLimitExpiry (s : State) : Out :=
  if s.power.season = .autumn then
    .next ((s.modPower (fun p => { p with autumnAborts := p.autumnAborts + 1 })).leaveAutumn.springBegins)
  else .next s

/-- PLL_LOCK (R361, R364): the PLLs of a Thaw or a start have locked, or those of an Autumn that a wake event ended. -/
def execPllLock (s : State) : Out :=
  match s.power.season with
  | .winter => .next s
  | .autumn =>
    if s.power.autumnStage = 5 then
      .next ((s.modPower (fun p => { p with pllLocked := true, autumnStage := 0, season := .spring })).springBegins)
    else .next s
  | _ => .next (s.modPower (fun p => { p with pllLocked := true }))

/-! ### Thaw (R364, R365) -/

/-- Port M0 carries the firmware reload (R365). -/
def State.reloadPort (s : State) : Bool := (s.port 0).linkUp && s.portCarries 0

/-- The sequence of Table 16-4 is complete but for the firmware's check. -/
def State.thawReady (s : State) : Bool := decide (s.power.season = .thaw) && s.serving && s.powered && s.reloadPort

/-- The end of Thaw: Spring, LAST_THAW_NS, IRQ[3], HELLO (R364, R366), and what waited. -/
def State.endThaw (s : State) : State :=
  ((((s.holdSettled 0).modPower (fun p => { p with season := .spring, lastThawNs := BitVec.ofNat 32 (ticksNs (s.now - p.thawStart)) })).irq 6).sendHellos).springBegins.driveRecords

/-- The firmware reload's read: with the CRC-32C kept from the last authenticated start Thaw ends, with another a full start
begins (R362); a read that errs is retried. -/
def State.thawReload (s : State) (r : ReadResult) : State :=
  if !s.thawReady then s
  else
    let k := s.slotRecord s.start.activeSlot
    let y := s.physRead 0 (slotPa k) (slotLength k) r
    match y.2.bytes? with
    | some bs => if crc32c bs = s.start.fwCrc.toNat then y.1.endThaw else y.1.restart 4
    | none => y.1

/-- THAW_COMPLETE (R364). -/
def execThawComplete (r : ReadResult) (s : State) : Out := .next (s.thawReload r)

/-- THAW_RELOAD_RETRY (R365). -/
def execThawReloadRetry (r : ReadResult) (s : State) : Out := .next (s.thawReload r)

/-- THAW_RELOAD_ABANDON (R365): a restart with cause 0x06; the held doorbells go (R405). -/
def execThawReloadAbandon (s : State) : Out :=
  .next (if s.power.season = .thaw ∧ s.serving then s.restart 6 else s)

/-! ### The rest after SHUTDOWN (R377), the release of PCLK_RST_N (R451) -/

/-- THERMAL_REST_EXPIRY: a wake event that was held starts Thaw; the next sample finds the thermal state anew. -/
def execThermalRestExpiry (s : State) : Out :=
  if s.power.thermal ≠ .shutdown then .next s
  else
    let held := s.power.wakeHeld
    let s := s.modPower (fun p => { p with thermal := .normal, thermalLimit := 0, thermalBand := 0, wakeHeld := false })
    .next (if held && !s.awake then s.wakeUp else s)

/-- PCLK_RESET_RELEASE: each memory port whose link is high follows R299, each PHY that is ready is seen to rise. -/
def execPclkResetRelease (s : State) : Out :=
  if !s.ctl.inReset then .next s
  else
    let s := { s with ctl := { s.ctl with inReset := false } }
    let s := s.presentClusters.foldl (fun (s : State) n =>
      if (s.port n).linkUp && s.power.pwrAck.getLsbD n.val then s.linkRise n else s) s
    .next ((List.finRange 2).foldl (fun (s : State) (l : LinkId) =>
      let p := s.link.ports[l.val]
      if p.phyIn && decide (p.state ≠ .unconnected) then s.phyRise l else s) s)

end Sys2Proof.Machine
end

