-- ==== Sys2Proof/Machine/SlotScl.lean ====
section
/-!
DEFINITION. One meaning per command of the scalar slot (R185, R215 to R217). Each command is a slot of the bundle its core fetches.
-/
namespace Sys2Proof.Machine

/-- ADD (R215): SCL opcode: scalar addition. -/
def execAdd (c : CoreId) (eob : Bool) (d a b : SReg) (s : State) : Out :=
  s.issueSlot c eob (.scl (.bin .add d a b))

/-- SUB (R215): SCL opcode: scalar subtraction. -/
def execSub (c : CoreId) (eob : Bool) (d a b : SReg) (s : State) : Out :=
  s.issueSlot c eob (.scl (.bin .sub d a b))

/-- MUL (R215): SCL opcode: scalar multiplication, readable 3 CCLK after issue. -/
def execMul (c : CoreId) (eob : Bool) (d a b : SReg) (s : State) : Out :=
  s.issueSlot c eob (.scl (.bin .mul d a b))

/-- SCL_AND (R215): SCL opcode AND: scalar bitwise AND. -/
def execSclAnd (c : CoreId) (eob : Bool) (d a b : SReg) (s : State) : Out :=
  s.issueSlot c eob (.scl (.bin .and d a b))

/-- SCL_OR (R215): SCL opcode OR: scalar bitwise OR. -/
def execSclOr (c : CoreId) (eob : Bool) (d a b : SReg) (s : State) : Out :=
  s.issueSlot c eob (.scl (.bin .or d a b))

/-- SCL_XOR (R215): SCL opcode XOR: scalar bitwise XOR. -/
def execSclXor (c : CoreId) (eob : Bool) (d a b : SReg) (s : State) : Out :=
  s.issueSlot c eob (.scl (.bin .xor d a b))

/-- MIN (R215): SCL opcode: signed scalar minimum. -/
def execMin (c : CoreId) (eob : Bool) (d a b : SReg) (s : State) : Out :=
  s.issueSlot c eob (.scl (.bin .min d a b))

/-- MAX (R215): SCL opcode: signed scalar maximum. -/
def execMax (c : CoreId) (eob : Bool) (d a b : SReg) (s : State) : Out :=
  s.issueSlot c eob (.scl (.bin .max d a b))

/-- SLT (R215): SCL opcode: signed set-less-than. -/
def execSlt (c : CoreId) (eob : Bool) (d a b : SReg) (s : State) : Out :=
  s.issueSlot c eob (.scl (.bin .slt d a b))

/-- SCL_SHL (R215): SCL opcode SHL: scalar left shift. -/
def execSclShl (c : CoreId) (eob : Bool) (d a b : SReg) (s : State) : Out :=
  s.issueSlot c eob (.scl (.bin .shl d a b))

/-- SHR (R215): SCL opcode: scalar logical right shift. -/
def execShr (c : CoreId) (eob : Bool) (d a b : SReg) (s : State) : Out :=
  s.issueSlot c eob (.scl (.bin .shr d a b))

/-- SCL_SRA (R215): SCL opcode SRA: scalar arithmetic right shift. -/
def execSclSra (c : CoreId) (eob : Bool) (d a b : SReg) (s : State) : Out :=
  s.issueSlot c eob (.scl (.bin .sra d a b))

/-- ADDI (R215): SCL opcode: add of a sign-extended immediate. -/
def execAddi (c : CoreId) (eob : Bool) (d a : SReg) (imm : BitVec 16) (s : State) : Out :=
  s.issueSlot c eob (.scl (.addi d a imm))

/-- ORI (R215): SCL opcode: OR with a zero-extended immediate. -/
def execOri (c : CoreId) (eob : Bool) (d a : SReg) (imm : BitVec 16) (s : State) : Out :=
  s.issueSlot c eob (.scl (.ori d a imm))

/-- SHLI (R215): SCL opcode: left shift by an immediate. -/
def execShli (c : CoreId) (eob : Bool) (d a : SReg) (imm : BitVec 16) (s : State) : Out :=
  s.issueSlot c eob (.scl (.shli d a imm))

/-- SHRI (R215): SCL opcode: logical right shift by an immediate. -/
def execShri (c : CoreId) (eob : Bool) (d a : SReg) (imm : BitVec 16) (s : State) : Out :=
  s.issueSlot c eob (.scl (.shri d a imm))

/-- MOVI (R215): SCL opcode: loads a sign-extended 21-bit immediate. -/
def execMovi (c : CoreId) (eob : Bool) (d : SReg) (imm : BitVec 21) (s : State) : Out :=
  s.issueSlot c eob (.scl (.movi d imm))

/-- AMOV (R215): SCL opcode: copies a scalar register into an address register. -/
def execAmov (c : CoreId) (eob : Bool) (d : AReg) (r : SReg) (s : State) : Out :=
  s.issueSlot c eob (.scl (.amov d r))

/-- AADD (R215): SCL opcode: adds a scalar register to an address register. -/
def execAadd (c : CoreId) (eob : Bool) (d a : AReg) (r : SReg) (s : State) : Out :=
  s.issueSlot c eob (.scl (.aadd d a r))

/-- AMOVI (R215): SCL opcode: loads an address register from a 22-bit immediate. -/
def execAmovi (c : CoreId) (eob : Bool) (d : AReg) (imm : BitVec 22) (s : State) : Out :=
  s.issueSlot c eob (.scl (.amovi d imm))

/-- SMOVA (R215): SCL opcode: copies an address register into a scalar register. -/
def execSmova (c : CoreId) (eob : Bool) (d : SReg) (a : AReg) (s : State) : Out :=
  s.issueSlot c eob (.scl (.smova d a))

/-- RDLC (R215): SCL opcode: reads a loop counter into a scalar register. -/
def execRdlc (c : CoreId) (eob : Bool) (d : SReg) (l : Fin 4) (s : State) : Out :=
  s.issueSlot c eob (.scl (.rdlc d l))

/-- SETZP (R216): SCL opcode: sets the activation zero point for later operations. -/
def execSetzp (c : CoreId) (eob : Bool) (r : SReg) (s : State) : Out :=
  s.issueSlot c eob (.scl (.setzp r))

/-- SETOS (R216): SCL opcode: sets the FP32 output scale for later operations. -/
def execSetos (c : CoreId) (eob : Bool) (r : SReg) (s : State) : Out :=
  s.issueSlot c eob (.scl (.setos r))

/-- SETINC (R217): SCL opcode: sets the loop-level increment of an address register. -/
def execSetinc (c : CoreId) (eob : Bool) (n : AReg) (l : Fin 4) (r : SReg) (s : State) : Out :=
  s.issueSlot c eob (.scl (.setinc n l r))

/-- SETBIND (R217): SCL opcode: binds an address register to loop levels. -/
def execSetbind (c : CoreId) (eob : Bool) (n : AReg) (mask : BitVec 4) (s : State) : Out :=
  s.issueSlot c eob (.scl (.setbind n mask))

end Sys2Proof.Machine
end

