-- ==== Sys2Proof/Machine/SlotSeq.lean ====
section
/-!
DEFINITION. One meaning per command of the sequencer slot (R191 to R204). Each command is a slot of the bundle its core fetches.
-/
namespace Sys2Proof.Machine

/-- LOOP (R191): SEQ opcode that opens a counted loop, snapshots the bound address registers and, for a count of 0, skips the body. -/
def execLoop (c : CoreId) (eob : Bool) (csrc : Bool) (len : BitVec 11) (cnt : BitVec 14) (s : State) : Out :=
  s.issueSlot c eob (.seq (.loop csrc len cnt))

/-- SKIPZ (R193): SEQ opcode that skips the next N bundles when the named scalar register is zero. -/
def execSkipz (c : CoreId) (eob : Bool) (r : SReg) (n : BitVec 11) (s : State) : Out :=
  s.issueSlot c eob (.seq (.skipz r n))

/-- SKIPNZ (R193): SEQ opcode that skips the next N bundles when the named scalar register is not zero. -/
def execSkipnz (c : CoreId) (eob : Bool) (r : SReg) (n : BitVec 11) (s : State) : Out :=
  s.issueSlot c eob (.seq (.skipnz r n))

/-- EXITN (R194): SEQ opcode that leaves the innermost running loop when bit 63 of the named register is 1. -/
def execExitn (c : CoreId) (eob : Bool) (r : SReg) (s : State) : Out :=
  s.issueSlot c eob (.seq (.exitn r))

/-- CALL (R197): SEQ opcode that looks up a routine ID, saves caller state, narrows the near-scratch window and loads descriptor bank 1. -/
def execCall (c : CoreId) (eob : Bool) (r : SReg) (id : BitVec 16) (s : State) : Out :=
  s.issueSlot c eob (.seq (.call r id))

/-- RET (R197): SEQ opcode that restores the state saved by CALL and switches back to descriptor bank 0. -/
def execRet (c : CoreId) (eob : Bool) (s : State) : Out :=
  s.issueSlot c eob (.seq (.ret))

/-- WAIT (R200): SEQ opcode that holds issue until every condition selected in its mask holds. -/
def execWait (c : CoreId) (eob : Bool) (mask : BitVec 14) (s : State) : Out :=
  s.issueSlot c eob (.seq (.wait mask))

/-- DELAY (R189): SEQ opcode that holds the next bundle until n + 1 CCLK after it issues. -/
def execDelay (c : CoreId) (eob : Bool) (n : BitVec 16) (s : State) : Out :=
  s.issueSlot c eob (.seq (.delay n))

/-- STRIP (R201): SEQ opcode that takes the next number from the partition's strip counter, or all ones when the counter is exhausted. -/
def execStrip (c : CoreId) (eob : Bool) (d : SReg) (s : State) : Out :=
  s.issueSlot c eob (.seq (.strip d))

/-- SIGNAL (R202): SEQ opcode that increments a partition event counter once the core's earlier deep-scratch writes have landed. -/
def execSignal (c : CoreId) (eob : Bool) (e : Fin 16) (s : State) : Out :=
  s.issueSlot c eob (.seq (.signal e))

/-- WAITEV (R202): SEQ opcode that holds issue while a partition event counter is below a register value. -/
def execWaitev (c : CoreId) (eob : Bool) (r : SReg) (e : Fin 16) (s : State) : Out :=
  s.issueSlot c eob (.seq (.waitev r e))

/-- COMMIT (R203): SEQ opcode that, once every R200 condition holds, sends the core's token to the collector and ends the core's part of the run. -/
def execCommit (c : CoreId) (eob : Bool) (s : State) : Out :=
  s.issueSlot c eob (.seq (.commit))

/-- HALT (R204): SEQ opcode, allowed in test images only, that stops issue without sending a token. -/
def execHalt (c : CoreId) (eob : Bool) (s : State) : Out :=
  s.issueSlot c eob (.seq (.halt))

end Sys2Proof.Machine
end

