-- ==== Sys2Proof/Machine/SlotUnits.lean ====
section
/-!
DEFINITION. One meaning per command of the slots of the address generators, the DMA streams, the arrays and the matrix-vector path (R207 to R213). Each command is a slot of the bundle its core fetches.
-/
namespace Sys2Proof.Machine

/-- ROWS (R208): AGA opcode that streams the activation rows of the array pass in the same bundle, in PLAIN, WINDOW or TRANS mode. -/
def execRows (c : CoreId) (eob : Bool) (ad : Fin 8) (aB : AReg) (sQ sY sB : SReg) (s : State) : Out :=
  s.issueSlot c eob (.aga (.rows ad aB sQ sY sB))

/-- TAP (R154): AGA opcode that performs a tap load of 64 channels of one window tap into a vector register. -/
def execTap (c : CoreId) (eob : Bool) (ad : Fin 8) (aB : AReg) (sP sY : SReg) (vD : VReg) (padMax : Bool) (s : State) : Out :=
  s.issueSlot c eob (.aga (.tap ad aB sP sY vD padMax))

/-- STLD (R121): AGA opcode that loads bytes from near scratch into a row of the MVP activation store. -/
def execStld (c : CoreId) (eob : Bool) (row : Fin 4) (a : AReg) (tag : BitVec 2) (sLen : SReg) (doff : BitVec 13) (s : State) : Out :=
  s.issueSlot c eob (.aga (.stld row a tag sLen doff))

/-- LOADW (R91): AGB opcode that loads the shadow weight registers of the arrays named in AMASK. -/
def execLoadw (c : CoreId) (eob : Bool) (amask : BitVec 4) (bd : Fin 8) (a : AReg) (nr1 : Fin 32) (s : State) : Out :=
  s.issueSlot c eob (.agb (.loadw amask bd a nr1))

/-- MVSTREAM (R209): AGB opcode that supplies the weight stream of the MVP pass issued in the same bundle. -/
def execMvstream (c : CoreId) (eob : Bool) (bd : Fin 8) (a : AReg) (s : State) : Out :=
  s.issueSlot c eob (.agb (.mvstream bd a))

/-- IMPORT (R114): AGB opcode that combines a RAW tile into the accumulator rows with the mode's accumulate combine. -/
def execImportTile (c : CoreId) (eob : Bool) (amask : BitVec 4) (bd : Fin 8) (a : AReg) (sFirst sCount : SReg) (s : State) : Out :=
  s.issueSlot c eob (.agb (.importTile amask bd a sFirst sCount))

/-- DMOV (R211): DMA opcode that moves data between near scratch, deep scratch, remote windows and host memory, with optional ZB64 coding or atomic add. -/
def execDmov (c : CoreId) (eob : Bool) (t dd : Fin 8) (aN : AReg) (sF sL : SReg) (s : State) : Out :=
  s.issueSlot c eob (.dma (.dmov t dd aN sF sL))

/-- DEXP (R323): DMA opcode that reads HBC blocks from host memory through the cluster expander and delivers them to address generator B. -/
def execDexp (c : CoreId) (eob : Bool) (t dd : Fin 8) (sF sL : SReg) (s : State) : Out :=
  s.issueSlot c eob (.dma (.dexp t dd sF sL))

/-- PASS (R213): MXA opcode that starts an array pass on each array in AMASK, from a template and register-supplied M and ACC_ROW. -/
def execPass (c : CoreId) (eob : Bool) (mt : Fin 8) (amask : BitVec 4) (sM sAcc : SReg) (init swap last : Bool) (s : State) : Out :=
  s.issueSlot c eob (.mxa (.pass mt amask sM sAcc init swap last))

/-- READ (R111): MXA opcode that issues a separate read-out of a row range with the read-out fields of a template. -/
def execReadOut (c : CoreId) (eob : Bool) (mt : Fin 8) (amask : BitVec 4) (sFirst sCount : SReg) (s : State) : Out :=
  s.issueSlot c eob (.mxa (.readOut mt amask sFirst sCount))

/-- MVPASS (R118): MVP opcode that starts a matrix-vector pass multiplying one weight stream by 1 to 4 activation vectors. -/
def execMvpass (c : CoreId) (eob : Bool) (vt v1 : Fin 4) (init last : Bool) (sAcc sAoff : SReg) (s : State) : Out :=
  s.issueSlot c eob (.mvp (.mvpass vt v1 init last sAcc sAoff))

/-- MVREAD (R132): MVP opcode that issues a read-out of an entry range of the MVP accumulator. -/
def execMvread (c : CoreId) (eob : Bool) (vt v1 : Fin 4) (sAcc sN : SReg) (s : State) : Out :=
  s.issueSlot c eob (.mvp (.mvread vt v1 sAcc sN))

end Sys2Proof.Machine
end

