-- ==== Sys2Proof/Machine/SlotVec.lean ====
section
/-!
DEFINITION. One meaning per command of the vector slot (R133 to R142, R214). Each command is a slot of the bundle its core fetches.
-/
namespace Sys2Proof.Machine

/-- FADD (R135): VEC opcode: FP32 addition of the lanes. -/
def execFadd (c : CoreId) (eob : Bool) (d a b : VReg) (s : State) : Out :=
  s.issueSlot c eob (.vec (.bin .fadd d a b))

/-- FSUB (R135): VEC opcode: FP32 subtraction of the lanes. -/
def execFsub (c : CoreId) (eob : Bool) (d a b : VReg) (s : State) : Out :=
  s.issueSlot c eob (.vec (.bin .fsub d a b))

/-- FMUL (R46): VEC opcode: FP32 multiplication of the lanes, with the IEEE result for 0 times infinity. -/
def execFmul (c : CoreId) (eob : Bool) (d a b : VReg) (s : State) : Out :=
  s.issueSlot c eob (.vec (.bin .fmul d a b))

/-- FMAD (R135): VEC opcode: FP32 multiply then add, with two roundings. -/
def execFmad (c : CoreId) (eob : Bool) (d a b x : VReg) (s : State) : Out :=
  s.issueSlot c eob (.vec (.fmad d a b x))

/-- FMIN (R135): VEC opcode: FP32 lane minimum. -/
def execFmin (c : CoreId) (eob : Bool) (d a b : VReg) (s : State) : Out :=
  s.issueSlot c eob (.vec (.bin .fmin d a b))

/-- FMAX (R135): VEC opcode: FP32 lane maximum. -/
def execFmax (c : CoreId) (eob : Bool) (d a b : VReg) (s : State) : Out :=
  s.issueSlot c eob (.vec (.bin .fmax d a b))

/-- FABS (R135): VEC opcode: clears the sign bit of each lane. -/
def execFabs (c : CoreId) (eob : Bool) (d a : VReg) (s : State) : Out :=
  s.issueSlot c eob (.vec (.un .fabs d a))

/-- FNEG (R135): VEC opcode: inverts the sign bit of each lane. -/
def execFneg (c : CoreId) (eob : Bool) (d a : VReg) (s : State) : Out :=
  s.issueSlot c eob (.vec (.un .fneg d a))

/-- FCMPLT (R135): VEC opcode: FP32 less-than compare giving an all-ones or zero mask. -/
def execFcmplt (c : CoreId) (eob : Bool) (d a b : VReg) (s : State) : Out :=
  s.issueSlot c eob (.vec (.bin .fcmplt d a b))

/-- FCMPLE (R135): VEC opcode: FP32 less-or-equal compare. -/
def execFcmple (c : CoreId) (eob : Bool) (d a b : VReg) (s : State) : Out :=
  s.issueSlot c eob (.vec (.bin .fcmple d a b))

/-- FCMPEQ (R135): VEC opcode: FP32 equality compare. -/
def execFcmpeq (c : CoreId) (eob : Bool) (d a b : VReg) (s : State) : Out :=
  s.issueSlot c eob (.vec (.bin .fcmpeq d a b))

/-- SEL (R135): VEC opcode: selects lanes of a or b according to c. -/
def execSel (c : CoreId) (eob : Bool) (d a b x : VReg) (s : State) : Out :=
  s.issueSlot c eob (.vec (.sel d a b x))

/-- IADD (R135): VEC opcode: saturating INT32 addition. -/
def execIadd (c : CoreId) (eob : Bool) (d a b : VReg) (s : State) : Out :=
  s.issueSlot c eob (.vec (.bin .iadd d a b))

/-- ISUB (R135): VEC opcode: saturating INT32 subtraction. -/
def execIsub (c : CoreId) (eob : Bool) (d a b : VReg) (s : State) : Out :=
  s.issueSlot c eob (.vec (.bin .isub d a b))

/-- IMUL (R135): VEC opcode: INT32 product saturated to INT32. -/
def execImul (c : CoreId) (eob : Bool) (d a b : VReg) (s : State) : Out :=
  s.issueSlot c eob (.vec (.bin .imul d a b))

/-- IMIN (R135): VEC opcode: signed INT32 minimum. -/
def execImin (c : CoreId) (eob : Bool) (d a b : VReg) (s : State) : Out :=
  s.issueSlot c eob (.vec (.bin .imin d a b))

/-- IMAX (R135): VEC opcode: signed INT32 maximum. -/
def execImax (c : CoreId) (eob : Bool) (d a b : VReg) (s : State) : Out :=
  s.issueSlot c eob (.vec (.bin .imax d a b))

/-- ICMPLT (R135): VEC opcode: signed INT32 less-than compare. -/
def execIcmplt (c : CoreId) (eob : Bool) (d a b : VReg) (s : State) : Out :=
  s.issueSlot c eob (.vec (.bin .icmplt d a b))

/-- ICMPEQ (R135): VEC opcode: bitwise equality compare. -/
def execIcmpeq (c : CoreId) (eob : Bool) (d a b : VReg) (s : State) : Out :=
  s.issueSlot c eob (.vec (.bin .icmpeq d a b))

/-- VEC_AND (R135): VEC opcode AND: bitwise AND of lanes. -/
def execVecAnd (c : CoreId) (eob : Bool) (d a b : VReg) (s : State) : Out :=
  s.issueSlot c eob (.vec (.bin .and d a b))

/-- VEC_OR (R135): VEC opcode OR: bitwise OR of lanes. -/
def execVecOr (c : CoreId) (eob : Bool) (d a b : VReg) (s : State) : Out :=
  s.issueSlot c eob (.vec (.bin .or d a b))

/-- VEC_XOR (R135): VEC opcode XOR: bitwise XOR of lanes. -/
def execVecXor (c : CoreId) (eob : Bool) (d a b : VReg) (s : State) : Out :=
  s.issueSlot c eob (.vec (.bin .xor d a b))

/-- VEC_SHL (R135): VEC opcode SHL: logical left shift of lanes. -/
def execVecShl (c : CoreId) (eob : Bool) (d a : VReg) (sh : Fin 32) (s : State) : Out :=
  s.issueSlot c eob (.vec (.shl d a sh))

/-- VEC_SRA (R135): VEC opcode SRA: arithmetic right shift of lanes. -/
def execVecSra (c : CoreId) (eob : Bool) (d a : VReg) (sh : Fin 32) (s : State) : Out :=
  s.issueSlot c eob (.vec (.sra d a sh))

/-- CVTIF (R135): VEC opcode: INT32 to FP32 conversion. -/
def execCvtif (c : CoreId) (eob : Bool) (d a : VReg) (s : State) : Out :=
  s.issueSlot c eob (.vec (.un .cvtif d a))

/-- CVTFI (R135): VEC opcode: FP32 to INT32 conversion. -/
def execCvtfi (c : CoreId) (eob : Bool) (d a : VReg) (s : State) : Out :=
  s.issueSlot c eob (.vec (.un .cvtfi d a))

/-- FRND (R135): VEC opcode: narrows lanes to a format and widens them back to FP32. -/
def execFrnd (c : CoreId) (eob : Bool) (d a : VReg) (f : BitVec 4) (s : State) : Out :=
  s.issueSlot c eob (.vec (.frnd d a f))

/-- FCEXP (R135): VEC opcode: smallest integer exponent bounding each lane's magnitude. -/
def execFcexp (c : CoreId) (eob : Bool) (d a : VReg) (s : State) : Out :=
  s.issueSlot c eob (.vec (.un .fcexp d a))

/-- FSCALB (R135): VEC opcode: multiplies lanes by a power of two. -/
def execFscalb (c : CoreId) (eob : Bool) (d a b : VReg) (s : State) : Out :=
  s.issueSlot c eob (.vec (.bin .fscalb d a b))

/-- VLD (R214): VEC opcode: loads 256 B from near scratch into a vector register. -/
def execVld (c : CoreId) (eob : Bool) (v : VReg) (a : AReg) (tag : BitVec 2) (off : BitVec 11) (s : State) : Out :=
  s.issueSlot c eob (.vec (.vld v a tag off))

/-- VLDW (R135): VEC opcode: loads 64 packed elements and widens them to FP32 or INT32 lanes. -/
def execVldw (c : CoreId) (eob : Bool) (v : VReg) (a : AReg) (tag : BitVec 2) (f : BitVec 4) (off : BitVec 11) (s : State) : Out :=
  s.issueSlot c eob (.vec (.vldw v a tag f off))

/-- VST (R214): VEC opcode: stores 256 B of a vector register to near scratch. -/
def execVst (c : CoreId) (eob : Bool) (v : VReg) (a : AReg) (tag : BitVec 2) (off : BitVec 11) (s : State) : Out :=
  s.issueSlot c eob (.vec (.vst v a tag off))

/-- VSTN (R70): VEC opcode: narrows FP32 lanes with the output scale and stores them packed. -/
def execVstn (c : CoreId) (eob : Bool) (v : VReg) (a : AReg) (tag : BitVec 2) (f : BitVec 4) (off : BitVec 11) (s : State) : Out :=
  s.issueSlot c eob (.vec (.vstn v a tag f off))

/-- SCLW (R140): VEC opcode: scale write that converts lanes to UE5M3 and writes them as bytes to near scratch. -/
def execSclw (c : CoreId) (eob : Bool) (v : VReg) (a : AReg) (tag : BitVec 2) (n1 : Fin 64) (off : BitVec 9) (s : State) : Out :=
  s.issueSlot c eob (.vec (.sclw v a tag n1 off))

/-- VBCS (R135): VEC opcode: broadcasts a scalar register into every lane. -/
def execVbcs (c : CoreId) (eob : Bool) (d : VReg) (r : SReg) (s : State) : Out :=
  s.issueSlot c eob (.vec (.vbcs d r))

/-- VEXT (R135): VEC opcode: extracts one lane into a scalar register. -/
def execVext (c : CoreId) (eob : Bool) (d : SReg) (v : VReg) (lane : Fin 64) (s : State) : Out :=
  s.issueSlot c eob (.vec (.vext d v lane))

/-- FRSUM (R136): VEC opcode: pairwise-tree FP32 sum of the lanes into lane 0. -/
def execFrsum (c : CoreId) (eob : Bool) (d a : VReg) (s : State) : Out :=
  s.issueSlot c eob (.vec (.un .frsum d a))

/-- FRMAX (R136): VEC opcode: tree FP32 maximum of the lanes into lane 0. -/
def execFrmax (c : CoreId) (eob : Bool) (d a : VReg) (s : State) : Out :=
  s.issueSlot c eob (.vec (.un .frmax d a))

/-- IRSUM (R136): VEC opcode: exact INT32 lane sum clamped once into lane 0. -/
def execIrsum (c : CoreId) (eob : Bool) (d a : VReg) (s : State) : Out :=
  s.issueSlot c eob (.vec (.un .irsum d a))

/-- ARGMAX (R137): VEC opcode: merges a lane window into a running best value and index. -/
def execArgmax (c : CoreId) (eob : Bool) (d a : VReg) (sN sBase : SReg) (hi idx dir int : Bool) (s : State) : Out :=
  s.issueSlot c eob (.vec (.argmax d a sN sBase hi idx dir int))

/-- TOPK (R138): VEC opcode: merges a lane window into a running ordered list of the 64 best entries. -/
def execTopk (c : CoreId) (eob : Bool) (d a : VReg) (sN sBase : SReg) (hi idx dir int : Bool) (s : State) : Out :=
  s.issueSlot c eob (.vec (.topk d a sN sBase hi idx dir int))

/-- CURVE (R142): VEC opcode: evaluates a table-driven curve on each lane. -/
def execCurve (c : CoreId) (eob : Bool) (d a : VReg) (n : Fin 32) (s : State) : Out :=
  s.issueSlot c eob (.vec (.curve d a n))

end Sys2Proof.Machine
end

