-- ==== Sys2Proof/Machine/Dispatch.lean ====
section
/-!
DEFINITION. One arm per command: the command's own meaning.
-/
namespace Sys2Proof.Machine

def exec (i : Instr) (s : State) : Host.Outcome State Fault Refusal :=
  match i with
  | .loop c eob csrc len cnt => Sys2Proof.Machine.execLoop c eob csrc len cnt s
  | .skipz c eob r n => Sys2Proof.Machine.execSkipz c eob r n s
  | .skipnz c eob r n => Sys2Proof.Machine.execSkipnz c eob r n s
  | .exitn c eob r => Sys2Proof.Machine.execExitn c eob r s
  | .call c eob r id => Sys2Proof.Machine.execCall c eob r id s
  | .ret c eob => Sys2Proof.Machine.execRet c eob s
  | .wait c eob mask => Sys2Proof.Machine.execWait c eob mask s
  | .delay c eob n => Sys2Proof.Machine.execDelay c eob n s
  | .strip c eob d => Sys2Proof.Machine.execStrip c eob d s
  | .signal c eob e => Sys2Proof.Machine.execSignal c eob e s
  | .signalTakesEffect c => Sys2Proof.Machine.execSignalTakesEffect c s
  | .waitev c eob r e => Sys2Proof.Machine.execWaitev c eob r e s
  | .commit c eob => Sys2Proof.Machine.execCommit c eob s
  | .halt c eob => Sys2Proof.Machine.execHalt c eob s
  | .bundleIssueHoldRelease c => Sys2Proof.Machine.execBundleIssueHoldRelease c s
  | .rows c eob ad aB sQ sY sB => Sys2Proof.Machine.execRows c eob ad aB sQ sY sB s
  | .tap c eob ad aB sP sY vD padMax => Sys2Proof.Machine.execTap c eob ad aB sP sY vD padMax s
  | .stld c eob row a tag sLen doff => Sys2Proof.Machine.execStld c eob row a tag sLen doff s
  | .loadw c eob amask bd a nr1 => Sys2Proof.Machine.execLoadw c eob amask bd a nr1 s
  | .mvstream c eob bd a => Sys2Proof.Machine.execMvstream c eob bd a s
  | .importTile c eob amask bd a sFirst sCount => Sys2Proof.Machine.execImportTile c eob amask bd a sFirst sCount s
  | .dmov c eob t dd aN sF sL => Sys2Proof.Machine.execDmov c eob t dd aN sF sL s
  | .dexp c eob t dd sF sL => Sys2Proof.Machine.execDexp c eob t dd sF sL s
  | .dmaCommandEnd c t => Sys2Proof.Machine.execDmaCommandEnd c t s
  | .pass c eob mt amask sM sAcc init swap last => Sys2Proof.Machine.execPass c eob mt amask sM sAcc init swap last s
  | .passResultLanded c => Sys2Proof.Machine.execPassResultLanded c s
  | .readOut c eob mt amask sFirst sCount => Sys2Proof.Machine.execReadOut c eob mt amask sFirst sCount s
  | .mvpass c eob vt v1 init last sAcc sAoff => Sys2Proof.Machine.execMvpass c eob vt v1 init last sAcc sAoff s
  | .mvread c eob vt v1 sAcc sN => Sys2Proof.Machine.execMvread c eob vt v1 sAcc sN s
  | .fadd c eob d a b => Sys2Proof.Machine.execFadd c eob d a b s
  | .fsub c eob d a b => Sys2Proof.Machine.execFsub c eob d a b s
  | .fmul c eob d a b => Sys2Proof.Machine.execFmul c eob d a b s
  | .fmad c eob d a b x => Sys2Proof.Machine.execFmad c eob d a b x s
  | .fmin c eob d a b => Sys2Proof.Machine.execFmin c eob d a b s
  | .fmax c eob d a b => Sys2Proof.Machine.execFmax c eob d a b s
  | .fabs c eob d a => Sys2Proof.Machine.execFabs c eob d a s
  | .fneg c eob d a => Sys2Proof.Machine.execFneg c eob d a s
  | .fcmplt c eob d a b => Sys2Proof.Machine.execFcmplt c eob d a b s
  | .fcmple c eob d a b => Sys2Proof.Machine.execFcmple c eob d a b s
  | .fcmpeq c eob d a b => Sys2Proof.Machine.execFcmpeq c eob d a b s
  | .sel c eob d a b x => Sys2Proof.Machine.execSel c eob d a b x s
  | .iadd c eob d a b => Sys2Proof.Machine.execIadd c eob d a b s
  | .isub c eob d a b => Sys2Proof.Machine.execIsub c eob d a b s
  | .imul c eob d a b => Sys2Proof.Machine.execImul c eob d a b s
  | .imin c eob d a b => Sys2Proof.Machine.execImin c eob d a b s
  | .imax c eob d a b => Sys2Proof.Machine.execImax c eob d a b s
  | .icmplt c eob d a b => Sys2Proof.Machine.execIcmplt c eob d a b s
  | .icmpeq c eob d a b => Sys2Proof.Machine.execIcmpeq c eob d a b s
  | .vecAnd c eob d a b => Sys2Proof.Machine.execVecAnd c eob d a b s
  | .vecOr c eob d a b => Sys2Proof.Machine.execVecOr c eob d a b s
  | .vecXor c eob d a b => Sys2Proof.Machine.execVecXor c eob d a b s
  | .vecShl c eob d a sh => Sys2Proof.Machine.execVecShl c eob d a sh s
  | .vecSra c eob d a sh => Sys2Proof.Machine.execVecSra c eob d a sh s
  | .cvtif c eob d a => Sys2Proof.Machine.execCvtif c eob d a s
  | .cvtfi c eob d a => Sys2Proof.Machine.execCvtfi c eob d a s
  | .frnd c eob d a f => Sys2Proof.Machine.execFrnd c eob d a f s
  | .fcexp c eob d a => Sys2Proof.Machine.execFcexp c eob d a s
  | .fscalb c eob d a b => Sys2Proof.Machine.execFscalb c eob d a b s
  | .vld c eob v a tag off => Sys2Proof.Machine.execVld c eob v a tag off s
  | .vldw c eob v a tag f off => Sys2Proof.Machine.execVldw c eob v a tag f off s
  | .vst c eob v a tag off => Sys2Proof.Machine.execVst c eob v a tag off s
  | .vstn c eob v a tag f off => Sys2Proof.Machine.execVstn c eob v a tag f off s
  | .sclw c eob v a tag n1 off => Sys2Proof.Machine.execSclw c eob v a tag n1 off s
  | .vbcs c eob d r => Sys2Proof.Machine.execVbcs c eob d r s
  | .vext c eob d v lane => Sys2Proof.Machine.execVext c eob d v lane s
  | .frsum c eob d a => Sys2Proof.Machine.execFrsum c eob d a s
  | .frmax c eob d a => Sys2Proof.Machine.execFrmax c eob d a s
  | .irsum c eob d a => Sys2Proof.Machine.execIrsum c eob d a s
  | .argmax c eob d a sN sBase hi idx dir int => Sys2Proof.Machine.execArgmax c eob d a sN sBase hi idx dir int s
  | .topk c eob d a sN sBase hi idx dir int => Sys2Proof.Machine.execTopk c eob d a sN sBase hi idx dir int s
  | .curve c eob d a n => Sys2Proof.Machine.execCurve c eob d a n s
  | .add c eob d a b => Sys2Proof.Machine.execAdd c eob d a b s
  | .sub c eob d a b => Sys2Proof.Machine.execSub c eob d a b s
  | .mul c eob d a b => Sys2Proof.Machine.execMul c eob d a b s
  | .sclAnd c eob d a b => Sys2Proof.Machine.execSclAnd c eob d a b s
  | .sclOr c eob d a b => Sys2Proof.Machine.execSclOr c eob d a b s
  | .sclXor c eob d a b => Sys2Proof.Machine.execSclXor c eob d a b s
  | .min c eob d a b => Sys2Proof.Machine.execMin c eob d a b s
  | .max c eob d a b => Sys2Proof.Machine.execMax c eob d a b s
  | .slt c eob d a b => Sys2Proof.Machine.execSlt c eob d a b s
  | .sclShl c eob d a b => Sys2Proof.Machine.execSclShl c eob d a b s
  | .shr c eob d a b => Sys2Proof.Machine.execShr c eob d a b s
  | .sclSra c eob d a b => Sys2Proof.Machine.execSclSra c eob d a b s
  | .addi c eob d a imm => Sys2Proof.Machine.execAddi c eob d a imm s
  | .ori c eob d a imm => Sys2Proof.Machine.execOri c eob d a imm s
  | .shli c eob d a imm => Sys2Proof.Machine.execShli c eob d a imm s
  | .shri c eob d a imm => Sys2Proof.Machine.execShri c eob d a imm s
  | .movi c eob d imm => Sys2Proof.Machine.execMovi c eob d imm s
  | .amov c eob d r => Sys2Proof.Machine.execAmov c eob d r s
  | .aadd c eob d a r => Sys2Proof.Machine.execAadd c eob d a r s
  | .amovi c eob d imm => Sys2Proof.Machine.execAmovi c eob d imm s
  | .smova c eob d a => Sys2Proof.Machine.execSmova c eob d a s
  | .rdlc c eob d l => Sys2Proof.Machine.execRdlc c eob d l s
  | .setzp c eob r => Sys2Proof.Machine.execSetzp c eob r s
  | .setos c eob r => Sys2Proof.Machine.execSetos c eob r s
  | .setinc c eob n l r => Sys2Proof.Machine.execSetinc c eob n l r s
  | .setbind c eob n mask => Sys2Proof.Machine.execSetbind c eob n mask s
  | .tagWaitRelease c u => Sys2Proof.Machine.execTagWaitRelease c u s
  | .scrubBeat m word e => Sys2Proof.Machine.execScrubBeat m word e s
  | .sequencerWatchdogExpiry c => Sys2Proof.Machine.execSequencerWatchdogExpiry c s
  | .wcetOverrun => Sys2Proof.Machine.execWcetOverrun s
  | .doorbell q tail => Sys2Proof.Machine.execDoorbell q tail s
  | .descriptorFetch q r => Sys2Proof.Machine.execDescriptorFetch q r s
  | .accept q => Sys2Proof.Machine.execAccept q s
  | .dispatch p => Sys2Proof.Machine.execDispatch p s
  | .tokenTaken p => Sys2Proof.Machine.execTokenTaken p s
  | .sealedTimeout p => Sys2Proof.Machine.execSealedTimeout p s
  | .timeSlicePreemption p => Sys2Proof.Machine.execTimeSlicePreemption p s
  | .runDrained p => Sys2Proof.Machine.execRunDrained p s
  | .rtDoorbell v => Sys2Proof.Machine.execRtDoorbell v s
  | .rtStepStart => Sys2Proof.Machine.execRtStepStart s
  | .enableWrite q v async => Sys2Proof.Machine.execEnableWrite q v async s
  | .kill q v async => Sys2Proof.Machine.execKill q v async s
  | .fetchWrite q v async => Sys2Proof.Machine.execFetchWrite q v async s
  | .coreMaskWrite p v async => Sys2Proof.Machine.execCoreMaskWrite p v async s
  | .windowRecordWrite p w v async => Sys2Proof.Machine.execWindowRecordWrite p w v async s
  | .load p v async => Sys2Proof.Machine.execLoad p v async s
  | .imageLoadDone p r => Sys2Proof.Machine.execImageLoadDone p r s
  | .arm v async => Sys2Proof.Machine.execArm v async s
  | .armComplete => Sys2Proof.Machine.execArmComplete s
  | .disarm async => Sys2Proof.Machine.execDisarm async s
  | .disarmComplete => Sys2Proof.Machine.execDisarmComplete s
  | .rtArm v => Sys2Proof.Machine.execRtArm v s
  | .slotWrite k bs async => Sys2Proof.Machine.execSlotWrite k bs async s
  | .sessionClear ast async => Sys2Proof.Machine.execSessionClear ast async s
  | .codebookPendingWrite t bs async => Sys2Proof.Machine.execCodebookPendingWrite t bs async s
  | .codebookSwitch mask async => Sys2Proof.Machine.execCodebookSwitch mask async s
  | .curveSwitch mask async => Sys2Proof.Machine.execCurveSwitch mask async s
  | .qpolicySwitch v async => Sys2Proof.Machine.execQpolicySwitch v async s
  | .directorySwitch v async => Sys2Proof.Machine.execDirectorySwitch v async s
  | .pendingVersion bs async => Sys2Proof.Machine.execPendingVersion bs async s
  | .residentLoadDone slot r => Sys2Proof.Machine.execResidentLoadDone slot r s
  | .equinox bs async => Sys2Proof.Machine.execEquinox bs async s
  | .deleteSet v async => Sys2Proof.Machine.execDeleteSet v async s
  | .cwordWrite q v async => Sys2Proof.Machine.execCwordWrite q v async s
  | .windowStartWrite v async => Sys2Proof.Machine.execWindowStartWrite v async s
  | .rootWrite v walks async => Sys2Proof.Machine.execRootWrite v walks async s
  | .invalidate v walks async => Sys2Proof.Machine.execInvalidate v walks async s
  | .rtPin k v walk async => Sys2Proof.Machine.execRtPin k v walk async s
  | .pageWalkReadReturn n id err beat => Sys2Proof.Machine.execPageWalkReadReturn n id err beat s
  | .portReadData n id beat last => Sys2Proof.Machine.execPortReadData n id beat last s
  | .portWriteAck n id => Sys2Proof.Machine.execPortWriteAck n id s
  | .portFlushDone n id => Sys2Proof.Machine.execPortFlushDone n id s
  | .portErrorResponse n id err => Sys2Proof.Machine.execPortErrorResponse n id err s
  | .portTimeout n id => Sys2Proof.Machine.execPortTimeout n id s
  | .linkUpFall n => Sys2Proof.Machine.execLinkUpFall n s
  | .linkUpRise n => Sys2Proof.Machine.execLinkUpRise n s
  | .settlingExpiry n => Sys2Proof.Machine.execSettlingExpiry n s
  | .resume n v async => Sys2Proof.Machine.execResume n v async s
  | .attach v => Sys2Proof.Machine.execAttach v s
  | .linkGroupReceived l flits => Sys2Proof.Machine.execLinkGroupReceived l flits s
  | .linkReplay l => Sys2Proof.Machine.execLinkReplay l s
  | .idleGroup l => Sys2Proof.Machine.execIdleGroup l s
  | .linkFailed l => Sys2Proof.Machine.execLinkFailed l s
  | .phyUpChange l up => Sys2Proof.Machine.execPhyUpChange l up s
  | .linkWrite l => Sys2Proof.Machine.execLinkWrite l s
  | .linkRead l => Sys2Proof.Machine.execLinkRead l s
  | .linkFlush l => Sys2Proof.Machine.execLinkFlush l s
  | .chain l => Sys2Proof.Machine.execChain l s
  | .rdata l => Sys2Proof.Machine.execRdata l s
  | .flushDone l => Sys2Proof.Machine.execFlushDone l s
  | .hello l => Sys2Proof.Machine.execHello l s
  | .helloTimer => Sys2Proof.Machine.execHelloTimer s
  | .pstate l => Sys2Proof.Machine.execPstate l s
  | .pstateOrderInstant => Sys2Proof.Machine.execPstateOrderInstant s
  | .pdmsg l => Sys2Proof.Machine.execPdmsg l s
  | .event l => Sys2Proof.Machine.execEvent l s
  | .relayTimeout => Sys2Proof.Machine.execRelayTimeout s
  | .inboundWindowWrite w v async => Sys2Proof.Machine.execInboundWindowWrite w v async s
  | .peerEventsClear v async => Sys2Proof.Machine.execPeerEventsClear v async s
  | .idleTimeoutExpiry => Sys2Proof.Machine.execIdleTimeoutExpiry s
  | .winterEntry => Sys2Proof.Machine.execWinterEntry s
  | .drainLimitExpiry => Sys2Proof.Machine.execDrainLimitExpiry s
  | .wakeEvent k => Sys2Proof.Machine.execWakeEvent k s
  | .wakeAtExpiry => Sys2Proof.Machine.execWakeAtExpiry s
  | .thawComplete r => Sys2Proof.Machine.execThawComplete r s
  | .thawReloadRetry r => Sys2Proof.Machine.execThawReloadRetry r s
  | .thawReloadAbandon => Sys2Proof.Machine.execThawReloadAbandon s
  | .routineStoreReload r => Sys2Proof.Machine.execRoutineStoreReload r s
  | .pwrAckRise cl => Sys2Proof.Machine.execPwrAckRise cl s
  | .pwrAckLoss cl => Sys2Proof.Machine.execPwrAckLoss cl s
  | .pstAckRise => Sys2Proof.Machine.execPstAckRise s
  | .pstAckTimeout => Sys2Proof.Machine.execPstAckTimeout s
  | .glideEnd => Sys2Proof.Machine.execGlideEnd s
  | .droopDetect c cycles => Sys2Proof.Machine.execDroopDetect c cycles s
  | .alertNFall => Sys2Proof.Machine.execAlertNFall s
  | .alertHoldExpiry => Sys2Proof.Machine.execAlertHoldExpiry s
  | .estimatorPeriod counts => Sys2Proof.Machine.execEstimatorPeriod counts s
  | .tlmSample v => Sys2Proof.Machine.execTlmSample v s
  | .calPeriodEnd => Sys2Proof.Machine.execCalPeriodEnd s
  | .thermalSample halfDegrees => Sys2Proof.Machine.execThermalSample halfDegrees s
  | .thermalRestExpiry => Sys2Proof.Machine.execThermalRestExpiry s
  | .lockstepMismatch pair => Sys2Proof.Machine.execLockstepMismatch pair s
  | .failover pair leadPasses checkerPasses => Sys2Proof.Machine.execFailover pair leadPasses checkerPasses s
  | .periodicSelftest c corePasses arrayFails => Sys2Proof.Machine.execPeriodicSelftest c corePasses arrayFails s
  | .stewardHeartbeatMiss r => Sys2Proof.Machine.execStewardHeartbeatMiss r s
  | .stewardRejoin r => Sys2Proof.Machine.execStewardRejoin r s
  | .stripRateWindowEnd p => Sys2Proof.Machine.execStripRateWindowEnd p s
  | .agingMonitorRead c margin => Sys2Proof.Machine.execAgingMonitorRead c margin s
  | .interconnectParityError p => Sys2Proof.Machine.execInterconnectParityError p s
  | .start => Sys2Proof.Machine.execStart s
  | .startPhaseDone d => Sys2Proof.Machine.execStartPhaseDone d s
  | .startFail outcome detail => Sys2Proof.Machine.execStartFail outcome detail s
  | .readyTimeout => Sys2Proof.Machine.execReadyTimeout s
  | .probationEnd => Sys2Proof.Machine.execProbationEnd s
  | .stewardWatchdogFire => Sys2Proof.Machine.execStewardWatchdogFire s
  | .mwStep bs image desc async => Sys2Proof.Machine.execMwStep bs image desc async s
  | .mwSelftest v coreFail sharedFail async => Sys2Proof.Machine.execMwSelftest v coreFail sharedFail async s
  | .slotRecordWrite b bs image async => Sys2Proof.Machine.execSlotRecordWrite b bs image async s
  | .fwUpdate v image async => Sys2Proof.Machine.execFwUpdate v image async s
  | .updateRollback r rollbackFails => Sys2Proof.Machine.execUpdateRollback r rollbackFails s
  | .libraryLoad v async => Sys2Proof.Machine.execLibraryLoad v async s
  | .calSwitch v async => Sys2Proof.Machine.execCalSwitch v async s
  | .coreService v async => Sys2Proof.Machine.execCoreService v async s
  | .pdRead async remote engine index sub len offset => Sys2Proof.Machine.execPdRead async remote engine index sub len offset s
  | .pdWrite async remote engine index sub len offset bs => Sys2Proof.Machine.execPdWrite async remote engine index sub len offset bs s
  | .irqClear v => Sys2Proof.Machine.execIrqClear v s
  | .timeLoRead => Sys2Proof.Machine.execTimeLoRead s
  | .ctlRegisterWrite off be v => Sys2Proof.Machine.execCtlRegisterWrite off be v s
  | .aonReset inst master fuseValid fuse => Sys2Proof.Machine.execAonReset inst master fuseValid fuse s
  | .fuseValidRise inst master fuse => Sys2Proof.Machine.execFuseValidRise inst master fuse s
  | .pclkReset => Sys2Proof.Machine.execPclkReset s
  | .mvpPassLanded c => Sys2Proof.Machine.execMvpPassLanded c s
  | .weightLoadEnd c => Sys2Proof.Machine.execWeightLoadEnd c s
  | .readoutLanded c => Sys2Proof.Machine.execReadoutLanded c s
  | .vectorOperationLanded c => Sys2Proof.Machine.execVectorOperationLanded c s
  | .deepScratchWriteLanded c => Sys2Proof.Machine.execDeepScratchWriteLanded c s
  | .tapLoadLanded c => Sys2Proof.Machine.execTapLoadLanded c s
  | .ageLimitElapsed q => Sys2Proof.Machine.execAgeLimitElapsed q s
  | .pllLock => Sys2Proof.Machine.execPllLock s
  | .pwrAckFall cl => Sys2Proof.Machine.execPwrAckFall cl s
  | .libraryLoadDone r => Sys2Proof.Machine.execLibraryLoadDone r s
  | .coreServiceTestDone passes => Sys2Proof.Machine.execCoreServiceTestDone passes s
  | .pclkResetRelease => Sys2Proof.Machine.execPclkResetRelease s
  | .wrapperInstructionUpdate code => Sys2Proof.Machine.execWrapperInstructionUpdate code s
  | .wrapperReset => Sys2Proof.Machine.execWrapperReset s
  | .segmentInsertionUpdate k wantOpen => Sys2Proof.Machine.execSegmentInsertionUpdate k wantOpen s
  | .networkReset => Sys2Proof.Machine.execNetworkReset s

end Sys2Proof.Machine
end

