-- ==== Sys2Proof/Safety.lean ====
section
/-!
DEFINITION. The terms in which the statements speak: a core that is ready to issue, what a bundle leaves alone, the
memories' canonical form and the invariant that every step keeps.
-/
namespace Sys2Proof.Safety
open Sys2Proof.Machine

/-! ### Cores -/

/-- Nothing of a core is staged, fetched, held or in flight. -/
structure Calm (k : Core) : Prop where
  staged : k.staged = []
  fetched : k.fetched = []
  timed : k.timed = false
  passes : k.passQ = []
  reads : k.readQ = []
  loads : k.agbQ = []
  taps : k.tapQ = []
  mvps : k.mvQ = []
  vecs : k.vecQ = []
  signals : k.signals = []
  deep : k.deepW = []
  streams : ∀ t : Fin 8, (k.dma[t.val]).q = []

/-- The words of the bundle at the pc hold no error mark: those of instruction memory, in the core and in its checker (R386), or
those of the routine store (R179, R206). -/
structure Fetched (s : State) (c : CoreId) : Prop where
  own : (s.core c).frame = none → ∀ d ∈ s.members c, marksIn (s.core d).imemFlip [(32 * (s.core c).pc, 32)] = [] ∧
    ∀ i, i < 4 → Tab.get false (s.core d).imemPoison (4 * (s.core c).pc + i) = false
  store : (s.core c).frame.isSome = true → s.storePoisonIn c ((s.core c).codeBase + 32 * (s.core c).pc) 32 = none ∧
    marksIn (s.start.storeFlip[c.val / 5]'(by omega)) [((s.core c).codeBase + 32 * (s.core c).pc, 32)] = []

/-- A calm core that issues the bundles of step `x` in run `r` of partition `p`. -/
structure Ready (s : State) (c : CoreId) (p : PartId) (r : RunSt) (x : StepRec) : Prop where
  issuing : s.issuing c = true
  step : s.stepOf c = some (p, r, x)
  calm : Calm (s.core c)
  fetched : Fetched s c

/-- A ready core, in an image or in a routine, outside loops or in them, whose pc is at the last bundle of neither its innermost
loop nor the code. -/
structure Straight (s : State) (c : CoreId) (p : PartId) (r : RunSt) (x : StepRec) : Prop where
  ready : Ready s c p r x
  inside : ∀ l rest, (s.core c).loops = l :: rest → l.last ≠ (s.core c).pc
  more : (s.core c).pc + 1 < (s.core c).codeLen

/-- A core after a bundle that issued and only moves on: pc, issue count, watchdog and operation number. -/
def moved (k : Core) : Core := { k with pc := k.pc + 1, watchdog := 0, issued := k.issued + 1, seq := k.seq + 1 }

/-- `k` with scalar register `d` written: a write of s0 is discarded (R185). -/
def withS (k : Core) (d : SReg) (v : DWord) : Core := if d.val = 0 then k else { k with s := k.s.set d.val v d.isLt }

/-- What a bundle that acts on its core alone leaves as it was: every other core, every memory and register outside the
cores but the run's issue mark and the real-time start figure. -/
structure OthersSame (s t : State) (c : CoreId) : Prop where
  cores : ∀ d, d ≠ c → t.core d = s.core d
  deep : t.deep = s.deep
  queues : t.queues = s.queues
  steps : t.steps = s.steps
  journal : t.journal = s.journal
  records : t.records = s.records
  ports : t.ports = s.ports
  xlate : t.xlate = s.xlate
  tables : t.tables = s.tables
  sets : t.sets = s.sets
  link : t.link = s.link
  power : t.power = s.power
  fault : t.fault = s.fault
  start : t.start = s.start
  pins : t.pins = s.pins
  ctl : t.ctl = s.ctl
  scrub : t.scrub = s.scrub
  build : t.build = s.build
  pending : t.pending = s.pending

/-- The slot command of a three-register scalar operation that closes its bundle. -/
def scalarCmd (f : SBin) (c : CoreId) (d a b : SReg) : Instr :=
  match f with
  | .add => .add c true d a b
  | .sub => .sub c true d a b
  | .mul => .mul c true d a b
  | .and => .sclAnd c true d a b
  | .or => .sclOr c true d a b
  | .xor => .sclXor c true d a b
  | .min => .min c true d a b
  | .max => .max c true d a b
  | .slt => .slt c true d a b
  | .shl => .sclShl c true d a b
  | .shr => .shr c true d a b
  | .sra => .sclSra c true d a b

/-- Table 8-18 in numbers: sums, differences and products modulo 2^64, shifts by bits 5 to 0 as products and quotients by a
power of two. -/
def scalarValue (f : SBin) (x y : DWord) : DWord :=
  match f with
  | .add => BitVec.ofNat 64 (x.toNat + y.toNat)
  | .sub => BitVec.ofInt 64 (x.toInt - y.toInt)
  | .mul => BitVec.ofNat 64 (x.toNat * y.toNat)
  | .and => BitVec.ofNat 64 (x.toNat &&& y.toNat)
  | .or => BitVec.ofNat 64 (x.toNat ||| y.toNat)
  | .xor => BitVec.ofNat 64 (x.toNat ^^^ y.toNat)
  | .min => if x.toInt ≤ y.toInt then x else y
  | .max => if x.toInt ≤ y.toInt then y else x
  | .slt => if x.toInt < y.toInt then 1 else 0
  | .shl => BitVec.ofNat 64 (x.toNat * 2 ^ (y.toNat % 64))
  | .shr => BitVec.ofNat 64 (x.toNat / 2 ^ (y.toNat % 64))
  | .sra => BitVec.ofInt 64 (x.toInt / 2 ^ (y.toNat % 64))

/-- The slot command of a scalar operation with an immediate that closes its bundle; `w` is imm16 or imm21. -/
inductive ScalarImm where
  | addi (a : SReg) (imm : BitVec 16)
  | ori (a : SReg) (imm : BitVec 16)
  | shli (a : SReg) (imm : BitVec 16)
  | shri (a : SReg) (imm : BitVec 16)
  | movi (imm : BitVec 21)

/-- Its command. -/
def immCmd (f : ScalarImm) (c : CoreId) (d : SReg) : Instr :=
  match f with
  | .addi a i => .addi c true d a i
  | .ori a i => .ori c true d a i
  | .shli a i => .shli c true d a i
  | .shri a i => .shri c true d a i
  | .movi i => .movi c true d i

/-- Its value (R215, Table 8-18): ADDI and MOVI sign-extend, ORI zero-extends, shifts use bits 5 to 0. -/
def immValue (f : ScalarImm) (k : Core) : DWord :=
  match f with
  | .addi a i => BitVec.ofInt 64 ((k.sreg a).toInt + i.toInt)
  | .ori a i => BitVec.ofNat 64 ((k.sreg a).toNat ||| i.toNat)
  | .shli a i => BitVec.ofNat 64 ((k.sreg a).toNat * 2 ^ (i.toNat % 64))
  | .shri a i => BitVec.ofNat 64 ((k.sreg a).toNat / 2 ^ (i.toNat % 64))
  | .movi i => BitVec.ofInt 64 i.toInt

/-! ### Vector operations -/

/-- A vector register result is in the pipeline, with its flags; nothing else changed but what every bundle changes. -/
def VecIssued (s t : State) (c : CoreId) (ws : List (VReg × Lanes)) (fl : Flags) : Prop :=
  t.core c = { moved (s.core c) with vecQ := [{ seq := (s.core c).seq, eff := .regs ws }],
                                     vecFlags := (s.core c).vecFlags ||| fl } ∧ OthersSame s t c

/-- Lane operations on integers and bits (Table 5-5). -/
inductive IntOp where
  | iadd | isub | imul | imin | imax | icmplt | icmpeq | and | or | xor

def intCmd (f : IntOp) (c : CoreId) (d a b : VReg) : Instr :=
  match f with
  | .iadd => .iadd c true d a b
  | .isub => .isub c true d a b
  | .imul => .imul c true d a b
  | .imin => .imin c true d a b
  | .imax => .imax c true d a b
  | .icmplt => .icmplt c true d a b
  | .icmpeq => .icmpeq c true d a b
  | .and => .vecAnd c true d a b
  | .or => .vecOr c true d a b
  | .xor => .vecXor c true d a b

/-- The exact result of the saturating operations. -/
def intExact (f : IntOp) (a b : Word) : Option Int :=
  match f with
  | .iadd => some (a.toInt + b.toInt)
  | .isub => some (a.toInt - b.toInt)
  | .imul => some (a.toInt * b.toInt)
  | _ => none

/-- The nearest INT32. -/
def clamp32 (z : Int) : Int := max (-2147483648) (min 2147483647 z)

/-- One lane of the result. -/
def intLane (f : IntOp) (a b : Word) : Word :=
  match f with
  | .imin => if a.toInt ≤ b.toInt then a else b
  | .imax => if a.toInt ≤ b.toInt then b else a
  | .icmplt => if a.toInt < b.toInt then BitVec.allOnes 32 else 0
  | .icmpeq => if a = b then BitVec.allOnes 32 else 0
  | .and => a &&& b
  | .or => a ||| b
  | .xor => a ^^^ b
  | f => BitVec.ofInt 32 (clamp32 ((intExact f a b).getD 0))

/-- Whether some lane saturates. -/
def intSaturates (f : IntOp) (x y : Lanes) : Bool :=
  (List.finRange 64).any (fun i => match intExact f x[i.val] y[i.val] with
    | some z => decide (clamp32 z ≠ z)
    | none => false)

/-- Lane operations on FP32 values (Table 5-5). -/
inductive FloatOp where
  | fadd | fsub | fmul | fmin | fmax | fcmplt | fcmple | fcmpeq | fscalb

def floatCmd (f : FloatOp) (c : CoreId) (d a b : VReg) : Instr :=
  match f with
  | .fadd => .fadd c true d a b
  | .fsub => .fsub c true d a b
  | .fmul => .fmul c true d a b
  | .fmin => .fmin c true d a b
  | .fmax => .fmax c true d a b
  | .fcmplt => .fcmplt c true d a b
  | .fcmple => .fcmple c true d a b
  | .fcmpeq => .fcmpeq c true d a b
  | .fscalb => .fscalb c true d a b

/-- All ones for true. -/
def mask32 (b : Bool) : Word := if b then BitVec.allOnes 32 else 0

/-- One lane with its flags: sum, product and FSCALB rounded once, a compare with a NaN gives 0 and NAN. -/
def floatLane (f : FloatOp) (a b : Word) : Word × Flags :=
  let cmp := fun (p : Bool) => if (val32 a).isNan || (val32 b).isNan then ((0 : Word), fNAN) else (mask32 p, 0)
  match f with
  | .fadd => add32 a b
  | .fsub => add32 a (b ^^^ 0x80000000)
  | .fmul => mul32 a b
  | .fmin => minMax false a b
  | .fmax => minMax true a b
  | .fcmplt => cmp (ltVal (val32 a) (val32 b))
  | .fcmple => cmp (!ltVal (val32 b) (val32 a))
  | .fcmpeq => cmp (eqVal (val32 a) (val32 b))
  | .fscalb => fscalb a b

/-- The lanes and the flags of an operation on two registers. -/
def lanesOf (f : Word → Word → Word × Flags) (x y : Lanes) : Lanes × Flags :=
  (Vector.ofFn (fun i : Fin 64 => (f x[i.val] y[i.val]).1),
    orFlags ((List.finRange 64).map (fun i => (f x[i.val] y[i.val]).2)))

/-- The one-operand vector commands that close their bundle. -/
def unaryCmd (f : VUn) (c : CoreId) (d a : VReg) : Instr :=
  match f with
  | .fabs => .fabs c true d a
  | .fneg => .fneg c true d a
  | .cvtif => .cvtif c true d a
  | .cvtfi => .cvtfi c true d a
  | .fcexp => .fcexp c true d a
  | .frsum => .frsum c true d a
  | .frmax => .frmax c true d a
  | .irsum => .irsum c true d a

/-- The lanes and flags of a lane function. -/
def lanesOf1 (f : Word → Word × Flags) (x : Lanes) : Lanes × Flags :=
  (Vector.ofFn (fun i : Fin 64 => (f x[i.val]).1), orFlags ((List.finRange 64).map (fun i => (f x[i.val]).2)))

/-- A value in lane 0, +0 in the others. -/
def firstLane (x : Word) : Lanes := Vector.ofFn (fun i : Fin 64 => if i.val = 0 then x else 0)

/-- Results of the one-operand operations (Table 5-5, R136): FABS and FNEG keep a NaN canonical, the reductions leave their
result in lane 0. -/
def unaryResult (f : VUn) (x : Lanes) : Lanes × Flags :=
  match f with
  | .fabs => lanesOf1 (fun a => if (val32 a).isNan then (nan32, fNAN) else (a &&& 0x7FFFFFFF, 0)) x
  | .fneg => lanesOf1 (fun a => if (val32 a).isNan then (nan32, fNAN) else (a ^^^ 0x80000000, 0)) x
  | .cvtif => lanesOf1 (fun a => (cvtIF a, 0)) x
  | .cvtfi => lanesOf1 cvtFI x
  | .fcexp => lanesOf1 fcexp x
  | .frsum => (firstLane (tree add32 6 x.toList).1, (tree add32 6 x.toList).2)
  | .frmax => (firstLane (tree (minMax true) 6 x.toList).1, (tree (minMax true) 6 x.toList).2)
  | .irsum =>
    let z := (x.toList.map (fun w => w.toInt)).sum
    (firstLane (BitVec.ofInt 32 (clamp32 z)), if clamp32 z = z then 0 else fSAT)

/-- Physical near-scratch spans meet no error mark in the core nor in its checker (R179, R386). -/
def Unmarked (s : State) (c : CoreId) (xs : List Span) : Prop :=
  ∀ d ∈ s.members c, (∀ y ∈ xs, (s.member c d).nearPoisonIn y = none) ∧ (s.member c d).nearFlips xs = []

/-- No error mark in the memories of a core's own, in the core nor in its checker. -/
def NoMarks (s : State) (c : CoreId) : Prop :=
  ∀ d ∈ s.members c, (s.core d).nearPoison = [] ∧ (s.core d).nearFlip = [] ∧ (s.core d).accPoison = [] ∧ (s.core d).accFlip = []

/-- A near-scratch access of n bytes at offset `off` of a core's window is legal and meets no error mark. -/
structure NearOk (s : State) (c : CoreId) (off n : Nat) : Prop where
  window : off + n ≤ (s.core c).win.nsl * 1024
  clean : Unmarked s c [((s.core c).win.phys off, n)]

/-- Near spans lie in the window of a core and meet no error mark. -/
def SpansOk (s : State) (c : CoreId) (xs : List Span) : Prop :=
  (∀ y ∈ xs, y.1 + y.2 ≤ (s.core c).win.nsl * 1024) ∧
  Unmarked s c (xs.map (fun y => ((s.core c).win.phys y.1, y.2)))

/-- What a pass streams (R88, R94, R164, R179, R208): the weight registers that it checks have their parity, its rows and scales lie
in its window, and near scratch holds no error mark. -/
def Streams (s : State) (c : CoreId) (f : PassFlight) (rows : List (List Span)) : Prop :=
  let k := if f.swap then (s.core c).swapArrays f.arrays else s.core c
  parityError (s.core c) f = none ∧ (List.range f.m).mapM (fun m => rowSpans f (passEntries k f) m) = some rows ∧
  (f.win.spans (rows.flatten ++ passScaleSpans f)).isSome = true ∧ NoMarks s c

def Streamable (s : State) (c : CoreId) (f : PassFlight) : Prop := ∃ rows, Streams s c f rows

/-- The expander of a core's cluster has no block that it could expand (R323). -/
def ExpanderIdle (s : State) (c : CoreId) : Prop := ∀ j, j < 40 → s.expReady (clusterOf c) j = false

/-- No cached translation of an address has wrong parity, in a stream's cache nor in the walk cache of its cluster (R313). -/
structure CachesHold (s : State) (c : CoreId) (st : Fin 8) (ast va : Nat) : Prop where
  stream : s.streamParity c st ast va = s
  tables : s.tableParity (clusterOf c) ast va = s

/-! ### Canonical memories -/

/-- Near scratch, its tags and marks are canonical tables (an unlisted byte reads 0, an unlisted mark false), and s0 holds 0. -/
structure CoreOk (k : Core) : Prop where
  zero : k.s[0] = 0
  near : Tab.wf 0 k.near = true
  tags : Tab.wf false k.fullTag = true
  written : Tab.wf false k.written = true
  poison : Tab.wf false k.nearPoison = true

/-- Deep scratch is canonical: listed addresses and poisoned words rise, no listed byte of an intact slice is 0, no listed word is
unpoisoned. -/
structure DeepOk (s : State) : Prop where
  rising : Tab.rising 0 s.deep.cells = true
  nonzero : ∀ y ∈ s.deep.cells, s.sliceIntact y.1 = true → y.2 ≠ 0
  poison : Tab.wf false s.deep.poison = true

/-- The same as a value: the canonical form of every addressed memory of the block. -/
def Memory.wf (s : State) : Bool :=
  s.cores.toList.all (fun k => Tab.wf 0 k.near && Tab.wf false k.fullTag && Tab.wf false k.written && Tab.wf false k.nearPoison) &&
  Tab.rising 0 s.deep.cells && s.deep.cells.all (fun y => !s.sliceIntact y.1 || decide (y.2 ≠ 0)) && Tab.wf false s.deep.poison

/-- The invariant of the block: every core's s0 reads 0 and its near scratch is canonical, and so is deep scratch. -/
structure Inv (s : State) : Prop where
  cores : ∀ c : CoreId, CoreOk (s.core c)
  deep : DeepOk s

/-! ### Dictionary writes -/

/-- The stewards serve a transaction at once: PCLK_RST_N is high, STATE is PROBATION or RUNNING, the season Spring or Summer, no
transaction is in progress and no claim waits (R428, R429, R434). -/
structure MailboxFree (s : State) : Prop where
  clocked : s.ctl.inReset = false
  serving : s.serving = true
  awake : s.awake = true
  free : s.ctl.pdState ≠ .busy
  claims : s.ctl.attachWaits = []

/-- What a transaction leaves of the control port: everything but the mailbox, the status bits and the counts. -/
structure PortKept (c k : CtlSt) : Prop where
  clocked : k.inReset = c.inReset
  enable : k.irqEnable = c.irqEnable
  ignored : k.ignored = c.ignored
  bellsIgnored : k.bellsIgnored = c.bellsIgnored
  claim : k.claim = c.claim
  attaches : k.attachCount = c.attachCount
  attachTime : k.attachTime = c.attachTime
  timeHi : k.timeHi = c.timeHi
  bells : k.bells = c.bells
  heldBells : k.heldBells = c.heldBells
  heldRtBells : k.heldRtBells = c.heldRtBells

/-- The control port after a WRITE that ended DONE (R429, Tables 19-8 and 19-18). -/
structure Finished (c k : CtlSt) (async : Bool) : Prop where
  kept : PortKept c k
  state : k.pdState = .done
  abort : k.abort = 0
  latched : k.latched = none
  counted : k.transactions = c.transactions + 1
  aborts : k.aborts = c.aborts
  irq : k.irqStatus = if async then c.irqStatus ||| 0x20 else c.irqStatus

/-- A command of one dictionary entry ends DONE and leaves `t`, but for the control port. -/
def EndsDone (i : Instr) (s : State) (async : Bool) (t : State) : Prop :=
  ∃ k, Finished t.ctl k async ∧ exec i s = .next { t with ctl := k }

/-! ### Runs, ports and links -/

/-- A run of a partition that the scheduler started and nothing stops, with its step. -/
structure Running (s : State) (p : PartId) (r : RunSt) (x : StepRec) : Prop where
  run : (s.part p).run = some r
  phase : r.phase = .running
  step : s.step? r.aseq = some x

/-- The run is stopped for a reason (R247): it drains, its cores are idle; other cores, other partitions' settings and every step stay. -/
structure Drains (s t : State) (p : PartId) (r : RunSt) (why : StopWhy) : Prop where
  run : (t.part p).run = some { r with phase := .draining why, stopCclk := 0 }
  idle : ∀ c ∈ r.cores, (t.core c).phase = .idle
  cores : ∀ c, c ∉ r.cores → t.core c = s.core c
  parts : ∀ k, k ≠ p → t.part k = s.part k
  steps : t.steps = s.steps
  queues : t.queues = s.queues
  pending : t.pending = s.pending

/-- Core `c` is in the cluster of port `n`, and nothing else there waits: no completion record, no requester for an identifier of the
port, no command in a stream of the cluster but that of stream `st` of `c`. -/
structure PortIdle (s : State) (n : PortId) (c : CoreId) (st : Fin 8) : Prop where
  cluster : portOf c = n
  records : s.records = []
  order : (s.port n).order = []
  streams : ∀ (i : Fin 5) (t : Fin 8), (coreAt n i, t) ≠ (c, st) → s.dmaHead (coreAt n i) t = none

/-- No core but `c` waits for room in the response buffer of the Stack Link (R340): none has a FLUSH to send, and no command a piece for
another engine. -/
structure RemoteIdle (s : State) (c : CoreId) : Prop where
  flushes : ∀ d, d ≠ c → (s.core d).phase = .committed → (s.core d).remoteFlush = 0
  streams : ∀ d st f, s.dmaHead d st = some f → (f.todo.head?.bind (·.peer)).isSome = false

/-- The loader can fill the cores of a run (R179, R224): a resident image holds no poisoned word where its code lies; of another one
every cluster's read brings bytes, those of `tab`. -/
def Loads (s : State) (p : PartId) (x : StepRec) (img : ImgRec) (twin : Bool) (cs : List CoreId) (code : List ReadResult)
    (tab : Tab (List Byte)) : Prop :=
  if img.resident = true then s.deepPoisonIn (s.codeRange p img twin).1 (s.codeRange p img twin).2 = none
  else (s.codeReads x img twin (clustersOf cs) code).2 = .ok tab ∧ tab.length = (clustersOf cs).length

/-- A core at the start of a run (R165, R185, R187, R201, R224): at address 0, every register 0 but s1 to s8, which hold the argument
words, every tag and written mark of near scratch clear, its code in instruction memory. -/
structure Started (k : Core) (args : List DWord) (code : List Byte) : Prop where
  phase : k.phase = .running
  pc : k.pc = 0
  tags : ∀ n, k.slotFull n = false ∧ k.slotWritten n = false
  scalars : ∀ i : Fin 32, k.s[i.val] = if 1 ≤ i.val ∧ i.val ≤ 8 then args.getD (i.val - 1) 0 else 0
  addresses : k.a = Vector.replicate 16 0
  counters : k.lc = Vector.replicate 4 0
  vectors : k.v = Vector.replicate 32 (Vector.replicate 64 0)
  code : ∀ n, Tab.get 0 k.imem n = code.getD n 0

/-- No walk is marked by an invalidation, and none of the ASTs that are hit has a read out (R314). -/
structure Unwalked (s : State) (hit : Nat → Prop) : Prop where
  streams : ∀ (c : CoreId) (st : Fin 8), ∀ f ∈ ((s.core c).dma[st.val]).q, ∀ w ∈ f.walk, w.restart = false ∧ (w.asked = true → ¬ hit w.ast)
  records : ∀ r ∈ s.records, ∀ w ∈ r.walk, w.restart = false ∧ (w.asked = true → ¬ hit w.ast)

/-- The port without a transaction. -/
def dropFrom (p : Port) (id : Byte) : Port := { p with txns := p.txns.filter (fun y => y.id ≠ id) }

/-- The message that a response is (Table 15-3): its header to the engine that asked. -/
def reply (s : State) (h : Flit) (typ nd status refused : Nat) (data : List Flit) : TxMsg :=
  { msg := { hdr := msgHeader typ s.pins.inst.val (hSrc h) (hWin h) (hSpart h) (hTag h) nd 0 0 status refused 0, data := data },
    core := none, stream := 0, seq := 0 }

/-- No port has its PHY: what is queued stays queued. -/
def PhysDown (s : State) : Prop := ∀ l : LinkId, (s.link.ports[l.val]).phyUp = false

/-! ### Seasons, starts, health -/

/-- Outside a stack, with the limit and the floor acted on already: judging the limit again changes nothing (R368). -/
structure Alone (s : State) : Prop where
  stack : s.formed = false
  floor : s.link.stackFloor = s.ownFloor
  ordered : s.power.ordered = s.limit

/-- No doorbell, no transaction and no fall of ALERT_N waits for Spring (R363, R371, R434). -/
structure NothingWaits (s : State) : Prop where
  bells : s.ctl.heldBells = []
  rtBells : s.ctl.heldRtBells = []
  mailbox : s.ctl.pdState ≠ .busy
  alert : s.power.alertLow = true → s.power.alertLimit = true

/-- `s` with other values of the power state. -/
def withPower (s : State) (f : PowerSt → PowerSt) : State := { s with power := f s.power }

/-- A restart with a cause (R403, R405, R406): STARTING from NEXT_SLOT, cores and steps gone, what R405 keeps kept. -/
structure Restarts (s t : State) (cause : Byte) : Prop where
  state : t.start.state = .starting
  cause : t.start.cause = cause
  slot : t.start.slot = s.start.nextSlot
  phase : t.start.phase = 0
  steps : t.steps = []
  cores : ∀ c, t.core c = Core.reset
  runs : ∀ p, (t.part p).run = none
  deep : t.deep = s.deep
  entries : t.journal.entries = s.journal.entries
  bootCount : t.start.bootCount = s.start.bootCount
  epoch : t.start.epoch = s.start.epoch
  slots : t.start.slotA = s.start.slotA ∧ t.start.slotB = s.start.slotB
  claim : t.ctl.claim = 0
  pins : t.pins = s.pins
  timebase : t.power.timebase = s.power.timebase
  pending : t.pending = s.pending

/-- A start that fails (R406, Tables 18-1 and 18-5): its record is written, BOOT_COUNT counts to 3, and the engine starts again from
the other slot where its record is valid, or enters Midwinter with the failure's code. -/
structure StartFails (s t : State) (o : StartOutcome) (detail : Nat) : Prop where
  counted : t.start.bootCount.toNat = min 3 (s.start.bootCount.toNat + 1)
  records : t.start.startNext = s.start.startNext + 1
  record : t.start.startLog[s.start.startNext.toNat % 8]'(Nat.mod_lt _ (by decide)) =
    BitVec.ofNat 128 (s.start.cause.toNat + startCode o * 2 ^ 8 + b2n s.start.slot * 2 ^ 16 + detail % 2 ^ 32 * 2 ^ 32 +
      s.start.startTime * 2 ^ 64)
  again : s.start.bootCount.toNat < 2 → t.start.state = .starting ∧ t.start.cause = 1 ∧ t.power.season = .thaw ∧
    t.start.slot = if slotValid (s.slotRecord (!s.start.slot)) = true then !s.start.slot else s.start.slot
  midwinter : 2 ≤ s.start.bootCount.toNat → t.start.state = .midwinter ∧ t.start.mwReason = BitVec.ofNat 8 (startCode o) ∧
    t.power.season = .spring ∧ t.power.pstate = 5 ∧ t.power.pwrReq = 1
  cores : ∀ c, t.core c = Core.reset
  steps : t.steps = []
  deep : t.deep = s.deep
  pins : t.pins = s.pins
  pending : t.pending = s.pending

/-- `s` with other values of one core's health entry. -/
def withHealth (s : State) (c : CoreId) (f : CoreHealth → CoreHealth) : State :=
  { s with fault := { s.fault with cores := upd s.fault.cores c f } }

/-- The stewards serve a transaction in Midwinter (R408). -/
structure MidwinterFree (s : State) : Prop where
  clocked : s.ctl.inReset = false
  midwinter : s.start.state = .midwinter
  free : s.ctl.pdState ≠ .busy
  claims : s.ctl.attachWaits = []

end Sys2Proof.Safety
end

