-- ==== Sys2Proof/WellFormed.lean ====
section
/-!
DEFINITION. Well-formed commands: the operands that the row's slot encoding, signal or message can carry, and that are checked
whatever the state (R184, R191, R193, R214, R335, R372, R377, R420, R429); and the slot that a slot command stands for.
-/
namespace Sys2Proof

/-- The format codes that a vector slot may name (Table 2-1, R135): 0 to 7, but not BG4. -/
def formatNamed (f : BitVec 4) : Bool := decide (f.toNat < 8) && decide (f.toNat ≠ 5)

/-- Well-formedness of a command. -/
def Instr.wf (i : Instr) : Bool :=
  match i with
  | .loop _ _ csrc len cnt => decide (len ≠ 0) && (csrc || decide (cnt.toNat < 32))
  | .skipz _ _ _ n => decide (n ≠ 0)
  | .skipnz _ _ _ n => decide (n ≠ 0)
  | .exitn _ _ _ => true
  | .call _ _ _ _ => true
  | .ret _ _ => true
  | .wait _ _ _ => true
  | .delay _ _ _ => true
  | .strip _ _ _ => true
  | .signal _ _ _ => true
  | .signalTakesEffect _ => true
  | .waitev _ _ _ _ => true
  | .commit _ _ => true
  | .halt _ _ => true
  | .bundleIssueHoldRelease _ => true
  | .rows _ _ _ _ _ _ _ => true
  | .tap _ _ _ _ _ _ _ _ => true
  | .stld _ _ _ _ tag _ _ => decide (tag ≠ 3)
  | .loadw _ _ _ _ _ _ => true
  | .mvstream _ _ _ _ => true
  | .importTile _ _ _ _ _ _ _ => true
  | .dmov _ _ _ _ _ _ _ => true
  | .dexp _ _ _ _ _ _ => true
  | .dmaCommandEnd _ _ => true
  | .pass _ _ _ _ _ _ _ _ _ => true
  | .passResultLanded _ => true
  | .readOut _ _ _ _ _ _ => true
  | .mvpass _ _ _ _ _ _ _ _ => true
  | .mvread _ _ _ _ _ _ => true
  | .fadd _ _ _ _ _ => true
  | .fsub _ _ _ _ _ => true
  | .fmul _ _ _ _ _ => true
  | .fmad _ _ _ _ _ _ => true
  | .fmin _ _ _ _ _ => true
  | .fmax _ _ _ _ _ => true
  | .fabs _ _ _ _ => true
  | .fneg _ _ _ _ => true
  | .fcmplt _ _ _ _ _ => true
  | .fcmple _ _ _ _ _ => true
  | .fcmpeq _ _ _ _ _ => true
  | .sel _ _ _ _ _ _ => true
  | .iadd _ _ _ _ _ => true
  | .isub _ _ _ _ _ => true
  | .imul _ _ _ _ _ => true
  | .imin _ _ _ _ _ => true
  | .imax _ _ _ _ _ => true
  | .icmplt _ _ _ _ _ => true
  | .icmpeq _ _ _ _ _ => true
  | .vecAnd _ _ _ _ _ => true
  | .vecOr _ _ _ _ _ => true
  | .vecXor _ _ _ _ _ => true
  | .vecShl _ _ _ _ _ => true
  | .vecSra _ _ _ _ _ => true
  | .cvtif _ _ _ _ => true
  | .cvtfi _ _ _ _ => true
  | .frnd _ _ _ _ f => formatNamed f
  | .fcexp _ _ _ _ => true
  | .fscalb _ _ _ _ _ => true
  | .vld _ _ _ _ tag _ => decide (tag ≠ 3)
  | .vldw _ _ _ _ tag f _ => decide (tag ≠ 3) && formatNamed f
  | .vst _ _ _ _ tag _ => decide (tag.toNat < 2)
  | .vstn _ _ _ _ tag f _ => decide (tag.toNat < 2) && formatNamed f
  | .sclw _ _ _ _ tag _ _ => decide (tag.toNat < 2)
  | .vbcs _ _ _ _ => true
  | .vext _ _ _ _ _ => true
  | .frsum _ _ _ _ => true
  | .frmax _ _ _ _ => true
  | .irsum _ _ _ _ => true
  | .argmax _ _ _ _ _ _ _ idx dir _ => !idx && !dir
  | .topk _ _ d _ _ _ _ _ _ _ => decide (d.val % 2 = 0)
  | .curve _ _ _ _ _ => true
  | .add _ _ _ _ _ => true
  | .sub _ _ _ _ _ => true
  | .mul _ _ _ _ _ => true
  | .sclAnd _ _ _ _ _ => true
  | .sclOr _ _ _ _ _ => true
  | .sclXor _ _ _ _ _ => true
  | .min _ _ _ _ _ => true
  | .max _ _ _ _ _ => true
  | .slt _ _ _ _ _ => true
  | .sclShl _ _ _ _ _ => true
  | .shr _ _ _ _ _ => true
  | .sclSra _ _ _ _ _ => true
  | .addi _ _ _ _ _ => true
  | .ori _ _ _ _ _ => true
  | .shli _ _ _ _ _ => true
  | .shri _ _ _ _ _ => true
  | .movi _ _ _ _ => true
  | .amov _ _ _ _ => true
  | .aadd _ _ _ _ _ => true
  | .amovi _ _ _ _ => true
  | .smova _ _ _ _ => true
  | .rdlc _ _ _ _ => true
  | .setzp _ _ _ => true
  | .setos _ _ _ => true
  | .setinc _ _ _ _ _ => true
  | .setbind _ _ _ _ => true
  | .tagWaitRelease _ _ => true
  | .scrubBeat _ _ _ => true
  | .sequencerWatchdogExpiry _ => true
  | .wcetOverrun => true
  | .doorbell _ _ => true
  | .descriptorFetch _ _ => true
  | .accept _ => true
  | .dispatch _ => true
  | .tokenTaken _ => true
  | .sealedTimeout _ => true
  | .timeSlicePreemption _ => true
  | .runDrained _ => true
  | .rtDoorbell _ => true
  | .rtStepStart => true
  | .enableWrite _ _ _ => true
  | .kill _ _ _ => true
  | .fetchWrite _ _ _ => true
  | .coreMaskWrite _ _ _ => true
  | .windowRecordWrite _ _ _ _ => true
  | .load _ _ _ => true
  | .imageLoadDone _ _ => true
  | .arm _ _ => true
  | .armComplete => true
  | .disarm _ => true
  | .disarmComplete => true
  | .rtArm _ => true
  | .slotWrite _ bs _ => decide (bs.length ≤ 256)
  | .sessionClear _ _ => true
  | .codebookPendingWrite _ bs _ => decide (bs.length ≤ 256)
  | .codebookSwitch _ _ => true
  | .curveSwitch _ _ => true
  | .qpolicySwitch _ _ => true
  | .directorySwitch _ _ => true
  | .pendingVersion bs _ => decide (bs.length ≤ 256)
  | .residentLoadDone _ _ => true
  | .equinox bs _ => decide (bs.length ≤ 256)
  | .deleteSet _ _ => true
  | .cwordWrite _ _ _ => true
  | .windowStartWrite _ _ => true
  | .rootWrite _ _ _ => true
  | .invalidate _ _ _ => true
  | .rtPin _ _ _ _ => true
  | .pageWalkReadReturn _ _ _ _ => true
  | .portReadData _ _ _ _ => true
  | .portWriteAck _ _ => true
  | .portFlushDone _ _ => true
  | .portErrorResponse _ _ _ => true
  | .portTimeout _ _ => true
  | .linkUpFall _ => true
  | .linkUpRise _ => true
  | .settlingExpiry _ => true
  | .resume _ _ _ => true
  | .attach _ => true
  | .linkGroupReceived _ flits => decide (flits.length = 8)
  | .linkReplay _ => true
  | .idleGroup _ => true
  | .linkFailed _ => true
  | .phyUpChange _ _ => true
  | .linkWrite _ => true
  | .linkRead _ => true
  | .linkFlush _ => true
  | .chain _ => true
  | .rdata _ => true
  | .flushDone _ => true
  | .hello _ => true
  | .helloTimer => true
  | .pstate _ => true
  | .pstateOrderInstant => true
  | .pdmsg _ => true
  | .event _ => true
  | .relayTimeout => true
  | .inboundWindowWrite _ _ _ => true
  | .peerEventsClear _ _ => true
  | .idleTimeoutExpiry => true
  | .winterEntry => true
  | .drainLimitExpiry => true
  | .wakeEvent _ => true
  | .wakeAtExpiry => true
  | .thawComplete _ => true
  | .thawReloadRetry _ => true
  | .thawReloadAbandon => true
  | .routineStoreReload _ => true
  | .pwrAckRise _ => true
  | .pwrAckLoss _ => true
  | .pstAckRise => true
  | .pstAckTimeout => true
  | .glideEnd => true
  | .droopDetect _ _ => true
  | .alertNFall => true
  | .alertHoldExpiry => true
  | .estimatorPeriod counts => decide (counts.length = 16)
  | .tlmSample _ => true
  | .calPeriodEnd => true
  | .thermalSample halfDegrees => decide (halfDegrees.length = 18)
  | .thermalRestExpiry => true
  | .lockstepMismatch _ => true
  | .failover _ _ _ => true
  | .periodicSelftest _ _ _ => true
  | .stewardHeartbeatMiss _ => true
  | .stewardRejoin _ => true
  | .stripRateWindowEnd _ => true
  | .agingMonitorRead _ _ => true
  | .interconnectParityError _ => true
  | .start => true
  | .startPhaseDone _ => true
  | .startFail _ _ => true
  | .readyTimeout => true
  | .probationEnd => true
  | .stewardWatchdogFire => true
  | .mwStep bs _ _ _ => decide (bs.length ≤ 256)
  | .mwSelftest _ _ _ _ => true
  | .slotRecordWrite _ bs _ _ => decide (bs.length ≤ 256)
  | .fwUpdate _ _ _ => true
  | .updateRollback _ _ => true
  | .libraryLoad _ _ => true
  | .calSwitch _ _ => true
  | .coreService _ _ => true
  | .pdRead _ _ _ _ _ len _ => decide (len.toNat ≤ 256)
  | .pdWrite _ _ _ _ _ len _ bs => decide (len.toNat ≤ 256) && decide (bs.length = len.toNat)
  | .irqClear _ => true
  | .timeLoRead => true
  | .ctlRegisterWrite off _ _ => decide (off.toNat % 4 = 0)
  | .aonReset _ _ _ _ => true
  | .fuseValidRise _ _ _ => true
  | .pclkReset => true
  | .mvpPassLanded _ => true
  | .weightLoadEnd _ => true
  | .readoutLanded _ => true
  | .vectorOperationLanded _ => true
  | .deepScratchWriteLanded _ => true
  | .tapLoadLanded _ => true
  | .ageLimitElapsed _ => true
  | .pllLock => true
  | .pwrAckFall _ => true
  | .libraryLoadDone _ => true
  | .coreServiceTestDone _ => true
  | .pclkResetRelease => true
  | .wrapperInstructionUpdate _ => true
  | .wrapperReset => true
  | .segmentInsertionUpdate _ _ => true
  | .networkReset => true

/-- The core, the end-of-bundle mark and the slot of a slot command; none for every other command. -/
def Instr.slotOp (i : Instr) : Option (CoreId × Bool × SlotOp) :=
  match i with
  | .loop c eob csrc len cnt => some (c, eob, (.seq (.loop csrc len cnt)))
  | .skipz c eob r n => some (c, eob, (.seq (.skipz r n)))
  | .skipnz c eob r n => some (c, eob, (.seq (.skipnz r n)))
  | .exitn c eob r => some (c, eob, (.seq (.exitn r)))
  | .call c eob r id => some (c, eob, (.seq (.call r id)))
  | .ret c eob => some (c, eob, (.seq (.ret)))
  | .wait c eob mask => some (c, eob, (.seq (.wait mask)))
  | .delay c eob n => some (c, eob, (.seq (.delay n)))
  | .strip c eob d => some (c, eob, (.seq (.strip d)))
  | .signal c eob e => some (c, eob, (.seq (.signal e)))
  | .signalTakesEffect _ => none
  | .waitev c eob r e => some (c, eob, (.seq (.waitev r e)))
  | .commit c eob => some (c, eob, (.seq (.commit)))
  | .halt c eob => some (c, eob, (.seq (.halt)))
  | .bundleIssueHoldRelease _ => none
  | .rows c eob ad aB sQ sY sB => some (c, eob, (.aga (.rows ad aB sQ sY sB)))
  | .tap c eob ad aB sP sY vD padMax => some (c, eob, (.aga (.tap ad aB sP sY vD padMax)))
  | .stld c eob row a tag sLen doff => some (c, eob, (.aga (.stld row a tag sLen doff)))
  | .loadw c eob amask bd a nr1 => some (c, eob, (.agb (.loadw amask bd a nr1)))
  | .mvstream c eob bd a => some (c, eob, (.agb (.mvstream bd a)))
  | .importTile c eob amask bd a sFirst sCount => some (c, eob, (.agb (.importTile amask bd a sFirst sCount)))
  | .dmov c eob t dd aN sF sL => some (c, eob, (.dma (.dmov t dd aN sF sL)))
  | .dexp c eob t dd sF sL => some (c, eob, (.dma (.dexp t dd sF sL)))
  | .dmaCommandEnd _ _ => none
  | .pass c eob mt amask sM sAcc init swap last => some (c, eob, (.mxa (.pass mt amask sM sAcc init swap last)))
  | .passResultLanded _ => none
  | .readOut c eob mt amask sFirst sCount => some (c, eob, (.mxa (.readOut mt amask sFirst sCount)))
  | .mvpass c eob vt v1 init last sAcc sAoff => some (c, eob, (.mvp (.mvpass vt v1 init last sAcc sAoff)))
  | .mvread c eob vt v1 sAcc sN => some (c, eob, (.mvp (.mvread vt v1 sAcc sN)))
  | .fadd c eob d a b => some (c, eob, (.vec (.bin .fadd d a b)))
  | .fsub c eob d a b => some (c, eob, (.vec (.bin .fsub d a b)))
  | .fmul c eob d a b => some (c, eob, (.vec (.bin .fmul d a b)))
  | .fmad c eob d a b x => some (c, eob, (.vec (.fmad d a b x)))
  | .fmin c eob d a b => some (c, eob, (.vec (.bin .fmin d a b)))
  | .fmax c eob d a b => some (c, eob, (.vec (.bin .fmax d a b)))
  | .fabs c eob d a => some (c, eob, (.vec (.un .fabs d a)))
  | .fneg c eob d a => some (c, eob, (.vec (.un .fneg d a)))
  | .fcmplt c eob d a b => some (c, eob, (.vec (.bin .fcmplt d a b)))
  | .fcmple c eob d a b => some (c, eob, (.vec (.bin .fcmple d a b)))
  | .fcmpeq c eob d a b => some (c, eob, (.vec (.bin .fcmpeq d a b)))
  | .sel c eob d a b x => some (c, eob, (.vec (.sel d a b x)))
  | .iadd c eob d a b => some (c, eob, (.vec (.bin .iadd d a b)))
  | .isub c eob d a b => some (c, eob, (.vec (.bin .isub d a b)))
  | .imul c eob d a b => some (c, eob, (.vec (.bin .imul d a b)))
  | .imin c eob d a b => some (c, eob, (.vec (.bin .imin d a b)))
  | .imax c eob d a b => some (c, eob, (.vec (.bin .imax d a b)))
  | .icmplt c eob d a b => some (c, eob, (.vec (.bin .icmplt d a b)))
  | .icmpeq c eob d a b => some (c, eob, (.vec (.bin .icmpeq d a b)))
  | .vecAnd c eob d a b => some (c, eob, (.vec (.bin .and d a b)))
  | .vecOr c eob d a b => some (c, eob, (.vec (.bin .or d a b)))
  | .vecXor c eob d a b => some (c, eob, (.vec (.bin .xor d a b)))
  | .vecShl c eob d a sh => some (c, eob, (.vec (.shl d a sh)))
  | .vecSra c eob d a sh => some (c, eob, (.vec (.sra d a sh)))
  | .cvtif c eob d a => some (c, eob, (.vec (.un .cvtif d a)))
  | .cvtfi c eob d a => some (c, eob, (.vec (.un .cvtfi d a)))
  | .frnd c eob d a f => some (c, eob, (.vec (.frnd d a f)))
  | .fcexp c eob d a => some (c, eob, (.vec (.un .fcexp d a)))
  | .fscalb c eob d a b => some (c, eob, (.vec (.bin .fscalb d a b)))
  | .vld c eob v a tag off => some (c, eob, (.vec (.vld v a tag off)))
  | .vldw c eob v a tag f off => some (c, eob, (.vec (.vldw v a tag f off)))
  | .vst c eob v a tag off => some (c, eob, (.vec (.vst v a tag off)))
  | .vstn c eob v a tag f off => some (c, eob, (.vec (.vstn v a tag f off)))
  | .sclw c eob v a tag n1 off => some (c, eob, (.vec (.sclw v a tag n1 off)))
  | .vbcs c eob d r => some (c, eob, (.vec (.vbcs d r)))
  | .vext c eob d v lane => some (c, eob, (.vec (.vext d v lane)))
  | .frsum c eob d a => some (c, eob, (.vec (.un .frsum d a)))
  | .frmax c eob d a => some (c, eob, (.vec (.un .frmax d a)))
  | .irsum c eob d a => some (c, eob, (.vec (.un .irsum d a)))
  | .argmax c eob d a sN sBase hi idx dir int => some (c, eob, (.vec (.argmax d a sN sBase hi idx dir int)))
  | .topk c eob d a sN sBase hi idx dir int => some (c, eob, (.vec (.topk d a sN sBase hi idx dir int)))
  | .curve c eob d a n => some (c, eob, (.vec (.curve d a n)))
  | .add c eob d a b => some (c, eob, (.scl (.bin .add d a b)))
  | .sub c eob d a b => some (c, eob, (.scl (.bin .sub d a b)))
  | .mul c eob d a b => some (c, eob, (.scl (.bin .mul d a b)))
  | .sclAnd c eob d a b => some (c, eob, (.scl (.bin .and d a b)))
  | .sclOr c eob d a b => some (c, eob, (.scl (.bin .or d a b)))
  | .sclXor c eob d a b => some (c, eob, (.scl (.bin .xor d a b)))
  | .min c eob d a b => some (c, eob, (.scl (.bin .min d a b)))
  | .max c eob d a b => some (c, eob, (.scl (.bin .max d a b)))
  | .slt c eob d a b => some (c, eob, (.scl (.bin .slt d a b)))
  | .sclShl c eob d a b => some (c, eob, (.scl (.bin .shl d a b)))
  | .shr c eob d a b => some (c, eob, (.scl (.bin .shr d a b)))
  | .sclSra c eob d a b => some (c, eob, (.scl (.bin .sra d a b)))
  | .addi c eob d a imm => some (c, eob, (.scl (.addi d a imm)))
  | .ori c eob d a imm => some (c, eob, (.scl (.ori d a imm)))
  | .shli c eob d a imm => some (c, eob, (.scl (.shli d a imm)))
  | .shri c eob d a imm => some (c, eob, (.scl (.shri d a imm)))
  | .movi c eob d imm => some (c, eob, (.scl (.movi d imm)))
  | .amov c eob d r => some (c, eob, (.scl (.amov d r)))
  | .aadd c eob d a r => some (c, eob, (.scl (.aadd d a r)))
  | .amovi c eob d imm => some (c, eob, (.scl (.amovi d imm)))
  | .smova c eob d a => some (c, eob, (.scl (.smova d a)))
  | .rdlc c eob d l => some (c, eob, (.scl (.rdlc d l)))
  | .setzp c eob r => some (c, eob, (.scl (.setzp r)))
  | .setos c eob r => some (c, eob, (.scl (.setos r)))
  | .setinc c eob n l r => some (c, eob, (.scl (.setinc n l r)))
  | .setbind c eob n mask => some (c, eob, (.scl (.setbind n mask)))
  | .tagWaitRelease _ _ => none
  | .scrubBeat _ _ _ => none
  | .sequencerWatchdogExpiry _ => none
  | .wcetOverrun => none
  | .doorbell _ _ => none
  | .descriptorFetch _ _ => none
  | .accept _ => none
  | .dispatch _ => none
  | .tokenTaken _ => none
  | .sealedTimeout _ => none
  | .timeSlicePreemption _ => none
  | .runDrained _ => none
  | .rtDoorbell _ => none
  | .rtStepStart => none
  | .enableWrite _ _ _ => none
  | .kill _ _ _ => none
  | .fetchWrite _ _ _ => none
  | .coreMaskWrite _ _ _ => none
  | .windowRecordWrite _ _ _ _ => none
  | .load _ _ _ => none
  | .imageLoadDone _ _ => none
  | .arm _ _ => none
  | .armComplete => none
  | .disarm _ => none
  | .disarmComplete => none
  | .rtArm _ => none
  | .slotWrite _ _ _ => none
  | .sessionClear _ _ => none
  | .codebookPendingWrite _ _ _ => none
  | .codebookSwitch _ _ => none
  | .curveSwitch _ _ => none
  | .qpolicySwitch _ _ => none
  | .directorySwitch _ _ => none
  | .pendingVersion _ _ => none
  | .residentLoadDone _ _ => none
  | .equinox _ _ => none
  | .deleteSet _ _ => none
  | .cwordWrite _ _ _ => none
  | .windowStartWrite _ _ => none
  | .rootWrite _ _ _ => none
  | .invalidate _ _ _ => none
  | .rtPin _ _ _ _ => none
  | .pageWalkReadReturn _ _ _ _ => none
  | .portReadData _ _ _ _ => none
  | .portWriteAck _ _ => none
  | .portFlushDone _ _ => none
  | .portErrorResponse _ _ _ => none
  | .portTimeout _ _ => none
  | .linkUpFall _ => none
  | .linkUpRise _ => none
  | .settlingExpiry _ => none
  | .resume _ _ _ => none
  | .attach _ => none
  | .linkGroupReceived _ _ => none
  | .linkReplay _ => none
  | .idleGroup _ => none
  | .linkFailed _ => none
  | .phyUpChange _ _ => none
  | .linkWrite _ => none
  | .linkRead _ => none
  | .linkFlush _ => none
  | .chain _ => none
  | .rdata _ => none
  | .flushDone _ => none
  | .hello _ => none
  | .helloTimer => none
  | .pstate _ => none
  | .pstateOrderInstant => none
  | .pdmsg _ => none
  | .event _ => none
  | .relayTimeout => none
  | .inboundWindowWrite _ _ _ => none
  | .peerEventsClear _ _ => none
  | .idleTimeoutExpiry => none
  | .winterEntry => none
  | .drainLimitExpiry => none
  | .wakeEvent _ => none
  | .wakeAtExpiry => none
  | .thawComplete _ => none
  | .thawReloadRetry _ => none
  | .thawReloadAbandon => none
  | .routineStoreReload _ => none
  | .pwrAckRise _ => none
  | .pwrAckLoss _ => none
  | .pstAckRise => none
  | .pstAckTimeout => none
  | .glideEnd => none
  | .droopDetect _ _ => none
  | .alertNFall => none
  | .alertHoldExpiry => none
  | .estimatorPeriod _ => none
  | .tlmSample _ => none
  | .calPeriodEnd => none
  | .thermalSample _ => none
  | .thermalRestExpiry => none
  | .lockstepMismatch _ => none
  | .failover _ _ _ => none
  | .periodicSelftest _ _ _ => none
  | .stewardHeartbeatMiss _ => none
  | .stewardRejoin _ => none
  | .stripRateWindowEnd _ => none
  | .agingMonitorRead _ _ => none
  | .interconnectParityError _ => none
  | .start => none
  | .startPhaseDone _ => none
  | .startFail _ _ => none
  | .readyTimeout => none
  | .probationEnd => none
  | .stewardWatchdogFire => none
  | .mwStep _ _ _ _ => none
  | .mwSelftest _ _ _ _ => none
  | .slotRecordWrite _ _ _ _ => none
  | .fwUpdate _ _ _ => none
  | .updateRollback _ _ => none
  | .libraryLoad _ _ => none
  | .calSwitch _ _ => none
  | .coreService _ _ => none
  | .pdRead _ _ _ _ _ _ _ => none
  | .pdWrite _ _ _ _ _ _ _ _ => none
  | .irqClear _ => none
  | .timeLoRead => none
  | .ctlRegisterWrite _ _ _ => none
  | .aonReset _ _ _ _ => none
  | .fuseValidRise _ _ _ => none
  | .pclkReset => none
  | .mvpPassLanded _ => none
  | .weightLoadEnd _ => none
  | .readoutLanded _ => none
  | .vectorOperationLanded _ => none
  | .deepScratchWriteLanded _ => none
  | .tapLoadLanded _ => none
  | .ageLimitElapsed _ => none
  | .pllLock => none
  | .pwrAckFall _ => none
  | .libraryLoadDone _ => none
  | .coreServiceTestDone _ => none
  | .pclkResetRelease => none
  | .wrapperInstructionUpdate _ => none
  | .wrapperReset => none
  | .segmentInsertionUpdate _ _ => none
  | .networkReset => none

end Sys2Proof
end

