-- ==== Sys2Proof/Certificates/Slice0/Obligations.lean ====
section
/-!
DEFINITION. The statements for the provers.
-/
open Sys2Proof Sys2Proof.Machine Sys2Proof.Safety

/-! ### The queue of commands -/

/-- A step runs the command at the front of the queue with the queue's rest; with nothing waiting one clock edge passes (the
idle step is the model's choice, assumption log 1). -/
def Obligations.step_runs_front : Prop :=
  (∀ (s : State) (i : Instr) (rest : List Instr), s.pending = i :: rest → step s = exec i { s with pending := rest }) ∧
  (∀ s : State, s.pending = [] → step s = .next (clockEdge s))

/-! ### Slots of a bundle (chapter 8) -/

/-- A slot command that does not close its bundle is only staged: it enters the bundle behind the slots staged before (R188). All
slot commands.

A bundle that closes while an earlier one is held waits behind it; nothing else changes (R188, R189, R206). All slot commands.

A slot command of a core that issues nothing is refused by name, and so is a bundle with two slots of one number (R184, R203,
R204, R225). All slot commands. -/
def Obligations.slot_commands_enter_bundles : Prop :=
  (∀ (i : Instr) (c : CoreId) (o : SlotOp) (s : State) (p : PartId) (r : RunSt) (x : StepRec),
     i.slotOp = some (c, false, o) → s.issuing c = true → s.stepOf c = some (p, r, x) →
     ((s.core c).staged ++ [o]).Pairwise (fun a b => a.slot ≠ b.slot) →
     ∃ t, exec i s = .next t ∧ t.core c = { s.core c with staged := (s.core c).staged ++ [o] } ∧
       OthersSame s t c ∧ t.parts = s.parts ∧ t.rt = s.rt) ∧
  (∀ (i : Instr) (c : CoreId) (o : SlotOp) (s : State) (p : PartId) (r : RunSt) (x : StepRec),
     i.slotOp = some (c, true, o) → s.issuing c = true → s.stepOf c = some (p, r, x) → (s.core c).fetched ≠ [] →
     ((s.core c).staged ++ [o]).Pairwise (fun a b => a.slot ≠ b.slot) →
     ∃ t, exec i s = .next t ∧
       t.core c = { s.core c with staged := [], fetched := (s.core c).fetched ++ [(s.core c).staged ++ [o]] } ∧
       OthersSame s t c ∧ t.parts = s.parts ∧ t.rt = s.rt) ∧
  (∀ (i : Instr) (c : CoreId) (e : Bool) (o : SlotOp) (s : State), i.slotOp = some (c, e, o) →
     (s.issuing c = false → exec i s = .refused .coreNotIssuing) ∧
     (∀ p r x, s.issuing c = true → s.stepOf c = some (p, r, x) → (∃ a ∈ (s.core c).staged, a.slot = o.slot) →
       exec i s = .refused .unverifiedBundle))

/-- The three-register scalar operations ADD, SUB, MUL, SCL_AND, SCL_OR, SCL_XOR, MIN, MAX, SLT, SCL_SHL, SHR and SCL_SRA, alone in a
bundle: the result, s0 as operand and as destination included, and the frame (R185, R215). -/
def Obligations.scalar_register_operations : Prop :=
  ∀ (s : State) (c : CoreId) (p : PartId) (r : RunSt) (x : StepRec), Straight s c p r x →
    ∀ (f : SBin) (d a b : SReg), ∃ t, exec (scalarCmd f c d a b) s = .next t ∧
      t.core c = withS (moved (s.core c)) d (scalarValue f ((s.core c).sreg a) ((s.core c).sreg b)) ∧ OthersSame s t c

/-- ADDI, ORI, SHLI, SHRI and MOVI, alone in a bundle (R215). -/
def Obligations.scalar_immediate_operations : Prop :=
  ∀ (s : State) (c : CoreId) (p : PartId) (r : RunSt) (x : StepRec), Straight s c p r x →
    ∀ (f : ScalarImm) (d : SReg), ∃ t, exec (immCmd f c d) s = .next t ∧
      t.core c = withS (moved (s.core c)) d (immValue f (s.core c)) ∧ OthersSame s t c

/-- AMOV, AADD, AMOVI, SMOVA and RDLC, alone in a bundle (R185, R215): address arithmetic wraps at 32 bits, reads are zero-extended;
an address register bound to a running loop is not written (R217).

SETZP, SETOS, SETINC and SETBIND, alone in a bundle (R216, R217): the zero point takes 8 bits, the output scale and an increment
32 bits, a binding its mask; neither of a register bound to a running loop. -/
def Obligations.address_registers_and_settings : Prop :=
  (∀ (s : State) (c : CoreId) (p : PartId) (r : RunSt) (x : StepRec), Straight s c p r x →
     ∀ (d a : AReg) (e : SReg) (q : SReg) (l : Fin 4) (imm : BitVec 22),
       ((s.core c).boundRunning d = false → ∃ t, exec (.amov c true d q) s = .next t ∧ OthersSame s t c ∧
         t.core c = { moved (s.core c) with a := (s.core c).a.set d.val (BitVec.ofNat 32 ((s.core c).sreg q).toNat) d.isLt }) ∧
       ((s.core c).boundRunning d = false → ∃ t, exec (.aadd c true d a q) s = .next t ∧ OthersSame s t c ∧
         t.core c = { moved (s.core c) with
           a := (s.core c).a.set d.val (BitVec.ofNat 32 ((s.core c).a[a.val].toNat + ((s.core c).sreg q).toNat)) d.isLt }) ∧
       ((s.core c).boundRunning d = false → ∃ t, exec (.amovi c true d imm) s = .next t ∧ OthersSame s t c ∧
         t.core c = { moved (s.core c) with a := (s.core c).a.set d.val (BitVec.ofNat 32 imm.toNat) d.isLt }) ∧
       (∃ t, exec (.smova c true e a) s = .next t ∧ OthersSame s t c ∧
         t.core c = withS (moved (s.core c)) e (BitVec.ofNat 64 (s.core c).a[a.val].toNat)) ∧
       (∃ t, exec (.rdlc c true e l) s = .next t ∧ OthersSame s t c ∧
         t.core c = withS (moved (s.core c)) e (BitVec.ofNat 64 (s.core c).lc[l.val].toNat))) ∧
  (∀ (s : State) (c : CoreId) (p : PartId) (r : RunSt) (x : StepRec), Straight s c p r x →
     ∀ (n : AReg) (l : Fin 4) (q : SReg) (m : BitVec 4),
       (∃ t, exec (.setzp c true q) s = .next t ∧ OthersSame s t c ∧
         t.core c = { moved (s.core c) with zp := BitVec.ofNat 8 ((s.core c).sreg q).toNat }) ∧
       (∃ t, exec (.setos c true q) s = .next t ∧ OthersSame s t c ∧
         t.core c = { moved (s.core c) with os := BitVec.ofNat 32 ((s.core c).sreg q).toNat }) ∧
       ((s.core c).boundRunning n = false → ∃ t, exec (.setinc c true n l q) s = .next t ∧ OthersSame s t c ∧
         t.core c = { moved (s.core c) with
           ainc := (s.core c).ainc.set (4 * n.val + l.val) (BitVec.ofNat 64 (((s.core c).sreg q).toNat % 2 ^ 32)) (by omega) }) ∧
       ((s.core c).boundRunning n = false → ∃ t, exec (.setbind c true n m) s = .next t ∧ OthersSame s t c ∧
         t.core c = { moved (s.core c) with abind := (s.core c).abind.set n.val (BitVec.ofNat 64 m.toNat) n.isLt }))

/-! ### Vector operations (R133 to R142, R214) -/

/-- IADD, ISUB, IMUL, IMIN, IMAX, ICMPLT, ICMPEQ, VEC_AND, VEC_OR and VEC_XOR, alone in a bundle: every lane of the result enters the
pipeline, and SAT is set when some lane saturates (Table 5-5). -/
def Obligations.vector_integer_operations : Prop :=
  ∀ (s : State) (c : CoreId) (p : PartId) (r : RunSt) (x : StepRec), Straight s c p r x →
    ∀ (f : IntOp) (d a b : VReg), ∃ t, exec (intCmd f c d a b) s = .next t ∧
      VecIssued s t c [(d, Vector.ofFn (fun i : Fin 64 => intLane f ((s.core c).v[a.val])[i.val] ((s.core c).v[b.val])[i.val]))]
        (if intSaturates f (s.core c).v[a.val] (s.core c).v[b.val] then fSAT else 0)

/-- FADD, FSUB, FMUL, FMIN, FMAX, FCMPLT, FCMPLE, FCMPEQ and FSCALB, alone in a bundle (R45, R46, Table 5-5). -/
def Obligations.vector_float_operations : Prop :=
  ∀ (s : State) (c : CoreId) (p : PartId) (r : RunSt) (x : StepRec), Straight s c p r x →
    ∀ (f : FloatOp) (d a b : VReg), ∃ t, exec (floatCmd f c d a b) s = .next t ∧
      VecIssued s t c [(d, (lanesOf (floatLane f) (s.core c).v[a.val] (s.core c).v[b.val]).1)]
        (lanesOf (floatLane f) (s.core c).v[a.val] (s.core c).v[b.val]).2

/-- FMAD, SEL, VEC_SHL, VEC_SRA and VBCS, alone in a bundle: two roundings, a choice by the third register, shifts by the immediate,
the low 32 bits of a scalar in every lane (Table 5-5). -/
def Obligations.vector_mixed_operations : Prop :=
  ∀ (s : State) (c : CoreId) (p : PartId) (r : RunSt) (x : StepRec), Straight s c p r x →
    ∀ (d a b e : VReg) (sh : Fin 32) (q : SReg),
      let va := (s.core c).v[a.val]
      let vb := (s.core c).v[b.val]
      let ve := (s.core c).v[e.val]
      (∃ t, exec (.fmad c true d a b e) s = .next t ∧
        VecIssued s t c [(d, Vector.ofFn (fun i : Fin 64 => (add32 (mul32 va[i.val] vb[i.val]).1 ve[i.val]).1))]
          (orFlags ((List.finRange 64).map (fun i =>
            (mul32 va[i.val] vb[i.val]).2 ||| (add32 (mul32 va[i.val] vb[i.val]).1 ve[i.val]).2)))) ∧
      (∃ t, exec (.sel c true d a b e) s = .next t ∧
        VecIssued s t c [(d, Vector.ofFn (fun i : Fin 64 => if ve[i.val] ≠ 0 then va[i.val] else vb[i.val]))] 0) ∧
      (∃ t, exec (.vecShl c true d a sh) s = .next t ∧
        VecIssued s t c [(d, Vector.ofFn (fun i : Fin 64 => BitVec.ofNat 32 (va[i.val].toNat * 2 ^ sh.val)))] 0) ∧
      (∃ t, exec (.vecSra c true d a sh) s = .next t ∧
        VecIssued s t c [(d, Vector.ofFn (fun i : Fin 64 => BitVec.ofInt 32 (va[i.val].toInt / 2 ^ sh.val)))] 0) ∧
      (∃ t, exec (.vbcs c true d q) s = .next t ∧
        VecIssued s t c [(d, Vector.replicate 64 (BitVec.ofNat 32 ((s.core c).sreg q).toNat))] 0)

/-- FABS, FNEG, CVTIF, CVTFI, FCEXP and the reductions FRSUM, FRMAX and IRSUM, alone in a bundle (R135, R136). -/
def Obligations.vector_unary_operations : Prop :=
  ∀ (s : State) (c : CoreId) (p : PartId) (r : RunSt) (x : StepRec), Straight s c p r x →
    ∀ (f : VUn) (d a : VReg), ∃ t, exec (unaryCmd f c d a) s = .next t ∧
      VecIssued s t c [(d, (unaryResult f (s.core c).v[a.val]).1)] (unaryResult f (s.core c).v[a.val]).2

/-- FRND, CURVE, VEXT, ARGMAX and TOPK, alone in a bundle: FRND names a format the slot may name, CURVE uses the step's record of the
curve, VEXT takes a lane sign-extended to a scalar register, ARGMAX and TOPK take N from 1 to the lanes of their window (R135, R137,
R138, R142, R457). -/
def Obligations.vector_table_and_search_operations : Prop :=
  ∀ (s : State) (c : CoreId) (p : PartId) (r : RunSt) (x : StepRec), Straight s c p r x →
    ∀ (d a : VReg) (f : BitVec 4) (n : Fin 32) (e : SReg) (lane : Fin 64) (sN sB : SReg) (hi idx dir int : Bool),
      let k := s.core c
      let va := k.v[a.val]
      let vd := k.v[d.val]
      let first := if hi then 32 else 0
      let size := if hi then 32 else 64
      let base : Word := BitVec.ofNat 32 (k.sreg sB).toNat
      (formatNamed f = true → ∃ t, exec (.frnd c true d a f) s = .next t ∧
        VecIssued s t c [(d, (lanesOf1 (frnd (fmtD f.toNat)) va).1)] (lanesOf1 (frnd (fmtD f.toNat)) va).2) ∧
      (∃ t, exec (.curve c true d a n) s = .next t ∧
        VecIssued s t c [(d, (lanesOf1 (curveLane (curveBytes x.tables n)) va).1)]
          (lanesOf1 (curveLane (curveBytes x.tables n)) va).2) ∧
      (∃ t, exec (.vext c true e a lane) s = .next t ∧ OthersSame s t c ∧
        t.core c = { moved k with vecQ := [{ seq := k.seq, eff := .scalar e (BitVec.ofInt 64 (va[lane.val]).toInt) }] }) ∧
      (1 ≤ k.s32 sN ∧ k.s32 sN ≤ size → ∃ t, exec (.argmax c true d a sN sB hi idx dir int) s = .next t ∧
        let cs := candidates int va (fun j => base + BitVec.ofNat 32 j) first (k.s32 sN)
        VecIssued s t c [(d, argmax int vd cs.1)] cs.2) ∧
      (1 ≤ k.s32 sN ∧ k.s32 sN ≤ size ∧ d.val % 2 = 0 → ∃ t, exec (.topk c true d a sN sB hi idx dir int) s = .next t ∧
        let vi := k.v[(a.val + 1) % 32]'(Nat.mod_lt _ (by decide))
        let vn := k.v[(d.val + 1) % 32]'(Nat.mod_lt _ (by decide))
        let cs := candidates int va (fun j => if idx then nth 0 vi.toList (first + j) else base + BitVec.ofNat 32 j) first (k.s32 sN)
        let out := topk int dir vd vn cs.1
        VecIssued s t c [(d, out.1), (⟨(d.val + 1) % 32, Nat.mod_lt _ (by decide)⟩, out.2)] cs.2)

/-- VLD and VLDW, alone in a bundle, where the window, the tags and the words let them read: the lanes are the bytes of near scratch,
widened by VLDW, and a TAKE clears the tags it takes (R164, R168, R169, R214).

VST, VSTN and SCLW, alone in a bundle, with the store in the window: the bytes are formed now and wait for their landing; no byte
of memory changes yet. VSTN narrows with the output scale and counts what it narrows and clips; SCLW writes UE5M3 codes (R70, R75, R140,
R164, R214). -/
def Obligations.vector_loads_and_stores : Prop :=
  (∀ (s : State) (c : CoreId) (p : PartId) (r : RunSt) (x : StepRec), Straight s c p r x →
     ∀ (v : VReg) (a : AReg) (tag : BitVec 2) (f : BitVec 4) (o : BitVec 11), tag ≠ 3 →
       let k := s.core c
       let at_ := (k.areg a.val + 32 * o.toNat) % 2 ^ 32
       let n := (fmtD f.toNat).bytes 64
       let after := fun (len : Nat) => (k.takeTags (readTag tag.toNat) [(k.win.phys at_, len)]).fullTag
       (NearOk s c at_ 256 → k.readReady (readTag tag.toNat) [(k.win.phys at_, 256)] = true →
         ∃ t, exec (.vld c true v a tag o) s = .next t ∧ OthersSame s t c ∧
           t.core c = { moved k with
             fullTag := after 256,
             vecQ := [{ seq := k.seq, eff := .regs [(v, Vector.ofFn (fun i : Fin 64 =>
               BitVec.ofNat 32 (leNat (k.nearRead (k.win.phys at_ + 4 * i.val) 4))))] }] }) ∧
       (formatNamed f = true → NearOk s c at_ n → k.readReady (readTag tag.toNat) [(k.win.phys at_, n)] = true →
         ∃ t, exec (.vldw c true v a tag f o) s = .next t ∧ OthersSame s t c ∧
           let ls := (List.finRange 64).map (fun i => widenLane (fmtD f.toNat) (elem (fmtD f.toNat) (k.nearRead (k.win.phys at_) n) i.val))
           t.core c = { moved k with
             fullTag := after n,
             vecQ := [{ seq := k.seq, eff := .regs [(v, Vector.ofFn (fun i : Fin 64 => (ls.getD i.val (0, 0)).1))] }],
             vecFlags := k.vecFlags ||| orFlags (ls.map (·.2)) })) ∧
  (∀ (s : State) (c : CoreId) (p : PartId) (r : RunSt) (x : StepRec), Straight s c p r x →
     ∀ (v : VReg) (a : AReg) (tag : BitVec 2) (f : BitVec 4) (o : BitVec 11) (n1 : Fin 64) (o9 : BitVec 9), tag.toNat < 2 →
       let k := s.core c
       let lanes := (k.v[v.val]).toList
       let at_ := (k.areg a.val + 32 * o.toNat) % 2 ^ 32
       let ab := (k.areg a.val + o9.toNat) % 2 ^ 32
       let narrow := lanes.map (fun w => narrowScaled (fmtD f.toNat) w k.os)
       let scales := (lanes.take (n1.val + 1)).map (fun w => toUE5M3 (val32 w))
       (at_ + 256 ≤ k.win.nsl * 1024 → ∃ t, exec (.vst c true v a tag o) s = .next t ∧ OthersSame s t c ∧
         t.core c = { moved k with
           vecQ := [⟨k.seq, .store (k.win.phys at_) (lanes.flatMap (fun w => leBytes 4 w.toNat)) (decide (tag = 1))⟩] }) ∧
       (formatNamed f = true → at_ + (fmtD f.toNat).bytes 64 ≤ k.win.nsl * 1024 →
         ∃ t, exec (.vstn c true v a tag f o) s = .next t ∧ OthersSame s t c ∧
           t.core c = { moved (k.countNarrow 64 (clips (narrow.map (·.2)))) with
             vecFlags := k.vecFlags ||| orFlags (narrow.map (·.2)),
             vecQ := [⟨k.seq, .store (k.win.phys at_) (packBits (fmtD f.toNat).bits (narrow.map (·.1))) (decide (tag = 1))⟩] }) ∧
       (ab + (n1.val + 1) ≤ k.win.nsl * 1024 → ∃ t, exec (.sclw c true v a tag n1 o9) s = .next t ∧ OthersSame s t c ∧
         t.core c = { moved (k.countNarrow (n1.val + 1) (clips (scales.map (·.2)))) with
           vecFlags := k.vecFlags ||| orFlags (scales.map (·.2)),
           vecQ := [⟨k.seq, .store (k.win.phys ab) (scales.map (fun y => BitVec.ofNat 8 y.1)) (decide (tag = 1))⟩] }))

/-! ### The sequencer (R189 to R204) -/

/-- LOOP in fewer than four loops (R191): a count of 0 skips the body; any other opens the loop with count 0 reached and the bound
address registers as they stand. The body lies in the code and in the enclosing loop; with a count of 0, before their last bundles.

At the last bundle of the innermost loop, any bundle that only moves on ends an iteration (R191, R217): below the count the loop
counter rises, every bound address register takes its increment and the pc returns to the first bundle; at the count the loop is left,
its counter is 0, the bound registers are as they were at its LOOP, and the next bundle follows, or the end test of the enclosing loop
where that ends at the same bundle. Stated for WAIT with an empty mask.

EXITN in a loop (R194): with bit 63 set the loop is left at once, as at its end test; with it clear the bundle moves on. -/
def Obligations.loops : Prop :=
  (∀ (s : State) (c : CoreId) (p : PartId) (r : RunSt) (x : StepRec), Straight s c p r x →
     ∀ (csrc : Bool) (len : BitVec 11) (cnt : BitVec 14) (h : (s.core c).loops.length < 4), len ≠ 0 → (csrc = true ∨ cnt.toNat < 32) →
       let k := s.core c
       let n := if csrc then cnt.toNat else k.s32 ⟨cnt.toNat % 32, Nat.mod_lt _ (by decide)⟩
       k.pc + len.toNat < k.codeLen → (∀ l rest, k.loops = l :: rest → k.pc + len.toNat ≤ l.last) →
       (n = 0 → k.pc + len.toNat + 1 < k.codeLen ∧ ∀ l rest, k.loops = l :: rest → k.pc + len.toNat < l.last) →
       ∃ t, exec (.loop c true csrc len cnt) s = .next t ∧ OthersSame s t c ∧
         t.core c =
           if n = 0 then { moved k with pc := k.pc + len.toNat + 1 }
           else { moved k with
             lc := k.lc.set k.loops.length 0 h,
             loops := { cnt := n, first := k.pc + 1, last := k.pc + len.toNat,
                        snap := ((List.range 16).filter (fun i => (k.abind.toList.getD i 0).getLsbD k.loops.length)).map (fun i =>
                          (i, BitVec.ofNat 32 (k.areg i))) } :: k.loops }) ∧
  (∀ (s : State) (c : CoreId) (p : PartId) (r : RunSt) (x : StepRec) (l : LoopRec) (rest : List LoopRec) (h : rest.length < 4),
     Ready s c p r x → (s.core c).loops = l :: rest → l.last = (s.core c).pc → l.first < (s.core c).codeLen →
     (s.core c).pc + 1 < (s.core c).codeLen →
     let k := s.core c
     let done := k.lc[rest.length].toNat + 1
     let left := { k with
       loops := rest,
       lc := k.lc.set rest.length 0 h,
       a := Vector.ofFn (fun i : Fin 16 => if (k.abind[i.val]).getLsbD rest.length then Tab.get k.a[i.val] l.snap i.val else k.a[i.val]) }
     (done < l.cnt → ∃ t, exec (.wait c true 0) s = .next t ∧ OthersSame s t c ∧
       t.core c = { moved k with
         pc := l.first,
         lc := k.lc.set rest.length (BitVec.ofNat 32 done) h,
         a := Vector.ofFn (fun i : Fin 16 => if (k.abind[i.val]).getLsbD rest.length then
           k.a[i.val] + BitVec.ofNat 32 (k.ainc[4 * i.val + rest.length]'(by omega)).toNat else k.a[i.val]) }) ∧
     (l.cnt ≤ done → (∀ m more, rest = m :: more → m.last ≠ k.pc) →
       ∃ t, exec (.wait c true 0) s = .next t ∧ OthersSame s t c ∧ t.core c = moved left) ∧
     (l.cnt ≤ done → (∀ m more, rest = m :: more → m.last = k.pc) → (∀ m ∈ rest, m.first < k.codeLen) →
       ∃ t u, exec (.wait c true 0) s = .next t ∧ OthersSame s t c ∧
         exec (.wait c true 0) (s.modCore c (fun _ => left)) = .next u ∧ t.core c = u.core c)) ∧
  (∀ (s : State) (c : CoreId) (p : PartId) (r : RunSt) (x : StepRec) (l : LoopRec) (rest : List LoopRec) (h : rest.length < 4),
     Ready s c p r x → (s.core c).loops = l :: rest → (s.core c).pc + 1 < (s.core c).codeLen → l.last + 1 < (s.core c).codeLen →
     (∀ m more, rest = m :: more → m.last ≠ l.last) →
     ∀ (q : SReg),
       let k := s.core c
       l.last ≠ k.pc ∨ (k.sreg q).toInt < 0 →
       ∃ t, exec (.exitn c true q) s = .next t ∧ OthersSame s t c ∧
         t.core c =
           if (k.sreg q).toInt < 0 then { moved k with
             pc := l.last + 1,
             loops := rest,
             lc := k.lc.set rest.length 0 h,
             a := Vector.ofFn (fun i : Fin 16 =>
               if (k.abind[i.val]).getLsbD rest.length then Tab.get k.a[i.val] l.snap i.val else k.a[i.val]) }
           else moved k)

/-- SKIPZ, SKIPNZ and EXITN (R193, R194): a skip jumps n bundles further or moves on by its register; EXITN moves on while bit 63 of its
register is 0, and outside any loop. -/
def Obligations.skips_and_exit : Prop :=
  ∀ (s : State) (c : CoreId) (p : PartId) (r : RunSt) (x : StepRec), Straight s c p r x →
    ∀ (q : SReg) (n : BitVec 11), n ≠ 0 → (s.core c).pc + 1 + n.toNat < (s.core c).codeLen →
      let k := s.core c
      (∃ t, exec (.skipz c true q n) s = .next t ∧ OthersSame s t c ∧
        t.core c = if k.sreg q = 0 then { moved k with pc := k.pc + 1 + n.toNat } else moved k) ∧
      (∃ t, exec (.skipnz c true q n) s = .next t ∧ OthersSame s t c ∧
        t.core c = if k.sreg q = 0 then moved k else { moved k with pc := k.pc + 1 + n.toNat }) ∧
      ((k.loops = [] ∨ 0 ≤ (k.sreg q).toInt) → ∃ t, exec (.exitn c true q) s = .next t ∧ OthersSame s t c ∧ t.core c = moved k)

/-- CALL of a routine of the step's directory (R197), in loops or outside: the caller's pc, code length, window, loops, counters,
address registers, increments and bindings are saved, the window narrows to the part the caller names, loops, counters, increments and
bindings start empty but for the routine's own records, scalar and vector registers and memory stay, and the routine runs from its
first bundle once the transfer's hold is released.

CALL of a routine that the directory does not hold ends the step with 0x0B and the routine's ID; a window below the routine's least
length, or outside the caller's, ends it with 0x03 (R197, R234, Table 10-5).

RET in a routine (R197): everything that CALL saved comes back, the descriptors are those of bank 0 again, and scalar and vector
registers and memory stay. -/
def Obligations.call_and_return : Prop :=
  (∀ (s : State) (c : CoreId) (p : PartId) (r : RunSt) (x : StepRec), Straight s c p r x → (s.core c).frame = none →
     ∀ (q : SReg) (id : BitVec 16) (d : RoutineRec),
       let k := s.core c
       let off := (k.sreg q).toNat % 2 ^ 11
       let len := (k.sreg q).toNat / 2 ^ 16 % 2 ^ 12
       let recs := 16 * (d.flags / 256 % 256)
       bitAt (imageLimits x).1 2 = true → x.tables.dir.find? (fun e => decide (e.id = id.toNat)) = some d →
       len ≠ 0 → d.minLen ≤ len → off + len ≤ k.win.nsl → 0 < d.bundles →
       s.storePoisonIn c d.descOff recs = none → marksIn (s.start.storeFlip[c.val / 5]'(by omega)) [(d.descOff, recs)] = [] →
       ∃ t, exec (.call c true q id) s = .next t ∧ OthersSame s t c ∧
         (t.core c).frame = some { pc := k.pc + 1, codeLen := k.codeLen, win := k.win, loops := k.loops, lc := k.lc, a := k.a,
                                   ainc := k.ainc, abind := k.abind } ∧
         (t.core c).pc = 0 ∧ (t.core c).codeLen = d.bundles ∧ (t.core c).codeBase = 32 * d.storeOff ∧
         (t.core c).win = ⟨k.win.nsb + off, len⟩ ∧ (t.core c).loops = [] ∧ (t.core c).lc = Vector.replicate 4 0 ∧
         (recs = 0 → (t.core c).ainc = Vector.replicate 64 0 ∧ (t.core c).abind = Vector.replicate 16 0) ∧
         (t.core c).timed = true ∧ (t.core c).s = k.s ∧ (t.core c).v = k.v ∧ (t.core c).a = k.a ∧ (t.core c).near = k.near ∧
         (t.core c).bank0 = k.bank0) ∧
  (∀ (s : State) (c : CoreId) (p : PartId) (r : RunSt) (x : StepRec), Straight s c p r x → (s.core c).frame = none → r.phase = .running →
     ∀ (q : SReg) (id : BitVec 16), bitAt (imageLimits x).1 2 = true →
       let k := s.core c
       let off := (k.sreg q).toNat % 2 ^ 11
       let len := (k.sreg q).toNat / 2 ^ 16 % 2 ^ 12
       (x.tables.dir.find? (fun e => decide (e.id = id.toNat)) = none → ∃ t, exec (.call c true q id) s = .next t ∧
         ∃ y, (t.part p).run = some y ∧ y.phase = .draining (.fault 0x0B (BitVec.ofNat 32 id.toNat))) ∧
       (∀ d, x.tables.dir.find? (fun e => decide (e.id = id.toNat)) = some d →
         (len = 0 ∨ len < d.minLen ∨ k.win.nsl < off + len) → ∃ t, exec (.call c true q id) s = .next t ∧
           ∃ y, (t.part p).run = some y ∧ y.phase = .draining (.fault 0x03 0))) ∧
  (∀ (s : State) (c : CoreId) (p : PartId) (r : RunSt) (x : StepRec) (f : Frame), Ready s c p r x →
     (s.core c).frame = some f → f.pc < f.codeLen →
     let k := s.core c
     ∃ t, exec (.ret c true) s = .next t ∧ OthersSame s t c ∧
       t.core c = { moved k with
         frame := none, pc := f.pc, codeLen := f.codeLen, codeBase := 0, win := f.win, loops := f.loops, lc := f.lc, a := f.a,
         ainc := f.ainc, abind := f.abind, timed := true })

/-- WAIT, WAITEV and DELAY (R189, R200, R202): WAIT of a core with nothing in flight moves on whatever its mask; WAITEV moves on once
the partition's counter has reached the register and holds its bundle at issue below it; DELAY of n above 0 holds the next bundle
until the hold is released. -/
def Obligations.waits_and_delay : Prop :=
  ∀ (s : State) (c : CoreId) (p : PartId) (r : RunSt) (x : StepRec), Straight s c p r x →
    ∀ (mask : BitVec 14) (q : SReg) (e : Fin 16) (n : BitVec 16),
      let k := s.core c
      (∃ t, exec (.wait c true mask) s = .next t ∧ OthersSame s t c ∧ t.core c = moved k) ∧
      (k.s32 q ≤ (s.part p).events[e.val].toNat →
        ∃ t, exec (.waitev c true q e) s = .next t ∧ OthersSame s t c ∧ t.core c = moved k) ∧
      ((s.part p).events[e.val].toNat < k.s32 q →
        ∃ t, exec (.waitev c true q e) s = .next t ∧ OthersSame s t c ∧
          t.core c = { k with fetched := [[.seq (.waitev q e)]] }) ∧
      (∃ t, exec (.delay c true n) s = .next t ∧ OthersSame s t c ∧ t.core c = { moved k with timed := decide (n ≠ 0) })

/-- STRIP and SIGNAL (R201, R202): STRIP takes the partition's next number and raises the counter, or reads all ones when the step's
strips are exhausted or the core is parked; SIGNAL leaves its counter to SIGNAL_TAKES_EFFECT. -/
def Obligations.strip_and_signal : Prop :=
  ∀ (s : State) (c : CoreId) (p : PartId) (r : RunSt) (x : StepRec), Straight s c p r x →
    ∀ (d : SReg) (e : Fin 16),
      let k := s.core c
      let n := (s.part p).stripCounter
      let first := match k.firstStrip with | some y => some y | none => some k.runCclk
      (n < x.desc.strips → c ∉ s.power.parked → ∃ t, exec (.strip c true d) s = .next t ∧ OthersSame s t c ∧
        (t.part p).stripCounter = n + 1 ∧
        t.core c = { withS (moved k) d (BitVec.ofNat 64 n) with firstStrip := first, strips := k.strips + 1 }) ∧
      ((x.desc.strips ≤ n ∨ c ∈ s.power.parked) → ∃ t, exec (.strip c true d) s = .next t ∧ OthersSame s t c ∧
        (t.part p).stripCounter = n ∧
        t.core c = { withS (moved k) d (BitVec.allOnes 64) with firstStrip := first }) ∧
      (∃ t, exec (.signal c true e) s = .next t ∧ OthersSame s t c ∧
        (t.part p).events = (s.part p).events ∧ t.core c = { moved k with signals := [(k.seq, e)] })

/-- COMMIT of a core with nothing in flight that wrote no other engine sends its token to the collector and ends its part; one that
wrote into OPEN engines asks each for a FLUSH_DONE first, and its token waits; HALT of a test image ends issue without a token (R203,
R204, R346). The last bundle of the code included. -/
def Obligations.commit_and_halt : Prop :=
  ∀ (s : State) (c : CoreId) (p : PartId) (r : RunSt) (x : StepRec), Ready s c p r x →
    (∀ l rest, (s.core c).loops = l :: rest → l.last ≠ (s.core c).pc) →
    let k := s.core c
    (k.remoteDirty = 0 → ∃ t, exec (.commit c true) s = .next t ∧
      t.core c = { moved k with phase := .committed, remoteFlush := 0 } ∧ (∀ d, d ≠ c → t.core d = s.core d) ∧ t.deep = s.deep ∧
      ∃ y, (t.part p).run = some y ∧ y.arrived = r.arrived ++ [
        { core := c, flags := k.allFlags, narrowed := k.narrowed, clipped := k.clipped, ports := k.portMask, strips := k.strips,
          stripCclk := match k.firstStrip with | some z => k.runCclk - z | none => 0 }]) ∧
    (k.remoteDirty ≠ 0 → (∀ e : Fin 8, k.remoteDirty.getLsbD e.val = true → s.link.peerState[e.val] = 1) →
      ∃ t, exec (.commit c true) s = .next t ∧ (t.core c).phase = .committed ∧ (t.core c).remoteFlush = k.remoteDirty ∧
        (∀ d, d ≠ c → t.core d = s.core d) ∧ t.deep = s.deep ∧ ∃ y, (t.part p).run = some y ∧ y.arrived = r.arrived) ∧
    (bitAt (imageLimits x).1 0 = true → ∃ t, exec (.halt c true) s = .next t ∧ OthersSame s t c ∧
      t.core c = { moved k with phase := .halted } ∧ ∃ y, (t.part p).run = some y ∧ y.arrived = r.arrived)

/-! ### Address generators, arrays, MVP, DMA (R90 to R132, R208 to R213, R323) -/

/-- ROWS and PASS are one bundle (R208, R213): ROWS is staged, PASS closes the bundle, and one pass with M, ACC_ROW, INIT, SWAP and the
arrays it names is in flight. The operands lie in their ranges (R457), the records, the chained read-out and the rows in the window, and
the weight registers have their parity (R94). A windowed stream in a distance mode or with transposed weights is no bundle of an
accepted image (R146). -/
def Obligations.rows_and_pass : Prop :=
  ∀ (s : State) (c : CoreId) (p : PartId) (r : RunSt) (x : StepRec), Straight s c p r x →
    ∀ (ad mt : Fin 8) (aB : AReg) (sQ sY sB sM sAcc : SReg) (am : BitVec 4) (init swap last : Bool),
      let k := s.core c
      let d := k.mt mt
      let arrays := s.maskArrays c am
      let f := passOf k d (k.ad ad) arrays sM sAcc init swap last aB sQ sY sB
      (maskOk (imageLimits x).2 am = true → (last = true → mtRead d = 4 → maskCount am = 1) →
        (adMode (k.ad ad) ≠ 1 → sQ.val = 0 ∧ sY.val = 0 ∧ sB.val = 0) →
        (adMode (k.ad ad) = 1 → mtMode d = 0 ∧ bitAt d 22 = false) →
        1 ≤ k.s32 sM → k.s32 sM ≤ 512 → k.s32 sAcc + k.s32 sM ≤ 512 →
        SpansOk s c (passRecs k d arrays last) → (k.win.spans (passPlanSpans k d arrays last (k.s32 sM))).isSome = true →
        Streamable s c f →
        ∃ u t, exec (.rows c false ad aB sQ sY sB) s = .next u ∧ u.core c = { k with staged := [.aga (.rows ad aB sQ sY sB)] } ∧
          exec (.pass c true mt am sM sAcc init swap last) u = .next t ∧ OthersSame s t c ∧
          ∃ g, (t.core c).passQ = [g] ∧ g.seq = k.seq ∧ g.arrays = arrays ∧ g.m = k.s32 sM ∧ g.accRow = k.s32 sAcc ∧
            g.init = init ∧ g.swap = swap ∧ g.plan = f.plan ∧ (t.core c).pc = k.pc + 1 ∧ (t.core c).s = k.s ∧ (t.core c).a = k.a ∧
            (t.core c).v = k.v ∧ (t.core c).near = k.near ∧ (t.core c).acc = k.acc) ∧
      (adMode (k.ad ad) = 1 → mtMode d ≠ 0 ∨ bitAt d 22 = true →
        ∃ u, exec (.rows c false ad aB sQ sY sB) s = .next u ∧
          exec (.pass c true mt am sM sAcc init swap last) u = .refused .unverifiedBundle)

/-- READ, LOADW and IMPORT, alone in a bundle, with legal operands and addresses (R91, R111, R114, R164, R175): each enters its queue
with what it read at issue and the reads its tags still order; nothing is written yet. A READ of a template without a read-out does nothing. -/
def Obligations.read_load_import_enter : Prop :=
  ∀ (s : State) (c : CoreId) (p : PartId) (r : RunSt) (x : StepRec), Straight s c p r x →
    ∀ (mt bd : Fin 8) (am : BitVec 4) (f n : SReg) (a : AReg) (nr1 : Fin 32), maskOk (imageLimits x).2 am = true →
      let k := s.core c
      let d := k.mt mt
      let arrays := s.maskArrays c am
      let ld := loadOf s c k false am bd a (nr1.val + 1) 0 0
      let im := loadOf s c k true am bd a 32 (k.s32 f) (k.s32 n)
      let rowsOk := 1 ≤ k.s32 n ∧ k.s32 n ≤ 512 ∧ k.s32 f + k.s32 n ≤ 512
      (rowsOk → (mtRead d = 4 → maskCount am = 1) → SpansOk s c (readRecs k d arrays) →
        (k.win.spans (planSpans (planOf k d arrays) arrays (k.s32 n))).isSome = true →
        ∃ t, exec (.readOut c true mt am f n) s = .next t ∧ OthersSame s t c ∧
          t.core c = if mtRead d = 0 then moved k else { moved k with readQ := [readOf k d arrays f n] }) ∧
      (∀ xs, k.win.spans (loadNear k ld) = some xs → s.loadDeepOk c k ld = true →
        ∃ t, exec (.loadw c true am bd a nr1) s = .next t ∧ OthersSame s t c ∧
          t.core c = { moved k with agbQ := [ld.armed k xs] }) ∧
      (∀ xs, rowsOk → k.win.spans (loadNear k im) = some xs → s.loadDeepOk c k im = true →
        ∃ t, exec (.importTile c true am bd a f n) s = .next t ∧ OthersSame s t c ∧
          t.core c = { moved k with agbQ := [im.armed k xs] })

/-- MVSTREAM and MVPASS are one bundle, MVREAD stands alone (R118, R121, R127, R132, R209): with legal operands and addresses the
operation enters the MVP's queue with what it read at issue. -/
def Obligations.mvp_operations_enter : Prop :=
  ∀ (s : State) (c : CoreId) (p : PartId) (r : RunSt) (x : StepRec), Straight s c p r x →
    ∀ (vt v1 : Fin 4) (bd : Fin 8) (a : AReg) (sA sO : SReg) (init last : Bool),
      let k := s.core c
      let ta := k.vtA vt
      let tb := k.vtB vt
      let f := mvPassOf s c k vt v1 init last sA sO bd a
      let plan := mvPlanOf k ta tb (k.s32 sO)
      let raised := if vtVreg ta then (moved k).raiseMv (orFlags ((mvRegActs k ta (v1.val + 1)).flatten.map (·.2))) else moved k
      ((vtVreg ta = true → sO.val = 0) → k.s32 sA + vtN ta ≤ 1024 → k.s32 sO + (fmtD (vtAfmt ta)).bytes (vtK ta) ≤ 16384 →
        SpansOk s c (mvPassRecs k ta tb last) → (k.win.spans (mvPassNear f ++ mvPassOut f)).isSome = true → s.mvDeepOk c f = true →
        ∃ u t, exec (.mvstream c false bd a) s = .next u ∧ u.core c = { k with staged := [.agb (.mvstream bd a)] } ∧
          exec (.mvpass c true vt v1 init last sA sO) u = .next t ∧ OthersSame s t c ∧
          t.core c = { raised with mvQ := [f.armed ((mvPassNear f).map (fun y => (k.win.phys y.1, y.2)))] }) ∧
      (1 ≤ k.s32 sO → k.s32 sO ≤ 1024 → k.s32 sA + k.s32 sO ≤ 1024 → SpansOk s c (mvReadRecs k ta tb (k.s32 sO)) →
        (k.win.spans (plan.spans (v1.val + 1) (k.s32 sO))).isSome = true →
        ∃ t, exec (.mvread c true vt v1 sA sO) s = .next t ∧ OthersSame s t c ∧
          t.core c = if plan.kind = 0 then moved k else { moved k with mvQ := [mvReadOf k vt v1 sA sO] })

/-- TAP and STLD, alone in a bundle (R121, R154): a legal load enters the queue of address generator A with the spans it will read. -/
def Obligations.tap_and_store_loads_enter : Prop :=
  ∀ (s : State) (c : CoreId) (p : PartId) (r : RunSt) (x : StepRec), Straight s c p r x →
    ∀ (ad : Fin 8) (aB : AReg) (sP sY sL : SReg) (vD : VReg) (pm : Bool) (row : Fin 4) (tag : BitVec 2) (doff : BitVec 13),
      let k := s.core c
      let d := k.ad ad
      let wd := k.wd (adWd d)
      let w := (k.sreg sP).toNat
      let q := w % 2 ^ 32
      let tapNo := w / 2 ^ 32 % 2 ^ 16
      let c0 := w / 2 ^ 48 % 2 ^ 12
      let len := k.s32 sL % 2 ^ 24
      (∀ sp xs, adMode d = 1 → tapSpans d wd (k.areg aB.val) q (k.s32 sY) tapNo c0 = some sp → k.win.spans sp = some xs →
        ∃ t, exec (.tap c true ad aB sP sY vD pm) s = .next t ∧ OthersSame s t c ∧
          t.core c = { moved k with tapQ :=
            [⟨k.seq, .tap vD d wd (k.areg aB.val) q (k.s32 sY) tapNo c0 pm (s.codebook c (k.book (0x10 + ad.val))), k.win, xs,
              readTag (adTag d), Feed.start (readTag (adTag d)) xs⟩] }) ∧
      (tag ≠ 3 → 2 * doff.toNat + len ≤ 16384 → k.areg aB.val + len ≤ k.win.nsl * 1024 →
        ∃ t, exec (.stld c true row aB tag sL doff) s = .next t ∧ OthersSame s t c ∧
          t.core c = { moved k with tapQ :=
            [⟨k.seq, .stld row len (2 * doff.toNat), k.win, [(k.win.phys (k.areg aB.val), len)], readTag tag.toNat,
              Feed.start (readTag tag.toNat) [(k.win.phys (k.areg aB.val), len)]⟩] })

/-- DMOV out of near scratch and DEXP, alone in a bundle on an empty stream (R211, R212, R169, R173, R305, R323): a DMOV whose first
source slot is not full waits at the head of its stream; one row of it into deep scratch through a local window, its slots full, is
read and waits for its landing; a DEXP whose page is not cached is at the head of its stream with a walk begun, its read presented on
the port of the core's cluster. -/
def Obligations.dma_commands_enter : Prop :=
  ∀ (s : State) (c : CoreId) (p : PartId) (r : RunSt) (x : StepRec), Straight s c p r x → ExpanderIdle s c →
    ∀ (st dd : Fin 8) (aN : AReg) (sF sL : SReg),
      let k := s.core c
      let f := dmaOf k false dd (k.areg aN.val) sF sL
      let g := dmaOf k true dd 0 sF sL
      (∀ xs y ys, ddCodec f.dd ≠ 2 → f.src = .near → k.win.spans f.nearSpans = some xs → s.dmaDeepOk c f = true →
        readTag (ddNtag f.dd) ≠ .free → xs.flatMap slotSpans = y :: ys → k.slotFull (y.1 / 1024) = false →
        ∃ t, exec (.dmov c true st dd aN sF sL) s = .next t ∧ OthersSame s t c ∧
          ((t.core c).dma[st.val]).q = [f.armed xs] ∧ (t.core c).pc = k.pc + 1 ∧ (t.core c).s = k.s ∧
          (t.core c).near = k.near) ∧
      (∀ xs a, ddCodec f.dd = 0 → f.src = .near → f.dst = .deep → f.rows = 1 → 0 < f.len →
        k.win.spans f.nearSpans = some xs → s.dmaDeepOk c f = true → s.deepPlace p (f.dstRow 0) f.len true = some (.dsa a) →
        k.readReady (readTag (ddNtag f.dd)) xs = true → NoMarks s c →
        ∃ t h, exec (.dmov c true st dd aN sF sL) s = .next t ∧ OthersSame s t c ∧
          ((t.core c).dma[st.val]).q = [h] ∧ h.seq = k.seq ∧ h.phase = 3 ∧ h.todo = [] ∧
          (t.core c).deepW = [⟨k.seq, a, k.nearRead (k.win.phys (f.nearRow 0)) f.len⟩] ∧ (t.core c).pc = k.pc + 1 ∧
          (t.core c).s = k.s ∧ (t.core c).near = k.near) ∧
      (∀ w i, ddCodec g.dd = 2 → ddFar g.dd = 1 → ddOut g.dd = false → ddNonear g.dd = false → 0 < g.len →
        CachesHold s c st x.ast g.far →
        s.streamLookup c st x.rt x.ast g.far = none → s.walkBegin (clusterOf c) x.ast g.far = .ok w →
        s.freeId (portOf c) (qosOf x.rt x.cls) false = some i →
        ∃ t h, exec (.dexp c true st dd sF sL) s = .next t ∧ ((t.core c).dma[st.val]).q = [h] ∧ h.seq = k.seq ∧ h.exp = true ∧
          h.len = g.len ∧ h.rows = g.rows ∧ h.far = g.far ∧ h.walk = some { w with asked := true } ∧ (t.core c).pc = k.pc + 1 ∧
          (t.port (portOf c)).txns = (s.port (portOf c)).txns ++
            [{ id := BitVec.ofNat 8 i, op := .read, addr := w.entry / 64 * 64, beats := 1, qos := qosOf x.rt x.cls,
               owner := .walkStream c st, issued := s.now, wdata := [], rdata := [] }])

/-! ### Landings, holds and scrub (R88 to R202) -/

/-- VECTOR_OPERATION_LANDED (R134): the operation at the head leaves the pipeline and its registers, or its scalar register, hold the
result; nothing else of the block changes.

VECTOR_OPERATION_LANDED of a store whose slots it may write (R134, R163, R167, R168): exactly the stored bytes of near scratch change,
whatever slots the store opens; a store with SET fills the tags of its slots; registers and the other memories stay. -/
def Obligations.vector_operations_land : Prop :=
  (∀ (s : State) (c : CoreId) (f : VecFlight), (s.core c).vecQ = [f] → (s.core c).vecMayLand f = true →
     (∀ d l, f.eff = .regs [(d, l)] → ∃ t, exec (.vectorOperationLanded c) s = .next t ∧ OthersSame s t c ∧
       t.core c = { s.core c with vecQ := [], v := (s.core c).v.set d.val l d.isLt }) ∧
     (∀ d y, f.eff = .scalar d y → ∃ t, exec (.vectorOperationLanded c) s = .next t ∧ OthersSame s t c ∧
       t.core c = withS { s.core c with vecQ := [] } d y)) ∧
  (∀ (s : State) (c : CoreId) (f : VecFlight) (off : Nat) (bs : List Byte) (set : Bool), CoreOk (s.core c) →
     (s.core c).vecQ = [f] → f.eff = .store off bs set → (s.core c).mayWrite f.seq [(off, bs)] set = true → NoMarks s c →
     ∃ t, exec (.vectorOperationLanded c) s = .next t ∧ OthersSame s t c ∧ (t.core c).vecQ = [] ∧
       (∀ a, (t.core c).nearByte a =
         if off ≤ a ∧ a < off + bs.length then bs.getD (a - off) 0 else (s.core c).nearByte a) ∧
       (∀ n, (t.core c).slotFull n = ((s.core c).slotFull n || (set && decide (n ∈ slotsOf (off, bs.length))))) ∧
       (t.core c).s = (s.core c).s ∧ (t.core c).a = (s.core c).a ∧ (t.core c).v = (s.core c).v ∧ (t.core c).acc = (s.core c).acc)

/-- DEEP_SCRATCH_WRITE_LANDED (R173): exactly the bytes of the oldest write change, in every slice, and the write leaves the queue.

SIGNAL_TAKES_EFFECT (R202): once the earlier deep-scratch writes have landed the counter rises by 1, saturating, and the others
stay; before, nothing happens. -/
def Obligations.deep_writes_and_signals_land : Prop :=
  (∀ (s : State) (c : CoreId) (w : DeepWrite) (rest : List DeepWrite), DeepOk s → (s.core c).deepW = w :: rest → s.deep.poison = [] → s.deep.flip = [] →
     ∃ t, exec (.deepScratchWriteLanded c) s = .next t ∧ (t.core c) = { s.core c with deepW := rest } ∧
       (∀ d, d ≠ c → t.core d = s.core d) ∧ t.parts = s.parts ∧ t.ports = s.ports ∧ t.scrub = s.scrub ∧ t.fault = s.fault ∧
       ∀ a, t.deepByte a = if w.dsa ≤ a ∧ a < w.dsa + w.bs.length then w.bs.getD (a - w.dsa) 0 else s.deepByte a) ∧
  (∀ (s : State) (c : CoreId) (p : PartId) (q : Nat) (e : Fin 16) (rest : List (Nat × Fin 16)),
     (s.core c).signals = (q, e) :: rest → s.runOf c = some p →
     ((s.core c).deepLanded q = true → ∃ t, exec (.signalTakesEffect c) s = .next t ∧
       (t.core c) = { s.core c with signals := rest } ∧
       (∀ i : Fin 16, (t.part p).events[i.val] =
         if i = e then BitVec.ofNat 32 (min 4294967295 ((s.part p).events[i.val].toNat + 1)) else (s.part p).events[i.val]) ∧
       (∀ d, d ≠ c → t.core d = s.core d) ∧ (∀ k, k ≠ p → t.part k = s.part k) ∧ t.deep = s.deep) ∧
     ((s.core c).deepLanded q = false → exec (.signalTakesEffect c) s = .next s))

/-- WEIGHT_LOAD_END of a LOADW (R91, R92): the shadow registers of its arrays hold a set, the active ones and the other arrays stay, and
the load leaves the queue. Of an IMPORT (R114): the tile is combined into the accumulator, and no weight register changes. -/
def Obligations.weight_load_ends : Prop :=
  ∀ (s : State) (c : CoreId) (p : PartId) (f : LoadFlight), (s.core c).agbQ = [f] → (s.core c).passQ = [] → (s.core c).mvQ = [] →
    s.runOf c = some p → (s.core c).loadOrdered f = true → loadFed (s.core c) f = true → NoMarks s c →
    (bdSrc f.bd = 1 → s.deep.poison = [] ∧ s.deep.flip = []) → (2 ≤ bdSrc f.bd → ExpanderIdle s c) →
    ∃ t, exec (.weightLoadEnd c) s = .next t ∧ OthersSame s t c ∧ (t.core c).agbQ = [] ∧ (t.core c).near = (s.core c).near ∧
      (t.core c).s = (s.core c).s ∧ (t.core c).v = (s.core c).v ∧
      (f.isImport = false → (t.core c).acc = (s.core c).acc ∧ ∀ i : Fin 4,
        ((t.core c).weights[i.val]).active = ((s.core c).weights[i.val]).active ∧
        (if f.arrays.any (fun y => decide (y.2 = i.val)) then
          ∃ w, ((t.core c).weights[i.val]).shadow = some w ∧ w.fmt = bdWfmt f.bd ∧ w.cls = f.cls ∧ w.trans = bdTrans f.bd ∧
            w.nr = f.nr ∧ w.codebook = f.codebook
        else (t.core c).weights[i.val] = (s.core c).weights[i.val])) ∧
      (f.isImport = true → (t.core c).weights = (s.core c).weights)

/-- PASS_RESULT_LANDED, READOUT_LANDED and MVP_PASS_LANDED (R88, R102, R111, R120, R128, R132): the oldest operation takes effect and
leaves its queue. A pass without read-out writes its entries as `writePass` says and FROST_CYCLES grows by a free value (assumption
log); a read-out to vector registers changes no accumulator entry and no memory; an MVP pass that has its stream accumulates as
`mvAccumulate` says and adds its wait cycles, a free value; an MVREAD to vector registers adds none. -/
def Obligations.operations_land : Prop :=
  ∀ (s : State) (c : CoreId) (p : PartId),
    let k := s.core c
    s.runOf c = some p → NoMarks s c → k.tapQ = [] →
    (∀ f, k.passQ = [f] → f.started = true → f.wrote = false → f.plan = none → k.passOrdered f = true → k.phase ≠ .idle →
      ∃ t, exec (.passResultLanded c) s = .next t ∧ (t.core c).passQ = [] ∧ (t.core c).acc = ((s.writePass c f).core c).acc ∧
        (t.fault.cores[c.val]).frost = (s.fault.cores[c.val]).frost + BitVec.ofNat 64 (Config.frostCycles s.ctl.extNext) ∧
        t.deep = s.deep ∧ (∀ d, d ≠ c → t.core d = s.core d)) ∧
    (∀ f, k.readQ = [f] → k.readOrdered f = true → f.plan.kind = 4 → f.out = none →
      ({ k with readQ := [] } : Core).readReadyToLand f.seq f.plan f.arrays f.first f.count = true →
      ∃ t, exec (.readoutLanded c) s = .next t ∧ (t.core c).readQ = [] ∧ (t.core c).acc = k.acc ∧ (t.core c).near = k.near ∧
        (t.core c).s = k.s ∧ OthersSame s t c) ∧
    (∀ f, k.mvQ = [f] → f.isPass = true → f.plan = none → bdSrc f.bd < 2 → f.feed.todo = [] → k.agbQ = [] →
      (bdSrc f.bd = 1 → s.deep.poison = [] ∧ s.deep.flip = []) →
      ∃ t, exec (.mvpPassLanded c) s = .next t ∧ (t.core c).mvQ = [] ∧ (t.core c).mvAcc = (s.mvAccumulate c p f).mvAcc ∧
        (t.core c).near = k.near ∧ (t.core c).s = k.s ∧ (t.core c).v = k.v ∧ t.deep = s.deep ∧ (∀ d, d ≠ c → t.core d = s.core d) ∧
        (t.fault.cores[c.val]).mvpWaits = (s.fault.cores[c.val]).mvpWaits + BitVec.ofNat 64 (Config.mvpWaitCycles s.ctl.extNext)) ∧
    (∀ f pl, k.mvQ = [f] → f.isPass = false → f.plan = some pl → pl.toNs = false → f.out = none → k.mvMayLand f = true →
      ∃ t, exec (.mvpPassLanded c) s = .next t ∧ (t.core c).mvQ = [] ∧ (t.core c).mvAcc = k.mvAcc ∧ (t.core c).near = k.near ∧
        (t.core c).s = k.s ∧ OthersSame s t c)

/-- TAP_LOAD_LANDED (R121, R131, R154): a tap load writes its lanes into its vector register, pads included; a store load copies its
bytes of near scratch into its row of the activation store, and no other byte of the store changes. What the load has read already,
by its tags, it has read. -/
def Obligations.tap_load_lands : Prop :=
  ∀ (s : State) (c : CoreId) (f : TapFlight),
    let k := s.core c
    let read := k.withCap (k.fed f.feed)
    k.tapQ = [f] → k.passQ = [] → k.readQ = [] → k.mvQ = [] → k.vecQ = [] → tapFed k f = true → NoMarks s c →
    (∀ v ad wd base q y0 n c0 pm cb, f.kind = .tap v ad wd base q y0 n c0 pm cb →
      ∃ t, exec (.tapLoadLanded c) s = .next t ∧ OthersSame s t c ∧ (t.core c).tapQ = [] ∧
        (t.core c).v = k.v.set v.val (tapLanes read f.win ad wd base q y0 n c0 pm cb).1 v.isLt ∧ (t.core c).near = k.near ∧
        (t.core c).s = k.s ∧ (t.core c).store = k.store) ∧
    (∀ row len dst sp, f.kind = .stld row len dst → f.reads = [sp] → sp.2 = len → f.feed = Feed.start f.tag f.reads →
      Tab.wf 0 k.store = true → dst + len ≤ 16384 →
      ∃ t, exec (.tapLoadLanded c) s = .next t ∧ OthersSame s t c ∧ (t.core c).tapQ = [] ∧ (t.core c).v = k.v ∧
        (t.core c).near = k.near ∧
        ∀ (r : Fin 4) (i : Nat), i < 16384 → Tab.get 0 (t.core c).store (storeKey r.val i) =
          if r = row ∧ dst ≤ i ∧ i < dst + len then k.nearByte (sp.1 + (i - dst)) else Tab.get 0 k.store (storeKey r.val i))

/-- DMA_COMMAND_END (R199): a command that has delivered everything leaves its stream, and the stream is empty. -/
def Obligations.dma_command_ends : Prop :=
  ∀ (s : State) (c : CoreId) (st : Fin 8) (f : DmaFlight), ((s.core c).dma[st.val]).q = [f] → f.phase = 3 → f.todo = [] →
    f.openTx = 0 → f.walk = none → f.land = [] → (f.exp = true → f.out = []) → (s.core c).deepW = [] → ExpanderIdle s c →
    s.link.reads.any (fun r => decide (r.core = c ∧ r.stream = st ∧ r.seq = f.seq)) = false → s.linkHolds c st f.seq = false →
    ∃ t, exec (.dmaCommandEnd c st) s = .next t ∧ ((t.core c).dma[st.val]).q = [] ∧ OthersSame s t c ∧
      (t.core c).near = (s.core c).near ∧ (t.core c).s = (s.core c).s ∧ (t.core c).pc = (s.core c).pc ∧ t.parts = s.parts

/-- TAG_WAIT_RELEASE (R168, R169): a pass at the head of address generator A streams once the tags of its rows let it; of a core with
nothing waiting, every unit's release leaves the block as it is.

BUNDLE_ISSUE_HOLD_RELEASE (R189): a bundle held by time alone issues, shown for a scalar addition; a bundle of NOPs at the pc, which
has no slot command, issues and only moves on (DEDUCED, assumption log 5). A core that issues nothing is refused by name. -/
def Obligations.waits_are_released : Prop :=
  (∀ (s : State) (c : CoreId),
     (Calm (s.core c) → ExpanderIdle s c → ∀ u, exec (.tagWaitRelease c u) s = .next s) ∧
     (∀ (f : PassFlight) (rows : List (List Span)), (s.core c).passQ = [f] → f.started = false → f.feed = none →
       (s.core c).tapQ = [] → (s.core c).agbQ = [] → (s.core c).phase ≠ .idle → Streams s c f rows →
       (s.core c).readReady f.tag (rows.flatten.map (fun y => (f.win.phys y.1, y.2))) = true →
       ∃ t g, exec (.tagWaitRelease c .aga) s = .next t ∧ OthersSame s t c ∧ (t.core c).passQ = [g] ∧ g.started = true ∧
         g.seq = f.seq ∧ g.sums.length = f.arrays.length ∧ (t.core c).near = (s.core c).near ∧ (t.core c).acc = (s.core c).acc)) ∧
  (∀ (s : State) (c : CoreId),
     (s.issuing c = false → exec (.bundleIssueHoldRelease c) s = .refused .coreNotIssuing) ∧
     (∀ (p : PartId) (r : RunSt) (x : StepRec) (k : Core) (d a b : SReg), s.issuing c = true → s.stepOf c = some (p, r, x) → Calm k →
       Fetched s c → (∀ l rest, k.loops = l :: rest → l.last ≠ k.pc) → k.pc + 1 < k.codeLen →
       s.core c = { k with fetched := [[.scl (.bin .add d a b)]], timed := true } →
       ∃ t, exec (.bundleIssueHoldRelease c) s = .next t ∧ OthersSame s t c ∧
         t.core c = withS (moved k) d (BitVec.ofNat 64 ((k.sreg a).toNat + (k.sreg b).toNat))) ∧
     (∀ (p : PartId) (r : RunSt) (x : StepRec), Straight s c p r x → (s.core c).frame = none →
       (∀ i, i < 32 → Tab.get 0 (s.core c).imem (32 * (s.core c).pc + i) = 0) →
       ∃ t, exec (.bundleIssueHoldRelease c) s = .next t ∧ OthersSame s t c ∧ t.core c = moved (s.core c)))

/-- SCRUB_BEAT (R180, R181, Table 7-7): scrub that is disabled, in Autumn, without the clock of the SRAM or of an SRAM that is not built
does nothing. Of the near scratch of a core that runs, the next beat, its words in order: a clean beat only moves the scrub on; a
correctable word is counted in its region; an uncorrectable one is poisoned, counted, located and logged as a health event; a poisoned
one is counted and logged again. -/
def Obligations.scrub_beat : Prop :=
  ∀ (s : State) (c : CoreId) (m : SramId) (w : Nat) (e : EccOutcome),
    let beat := Tab.get 0 s.scrub.next c.val
    let word := 8 * beat + w % 8
    let next := Tab.set 0 s.scrub.next c.val (if 32768 ≤ beat + 1 then 0 else beat + 1)
    ((s.scrub.enable = false ∨ s.power.season = .autumn ∨ s.sramClocked m = false ∨ s.sramWords m = 0) →
      exec (.scrubBeat m w e) s = .next s) ∧
    (s.scrub.enable = true → s.sramClocked (.near c) = true → s.build.coreMap.getLsbD c.val = true →
      (∀ i, i < 8 → Tab.get false (s.core c).nearFlip (8 * beat + i) = false) →
      ((∀ i, i < 8 → Tab.get false (s.core c).nearPoison (8 * beat + i) = false) →
        exec (.scrubBeat (.near c) w .clean) s = .next { s with scrub := { s.scrub with next := next } } ∧
        (∃ t, exec (.scrubBeat (.near c) w .correctable) s = .next t ∧ t.scrub.corrected[0] = s.scrub.corrected[0] + 1 ∧
          t.scrub.next = next ∧ (t.core c).near = (s.core c).near ∧ (t.core c).nearPoison = (s.core c).nearPoison ∧
          (∀ d, d ≠ c → t.core d = s.core d) ∧ t.deep = s.deep ∧ t.fault = s.fault) ∧
        (Tab.wf false (s.core c).nearPoison = true →
          ∃ t, exec (.scrubBeat (.near c) w .uncorrectable) s = .next t ∧ t.scrub.uncorrectable[0] = s.scrub.uncorrectable[0] + 1 ∧
          t.scrub.next = next ∧ t.fault.healthNext = s.fault.healthNext + 1 ∧ t.ctl.irqStatus.getLsbD 3 = true ∧ t.deep = s.deep ∧
          (∀ y, Tab.get false (t.core c).nearPoison y = (decide (y = word) || Tab.get false (s.core c).nearPoison y)) ∧
          (t.core c).near = (s.core c).near)) ∧
      (Tab.get false (s.core c).nearPoison word = true →
        (∀ i, i < 8 → i ≠ w % 8 → Tab.get false (s.core c).nearPoison (8 * beat + i) = false) →
        ∃ t, exec (.scrubBeat (.near c) w e) s = .next t ∧ t.scrub.uncorrectable[0] = s.scrub.uncorrectable[0] + 1 ∧
          t.scrub.corrected = s.scrub.corrected ∧ t.fault.healthNext = s.fault.healthNext + 1 ∧ t.cores = s.cores ∧ t.deep = s.deep))

/-! ### Queues, partitions, tables, images, weight sets (chapters 9 to 11, 13, 14) -/

/-- Entries of queues, partitions, sessions, the journal window and RT slots (R176, R259, R261, R266, R268, R270, R274, R278, Table 11-2):
each write that its rule accepts ends DONE and changes its own entry alone; a FETCH that leaves TAIL more than the slot count ahead
stops the queue; KILL stops the run of the queue's STARTED step with cause 0x01, and does nothing to a queue without one. -/
def Obligations.queue_and_partition_entries : Prop :=
  ∀ (s : State) (async : Bool), MailboxFree s →
    (∀ q, (s.queue q).stopped = false →
      EndsDone (.enableWrite q 1 async) s async { s with queues := upd s.queues q (fun x => { x with enable := true }) }) ∧
    (∀ q, s.records = [] → (∀ x ∈ s.steps, x.queue = q → x.state ≠ .killed) →
      EndsDone (.enableWrite q 0 async) s async { s with queues := upd s.queues q (fun x => { x with enable := false }) }) ∧
    (∀ q, (∀ x ∈ s.steps, x.queue = q → x.state ≠ .started) → EndsDone (.kill q 1 async) s async s) ∧
    (∀ q p r x, Running s p r x → x.part = p → s.steps.filter (fun y => decide (y.queue = q ∧ y.state = .started)) = [x] →
      ∃ t, EndsDone (.kill q 1 async) s async t ∧ Drains s t p r (.kill 0x01)) ∧
    (∀ q v, (s.queue q).enable = false → (∀ x ∈ s.steps, x.queue ≠ q) → (∀ f ∈ s.fetched, f.queue ≠ q) →
      (((s.queue q).tail - v).toNat ≤ 2 ^ (s.queue q).slotsLog2.toNat → EndsDone (.fetchWrite q v async) s async
        { s with queues := upd s.queues q (fun x => { x with fetch := v, stopped := false }) }) ∧
      (2 ^ (s.queue q).slotsLog2.toNat < ((s.queue q).tail - v).toNat → ∃ t, EndsDone (.fetchWrite q v async) s async t ∧
        t.queues = upd s.queues q (fun x => { x with fetch := v, stopped := true }) ∧ t.fault.healthNext = s.fault.healthNext + 1 ∧
        t.steps = s.steps ∧ t.parts = s.parts ∧ t.cores = s.cores)) ∧
    (∀ q v, (∀ x ∈ s.steps, x.queue ≠ q) →
      EndsDone (.cwordWrite q v async) s async { s with queues := upd s.queues q (fun x => { x with cword := v }) }) ∧
    (∀ v : DWord, 0 < v.toNat → v.toNat < s.journal.nextAseq →
      EndsDone (.windowStartWrite v async) s async
        { s with journal := { s.journal with windowStart := s.journal.windowStart.set 0 v } }) ∧
    (∀ ast : Half, ast.toNat ≤ 1023 →
      EndsDone (.sessionClear ast async) s async
        { s with journal := { s.journal with sessions := Tab.del s.journal.sessions ast.toNat } }) ∧
    (∀ p (v : Word), s.partQuiet p = true → ((s.part p).rt = true → rtMaskOk v.toNat = true) →
      (∀ n, v.getLsbD n = true → n % 5 ≠ 4 ∧ s.fault.coreMap.getLsbD n = true ∧
        ∀ k, k ≠ p → (s.part k).coreMask.getLsbD n = false) →
      EndsDone (.coreMaskWrite p v async) s async { s with parts := upd s.parts p (fun x => { x with coreMask := v }) }) ∧
    (∀ p w v, s.partQuiet p = true → s.dwBad p v = false →
      EndsDone (.windowRecordWrite p w v async) s async
        { s with parts := upd s.parts p (fun x => { x with dw := x.dw.set w.val v w.isLt }) }) ∧
    (∀ i bs, bs.length = 128 → descChecks bs none s.rtImage = none →
      EndsDone (.slotWrite i bs async) s async
        { s with rt := { s.rt with slots := s.rt.slots.set i.val bs i.isLt, slotValid := s.rt.slotValid ||| BitVec.ofNat 16 (2 ^ i.val) } })

/-- Loadable tables and translation records (R72, R76, R145, R235, R304, R314, R317, R344, Table 19-18): a PENDING write is kept until its
switch, a switch makes the pending copies active, of the named tables alone, and leaves the rest; a root record replaces its AST's and
invalidates; an invalidation drops every cached translation of the AST, and is not done while a walk of it that has a read out has not
restarted; V = 1 pins the page that its walk finds, V = 0 drops a pin; an inbound window takes its record. -/
def Obligations.table_and_translation_entries : Prop :=
  ∀ (s : State) (async : Bool), MailboxFree s →
    (∀ (t : Fin 64) bs, t.val ≠ 0 → bs.length = 32 → s.bookBound t = false →
      (∀ i, i < 16 → finiteBf16 (leAt bs (2 * i) 2) = true) →
      EndsDone (.codebookPendingWrite t bs async) s async
        { s with tables := { s.tables with cbPending := s.tables.cbPending.set t.val bs t.isLt,
                                           cbMask := s.tables.cbMask ||| BitVec.ofNat 64 (2 ^ t.val) } }) ∧
    (∀ mask : DWord, (∀ i, mask.getLsbD i = true → s.tables.cbMask.getLsbD i = true) →
      ∃ u, EndsDone (.codebookSwitch mask async) s async { s with tables := u } ∧ u.cbMask = s.tables.cbMask &&& ~~~mask ∧
        u.active.curves = s.tables.active.curves ∧ u.active.policy = s.tables.active.policy ∧ u.active.dir = s.tables.active.dir ∧
        u.cbPending = s.tables.cbPending ∧
        ∀ i : Fin 64, (u.active.codebooks[i.val]).bytes =
          if mask.getLsbD i.val then s.tables.cbPending[i.val] else (s.tables.active.codebooks[i.val]).bytes) ∧
    (∀ mask : Word, (∀ i : Fin 32, mask.getLsbD i.val = true →
        s.tables.cvMask.getLsbD i.val = true ∧ curveBad s.tables.cvPending[i.val] = false) →
      ∃ u, EndsDone (.curveSwitch mask async) s async { s with tables := u } ∧ u.cvMask = s.tables.cvMask &&& ~~~mask ∧
        u.active.codebooks = s.tables.active.codebooks ∧ u.active.policy = s.tables.active.policy ∧
        u.active.dir = s.tables.active.dir ∧
        ∀ i : Fin 32, (u.active.curves[i.val]).bytes =
          if mask.getLsbD i.val then s.tables.cvPending[i.val] else (s.tables.active.curves[i.val]).bytes) ∧
    EndsDone (.qpolicySwitch 1 async) s async
      { s with tables := { s.tables with policyGen := s.tables.policyGen + 1,
                                         active := { s.tables.active with policy := s.tables.policyPending } } } ∧
    (∀ d, s.start.pendingDir = some d → s.images = [] →
      EndsDone (.directorySwitch 1 async) s async
        { s with tables := { s.tables with active := { s.tables.active with dir := d } },
                 start := { s.start with pendingDir := none, dirGen := s.start.dirGen + 1 } }) ∧
    (∀ (v : DWord) walks, let ast := (s.journal.astSelect[0]).toNat
      s.astInUse ast = false → rootBad v.toNat = false → Tab.wf 0 s.xlate.roots = true → s.xlate.pinLeaf = Vector.replicate 16 none →
      Unwalked s (fun a => a = ast) →
      ∃ t, EndsDone (.rootWrite v walks async) s async t ∧ Tab.get 0 t.xlate.roots ast = v ∧
        (∀ a, a ≠ ast → Tab.get 0 t.xlate.roots a = Tab.get 0 s.xlate.roots a) ∧
        t.xlate.invalidations = s.xlate.invalidations + 1 ∧ t.parts = s.parts ∧ t.deep = s.deep ∧ t.steps = s.steps) ∧
    (∀ (v : Half) walks, v.toNat ≤ 1023 ∨ v = 0xFFFF → s.xlate.pinLeaf = Vector.replicate 16 none →
      let gone := fun (t : State) => t.xlate.roots = s.xlate.roots ∧
        (∀ y ∈ t.xlate.streams, ∀ l ∈ y.2, v ≠ 0xFFFF ∧ l.ast ≠ v.toNat) ∧
        (∀ (i : Fin 4), ∀ l ∈ t.xlate.stewards[i.val], v ≠ 0xFFFF ∧ l.ast ≠ v.toNat) ∧
        (∀ (i : Fin 4), ∀ l ∈ t.xlate.walkCache[i.val], v ≠ 0xFFFF ∧ l.ast ≠ v.toNat) ∧ t.parts = s.parts ∧ t.deep = s.deep
      (Unwalked s (fun a => v = 0xFFFF ∨ a = v.toNat) →
        ∃ t, EndsDone (.invalidate v walks async) s async t ∧ gone t ∧ t.xlate.invalidations = s.xlate.invalidations + 1) ∧
      (∀ c st f w, s.dmaHead c st = some f → f.walk = some w → w.asked = true → v = 0xFFFF ∨ w.ast = v.toNat → s.ctl.waitWalks = false →
        ∃ t, exec (.invalidate v walks async) s = .next t ∧ gone t ∧ t.xlate.invalidations = s.xlate.invalidations ∧
          t.ctl.pdState = .busy ∧ t.ctl.transactions = s.ctl.transactions)) ∧
    (∀ i (v : DWord) walk q u l, s.rt.arm ≠ .armed → fld v.toNat 11 1 = 0 → fld v.toNat 63 48 = 0 → bitAt v.toNat 0 = true →
      s.rtQueue = some q → s.portCarries 0 = true →
      s.portWalk 0 3 (s.queue q).ast.toNat (fld v.toNat 47 12 * 4096) walk = (u, some (.ok l)) →
      EndsDone (.rtPin i v walk async) s async
        { u with xlate := { u.xlate with pins := u.xlate.pins.set i.val v i.isLt, pinLeaf := u.xlate.pinLeaf.set i.val (some l) i.isLt } }) ∧
    (∀ i (v : DWord) walk, s.rt.arm ≠ .armed → fld v.toNat 11 1 = 0 → fld v.toNat 63 48 = 0 → bitAt v.toNat 0 = false →
      EndsDone (.rtPin i v walk async) s async
        { s with xlate := { s.xlate with pins := s.xlate.pins.set i.val v i.isLt, pinLeaf := s.xlate.pinLeaf.set i.val none i.isLt } }) ∧
    (∀ w (v : DWord), s.ownsRwm = true → s.iwBad v.toNat = false →
      EndsDone (.inboundWindowWrite w v async) s async { s with link := { s.link with iw := s.link.iw.set w.val v w.isLt } }) ∧
    (∀ v : Byte, ∃ k, Finished { s.ctl with peerEvents := s.ctl.peerEvents &&& ~~~v } k async ∧
      k.peerEvents = s.ctl.peerEvents &&& ~~~v ∧ exec (.peerEventsClear v async) s = .next { s with ctl := k })

/-- Image loads (R222, R223, R225, R299, Tables 11-1 and 12-6): LOAD starts a read; an image that verifies becomes active at once, copied
into the partition's area where it has one, or pending while the class RT partition is not disarmed; one that fails a check leaves the
active image and reports its code; a read that fails reports 0x0102; each end sets IRQ status bit 7; a load whose port carries nothing
waits. -/
def Obligations.image_loads : Prop :=
  ∀ (s : State) (p : PartId),
    let area := (s.part p).area
    let resident := decide (area.2 ≠ 0)
    (∀ (v : QWord) (async : Bool), MailboxFree s → (s.part p).loading = none → fld v.toNat 63 48 = 0 → fld v.toNat 127 106 = 0 →
      (area.2 ≠ 0 → fld v.toNat 95 64 ≤ area.2 ∧ s.badPlace area = false ∧ (s.windows (fun _ => true)).any (overlap area) = false) →
      EndsDone (.load p v async) s async
        { s with parts := upd s.parts p (fun x => { x with
            loading := some { va := fld v.toNat 47 0, length := fld v.toNat 95 64, ast := fld v.toNat 105 96 },
            loadStatus := 1 }) }) ∧
    (∀ (l : LoadReq) (r : ReadResult) (u : State) (e : ReadEnd), s.serving = true → s.awake = true → s.portCarries (s.partPort p) = true →
      (s.part p).loading = some l → s.stewardRead (s.partPort p) 0 l.ast l.va l.length r = (u, e) →
      (∀ bs, e = .data bs →
        let img : ImgRec := { bytes := bs, resident := resident, wcet := if bitAt (imgFlags bs) 1 then imgClaim bs else 0,
                              dir := s.tables.active.dir, va := l.va, ast := l.ast }
        let kept := fun (t : State) => t.ctl.irqStatus = s.ctl.irqStatus ||| 0x80 ∧ (∀ k, k ≠ p → t.part k = s.part k) ∧
          t.cores = s.cores ∧ t.steps = s.steps
        (verify (s.verCtx p resident false) bs l.length = none →
          ((s.part p).rt = false ∨ s.rt.arm = .disarmed → DeepOk s → s.deep.poison = [] →
            ∃ t, exec (.imageLoadDone p r) s = .next t ∧ kept t ∧
              t.part p = { s.part p with
                loading := none, loadStatus := BitVec.ofNat 128 (2 + imgId bs * 2 ^ 64), lostInWinter := false,
                active := some img, pendingImg := none } ∧
              ∀ a, t.deepByte a =
                if area.2 ≠ 0 ∧ area.1 ≤ a ∧ a < area.1 + bs.length then bs.getD (a - area.1) 0 else s.deepByte a) ∧
          ((s.part p).rt = true → s.rt.arm ≠ .disarmed →
            ∃ t, exec (.imageLoadDone p r) s = .next t ∧ kept t ∧ t.deep = s.deep ∧
              t.part p = { s.part p with
                loading := none, loadStatus := BitVec.ofNat 128 (2 + imgId bs * 2 ^ 64), pendingImg := some img })) ∧
        (∀ code off, verify (s.verCtx p resident false) bs l.length = some (code, off) → 0x24 ≤ bs.length →
          ∃ t, exec (.imageLoadDone p r) s = .next t ∧ kept t ∧ t.deep = s.deep ∧
            t.part p = { s.part p with
              loading := none, loadStatus := BitVec.ofNat 128 (3 + code * 2 ^ 8 + off * 2 ^ 32 + imgId bs * 2 ^ 64),
              lastReject := BitVec.ofNat 16 code })) ∧
      (e.bytes? = none → ∃ t, exec (.imageLoadDone p r) s = .next t ∧ t.ctl.irqStatus.getLsbD 7 = true ∧ (t.part p).loading = none ∧
        (t.part p).loadStatus = BitVec.ofNat 128 (3 + 0x0102 * 2 ^ 8 + 8 * 2 ^ 32) ∧ (t.part p).lastReject = 0x0102 ∧
        (t.part p).active = (s.part p).active)) ∧
    (∀ r, s.portCarries (s.partPort p) = false → exec (.imageLoadDone p r) s = .next s)

/-- Weight sets (R321, R325, R326, R327, R330, R331, Table 14-6): a HOST version is READY at once, a DEEP one loads; a load whose bytes
hold what the record says fills its region, the rest of it zero, and is READY; one whose read does not translate is FAILED with cause 1,
one whose read errs with cause 2, one whose CRC differs with cause 3, and the active version stays; EQUINOX switches the named slots and
no other; DELETE takes a slot's versions, counts its generation up and ends no step. -/
def Obligations.weight_sets : Prop :=
  ∀ (s : State) (async : Bool),
    let i := s.selectedSlot 0
    (∀ bs, MailboxFree s → bs.length = 32 → (s.slotW i).retiring = [] → (s.slotW i).pendState ≠ .loading → s.versionBad i bs = false →
      ∃ t, EndsDone (.pendingVersion bs async) s async t ∧ (∃ v, (t.slotW i).pending = some v ∧ v.record = bs ∧ v.lost = false) ∧
        (t.slotW i).pendState = (if verPlace bs = 1 then .loading else .ready) ∧ (t.slotW i).active = (s.slotW i).active ∧
        (t.slotW i).gen = (s.slotW i).gen ∧ (∀ k, k ≠ i → t.slotW k = s.slotW k) ∧ t.deep = s.deep ∧ t.parts = s.parts) ∧
    (∀ (k : Fin 256) (v : Version) (r : ReadResult) (u : State) (e : ReadEnd), s.serving = true → s.awake = true → DeepOk s →
      (s.slotW k).pending = some v → (s.slotW k).pendState = .loading →
      let got := r.bytes.take (verSrcLen v.record)
      s.stewardPages (some (verSrcAst v.record)) 0 { r with bytes := got } (s.loadPages v.record got) r.walks = (u, e) → e ≠ .lost →
      let lo := (verRegion v.record).1
      let size := (verRegion v.record).2
      let failed := fun (t : State) (cause : Byte) => (t.slotW k).pendState = .failed ∧ (t.slotW k).loadResult = cause
      ∃ t, exec (.residentLoadDone k r) s = .next t ∧ t.ctl.irqStatus.getLsbD 7 = true ∧ t.parts = s.parts ∧
        (t.slotW k).active = (s.slotW k).active ∧ (∀ j, j ≠ k → t.slotW j = s.slotW j) ∧
        (∀ a, ¬ (lo ≤ a ∧ a < lo + size) → t.deepByte a = s.deepByte a) ∧
        (∀ f va, e = .fault f va → failed t 1) ∧ (∀ err pa, e = .error err pa → failed t 2) ∧
        (∀ bs, e = .data bs →
          (verExpand v.record = 0 → bs.length ≤ size → crc32c bs ≠ verSrcCrc v.record → failed t 3) ∧
          (verExpand v.record = 0 → size < bs.length → failed t 5) ∧
          (∀ out blocks cause bad, loadOutput v.record bs = (out, blocks, some (cause, bad)) → failed t (BitVec.ofNat 8 cause)) ∧
          (∀ out blocks, loadOutput v.record bs = (out, blocks, none) →
            (t.slotW k).pendState = .ready ∧ ∀ n, n < size → t.deepByte (lo + n) = out.getD n 0))) ∧
    (∀ bs, MailboxFree s → bs.length = 64 → (∀ h ∈ equinoxHandles bs, (s.slotW (handleSlot h)).gen = h / 256 ∧ (s.slotW (handleSlot h)).pendState = .ready) →
      ∃ t, EndsDone (.equinox bs async) s async t ∧ t.sets.equinoxGen = s.sets.equinoxGen + 1 ∧ t.steps = s.steps ∧
        t.deep = s.deep ∧
        ∀ k : Fin 256, (t.slotW k).gen = (s.slotW k).gen ∧
          if k ∈ (equinoxHandles bs).map handleSlot ∧ (s.slotW k).pending.isSome = true then
            (t.slotW k).active = (s.slotW k).pending ∧ (t.slotW k).pending = none
          else (t.slotW k).active = (s.slotW k).active ∧ (t.slotW k).pending = (s.slotW k).pending) ∧
    (MailboxFree s → ∃ t, EndsDone (.deleteSet 1 async) s async t ∧ (t.slotW i).active = none ∧ (t.slotW i).pending = none ∧
      (t.slotW i).gen = (if (s.slotW i).gen + 1 < 2 ^ 24 then (s.slotW i).gen + 1 else 1) ∧
      (∀ v ∈ (s.slotW i).active, s.boundCount i.val v.serial ≠ 0 → v ∈ (t.slotW i).retiring) ∧
      (∀ k, k ≠ i → (t.slotW k).active = (s.slotW k).active ∧ (t.slotW k).pending = (s.slotW k).pending ∧
        (t.slotW k).gen = (s.slotW k).gen) ∧ t.steps = s.steps ∧ t.deep = s.deep)

/-! ### The life of a step (chapters 1, 10, 11) -/

/-- Doorbells and stage 3 (R238, R268, R279, R425, Table 10-2): a doorbell sets TAIL and stops a queue that it runs past its ring, one to a
class 0 queue is only counted; a fetched descriptor that passes its checks waits for acceptance, one that fails leaves a record; one
that does not translate is passed over with its record, one whose read errs stays and stops its queue; a queue that is overrun stops; an
RT doorbell is queued or refused with RT fault 0x41. -/
def Obligations.doorbells_and_descriptors : Prop :=
  ∀ s : State, s.ctl.inReset = false → s.serving = true → s.awake = true →
    (∀ q tail, (s.queue q).cls ≠ 0 → ∃ t, exec (.doorbell q tail) s = .next t ∧ t.ctl.bells[q.val] = tail ∧
      t.ctl.bellsIgnored = s.ctl.bellsIgnored ∧ t.steps = s.steps ∧ (∀ k, k ≠ q → t.queue k = s.queue k) ∧
      t.queue q = { s.queue q with
        tail := tail
        stopped := (s.queue q).stopped || decide (2 ^ (s.queue q).slotsLog2.toNat < (tail - (s.queue q).fetch).toNat) }) ∧
    (∀ q tail, (s.queue q).cls = 0 →
      exec (.doorbell q tail) s = .next { s with ctl := { s.ctl with bellsIgnored := s.ctl.bellsIgnored + 1 } }) ∧
    (∀ q r u e, s.mayFetch q = true →
      let x := s.queue q
      let va := x.ringVa.toNat + 128 * (x.fetch.toNat % 2 ^ x.slotsLog2.toNat)
      s.stewardRead (s.partPort x.part) (qosOf false x.cls.val) x.ast.toNat va 128 r = (u, e) →
      let kept := fun (t : State) => t.steps = s.steps ∧ t.cores = s.cores ∧ t.journal = s.journal
      (∀ bs, e = .data bs →
        (descChecks bs (some (x.fetch.toNat, s.slots q)) none = none →
          ∃ t, exec (.descriptorFetch q r) s = .next t ∧ t.fetched = s.fetched ++ [{ queue := q, desc := parseDesc bs }] ∧
            t.queue q = { x with fetch := x.fetch + 1 } ∧ t.records = s.records ∧ kept t) ∧
        (∀ n, descChecks bs (some (x.fetch.toNat, s.slots q)) none = some n → s.records = [] →
          ∃ t, exec (.descriptorFetch q r) s = .next t ∧ t.fetched = s.fetched ∧ (t.queue q).fetch = x.fetch + 1 ∧
            t.nextRec = s.nextRec + 1 ∧ kept t)) ∧
      (∀ f a, e = .fault f a → s.records = [] →
        ∃ t, exec (.descriptorFetch q r) s = .next t ∧ t.fetched = s.fetched ∧ (t.queue q).fetch = x.fetch + 1 ∧
          t.nextRec = s.nextRec + 1 ∧ kept t) ∧
      (∀ err pa, e = .error err pa → s.records = [] →
        ∃ t, exec (.descriptorFetch q r) s = .next t ∧ t.fetched = s.fetched ∧ (t.queue q).fetch = x.fetch ∧ (t.queue q).stopped = true ∧
          t.nextRec = s.nextRec + 1 ∧ kept t)) ∧
    (∀ q r, (s.queue q).enable = true → (s.queue q).stopped = false → s.slots q < s.posted q →
      ∃ t, exec (.descriptorFetch q r) s = .next t ∧ t.queues = upd s.queues q (fun x => { x with stopped := true }) ∧
        t.fault.healthNext = s.fault.healthNext + 1 ∧ t.steps = s.steps ∧ t.cores = s.cores) ∧
    (∀ v : Word, s.rt.arm = .armed → v.toNat < 16 → s.rt.slotValid.getLsbD v.toNat = true → s.rt.pend.length < 8 →
      exec (.rtDoorbell v) s = .next { s with rt := { s.rt with pend := s.rt.pend ++ [⟨s.rt.slots.toList.getD v.toNat [], s.now⟩] } }) ∧
    (∀ v : Word, s.rt.arm ≠ .armed ∨ 16 ≤ v.toNat ∨ s.rt.slotValid.getLsbD v.toNat = false ∨ 8 ≤ s.rt.pend.length →
      ∃ t, exec (.rtDoorbell v) s = .next t ∧ t.rt = { s.rt with refused := s.rt.refused + 1 } ∧
        t.fault.rtFaultNext = s.fault.rtFaultNext + 1 ∧ t.ctl.irqStatus = s.ctl.irqStatus ||| 2)

/-- Stages 4 and 5 (R21, R165, R185, R187, R201, R202, R241, R242, R224, R248, R271, R279): acceptance gives the step the next ASEQ and what is
bound to it; a dispatch starts a run on the partition's cores, each with its code, argument words in s1 to s8, every other register 0
and every tag and written mark of near scratch clear, the strip counter and the event counters 0; nothing starts while a run is not
drained; the oldest RT doorbell takes RT_SEQ and starts its run on the leads of the pairs, which keep their instruction memory. -/
def Obligations.acceptance_and_dispatch : Prop :=
  ∀ s : State,
    (∀ q f, s.serving = true → s.awake = true → s.journalFree 17 = true → s.fetched.find? (fun f => decide (f.queue = q)) = some f →
      ∃ t x, exec (.accept q) s = .next t ∧ t.steps = s.steps ++ [x] ∧ x.aseq = s.journal.nextAseq ∧ x.queue = q ∧
        x.part = (s.queue q).part ∧ x.state = .accepted ∧ x.desc = f.desc ∧ x.image = (s.part x.part).active ∧
        x.tables = s.tables.active ∧ x.base = s.bindHandle f.desc.base ∧ x.kills = 0 ∧ x.starts = 0 ∧
        t.journal.nextAseq = (s.journal.nextAseq + 1) % 2 ^ 48 ∧ t.fetched = s.fetched.erase f ∧ t.cores = s.cores ∧ t.parts = s.parts) ∧
    (∀ p code x img args tab, (s.part p).rt = false → s.mayDispatch p = true → s.nextStep p = some x → x.rt = false →
      s.step? x.aseq = some x → x.image = some img → (s.part p).active.isSome = true → s.stepArgs x = .ok args →
      let cs := s.coresFor p img
      img.coresMin ≤ (s.maskCores p img.arrays).length → cs ≠ [] →
      (usesAtomics img = true → ∀ c ∈ cs, (s.port (portOf c)).atomicEn = true) → Loads s p x img x.twin cs code tab →
      ∃ t r y, exec (.dispatch ⟨p, code⟩) s = .next t ∧ (t.part p).run = some r ∧ r.aseq = x.aseq ∧ r.cores = cs ∧
        r.phase = .running ∧ r.twin = x.twin ∧ t.step? x.aseq = some y ∧ y.state = .started ∧ y.starts = x.starts + 1 ∧
        (t.part p).stripCounter = 0 ∧ (t.part p).events = Vector.replicate 16 0 ∧ t.power.season = .summer ∧
        (∀ k, k ≠ p → t.part k = s.part k) ∧ (∀ c, c ∉ cs → t.core c = s.core c) ∧
        ∀ c ∈ cs, Started (t.core c) args (if img.resident = true then img.code x.twin else Tab.get [] tab (clusterOf c).val)) ∧
    (∀ p code, (s.part p).run.isSome = true → exec (.dispatch ⟨p, code⟩) s = .next s) ∧
    (∀ p q e rest, s.rtPart = some p → s.rtQueue = some q → s.rt.arm = .armed ∨ s.rt.arm = .disarming → (s.queue q).part = p →
      s.mayDispatch p = true → s.fault.pairs.toList.any (fun y => y.testing) = false → s.headOf q = none → s.rt.pend = e :: rest →
      s.journalFree 1 = true →
      ∃ t, exec .rtStepStart s = .next t ∧ t.rt.pend = rest ∧ t.rt.seq = s.rt.seq + 1 ∧
        t.journal.nextAseq = (s.journal.nextAseq + 1) % 2 ^ 48 ∧
        ∀ img, (s.part p).active = some img →
          let d := { parseDesc e.bytes with qseq := s.rt.seq }
          let cs := s.rtCores img
          rtBoundsOk img d = true → d.base = 0 → d.adapter = 0 → img.coresMin ≤ cs.length → cs ≠ [] →
          (usesAtomics img = true → ∀ c ∈ cs, (s.port (portOf c)).atomicEn = true) →
          ∃ r, (t.part p).run = some r ∧ r.aseq = s.journal.nextAseq ∧ r.cores = cs ∧ r.phase = .running ∧
            (t.part p).stripCounter = 0 ∧
            ∀ c ∈ cs, (t.core c).phase = .running ∧ (t.core c).pc = 0 ∧ (t.core c).imem = (s.core c).imem ∧
              ∀ i : Fin 32, (t.core c).s[i.val] = if 1 ≤ i.val ∧ i.val ≤ 8 then
                (if i.val = 8 ∧ d.cwin = true then (s.queue q).cword.zeroExtend 64 else d.args.getD (i.val - 1) 0) else 0)

/-- What stops a run (R205, R232, R247, R253, R273, R383): the sequencer watchdog with 0x07, interconnect parity of a general partition
with 0x04 and region 1, of the real-time partition with a kill 0x0A, the WCET of a real-time run with 0x07 and a count, the time slice
with a kill while a better step waits and nothing else, the sealed-phase timeout with KILLED 0x0C at once, which a disabled queue turns
into FAILED. -/
def Obligations.what_stops_a_run : Prop :=
  ∀ (s : State) (p : PartId) (r : RunSt) (x : StepRec),
    (Running s p r x →
      (∀ c, s.runOf c = some p → (s.core c).phase = .running ∨ (s.core c).phase = .halted →
        ∃ t, exec (.sequencerWatchdogExpiry c) s = .next t ∧ Drains s t p r (.fault 0x07 (BitVec.ofNat 32 c.val))) ∧
      ((s.part p).rt = false →
        ∃ t, exec (.interconnectParityError p) s = .next t ∧ Drains s t p r (.fault 0x04 1)) ∧
      ((s.part p).rt = true → s.fault.lockstep ≠ 3 →
        ∃ t, exec (.interconnectParityError p) s = .next t ∧ Drains s t p r (.kill 0x0A)) ∧
      (s.rtPart = some p → (∃ c ∈ r.cores, (s.core c).phase ≠ .committed) →
        ∃ t c, exec .wcetOverrun s = .next t ∧ Drains s t p r (.fault 0x07 (BitVec.ofNat 32 c)) ∧
          t.fault.wcetOverruns = s.fault.wcetOverruns + 1 ∧ t.fault.rtFaultNext = s.fault.rtFaultNext + 1) ∧
      (x.rt = false → x.kills < 2 →
        (∃ q y, s.dispatchable q = some y ∧ y.part = p ∧ q ≠ x.queue ∧ effClass y < x.cls) →
        ∃ t, exec (.timeSlicePreemption p) s = .next t ∧ Drains s t p { r with sliced := true } (.kill 0x01)) ∧
      (2 ≤ x.kills ∨ x.rt = true ∨ (∀ q y, s.dispatchable q = some y → y.part = p → q ≠ x.queue → x.cls ≤ effClass y) →
        ∃ t, exec (.timeSlicePreemption p) s = .next t ∧ (t.part p).run = some { r with sliced := true } ∧
          t.cores = s.cores ∧ t.steps = s.steps)) ∧
    ((s.part p).run = some r → r.phase = .commit → s.step? r.aseq = some x →
      ∃ t, exec (.sealedTimeout p) s = .next t ∧ (t.part p).run = none ∧ (∀ c ∈ r.cores, (t.core c).phase = .idle) ∧
        (∀ k, k ≠ p → t.part k = s.part k) ∧
        ((s.queue x.queue).enable = true → ∃ y, t.step? r.aseq = some y ∧ y.state = .killed ∧ y.status = 0x0C ∧ y.kills = x.kills + 1) ∧
        ((s.queue x.queue).enable = false → t.step? r.aseq = none))

/-- How a run goes on and ends (R77, R78, R241, R247, R251, R253, R267, R270, R271): a token is taken; after the last one, with no trigger
or on the wide twin, one flush goes to each port that the run wrote, and with nothing to flush the commit phase opens (it is over at
once where its record cannot be written); a trigger starts the wide twin where the policy and the image let it; a drained run writes
KILLED or FAILED once its writes are answered and frees its cores; a head step ages. -/
def Obligations.how_a_run_ends : Prop :=
  ∀ (s : State) (p : PartId) (r : RunSt) (x : StepRec) (code : List ReadResult), (s.part p).run = some r → s.step? r.aseq = some x →
    s.records = [] →
    (∀ k rest, r.phase = .running → r.arrived = k :: rest → r.taken.length + 1 < r.cores.length →
      ∃ t, exec (.tokenTaken ⟨p, code⟩) s = .next t ∧ t.cores = s.cores ∧ t.steps = s.steps ∧
        (t.part p).run = some { r with arrived := rest, taken := r.taken ++ [k], ended := s.now }) ∧
    (∀ k rest, r.phase = .running → r.arrived = k :: rest → r.taken.length + 1 = r.cores.length →
      let w : RunSt := { r with arrived := rest, taken := r.taken ++ [k], ended := s.now, tokenCclk := r.cclk, tokenIssue := r.issueCclk }
      let fires := r.twin = false ∧ triggered x.tables.policy[p.val] w = true
      let served := x.rt = false ∧ x.tables.policy[p.val].twin = true ∧ ∃ img, x.image = some img ∧ (findSection img.bytes 3).isSome = true
      (¬ (fires ∧ served) →
        (w.ports = [] → ∃ t, exec (.tokenTaken ⟨p, code⟩) s = .next t ∧ t.nextRec = s.nextRec + 1 ∧
          (t.part p).unserved = (s.part p).unserved + (if r.twin = false ∧ triggered x.tables.policy[p.val] w = true then 1 else 0) ∧
          (((t.part p).run = some { w with phase := .commit } ∧ t.cores = s.cores ∧
              ∃ y, t.records = [y] ∧ y.part = p ∧ y.commits = some r.aseq) ∨
            ((t.part p).run = none ∧ t.records = [] ∧ (t.queue x.queue).stopped = true))) ∧
        (w.ports = [] → s.portUp (s.partPort p) = false → s.inMidwinter = false →
          ∃ t, exec (.tokenTaken ⟨p, code⟩) s = .next t ∧ (t.part p).run = some { w with phase := .commit } ∧ t.ports = s.ports ∧
            ∃ y, t.records = [y] ∧ y.commits = some r.aseq ∧ y.issued = false) ∧
        (w.ports ≠ [] → ∃ t todo left, exec (.tokenTaken ⟨p, code⟩) s = .next t ∧ t.cores = s.cores ∧
          (t.part p).run = some { w with phase := .flushing todo left } ∧ todo.length + left = w.ports.length) ∧
        (∀ n i, w.ports = [n] → s.freeId n (qosOf x.rt x.cls) false = some i →
          ∃ t, exec (.tokenTaken ⟨p, code⟩) s = .next t ∧ (t.part p).run = some { w with phase := .flushing [] 1 } ∧
            (t.port n).txns = (s.port n).txns ++
              [⟨BitVec.ofNat 8 i, .flush, 0, 1, qosOf x.rt x.cls, .dataFlush p, s.now, [], []⟩])) ∧
      (∀ img args tab, fires → x.rt = false → x.tables.policy[p.val].twin = true → x.image = some img →
        (findSection img.bytes 3).isSome = true → s.stepArgs x = .ok args → s.inMidwinter = false →
        Loads s p x img true r.cores code tab →
        ∃ t r', exec (.tokenTaken ⟨p, code⟩) s = .next t ∧ (t.part p).run = some r' ∧ r'.twin = true ∧ r'.phase = .running ∧
          r'.taken = [] ∧ r'.arrived = [] ∧ r'.cores = r.cores ∧ (t.part p).twinRuns = (s.part p).twinRuns + 1 ∧
          ∀ c ∈ r.cores, Started (t.core c) args (if img.resident = true then img.code true else Tab.get [] tab (clusterOf c).val))) ∧
    (∀ cause, r.phase = .draining (.kill cause) → s.writesOpen r = false →
      ∃ t, exec (.runDrained p) s = .next t ∧ (t.part p).run = none ∧ (∀ c ∈ r.cores, (t.core c).phase = .idle) ∧
        (∀ k, k ≠ p → t.part k = s.part k) ∧
        ((s.queue x.queue).enable = true → ∃ y, t.step? r.aseq = some y ∧ y.state = .killed ∧ y.status = cause ∧ y.kills = x.kills + 1) ∧
        ((s.queue x.queue).enable = false → t.step? r.aseq = none)) ∧
    (∀ status detail, r.phase = .draining (.fault status detail) → s.writesOpen r = false → r.aseq ≠ 0 →
      ∃ t e, exec (.runDrained p) s = .next t ∧ (t.part p).run = none ∧ t.step? r.aseq = none ∧
        (r.aseq % 4096, e) ∈ t.journal.entries ∧ e.aseq = r.aseq ∧ e.state = 5 ∧ e.status = status ∧
        (∀ c ∈ r.cores, (t.core c).phase = .idle)) ∧
    (∀ w, r.phase = .draining w → s.writesOpen r = true → exec (.runDrained p) s = .next s) ∧
    (∀ q y, s.dispatchable q = some y → s.journal.ageLimit ≠ 0 →
      ∃ t, exec (.ageLimitElapsed q) s = .next t ∧
        t.steps = s.steps.map (fun z => if z.aseq = y.aseq then { z with aged := z.aged + 1 } else z) ∧
        ((s.part y.part).run = none → t.parts = s.parts ∧ t.cores = s.cores))

/-- Arming (R24, R281, R282, R394, R426, Tables 11-4 and 19-7): ARM moves DISARMED, or DISARMING, to ARMING and leaves the other states;
write 0 moves ARMED and ARMING to DISARMING; ARM_COMPLETE reports the first check of R281 that fails, or ARMED with the image in service
and in the members' instruction memory once the P-state is at FLOOR or faster, and sets IRQ status bit 7 with either; DISARMED follows
the last pending step; HALTED is left at once. -/
def Obligations.arming : Prop :=
  ∀ (s : State) (p : PartId), s.rtPart = some p →
    (∀ async, MailboxFree s →
      (s.rt.arm = .disarmed → EndsDone (.arm 1 async) s async { s with rt := { s.rt with arm := .arming, again := false } }) ∧
      (s.rt.arm = .disarming → EndsDone (.arm 1 async) s async { s with rt := { s.rt with arm := .arming, again := true } }) ∧
      (s.rt.arm = .armed ∨ s.rt.arm = .arming ∨ s.rt.arm = .halted → EndsDone (.arm 1 async) s async s) ∧
      (s.rt.arm = .armed ∨ s.rt.arm = .arming →
        EndsDone (.disarm async) s async { s with rt := { s.rt with arm := .disarming } } ∧
        EndsDone (.arm 0 async) s async { s with rt := { s.rt with arm := .disarming } }) ∧
      (s.rt.arm = .disarmed ∨ s.rt.arm = .disarming → EndsDone (.disarm async) s async s) ∧
      (s.rt.arm = .halted → ∃ t, EndsDone (.disarm async) s async t ∧ t.rt.arm = .disarmed ∧ t.fault.lockstep = 0 ∧
        t.fault.borrowed = 0 ∧ t.fault.coreMap = s.fault.coreMap ||| (s.fault.borrowed &&& ~~~s.fault.retired))) ∧
    (∀ v : Word, s.ctl.inReset = false → s.serving = true → s.awake = true → v.toNat < 2 ^ 11 →
      (v.getLsbD 0 = true → s.rt.arm = .disarmed →
        exec (.rtArm v) s = .next { s with rt := { s.rt with arm := .arming, again := false } }) ∧
      (v.getLsbD 0 = true → s.rt.arm = .disarming →
        exec (.rtArm v) s = .next { s with rt := { s.rt with arm := .arming, again := true } }) ∧
      (v.getLsbD 0 = false → s.rt.arm = .armed ∨ s.rt.arm = .arming →
        exec (.rtArm v) s = .next { s with rt := { s.rt with arm := .disarming } })) ∧
    (s.rt.arm = .arming → s.awake = true → (s.part p).run = none →
      let img := match (s.part p).pendingImg with | some i => some i | none => (s.part p).active
      (∀ i, img = some i → s.armCheck p img = 0 →
        ∃ t, exec .armComplete s = .next t ∧ t.steps = s.steps ∧
          (t.rt.arm = .armed ∧ t.rt.armResult = 0 ∧ (t.part p).active = some i ∧ (t.part p).pendingImg = none ∧
              t.ctl.irqStatus.getLsbD 7 = true ∧ t.fault.pairs = pairsOf (s.maskCores p i.arrays) ∧
              t.fault.hotSpare = s.hotSpareFor i ∧
              (∀ c ∈ s.maskCores p i.arrays, ∀ n, Tab.get 0 (t.core c).imem n = (i.code false).getD n 0) ∧
              (∀ c, c ∉ s.maskCores p i.arrays → (∀ h, s.hotSpareFor i = some h → c ≠ coreAt 0 h) → t.core c = s.core c) ∨
            t.rt = s.rt ∧ t.cores = s.cores ∧ t.parts = s.parts) ∧
          (Alone s → s.power.capP ≤ imgFloor i.bytes → s.floorMet i = true → t.rt.arm = .armed)) ∧
      (s.armCheck p img ≠ 0 →
        ∃ t, exec .armComplete s = .next t ∧ t.rt.armResult = BitVec.ofNat 8 (s.armCheck p img) ∧ t.ctl.irqStatus.getLsbD 7 = true ∧
          t.parts = s.parts ∧ t.steps = s.steps ∧
          (s.rt.again = false ∨ (s.rt.pend = [] ∧ ∀ x ∈ s.steps, x.rt = false) → t.rt.arm = .disarmed) ∧
          (s.rt.again = true → (s.rt.pend ≠ [] ∨ ∃ x ∈ s.steps, x.rt = true) → t.rt.arm = .disarming))) ∧
    (s.rt.arm = .disarming → s.rt.pend = [] → (∀ x ∈ s.steps, x.rt = false) →
      ∃ t, exec .disarmComplete s = .next t ∧ t.rt.arm = .disarmed ∧ t.fault.lockstep = 0 ∧ t.fault.hotSpare = none ∧ t.parts = s.parts) ∧
    (s.rt.arm = .disarming → (s.rt.pend ≠ [] ∨ ∃ x ∈ s.steps, x.rt = true) → exec .disarmComplete s = .next s)

/-! ### Memory ports and the Stack Link (chapters 12, 15) -/

/-- Responses on a memory port (R284, R286, R287, R288, R295, R308, R316): each answers its open transaction, which ends with the last
beat, the acknowledgement or the error, counts its bytes, and reaches what waits for it: read data its DMA command, an entry of a
page walk the cache or the step's fault, an acknowledgement the command, a flush the run, the flush of a committing run's record its
COMMITTED (R246, R253, R289), an error the port's counters and the step. A response to no open transaction, and one of an absent port,
stop by name; a port that is down takes none. -/
def Obligations.port_responses : Prop :=
  ∀ (s : State) (n : PortId) (id : Byte),
    (∀ (x : Txn) (c : CoreId) (st : Fin 8), n.val < s.build.c → s.portCarries n = true → s.txn? n id = some x → x.qos ≠ 3 →
      PortIdle s n c st →
      (∀ beat, x.op = .read → x.rdata.length + 64 < 64 * x.beats →
        exec (.portReadData n id beat false) s = .next { s with ports := upd s.ports n (fun p => { p with
          bytesRead := p.bytesRead + 64
          txns := p.txns.map (fun (y : Txn) => if y.id = id then { y with rdata := x.rdata ++ leBytes 64 beat.toNat } else y) }) }) ∧
      (∀ beat seq off len lead f m, x.op = .read → 64 * x.beats ≤ x.rdata.length + 64 → x.owner = .dma c st seq off len lead →
        s.dmaHead c st = some f → f.seq = seq → f.phase = 1 → f.openTx = m + 2 → f.todo = [] → f.walk = none →
        ∃ t, exec (.portReadData n id beat true) s = .next t ∧ t.ports = upd s.ports n (fun p =>
            { dropFrom p id with bytesRead := p.bytesRead + 64 }) ∧
          t.dmaHead c st = some { f with
            openTx := m + 1, got := Tab.put f.got off (((x.rdata ++ leBytes 64 beat.toNat).drop lead).take len) } ∧
          (∀ d, d ≠ c → t.core d = s.core d) ∧ (t.core c).s = (s.core c).s ∧ (t.core c).near = (s.core c).near ∧ t.parts = s.parts) ∧
      (∀ beat f w p r y, x.op = .read → x.beats = 1 → x.owner = .walkStream c st → s.dmaHead c st = some f → f.walk = some w →
        w.restart = false → s.stepOf c = some (p, r, y) → r.phase = .running →
        let pte := leAt (leBytes 64 beat.toNat) (w.entry % 64) 8
        (bitAt pte 0 = false →
          ∃ t, exec (.pageWalkReadReturn n id 0 beat) s = .next t ∧ t.xlate.faults = s.xlate.faults + 1 ∧
            Drains s t p r (.fault 0x02 (BitVec.ofNat 32 (causeStream ⟨3, w.level, 0, 0⟩ f.access c st.val)))) ∧
        (∀ l, walkRead w pte 0 = .leaf l → Tab.wf [] s.xlate.streams = true →
          ∃ t, exec (.pageWalkReadReturn n id 0 beat) s = .next t ∧ (t.port n).bytesRead = (s.port n).bytesRead + 64 ∧
            l ∈ Tab.get [] t.xlate.streams (streamKey c st))) ∧
      (∀ seq off len lead f m, x.op.writes = true → x.owner = .dma c st seq off len lead → s.dmaHead c st = some f → f.seq = seq →
        f.exp = false → f.phase = 3 → f.openTx = m + 1 → f.todo = [] → f.walk = none →
        ∃ t, exec (.portWriteAck n id) s = .next t ∧ t.ports = upd s.ports n (fun p =>
            { dropFrom p id with bytesWritten := p.bytesWritten + BitVec.ofNat 64 x.wdata.length }) ∧
          t.dmaHead c st = some { f with openTx := m } ∧ (∀ d, d ≠ c → t.core d = s.core d) ∧ (t.core c).s = (s.core c).s ∧
          (t.core c).near = (s.core c).near ∧ t.parts = s.parts) ∧
      (∀ p r m, s.dmaHead c st = none → x.op = .flush → x.owner = .dataFlush p → (s.part p).run = some r →
        r.phase = .flushing [] (m + 2) →
        exec (.portFlushDone n id) s = .next { s with
          ports := upd s.ports n (fun p => dropFrom p id)
          parts := upd s.parts p (fun y => { y with run := some { r with phase := .flushing [] (m + 1) } }) }) ∧
      (∀ (err : BitVec 2), err ≠ 0 →
        (∀ seq off len lead f p r y, x.owner = .dma c st seq off len lead → s.dmaHead c st = some f → f.seq = seq →
          s.stepOf c = some (p, r, y) → r.phase = .running →
          ∃ t, exec (.portErrorResponse n id err) s = .next t ∧ (t.port n).errors = (s.port n).errors + 1 ∧
            (t.port n).state = (s.port n).state ∧
            Drains s t p r (.fault 0x02 (BitVec.ofNat 32 (causeStream ⟨6, 0, err.toNat, 0⟩ (opAccess x.op) c st.val)))) ∧
        (x.owner = .dropped → s.dmaHead c st = none →
          ∃ t, exec (.portErrorResponse n id err) s = .next t ∧ (t.port n).errors = (s.port n).errors + 1 ∧
            (∀ y ∈ (t.port n).txns, y.id ≠ id) ∧ t.cores = s.cores ∧ t.steps = s.steps ∧
            t.fault.healthNext = s.fault.healthNext + 1 ∧ t.ctl.irqStatus = s.ctl.irqStatus ||| 8))) ∧
    (∀ (x : Txn) p r y (k : StepRec), n.val < s.build.c → s.portCarries n = true → s.txn? n id = some x → x.qos ≠ 3 → x.op = .flush →
      (s.port n).order = [] → (s.part p).run = some r → s.step? r.aseq = some k → r.aseq ≠ 0 →
      (x.owner = .dataFlush p → s.records = [] → r.phase = .flushing [] 1 →
        ∃ t, exec (.portFlushDone n id) s = .next t ∧ t.nextRec = s.nextRec + 1 ∧
          ((t.part p).run = some { r with phase := .commit } ∨ (t.part p).run = none)) ∧
      (x.owner = .recordFlush y.id → s.records = [y] → y.wrDone = true → y.commits = some r.aseq → y.part = p → r.phase = .commit →
        ∃ t e, exec (.portFlushDone n id) s = .next t ∧ t.records = [] ∧ (t.part p).run = none ∧ t.step? r.aseq = none ∧
          (t.part p).committed = (s.part p).committed + 1 ∧ (r.aseq % 4096, e) ∈ t.journal.entries ∧ e.aseq = r.aseq ∧ e.state = 4 ∧
          e.status = commitStatus k r.twin ∧
          (t.queue k.queue).cword = (if k.desc.flip = true then (s.queue k.queue).cword + 1 else (s.queue k.queue).cword) ∧
          ∀ c ∈ r.cores, (t.core c).phase = .idle)) ∧
    (∀ beat last, s.build.c ≤ n.val → exec (.portReadData n id beat last) s = .refused .absentPart ∧
      exec (.portWriteAck n id) s = .refused .absentPart) ∧
    (∀ beat last, n.val < s.build.c → s.portCarries n = true → s.txn? n id = none →
      exec (.portReadData n id beat last) s = .fault .foreignResponse ∧ exec (.portWriteAck n id) s = .fault .foreignResponse ∧
      exec (.portFlushDone n id) s = .fault .foreignResponse ∧ exec (.pageWalkReadReturn n id 0 beat) s = .fault .foreignResponse ∧
      exec (.portErrorResponse n id 1) s = .fault .foreignResponse) ∧
    (∀ beat last, n.val < s.build.c → s.portCarries n = false →
      exec (.portReadData n id beat last) s = .next s ∧ exec (.portWriteAck n id) s = .next s ∧ exec (.portFlushDone n id) s = .next s)

/-- Ports as their links, their timeouts and the host move them (R296, R298, R299, R365, R422, R428, R451): a loss drops every
transaction, counts, logs and kills the runs of the port's cluster with 0x09; a rise settles a supplied port; settling ends UP or HELD,
M0's in Thaw only after it; RESUME and a claim move a HELD port UP, a claim of 0 only detaches; PCLK_RST_N low acts as a fall of every
link. -/
def Obligations.port_states : Prop :=
  ∀ (s : State) (n : PortId), n.val < s.build.c →
    (∀ id x, s.txn? n id = some x →
      ∃ t, exec (.portTimeout n id) s = .next t ∧ (t.port n).state = .failed ∧ (t.port n).txns = [] ∧
        (t.port n).linkDrops = (s.port n).linkDrops + 1 ∧ t.ctl.irqStatus.getLsbD 3 = true ∧
        ∀ p r, (s.part p).run = some r → r.phase = .running → s.maskMeets p n.val = true →
          (t.part p).run = some { r with phase := .draining (.kill 0x09), stopCclk := 0 }) ∧
    ((s.port n).state = .up ∨ (s.port n).state = .held ∨ (s.port n).state = .settling →
      ∃ t, exec (.linkUpFall n) s = .next t ∧ (t.port n).state = .down ∧ (t.port n).linkUp = false ∧ (t.port n).txns = [] ∧
        (t.port n).linkDrops = (s.port n).linkDrops + 1 ∧
        ∀ p r, (s.part p).run = some r → r.phase = .running → s.maskMeets p n.val = true →
          (t.part p).run = some { r with phase := .draining (.kill 0x09), stopCclk := 0 }) ∧
    ((s.port n).state = .down → exec (.linkUpFall n) s = .next { s with ports := upd s.ports n (fun p => { p with linkUp := false }) }) ∧
    (s.power.pwrAck.getLsbD n.val = true → s.ctl.inReset = false → (s.port n).state = .down ∨ (s.port n).state = .failed →
      exec (.linkUpRise n) s = .next { s with ports := upd s.ports n (fun p => { p with state := .settling, linkUp := true }) }) ∧
    (s.power.pwrAck.getLsbD n.val = false →
      exec (.linkUpRise n) s = .next { s with ports := upd s.ports n (fun p => { p with linkUp := true }) }) ∧
    (s.records = [] → (s.port n).state = .settling →
      ((s.port n).autoResume = true →
        exec (.settlingExpiry n) s = .next { s with ports := upd s.ports n (fun p => { p with state := .up }) }) ∧
      ((s.port n).autoResume = false → n = 0 → s.power.season = .thaw → s.serving = true →
        exec (.settlingExpiry n) s = .next { s with ports := upd s.ports n (fun p => { p with settled := true }) }) ∧
      ((s.port n).autoResume = false → ¬ (n = 0 ∧ s.power.season = .thaw ∧ s.serving = true) →
        ∃ t, exec (.settlingExpiry n) s = .next t ∧ t.ports = upd s.ports n (fun p => { p with state := .held }) ∧
          t.fault.healthNext = s.fault.healthNext + 1 ∧ t.ctl.irqStatus = s.ctl.irqStatus ||| 8)) ∧
    (s.records = [] → (s.port n).state = .held → ∀ async, MailboxFree s →
      EndsDone (.resume n 1 async) s async { s with ports := upd s.ports n (fun p => { p with state := .up }) }) ∧
    (s.records = [] → s.ctl.inReset = false → s.serving = true → s.awake = true → s.ctl.pdState ≠ .busy → ∀ v : Word,
      v.toNat / 65536 = 0xA77A → BitVec.ofNat 16 v.toNat ≠ 0 →
      ∃ t, exec (.attach v) s = .next t ∧ t.ctl.claim = BitVec.ofNat 16 v.toNat ∧ t.ctl.attachCount = s.ctl.attachCount + 1 ∧
        t.ctl.attachTime = s.power.timebase ∧ t.ctl.pdState = .idle ∧ t.ctl.irqStatus = s.ctl.irqStatus ||| 0x80 ∧
        (∀ k : PortId, (t.port k).state = if (s.port k).state = .held then .up else (s.port k).state) ∧ t.steps = s.steps ∧
        t.queues = s.queues ∧ t.parts = s.parts) ∧
    (s.ctl.inReset = false → s.serving = true → s.awake = true → s.ctl.pdState ≠ .busy → ∀ v : Word,
      v.toNat / 65536 = 0xA77A → BitVec.ofNat 16 v.toNat = 0 → exec (.attach v) s = .next { s with ctl := { s.ctl with claim := 0 } }) ∧
    (s.ctl.inReset = false → s.serving = true → ∀ v : Word, v.toNat / 65536 ≠ 0xA77A →
      exec (.attach v) s = .next { s with ctl := { s.ctl with ignored := s.ctl.ignored + 1 } }) ∧
    (s.ctl.inReset = false → ∃ t, exec .pclkReset s = .next t ∧ t.ctl.inReset = true ∧
      (∀ k : PortId, k.val < s.build.c → (t.port k).state = .down ∨ (t.port k).state = (s.port k).state ∧
        ((s.port k).state = .down ∨ (s.port k).state = .failed ∨ (s.port k).state = .absent)) ∧
      (∀ l : LinkId, (t.link.ports[l.val]).phyUp = false)) ∧
    (s.ctl.inReset = true → (∀ l : LinkId, (s.link.ports[l.val]).phyIn = false) →
      ∃ t, exec .pclkResetRelease s = .next t ∧ t.ctl = { s.ctl with inReset := false } ∧ t.cores = s.cores ∧ t.parts = s.parts ∧
        ∀ k : PortId, k.val < s.build.c → (t.port k).state =
          if (s.port k).linkUp = true ∧ s.power.pwrAck.getLsbD k.val = true ∧ ((s.port k).state = .down ∨ (s.port k).state = .failed)
          then .settling else (s.port k).state)

/-- The Stack Link's link layer (R336, R337, R338, R348, R352, R451): a group with a wrong CRC is counted and answered with a NACK, one
out of sequence with a NACK, one in sequence is acknowledged; a replay presents every unacknowledged group again, and fails the port
where REPLAY_LIMIT replays have brought no progress; an idle group takes the next sequence number; a failure is counted and loses the
engines behind the port; the PHY's indication is kept; a HELLO is remembered with the peer's EPOCH, a first one that is not the
neighbour's makes the port MISWIRED. -/
def Obligations.link_layer : Prop :=
  ∀ (s : State) (l : LinkId),
    let p := s.link.ports[l.val]
    (s.linkOn = true →
      (∀ fs : List Flit, fs.length = 8 → p.active = true →
        let tail := (fs.getD 7 0).toNat
        (groupCrc (fs.take 7) tail ≠ fld tail 255 224 →
          exec (.linkGroupReceived l fs) s = .next { s with link := { s.link with
            ports := upd s.link.ports l (fun p => { p with crcErrors := p.crcErrors + 1, nack := true }) } }) ∧
        (groupCrc (fs.take 7) tail = fld tail 255 224 → fld tail 43 32 ≠ (p.ackSeq + 1) % 4096 →
          exec (.linkGroupReceived l fs) s = .next { s with link := { s.link with
            ports := upd s.link.ports l (fun p => { p with nack := true }) } }) ∧
        (p.state = .up → groupCrc (fs.take 7) tail = fld tail 255 224 → fld tail 43 32 = (p.ackSeq + 1) % 4096 →
          (bitAt tail 56 = true → p.noProgress < s.link.replayLimit.toNat) →
          ∃ t, exec (.linkGroupReceived l fs) s = .next t ∧ (t.link.ports[l.val]).ackSeq = fld tail 43 32 ∧
            (t.link.ports[l.val]).nack = false ∧ (t.link.ports[l.val]).crcErrors = p.crcErrors ∧ t.deep = s.deep)) ∧
      (p.active = true → p.replayBuf ≠ [] → s.link.replayLimit.toNat ≤ p.noProgress →
        ∃ t, exec (.linkReplay l) s = .next t ∧ (t.link.ports[l.val]).state = .failed ∧ (t.link.ports[l.val]).linkFails = p.linkFails + 1) ∧
      (p.active = true → p.replayBuf ≠ [] → p.noProgress < s.link.replayLimit.toNat →
        exec (.linkReplay l) s = .next { s with link := { s.link with
          ports := upd s.link.ports l (fun p => { p with
            replays := p.replays + 1, noProgress := p.noProgress + 1, nack := false, out := p.replayBuf.map p.groupFlits }) } }) ∧
      (p.active = true → p.nextSlot = none → p.replayBuf.length < 64 →
        ∃ t, exec (.idleGroup l) s = .next t ∧ (t.link.ports[l.val]).nextSeq = (p.nextSeq + 1) % 4096 ∧
          (t.link.ports[l.val]).replayBuf.length = p.replayBuf.length + 1 ∧ (t.link.ports[l.val]).out.length = 1 ∧
          t.cores = s.cores ∧ t.parts = s.parts ∧ t.power = s.power) ∧
      (p.state = .up ∨ (p.state = .down ∧ p.phyUp = true) →
        ∃ t, exec (.linkFailed l) s = .next t ∧ (t.link.ports[l.val]).state = .failed ∧
          (t.link.ports[l.val]).linkFails = p.linkFails + 1 ∧
          ∀ e ∈ s.sideOf l, s.link.peerState[e.val] = 1 → t.link.peerState[e.val] = 2) ∧
      (∀ m rest, p.rxMgt = m :: rest → hType m.hdr = 12 →
        (p.wired = true ∨ s.neighbour l = some (hSrc m.hdr) → hSrc m.hdr ≠ s.pins.inst.val →
          ∃ t, exec (.hello l) s = .next t ∧ (t.link.ports[l.val]).helloHeard = true ∧ (t.link.ports[l.val]).wired = true ∧
            (∀ y ∈ (t.link.ports[l.val]).rxMgt, y ∈ rest) ∧
            t.link.peerEpoch.toList.getD (hSrc m.hdr) 0 = BitVec.ofNat 32 (Config.mgtField 12 3 (hMgt m.hdr))) ∧
        (p.wired = false → s.neighbour l ≠ some (hSrc m.hdr) →
          ∃ t, exec (.hello l) s = .next t ∧ (t.link.ports[l.val]).state = .miswired)) ∧
      (p.active = true → ∃ t, exec .helloTimer s = .next t ∧ (t.link.ports[l.val]).helloSent = true ∧ t.queues = s.queues)) ∧
    (s.linkOn = false → exec (.linkFailed l) s = .next s ∧ exec (.linkReplay l) s = .next s ∧ exec .helloTimer s = .next s) ∧
    (∀ fs : List Flit, fs.length ≠ 8 → exec (.linkGroupReceived l fs) s = .refused .malformedOperand) ∧
    (p.state = .unconnected → ∀ b, exec (.phyUpChange l b) s = .next { s with link := { s.link with
      ports := upd s.link.ports l (fun p => { p with phyIn := b }) } }) ∧
    (p.state ≠ .unconnected → s.ctl.inReset = false →
      (p.phyUp = true → exec (.phyUpChange l false) s = .next { s with link := { s.link with
        ports := upd s.link.ports l (fun p => { p with phyIn := false, phyUp := false }) } }) ∧
      (p.phyUp = false → ∃ t, exec (.phyUpChange l true) s = .next t ∧ (t.link.ports[l.val]).phyIn = true ∧
        (t.link.ports[l.val]).phyUp = true ∧ (t.link.ports[l.val]).state = p.state ∧ t.cores = s.cores))

/-- Requests at the heads of the receive buffers (R343, R344, R345, R346, R351, Table 7-7): a WRITE that its window admits lands in its
enabled bytes and no other, a refused one is counted against its sender; a READ is answered with the window's bytes, with STATUS 1, or
over a poisoned word with STATUS 2, and waits while 64 RDATA are unsent; a FLUSH takes the refusals of its sender with it; a CHAIN adds one credit. Each leaves its buffer. -/
def Obligations.link_requests : Prop :=
  ∀ (s : State) (l : LinkId) (m : Msg) (rest : List Msg), s.linkOn = true → PhysDown s → (s.link.ports[l.val]).rxReq = m :: rest →
    let h := m.hdr
    let w := hWin4 h
    let n := m.data.length
    let port := s.link.ports[(s.routeTo (hSrc h)).val]
    let gone := fun (t : State) => (t.link.ports[l.val]).rxReq = rest
    (hType h = 1 → 1 ≤ n → hOffset h % 32 = 0 → DeepOk s → s.deep.poison = [] →
      (∀ a, s.windowDsa w (hSrc h) (hOffset h) (32 * n) true = some a →
        ∃ t, exec (.linkWrite l) s = .next t ∧ gone t ∧ t.cores = s.cores ∧ t.parts = s.parts ∧
          ∀ y, t.deepByte y =
            if a ≤ y ∧ y < a + 32 * n ∧ (y < a + 32 * (n - 1) ∨ bitAt (hArg h) (y - (a + 32 * (n - 1))) = true) then
              (flitBytes m.data).getD (y - a) 0
            else s.deepByte y) ∧
      (s.windowDsa w (hSrc h) (hOffset h) (32 * n) true = none →
        ∃ t, exec (.linkWrite l) s = .next t ∧ gone t ∧ t.deep = s.deep ∧ t.link.iwRefused = upd s.link.iwRefused w (· + 1) ∧
          t.link.refusedFor = Tab.set 0 s.link.refusedFor (spartKey h) (Tab.get 0 s.link.refusedFor (spartKey h) + 1))) ∧
    let trackers := (s.link.ports.toList.map (fun q => q.trackers s.pins.inst.val)).sum
    (hType h = 2 → 64 ≤ trackers → exec (.linkRead l) s = .next s) ∧
    (hType h = 2 → port.state = .up → trackers < 64 →
      (∀ a, s.windowDsa w (hSrc h) (hOffset h) (hArg h) false = some a → s.deepPoisonIn a (hArg h) = none →
        ∃ t, exec (.linkRead l) s = .next t ∧ gone t ∧ t.deep = s.deep ∧
          (t.link.ports[(s.routeTo (hSrc h)).val]).txRsp = port.txRsp ++
            [reply s h 8 (hArg h / 32) 0 0 (bytesFlits (hArg h / 32) (s.deepRead a (hArg h)))]) ∧
      (∀ a k, s.windowDsa w (hSrc h) (hOffset h) (hArg h) false = some a → s.deepPoisonIn a (hArg h) = some k →
        ∃ t, exec (.linkRead l) s = .next t ∧ gone t ∧ t.deep = s.deep ∧ t.scrub.uncorrectable[1] = s.scrub.uncorrectable[1] + 1 ∧
          (t.link.ports[(s.routeTo (hSrc h)).val]).txRsp = port.txRsp ++ [reply s h 8 0 2 0 []]) ∧
      (s.windowDsa w (hSrc h) (hOffset h) (hArg h) false = none →
        ∃ t, exec (.linkRead l) s = .next t ∧ gone t ∧ t.deep = s.deep ∧ t.link.iwRefused = upd s.link.iwRefused w (· + 1) ∧
          (t.link.ports[(s.routeTo (hSrc h)).val]).txRsp = port.txRsp ++ [reply s h 8 0 1 0 []])) ∧
    (hType h = 3 → port.state = .up →
      ∃ t, exec (.linkFlush l) s = .next t ∧ gone t ∧ t.deep = s.deep ∧
        t.link.refusedFor = Tab.set 0 s.link.refusedFor (spartKey h) 0 ∧
        (t.link.ports[(s.routeTo (hSrc h)).val]).txRsp = port.txRsp ++
          [reply s h 9 0 0 (Tab.get 0 s.link.refusedFor (spartKey h)) []]) ∧
    (hType h = 4 → hArg h < 64 →
      ∃ t, exec (.chain l) s = .next t ∧ gone t ∧ t.deep = s.deep ∧ t.queues = s.queues ∧
        ∀ q : QueueId, t.link.chainCredit[q.val] = if q.val = hArg h then s.link.chainCredit[q.val] + 1 else s.link.chainCredit[q.val])

/-- Responses, reports, events and relayed transactions (R178, R345, R346, R349, R350, R369, R436, R437): RDATA brings its bytes to its command or
ends the step; FLUSH_DONE frees the core, which sends its token after the last one, with refusals it ends the step with 0x03; an order is
kept until its instant, a report is kept by the master; an event sets its sender's bit; a request of the master is served and counted; an answer, or none in time, ends
the relayed transaction. -/
def Obligations.link_responses_and_control : Prop :=
  ∀ (s : State) (l : LinkId) (m : Msg) (rest : List Msg), s.linkOn = true → PhysDown s →
    let h := m.hdr
    ((s.link.ports[l.val]).rxRsp = m :: rest →
      (∀ r p y k, hType h = 8 → s.link.reads.find? (fun r => decide (r.tag = hTag h ∧ r.engine = hSrc h)) = some r → r.live = true →
        s.stepOf r.core = some (p, y, k) → y.phase = .running →
        (∀ f, hStatus h = 0 → s.dmaHead r.core r.stream = some f → f.seq = r.seq → f.phase = 1 → f.openTx ≠ 0 → f.todo = [] →
          f.walk = none → ExpanderIdle s r.core → RemoteIdle s r.core → (s.core r.core).phase ≠ .committed →
          ∃ t, exec (.rdata l) s = .next t ∧ (t.link.ports[l.val]).rxRsp = rest ∧ t.link.reads = s.link.reads.erase r ∧
            t.dmaHead r.core r.stream = some { f with got := Tab.put f.got r.off (slice (flitBytes m.data) r.lead r.len) } ∧
            t.deep = s.deep ∧ t.parts = s.parts) ∧
        (hStatus h = 2 → ∃ t, exec (.rdata l) s = .next t ∧ Drains s t p y (.fault 0x04 1)) ∧
        (hStatus h = 1 → ∃ t, exec (.rdata l) s = .next t ∧ Drains s t p y (.fault 0x03 0))) ∧
      (∀ r, hType h = 8 → s.link.reads.find? (fun r => decide (r.tag = hTag h ∧ r.engine = hSrc h)) = some r → r.live = false →
        RemoteIdle s r.core → (s.core r.core).phase ≠ .committed →
        ∃ t, exec (.rdata l) s = .next t ∧ (t.link.ports[l.val]).rxRsp = rest ∧ t.link.reads = s.link.reads.erase r ∧ t.cores = s.cores ∧
          t.parts = s.parts) ∧
      (∀ r p y k, hType h = 9 → s.link.flushes.find? (fun r => decide (r.tag = hTag h ∧ r.engine = hSrc h)) = some r → r.live = true →
        s.stepOf r.core = some (p, y, k) → y.phase = .running →
        (hRefused h = 0 → (s.core r.core).phase = .committed → clearBit (s.core r.core).remoteFlush r.engine = 0 → RemoteIdle s r.core →
          ∃ t tok, exec (.flushDone l) s = .next t ∧ t.link.flushes = s.link.flushes.erase r ∧ tok.core = r.core ∧
            (t.part p).run = some { y with arrived := y.arrived ++ [tok] }) ∧
        (hRefused h = 0 → (s.core r.core).phase ≠ .committed → RemoteIdle s r.core →
          ∃ t, exec (.flushDone l) s = .next t ∧ t.link.flushes = s.link.flushes.erase r ∧
            t.core r.core = { s.core r.core with remoteDirty := clearBit (s.core r.core).remoteDirty r.engine,
                                                 remoteFlush := clearBit (s.core r.core).remoteFlush r.engine } ∧
            (∀ d, d ≠ r.core → t.core d = s.core d) ∧ t.parts = s.parts) ∧
        (hRefused h ≠ 0 → ∃ t, exec (.flushDone l) s = .next t ∧ Drains s t p y (.fault 0x03 0)))) ∧
    ((s.link.ports[l.val]).rxMgt = m :: rest →
      (hType h = 13 → s.formed = true → s.pins.master = false →
        ∃ t, exec (.pstate l) s = .next t ∧ t.power = s.power ∧ t.cores = s.cores ∧ t.link.order =
          if Config.mgtField 13 0 (hMgt h) ≠ 0 ∧ s.link.masterId.toNat = hSrc h then
            some ((pst (Config.mgtField 13 1 (hMgt h))).val, Config.mgtField 13 2 (hMgt h))
          else s.link.order) ∧
      (hType h = 13 → s.formed = true → s.pins.master = true →
        ∃ t, exec (.pstate l) s = .next t ∧ t.power = s.power ∧ t.cores = s.cores ∧ t.link.reports.toList.getD (hSrc h) none =
          if Config.mgtField 13 0 (hMgt h) = 0 then
            some ((pst (Config.mgtField 13 1 (hMgt h))).val, (pst (Config.mgtField 13 3 (hMgt h))).val)
          else s.link.reports.toList.getD (hSrc h) none) ∧
      (hType h = 15 → s.pins.master = true →
        ∃ t, exec (.event l) s = .next t ∧ t.ctl.peerEvents = putBit s.ctl.peerEvents (hSrc h) ∧
          t.ctl.irqStatus = s.ctl.irqStatus ||| 0x10 ∧ t.cores = s.cores) ∧
      (hType h = 14 → s.awake = true → s.pins.master = true → s.ctl.attachWaits = [] →
        ∀ r, s.link.relay = some (r, hTag h) → r.engine = hSrc h →
          ∃ t, exec (.pdmsg l) s = .next t ∧ t.cores = s.cores ∧ t.queues = s.queues ∧
            (Config.mgtField 14 0 (hMgt h) = 0 → t.link.relay = s.link.relay ∧ t.ctl = s.ctl) ∧
            (Config.mgtField 14 0 (hMgt h) ≠ 0 → t.link.relay = none ∧ t.ctl.transactions = s.ctl.transactions + 1 ∧
              t.ctl.pdState = (if Config.mgtField 14 1 (hMgt h) = 0 then .done else .aborted) ∧
              t.ctl.abort = BitVec.ofNat 8 (Config.mgtField 14 1 (hMgt h)))) ∧
      (hType h = 14 → s.awake = true → s.pins.master = false → s.link.masterId.toNat = hSrc h → s.link.relay = none →
        ∃ t, exec (.pdmsg l) s = .next t ∧
          (Config.mgtField 14 0 (hMgt h) = 0 → Config.mgtField 14 2 (hMgt h) % 65536 = 0xFFFF →
            t.ctl.transactions = s.ctl.transactions + 1 ∧ t.ctl.aborts = s.ctl.aborts + 1 ∧ t.cores = s.cores ∧ t.queues = s.queues) ∧
          ((List.range 6).map (fun i => Config.mgtField 14 i (hMgt m.hdr)) = [0, 0, 0x1000, 1, 4, 0] →
            t.ctl.transactions = s.ctl.transactions + 1 ∧ t.ctl.aborts = s.ctl.aborts ∧ t.cores = s.cores ∧ t.queues = s.queues))) ∧
    (∀ r tag, s.link.relay = some (r, tag) → s.ctl.attachWaits = [] →
      ∃ t, exec .relayTimeout s = .next t ∧ t.link.relay = none ∧ t.ctl.pdState = .aborted ∧ t.ctl.abort = 6 ∧
        t.ctl.aborts = s.ctl.aborts + 1 ∧ t.cores = s.cores ∧ t.queues = s.queues) ∧
    (∀ p instant c, s.link.order = some (p, instant) → s.formed = true → s.power.change = some c → pst p ≠ s.power.ordered →
      exec .pstateOrderInstant s = .next { s with power := { s.power with ordered := pst p } }) ∧
    (∀ p instant, s.link.order = some (p, instant) → s.formed = true → s.power.change = none → pst p ≠ s.power.ordered →
      (s.power.pstate < pst p → exec .pstateOrderInstant s = .next { s with power := { s.power with
        ordered := pst p, pstate := pst p, pstReq := pst p, pstChanges := s.power.pstChanges + 1 } }) ∧
      (pst p < s.power.pstate → ∃ t, exec .pstateOrderInstant s = .next t ∧ t.power.ordered = pst p ∧ t.power.pstReq = pst p ∧
        t.power.pstate = s.power.pstate ∧ t.power.pstAck = false ∧
        t.power.change = some { target := (pst p).val, faster := true, gliding := false }))

/-! ### Seasons, power, health, starts, the control port, pins (chapters 16 to 20) -/

/-- The seasons (R359 to R366, R416, Tables 16-4 and 16-6): idle time leads to Autumn and drops every translation; Winter, once the
PLLs have stopped and one request for supply is left, clears the cores and keeps the deep scratch of retained clusters; a drain given up
is counted and returns to Spring, at once or when the PLLs have locked again; a wake event starts Thaw, ends Autumn in the same way, or is
held during the rest after SHUTDOWN; Thaw ends in Spring when the reload's CRC agrees, begins a full start when it does not or is
abandoned, and stays on a read that errs; a store whose host copy changed is LOST. -/
def Obligations.seasons : Prop :=
  ∀ s : State,
    let raised := s.power.pwrReq ||| (s.build.present &&& ~~~s.power.pwrAck)
    (s.idle = true → s.power.idleTimeout ≠ 0 →
      exec .idleTimeoutExpiry s = .next { s with
        power := { s.power with season := .autumn, autumnStage := 3 }
        xlate := { s.xlate with streams := [], stewards := Vector.replicate 4 [], walkCache := Vector.replicate 4 [] } }) ∧
    (s.power.season = .autumn → s.power.autumnStage = 4 → s.power.pwrReq.toNat ≤ 1 →
      ∃ t, exec .winterEntry s = .next t ∧ t.power.season = .winter ∧ t.power.pwrReq = 0 ∧ t.power.onAon = true ∧
        t.power.pllLocked = false ∧ t.power.winters = s.power.winters + 1 ∧ (∀ c, t.core c = Core.reset) ∧ t.xlate.streams = [] ∧
        t.ctl.irqStatus = s.ctl.irqStatus ||| 0x40 ∧ t.queues = s.queues ∧ t.steps = s.steps ∧ t.journal = s.journal ∧
        t.power.parked = s.power.parked ∧
        ((∀ cl : Fin 4, cl.val < s.build.c → s.power.retainMask.getLsbD cl.val = true) →
          t.deep.cells = s.deep.cells ∧ t.sets = s.sets ∧ t.parts = s.parts)) ∧
    (¬ (s.power.season = .autumn ∧ s.power.autumnStage = 4 ∧ s.power.pwrReq.toNat ≤ 1) → exec .winterEntry s = .next s) ∧
    (s.power.season = .autumn → s.serving = true →
      (s.power.autumnStage < 4 → Alone s → NothingWaits s →
        exec .drainLimitExpiry s = .next (withPower s (fun p => { p with
          season := .spring, autumnStage := 0, autumnAborts := p.autumnAborts + 1 }))) ∧
      (4 ≤ s.power.autumnStage → exec .drainLimitExpiry s = .next (withPower s (fun p => { p with
          autumnStage := 5, pwrReq := raised, autumnAborts := p.autumnAborts + 1 })))) ∧
    (∀ k : WakeKind, s.canWake k = true → s.serving = true →
      let cmd := if k = .wakeAt then Instr.wakeAtExpiry else .wakeEvent k
      (s.power.season = .winter → s.power.thermal ≠ .shutdown →
        ∀ i ∈ [cmd, .wakeEvent k], exec i s = .next (withPower s (fun p => { p with season := .thaw, thawStart := s.now, pwrReq := raised }))) ∧
      (s.power.season = .autumn → s.power.thermal ≠ .shutdown → s.power.autumnStage < 4 → Alone s → NothingWaits s →
        ∀ i ∈ [cmd, .wakeEvent k], exec i s = .next (withPower s (fun p => { p with season := .spring, autumnStage := 0 }))) ∧
      (s.power.season = .autumn → s.power.thermal ≠ .shutdown → 4 ≤ s.power.autumnStage →
        ∀ i ∈ [cmd, .wakeEvent k], exec i s = .next (withPower s (fun p => { p with autumnStage := 5, pwrReq := raised }))) ∧
      (s.power.season = .winter ∨ s.power.season = .autumn → s.power.thermal = .shutdown →
        ∀ i ∈ [cmd, .wakeEvent k], exec i s = .next (withPower s (fun p => { p with wakeHeld := true })))) ∧
    (∀ r u e, s.power.season = .thaw → s.serving = true → s.powered = true → s.reloadPort = true →
      s.physRead 0 (slotPa (s.slotRecord s.start.activeSlot)) (slotLength (s.slotRecord s.start.activeSlot)) r = (u, e) →
      (∀ bs, e = .data bs → crc32c bs = s.start.fwCrc.toNat → Alone s → NothingWaits s → PhysDown s → s.records = [] →
        ∀ i ∈ [Instr.thawComplete r, .thawReloadRetry r], ∃ t, exec i s = .next t ∧
          t.power = { s.power with season := .spring, lastThawNs := BitVec.ofNat 32 (ticksNs (s.now - s.power.thawStart)) } ∧
          t.ctl.irqStatus.getLsbD 6 = true ∧ (t.port 0).state = (if (s.port 0).settled = true then .held else (s.port 0).state) ∧
          t.cores = s.cores ∧ t.steps = s.steps ∧ t.queues = s.queues ∧ t.deep = s.deep ∧ t.start = s.start) ∧
      (∀ bs, e = .data bs → crc32c bs ≠ s.start.fwCrc.toNat →
        ∀ i ∈ [Instr.thawComplete r, .thawReloadRetry r], ∃ t, exec i s = .next t ∧ Restarts s t 4) ∧
      (∀ err pa, e = .error err pa →
        ∀ i ∈ [Instr.thawComplete r, .thawReloadRetry r], ∃ t, exec i s = .next t ∧ t.power = s.power ∧ t.start = s.start ∧
          (t.port 0).errors = (s.port 0).errors + 1 ∧ t.cores = s.cores)) ∧
    (s.power.season = .thaw → s.serving = true → ∃ t, exec .thawReloadAbandon s = .next t ∧ Restarts s t 6) ∧
    (s.power.season ≠ .winter → s.power.season ≠ .autumn →
      exec .pllLock s = .next (withPower s (fun p => { p with pllLocked := true }))) ∧
    (s.power.season = .autumn → s.power.autumnStage = 5 → s.serving = true → Alone s → NothingWaits s →
      exec .pllLock s = .next (withPower s (fun p => { p with pllLocked := true, autumnStage := 0, season := .spring }))) ∧
    (∀ l r u bs, s.start.libLast = some l → s.start.storesLost = true → s.serving = true → s.awake = true → s.portCarries 0 = true →
      s.stewardRead 0 0 l.ast l.va l.length r = (u, .data bs) →
      (crc32c bs ≠ l.crc → ∃ t, exec (.routineStoreReload r) s = .next t ∧ t.tables.active.dir = [] ∧
        t.start.pendingDir = none ∧ t.start.libLast = none ∧ t.start.storesLost = false ∧ t.start.libraryState = 4 ∧
        t.start.store = s.start.store ∧ t.ctl.irqStatus = s.ctl.irqStatus ||| 0x80 ∧ t.cores = s.cores ∧ t.steps = s.steps) ∧
      (crc32c bs = l.crc → ∃ t, exec (.routineStoreReload r) s = .next t ∧ t.start.storesLost = false ∧
        t.tables = s.tables ∧ t.start.libLast = some l ∧ t.ctl = s.ctl ∧ t.cores = s.cores ∧ t.steps = s.steps ∧
        ∀ (cl : Fin 4) (n : Nat), cl.val < s.build.c → n < 262144 →
          let h := ((libraryRecs bs).map RoutineRec.half).headD 0
          Tab.get 0 t.start.store[cl.val] (262144 * h + n) = (libraryStore bs).getD n 0))

/-- Supplies, P-state changes, droop and ALERT_N (R369, R370, R371, R444, R445): an acknowledgement that rises lets a port settle, one
that falls is asked for again while it is wanted, one that is lost takes the cluster's cores, port and slice, or the service with
cluster 0; a faster change waits for PST_ACK and glides, a change that ends is counted, and an order that waited for it starts; stretched
cycles are counted, together for the cores of a lockstep pair and its spare; ALERT_N limits the engine to P5. -/
def Obligations.supplies_and_pstate : Prop :=
  ∀ s : State,
    (∀ cl : Fin 4, cl.val < s.build.c →
      exec (.pwrAckRise cl) s = .next { s with
        power := { s.power with pwrAck := putBit s.power.pwrAck cl.val }
        ports := if (s.port cl).state = .down ∧ (s.port cl).linkUp = true then
          upd s.ports cl (fun p => { p with state := .settling }) else s.ports } ∧
      (s.power.pwrReq.getLsbD cl.val = false → exec (.pwrAckFall cl) s = .next (withPower s (fun p => { p with
        pwrAck := clearBit p.pwrAck cl.val
        pwrReq := if s.wantsSupply cl = true then putBit p.pwrReq cl.val else p.pwrReq }))) ∧
      (s.power.pwrReq.getLsbD cl.val = true → s.power.pwrAck.getLsbD cl.val = true →
        (cl.val ≠ 0 → ∃ t, exec (.pwrAckLoss cl) s = .next t ∧ t.power.pwrAck = clearBit s.power.pwrAck cl.val ∧
          t.power.pwrReq = clearBit s.power.pwrReq cl.val ∧ (∀ i, t.core (coreAt cl i) = Core.reset) ∧
          (t.port cl).state = (if (s.port cl).state = .failed then .failed else .down) ∧ t.deep.lost[cl.val].isSome = true ∧
          t.start.store[cl.val] = [] ∧ t.pins = s.pins) ∧
        (cl.val = 0 → s.start.state = .running → ∃ t, exec (.pwrAckLoss cl) s = .next t ∧ Restarts s t 3) ∧
        (cl.val = 0 → s.start.state = .probation ∨ s.start.state = .starting →
          ∃ t, exec (.pwrAckLoss cl) s = .next t ∧ StartFails s t .stewardLoss 0))) ∧
    (∀ c, s.power.change = some c →
      let toward := fun (p : Fin 6) (from_ : Fin 6) => if p = from_ then none
        else some ({ target := p.val, faster := decide (p < from_), gliding := decide (from_ < p) } : PstChange)
      (c.faster = true → c.gliding = false →
        exec .pstAckRise s = .next (withPower s (fun p => { p with pstAck := true, change := some { c with gliding := true } })) ∧
        (s.power.ordered.val = c.target → ∃ t, exec .pstAckTimeout s = .next t ∧
          t.power = { s.power with change := none, ordered := s.power.pstate } ∧
          t.fault.healthNext = s.fault.healthNext + 1 ∧ t.cores = s.cores) ∧
        (s.power.ordered.val ≠ c.target → ∃ t, exec .pstAckTimeout s = .next t ∧ t.power.ordered = s.power.ordered ∧
          t.power.pstate = s.power.pstate ∧ t.power.change = toward s.power.ordered s.power.pstate ∧
          t.fault.healthNext = s.fault.healthNext + 1 ∧ t.cores = s.cores)) ∧
      (c.gliding = true → s.power.ordered = pst c.target →
        exec .glideEnd s = .next (withPower s (fun p => { p with
          change := none, pstate := pst c.target, pstReq := pst c.target, pstChanges := p.pstChanges + 1, alertDivider := false }))) ∧
      (c.gliding = true → s.power.ordered ≠ pst c.target →
        ∃ t, exec .glideEnd s = .next t ∧ t.power.pstate = pst c.target ∧ t.power.pstChanges = s.power.pstChanges + 1 ∧
          t.power.alertDivider = false ∧ t.power.change = toward s.power.ordered (pst c.target) ∧ t.cores = s.cores)) ∧
    (s.power.change = none → exec .pstAckRise s = .next (withPower s (fun p => { p with pstAck := true })) ∧
      exec .pstAckTimeout s = .next s ∧ exec .glideEnd s = .next s) ∧
    (∀ (c : CoreId) (n : Nat), s.booted = true → s.power.season ≠ .winter → s.power.season ≠ .thaw →
      let inStep := fun (i j : Fin 5) => ∃ y ∈ s.fault.pairs.toList,
        (s.fault.hotSpare = some i ∨ y.lead = some i ∨ y.checker = some i) ∧ (s.fault.hotSpare = some j ∨ y.lead = some j ∨ y.checker = some j)
      ∃ t, exec (.droopDetect c n) s = .next t ∧
        t.power.rtStretches = (if s.rtRole c = true then bump s.power.rtStretches n else s.power.rtStretches) ∧
        (∀ d : CoreId, d = c ∨ (s.rtRole c = true ∧ d.val < 5 ∧ inStep (indexOf c) (indexOf d)) →
          t.power.stretches[d.val] = bump s.power.stretches[d.val] n) ∧
        (∀ d : CoreId, d ≠ c → ¬ (s.rtRole c = true ∧ d.val < 5 ∧ inStep (indexOf c) (indexOf d)) →
          t.power.stretches[d.val] = s.power.stretches[d.val]) ∧ t.cores = s.cores ∧ t.parts = s.parts ∧ t.ctl = s.ctl) ∧
    (s.serving = true → s.power.season ≠ .winter → s.power.season ≠ .thaw →
      ∃ t, exec .alertNFall s = .next t ∧ t.fault.healthNext = s.fault.healthNext + 1 ∧ t.cores = s.cores ∧
        t.power = { s.power with
          alertLow := true, alerts := s.power.alerts + 1, alertLimit := true, alertDivider := decide (s.power.pstate ≠ 5), ordered := 5
          pstReq := if s.power.pstate ≠ 5 then s.power.pstReq else 5
          change := if s.power.pstate ≠ 5 then some { target := 5, faster := false, gliding := true } else none } ∧ t.limit = 5) ∧
    (s.serving = false ∨ s.power.season = .winter ∨ s.power.season = .thaw →
      exec .alertNFall s = .next (withPower s (fun p => { p with alertLow := true }))) ∧
    (s.power.alertLimit = true → ∃ t, exec .alertHoldExpiry s = .next t ∧ t.power.alertLimit = false ∧ t.power.alertLow = false ∧
      t.power.pstate = s.power.pstate ∧ t.cores = s.cores) ∧
    (s.power.alertLimit = false → exec .alertHoldExpiry s = .next (withPower s (fun p => { p with alertLow := false })))

/-- The estimator, telemetry, the cap loop and the thermal response (R372, R373, R374, R375, R377, Tables 16-8 and 16-11): a period leaves
its estimate and starts another with the entries of the moment; an estimate over CAP_MW lowers the cap's P-state by one while the stack's
floor lets it, then parks a core; a sample adds its energy, a calibration period sets k within its clamp; the hottest sensor moves the
thermal state, at 115 degrees every run is killed and the service halts; the rest after SHUTDOWN ends with the wake event it held. -/
def Obligations.estimator_and_thermal : Prop :=
  ∀ s : State, s.serving = true →
    let w := s.power
    (∀ counts, s.awake = true →
      let e := s.estimate counts
      let p := max w.capP w.pstate.val
      let proj := e.1 - s.pendingParks * perP w.full w.pstate.val
      ∃ t, exec (.estimatorPeriod counts) s = .next t ∧ t.power.estimateMw = BitVec.ofNat 32 e.1 ∧
        t.power.estSum = w.estSum + e.2 ∧ t.power.estInUse = w.coeff ++ w.dyn ++ w.leak ++ w.unc ∧
        t.power.pstate = s.power.pstate ∧ t.cores = s.cores ∧ t.parts = s.parts ∧
        (w.capMw.toNat < proj → w.lastAct + 64 ≤ s.now → p < s.link.stackFloor →
          t.power.capP = p + 1 ∧ t.power.calm = 0 ∧ t.power.lastAct = s.now ∧ t.power.parked = w.parked) ∧
        (∀ c, w.capMw.toNat < proj → w.lastAct + 64 ≤ s.now → s.link.stackFloor ≤ p → s.parkPick = some c →
          t.power.capP = p ∧ t.power.calm = 0 ∧ t.power.lastAct = s.now ∧ t.power.parked = c :: w.parked) ∧
        (w.capMw.toNat < proj → s.now < w.lastAct + 64 → t.power.capP = p ∧ t.power.calm = 0 ∧ t.power.parked = w.parked) ∧
        (proj ≤ w.capMw.toNat → w.calm + 1 < w.capHold.toNat →
          t.power.capP = p ∧ t.power.calm = w.calm + 1 ∧ t.power.parked = w.parked ∧ t.power.excursion = false)) ∧
    (∀ v : Word, w.season ≠ .winter → w.season ≠ .thaw → exec (.tlmSample v) s = .next (withPower s (fun p => { p with
      tlmEnergy := p.tlmEnergy + v.toNat * p.tlmLsb.toNat, tlmSamples := p.tlmSamples + 1 }))) ∧
    (w.tlmSamples = 0 ∨ w.tlmLsb = 0 → exec .calPeriodEnd s = .next (withPower s (fun p => { p with
      tlmEnergy := 0, tlmSamples := 0, estSum := 0 }))) ∧
    (w.tlmSamples ≠ 0 → w.tlmLsb ≠ 0 →
      let k := w.tlmEnergy * 65536 / w.estSum
      (w.estSum ≠ 0 → 32768 ≤ k → k ≤ 131072 → exec .calPeriodEnd s = .next (withPower s (fun p => { p with
        tlmEnergy := 0, tlmSamples := 0, estSum := 0, calFactor := BitVec.ofNat 32 k }))) ∧
      (w.estSum = 0 ∨ k < 32768 ∨ 131072 < k → ∃ t, exec .calPeriodEnd s = .next t ∧ t.fault.healthNext = s.fault.healthNext + 1 ∧
        t.power = { w with tlmEnergy := 0, tlmSamples := 0, estSum := 0, calOut := w.calOut + 1,
                           calFactor := if w.estSum ≠ 0 ∧ k < 32768 then 32768 else 131072 })) ∧
    (∀ (xs : List Int) (h : Int), w.season ≠ .winter → w.season ≠ .thaw → s.hottest xs = some h →
      let tmp := h / 2
      (115 ≤ tmp → ∃ t, exec (.thermalSample xs) s = .next t ∧ t.power.thermal = .shutdown ∧
        (w.season ≠ .summer → t.power.season = .autumn) ∧ (s.rt.arm ≠ .disarmed → s.rt.arm ≠ .halted → t.rt.arm = .halted ∧ t.rt.pend = []) ∧
        ∀ p r, (s.part p).run = some r → r.phase = .running →
          (t.part p).run = some { r with phase := .draining (.kill 0x01), stopCclk := 0 }) ∧
      (tmp < 115 → w.thermal = .normal →
        (tmp < w.tWarn.toInt → tmp < w.tCrit.toInt →
          exec (.thermalSample xs) s = .next (withPower s (fun p => { p with tempMax := BitVec.ofInt 32 tmp }))) ∧
        (w.tWarn.toInt ≤ tmp → tmp < w.tCrit.toInt →
          exec (.thermalSample xs) s = .next (withPower s (fun p => { p with
            tempMax := BitVec.ofInt 32 tmp, thermal := .warm, thermalBand := 1, thermalSince := s.now }))) ∧
        (w.tCrit.toInt ≤ tmp → ∃ t, exec (.thermalSample xs) s = .next t ∧ t.power.thermal = .critical ∧ t.power.thermalLimit = 5 ∧
          t.fault.healthNext = s.fault.healthNext + 1 ∧ t.cores = s.cores))) ∧
    (w.thermal = .shutdown → w.wakeHeld = false ∨ s.awake = true → exec .thermalRestExpiry s = .next (withPower s (fun p => { p with
      thermal := .normal, thermalLimit := 0, thermalBand := 0, wakeHeld := false }))) ∧
    (w.thermal = .shutdown → w.wakeHeld = true → w.season = .winter → exec .thermalRestExpiry s = .next (withPower s (fun p => { p with
      thermal := .normal, thermalLimit := 0, thermalBand := 0, wakeHeld := false, season := .thaw, thawStart := s.now
      pwrReq := p.pwrReq ||| (s.build.present &&& ~~~p.pwrAck) }))) ∧
    (w.thermal ≠ .shutdown → exec .thermalRestExpiry s = .next s)

/-- Lockstep, self-test, stewards, slow and aging cores (R276, R384, R385, R387, R389, R390, R392, R393, R396, R412): a mismatch kills
the run with 0x0A and awaits the self-test, whose outcomes the health entries keep; the failing member gives its place to the hot spare
and is retired, with no spare the last pair goes on single where it may, two failures halt the service; a core that passes its test keeps
the time, one that fails is retired; a steward that misses its heartbeat is faulted, the last one ends the service or the start; one that
rejoins serves again, and an update goes on with the next; a window of 16 steps judges the rates; a margin below AGING_WARN is an event,
one below AGING_RETIRE gives the index to the spare, a lockstep member's place to the hot spare. -/
def Obligations.lockstep_and_health : Prop :=
  ∀ s : State,
    (∀ (i : Fin 2) (l c : Fin 5), (s.fault.pairs[i.val]).lead = some l → (s.fault.pairs[i.val]).checker = some c →
      (∀ p r x, s.rtPart = some p → Running s p r x →
        ∃ t, exec (.lockstepMismatch i) s = .next t ∧ Drains s t p r (.kill 0x0A) ∧ t.fault.mismatches = s.fault.mismatches + 1 ∧
          t.fault.rtFaultNext = s.fault.rtFaultNext + 1 ∧ (t.fault.pairs[i.val]).testing = true) ∧
      ((s.fault.pairs[i.val]).testing = true →
        let passed := fun (h : CoreHealth) => { h with selftestLast := s.power.timebase }
        let retired := fun (t : State) (m : Fin 5) => t.fault.retired.getLsbD (coreAt 0 m).val = true
        let u := withHealth (withHealth s (coreAt 0 l) passed) (coreAt 0 c) passed
        ((s.fault.pairs[i.val]).stage = 0 → exec (.failover i true true) s = .next { u with fault := { u.fault with
          pairs := upd u.fault.pairs i (fun y => { y with stage := 1, testing := false }) } }) ∧
        (∀ k, s.fault.hotSpare = some k → ∃ t, exec (.failover i false true) s = .next t ∧ retired t l ∧
          (t.fault.pairs[i.val]).lead = some c ∧ (t.fault.pairs[i.val]).checker = some k ∧ (t.fault.pairs[i.val]).testing = false ∧
          t.fault.failovers = s.fault.failovers + 1) ∧
        (∀ k, s.fault.hotSpare = some k → ∃ t, exec (.failover i true false) s = .next t ∧ retired t c ∧
          (t.fault.pairs[i.val]).lead = some l ∧ (t.fault.pairs[i.val]).checker = some k ∧ (t.fault.pairs[i.val]).testing = false ∧
          t.fault.failovers = s.fault.failovers + 1) ∧
        (∀ b : Bool, s.fault.hotSpare = none → s.pairsUp < 2 → ∃ t, exec (.failover i b (!b)) s = .next t ∧ retired t (if b then c else l) ∧
          (t.fault.pairs[i.val]).testing = false ∧
          (s.fault.degradedOk = true → t.fault.lockstep = 3 ∧ (t.fault.pairs[i.val]).lead = some (if b then l else c) ∧
            (t.fault.pairs[i.val]).checker = none) ∧
          (s.fault.degradedOk = false → t.rt.arm = .halted ∧ t.rt.pend = [] ∧ t.fault.haltReason = 2)) ∧
        (∃ t, exec (.failover i false false) s = .next t ∧ t.rt.arm = .halted ∧ t.rt.pend = [] ∧ t.fault.haltReason = 1 ∧
          retired t l ∧ retired t c))) ∧
    (∀ c : CoreId,
      (s.testable c = true → exec (.periodicSelftest c true 0) s = .next (withHealth s c (fun h => { h with selftestLast := s.power.timebase })) ∧
        (∀ a, ∃ t, exec (.periodicSelftest c true a) s = .next t ∧ (t.fault.cores[c.val]).selftestLast = s.power.timebase) ∧
        (∀ a, ∃ t, exec (.periodicSelftest c false a) s = .next t ∧ t.fault.retired.getLsbD c.val = true ∧
          (t.fault.cores[c.val]).selftestFails = (s.fault.cores[c.val]).selftestFails + 1)) ∧
      (s.testable c = false → ∀ b a, exec (.periodicSelftest c b a) s = .next s) ∧
      (∀ m : Half, s.fault.agingWarn.toNat ≤ m.toNat → s.fault.agingRetire.toNat ≤ m.toNat →
        exec (.agingMonitorRead c m) s = .next (withHealth s c (fun h => { h with aging := m, agingBelow := false }))) ∧
      (∀ m : Half, m.toNat < s.fault.agingWarn.toNat → s.fault.agingRetire.toNat ≤ m.toNat → (s.fault.cores[c.val]).agingBelow = false →
        ∃ t, exec (.agingMonitorRead c m) s = .next t ∧ t.fault.healthNext = s.fault.healthNext + 1 ∧ t.cores = s.cores ∧
          t.fault.cores = (withHealth s c (fun h => { h with aging := m, agingBelow := true, agingRaised := s.now })).fault.cores) ∧
      (∀ m : Half, m.toNat < s.fault.agingRetire.toNat → s.usable c = true → s.rtRole c = false → (indexOf c).val < 4 →
        s.spareFree (clusterOf c) = true →
        ∃ t, exec (.agingMonitorRead c m) s = .next t ∧ t.fault.retired = putBit s.fault.retired c.val ∧ t.usable c = true ∧
          t.usable (coreAt (clusterOf c) 4) = false ∧ t.substOf (clusterOf c).val = some (indexOf c).val) ∧
      (∀ m : Half, ∀ k, m.toNat < s.fault.agingRetire.toNat → s.usable c = true → s.isMember c = true → s.fault.hotSpare = some k →
        ∃ t, exec (.agingMonitorRead c m) s = .next t ∧ t.fault.retired.getLsbD c.val = true ∧ t.fault.failovers = s.fault.failovers + 1)) ∧
    (∀ w : Fin 4, (s.fault.stewards[w.val]).retired = false →
      ((s.fault.stewards[w.val]).faulted = false → s.booted = true →
        let left := (s.fault.stewards[w.val]).faultTimes.filter (fun x => decide (s.now ≤ x + 57600000000))
        ((∃ j, j ≠ w ∧ (s.fault.stewards[j.val]).faulted = false ∧ (s.fault.stewards[j.val]).retired = false) →
          ∃ t, exec (.stewardHeartbeatMiss w) s = .next t ∧ t.fault.stewardFaults = s.fault.stewardFaults + 1 ∧ t.start = s.start ∧
            t.fault.healthNext = s.fault.healthNext + 1 ∧ t.fault.stewards = upd s.fault.stewards w (fun y =>
              { y with faulted := true, faultTimes := s.now :: left, retired := decide (2 ≤ left.length) })) ∧
        ((∀ j, j ≠ w → (s.fault.stewards[j.val]).faulted = true ∨ (s.fault.stewards[j.val]).retired = true) →
          (s.start.state = .running → ∃ t, exec (.stewardHeartbeatMiss w) s = .next t ∧ Restarts s t 3) ∧
          (s.start.state = .probation → ∃ t, exec (.stewardHeartbeatMiss w) s = .next t ∧ StartFails s t .stewardLoss 0))) ∧
      ((s.fault.stewards[w.val]).faulted = true →
        (s.start.update = none ∨ (∃ u, s.start.update = some u ∧ u.cur ≠ w) →
          exec (.stewardRejoin w) s = .next { s with fault := { s.fault with
            stewards := upd s.fault.stewards w (fun y => { y with faulted := false }) } }) ∧
        (∀ u, s.start.update = some u → u.cur = w → u.back = false →
          ∃ t, exec (.stewardRejoin w) s = .next t ∧ t.cores = s.cores ∧ t.steps = s.steps ∧ (t.fault.stewards[w.val]).faulted = false ∧
            (t.fault.stewards[w.val]).onB = u.toB ∧
            (∀ n, s.nextUpdate (w :: u.done) = some n → t.start.update = some { u with cur := n, done := w :: u.done } ∧
              (t.fault.stewards[n.val]).faulted = true) ∧
            (s.nextUpdate (w :: u.done) = none → t.start.update = none ∧ t.start.updateState = 2 ∧ t.start.activeSlot = u.toB ∧
              t.start.fwVersion = u.version)))) ∧
    (∀ p : PartId,
      let all := (s.part p).rate.rates.filter (fun y => decide (0 < y.2.2))
      ((s.part p).rate.steps < 16 → exec (.stripRateWindowEnd p) s = .next s) ∧
      (16 ≤ (s.part p).rate.steps → 2 ≤ all.length → (all.map (·.1)).Nodup → s.fault.slowRetire = 0 →
        ∃ t, exec (.stripRateWindowEnd p) s = .next t ∧ t.parts = upd s.parts p (fun x => { x with rate := ⟨0, []⟩ }) ∧ t.cores = s.cores ∧
          ∀ (c : CoreId) (y : Nat × Nat), (c.val, y) ∈ all → (t.fault.cores[c.val]).slowWindows =
            if slowRate all (c.val, y) = true then (s.fault.cores[c.val]).slowWindows + 1 else 0))

/-- Starts (R400 to R407, R410, Tables 18-1, 18-4 and 18-5): START begins a sequence from FIRST_SLOT or NEXT_SLOT; the phases power the
engine, read the slot's image, check it, load the stewards, self-test and report ready, which counts EPOCH and opens PROBATION; a
check that fails, a failure, READY_TIMEOUT and the watchdog before RUNNING fail the start; ten seconds of PROBATION end in RUNNING; the
watchdog in RUNNING restarts; after intrusive test access START does nothing (R453). -/
def Obligations.starts : Prop :=
  ∀ s : State,
    let slot := s.slotRecord s.start.slot
    (s.pins.granted = true ∨ s.pins.wir = 1 ∨ s.pins.wir = 2 ∨ s.pins.wir = 4 → exec .start s = .next s) ∧
    (s.pins.granted = false → s.pins.wir ≠ 1 → s.pins.wir ≠ 2 → s.pins.wir ≠ 4 →
      (s.start.state = .unstarted → ∃ t, exec .start s = .next t ∧ t.start.state = .starting ∧ t.start.cause = 0 ∧ t.start.phase = 0 ∧
        t.start.slot = s.start.firstSlot ∧ t.start.nextSlot = s.start.firstSlot ∧ t.start.activeSlot = s.start.firstSlot ∧
        t.start.startTime = s.now ∧ t.power.season = .thaw ∧
        t.power.pwrReq = s.power.pwrReq ||| (s.build.present &&& ~~~s.power.pwrAck) ∧ t.deep = s.deep) ∧
      (s.start.state = .midwinter → ∃ t, exec .start s = .next t ∧ t.start.state = .starting ∧ t.start.cause = 0 ∧ t.start.phase = 0 ∧
        t.start.bootCount = 0 ∧ t.start.slot = s.start.nextSlot ∧ t.power.season = .thaw ∧ t.deep = s.deep) ∧
      (s.start.state = .running ∨ s.start.state = .probation → ∃ t, exec .start s = .next t ∧ Restarts s t 0)) ∧
    (s.start.state = .starting → exec .start s = .next s ∧
      (∀ o (d : Word), ∃ t, exec (.startFail o d) s = .next t ∧ StartFails s t o d.toNat) ∧
      (∃ t, exec .readyTimeout s = .next t ∧ StartFails s t .readyTimeout 0) ∧
      (∃ t, exec .stewardWatchdogFire s = .next t ∧ StartFails s t .watchdog 0) ∧
      (s.start.phase = 0 → s.powered = true →
        exec (.startPhaseDone .power) s = .next { s with start := { s.start with phase := 1 } }) ∧
      (∀ boot img, s.start.phase = 1 → s.start.cold = false →
        (slotValid slot = false → ∃ t, exec (.startPhaseDone (.image boot img)) s = .next t ∧ StartFails s t .fetchFail 0) ∧
        (∀ u bs, slotValid slot = true → s.physRead 0 (slotPa slot) (slotLength slot) img = (u, .data bs) →
          exec (.startPhaseDone (.image boot img)) s = .next { u with start := { u.start with phase := 2, image := bs } }) ∧
        (∀ u e pa, slotValid slot = true → s.physRead 0 (slotPa slot) (slotLength slot) img = (u, .error e pa) →
          ∃ t, exec (.startPhaseDone (.image boot img)) s = .next t ∧ StartFails s t .fetchFail 0)) ∧
      (∀ boot img u v b bs, s.start.phase = 1 → s.start.cold = true →
        s.physRead 0 (s.start.bootHi.toNat * 2 ^ 32 + s.start.bootLo.toNat) 64 boot = (u, .data b) →
        let w := { u with start := { u.start with cold := false, slotA := bootRecord b 0, slotB := bootRecord b 32 } }
        let r := w.slotRecord s.start.slot
        slotValid r = true → w.physRead 0 (slotPa r) (slotLength r) img = (v, .data bs) →
        exec (.startPhaseDone (.image boot img)) s = .next { v with start := { v.start with phase := 2, image := bs } }) ∧
      (s.start.phase = 2 →
        (s.containerCheck 1 s.start.image (slotLength slot) (some (slotCrc slot)) = none →
          ∃ t, exec (.startPhaseDone .checks) s = .next t ∧ t.start.phase = 3 ∧
            t.slotRecord s.start.slot = slotChecked slot (leAt s.start.image 12 4) true ∧
            t.start.fwVersion = BitVec.ofNat 32 (leAt s.start.image 12 4) ∧ t.start.fwCompat = leAt s.start.image 0x14 2 ∧
            t.start.fwCrc = BitVec.ofNat 32 (crc32c s.start.image) ∧ t.power = s.power ∧ t.fault = s.fault) ∧
        (∀ n, s.containerCheck 1 s.start.image (slotLength slot) (some (slotCrc slot)) = some n →
          ∃ t, exec (.startPhaseDone .checks) s = .next t ∧ StartFails s t (checkOutcome n) (checkDetail n))) ∧
      (∀ pass : BitVec 4, s.start.phase = 3 →
        (2 ≤ ((List.finRange 4).filter (fun i => pass.getLsbD i.val)).length →
          ∃ t, exec (.startPhaseDone (.firmware pass)) s = .next t ∧ t.start = { s.start with phase := 4 } ∧
            ∀ i : Fin 4, t.fault.stewards[i.val] = { faulted := false, retired := !pass.getLsbD i.val, faultTimes := [], onB := s.start.slot }) ∧
        (((List.finRange 4).filter (fun i => pass.getLsbD i.val)).length < 2 →
          ∃ t, exec (.startPhaseDone (.firmware pass)) s = .next t ∧ StartFails s t .postFail 0)) ∧
      (s.start.phase = 4 → s.fuseOk = true → (∃ c : CoreId, c.val < 5 ∧ s.usable c = true) →
        ∃ t, exec (.startPhaseDone (.post 0 0 false)) s = .next t ∧ t.start.phase = 5 ∧
          ((∀ c : CoreId, s.inService c.val = true → s.usable c = true ∨ s.arraysOf c ≠ []) → t.start = { s.start with phase := 5 } ∧
            t.fault.coreMap = s.fault.coreMap ∧ t.fault.arrayMap = s.fault.arrayMap ∧ ∀ a, t.deepByte a = 0)) ∧
      (s.start.phase = 5 → ∃ t, exec (.startPhaseDone .dictionary) s = .next t ∧ t.start.state = .probation ∧
        t.start.epoch = s.start.epoch + 1 ∧ t.start.activeSlot = s.start.slot ∧ t.start.startNext = s.start.startNext + 1 ∧
        t.power.season = .spring ∧ t.journal = JournalSt.reset ∧ t.ctl.irqStatus.getLsbD 7 = true)) ∧
    (s.start.state = .probation →
      (∀ o (d : Word), ∃ t, exec (.startFail o d) s = .next t ∧ StartFails s t o d.toNat) ∧
      exec .probationEnd s = .next { s with start := { s.start with state := .running, bootCount := 0 } } ∧
      (∃ t, exec .stewardWatchdogFire s = .next t ∧ StartFails s t .watchdog 0)) ∧
    (s.start.state = .running → exec .probationEnd s = .next s ∧ exec .readyTimeout s = .next s ∧
      ∃ t, exec .stewardWatchdogFire s = .next t ∧ Restarts s t 2)

/-- Firmware slots and updates, the routine library, calibration, core service, tests in Midwinter (R402, R409, R410, R412, R413, R415,
R417, R418, Tables 18-2 and 18-8): a record of the inactive slot is kept with what its check finds; an update takes one steward after
another, a failure on the new firmware turns it back; a library that passes waits as the pending directory in the half that is not
active; a calibration set takes force at once; a spare serves a core's index while the core is tested; a test step runs alone on the
lowest usable core. -/
def Obligations.firmware_and_service : Prop :=
  ∀ (s : State) (async : Bool),
    (MailboxFree s →
      (∀ b bs image, b ≠ s.start.activeSlot → bs.length = 32 → fld (leNat bs) 63 48 = 0 → fld (leNat bs) 255 162 = 0 → slotPa bs % 4096 = 0 →
        (slotValid bs = false → EndsDone (.slotRecordWrite b bs image async) s async (s.setSlot b (slotChecked bs 0 false))) ∧
        (∀ u img, slotValid bs = true → s.physRead 0 (slotPa bs) (slotLength bs) image = (u, .data img) →
          EndsDone (.slotRecordWrite b bs image async) s async (u.setSlot b (slotChecked bs (leAt img 12 4)
            (s.containerCheck 1 img (slotLength bs) (some (slotCrc bs))).isNone))) ∧
        (∀ u e pa, slotValid bs = true → s.physRead 0 (slotPa bs) (slotLength bs) image = (u, .error e pa) →
          ∃ t, exec (.slotRecordWrite b bs image async) s = .next t ∧ t.ctl.pdState = .done ∧
            t.slotRecord b = slotChecked bs 0 false ∧ t.slotRecord (!b) = s.slotRecord (!b))) ∧
      (∀ (v : Byte) (image : ReadResult) (u : State) (img : List Byte), s.start.update = none → s.start.libLoading = none → v.toNat ≤ 1 →
        let toB := decide (v.toNat = 1)
        let r := s.slotRecord toB
        toB ≠ s.start.activeSlot → slotValid r = true → s.physRead 0 (slotPa r) (slotLength r) image = (u, .data img) →
        (∀ n : Fin 4, s.containerCheck 1 img (slotLength r) (some (slotCrc r)) = none → leAt img 0x14 2 = s.start.fwCompat →
          (s.fault.stewards[n.val]).retired = false → (∀ j, n < j → (s.fault.stewards[j.val]).retired = true) →
          ∃ t, EndsDone (.fwUpdate v image async) s async t ∧ t.start.updateState = 1 ∧
            t.start.update = some { toB := toB, cur := n, done := [], back := false, compat := s.start.fwCompat,
                                    version := BitVec.ofNat 32 (leAt img 12 4) } ∧
            t.fault.stewards = upd s.fault.stewards n (fun y => { y with faulted := true })) ∧
        (∀ n, s.containerCheck 1 img (slotLength r) (some (slotCrc r)) = some n →
          ∃ t, exec (.fwUpdate v image async) s = .next t ∧ t.ctl.pdState = .done ∧ t.start.update = none ∧
            t.start.updateState = BitVec.ofNat 32 (3 + n * 2 ^ 8) ∧ t.fault.stewards = s.fault.stewards)) ∧
      (∀ v : QWord, s.start.libLoading = none → s.halfBound = false → fld v.toNat 63 48 = 0 → fld v.toNat 127 106 = 0 →
        EndsDone (.libraryLoad v async) s async { s with start := { s.start with
          libraryState := 1
          libLoading := some { va := fld v.toNat 47 0, length := fld v.toNat 95 64, ast := fld v.toNat 105 96, crc := 0 } } }) ∧
      (calBad s.start.calPending = false → EndsDone (.calSwitch 1 async) s async { s with
        power := applyCal s.power s.start.calPending
        start := { s.start with calActive := s.start.calPending, calModified := false } }) ∧
      (∀ c : CoreId, s.serviceable c = true → s.fault.serviceCore = none → s.spareFree (clusterOf c) = true →
        ∃ t, EndsDone (.coreService (BitVec.ofNat 8 c.val) async) s async t ∧ t.fault.serviceCore = some c ∧
          t.fault.serviceState = (if (s.runOf c).isSome = true then 1 else 2) ∧ t.usable c = true ∧
          t.usable (coreAt (clusterOf c) 4) = false ∧ t.substOf (clusterOf c).val = some (indexOf c).val ∧ t.cores = s.cores)) ∧
    (∀ (u : Update) (w : Fin 4), s.start.update = some u → u.back = false → w = u.cur ∨ w ∈ u.done →
      ((s.fault.stewards[w.val]).retired = false → ∃ t, exec (.updateRollback w false) s = .next t ∧
        (∃ d, t.start.update = some { u with back := true, toB := !u.toB, cur := w, done := d }) ∧
        (t.fault.stewards[w.val]).faulted = true ∧ t.power = s.power ∧ t.cores = s.cores) ∧
      (∃ t, exec (.updateRollback w true) s = .next t ∧ Restarts s t 5)) ∧
    (∀ (l : LibLoad) (r : ReadResult), s.start.libLoading = some l → s.serving = true → s.awake = true →
      (s.portCarries 0 = false → exec (.libraryLoadDone r) s = .next s) ∧
      (s.portCarries 0 = true →
        (∀ u e, s.stewardRead 0 0 l.ast l.va l.length r = (u, e) → e.bytes? = none →
          ∃ t, exec (.libraryLoadDone r) s = .next t ∧ t.start.libLoading = none ∧
            t.start.libraryState = BitVec.ofNat 32 (3 + 0x0701 * 2 ^ 8) ∧ t.start.pendingDir = u.start.pendingDir ∧
            t.start.store = u.start.store) ∧
        (∀ u bs, s.stewardRead 0 0 l.ast l.va l.length r = (u, .data bs) →
          (∀ code, u.libraryCheck bs l.length = .error code →
            ∃ t, exec (.libraryLoadDone r) s = .next t ∧ t.start.libLoading = none ∧
              t.start.libraryState = BitVec.ofNat 32 (3 + code * 2 ^ 8) ∧ t.start.pendingDir = s.start.pendingDir ∧
              t.start.store = s.start.store ∧ t.tables = s.tables) ∧
          (∀ d h st, u.libraryCheck bs l.length = .ok (d, h, st) →
            ∃ t, exec (.libraryLoadDone r) s = .next t ∧ t.start.libLoading = none ∧ t.start.libraryState = 2 ∧
              t.start.pendingDir = some d ∧ t.start.libLast = some { l with crc := crc32c bs } ∧ t.tables = s.tables ∧
              t.ctl.irqStatus.getLsbD 7 = true ∧
              ∀ (cl : Fin 4) (n : Nat), cl.val < s.build.c → n < 262144 →
                Tab.get 0 t.start.store[cl.val] (262144 * h + n) = st.getD n 0)))) ∧
    (∀ c, s.fault.serviceCore = some c → s.serving = true →
      (∃ t, exec (.coreServiceTestDone true) s = .next t ∧ t.fault.serviceCore = none ∧ t.fault.serviceState = 3 ∧
        (t.fault.cores[c.val]).selftestLast = s.power.timebase ∧ t.usable (coreAt (clusterOf c) 4) = true ∧
        t.substOf (clusterOf c).val = none ∧ t.fault.retired = s.fault.retired ∧ t.ctl.irqStatus = s.ctl.irqStatus ||| 0x80) ∧
      (∃ t, exec (.coreServiceTestDone false) s = .next t ∧ t.fault.serviceCore = none ∧ t.fault.serviceState = 4 ∧
        t.fault.retired = putBit s.fault.retired c.val ∧ t.substOf (clusterOf c).val = s.substOf (clusterOf c).val ∧
        (t.fault.cores[c.val]).selftestFails = (s.fault.cores[c.val]).selftestFails + 1)) ∧
    (MidwinterFree s →
      (∀ (fails : BitVec 20) (shared : Bool), ∃ t, EndsDone (.mwSelftest 1 fails shared async) s async t ∧
        t.start.mwResult = BitVec.ofNat 128 ((fails &&& s.build.coreMap).toNat + b2n shared * 2 ^ 20 + s.now * 2 ^ 64) ∧
        ∀ c : CoreId, s.build.coreMap.getLsbD c.val = true → (t.fault.cores[c.val]).selftestFails =
          if fails.getLsbD c.val = true then (s.fault.cores[c.val]).selftestFails + 1 else (s.fault.cores[c.val]).selftestFails) ∧
      (∀ (bs b db : List Byte) (image desc : ReadResult) (u v : State) (c : CoreId), bs.length = 32 → s.start.mwTest = none → s.steps = [] → s.power.parked = [] →
        fld (leNat bs) 63 48 = 0 → fld (leNat bs) 127 96 = 0 → fld (leNat bs) 191 176 = 0 → fld (leNat bs) 255 240 = 0 →
        s.physRead 0 (fld (leNat bs) 175 128) 128 desc = (u, .data db) →
        u.physRead 0 (fld (leNat bs) 47 0) (fld (leNat bs) 95 64) image = (v, .data b) →
        s.testCore = some c → imgCoresMin b = 1 → imgCoresMax b = 1 → bitAt (imgFlags b) 0 = true →
        imgArrays b ≤ (s.arraysOf c).length → descChecks db none none = none → (parseDesc db).base = 0 → (parseDesc db).adapter = 0 →
        usesAtomics { bytes := b, resident := false, wcet := 0, dir := [], va := fld (leNat bs) 47 0, ast := 0 } = false →
        verify ({ s with parts := upd s.parts 0 (fun p => { p with coreMask := BitVec.ofNat 32 (2 ^ c.val) }) }.verCtx 0 false true) b
          (fld (leNat bs) 95 64) = none →
        ∃ t r, EndsDone (.mwStep bs image desc async) s async t ∧ (t.part 0).run = some r ∧ r.cores = [c] ∧
          r.phase = .running ∧ (t.core c).phase = .running ∧ (∀ d, d ≠ c → t.core d = s.core d) ∧
          t.start.mwTest = some (c, fld (leNat bs) 239 192)))

/-- The control port (R420 to R424, R427, R429 to R433, Tables 19-1, 19-7, 19-16): a read or a write of an entry ends DONE with its
effect, one of an entry that is not defined ends ABORTED 0x01 and is counted; a write of a register acts once all its byte enables
are there and PCLK_RST_N is high, else it is counted or ignored; IRQ status bits clear where 1 is written; a read of TIME_LO latches
TIME_HI. -/
def Obligations.control_port : Prop :=
  ∀ s : State,
    (∀ async, MailboxFree s →
      (∃ t, exec (.pdRead async false 0 0x1000 1 4 0) s = .next t ∧ t.ctl.pdState = .done ∧ t.ctl.rlen = 4 ∧
        t.ctl.pdData.take 4 = [0x00, 0x02, 0x03, 0x00] ∧ t.ctl.transactions = s.ctl.transactions + 1 ∧ t.cores = s.cores) ∧
      (∃ t, exec (.pdRead async false 0 0x1100 5 4 0) s = .next t ∧ t.ctl.pdState = .done ∧ t.ctl.rlen = 4 ∧
        t.ctl.pdData.take 4 = leBytes 4 s.fault.coreMap.toNat ∧ t.cores = s.cores) ∧
      (∀ sub len off, ∃ t, exec (.pdRead async false 0 0xFFFF sub len off) s = .next t ∧ t.ctl.pdState = .aborted ∧ t.ctl.abort = 1 ∧
        t.ctl.transactions = s.ctl.transactions + 1 ∧ t.ctl.aborts = s.ctl.aborts + 1 ∧ t.cores = s.cores ∧ t.queues = s.queues) ∧
      (∀ v : Byte, v.toNat ≤ 1 → EndsDone (.pdWrite async false 0 0x8000 2 1 0 [v]) s async
        { s with start := { s.start with nextSlot := decide (v.toNat = 1) } }) ∧
      (∀ v : Byte, 1 < v.toNat → ∃ t, exec (.pdWrite async false 0 0x8000 2 1 0 [v]) s = .next t ∧ t.start = s.start ∧
        t.ctl.pdState = .aborted ∧ t.ctl.abort = 4)) ∧
    (s.ctl.inReset = true → (∀ off be v, exec (.ctlRegisterWrite off be v) s = .next s) ∧ exec .timeLoRead s = .next s ∧
      ∀ v, exec (.irqClear v) s = .next s) ∧
    (s.ctl.inReset = false →
      (∀ v, exec (.irqClear v) s = .next { s with ctl := { s.ctl with irqStatus := s.ctl.irqStatus &&& ~~~(BitVec.ofNat 8 v.toNat) } }) ∧
      (exec .timeLoRead s = .next { s with ctl := { s.ctl with timeHi := BitVec.ofNat 32 (s.now / 2 ^ 32) } }) ∧
      (∀ off (be : BitVec 4) v, be ≠ 15 →
        exec (.ctlRegisterWrite off be v) s = .next { s with ctl := { s.ctl with ignored := s.ctl.ignored + 1 } }) ∧
      (∀ v : Word, exec (.ctlRegisterWrite 0x24 15 v) s = .next { s with ctl := { s.ctl with irqEnable := BitVec.ofNat 8 v.toNat } } ∧
        exec (.ctlRegisterWrite 0x28 15 v) s = exec (.irqClear v) s ∧
        exec (.ctlRegisterWrite 0x400 15 v) s = exec (.rtDoorbell v) s ∧
        exec (.ctlRegisterWrite 0x404 15 v) s = exec (.rtArm v) s ∧
        exec (.ctlRegisterWrite 0x800 15 v) s = exec (.attach v) s ∧
        (∀ q : QueueId, exec (.ctlRegisterWrite (BitVec.ofNat 14 (0x100 + 4 * q.val)) 15 v) s = exec (.doorbell q v) s) ∧
        (v.getLsbD 0 = true → exec (.ctlRegisterWrite 0x48 15 v) s =
          exec .start { s with start := { s.start with firstSlot := v.getLsbD 1 } })) ∧
      ∀ (off : BitVec 14) v, 0x900 ≤ off.toNat → exec (.ctlRegisterWrite off 15 v) s = .next s)

/-- Reset and test access (R397, R443, R449, R450, R453, R454, R455, Tables 20-11 and 20-12): AON_RST_N leaves everything at its reset
value and latches the straps and fuses with FUSE_VALID, once; a core or array fused off reads 0, as does a core with no array (R13);
intrusive test access is granted in UNSTARTED alone while TEST_LOCK reads 0, and is then remembered; WRAPPER_RESET and the network's
reset close it. -/
def Obligations.reset_and_test_access : Prop :=
  ∀ s : State,
    (∀ i m (fuse : BitVec 256) b, ∃ t, exec (.aonReset i m b fuse) s = .next t ∧ t.start = StartSt.reset ∧ t.queues = State.reset.queues ∧
      t.parts = State.reset.parts ∧ t.cores = State.reset.cores ∧ t.steps = [] ∧ t.journal = JournalSt.reset ∧ t.rt = RtSt.reset ∧
      t.deep.cells = [] ∧ t.power.season = .winter ∧ t.power.pwrReq = 0 ∧ t.power.timebase = 0 ∧ t.ctl.irqStatus = 0 ∧
      t.ctl.pdState = .idle ∧ t.pins.granted = false ∧ t.pending = s.pending ∧ t.build = s.build ∧ t.pins.latched = b ∧
      (b = true → t.pins.inst = i ∧ t.pins.master = m ∧ t.pins.fuse = fuse ∧
        (∀ n : Fin 64, let core := 5 * (n.val / 16) + n.val / 4 % 4
          t.fault.arrayMap.getLsbD n.val =
            (s.build.arrayMap.getLsbD n.val && s.build.coreMap.getLsbD core && !fuse.getLsbD core && !fuse.getLsbD (20 + n.val))) ∧
        ∀ c : CoreId, t.usable c = if c.val % 5 = 4
          then s.build.coreMap.getLsbD c.val && !fuse.getLsbD c.val && decide (0 < s.build.a) else decide (t.arraysOf c ≠ []))) ∧
    (∀ i m (fuse : BitVec 256),
      (s.pins.latched = true → exec (.fuseValidRise i m fuse) s = .next s) ∧
      (s.pins.latched = false → ∃ t, exec (.fuseValidRise i m fuse) s = .next t ∧ t.pins.latched = true ∧ t.pins.inst = i ∧
        t.pins.master = m ∧ t.pins.fuse = fuse ∧ t.pins.wir = s.pins.wir ∧ t.power = s.power ∧ t.start = s.start ∧
        ∀ l : LinkId, ((t.link.ports[l.val]).state = .unconnected ↔ fuse.getLsbD (92 + l.val) = false))) ∧
    (∀ (code : BitVec 3),
      let intrusive := code = 1 ∨ code = 2 ∨ code = 4
      let open_ := s.start.state = .unstarted ∧ s.pins.latched = true ∧ s.pins.fuse.getLsbD 94 = false
      (intrusive → open_ → exec (.wrapperInstructionUpdate code) s = .next { s with pins := { s.pins with wir := code, granted := true } }) ∧
      (intrusive → ¬ open_ → exec (.wrapperInstructionUpdate code) s = .next { s with pins := { s.pins with wir := 0 } }) ∧
      (¬ intrusive → exec (.wrapperInstructionUpdate code) s =
        .next { s with pins := { s.pins with wir := if code = 3 then 3 else 0 } }) ∧
      exec .wrapperReset s = .next { s with pins := { s.pins with wir := 0 } } ∧
      exec .networkReset s = .next { s with pins := { s.pins with sibs := 0 } } ∧
      ∀ i : Instrument,
        exec (.segmentInsertionUpdate i false) s = .next { s with pins := { s.pins with sibs := clearBit s.pins.sibs (instrumentBit i) } } ∧
        (instrumentBit i < 5 → exec (.segmentInsertionUpdate i true) s =
          .next { s with pins := { s.pins with sibs := putBit s.pins.sibs (instrumentBit i) } }) ∧
        (5 ≤ instrumentBit i → open_ → exec (.segmentInsertionUpdate i true) s =
          .next { s with pins := { s.pins with sibs := putBit s.pins.sibs (instrumentBit i), granted := true } }) ∧
        (5 ≤ instrumentBit i → ¬ open_ → exec (.segmentInsertionUpdate i true) s = .next s))

/-! ### Rules of the whole block -/

/-- The timebase (R356): each AON_CLK edge of Winter adds 488.28125 ticks, the integer part at that edge and the fraction in a 5-bit
accumulator, so that 32 edges add exactly 15,625 ticks; outside Winter each REF_CLK cycle adds 16,000 / REF_CLK_KHZ ticks through a
fraction that loses nothing; while it runs ahead of its master's it counts half of that (R350; the rate is the model's choice,
assumption log 67). -/
def Obligations.timebase : Prop :=
  ∀ s : State,
    (s.power.season = .winter → s.power.onAon = true → s.power.pllLocked = false → s.power.aonFrac < 32 → s.now + 15625 < 2 ^ 64 →
      (let t := clockEdge s
       t.now = s.now + 488 + (s.power.aonFrac + 9) / 32 ∧ t.power.aonFrac < 32 ∧
        32 * t.now + t.power.aonFrac = 32 * s.now + s.power.aonFrac + 15625) ∧
      (let t := (List.range 32).foldl (fun x _ => clockEdge x) s
       t.now = s.now + 15625 ∧ t.power.aonFrac = s.power.aonFrac)) ∧
    (s.power.season ≠ .winter → s.power.season ≠ .autumn → s.power.onAon = false → s.power.refFrac < s.refKhz → s.now + 16001 < 2 ^ 64 →
      let t := clockEdge s
      t.power.refFrac < s.refKhz ∧
        (s.power.slow = 0 → t.now * s.refKhz + t.power.refFrac = s.now * s.refKhz + s.power.refFrac + 16000) ∧
        (s.power.slow ≠ 0 → t.now * s.refKhz + t.power.refFrac = s.now * s.refKhz + s.power.refFrac + 8000))

/-- ID, VERSION and CAPS (R423): engines of one build, with the same straps and fuses, read the same, whatever else their states are,
STATE and season included. -/
def Obligations.identity_registers : Prop :=
  ∀ (s t : State), s.build = t.build → s.pins.inst = t.pins.inst → s.pins.master = t.pins.master → s.pins.fuse = t.pins.fuse →
    s.pins.latched = t.pins.latched → ∀ off ∈ [0x000, 0x004, 0x008], s.readRegister off = t.readRegister off

/-- The pair of timebase registers (R424): TIME_LO reads bits 31 to 0 and the read latches bits 63 to 32, which TIME_HI returns also
after edges that follow, so that the pair gives the value of one moment; no edge, the hand-over of R357 included, takes the timebase
back. -/
def Obligations.time_pair : Prop :=
  ∀ s : State, s.ctl.inReset = false →
    s.readRegister 0xC00 = BitVec.ofNat 32 s.now ∧
    (∃ t, exec .timeLoRead s = .next t ∧ t.readRegister 0xC04 = BitVec.ofNat 32 (s.now / 2 ^ 32) ∧
      (t.readRegister 0xC04).toNat * 2 ^ 32 + (s.readRegister 0xC00).toNat = s.now ∧
      ∀ n : Nat, ((List.range n).foldl (fun x _ => clockEdge x) t).readRegister 0xC04 = t.readRegister 0xC04) ∧
    (s.now + 16489 + s.power.refFrac + s.power.aonFrac < 2 ^ 64 → s.now ≤ (clockEdge s).now)

/-- F and W at the start of a run (R165): when a run is dispatched, by the scheduler, for an RT doorbell or as a test step of Midwinter, or a re-run starts as the
twin, F and W of every slot of every core of the step are clear, in that one step of the block. -/
def Obligations.tags_clear_at_start : Prop :=
  ∀ (i : Instr) (s t : State) (p : PartId) (r : RunSt), exec i s = .next t → (t.part p).run = some r →
    ((s.part p).run = none ∧ ((∃ code, i = .dispatch ⟨p, code⟩) ∨ i = .rtStepStart ∨ (∃ bs a b async, i = .mwStep bs a b async)) ∨
      (∃ r0, (s.part p).run = some r0 ∧ r0.twin = false ∧ r.twin = true ∧ ∃ code, i = .tokenTaken ⟨p, code⟩)) →
    ∀ c ∈ r.cores, ∀ n, (t.core c).slotFull n = false ∧ (t.core c).slotWritten n = false

/-- What no command touches: the queue of waiting commands, the build, and, once latched, the straps and the fuses, but for
AON_RESET (R449); the queue's own rule is the model's (DESIGN CHOICE, assumption log 1). All rows. -/
def Obligations.commands_keep_queue_and_straps : Prop :=
  ∀ (i : Instr) (s t : State), exec i s = .next t →
    t.pending = s.pending ∧ t.build = s.build ∧
    (s.pins.latched = true → (∀ a m b f, i ≠ .aonReset a m b f) →
      t.pins.latched = true ∧ t.pins.inst = s.pins.inst ∧ t.pins.master = s.pins.master ∧ t.pins.fuse = s.pins.fuse)

/-- The state after reset (R450, Tables 18-1, 19-8, 16-2): Winter, UNSTARTED, no supply asked for, no interrupt, no step, no command
waiting, every core idle; and it has the invariant. -/
def Obligations.reset_has_invariant : Prop :=
  Inv State.reset ∧ State.reset.power.season = .winter ∧ State.reset.start.state = .unstarted ∧ State.reset.power.pwrReq = 0 ∧
    State.reset.ctl.irqStatus = 0 ∧ State.reset.steps = [] ∧ State.reset.pending = [] ∧ ∀ c, (State.reset.core c).phase = .idle

/-- The invariant of every step (R166, R167, R170, R185): whatever command is at the front of the queue, or none, s0 of every core still
reads 0, near scratch with its tags and marks and deep scratch keep their canonical forms. All rows. -/
def Obligations.every_step_keeps_invariant : Prop :=
  ∀ s t : State, Inv s → step s = .next t → Inv t
end

