-- ==== Sys2Proof/Laws/Dispatch.lean ====
section
/-!
SUPPORT. The arms of `exec` one by one, and what a step does with the queue, so that no proof unfolds the dispatcher.
-/
namespace Sys2Proof.Machine

theorem exec_loop c eob csrc len cnt (s : State) : exec (.loop c eob csrc len cnt) s = execLoop c eob csrc len cnt s := rfl
theorem exec_skipz c eob r n (s : State) : exec (.skipz c eob r n) s = execSkipz c eob r n s := rfl
theorem exec_skipnz c eob r n (s : State) : exec (.skipnz c eob r n) s = execSkipnz c eob r n s := rfl
theorem exec_exitn c eob r (s : State) : exec (.exitn c eob r) s = execExitn c eob r s := rfl
theorem exec_call c eob r id (s : State) : exec (.call c eob r id) s = execCall c eob r id s := rfl
theorem exec_ret c eob (s : State) : exec (.ret c eob) s = execRet c eob s := rfl
theorem exec_wait c eob mask (s : State) : exec (.wait c eob mask) s = execWait c eob mask s := rfl
theorem exec_delay c eob n (s : State) : exec (.delay c eob n) s = execDelay c eob n s := rfl
theorem exec_strip c eob d (s : State) : exec (.strip c eob d) s = execStrip c eob d s := rfl
theorem exec_signal c eob e (s : State) : exec (.signal c eob e) s = execSignal c eob e s := rfl
theorem exec_signalTakesEffect c (s : State) : exec (.signalTakesEffect c) s = execSignalTakesEffect c s := rfl
theorem exec_waitev c eob r e (s : State) : exec (.waitev c eob r e) s = execWaitev c eob r e s := rfl
theorem exec_commit c eob (s : State) : exec (.commit c eob) s = execCommit c eob s := rfl
theorem exec_halt c eob (s : State) : exec (.halt c eob) s = execHalt c eob s := rfl
theorem exec_bundleIssueHoldRelease c (s : State) : exec (.bundleIssueHoldRelease c) s = execBundleIssueHoldRelease c s := rfl
theorem exec_rows c eob ad aB sQ sY sB (s : State) : exec (.rows c eob ad aB sQ sY sB) s = execRows c eob ad aB sQ sY sB s := rfl
theorem exec_tap c eob ad aB sP sY vD padMax (s : State) : exec (.tap c eob ad aB sP sY vD padMax) s = execTap c eob ad aB sP sY vD padMax s := rfl
theorem exec_stld c eob row a tag sLen doff (s : State) : exec (.stld c eob row a tag sLen doff) s = execStld c eob row a tag sLen doff s := rfl
theorem exec_loadw c eob amask bd a nr1 (s : State) : exec (.loadw c eob amask bd a nr1) s = execLoadw c eob amask bd a nr1 s := rfl
theorem exec_mvstream c eob bd a (s : State) : exec (.mvstream c eob bd a) s = execMvstream c eob bd a s := rfl
theorem exec_importTile c eob amask bd a sFirst sCount (s : State) : exec (.importTile c eob amask bd a sFirst sCount) s = execImportTile c eob amask bd a sFirst sCount s := rfl
theorem exec_dmov c eob t dd aN sF sL (s : State) : exec (.dmov c eob t dd aN sF sL) s = execDmov c eob t dd aN sF sL s := rfl
theorem exec_dexp c eob t dd sF sL (s : State) : exec (.dexp c eob t dd sF sL) s = execDexp c eob t dd sF sL s := rfl
theorem exec_dmaCommandEnd c t (s : State) : exec (.dmaCommandEnd c t) s = execDmaCommandEnd c t s := rfl
theorem exec_pass c eob mt amask sM sAcc init swap last (s : State) : exec (.pass c eob mt amask sM sAcc init swap last) s = execPass c eob mt amask sM sAcc init swap last s := rfl
theorem exec_passResultLanded c (s : State) : exec (.passResultLanded c) s = execPassResultLanded c s := rfl
theorem exec_readOut c eob mt amask sFirst sCount (s : State) : exec (.readOut c eob mt amask sFirst sCount) s = execReadOut c eob mt amask sFirst sCount s := rfl
theorem exec_mvpass c eob vt v1 init last sAcc sAoff (s : State) : exec (.mvpass c eob vt v1 init last sAcc sAoff) s = execMvpass c eob vt v1 init last sAcc sAoff s := rfl
theorem exec_mvread c eob vt v1 sAcc sN (s : State) : exec (.mvread c eob vt v1 sAcc sN) s = execMvread c eob vt v1 sAcc sN s := rfl
theorem exec_fadd c eob d a b (s : State) : exec (.fadd c eob d a b) s = execFadd c eob d a b s := rfl
theorem exec_fsub c eob d a b (s : State) : exec (.fsub c eob d a b) s = execFsub c eob d a b s := rfl
theorem exec_fmul c eob d a b (s : State) : exec (.fmul c eob d a b) s = execFmul c eob d a b s := rfl
theorem exec_fmad c eob d a b x (s : State) : exec (.fmad c eob d a b x) s = execFmad c eob d a b x s := rfl
theorem exec_fmin c eob d a b (s : State) : exec (.fmin c eob d a b) s = execFmin c eob d a b s := rfl
theorem exec_fmax c eob d a b (s : State) : exec (.fmax c eob d a b) s = execFmax c eob d a b s := rfl
theorem exec_fabs c eob d a (s : State) : exec (.fabs c eob d a) s = execFabs c eob d a s := rfl
theorem exec_fneg c eob d a (s : State) : exec (.fneg c eob d a) s = execFneg c eob d a s := rfl
theorem exec_fcmplt c eob d a b (s : State) : exec (.fcmplt c eob d a b) s = execFcmplt c eob d a b s := rfl
theorem exec_fcmple c eob d a b (s : State) : exec (.fcmple c eob d a b) s = execFcmple c eob d a b s := rfl
theorem exec_fcmpeq c eob d a b (s : State) : exec (.fcmpeq c eob d a b) s = execFcmpeq c eob d a b s := rfl
theorem exec_sel c eob d a b x (s : State) : exec (.sel c eob d a b x) s = execSel c eob d a b x s := rfl
theorem exec_iadd c eob d a b (s : State) : exec (.iadd c eob d a b) s = execIadd c eob d a b s := rfl
theorem exec_isub c eob d a b (s : State) : exec (.isub c eob d a b) s = execIsub c eob d a b s := rfl
theorem exec_imul c eob d a b (s : State) : exec (.imul c eob d a b) s = execImul c eob d a b s := rfl
theorem exec_imin c eob d a b (s : State) : exec (.imin c eob d a b) s = execImin c eob d a b s := rfl
theorem exec_imax c eob d a b (s : State) : exec (.imax c eob d a b) s = execImax c eob d a b s := rfl
theorem exec_icmplt c eob d a b (s : State) : exec (.icmplt c eob d a b) s = execIcmplt c eob d a b s := rfl
theorem exec_icmpeq c eob d a b (s : State) : exec (.icmpeq c eob d a b) s = execIcmpeq c eob d a b s := rfl
theorem exec_vecAnd c eob d a b (s : State) : exec (.vecAnd c eob d a b) s = execVecAnd c eob d a b s := rfl
theorem exec_vecOr c eob d a b (s : State) : exec (.vecOr c eob d a b) s = execVecOr c eob d a b s := rfl
theorem exec_vecXor c eob d a b (s : State) : exec (.vecXor c eob d a b) s = execVecXor c eob d a b s := rfl
theorem exec_vecShl c eob d a sh (s : State) : exec (.vecShl c eob d a sh) s = execVecShl c eob d a sh s := rfl
theorem exec_vecSra c eob d a sh (s : State) : exec (.vecSra c eob d a sh) s = execVecSra c eob d a sh s := rfl
theorem exec_cvtif c eob d a (s : State) : exec (.cvtif c eob d a) s = execCvtif c eob d a s := rfl
theorem exec_cvtfi c eob d a (s : State) : exec (.cvtfi c eob d a) s = execCvtfi c eob d a s := rfl
theorem exec_frnd c eob d a f (s : State) : exec (.frnd c eob d a f) s = execFrnd c eob d a f s := rfl
theorem exec_fcexp c eob d a (s : State) : exec (.fcexp c eob d a) s = execFcexp c eob d a s := rfl
theorem exec_fscalb c eob d a b (s : State) : exec (.fscalb c eob d a b) s = execFscalb c eob d a b s := rfl
theorem exec_vld c eob v a tag off (s : State) : exec (.vld c eob v a tag off) s = execVld c eob v a tag off s := rfl
theorem exec_vldw c eob v a tag f off (s : State) : exec (.vldw c eob v a tag f off) s = execVldw c eob v a tag f off s := rfl
theorem exec_vst c eob v a tag off (s : State) : exec (.vst c eob v a tag off) s = execVst c eob v a tag off s := rfl
theorem exec_vstn c eob v a tag f off (s : State) : exec (.vstn c eob v a tag f off) s = execVstn c eob v a tag f off s := rfl
theorem exec_sclw c eob v a tag n1 off (s : State) : exec (.sclw c eob v a tag n1 off) s = execSclw c eob v a tag n1 off s := rfl
theorem exec_vbcs c eob d r (s : State) : exec (.vbcs c eob d r) s = execVbcs c eob d r s := rfl
theorem exec_vext c eob d v lane (s : State) : exec (.vext c eob d v lane) s = execVext c eob d v lane s := rfl
theorem exec_frsum c eob d a (s : State) : exec (.frsum c eob d a) s = execFrsum c eob d a s := rfl
theorem exec_frmax c eob d a (s : State) : exec (.frmax c eob d a) s = execFrmax c eob d a s := rfl
theorem exec_irsum c eob d a (s : State) : exec (.irsum c eob d a) s = execIrsum c eob d a s := rfl
theorem exec_argmax c eob d a sN sBase hi idx dir int (s : State) : exec (.argmax c eob d a sN sBase hi idx dir int) s = execArgmax c eob d a sN sBase hi idx dir int s := rfl
theorem exec_topk c eob d a sN sBase hi idx dir int (s : State) : exec (.topk c eob d a sN sBase hi idx dir int) s = execTopk c eob d a sN sBase hi idx dir int s := rfl
theorem exec_curve c eob d a n (s : State) : exec (.curve c eob d a n) s = execCurve c eob d a n s := rfl
theorem exec_add c eob d a b (s : State) : exec (.add c eob d a b) s = execAdd c eob d a b s := rfl
theorem exec_sub c eob d a b (s : State) : exec (.sub c eob d a b) s = execSub c eob d a b s := rfl
theorem exec_mul c eob d a b (s : State) : exec (.mul c eob d a b) s = execMul c eob d a b s := rfl
theorem exec_sclAnd c eob d a b (s : State) : exec (.sclAnd c eob d a b) s = execSclAnd c eob d a b s := rfl
theorem exec_sclOr c eob d a b (s : State) : exec (.sclOr c eob d a b) s = execSclOr c eob d a b s := rfl
theorem exec_sclXor c eob d a b (s : State) : exec (.sclXor c eob d a b) s = execSclXor c eob d a b s := rfl
theorem exec_min c eob d a b (s : State) : exec (.min c eob d a b) s = execMin c eob d a b s := rfl
theorem exec_max c eob d a b (s : State) : exec (.max c eob d a b) s = execMax c eob d a b s := rfl
theorem exec_slt c eob d a b (s : State) : exec (.slt c eob d a b) s = execSlt c eob d a b s := rfl
theorem exec_sclShl c eob d a b (s : State) : exec (.sclShl c eob d a b) s = execSclShl c eob d a b s := rfl
theorem exec_shr c eob d a b (s : State) : exec (.shr c eob d a b) s = execShr c eob d a b s := rfl
theorem exec_sclSra c eob d a b (s : State) : exec (.sclSra c eob d a b) s = execSclSra c eob d a b s := rfl
theorem exec_addi c eob d a imm (s : State) : exec (.addi c eob d a imm) s = execAddi c eob d a imm s := rfl
theorem exec_ori c eob d a imm (s : State) : exec (.ori c eob d a imm) s = execOri c eob d a imm s := rfl
theorem exec_shli c eob d a imm (s : State) : exec (.shli c eob d a imm) s = execShli c eob d a imm s := rfl
theorem exec_shri c eob d a imm (s : State) : exec (.shri c eob d a imm) s = execShri c eob d a imm s := rfl
theorem exec_movi c eob d imm (s : State) : exec (.movi c eob d imm) s = execMovi c eob d imm s := rfl
theorem exec_amov c eob d r (s : State) : exec (.amov c eob d r) s = execAmov c eob d r s := rfl
theorem exec_aadd c eob d a r (s : State) : exec (.aadd c eob d a r) s = execAadd c eob d a r s := rfl
theorem exec_amovi c eob d imm (s : State) : exec (.amovi c eob d imm) s = execAmovi c eob d imm s := rfl
theorem exec_smova c eob d a (s : State) : exec (.smova c eob d a) s = execSmova c eob d a s := rfl
theorem exec_rdlc c eob d l (s : State) : exec (.rdlc c eob d l) s = execRdlc c eob d l s := rfl
theorem exec_setzp c eob r (s : State) : exec (.setzp c eob r) s = execSetzp c eob r s := rfl
theorem exec_setos c eob r (s : State) : exec (.setos c eob r) s = execSetos c eob r s := rfl
theorem exec_setinc c eob n l r (s : State) : exec (.setinc c eob n l r) s = execSetinc c eob n l r s := rfl
theorem exec_setbind c eob n mask (s : State) : exec (.setbind c eob n mask) s = execSetbind c eob n mask s := rfl
theorem exec_tagWaitRelease c u (s : State) : exec (.tagWaitRelease c u) s = execTagWaitRelease c u s := rfl
theorem exec_scrubBeat m word e (s : State) : exec (.scrubBeat m word e) s = execScrubBeat m word e s := rfl
theorem exec_sequencerWatchdogExpiry c (s : State) : exec (.sequencerWatchdogExpiry c) s = execSequencerWatchdogExpiry c s := rfl
theorem exec_wcetOverrun (s : State) : exec (.wcetOverrun) s = execWcetOverrun s := rfl
theorem exec_doorbell q tail (s : State) : exec (.doorbell q tail) s = execDoorbell q tail s := rfl
theorem exec_descriptorFetch q r (s : State) : exec (.descriptorFetch q r) s = execDescriptorFetch q r s := rfl
theorem exec_accept q (s : State) : exec (.accept q) s = execAccept q s := rfl
theorem exec_dispatch p (s : State) : exec (.dispatch p) s = execDispatch p s := rfl
theorem exec_tokenTaken p (s : State) : exec (.tokenTaken p) s = execTokenTaken p s := rfl
theorem exec_sealedTimeout p (s : State) : exec (.sealedTimeout p) s = execSealedTimeout p s := rfl
theorem exec_timeSlicePreemption p (s : State) : exec (.timeSlicePreemption p) s = execTimeSlicePreemption p s := rfl
theorem exec_runDrained p (s : State) : exec (.runDrained p) s = execRunDrained p s := rfl
theorem exec_rtDoorbell v (s : State) : exec (.rtDoorbell v) s = execRtDoorbell v s := rfl
theorem exec_rtStepStart (s : State) : exec (.rtStepStart) s = execRtStepStart s := rfl
theorem exec_enableWrite q v async (s : State) : exec (.enableWrite q v async) s = execEnableWrite q v async s := rfl
theorem exec_kill q v async (s : State) : exec (.kill q v async) s = execKill q v async s := rfl
theorem exec_fetchWrite q v async (s : State) : exec (.fetchWrite q v async) s = execFetchWrite q v async s := rfl
theorem exec_coreMaskWrite p v async (s : State) : exec (.coreMaskWrite p v async) s = execCoreMaskWrite p v async s := rfl
theorem exec_windowRecordWrite p w v async (s : State) : exec (.windowRecordWrite p w v async) s = execWindowRecordWrite p w v async s := rfl
theorem exec_load p v async (s : State) : exec (.load p v async) s = execLoad p v async s := rfl
theorem exec_imageLoadDone p r (s : State) : exec (.imageLoadDone p r) s = execImageLoadDone p r s := rfl
theorem exec_arm v async (s : State) : exec (.arm v async) s = execArm v async s := rfl
theorem exec_armComplete (s : State) : exec (.armComplete) s = execArmComplete s := rfl
theorem exec_disarm async (s : State) : exec (.disarm async) s = execDisarm async s := rfl
theorem exec_disarmComplete (s : State) : exec (.disarmComplete) s = execDisarmComplete s := rfl
theorem exec_rtArm v (s : State) : exec (.rtArm v) s = execRtArm v s := rfl
theorem exec_slotWrite i bs async (s : State) : exec (.slotWrite i bs async) s = execSlotWrite i bs async s := rfl
theorem exec_sessionClear ast async (s : State) : exec (.sessionClear ast async) s = execSessionClear ast async s := rfl
theorem exec_codebookPendingWrite t bs async (s : State) : exec (.codebookPendingWrite t bs async) s = execCodebookPendingWrite t bs async s := rfl
theorem exec_codebookSwitch mask async (s : State) : exec (.codebookSwitch mask async) s = execCodebookSwitch mask async s := rfl
theorem exec_curveSwitch mask async (s : State) : exec (.curveSwitch mask async) s = execCurveSwitch mask async s := rfl
theorem exec_qpolicySwitch v async (s : State) : exec (.qpolicySwitch v async) s = execQpolicySwitch v async s := rfl
theorem exec_directorySwitch v async (s : State) : exec (.directorySwitch v async) s = execDirectorySwitch v async s := rfl
theorem exec_pendingVersion bs async (s : State) : exec (.pendingVersion bs async) s = execPendingVersion bs async s := rfl
theorem exec_residentLoadDone slot r (s : State) : exec (.residentLoadDone slot r) s = execResidentLoadDone slot r s := rfl
theorem exec_equinox bs async (s : State) : exec (.equinox bs async) s = execEquinox bs async s := rfl
theorem exec_deleteSet v async (s : State) : exec (.deleteSet v async) s = execDeleteSet v async s := rfl
theorem exec_cwordWrite q v async (s : State) : exec (.cwordWrite q v async) s = execCwordWrite q v async s := rfl
theorem exec_windowStartWrite v async (s : State) : exec (.windowStartWrite v async) s = execWindowStartWrite v async s := rfl
theorem exec_rootWrite v walks async (s : State) : exec (.rootWrite v walks async) s = execRootWrite v walks async s := rfl
theorem exec_invalidate v walks async (s : State) : exec (.invalidate v walks async) s = execInvalidate v walks async s := rfl
theorem exec_rtPin i v walk async (s : State) : exec (.rtPin i v walk async) s = execRtPin i v walk async s := rfl
theorem exec_pageWalkReadReturn n id err beat (s : State) : exec (.pageWalkReadReturn n id err beat) s = execPageWalkReadReturn n id err beat s := rfl
theorem exec_portReadData n id beat last (s : State) : exec (.portReadData n id beat last) s = execPortReadData n id beat last s := rfl
theorem exec_portWriteAck n id (s : State) : exec (.portWriteAck n id) s = execPortWriteAck n id s := rfl
theorem exec_portFlushDone n id (s : State) : exec (.portFlushDone n id) s = execPortFlushDone n id s := rfl
theorem exec_portErrorResponse n id err (s : State) : exec (.portErrorResponse n id err) s = execPortErrorResponse n id err s := rfl
theorem exec_portTimeout n id (s : State) : exec (.portTimeout n id) s = execPortTimeout n id s := rfl
theorem exec_linkUpFall n (s : State) : exec (.linkUpFall n) s = execLinkUpFall n s := rfl
theorem exec_linkUpRise n (s : State) : exec (.linkUpRise n) s = execLinkUpRise n s := rfl
theorem exec_settlingExpiry n (s : State) : exec (.settlingExpiry n) s = execSettlingExpiry n s := rfl
theorem exec_resume n v async (s : State) : exec (.resume n v async) s = execResume n v async s := rfl
theorem exec_attach v (s : State) : exec (.attach v) s = execAttach v s := rfl
theorem exec_linkGroupReceived l flits (s : State) : exec (.linkGroupReceived l flits) s = execLinkGroupReceived l flits s := rfl
theorem exec_linkReplay l (s : State) : exec (.linkReplay l) s = execLinkReplay l s := rfl
theorem exec_idleGroup l (s : State) : exec (.idleGroup l) s = execIdleGroup l s := rfl
theorem exec_linkFailed l (s : State) : exec (.linkFailed l) s = execLinkFailed l s := rfl
theorem exec_phyUpChange l up (s : State) : exec (.phyUpChange l up) s = execPhyUpChange l up s := rfl
theorem exec_linkWrite l (s : State) : exec (.linkWrite l) s = execLinkWrite l s := rfl
theorem exec_linkRead l (s : State) : exec (.linkRead l) s = execLinkRead l s := rfl
theorem exec_linkFlush l (s : State) : exec (.linkFlush l) s = execLinkFlush l s := rfl
theorem exec_chain l (s : State) : exec (.chain l) s = execChain l s := rfl
theorem exec_rdata l (s : State) : exec (.rdata l) s = execRdata l s := rfl
theorem exec_flushDone l (s : State) : exec (.flushDone l) s = execFlushDone l s := rfl
theorem exec_hello l (s : State) : exec (.hello l) s = execHello l s := rfl
theorem exec_helloTimer (s : State) : exec (.helloTimer) s = execHelloTimer s := rfl
theorem exec_pstate l (s : State) : exec (.pstate l) s = execPstate l s := rfl
theorem exec_pstateOrderInstant (s : State) : exec (.pstateOrderInstant) s = execPstateOrderInstant s := rfl
theorem exec_pdmsg l (s : State) : exec (.pdmsg l) s = execPdmsg l s := rfl
theorem exec_event l (s : State) : exec (.event l) s = execEvent l s := rfl
theorem exec_relayTimeout (s : State) : exec (.relayTimeout) s = execRelayTimeout s := rfl
theorem exec_inboundWindowWrite w v async (s : State) : exec (.inboundWindowWrite w v async) s = execInboundWindowWrite w v async s := rfl
theorem exec_peerEventsClear v async (s : State) : exec (.peerEventsClear v async) s = execPeerEventsClear v async s := rfl
theorem exec_idleTimeoutExpiry (s : State) : exec (.idleTimeoutExpiry) s = execIdleTimeoutExpiry s := rfl
theorem exec_winterEntry (s : State) : exec (.winterEntry) s = execWinterEntry s := rfl
theorem exec_drainLimitExpiry (s : State) : exec (.drainLimitExpiry) s = execDrainLimitExpiry s := rfl
theorem exec_wakeEvent k (s : State) : exec (.wakeEvent k) s = execWakeEvent k s := rfl
theorem exec_wakeAtExpiry (s : State) : exec (.wakeAtExpiry) s = execWakeAtExpiry s := rfl
theorem exec_thawComplete r (s : State) : exec (.thawComplete r) s = execThawComplete r s := rfl
theorem exec_thawReloadRetry r (s : State) : exec (.thawReloadRetry r) s = execThawReloadRetry r s := rfl
theorem exec_thawReloadAbandon (s : State) : exec (.thawReloadAbandon) s = execThawReloadAbandon s := rfl
theorem exec_routineStoreReload r (s : State) : exec (.routineStoreReload r) s = execRoutineStoreReload r s := rfl
theorem exec_pwrAckRise cl (s : State) : exec (.pwrAckRise cl) s = execPwrAckRise cl s := rfl
theorem exec_pwrAckLoss cl (s : State) : exec (.pwrAckLoss cl) s = execPwrAckLoss cl s := rfl
theorem exec_pstAckRise (s : State) : exec (.pstAckRise) s = execPstAckRise s := rfl
theorem exec_pstAckTimeout (s : State) : exec (.pstAckTimeout) s = execPstAckTimeout s := rfl
theorem exec_glideEnd (s : State) : exec (.glideEnd) s = execGlideEnd s := rfl
theorem exec_droopDetect c cycles (s : State) : exec (.droopDetect c cycles) s = execDroopDetect c cycles s := rfl
theorem exec_alertNFall (s : State) : exec (.alertNFall) s = execAlertNFall s := rfl
theorem exec_alertHoldExpiry (s : State) : exec (.alertHoldExpiry) s = execAlertHoldExpiry s := rfl
theorem exec_estimatorPeriod counts (s : State) : exec (.estimatorPeriod counts) s = execEstimatorPeriod counts s := rfl
theorem exec_tlmSample v (s : State) : exec (.tlmSample v) s = execTlmSample v s := rfl
theorem exec_calPeriodEnd (s : State) : exec (.calPeriodEnd) s = execCalPeriodEnd s := rfl
theorem exec_thermalSample halfDegrees (s : State) : exec (.thermalSample halfDegrees) s = execThermalSample halfDegrees s := rfl
theorem exec_thermalRestExpiry (s : State) : exec (.thermalRestExpiry) s = execThermalRestExpiry s := rfl
theorem exec_lockstepMismatch pair (s : State) : exec (.lockstepMismatch pair) s = execLockstepMismatch pair s := rfl
theorem exec_failover pair leadPasses checkerPasses (s : State) : exec (.failover pair leadPasses checkerPasses) s = execFailover pair leadPasses checkerPasses s := rfl
theorem exec_periodicSelftest c corePasses arrayFails (s : State) : exec (.periodicSelftest c corePasses arrayFails) s = execPeriodicSelftest c corePasses arrayFails s := rfl
theorem exec_stewardHeartbeatMiss r (s : State) : exec (.stewardHeartbeatMiss r) s = execStewardHeartbeatMiss r s := rfl
theorem exec_stewardRejoin r (s : State) : exec (.stewardRejoin r) s = execStewardRejoin r s := rfl
theorem exec_stripRateWindowEnd p (s : State) : exec (.stripRateWindowEnd p) s = execStripRateWindowEnd p s := rfl
theorem exec_agingMonitorRead c margin (s : State) : exec (.agingMonitorRead c margin) s = execAgingMonitorRead c margin s := rfl
theorem exec_interconnectParityError p (s : State) : exec (.interconnectParityError p) s = execInterconnectParityError p s := rfl
theorem exec_start (s : State) : exec (.start) s = execStart s := rfl
theorem exec_startPhaseDone d (s : State) : exec (.startPhaseDone d) s = execStartPhaseDone d s := rfl
theorem exec_startFail outcome detail (s : State) : exec (.startFail outcome detail) s = execStartFail outcome detail s := rfl
theorem exec_readyTimeout (s : State) : exec (.readyTimeout) s = execReadyTimeout s := rfl
theorem exec_probationEnd (s : State) : exec (.probationEnd) s = execProbationEnd s := rfl
theorem exec_stewardWatchdogFire (s : State) : exec (.stewardWatchdogFire) s = execStewardWatchdogFire s := rfl
theorem exec_mwStep bs image desc async (s : State) : exec (.mwStep bs image desc async) s = execMwStep bs image desc async s := rfl
theorem exec_mwSelftest v coreFail sharedFail async (s : State) : exec (.mwSelftest v coreFail sharedFail async) s = execMwSelftest v coreFail sharedFail async s := rfl
theorem exec_slotRecordWrite b bs image async (s : State) : exec (.slotRecordWrite b bs image async) s = execSlotRecordWrite b bs image async s := rfl
theorem exec_fwUpdate v image async (s : State) : exec (.fwUpdate v image async) s = execFwUpdate v image async s := rfl
theorem exec_updateRollback r rollbackFails (s : State) : exec (.updateRollback r rollbackFails) s = execUpdateRollback r rollbackFails s := rfl
theorem exec_libraryLoad v async (s : State) : exec (.libraryLoad v async) s = execLibraryLoad v async s := rfl
theorem exec_calSwitch v async (s : State) : exec (.calSwitch v async) s = execCalSwitch v async s := rfl
theorem exec_coreService v async (s : State) : exec (.coreService v async) s = execCoreService v async s := rfl
theorem exec_pdRead async remote engine index sub len offset (s : State) : exec (.pdRead async remote engine index sub len offset) s = execPdRead async remote engine index sub len offset s := rfl
theorem exec_pdWrite async remote engine index sub len offset bs (s : State) : exec (.pdWrite async remote engine index sub len offset bs) s = execPdWrite async remote engine index sub len offset bs s := rfl
theorem exec_irqClear v (s : State) : exec (.irqClear v) s = execIrqClear v s := rfl
theorem exec_timeLoRead (s : State) : exec (.timeLoRead) s = execTimeLoRead s := rfl
theorem exec_ctlRegisterWrite off be v (s : State) : exec (.ctlRegisterWrite off be v) s = execCtlRegisterWrite off be v s := rfl
theorem exec_aonReset inst master fuseValid fuse (s : State) : exec (.aonReset inst master fuseValid fuse) s = execAonReset inst master fuseValid fuse s := rfl
theorem exec_fuseValidRise inst master fuse (s : State) : exec (.fuseValidRise inst master fuse) s = execFuseValidRise inst master fuse s := rfl
theorem exec_pclkReset (s : State) : exec (.pclkReset) s = execPclkReset s := rfl
theorem exec_mvpPassLanded c (s : State) : exec (.mvpPassLanded c) s = execMvpPassLanded c s := rfl
theorem exec_weightLoadEnd c (s : State) : exec (.weightLoadEnd c) s = execWeightLoadEnd c s := rfl
theorem exec_readoutLanded c (s : State) : exec (.readoutLanded c) s = execReadoutLanded c s := rfl
theorem exec_vectorOperationLanded c (s : State) : exec (.vectorOperationLanded c) s = execVectorOperationLanded c s := rfl
theorem exec_deepScratchWriteLanded c (s : State) : exec (.deepScratchWriteLanded c) s = execDeepScratchWriteLanded c s := rfl
theorem exec_tapLoadLanded c (s : State) : exec (.tapLoadLanded c) s = execTapLoadLanded c s := rfl
theorem exec_ageLimitElapsed q (s : State) : exec (.ageLimitElapsed q) s = execAgeLimitElapsed q s := rfl
theorem exec_pllLock (s : State) : exec (.pllLock) s = execPllLock s := rfl
theorem exec_pwrAckFall cl (s : State) : exec (.pwrAckFall cl) s = execPwrAckFall cl s := rfl
theorem exec_libraryLoadDone r (s : State) : exec (.libraryLoadDone r) s = execLibraryLoadDone r s := rfl
theorem exec_coreServiceTestDone passes (s : State) : exec (.coreServiceTestDone passes) s = execCoreServiceTestDone passes s := rfl
theorem exec_pclkResetRelease (s : State) : exec (.pclkResetRelease) s = execPclkResetRelease s := rfl
theorem exec_wrapperInstructionUpdate code (s : State) : exec (.wrapperInstructionUpdate code) s = execWrapperInstructionUpdate code s := rfl
theorem exec_wrapperReset (s : State) : exec (.wrapperReset) s = execWrapperReset s := rfl
theorem exec_segmentInsertionUpdate i wantOpen (s : State) : exec (.segmentInsertionUpdate i wantOpen) s = execSegmentInsertionUpdate i wantOpen s := rfl
theorem exec_networkReset (s : State) : exec (.networkReset) s = execNetworkReset s := rfl

/-- A step with a command waiting. -/
theorem step_cons (s : State) (i : Instr) (rest : List Instr) (h : s.pending = i :: rest) :
    step s = exec i { s with pending := rest } := by
  unfold step
  rw [h]

/-- A step with none. -/
theorem step_nil (s : State) (h : s.pending = []) : step s = .next (clockEdge s) := by
  unfold step
  rw [h]

end Sys2Proof.Machine
end

