-- ==== Sys2Proof/Laws/State.lean ====
section
/-!
SUPPORT. What each update of the state leaves in each field: one lemma per field per update, so that no proof unfolds a
record update.
-/
namespace Sys2Proof.Machine

/-! ### modCore -/

@[simp] theorem State.modCore_pending (s : State) (c : CoreId) (f : Core → Core) : (s.modCore c f).pending = s.pending := rfl
@[simp] theorem State.modCore_build (s : State) (c : CoreId) (f : Core → Core) : (s.modCore c f).build = s.build := rfl
@[simp] theorem State.modCore_cores (s : State) (c : CoreId) (f : Core → Core) : (s.modCore c f).cores = upd s.cores c f := rfl
@[simp] theorem State.modCore_deep (s : State) (c : CoreId) (f : Core → Core) : (s.modCore c f).deep = s.deep := rfl
@[simp] theorem State.modCore_parts (s : State) (c : CoreId) (f : Core → Core) : (s.modCore c f).parts = s.parts := rfl
@[simp] theorem State.modCore_queues (s : State) (c : CoreId) (f : Core → Core) : (s.modCore c f).queues = s.queues := rfl
@[simp] theorem State.modCore_fetched (s : State) (c : CoreId) (f : Core → Core) : (s.modCore c f).fetched = s.fetched := rfl
@[simp] theorem State.modCore_steps (s : State) (c : CoreId) (f : Core → Core) : (s.modCore c f).steps = s.steps := rfl
@[simp] theorem State.modCore_journal (s : State) (c : CoreId) (f : Core → Core) : (s.modCore c f).journal = s.journal := rfl
@[simp] theorem State.modCore_records (s : State) (c : CoreId) (f : Core → Core) : (s.modCore c f).records = s.records := rfl
@[simp] theorem State.modCore_nextRec (s : State) (c : CoreId) (f : Core → Core) : (s.modCore c f).nextRec = s.nextRec := rfl
@[simp] theorem State.modCore_rt (s : State) (c : CoreId) (f : Core → Core) : (s.modCore c f).rt = s.rt := rfl
@[simp] theorem State.modCore_ports (s : State) (c : CoreId) (f : Core → Core) : (s.modCore c f).ports = s.ports := rfl
@[simp] theorem State.modCore_xlate (s : State) (c : CoreId) (f : Core → Core) : (s.modCore c f).xlate = s.xlate := rfl
@[simp] theorem State.modCore_tables (s : State) (c : CoreId) (f : Core → Core) : (s.modCore c f).tables = s.tables := rfl
@[simp] theorem State.modCore_sets (s : State) (c : CoreId) (f : Core → Core) : (s.modCore c f).sets = s.sets := rfl
@[simp] theorem State.modCore_link (s : State) (c : CoreId) (f : Core → Core) : (s.modCore c f).link = s.link := rfl
@[simp] theorem State.modCore_power (s : State) (c : CoreId) (f : Core → Core) : (s.modCore c f).power = s.power := rfl
@[simp] theorem State.modCore_fault (s : State) (c : CoreId) (f : Core → Core) : (s.modCore c f).fault = s.fault := rfl
@[simp] theorem State.modCore_start (s : State) (c : CoreId) (f : Core → Core) : (s.modCore c f).start = s.start := rfl
@[simp] theorem State.modCore_pins (s : State) (c : CoreId) (f : Core → Core) : (s.modCore c f).pins = s.pins := rfl
@[simp] theorem State.modCore_ctl (s : State) (c : CoreId) (f : Core → Core) : (s.modCore c f).ctl = s.ctl := rfl
@[simp] theorem State.modCore_scrub (s : State) (c : CoreId) (f : Core → Core) : (s.modCore c f).scrub = s.scrub := rfl

/-! ### modPart -/

@[simp] theorem State.modPart_pending (s : State) (p : PartId) (f : Partition → Partition) : (s.modPart p f).pending = s.pending := rfl
@[simp] theorem State.modPart_build (s : State) (p : PartId) (f : Partition → Partition) : (s.modPart p f).build = s.build := rfl
@[simp] theorem State.modPart_cores (s : State) (p : PartId) (f : Partition → Partition) : (s.modPart p f).cores = s.cores := rfl
@[simp] theorem State.modPart_deep (s : State) (p : PartId) (f : Partition → Partition) : (s.modPart p f).deep = s.deep := rfl
@[simp] theorem State.modPart_parts (s : State) (p : PartId) (f : Partition → Partition) : (s.modPart p f).parts = upd s.parts p f := rfl
@[simp] theorem State.modPart_queues (s : State) (p : PartId) (f : Partition → Partition) : (s.modPart p f).queues = s.queues := rfl
@[simp] theorem State.modPart_fetched (s : State) (p : PartId) (f : Partition → Partition) : (s.modPart p f).fetched = s.fetched := rfl
@[simp] theorem State.modPart_steps (s : State) (p : PartId) (f : Partition → Partition) : (s.modPart p f).steps = s.steps := rfl
@[simp] theorem State.modPart_journal (s : State) (p : PartId) (f : Partition → Partition) : (s.modPart p f).journal = s.journal := rfl
@[simp] theorem State.modPart_records (s : State) (p : PartId) (f : Partition → Partition) : (s.modPart p f).records = s.records := rfl
@[simp] theorem State.modPart_nextRec (s : State) (p : PartId) (f : Partition → Partition) : (s.modPart p f).nextRec = s.nextRec := rfl
@[simp] theorem State.modPart_rt (s : State) (p : PartId) (f : Partition → Partition) : (s.modPart p f).rt = s.rt := rfl
@[simp] theorem State.modPart_ports (s : State) (p : PartId) (f : Partition → Partition) : (s.modPart p f).ports = s.ports := rfl
@[simp] theorem State.modPart_xlate (s : State) (p : PartId) (f : Partition → Partition) : (s.modPart p f).xlate = s.xlate := rfl
@[simp] theorem State.modPart_tables (s : State) (p : PartId) (f : Partition → Partition) : (s.modPart p f).tables = s.tables := rfl
@[simp] theorem State.modPart_sets (s : State) (p : PartId) (f : Partition → Partition) : (s.modPart p f).sets = s.sets := rfl
@[simp] theorem State.modPart_link (s : State) (p : PartId) (f : Partition → Partition) : (s.modPart p f).link = s.link := rfl
@[simp] theorem State.modPart_power (s : State) (p : PartId) (f : Partition → Partition) : (s.modPart p f).power = s.power := rfl
@[simp] theorem State.modPart_fault (s : State) (p : PartId) (f : Partition → Partition) : (s.modPart p f).fault = s.fault := rfl
@[simp] theorem State.modPart_start (s : State) (p : PartId) (f : Partition → Partition) : (s.modPart p f).start = s.start := rfl
@[simp] theorem State.modPart_pins (s : State) (p : PartId) (f : Partition → Partition) : (s.modPart p f).pins = s.pins := rfl
@[simp] theorem State.modPart_ctl (s : State) (p : PartId) (f : Partition → Partition) : (s.modPart p f).ctl = s.ctl := rfl
@[simp] theorem State.modPart_scrub (s : State) (p : PartId) (f : Partition → Partition) : (s.modPart p f).scrub = s.scrub := rfl

/-! ### modQueue -/

@[simp] theorem State.modQueue_pending (s : State) (q : QueueId) (f : Queue → Queue) : (s.modQueue q f).pending = s.pending := rfl
@[simp] theorem State.modQueue_build (s : State) (q : QueueId) (f : Queue → Queue) : (s.modQueue q f).build = s.build := rfl
@[simp] theorem State.modQueue_cores (s : State) (q : QueueId) (f : Queue → Queue) : (s.modQueue q f).cores = s.cores := rfl
@[simp] theorem State.modQueue_deep (s : State) (q : QueueId) (f : Queue → Queue) : (s.modQueue q f).deep = s.deep := rfl
@[simp] theorem State.modQueue_parts (s : State) (q : QueueId) (f : Queue → Queue) : (s.modQueue q f).parts = s.parts := rfl
@[simp] theorem State.modQueue_queues (s : State) (q : QueueId) (f : Queue → Queue) : (s.modQueue q f).queues = upd s.queues q f := rfl
@[simp] theorem State.modQueue_fetched (s : State) (q : QueueId) (f : Queue → Queue) : (s.modQueue q f).fetched = s.fetched := rfl
@[simp] theorem State.modQueue_steps (s : State) (q : QueueId) (f : Queue → Queue) : (s.modQueue q f).steps = s.steps := rfl
@[simp] theorem State.modQueue_journal (s : State) (q : QueueId) (f : Queue → Queue) : (s.modQueue q f).journal = s.journal := rfl
@[simp] theorem State.modQueue_records (s : State) (q : QueueId) (f : Queue → Queue) : (s.modQueue q f).records = s.records := rfl
@[simp] theorem State.modQueue_nextRec (s : State) (q : QueueId) (f : Queue → Queue) : (s.modQueue q f).nextRec = s.nextRec := rfl
@[simp] theorem State.modQueue_rt (s : State) (q : QueueId) (f : Queue → Queue) : (s.modQueue q f).rt = s.rt := rfl
@[simp] theorem State.modQueue_ports (s : State) (q : QueueId) (f : Queue → Queue) : (s.modQueue q f).ports = s.ports := rfl
@[simp] theorem State.modQueue_xlate (s : State) (q : QueueId) (f : Queue → Queue) : (s.modQueue q f).xlate = s.xlate := rfl
@[simp] theorem State.modQueue_tables (s : State) (q : QueueId) (f : Queue → Queue) : (s.modQueue q f).tables = s.tables := rfl
@[simp] theorem State.modQueue_sets (s : State) (q : QueueId) (f : Queue → Queue) : (s.modQueue q f).sets = s.sets := rfl
@[simp] theorem State.modQueue_link (s : State) (q : QueueId) (f : Queue → Queue) : (s.modQueue q f).link = s.link := rfl
@[simp] theorem State.modQueue_power (s : State) (q : QueueId) (f : Queue → Queue) : (s.modQueue q f).power = s.power := rfl
@[simp] theorem State.modQueue_fault (s : State) (q : QueueId) (f : Queue → Queue) : (s.modQueue q f).fault = s.fault := rfl
@[simp] theorem State.modQueue_start (s : State) (q : QueueId) (f : Queue → Queue) : (s.modQueue q f).start = s.start := rfl
@[simp] theorem State.modQueue_pins (s : State) (q : QueueId) (f : Queue → Queue) : (s.modQueue q f).pins = s.pins := rfl
@[simp] theorem State.modQueue_ctl (s : State) (q : QueueId) (f : Queue → Queue) : (s.modQueue q f).ctl = s.ctl := rfl
@[simp] theorem State.modQueue_scrub (s : State) (q : QueueId) (f : Queue → Queue) : (s.modQueue q f).scrub = s.scrub := rfl

/-! ### modPort -/

@[simp] theorem State.modPort_pending (s : State) (n : PortId) (f : Port → Port) : (s.modPort n f).pending = s.pending := rfl
@[simp] theorem State.modPort_build (s : State) (n : PortId) (f : Port → Port) : (s.modPort n f).build = s.build := rfl
@[simp] theorem State.modPort_cores (s : State) (n : PortId) (f : Port → Port) : (s.modPort n f).cores = s.cores := rfl
@[simp] theorem State.modPort_deep (s : State) (n : PortId) (f : Port → Port) : (s.modPort n f).deep = s.deep := rfl
@[simp] theorem State.modPort_parts (s : State) (n : PortId) (f : Port → Port) : (s.modPort n f).parts = s.parts := rfl
@[simp] theorem State.modPort_queues (s : State) (n : PortId) (f : Port → Port) : (s.modPort n f).queues = s.queues := rfl
@[simp] theorem State.modPort_fetched (s : State) (n : PortId) (f : Port → Port) : (s.modPort n f).fetched = s.fetched := rfl
@[simp] theorem State.modPort_steps (s : State) (n : PortId) (f : Port → Port) : (s.modPort n f).steps = s.steps := rfl
@[simp] theorem State.modPort_journal (s : State) (n : PortId) (f : Port → Port) : (s.modPort n f).journal = s.journal := rfl
@[simp] theorem State.modPort_records (s : State) (n : PortId) (f : Port → Port) : (s.modPort n f).records = s.records := rfl
@[simp] theorem State.modPort_nextRec (s : State) (n : PortId) (f : Port → Port) : (s.modPort n f).nextRec = s.nextRec := rfl
@[simp] theorem State.modPort_rt (s : State) (n : PortId) (f : Port → Port) : (s.modPort n f).rt = s.rt := rfl
@[simp] theorem State.modPort_ports (s : State) (n : PortId) (f : Port → Port) : (s.modPort n f).ports = upd s.ports n f := rfl
@[simp] theorem State.modPort_xlate (s : State) (n : PortId) (f : Port → Port) : (s.modPort n f).xlate = s.xlate := rfl
@[simp] theorem State.modPort_tables (s : State) (n : PortId) (f : Port → Port) : (s.modPort n f).tables = s.tables := rfl
@[simp] theorem State.modPort_sets (s : State) (n : PortId) (f : Port → Port) : (s.modPort n f).sets = s.sets := rfl
@[simp] theorem State.modPort_link (s : State) (n : PortId) (f : Port → Port) : (s.modPort n f).link = s.link := rfl
@[simp] theorem State.modPort_power (s : State) (n : PortId) (f : Port → Port) : (s.modPort n f).power = s.power := rfl
@[simp] theorem State.modPort_fault (s : State) (n : PortId) (f : Port → Port) : (s.modPort n f).fault = s.fault := rfl
@[simp] theorem State.modPort_start (s : State) (n : PortId) (f : Port → Port) : (s.modPort n f).start = s.start := rfl
@[simp] theorem State.modPort_pins (s : State) (n : PortId) (f : Port → Port) : (s.modPort n f).pins = s.pins := rfl
@[simp] theorem State.modPort_ctl (s : State) (n : PortId) (f : Port → Port) : (s.modPort n f).ctl = s.ctl := rfl
@[simp] theorem State.modPort_scrub (s : State) (n : PortId) (f : Port → Port) : (s.modPort n f).scrub = s.scrub := rfl

/-! ### modLink -/

@[simp] theorem State.modLink_pending (s : State) (l : LinkId) (f : LinkPort → LinkPort) : (s.modLink l f).pending = s.pending := rfl
@[simp] theorem State.modLink_build (s : State) (l : LinkId) (f : LinkPort → LinkPort) : (s.modLink l f).build = s.build := rfl
@[simp] theorem State.modLink_cores (s : State) (l : LinkId) (f : LinkPort → LinkPort) : (s.modLink l f).cores = s.cores := rfl
@[simp] theorem State.modLink_deep (s : State) (l : LinkId) (f : LinkPort → LinkPort) : (s.modLink l f).deep = s.deep := rfl
@[simp] theorem State.modLink_parts (s : State) (l : LinkId) (f : LinkPort → LinkPort) : (s.modLink l f).parts = s.parts := rfl
@[simp] theorem State.modLink_queues (s : State) (l : LinkId) (f : LinkPort → LinkPort) : (s.modLink l f).queues = s.queues := rfl
@[simp] theorem State.modLink_fetched (s : State) (l : LinkId) (f : LinkPort → LinkPort) : (s.modLink l f).fetched = s.fetched := rfl
@[simp] theorem State.modLink_steps (s : State) (l : LinkId) (f : LinkPort → LinkPort) : (s.modLink l f).steps = s.steps := rfl
@[simp] theorem State.modLink_journal (s : State) (l : LinkId) (f : LinkPort → LinkPort) : (s.modLink l f).journal = s.journal := rfl
@[simp] theorem State.modLink_records (s : State) (l : LinkId) (f : LinkPort → LinkPort) : (s.modLink l f).records = s.records := rfl
@[simp] theorem State.modLink_nextRec (s : State) (l : LinkId) (f : LinkPort → LinkPort) : (s.modLink l f).nextRec = s.nextRec := rfl
@[simp] theorem State.modLink_rt (s : State) (l : LinkId) (f : LinkPort → LinkPort) : (s.modLink l f).rt = s.rt := rfl
@[simp] theorem State.modLink_ports (s : State) (l : LinkId) (f : LinkPort → LinkPort) : (s.modLink l f).ports = s.ports := rfl
@[simp] theorem State.modLink_xlate (s : State) (l : LinkId) (f : LinkPort → LinkPort) : (s.modLink l f).xlate = s.xlate := rfl
@[simp] theorem State.modLink_tables (s : State) (l : LinkId) (f : LinkPort → LinkPort) : (s.modLink l f).tables = s.tables := rfl
@[simp] theorem State.modLink_sets (s : State) (l : LinkId) (f : LinkPort → LinkPort) : (s.modLink l f).sets = s.sets := rfl
@[simp] theorem State.modLink_link (s : State) (l : LinkId) (f : LinkPort → LinkPort) : (s.modLink l f).link = { s.link with ports := upd s.link.ports l f } := rfl
@[simp] theorem State.modLink_power (s : State) (l : LinkId) (f : LinkPort → LinkPort) : (s.modLink l f).power = s.power := rfl
@[simp] theorem State.modLink_fault (s : State) (l : LinkId) (f : LinkPort → LinkPort) : (s.modLink l f).fault = s.fault := rfl
@[simp] theorem State.modLink_start (s : State) (l : LinkId) (f : LinkPort → LinkPort) : (s.modLink l f).start = s.start := rfl
@[simp] theorem State.modLink_pins (s : State) (l : LinkId) (f : LinkPort → LinkPort) : (s.modLink l f).pins = s.pins := rfl
@[simp] theorem State.modLink_ctl (s : State) (l : LinkId) (f : LinkPort → LinkPort) : (s.modLink l f).ctl = s.ctl := rfl
@[simp] theorem State.modLink_scrub (s : State) (l : LinkId) (f : LinkPort → LinkPort) : (s.modLink l f).scrub = s.scrub := rfl

/-! ### modSt -/

@[simp] theorem State.modSt_pending (s : State) (f : LinkSt → LinkSt) : (s.modSt f).pending = s.pending := rfl
@[simp] theorem State.modSt_build (s : State) (f : LinkSt → LinkSt) : (s.modSt f).build = s.build := rfl
@[simp] theorem State.modSt_cores (s : State) (f : LinkSt → LinkSt) : (s.modSt f).cores = s.cores := rfl
@[simp] theorem State.modSt_deep (s : State) (f : LinkSt → LinkSt) : (s.modSt f).deep = s.deep := rfl
@[simp] theorem State.modSt_parts (s : State) (f : LinkSt → LinkSt) : (s.modSt f).parts = s.parts := rfl
@[simp] theorem State.modSt_queues (s : State) (f : LinkSt → LinkSt) : (s.modSt f).queues = s.queues := rfl
@[simp] theorem State.modSt_fetched (s : State) (f : LinkSt → LinkSt) : (s.modSt f).fetched = s.fetched := rfl
@[simp] theorem State.modSt_steps (s : State) (f : LinkSt → LinkSt) : (s.modSt f).steps = s.steps := rfl
@[simp] theorem State.modSt_journal (s : State) (f : LinkSt → LinkSt) : (s.modSt f).journal = s.journal := rfl
@[simp] theorem State.modSt_records (s : State) (f : LinkSt → LinkSt) : (s.modSt f).records = s.records := rfl
@[simp] theorem State.modSt_nextRec (s : State) (f : LinkSt → LinkSt) : (s.modSt f).nextRec = s.nextRec := rfl
@[simp] theorem State.modSt_rt (s : State) (f : LinkSt → LinkSt) : (s.modSt f).rt = s.rt := rfl
@[simp] theorem State.modSt_ports (s : State) (f : LinkSt → LinkSt) : (s.modSt f).ports = s.ports := rfl
@[simp] theorem State.modSt_xlate (s : State) (f : LinkSt → LinkSt) : (s.modSt f).xlate = s.xlate := rfl
@[simp] theorem State.modSt_tables (s : State) (f : LinkSt → LinkSt) : (s.modSt f).tables = s.tables := rfl
@[simp] theorem State.modSt_sets (s : State) (f : LinkSt → LinkSt) : (s.modSt f).sets = s.sets := rfl
@[simp] theorem State.modSt_link (s : State) (f : LinkSt → LinkSt) : (s.modSt f).link = f s.link := rfl
@[simp] theorem State.modSt_power (s : State) (f : LinkSt → LinkSt) : (s.modSt f).power = s.power := rfl
@[simp] theorem State.modSt_fault (s : State) (f : LinkSt → LinkSt) : (s.modSt f).fault = s.fault := rfl
@[simp] theorem State.modSt_start (s : State) (f : LinkSt → LinkSt) : (s.modSt f).start = s.start := rfl
@[simp] theorem State.modSt_pins (s : State) (f : LinkSt → LinkSt) : (s.modSt f).pins = s.pins := rfl
@[simp] theorem State.modSt_ctl (s : State) (f : LinkSt → LinkSt) : (s.modSt f).ctl = s.ctl := rfl
@[simp] theorem State.modSt_scrub (s : State) (f : LinkSt → LinkSt) : (s.modSt f).scrub = s.scrub := rfl

/-! ### modPower -/

@[simp] theorem State.modPower_pending (s : State) (f : PowerSt → PowerSt) : (s.modPower f).pending = s.pending := rfl
@[simp] theorem State.modPower_build (s : State) (f : PowerSt → PowerSt) : (s.modPower f).build = s.build := rfl
@[simp] theorem State.modPower_cores (s : State) (f : PowerSt → PowerSt) : (s.modPower f).cores = s.cores := rfl
@[simp] theorem State.modPower_deep (s : State) (f : PowerSt → PowerSt) : (s.modPower f).deep = s.deep := rfl
@[simp] theorem State.modPower_parts (s : State) (f : PowerSt → PowerSt) : (s.modPower f).parts = s.parts := rfl
@[simp] theorem State.modPower_queues (s : State) (f : PowerSt → PowerSt) : (s.modPower f).queues = s.queues := rfl
@[simp] theorem State.modPower_fetched (s : State) (f : PowerSt → PowerSt) : (s.modPower f).fetched = s.fetched := rfl
@[simp] theorem State.modPower_steps (s : State) (f : PowerSt → PowerSt) : (s.modPower f).steps = s.steps := rfl
@[simp] theorem State.modPower_journal (s : State) (f : PowerSt → PowerSt) : (s.modPower f).journal = s.journal := rfl
@[simp] theorem State.modPower_records (s : State) (f : PowerSt → PowerSt) : (s.modPower f).records = s.records := rfl
@[simp] theorem State.modPower_nextRec (s : State) (f : PowerSt → PowerSt) : (s.modPower f).nextRec = s.nextRec := rfl
@[simp] theorem State.modPower_rt (s : State) (f : PowerSt → PowerSt) : (s.modPower f).rt = s.rt := rfl
@[simp] theorem State.modPower_ports (s : State) (f : PowerSt → PowerSt) : (s.modPower f).ports = s.ports := rfl
@[simp] theorem State.modPower_xlate (s : State) (f : PowerSt → PowerSt) : (s.modPower f).xlate = s.xlate := rfl
@[simp] theorem State.modPower_tables (s : State) (f : PowerSt → PowerSt) : (s.modPower f).tables = s.tables := rfl
@[simp] theorem State.modPower_sets (s : State) (f : PowerSt → PowerSt) : (s.modPower f).sets = s.sets := rfl
@[simp] theorem State.modPower_link (s : State) (f : PowerSt → PowerSt) : (s.modPower f).link = s.link := rfl
@[simp] theorem State.modPower_power (s : State) (f : PowerSt → PowerSt) : (s.modPower f).power = f s.power := rfl
@[simp] theorem State.modPower_fault (s : State) (f : PowerSt → PowerSt) : (s.modPower f).fault = s.fault := rfl
@[simp] theorem State.modPower_start (s : State) (f : PowerSt → PowerSt) : (s.modPower f).start = s.start := rfl
@[simp] theorem State.modPower_pins (s : State) (f : PowerSt → PowerSt) : (s.modPower f).pins = s.pins := rfl
@[simp] theorem State.modPower_ctl (s : State) (f : PowerSt → PowerSt) : (s.modPower f).ctl = s.ctl := rfl
@[simp] theorem State.modPower_scrub (s : State) (f : PowerSt → PowerSt) : (s.modPower f).scrub = s.scrub := rfl

/-! ### modFault -/

@[simp] theorem State.modFault_pending (s : State) (f : FaultSt → FaultSt) : (s.modFault f).pending = s.pending := rfl
@[simp] theorem State.modFault_build (s : State) (f : FaultSt → FaultSt) : (s.modFault f).build = s.build := rfl
@[simp] theorem State.modFault_cores (s : State) (f : FaultSt → FaultSt) : (s.modFault f).cores = s.cores := rfl
@[simp] theorem State.modFault_deep (s : State) (f : FaultSt → FaultSt) : (s.modFault f).deep = s.deep := rfl
@[simp] theorem State.modFault_parts (s : State) (f : FaultSt → FaultSt) : (s.modFault f).parts = s.parts := rfl
@[simp] theorem State.modFault_queues (s : State) (f : FaultSt → FaultSt) : (s.modFault f).queues = s.queues := rfl
@[simp] theorem State.modFault_fetched (s : State) (f : FaultSt → FaultSt) : (s.modFault f).fetched = s.fetched := rfl
@[simp] theorem State.modFault_steps (s : State) (f : FaultSt → FaultSt) : (s.modFault f).steps = s.steps := rfl
@[simp] theorem State.modFault_journal (s : State) (f : FaultSt → FaultSt) : (s.modFault f).journal = s.journal := rfl
@[simp] theorem State.modFault_records (s : State) (f : FaultSt → FaultSt) : (s.modFault f).records = s.records := rfl
@[simp] theorem State.modFault_nextRec (s : State) (f : FaultSt → FaultSt) : (s.modFault f).nextRec = s.nextRec := rfl
@[simp] theorem State.modFault_rt (s : State) (f : FaultSt → FaultSt) : (s.modFault f).rt = s.rt := rfl
@[simp] theorem State.modFault_ports (s : State) (f : FaultSt → FaultSt) : (s.modFault f).ports = s.ports := rfl
@[simp] theorem State.modFault_xlate (s : State) (f : FaultSt → FaultSt) : (s.modFault f).xlate = s.xlate := rfl
@[simp] theorem State.modFault_tables (s : State) (f : FaultSt → FaultSt) : (s.modFault f).tables = s.tables := rfl
@[simp] theorem State.modFault_sets (s : State) (f : FaultSt → FaultSt) : (s.modFault f).sets = s.sets := rfl
@[simp] theorem State.modFault_link (s : State) (f : FaultSt → FaultSt) : (s.modFault f).link = s.link := rfl
@[simp] theorem State.modFault_power (s : State) (f : FaultSt → FaultSt) : (s.modFault f).power = s.power := rfl
@[simp] theorem State.modFault_fault (s : State) (f : FaultSt → FaultSt) : (s.modFault f).fault = f s.fault := rfl
@[simp] theorem State.modFault_start (s : State) (f : FaultSt → FaultSt) : (s.modFault f).start = s.start := rfl
@[simp] theorem State.modFault_pins (s : State) (f : FaultSt → FaultSt) : (s.modFault f).pins = s.pins := rfl
@[simp] theorem State.modFault_ctl (s : State) (f : FaultSt → FaultSt) : (s.modFault f).ctl = s.ctl := rfl
@[simp] theorem State.modFault_scrub (s : State) (f : FaultSt → FaultSt) : (s.modFault f).scrub = s.scrub := rfl

/-! ### modPair -/

@[simp] theorem State.modPair_pending (s : State) (i : Fin 2) (f : PairSt → PairSt) : (s.modPair i f).pending = s.pending := rfl
@[simp] theorem State.modPair_build (s : State) (i : Fin 2) (f : PairSt → PairSt) : (s.modPair i f).build = s.build := rfl
@[simp] theorem State.modPair_cores (s : State) (i : Fin 2) (f : PairSt → PairSt) : (s.modPair i f).cores = s.cores := rfl
@[simp] theorem State.modPair_deep (s : State) (i : Fin 2) (f : PairSt → PairSt) : (s.modPair i f).deep = s.deep := rfl
@[simp] theorem State.modPair_parts (s : State) (i : Fin 2) (f : PairSt → PairSt) : (s.modPair i f).parts = s.parts := rfl
@[simp] theorem State.modPair_queues (s : State) (i : Fin 2) (f : PairSt → PairSt) : (s.modPair i f).queues = s.queues := rfl
@[simp] theorem State.modPair_fetched (s : State) (i : Fin 2) (f : PairSt → PairSt) : (s.modPair i f).fetched = s.fetched := rfl
@[simp] theorem State.modPair_steps (s : State) (i : Fin 2) (f : PairSt → PairSt) : (s.modPair i f).steps = s.steps := rfl
@[simp] theorem State.modPair_journal (s : State) (i : Fin 2) (f : PairSt → PairSt) : (s.modPair i f).journal = s.journal := rfl
@[simp] theorem State.modPair_records (s : State) (i : Fin 2) (f : PairSt → PairSt) : (s.modPair i f).records = s.records := rfl
@[simp] theorem State.modPair_nextRec (s : State) (i : Fin 2) (f : PairSt → PairSt) : (s.modPair i f).nextRec = s.nextRec := rfl
@[simp] theorem State.modPair_rt (s : State) (i : Fin 2) (f : PairSt → PairSt) : (s.modPair i f).rt = s.rt := rfl
@[simp] theorem State.modPair_ports (s : State) (i : Fin 2) (f : PairSt → PairSt) : (s.modPair i f).ports = s.ports := rfl
@[simp] theorem State.modPair_xlate (s : State) (i : Fin 2) (f : PairSt → PairSt) : (s.modPair i f).xlate = s.xlate := rfl
@[simp] theorem State.modPair_tables (s : State) (i : Fin 2) (f : PairSt → PairSt) : (s.modPair i f).tables = s.tables := rfl
@[simp] theorem State.modPair_sets (s : State) (i : Fin 2) (f : PairSt → PairSt) : (s.modPair i f).sets = s.sets := rfl
@[simp] theorem State.modPair_link (s : State) (i : Fin 2) (f : PairSt → PairSt) : (s.modPair i f).link = s.link := rfl
@[simp] theorem State.modPair_power (s : State) (i : Fin 2) (f : PairSt → PairSt) : (s.modPair i f).power = s.power := rfl
@[simp] theorem State.modPair_fault (s : State) (i : Fin 2) (f : PairSt → PairSt) : (s.modPair i f).fault = { s.fault with pairs := upd s.fault.pairs i f } := rfl
@[simp] theorem State.modPair_start (s : State) (i : Fin 2) (f : PairSt → PairSt) : (s.modPair i f).start = s.start := rfl
@[simp] theorem State.modPair_pins (s : State) (i : Fin 2) (f : PairSt → PairSt) : (s.modPair i f).pins = s.pins := rfl
@[simp] theorem State.modPair_ctl (s : State) (i : Fin 2) (f : PairSt → PairSt) : (s.modPair i f).ctl = s.ctl := rfl
@[simp] theorem State.modPair_scrub (s : State) (i : Fin 2) (f : PairSt → PairSt) : (s.modPair i f).scrub = s.scrub := rfl

/-! ### modHealth -/

@[simp] theorem State.modHealth_pending (s : State) (c : CoreId) (f : CoreHealth → CoreHealth) : (s.modHealth c f).pending = s.pending := rfl
@[simp] theorem State.modHealth_build (s : State) (c : CoreId) (f : CoreHealth → CoreHealth) : (s.modHealth c f).build = s.build := rfl
@[simp] theorem State.modHealth_cores (s : State) (c : CoreId) (f : CoreHealth → CoreHealth) : (s.modHealth c f).cores = s.cores := rfl
@[simp] theorem State.modHealth_deep (s : State) (c : CoreId) (f : CoreHealth → CoreHealth) : (s.modHealth c f).deep = s.deep := rfl
@[simp] theorem State.modHealth_parts (s : State) (c : CoreId) (f : CoreHealth → CoreHealth) : (s.modHealth c f).parts = s.parts := rfl
@[simp] theorem State.modHealth_queues (s : State) (c : CoreId) (f : CoreHealth → CoreHealth) : (s.modHealth c f).queues = s.queues := rfl
@[simp] theorem State.modHealth_fetched (s : State) (c : CoreId) (f : CoreHealth → CoreHealth) : (s.modHealth c f).fetched = s.fetched := rfl
@[simp] theorem State.modHealth_steps (s : State) (c : CoreId) (f : CoreHealth → CoreHealth) : (s.modHealth c f).steps = s.steps := rfl
@[simp] theorem State.modHealth_journal (s : State) (c : CoreId) (f : CoreHealth → CoreHealth) : (s.modHealth c f).journal = s.journal := rfl
@[simp] theorem State.modHealth_records (s : State) (c : CoreId) (f : CoreHealth → CoreHealth) : (s.modHealth c f).records = s.records := rfl
@[simp] theorem State.modHealth_nextRec (s : State) (c : CoreId) (f : CoreHealth → CoreHealth) : (s.modHealth c f).nextRec = s.nextRec := rfl
@[simp] theorem State.modHealth_rt (s : State) (c : CoreId) (f : CoreHealth → CoreHealth) : (s.modHealth c f).rt = s.rt := rfl
@[simp] theorem State.modHealth_ports (s : State) (c : CoreId) (f : CoreHealth → CoreHealth) : (s.modHealth c f).ports = s.ports := rfl
@[simp] theorem State.modHealth_xlate (s : State) (c : CoreId) (f : CoreHealth → CoreHealth) : (s.modHealth c f).xlate = s.xlate := rfl
@[simp] theorem State.modHealth_tables (s : State) (c : CoreId) (f : CoreHealth → CoreHealth) : (s.modHealth c f).tables = s.tables := rfl
@[simp] theorem State.modHealth_sets (s : State) (c : CoreId) (f : CoreHealth → CoreHealth) : (s.modHealth c f).sets = s.sets := rfl
@[simp] theorem State.modHealth_link (s : State) (c : CoreId) (f : CoreHealth → CoreHealth) : (s.modHealth c f).link = s.link := rfl
@[simp] theorem State.modHealth_power (s : State) (c : CoreId) (f : CoreHealth → CoreHealth) : (s.modHealth c f).power = s.power := rfl
@[simp] theorem State.modHealth_fault (s : State) (c : CoreId) (f : CoreHealth → CoreHealth) : (s.modHealth c f).fault = { s.fault with cores := upd s.fault.cores c f } := rfl
@[simp] theorem State.modHealth_start (s : State) (c : CoreId) (f : CoreHealth → CoreHealth) : (s.modHealth c f).start = s.start := rfl
@[simp] theorem State.modHealth_pins (s : State) (c : CoreId) (f : CoreHealth → CoreHealth) : (s.modHealth c f).pins = s.pins := rfl
@[simp] theorem State.modHealth_ctl (s : State) (c : CoreId) (f : CoreHealth → CoreHealth) : (s.modHealth c f).ctl = s.ctl := rfl
@[simp] theorem State.modHealth_scrub (s : State) (c : CoreId) (f : CoreHealth → CoreHealth) : (s.modHealth c f).scrub = s.scrub := rfl

/-! ### modSteward -/

@[simp] theorem State.modSteward_pending (s : State) (i : Fin 4) (f : Steward → Steward) : (s.modSteward i f).pending = s.pending := rfl
@[simp] theorem State.modSteward_build (s : State) (i : Fin 4) (f : Steward → Steward) : (s.modSteward i f).build = s.build := rfl
@[simp] theorem State.modSteward_cores (s : State) (i : Fin 4) (f : Steward → Steward) : (s.modSteward i f).cores = s.cores := rfl
@[simp] theorem State.modSteward_deep (s : State) (i : Fin 4) (f : Steward → Steward) : (s.modSteward i f).deep = s.deep := rfl
@[simp] theorem State.modSteward_parts (s : State) (i : Fin 4) (f : Steward → Steward) : (s.modSteward i f).parts = s.parts := rfl
@[simp] theorem State.modSteward_queues (s : State) (i : Fin 4) (f : Steward → Steward) : (s.modSteward i f).queues = s.queues := rfl
@[simp] theorem State.modSteward_fetched (s : State) (i : Fin 4) (f : Steward → Steward) : (s.modSteward i f).fetched = s.fetched := rfl
@[simp] theorem State.modSteward_steps (s : State) (i : Fin 4) (f : Steward → Steward) : (s.modSteward i f).steps = s.steps := rfl
@[simp] theorem State.modSteward_journal (s : State) (i : Fin 4) (f : Steward → Steward) : (s.modSteward i f).journal = s.journal := rfl
@[simp] theorem State.modSteward_records (s : State) (i : Fin 4) (f : Steward → Steward) : (s.modSteward i f).records = s.records := rfl
@[simp] theorem State.modSteward_nextRec (s : State) (i : Fin 4) (f : Steward → Steward) : (s.modSteward i f).nextRec = s.nextRec := rfl
@[simp] theorem State.modSteward_rt (s : State) (i : Fin 4) (f : Steward → Steward) : (s.modSteward i f).rt = s.rt := rfl
@[simp] theorem State.modSteward_ports (s : State) (i : Fin 4) (f : Steward → Steward) : (s.modSteward i f).ports = s.ports := rfl
@[simp] theorem State.modSteward_xlate (s : State) (i : Fin 4) (f : Steward → Steward) : (s.modSteward i f).xlate = s.xlate := rfl
@[simp] theorem State.modSteward_tables (s : State) (i : Fin 4) (f : Steward → Steward) : (s.modSteward i f).tables = s.tables := rfl
@[simp] theorem State.modSteward_sets (s : State) (i : Fin 4) (f : Steward → Steward) : (s.modSteward i f).sets = s.sets := rfl
@[simp] theorem State.modSteward_link (s : State) (i : Fin 4) (f : Steward → Steward) : (s.modSteward i f).link = s.link := rfl
@[simp] theorem State.modSteward_power (s : State) (i : Fin 4) (f : Steward → Steward) : (s.modSteward i f).power = s.power := rfl
@[simp] theorem State.modSteward_fault (s : State) (i : Fin 4) (f : Steward → Steward) : (s.modSteward i f).fault = { s.fault with stewards := upd s.fault.stewards i f } := rfl
@[simp] theorem State.modSteward_start (s : State) (i : Fin 4) (f : Steward → Steward) : (s.modSteward i f).start = s.start := rfl
@[simp] theorem State.modSteward_pins (s : State) (i : Fin 4) (f : Steward → Steward) : (s.modSteward i f).pins = s.pins := rfl
@[simp] theorem State.modSteward_ctl (s : State) (i : Fin 4) (f : Steward → Steward) : (s.modSteward i f).ctl = s.ctl := rfl
@[simp] theorem State.modSteward_scrub (s : State) (i : Fin 4) (f : Steward → Steward) : (s.modSteward i f).scrub = s.scrub := rfl

/-! ### modStart -/

@[simp] theorem State.modStart_pending (s : State) (f : StartSt → StartSt) : (s.modStart f).pending = s.pending := rfl
@[simp] theorem State.modStart_build (s : State) (f : StartSt → StartSt) : (s.modStart f).build = s.build := rfl
@[simp] theorem State.modStart_cores (s : State) (f : StartSt → StartSt) : (s.modStart f).cores = s.cores := rfl
@[simp] theorem State.modStart_deep (s : State) (f : StartSt → StartSt) : (s.modStart f).deep = s.deep := rfl
@[simp] theorem State.modStart_parts (s : State) (f : StartSt → StartSt) : (s.modStart f).parts = s.parts := rfl
@[simp] theorem State.modStart_queues (s : State) (f : StartSt → StartSt) : (s.modStart f).queues = s.queues := rfl
@[simp] theorem State.modStart_fetched (s : State) (f : StartSt → StartSt) : (s.modStart f).fetched = s.fetched := rfl
@[simp] theorem State.modStart_steps (s : State) (f : StartSt → StartSt) : (s.modStart f).steps = s.steps := rfl
@[simp] theorem State.modStart_journal (s : State) (f : StartSt → StartSt) : (s.modStart f).journal = s.journal := rfl
@[simp] theorem State.modStart_records (s : State) (f : StartSt → StartSt) : (s.modStart f).records = s.records := rfl
@[simp] theorem State.modStart_nextRec (s : State) (f : StartSt → StartSt) : (s.modStart f).nextRec = s.nextRec := rfl
@[simp] theorem State.modStart_rt (s : State) (f : StartSt → StartSt) : (s.modStart f).rt = s.rt := rfl
@[simp] theorem State.modStart_ports (s : State) (f : StartSt → StartSt) : (s.modStart f).ports = s.ports := rfl
@[simp] theorem State.modStart_xlate (s : State) (f : StartSt → StartSt) : (s.modStart f).xlate = s.xlate := rfl
@[simp] theorem State.modStart_tables (s : State) (f : StartSt → StartSt) : (s.modStart f).tables = s.tables := rfl
@[simp] theorem State.modStart_sets (s : State) (f : StartSt → StartSt) : (s.modStart f).sets = s.sets := rfl
@[simp] theorem State.modStart_link (s : State) (f : StartSt → StartSt) : (s.modStart f).link = s.link := rfl
@[simp] theorem State.modStart_power (s : State) (f : StartSt → StartSt) : (s.modStart f).power = s.power := rfl
@[simp] theorem State.modStart_fault (s : State) (f : StartSt → StartSt) : (s.modStart f).fault = s.fault := rfl
@[simp] theorem State.modStart_start (s : State) (f : StartSt → StartSt) : (s.modStart f).start = f s.start := rfl
@[simp] theorem State.modStart_pins (s : State) (f : StartSt → StartSt) : (s.modStart f).pins = s.pins := rfl
@[simp] theorem State.modStart_ctl (s : State) (f : StartSt → StartSt) : (s.modStart f).ctl = s.ctl := rfl
@[simp] theorem State.modStart_scrub (s : State) (f : StartSt → StartSt) : (s.modStart f).scrub = s.scrub := rfl

/-! ### modTables -/

@[simp] theorem State.modTables_pending (s : State) (f : TableSt → TableSt) : (s.modTables f).pending = s.pending := rfl
@[simp] theorem State.modTables_build (s : State) (f : TableSt → TableSt) : (s.modTables f).build = s.build := rfl
@[simp] theorem State.modTables_cores (s : State) (f : TableSt → TableSt) : (s.modTables f).cores = s.cores := rfl
@[simp] theorem State.modTables_deep (s : State) (f : TableSt → TableSt) : (s.modTables f).deep = s.deep := rfl
@[simp] theorem State.modTables_parts (s : State) (f : TableSt → TableSt) : (s.modTables f).parts = s.parts := rfl
@[simp] theorem State.modTables_queues (s : State) (f : TableSt → TableSt) : (s.modTables f).queues = s.queues := rfl
@[simp] theorem State.modTables_fetched (s : State) (f : TableSt → TableSt) : (s.modTables f).fetched = s.fetched := rfl
@[simp] theorem State.modTables_steps (s : State) (f : TableSt → TableSt) : (s.modTables f).steps = s.steps := rfl
@[simp] theorem State.modTables_journal (s : State) (f : TableSt → TableSt) : (s.modTables f).journal = s.journal := rfl
@[simp] theorem State.modTables_records (s : State) (f : TableSt → TableSt) : (s.modTables f).records = s.records := rfl
@[simp] theorem State.modTables_nextRec (s : State) (f : TableSt → TableSt) : (s.modTables f).nextRec = s.nextRec := rfl
@[simp] theorem State.modTables_rt (s : State) (f : TableSt → TableSt) : (s.modTables f).rt = s.rt := rfl
@[simp] theorem State.modTables_ports (s : State) (f : TableSt → TableSt) : (s.modTables f).ports = s.ports := rfl
@[simp] theorem State.modTables_xlate (s : State) (f : TableSt → TableSt) : (s.modTables f).xlate = s.xlate := rfl
@[simp] theorem State.modTables_tables (s : State) (f : TableSt → TableSt) : (s.modTables f).tables = f s.tables := rfl
@[simp] theorem State.modTables_sets (s : State) (f : TableSt → TableSt) : (s.modTables f).sets = s.sets := rfl
@[simp] theorem State.modTables_link (s : State) (f : TableSt → TableSt) : (s.modTables f).link = s.link := rfl
@[simp] theorem State.modTables_power (s : State) (f : TableSt → TableSt) : (s.modTables f).power = s.power := rfl
@[simp] theorem State.modTables_fault (s : State) (f : TableSt → TableSt) : (s.modTables f).fault = s.fault := rfl
@[simp] theorem State.modTables_start (s : State) (f : TableSt → TableSt) : (s.modTables f).start = s.start := rfl
@[simp] theorem State.modTables_pins (s : State) (f : TableSt → TableSt) : (s.modTables f).pins = s.pins := rfl
@[simp] theorem State.modTables_ctl (s : State) (f : TableSt → TableSt) : (s.modTables f).ctl = s.ctl := rfl
@[simp] theorem State.modTables_scrub (s : State) (f : TableSt → TableSt) : (s.modTables f).scrub = s.scrub := rfl

/-! ### irq -/

@[simp] theorem State.irq_pending (s : State) (b : Nat) : (s.irq b).pending = s.pending := rfl
@[simp] theorem State.irq_build (s : State) (b : Nat) : (s.irq b).build = s.build := rfl
@[simp] theorem State.irq_cores (s : State) (b : Nat) : (s.irq b).cores = s.cores := rfl
@[simp] theorem State.irq_deep (s : State) (b : Nat) : (s.irq b).deep = s.deep := rfl
@[simp] theorem State.irq_parts (s : State) (b : Nat) : (s.irq b).parts = s.parts := rfl
@[simp] theorem State.irq_queues (s : State) (b : Nat) : (s.irq b).queues = s.queues := rfl
@[simp] theorem State.irq_fetched (s : State) (b : Nat) : (s.irq b).fetched = s.fetched := rfl
@[simp] theorem State.irq_steps (s : State) (b : Nat) : (s.irq b).steps = s.steps := rfl
@[simp] theorem State.irq_journal (s : State) (b : Nat) : (s.irq b).journal = s.journal := rfl
@[simp] theorem State.irq_records (s : State) (b : Nat) : (s.irq b).records = s.records := rfl
@[simp] theorem State.irq_nextRec (s : State) (b : Nat) : (s.irq b).nextRec = s.nextRec := rfl
@[simp] theorem State.irq_rt (s : State) (b : Nat) : (s.irq b).rt = s.rt := rfl
@[simp] theorem State.irq_ports (s : State) (b : Nat) : (s.irq b).ports = s.ports := rfl
@[simp] theorem State.irq_xlate (s : State) (b : Nat) : (s.irq b).xlate = s.xlate := rfl
@[simp] theorem State.irq_tables (s : State) (b : Nat) : (s.irq b).tables = s.tables := rfl
@[simp] theorem State.irq_sets (s : State) (b : Nat) : (s.irq b).sets = s.sets := rfl
@[simp] theorem State.irq_link (s : State) (b : Nat) : (s.irq b).link = s.link := rfl
@[simp] theorem State.irq_power (s : State) (b : Nat) : (s.irq b).power = s.power := rfl
@[simp] theorem State.irq_fault (s : State) (b : Nat) : (s.irq b).fault = s.fault := rfl
@[simp] theorem State.irq_start (s : State) (b : Nat) : (s.irq b).start = s.start := rfl
@[simp] theorem State.irq_pins (s : State) (b : Nat) : (s.irq b).pins = s.pins := rfl
@[simp] theorem State.irq_ctl (s : State) (b : Nat) : (s.irq b).ctl = { s.ctl with irqStatus := s.ctl.irqStatus ||| BitVec.ofNat 8 (2 ^ b) } := rfl
@[simp] theorem State.irq_scrub (s : State) (b : Nat) : (s.irq b).scrub = s.scrub := rfl

/-! ### Single cores, partitions, queues and ports -/

theorem getElem_upd {α : Type} {n : Nat} (v : Vector α n) (i j : Fin n) (f : α → α) :
    (upd v i f)[j.val] = if j = i then f v[i.val] else v[j.val] := by
  unfold upd
  rw [Vector.getElem_set]
  by_cases h : i = j
  · subst h; simp
  · rw [if_neg (fun e => h (Fin.ext e)), if_neg (fun e => h e.symm)]

@[simp] theorem getElem_upd_self {α : Type} {n : Nat} (v : Vector α n) (i : Fin n) (f : α → α) :
    (upd v i f)[i.val] = f v[i.val] := by simp [getElem_upd]

@[simp] theorem core_modCore (s : State) (c : CoreId) (f : Core → Core) : (s.modCore c f).core c = f (s.core c) := by
  simp [State.core]

theorem core_modCore_ne (s : State) (c d : CoreId) (f : Core → Core) (h : d ≠ c) : (s.modCore c f).core d = s.core d := by
  simp [State.core, getElem_upd, h]

theorem core_modCore_eq (s : State) (c d : CoreId) (f : Core → Core) :
    (s.modCore c f).core d = if d = c then f (s.core c) else s.core d := by
  simp [State.core, getElem_upd]

theorem modCore_modCore (s : State) (c : CoreId) (f g : Core → Core) :
    (s.modCore c f).modCore c g = s.modCore c (fun k => g (f k)) := by
  simp [State.modCore, upd]

@[simp] theorem part_modCore (s : State) (c : CoreId) (f : Core → Core) (p : PartId) : (s.modCore c f).part p = s.part p := rfl

@[simp] theorem core_modPart (s : State) (p : PartId) (f : Partition → Partition) (c : CoreId) :
    (s.modPart p f).core c = s.core c := rfl

@[simp] theorem part_modPart (s : State) (p : PartId) (f : Partition → Partition) : (s.modPart p f).part p = f (s.part p) := by
  simp [State.part]

theorem part_modPart_ne (s : State) (p q : PartId) (f : Partition → Partition) (h : q ≠ p) :
    (s.modPart p f).part q = s.part q := by
  simp [State.part, getElem_upd, h]

@[simp] theorem queue_modQueue (s : State) (q : QueueId) (f : Queue → Queue) : (s.modQueue q f).queue q = f (s.queue q) := by
  simp [State.queue]

theorem queue_modQueue_ne (s : State) (q r : QueueId) (f : Queue → Queue) (h : r ≠ q) :
    (s.modQueue q f).queue r = s.queue r := by
  simp [State.queue, getElem_upd, h]

@[simp] theorem port_modPort (s : State) (n : PortId) (f : Port → Port) : (s.modPort n f).port n = f (s.port n) := by
  simp [State.port]

theorem port_modPort_ne (s : State) (n m : PortId) (f : Port → Port) (h : m ≠ n) : (s.modPort n f).port m = s.port m := by
  simp [State.port, getElem_upd, h]

@[simp] theorem runOf_modCore (s : State) (c d : CoreId) (f : Core → Core) : (s.modCore c f).runOf d = s.runOf d := rfl

@[simp] theorem stepOf_modCore (s : State) (c d : CoreId) (f : Core → Core) : (s.modCore c f).stepOf d = s.stepOf d := rfl

/-- What `stepOf` found. -/
theorem of_stepOf {s : State} {c : CoreId} {p : PartId} {r : RunSt} {x : StepRec} (h : s.stepOf c = some (p, r, x)) :
    s.runOf c = some p ∧ (s.part p).run = some r ∧ s.step? r.aseq = some x := by
  unfold State.stepOf at h
  split at h <;> try contradiction
  split at h <;> try contradiction
  split at h <;> try contradiction
  simp at h
  obtain ⟨rfl, rfl, rfl⟩ := h
  exact ⟨‹_›, ‹_›, ‹_›⟩

end Sys2Proof.Machine
end

