-- ==== Sys2Proof/Laws/Memory.lean ====
section
/-!
SUPPORT. Sparse tables: reading after writing, and the canonical form; near and deep scratch keep theirs.
-/
namespace Sys2Proof.Machine
open Sys2Proof.Safety

/-! ### Sparse tables -/

/-- Reading a key after `put`. -/
theorem Tab.get_put {β : Type} (d : β) (t : Tab β) (i k : Nat) (x : β) (lo : Nat) (h : Tab.rising lo t = true) :
    Tab.get d (Tab.put t i x) k = if k = i then x else Tab.get d t k := by
  induction t generalizing lo with
  | nil => simp [Tab.put, Tab.get]
  | cons p r ih =>
    obtain ⟨q, v⟩ := p
    simp only [Tab.rising, Bool.and_eq_true, decide_eq_true_eq] at h
    simp only [Tab.put]
    split
    · simp [Tab.get]
    · split
      · subst_vars
        simp [Tab.get]
        split <;> rfl
      · simp [Tab.get, ih _ h.2]
        split
        · split
          · omega
          · rfl
        · rfl

/-- A key below all listed ones reads the default. -/
theorem Tab.get_low {β : Type} (d : β) (t : Tab β) (lo k : Nat) (h : Tab.rising lo t = true) (hk : k < lo) : Tab.get d t k = d := by
  induction t generalizing lo with
  | nil => rfl
  | cons p r ih =>
    obtain ⟨q, v⟩ := p
    simp only [Tab.rising, Bool.and_eq_true, decide_eq_true_eq] at h
    simp only [Tab.get]
    rw [if_neg (by omega), ih _ h.2 (by omega)]

/-- Reading a key after `del`. -/
theorem Tab.get_del {β : Type} (d : β) (t : Tab β) (i k : Nat) (lo : Nat) (h : Tab.rising lo t = true) :
    Tab.get d (Tab.del t i) k = if k = i then d else Tab.get d t k := by
  induction t generalizing lo with
  | nil => simp [Tab.del, Tab.get]
  | cons p r ih =>
    obtain ⟨q, v⟩ := p
    simp only [Tab.rising, Bool.and_eq_true, decide_eq_true_eq] at h
    simp only [Tab.del]
    split
    · rename_i hq
      subst hq
      by_cases hk : k = i
      · subst hk
        simp
        exact Tab.get_low d r _ _ h.2 (by omega)
      · simp [Tab.get, hk]
    · simp [Tab.get, ih _ h.2]
      split
      · split
        · omega
        · rfl
      · rfl

/-- Reading a key after `set`. -/
theorem Tab.get_set {β : Type} [DecidableEq β] (d : β) (t : Tab β) (i k : Nat) (x : β) (lo : Nat) (h : Tab.rising lo t = true) :
    Tab.get d (Tab.set d t i x) k = if k = i then x else Tab.get d t k := by
  unfold Tab.set
  split
  · subst_vars
    exact Tab.get_del _ t i k lo h
  · exact Tab.get_put d t i k x lo h

theorem Tab.rising_mono {β : Type} {t : Tab β} {lo hi : Nat} (h : Tab.rising hi t = true) (hl : lo ≤ hi) : Tab.rising lo t = true := by
  cases t with
  | nil => rfl
  | cons p r =>
    simp only [Tab.rising, Bool.and_eq_true, decide_eq_true_eq] at h ⊢
    exact ⟨by omega, h.2⟩

theorem Tab.rising_put {β : Type} (t : Tab β) (i : Nat) (x : β) (lo : Nat) (h : Tab.rising lo t = true) (hi : lo ≤ i) :
    Tab.rising lo (Tab.put t i x) = true := by
  induction t generalizing lo with
  | nil => simp [Tab.put, Tab.rising, hi]
  | cons p r ih =>
    obtain ⟨q, v⟩ := p
    simp only [Tab.rising, Bool.and_eq_true, decide_eq_true_eq] at h
    simp only [Tab.put]
    split
    · simp only [Tab.rising, Bool.and_eq_true, decide_eq_true_eq]
      exact ⟨hi, by omega, h.2⟩
    · split
      · subst_vars
        simp only [Tab.rising, Bool.and_eq_true, decide_eq_true_eq]
        exact ⟨h.1, h.2⟩
      · simp only [Tab.rising, Bool.and_eq_true, decide_eq_true_eq]
        exact ⟨h.1, ih _ h.2 (by omega)⟩

theorem Tab.rising_filter {β : Type} (t : Tab β) (f : Nat × β → Bool) (lo : Nat) (h : Tab.rising lo t = true) :
    Tab.rising lo (t.filter f) = true := by
  induction t generalizing lo with
  | nil => rfl
  | cons p r ih =>
    simp only [Tab.rising, Bool.and_eq_true, decide_eq_true_eq] at h
    rw [List.filter_cons]
    split
    · simp only [Tab.rising, Bool.and_eq_true, decide_eq_true_eq]
      exact ⟨h.1, ih _ h.2⟩
    · exact Tab.rising_mono (ih _ h.2) (by omega)

theorem Tab.rising_del {β : Type} (t : Tab β) (i lo : Nat) (h : Tab.rising lo t = true) : Tab.rising lo (Tab.del t i) = true := by
  induction t generalizing lo with
  | nil => rfl
  | cons p r ih =>
    obtain ⟨q, v⟩ := p
    simp only [Tab.rising, Bool.and_eq_true, decide_eq_true_eq] at h
    simp only [Tab.del]
    split
    · exact Tab.rising_mono h.2 (by omega)
    · simp only [Tab.rising, Bool.and_eq_true, decide_eq_true_eq]
      exact ⟨h.1, ih _ h.2⟩

theorem Tab.mem_put {β : Type} {t : Tab β} {i : Nat} {x : β} {y : Nat × β} (h : y ∈ Tab.put t i x) : y = (i, x) ∨ y ∈ t := by
  induction t with
  | nil =>
    simp [Tab.put] at h
    exact .inl h
  | cons p r ih =>
    obtain ⟨q, v⟩ := p
    simp only [Tab.put] at h
    split at h
    · simpa using h
    · split at h
      · simp at h ⊢
        tauto
      · simp at h ⊢
        rcases h with h | h
        · exact .inr (.inl h)
        · have := ih h
          tauto

theorem Tab.mem_del {β : Type} {t : Tab β} {i : Nat} {y : Nat × β} (h : y ∈ Tab.del t i) : y ∈ t := by
  induction t with
  | nil => simp [Tab.del] at h
  | cons p r ih =>
    obtain ⟨q, v⟩ := p
    simp only [Tab.del] at h
    split at h
    · exact List.mem_cons_of_mem _ h
    · simp at h ⊢
      rcases h with h | h
      · exact .inl h
      · exact .inr (ih h)

/-- The canonical form in two parts. -/
theorem Tab.wf_iff {β : Type} [DecidableEq β] (d : β) (t : Tab β) :
    Tab.wf d t = true ↔ Tab.rising 0 t = true ∧ ∀ y ∈ t, y.2 ≠ d := by
  simp [Tab.wf]

theorem Tab.wf_rising {β : Type} [DecidableEq β] {d : β} {t : Tab β} (h : Tab.wf d t = true) : Tab.rising 0 t = true :=
  ((Tab.wf_iff d t).1 h).1

theorem Tab.wf_nil {β : Type} [DecidableEq β] (d : β) : Tab.wf d ([] : Tab β) = true := rfl

theorem Tab.wf_del {β : Type} [DecidableEq β] {d : β} {t : Tab β} (i : Nat) (h : Tab.wf d t = true) : Tab.wf d (Tab.del t i) = true := by
  rw [Tab.wf_iff] at *
  exact ⟨Tab.rising_del _ _ _ h.1, fun y hy => h.2 y (Tab.mem_del hy)⟩

theorem Tab.wf_put {β : Type} [DecidableEq β] {d : β} {t : Tab β} (i : Nat) (x : β) (hx : x ≠ d) (h : Tab.wf d t = true) :
    Tab.wf d (Tab.put t i x) = true := by
  rw [Tab.wf_iff] at *
  refine ⟨Tab.rising_put _ _ _ _ h.1 (Nat.zero_le _), fun y hy => ?_⟩
  rcases Tab.mem_put hy with rfl | hy
  · exact hx
  · exact h.2 y hy

theorem Tab.wf_set {β : Type} [DecidableEq β] {d : β} {t : Tab β} (i : Nat) (x : β) (h : Tab.wf d t = true) :
    Tab.wf d (Tab.set d t i x) = true := by
  unfold Tab.set
  split
  · exact Tab.wf_del i h
  · exact Tab.wf_put i x ‹_› h

theorem Tab.wf_filter {β : Type} [DecidableEq β] {d : β} {t : Tab β} (f : Nat × β → Bool) (h : Tab.wf d t = true) :
    Tab.wf d (t.filter f) = true := by
  rw [Tab.wf_iff] at *
  exact ⟨Tab.rising_filter _ _ _ h.1, fun y hy => h.2 y (List.mem_of_mem_filter hy)⟩

/-- Folding `set` over a list keeps the form. -/
theorem Tab.wf_foldl_set {β α : Type} [DecidableEq β] {d : β} (l : List α) (k : α → Nat) (v : α → β) (t : Tab β) (h : Tab.wf d t = true) :
    Tab.wf d (l.foldl (fun t a => Tab.set d t (k a) (v a)) t) = true := by
  induction l generalizing t with
  | nil => exact h
  | cons a l ih => exact ih _ (Tab.wf_set _ _ h)

/-! ### Near scratch -/

/-- A core that differs in nothing that `CoreOk` reads. -/
theorem coreOk_of_same {k l : Core} (h : CoreOk k) (h1 : l.s = k.s) (h2 : l.near = k.near) (h3 : l.fullTag = k.fullTag)
    (h4 : l.written = k.written) (h5 : l.nearPoison = k.nearPoison) : CoreOk l := by
  obtain ⟨a1, a2, a3, a4, a5⟩ := h
  constructor
  · rw [show l.s[0] = k.s[0] by simp [h1]]
    exact a1
  · rw [h2]
    exact a2
  · rw [h3]
    exact a3
  · rw [h4]
    exact a4
  · rw [h5]
    exact a5

theorem coreOk_reset : CoreOk Core.reset := ⟨by simp [Core.reset], rfl, rfl, rfl, rfl⟩

/-- The first write of a slot keeps the form. -/
theorem coreOk_openSlot {k : Core} (n : Nat) (h : CoreOk k) : CoreOk (k.openSlot n) := by
  unfold Core.openSlot
  split
  · exact h
  · exact ⟨h.zero, Tab.wf_filter _ h.near, h.tags, Tab.wf_set n true h.written, Tab.wf_filter _ h.poison⟩

theorem coreOk_nearWriteWord {k : Core} (w : Nat) (ps : List (Nat × Byte)) (h : CoreOk k) : CoreOk (k.nearWriteWord w ps).1 := by
  unfold Core.nearWriteWord
  split
  · exact h
  · exact ⟨h.zero, Tab.wf_foldl_set ps (·.1) (·.2) _ h.near, h.tags, h.written, Tab.wf_del _ h.poison⟩

/-- A write to near scratch keeps the form, whatever it opens, merges or refuses. -/
theorem coreOk_nearWrite {k : Core} (off : Nat) (bs : List Byte) (h : CoreOk k) : CoreOk (k.nearWrite off bs).1 := by
  unfold Core.nearWrite
  split
  · exact h
  · have h1 : ∀ (l : List Nat) (k : Core), CoreOk k → CoreOk (l.foldl (fun c n => c.openSlot n) k) := by
      intro l
      induction l with
      | nil => exact fun _ h => h
      | cons a l ih => exact fun k h => ih _ (coreOk_openSlot a h)
    have h2 : ∀ (l : List Nat) (r : Core × List Nat), CoreOk r.1 → CoreOk (l.foldl (fun r i =>
        let w := off / 8 + i
        let t := r.1.nearWriteWord w (wordBytes off bs w)
        (t.1, if t.2 then r.2 ++ [w] else r.2)) r).1 := by
      intro l
      induction l with
      | nil => exact fun _ h => h
      | cons a l ih => exact fun r h => ih _ (coreOk_nearWriteWord _ _ h)
    exact h2 _ _ (h1 _ _ h)

theorem coreOk_setTags {k : Core} (sp : Span) (h : CoreOk k) : CoreOk (k.setTags sp) :=
  ⟨h.zero, h.near, Tab.wf_foldl_set _ (fun n => n) (fun _ => true) _ h.tags, h.written, h.poison⟩

theorem coreOk_takeTags {k : Core} (t : ReadTag) (sps : List Span) (h : CoreOk k) : CoreOk (k.takeTags t sps) := by
  unfold Core.takeTags
  split
  · refine ⟨h.zero, h.near, ?_, h.written, h.poison⟩
    have h1 : ∀ (sp : Span) (l : List Nat) (t : Tab Bool), Tab.wf false t = true → Tab.wf false (l.foldl (fun t n =>
        if sp.1 ≤ n * 1024 + 1023 ∧ n * 1024 + 1023 < sp.1 + sp.2 then Tab.set false t n false else t) t) = true := by
      intro sp l
      induction l with
      | nil => exact fun _ h => h
      | cons a l ih =>
        intro t ht
        refine ih _ ?_
        dsimp only
        split
        · exact Tab.wf_set a false ht
        · exact ht
    have h2 : ∀ (l : List Span) (t : Tab Bool), Tab.wf false t = true → Tab.wf false (l.foldl (fun t sp => (slotsOf sp).foldl (fun t n =>
        if sp.1 ≤ n * 1024 + 1023 ∧ n * 1024 + 1023 < sp.1 + sp.2 then Tab.set false t n false else t) t) t) = true := by
      intro l
      induction l with
      | nil => exact fun _ h => h
      | cons a l ih => exact fun t ht => ih _ (h1 _ _ _ ht)
    exact h2 _ _ h.tags
  · exact h

/-! ### Deep scratch -/

/-- The form depends on deep scratch and the build alone. -/
theorem deepOk_of_same {s t : State} (h : DeepOk s) (hd : t.deep = s.deep) (hb : t.build = s.build) : DeepOk t := by
  constructor
  · rw [hd]
    exact h.rising
  · intro y hy hi
    rw [hd] at hy
    refine h.nonzero y hy ?_
    rw [← hi]
    unfold State.sliceIntact
    rw [hd, hb]
  · rw [hd]
    exact h.poison

theorem deepOk_deepPut {s : State} (a : Nat) (x : Byte) (h : DeepOk s) : DeepOk (s.deepPut a x) := by
  have key : ∀ y ∈ (s.deepPut a x).deep.cells, s.sliceIntact y.1 = true → y.2 ≠ 0 := by
    intro y hy hi
    simp only [State.deepPut] at hy
    split at hy
    · unfold Tab.set at hy
      split at hy
      · exact h.nonzero y (Tab.mem_del hy) hi
      · rcases Tab.mem_put hy with rfl | hy
        · assumption
        · exact h.nonzero y hy hi
    · rcases Tab.mem_put hy with rfl | hy
      · simp_all
      · exact h.nonzero y hy hi
  refine ⟨?_, key, h.poison⟩
  simp only [State.deepPut]
  split
  · unfold Tab.set
    split
    · exact Tab.rising_del _ _ _ h.rising
    · exact Tab.rising_put _ _ _ _ h.rising (Nat.zero_le _)
  · exact Tab.rising_put _ _ _ _ h.rising (Nat.zero_le _)

theorem deepOk_foldl_deepPut {s : State} (l : List (Nat × Byte)) (h : DeepOk s) : DeepOk (l.foldl (fun s p => s.deepPut p.1 p.2) s) := by
  induction l generalizing s with
  | nil => exact h
  | cons a l ih => exact ih (deepOk_deepPut _ _ h)

/-- What a counted event leaves of deep scratch. -/
theorem health_deep (s : State) (a : Nat) (b : Option CoreId) (c d : Nat) :
    (s.health a b c d).deep = s.deep ∧ (s.health a b c d).build = s.build := by
  unfold State.health State.forwardEvent
  dsimp only
  split <;> exact ⟨rfl, rfl⟩

/-- What a corrected word leaves of deep scratch. -/
theorem eccFixed_deep (s : State) (r n : Nat) : (s.eccFixed r n).deep = s.deep ∧ (s.eccFixed r n).build = s.build := by
  unfold State.eccFixed
  split <;> exact ⟨rfl, rfl⟩

theorem deepOk_deepWriteWord {s : State} (w : Nat) (ps : List (Nat × Byte)) (h : DeepOk s) : DeepOk (s.deepWriteWord w ps).1 := by
  unfold State.deepWriteWord
  split
  · refine deepOk_of_same h ?_ ?_
    · unfold State.eccUncorrectable
      exact (health_deep _ _ _ _ _).1
    · unfold State.eccUncorrectable
      exact (health_deep _ _ _ _ _).2
  · refine deepOk_foldl_deepPut ps ?_
    have h2 := fun n => deepOk_of_same h (eccFixed_deep s 1 n).1 (eccFixed_deep s 1 n).2
    exact ⟨(h2 _).rising, (h2 _).nonzero, Tab.wf_del _ (h2 _).poison⟩

/-- A write to deep scratch keeps the form. -/
theorem deepOk_deepWrite {s : State} (a : Nat) (bs : List Byte) (h : DeepOk s) : DeepOk (s.deepWrite a bs).1 := by
  unfold State.deepWrite
  split
  · exact h
  · have h2 : ∀ (l : List Nat) (r : State × Bool), DeepOk r.1 → DeepOk (l.foldl (fun r i =>
        let w := a / 8 + i
        let t := r.1.deepWriteWord w (wordBytes a bs w)
        (t.1, r.2 || t.2)) r).1 := by
      intro l
      induction l with
      | nil => exact fun _ h => h
      | cons b l ih => exact fun r h => ih _ (deepOk_deepWriteWord _ _ h)
    exact h2 _ _ h

/-- A lost slice keeps the form: what was listed of it is gone, and its other bytes are free values. -/
theorem deepOk_loseSlice {s : State} (sl : Fin 4) (keep : Bool) (h : DeepOk s) : DeepOk (s.loseSlice sl keep) := by
  refine ⟨Tab.rising_filter _ _ _ h.rising, ?_, Tab.wf_filter _ h.poison⟩
  intro y hy hi
  refine h.nonzero y (List.mem_of_mem_filter hy) ?_
  simp only [State.sliceIntact, State.loseSlice] at hi ⊢
  by_cases e : s.build.sliceOf y.1 = sl.val
  · rw [e] at hi
    simp [List.getD, sl.isLt] at hi
  · simpa [List.getD, Vector.toList_set, List.getElem?_set, Ne.symm e] using hi

/-! ### Reset, and the form as a value -/

theorem deepOk_reset : DeepOk State.reset :=
  ⟨rfl, fun y hy => by simp [State.reset, State.resetOf, DeepSt.reset] at hy, rfl⟩

theorem memory_wf_reset : Memory.wf State.reset = true := by
  simp [Memory.wf, State.reset, State.resetOf, Core.reset, DeepSt.reset, Tab.wf, Tab.rising]

/-- The canonical form as a value and as the invariant's parts. -/
theorem memory_wf_iff (s : State) : Memory.wf s = true ↔
    (∀ c : CoreId, Tab.wf 0 (s.core c).near = true ∧ Tab.wf false (s.core c).fullTag = true ∧
      Tab.wf false (s.core c).written = true ∧ Tab.wf false (s.core c).nearPoison = true) ∧ DeepOk s := by
  have e : (∀ c : CoreId, Tab.wf 0 (s.core c).near = true ∧ Tab.wf false (s.core c).fullTag = true ∧
      Tab.wf false (s.core c).written = true ∧ Tab.wf false (s.core c).nearPoison = true) ↔
      ∀ k ∈ s.cores.toList, Tab.wf 0 k.near = true ∧ Tab.wf false k.fullTag = true ∧ Tab.wf false k.written = true ∧
        Tab.wf false k.nearPoison = true := by
    constructor
    · intro h k hk
      rw [List.mem_iff_getElem] at hk
      obtain ⟨i, hi, rfl⟩ := hk
      have := h ⟨i, by simpa using hi⟩
      simpa [State.core] using this
    · intro h c
      exact h _ (by simp [State.core])
  rw [e]
  simp only [Memory.wf, Bool.and_eq_true, List.all_eq_true, Bool.or_eq_true, Bool.not_eq_true', decide_eq_true_eq]
  constructor
  · rintro ⟨⟨⟨h1, h2⟩, h3⟩, h4⟩
    exact ⟨fun k hk => ⟨(h1 k hk).1.1.1, (h1 k hk).1.1.2, (h1 k hk).1.2, (h1 k hk).2⟩,
      h2, fun y hy hi => (h3 y hy).resolve_left (by simp [hi]), h4⟩
  · rintro ⟨h1, h2, h3, h4⟩
    exact ⟨⟨⟨fun k hk => ⟨⟨⟨(h1 k hk).1, (h1 k hk).2.1⟩, (h1 k hk).2.2.1⟩, (h1 k hk).2.2.2⟩, h2⟩,
      fun y hy => by
        cases hi : s.sliceIntact y.1
        · exact .inl rfl
        · exact .inr (h3 y hy hi)⟩, h4⟩

end Sys2Proof.Machine
end

