-- ==== Sys2Proof/Laws/KeepsBase.lean ====
section
/-!
SUPPORT. What every piece of a command keeps: the queue, the build, the latched straps, and the invariant of the block. The lemmas of
the KeepsXxx files say it of each function; the rules here compose them.
-/
namespace Sys2Proof.Machine
open Sys2Proof.Safety

/-- What a piece of a command keeps, starting from s0: the queue, the build, the latched straps, and the invariant. -/
structure Keeps (s0 s : State) : Prop where
  pending : s.pending = s0.pending
  build : s.build = s0.build
  latched : s.pins.latched = s0.pins.latched
  inst : s.pins.inst = s0.pins.inst
  master : s.pins.master = s0.pins.master
  fuse : s.pins.fuse = s0.pins.fuse
  inv : Inv s0 → Inv s

structure KeepsOut (s0 : State) (o : Out) : Prop where
  out : ∀ t, o = .next t → Keeps s0 t
structure KeepsServed (s0 : State) (o : Served) : Prop where
  out : ∀ x, o = .ok x → Keeps s0 x.1
  fail : ∀ e t, o = .fail e t → Keeps s0 t
structure KeepsOpt (s0 : State) (o : Option State) : Prop where
  out : ∀ t, o = some t → Keeps s0 t

theorem keeps_refl (s : State) : Keeps s s := ⟨rfl, rfl, rfl, rfl, rfl, rfl, id⟩

theorem keeps_frame {s0 s t : State} (hs : Keeps s0 s) (hp : t.pending = s.pending) (hb : t.build = s.build)
    (h1 : t.pins.latched = s.pins.latched) (h2 : t.pins.inst = s.pins.inst) (h3 : t.pins.master = s.pins.master)
    (h4 : t.pins.fuse = s.pins.fuse) (hc : t.cores = s.cores) (hd : t.deep = s.deep) : Keeps s0 t where
  pending := hp.trans hs.pending
  build := hb.trans hs.build
  latched := h1.trans hs.latched
  inst := h2.trans hs.inst
  master := h3.trans hs.master
  fuse := h4.trans hs.fuse
  inv := fun h => ⟨fun c => by
    have h5 : t.core c = s.core c := by unfold State.core; rw [hc]
    rw [h5]; exact (hs.inv h).cores c, deepOk_of_same (hs.inv h).deep hd hb⟩

theorem keeps_mk {s0 s : State} {a5 a6 a7 a8 a9 a10 a11 a12 a13 a14 a15 a16 a17 a18 a19 a20 a21 a22}
    (hs : Keeps s0 s) : Keeps s0 (State.mk s.pending s.build s.cores s.deep a5 a6 a7 a8 a9 a10 a11 a12 a13 a14 a15 a16 a17 a18 a19 a20 s.pins a21 a22) :=
  keeps_frame hs rfl rfl rfl rfl rfl rfl rfl rfl

theorem keeps_mk_iff {s0 s : State} {a5 a6 a7 a8 a9 a10 a11 a12 a13 a14 a15 a16 a17 a18 a19 a20 a21 a22} :
    Keeps s0 (State.mk s.pending s.build s.cores s.deep a5 a6 a7 a8 a9 a10 a11 a12 a13 a14 a15 a16 a17 a18 a19 a20 s.pins a21 a22) ↔ Keeps s0 s :=
  ⟨fun h => keeps_frame h rfl rfl rfl rfl rfl rfl rfl rfl, fun h => keeps_mk h⟩

theorem keeps_mkDeep {s0 s : State} {d : DeepSt} {a5 a6 a7 a8 a9 a10 a11 a12 a13 a14 a15 a16 a17 a18 a19 a20 a21 a22}
    (hd : DeepOk s → DeepOk { s with deep := d }) (hs : Keeps s0 s)
    : Keeps s0 (State.mk s.pending s.build s.cores d a5 a6 a7 a8 a9 a10 a11 a12 a13 a14 a15 a16 a17 a18 a19 a20 s.pins a21 a22) :=
  ⟨hs.pending, hs.build, hs.latched, hs.inst, hs.master, hs.fuse, fun h => ⟨(hs.inv h).cores, deepOk_of_same (hd (hs.inv h).deep) rfl rfl⟩⟩

theorem keeps_mkCores {s0 s : State} {v : Vector Core 20} {a5 a6 a7 a8 a9 a10 a11 a12 a13 a14 a15 a16 a17 a18 a19 a20 a21 a22}
    (hc : (∀ c : CoreId, CoreOk (s.core c)) → ∀ c : CoreId, CoreOk (v[c.val])) (hs : Keeps s0 s)
    : Keeps s0 (State.mk s.pending s.build v s.deep a5 a6 a7 a8 a9 a10 a11 a12 a13 a14 a15 a16 a17 a18 a19 a20 s.pins a21 a22) :=
  ⟨hs.pending, hs.build, hs.latched, hs.inst, hs.master, hs.fuse, fun h => ⟨fun c => hc (hs.inv h).cores c, deepOk_of_same (hs.inv h).deep rfl rfl⟩⟩

theorem keeps_mkCD {s0 s : State} {d : DeepSt} {v : Vector Core 20}
    {a5 a6 a7 a8 a9 a10 a11 a12 a13 a14 a15 a16 a17 a18 a19 a20 a21 a22}
    (hc : (∀ c : CoreId, CoreOk (s.core c)) → ∀ c : CoreId, CoreOk (v[c.val])) (hd : DeepOk s → DeepOk { s with deep := d })
    (hs : Keeps s0 s) :
    Keeps s0 (State.mk s.pending s.build v d a5 a6 a7 a8 a9 a10 a11 a12 a13 a14 a15 a16 a17 a18 a19 a20 s.pins a21 a22) :=
  ⟨hs.pending, hs.build, hs.latched, hs.inst, hs.master, hs.fuse, fun h => ⟨fun c => hc (hs.inv h).cores c, deepOk_of_same (hd (hs.inv h).deep) rfl rfl⟩⟩

structure KeepsOpt2 {α : Type} (s0 : State) (o : Option (α × State)) : Prop where
  out : ∀ l t, o = some (l, t) → Keeps s0 t

theorem keepsOpt2_none {α : Type} {s0 : State} : KeepsOpt2 (α := α) s0 none := ⟨by intro l t h; cases h⟩
theorem keepsOpt2_some {α : Type} {s0 s : State} {x : α} (hs : Keeps s0 s)
    : KeepsOpt2 s0 (some (x, s)) := ⟨by intro l t h; cases h; exact hs⟩

theorem keepsOpt_map {s0 : State} {o : Option State} {f : State → State} (hf : ∀ s, Keeps s0 s → Keeps s0 (f s)) (ho
    : KeepsOpt s0 o) : KeepsOpt s0 (o.map f) :=
  ⟨by
    intro t h
    obtain ⟨a, ha, rfl⟩ := Option.map_eq_some_iff.mp h
    exact hf _ (ho.out _ ha)⟩

theorem keeps_modCore {s0 s : State} {c : CoreId} {f : Core → Core} (hf : CoreOk (s.core c) → CoreOk (f (s.core c)))
    (hs : Keeps s0 s) : Keeps s0 (s.modCore c f) :=
  ⟨hs.pending, hs.build, hs.latched, hs.inst, hs.master, hs.fuse, fun h => ⟨fun d => by
    rw [core_modCore_eq]
    split
    · rename_i h1; subst h1; exact hf ((hs.inv h).cores _)
    · exact (hs.inv h).cores d, deepOk_of_same (hs.inv h).deep rfl rfl⟩⟩

theorem keeps_foldl {s0 : State} {α : Type} {l : List α} {f : State → α → State} {s : State}
    (hf : ∀ s a, Keeps s0 s → Keeps s0 (f s a)) (hs : Keeps s0 s) : Keeps s0 (l.foldl f s) := by
  induction l generalizing s with
  | nil => exact hs
  | cons a l ih => exact ih (hf _ _ hs)

theorem keepsOut_next {s0 s : State} (hs : Keeps s0 s) : KeepsOut s0 (.next s) := ⟨by intro t h; cases h; exact hs⟩
theorem keepsOut_fault {s0 : State} {f} : KeepsOut s0 (.fault f) := ⟨by intro t h; cases h⟩
theorem keepsOut_refused {s0 : State} {f} : KeepsOut s0 (.refused f) := ⟨by intro t h; cases h⟩
theorem keepsServed_error {s0 : State} {e} : KeepsServed s0 (.error e) := ⟨by (intro t h; cases h), by (intro e t h; cases h)⟩
theorem keepsServed_fail {s0 s : State} {e} (hs : Keeps s0 s)
    : KeepsServed s0 (.fail e s) := ⟨by (intro t h; cases h), by (intro e t h; cases h; exact hs)⟩
theorem keepsServed_ok {s0 s : State} {bs} (hs : Keeps s0 s)
    : KeepsServed s0 (.ok (s, bs)) := ⟨by (intro t h; cases h; exact hs), by (intro e t h; cases h)⟩
theorem keepsOpt_some {s0 s : State} (hs : Keeps s0 s) : KeepsOpt s0 (some s) := ⟨by intro t h; cases h; exact hs⟩
theorem keepsOpt_none {s0 : State} : KeepsOpt s0 none := ⟨by intro t h; cases h⟩

theorem ok_foldl {α : Type} {l : List α} {f : Core → α → Core} {k : Core}
    (hf : ∀ k a, CoreOk k → CoreOk (f k a)) (hk : CoreOk k) : CoreOk (l.foldl f k) := by
  induction l generalizing k with
  | nil => exact hk
  | cons a l ih => exact ih (hf _ _ hk)

theorem ok_mk {k : Core} {x0 x1 x3 x4 x5 x6 x7 x8 x9 x10 x11 x12 x13 x14 x15 x16 x17 x18 x19 x20 x21 x22 x23 x24 x25 x26 x27 x32 x33 x34 x35 x36 x37 x38 x39 x40 x41 x42 x43 x44 x45 x46 x47 x48 x49 x50 x51 x52 x53 x54 x55 x56 x57 x58 x59 x60 x61 x62 x63 x64 x65 x66 x67 x68} (hk : CoreOk k) : CoreOk (Core.mk x0 x1 k.s x3 x4 x5 x6 x7 x8 x9 x10 x11 x12 x13 x14 x15 x16 x17 x18 x19 x20 x21 x22 x23 x24 x25 x26 x27 k.near k.fullTag k.written k.nearPoison x32 x33 x34 x35 x36 x37 x38 x39 x40 x41 x42 x43 x44 x45 x46 x47 x48 x49 x50 x51 x52 x53 x54 x55 x56 x57 x58 x59 x60 x61 x62 x63 x64 x65 x66 x67 x68) :=
  coreOk_of_same hk rfl rfl rfl rfl rfl
theorem ok_mk_iff {k : Core} {x0 x1 x3 x4 x5 x6 x7 x8 x9 x10 x11 x12 x13 x14 x15 x16 x17 x18 x19 x20 x21 x22 x23 x24 x25 x26 x27 x32 x33 x34 x35 x36 x37 x38 x39 x40 x41 x42 x43 x44 x45 x46 x47 x48 x49 x50 x51 x52 x53 x54 x55 x56 x57 x58 x59 x60 x61 x62 x63 x64 x65 x66 x67 x68} : CoreOk (Core.mk x0 x1 k.s x3 x4 x5 x6 x7 x8 x9 x10 x11 x12 x13 x14 x15 x16 x17 x18 x19 x20 x21 x22 x23 x24 x25 x26 x27 k.near k.fullTag k.written k.nearPoison x32 x33 x34 x35 x36 x37 x38 x39 x40 x41 x42 x43 x44 x45 x46 x47 x48 x49 x50 x51 x52 x53 x54 x55 x56 x57 x58 x59 x60 x61 x62 x63 x64 x65 x66 x67 x68) ↔ CoreOk k :=
  ⟨fun hk => coreOk_of_same hk rfl rfl rfl rfl rfl, ok_mk⟩
theorem keeps_modCoreI {s0 s : State} {c : CoreId} {f : Core → Core} (hf : Inv s0 → CoreOk (s.core c) → CoreOk (f (s.core c)))
    (hs : Keeps s0 s) : Keeps s0 (s.modCore c f) :=
  ⟨hs.pending, hs.build, hs.latched, hs.inst, hs.master, hs.fuse, fun h => (keeps_modCore (hf h) hs).inv h⟩

theorem Keeps.core {s0 s : State} (hs : Keeps s0 s) (h : Inv s0) (c : CoreId) : CoreOk (s.core c) := (hs.inv h).cores c

theorem keepsOut_ite {s0 : State} {c : Prop} [Decidable c] {a b : Out} (ha : KeepsOut s0 a) (hb : KeepsOut s0 b)
    : KeepsOut s0 (if c then a else b) := by
  split
  · exact ha
  · exact hb
theorem keepsOut_dite {s0 : State} {c : Prop} [Decidable c] {a : c → Out} {b : ¬c → Out} (ha : ∀ h, KeepsOut s0 (a h))
    (hb : ∀ h, KeepsOut s0 (b h)) : KeepsOut s0 (dite c a b) := by
  split
  · exact ha _
  · exact hb _

theorem keeps_id {s0 s : State} (h : Keeps s0 s) : Keeps s0 s := h
theorem keepsOut_id {s0 : State} {o : Out} (h : KeepsOut s0 o) : KeepsOut s0 o := h
theorem keepsServed_id {s0 : State} {o : Served} (h : KeepsServed s0 o) : KeepsServed s0 o := h
theorem keepsOpt_id {s0 : State} {o : Option State} (h : KeepsOpt s0 o) : KeepsOpt s0 o := h
theorem ok_id {k : Core} (h : CoreOk k) : CoreOk k := h
end Sys2Proof.Machine
end

