-- ==== Sys2Proof/Laws/KeepsOps.lean ====
section
/-!
SUPPORT. Every piece of a command keeps what `Keeps` says: shared operations, frequency, spares, the end of a run.
One lemma per function, named after it.
-/
set_option maxRecDepth 20000
namespace Sys2Proof.Machine
open Sys2Proof.Safety

/-! ### ImageFields -/

theorem ok_withCode {k : Core} {code : List Byte} (hk : CoreOk k) : CoreOk (Core.withCode k code) := by
  unfold Core.withCode
  try dsimp only
  repeat' first
    | with_reducible assumption | (with_reducible refine ok_id ?_; simp only [ok_mk_iff])

theorem ok_withImage {k : Core} {img : ImgRec} {twin : Bool} (hk : CoreOk k) : CoreOk (Core.withImage k img twin) := by
  unfold Core.withImage
  try dsimp only
  repeat' first
    | with_reducible assumption | with_reducible apply ok_withCode
    | (with_reducible refine ok_id ?_; simp only [ok_mk_iff])

/-! ### Ops -/

theorem keeps_modPart {s0 : State} {s : State} {p : PartId} {f : Partition → Partition} (hs : Keeps s0 s)
    : Keeps s0 (State.modPart s p f) := by
  unfold State.modPart
  try dsimp only
  repeat' first
    | with_reducible assumption | (with_reducible refine keeps_id ?_; simp only [keeps_mk_iff])

theorem keeps_modQueue {s0 : State} {s : State} {q : QueueId} {f : Queue → Queue} (hs : Keeps s0 s)
    : Keeps s0 (State.modQueue s q f) := by
  unfold State.modQueue
  try dsimp only
  repeat' first
    | with_reducible assumption | (with_reducible refine keeps_id ?_; simp only [keeps_mk_iff])

theorem keeps_modPort {s0 : State} {s : State} {n : PortId} {f : Port → Port} (hs : Keeps s0 s)
    : Keeps s0 (State.modPort s n f) := by
  unfold State.modPort
  try dsimp only
  repeat' first
    | with_reducible assumption | (with_reducible refine keeps_id ?_; simp only [keeps_mk_iff])

theorem keeps_irq {s0 : State} {s : State} {bit : Nat} (hs : Keeps s0 s) : Keeps s0 (State.irq s bit) := by
  unfold State.irq
  try dsimp only
  repeat' first
    | with_reducible assumption | (with_reducible refine keeps_id ?_; simp only [keeps_mk_iff])

theorem keeps_modLink {s0 : State} {s : State} {l : LinkId} {f : LinkPort → LinkPort} (hs : Keeps s0 s)
    : Keeps s0 (State.modLink s l f) := by
  unfold State.modLink
  try dsimp only
  repeat' first
    | with_reducible assumption | (with_reducible refine keeps_id ?_; simp only [keeps_mk_iff])

theorem keeps_sendMsg {s0 : State} {s : State} {m : TxMsg} (hs : Keeps s0 s) : Keeps s0 (State.sendMsg s m) := by
  unfold State.sendMsg
  try dsimp only
  repeat' first
    | with_reducible assumption | with_reducible apply keeps_modLink

theorem keeps_forwardEvent {s0 : State} {s : State} {r : QWord} (hs : Keeps s0 s) : Keeps s0 (State.forwardEvent s r) := by
  unfold State.forwardEvent
  try dsimp only
  repeat' first
    | with_reducible assumption | with_reducible apply keeps_sendMsg | split

theorem keeps_health {s0 : State} {s : State} {code : Nat} {core : Option CoreId} {cluster detail : Nat} (hs : Keeps s0 s)
    : Keeps s0 (State.health s code core cluster detail) := by
  unfold State.health
  try dsimp only
  repeat' first
    | with_reducible assumption | with_reducible apply keeps_forwardEvent | with_reducible apply keeps_irq
    | (with_reducible refine keeps_id ?_; simp only [keeps_mk_iff])

theorem keeps_rtFault {s0 : State} {s : State} {code : Nat} {core : Option CoreId} {detail : Nat} (hs : Keeps s0 s)
    : Keeps s0 (State.rtFault s code core detail) := by
  unfold State.rtFault
  try dsimp only
  repeat' first
    | with_reducible assumption | with_reducible apply keeps_forwardEvent | with_reducible apply keeps_irq
    | (with_reducible refine keeps_id ?_; simp only [keeps_mk_iff])

theorem keeps_eccCorrected {s0 : State} {s : State} {r : Nat} (hs : Keeps s0 s) : Keeps s0 (State.eccCorrected s r) := by
  unfold State.eccCorrected
  try dsimp only
  repeat' first
    | with_reducible assumption | (with_reducible refine keeps_id ?_; simp only [keeps_mk_iff])

theorem keeps_eccFixed {s0 : State} {s : State} {r n : Nat} (hs : Keeps s0 s) : Keeps s0 (State.eccFixed s r n) := by
  unfold State.eccFixed
  try dsimp only
  repeat' first
    | with_reducible assumption | (with_reducible refine keeps_id ?_; simp only [keeps_mk_iff])
    | (with_reducible refine ok_id ?_; simp only [ok_mk_iff]) | split

theorem keeps_eccUncorrectable {s0 : State} {s : State} {r loc : Nat} {core : Option CoreId} {cluster : Nat} (hs : Keeps s0 s)
    : Keeps s0 (State.eccUncorrectable s r loc core cluster) := by
  unfold State.eccUncorrectable
  try dsimp only
  repeat' first
    | with_reducible assumption | with_reducible apply keeps_health
    | (with_reducible refine keeps_id ?_; simp only [keeps_mk_iff])

theorem keeps_deepPut {s0 s : State} {dsa : Nat} {x : Byte} (hs : Keeps s0 s) : Keeps s0 (State.deepPut s dsa x) := by
  have h := fun (h : DeepOk s) => deepOk_deepPut dsa x h
  unfold State.deepPut at h ⊢
  exact keeps_mkDeep h hs

theorem keeps_fixDeep {s0 : State} {s : State} {rs : List (Nat × Nat)} (hs : Keeps s0 s) : Keeps s0 (State.fixDeep s rs) := by
  unfold State.fixDeep
  try dsimp only
  repeat' first
    | with_reducible assumption | with_reducible apply keeps_eccFixed | split | intro _ | dsimp only
    | refine keeps_mkDeep (fun h => ⟨h.rising, h.nonzero, h.poison⟩) ?_

theorem keeps_deepWriteWord {s0 s : State} {w : Nat} {ps : List (Nat × Byte)} (hs : Keeps s0 s)
    : Keeps s0 (State.deepWriteWord s w ps).1 := by
  unfold State.deepWriteWord
  split
  · dsimp only
    apply keeps_eccUncorrectable
    simp only [keeps_mk_iff]
    exact hs
  · dsimp only
    refine keeps_foldl (fun _ _ h => keeps_deepPut h) ?_
    refine keeps_mkDeep (fun h => ⟨h.rising, h.nonzero, Tab.wf_del _ h.poison⟩) (keeps_eccFixed hs)

theorem keeps_deepWrite {s0 s : State} {dsa : Nat} {bs : List Byte} (hs : Keeps s0 s)
    : Keeps s0 (State.deepWrite s dsa bs).1 := by
  unfold State.deepWrite
  split
  · exact hs
  · dsimp only
    generalize List.range _ = l
    have h : ∀ (l : List Nat) (r : State × Bool), Keeps s0 r.1 → Keeps s0 (l.foldl (fun r i =>
      (((r.1.deepWriteWord (dsa / 8 + i) (wordBytes dsa bs (dsa / 8 + i))).1, r.2 || (r.1.deepWriteWord (dsa / 8 + i) (wordBytes dsa bs (dsa / 8 + i))).2) : State × Bool)) r).1 := by
      intro l
      induction l with
      | nil => exact fun _ h => h
      | cons a l ih => exact fun r h => ih _ (keeps_deepWriteWord h)
    exact h _ _ hs

theorem keeps_loseSlice {s0 s : State} {sl : Fin 4} {keepJournal : Bool} (hs : Keeps s0 s)
    : Keeps s0 (State.loseSlice s sl keepJournal) := by
  have h := fun (h : DeepOk s) => deepOk_loseSlice sl keepJournal h
  unfold State.loseSlice at h ⊢
  exact keeps_mkDeep h hs

theorem keeps_modStep {s0 : State} {s : State} {aseq : Nat} {f : StepRec → StepRec} (hs : Keeps s0 s)
    : Keeps s0 (State.modStep s aseq f) := by
  unfold State.modStep
  try dsimp only
  repeat' first
    | with_reducible assumption | (with_reducible refine keeps_id ?_; simp only [keeps_mk_iff])

theorem keeps_journalWrite {s0 : State} {s : State} {x : StepRec} (hs : Keeps s0 s) : Keeps s0 (State.journalWrite s x) := by
  unfold State.journalWrite
  try dsimp only
  repeat' first
    | with_reducible assumption | (with_reducible refine keeps_id ?_; simp only [keeps_mk_iff])
    | (with_reducible refine ok_id ?_; simp only [ok_mk_iff]) | split

theorem keeps_transition {s0 : State} {s : State} {aseq : Nat} {st : StepState} {status : Byte} (hs : Keeps s0 s)
    : Keeps s0 (State.transition s aseq st status) := by
  unfold State.transition
  try dsimp only
  repeat' first
    | with_reducible assumption | with_reducible apply keeps_journalWrite | with_reducible apply keeps_modStep
    | split

theorem keeps_session {s0 : State} {s : State} {ast : Nat} {f : Session → Session} (hs : Keeps s0 s)
    : Keeps s0 (State.session s ast f) := by
  unfold State.session
  try dsimp only
  repeat' first
    | with_reducible assumption | (with_reducible refine keeps_id ?_; simp only [keeps_mk_iff])

theorem keeps_freeRetiring {s0 : State} {s : State} (hs : Keeps s0 s) : Keeps s0 (State.freeRetiring s) := by
  unfold State.freeRetiring
  try dsimp only
  repeat' first
    | with_reducible assumption | (with_reducible refine keeps_id ?_; simp only [keeps_mk_iff])

theorem keeps_headWaits {s0 : State} {s : State} {q : QueueId} (hs : Keeps s0 s) : Keeps s0 (State.headWaits s q) := by
  unfold State.headWaits
  try dsimp only
  repeat' first
    | with_reducible assumption | with_reducible apply keeps_modStep | split

theorem keeps_dropStep {s0 : State} {s : State} {aseq : Nat} (hs : Keeps s0 s) : Keeps s0 (State.dropStep s aseq) := by
  unfold State.dropStep
  try dsimp only
  repeat' first
    | with_reducible assumption | with_reducible apply keeps_freeRetiring | with_reducible apply keeps_headWaits
    | (with_reducible refine keeps_id ?_; simp only [keeps_mk_iff])
    | (with_reducible refine ok_id ?_; simp only [ok_mk_iff]) | split

theorem keeps_postRecord {s0 : State} {s : State} {q : QueueId} {p : PartId} {commits : Option Nat} {qos : Fin 4} {qseq : Nat}
    {bs : List Byte} (hs : Keeps s0 s) : Keeps s0 (State.postRecord s q p commits qos qseq bs) := by
  unfold State.postRecord
  try dsimp only
  repeat' first
    | with_reducible assumption | (with_reducible refine keeps_id ?_; simp only [keeps_mk_iff])

theorem keeps_failStep {s0 : State} {s : State} {aseq : Nat} {status : Byte} {detail : Nat} (hs : Keeps s0 s)
    : Keeps s0 (State.failStep s aseq status detail) := by
  unfold State.failStep
  try dsimp only
  repeat' first
    | with_reducible assumption | with_reducible apply keeps_dropStep | with_reducible apply keeps_modStep
    | with_reducible apply keeps_postRecord | with_reducible apply keeps_transition | split

theorem keeps_stopQueue {s0 : State} {s : State} {q : QueueId} (hs : Keeps s0 s) : Keeps s0 (State.stopQueue s q) := by
  unfold State.stopQueue
  try dsimp only
  repeat' first
    | with_reducible assumption | with_reducible apply keeps_health | with_reducible apply keeps_modQueue | split

theorem ok_abandon {c : Core} (hc : CoreOk c) : CoreOk (Core.abandon c) := by
  unfold Core.abandon
  try dsimp only
  repeat' first
    | with_reducible assumption | (with_reducible refine ok_id ?_; simp only [ok_mk_iff])

theorem keeps_landDeep {s0 : State} {s : State} {c : CoreId} (hs : Keeps s0 s) : Keeps s0 (State.landDeep s c) := by
  unfold State.landDeep
  try dsimp only
  repeat' first
    | with_reducible assumption | with_reducible apply keeps_deepWrite
    | with_reducible refine keeps_foldl (fun _ _ _ => ?_) ?_

theorem keeps_dropRemote {s0 : State} {s : State} {cs : List CoreId} (hs : Keeps s0 s) : Keeps s0 (State.dropRemote s cs) := by
  unfold State.dropRemote
  try dsimp only
  repeat' first
    | with_reducible assumption | (with_reducible refine keeps_id ?_; simp only [keeps_mk_iff])

theorem keeps_stopRun {s0 : State} {s : State} {p : PartId} {why : StopWhy} (hs : Keeps s0 s)
    : Keeps s0 (State.stopRun s p why) := by
  unfold State.stopRun
  try dsimp only
  repeat' first
    | with_reducible assumption | with_reducible apply keeps_dropRemote | with_reducible apply keeps_landDeep
    | with_reducible refine keeps_modCoreI (fun _ _ => ?_) ?_
    | (with_reducible refine Keeps.core ?_ (by assumption) _) | with_reducible apply keeps_modPart
    | (with_reducible refine keeps_id ?_; simp only [keeps_mk_iff])
    | with_reducible refine keeps_foldl (fun _ _ _ => ?_) ?_ | with_reducible apply ok_abandon
    | (with_reducible refine ok_id ?_; simp only [ok_mk_iff]) | split

theorem keeps_failRun {s0 : State} {s : State} {p : PartId} {status : Byte} {detail : Nat} (hs : Keeps s0 s)
    : Keeps s0 (State.failRun s p status detail) := by
  unfold State.failRun
  try dsimp only
  repeat' first
    | with_reducible assumption | with_reducible apply keeps_stopRun

theorem keeps_killRun {s0 : State} {s : State} {p : PartId} {cause : Byte} (hs : Keeps s0 s)
    : Keeps s0 (State.killRun s p cause) := by
  unfold State.killRun
  try dsimp only
  repeat' first
    | with_reducible assumption | with_reducible apply keeps_modPart | with_reducible apply keeps_stopRun | split

theorem keeps_charge {s0 : State} {s : State} {p : PartId} {q : QueueId} {amount : Nat} {killed : Bool} (hs : Keeps s0 s)
    : Keeps s0 (State.charge s p q amount killed) := by
  unfold State.charge
  try dsimp only
  repeat' first
    | with_reducible assumption | with_reducible apply keeps_modPart | with_reducible apply keeps_modQueue

theorem ok_behind {k lead : Core} (hk : CoreOk k) (hl : CoreOk lead) : CoreOk (Core.behind k lead) :=
  ⟨hl.zero, hl.near, hl.tags, hl.written, hk.poison⟩

theorem ok_member {s : State} {c d : CoreId} (h : ∀ c, CoreOk (s.core c)) : CoreOk (State.member s c d) := by
  unfold State.member
  split
  · exact h _
  · exact ok_behind (h _) (h _)

theorem keeps_followLeads {s0 s : State} (hs : Keeps s0 s) : Keeps s0 (State.followLeads s) := by
  unfold State.followLeads
  refine keeps_foldl (fun t x ht => ?_) hs
  split
  · split
    · exact ht
    · exact keeps_modCoreI (fun hi hk => ok_behind hk (ht.core hi _)) ht
  · exact ht

theorem keeps_followRun {s0 : State} {s : State} (hs : Keeps s0 s) : Keeps s0 (State.followRun s) := by
  unfold State.followRun
  try dsimp only
  repeat' first
    | with_reducible assumption | with_reducible apply keeps_followLeads | split

theorem keeps_failCore {s0 : State} {s : State} {c : CoreId} {status : Byte} {detail : Nat} (hs : Keeps s0 s)
    : Keeps s0 (State.failCore s c status detail) := by
  unfold State.failCore
  try dsimp only
  repeat' first
    | with_reducible assumption | with_reducible apply keeps_failRun | split

/-! ### Pstate -/

theorem keeps_modPower {s0 : State} {s : State} {f : PowerSt → PowerSt} (hs : Keeps s0 s) : Keeps s0 (State.modPower s f) := by
  unfold State.modPower
  try dsimp only
  repeat' first
    | with_reducible assumption | (with_reducible refine keeps_id ?_; simp only [keeps_mk_iff])

theorem keeps_startChange {s0 : State} {s : State} {t : Fin 6} (hs : Keeps s0 s) : Keeps s0 (State.startChange s t) := by
  unfold State.startChange
  try dsimp only
  repeat' first
    | with_reducible assumption | (with_reducible refine keeps_id ?_; simp only [keeps_mk_iff])
    | (with_reducible refine ok_id ?_; simp only [ok_mk_iff]) | split

theorem keeps_orderP {s0 : State} {s : State} {t : Fin 6} (hs : Keeps s0 s) : Keeps s0 (State.orderP s t) := by
  unfold State.orderP
  try dsimp only
  repeat' first
    | with_reducible assumption | with_reducible apply keeps_modPower | with_reducible apply keeps_startChange
    | split

theorem keeps_sendHello {s0 : State} {s : State} {l : LinkId} (hs : Keeps s0 s) : Keeps s0 (State.sendHello s l) := by
  unfold State.sendHello
  try dsimp only
  repeat' first
    | with_reducible assumption | with_reducible apply keeps_modLink | split

theorem keeps_sendHellos {s0 : State} {s : State} (hs : Keeps s0 s) : Keeps s0 (State.sendHellos s) := by
  unfold State.sendHellos
  try dsimp only
  repeat' first
    | with_reducible assumption | with_reducible apply keeps_sendHello

theorem keeps_masterOrder {s0 : State} {s : State} (hs : Keeps s0 s) : Keeps s0 (State.masterOrder s) := by
  unfold State.masterOrder
  try dsimp only
  repeat' first
    | with_reducible assumption | with_reducible apply keeps_sendMsg
    | (with_reducible refine keeps_id ?_; simp only [keeps_mk_iff])
    | with_reducible refine keeps_foldl (fun _ _ _ => ?_) ?_
    | (with_reducible refine ok_id ?_; simp only [ok_mk_iff]) | split

theorem keeps_relimit {s0 : State} {s : State} (hs : Keeps s0 s) : Keeps s0 (State.relimit s) := by
  unfold State.relimit
  try dsimp only
  repeat' first
    | with_reducible assumption | with_reducible apply keeps_masterOrder | with_reducible apply keeps_orderP
    | with_reducible apply keeps_sendMsg | (with_reducible refine keeps_id ?_; simp only [keeps_mk_iff])
    | (with_reducible refine ok_id ?_; simp only [ok_mk_iff]) | split

theorem keeps_answerAlert {s0 : State} {s : State} (hs : Keeps s0 s) : Keeps s0 (State.answerAlert s) := by
  unfold State.answerAlert
  try dsimp only
  repeat' first
    | with_reducible assumption | with_reducible apply keeps_health | with_reducible apply keeps_modPower
    | with_reducible apply keeps_relimit

theorem keeps_oldAlert {s0 : State} {s : State} (hs : Keeps s0 s) : Keeps s0 (State.oldAlert s) := by
  unfold State.oldAlert
  try dsimp only
  repeat' first
    | with_reducible assumption | with_reducible apply keeps_answerAlert | split

/-! ### Spares -/

theorem keeps_substitute {s0 : State} {s : State} {cl : ClusterId} {i : Fin 5} (hs : Keeps s0 s)
    : Keeps s0 (State.substitute s cl i) := by
  unfold State.substitute
  try dsimp only
  repeat' first
    | with_reducible assumption | with_reducible apply keeps_health
    | (with_reducible refine keeps_id ?_; simp only [keeps_mk_iff])

theorem keeps_killMember {s0 : State} {s : State} {c : CoreId} (hs : Keeps s0 s) : Keeps s0 (State.killMember s c) := by
  unfold State.killMember
  try dsimp only
  repeat' first
    | with_reducible assumption | with_reducible apply keeps_killRun | split

theorem keeps_outOfService {s0 : State} {s : State} {c : CoreId} {why : Nat} (hs : Keeps s0 s)
    : Keeps s0 (State.outOfService s c why) := by
  unfold State.outOfService
  try dsimp only
  repeat' first
    | with_reducible assumption | with_reducible apply keeps_health
    | with_reducible refine keeps_modCoreI (fun _ _ => ?_) ?_
    | (with_reducible refine Keeps.core ?_ (by assumption) _)
    | (with_reducible refine keeps_id ?_; simp only [keeps_mk_iff]) | with_reducible exact coreOk_reset

theorem keeps_fillIndex {s0 : State} {s : State} {c : CoreId} (hs : Keeps s0 s) : Keeps s0 (State.fillIndex s c) := by
  unfold State.fillIndex
  try dsimp only
  repeat' first
    | with_reducible assumption | with_reducible apply keeps_substitute | split

theorem keeps_retire {s0 : State} {s : State} {c : CoreId} {why : Nat} (hs : Keeps s0 s) : Keeps s0 (State.retire s c why) := by
  unfold State.retire
  try dsimp only
  repeat' first
    | with_reducible assumption | with_reducible apply keeps_fillIndex | with_reducible apply keeps_killMember
    | with_reducible apply keeps_outOfService

theorem keeps_disableArray {s0 : State} {s : State} {c : CoreId} {j : Nat} (hs : Keeps s0 s)
    : Keeps s0 (State.disableArray s c j) := by
  unfold State.disableArray
  try dsimp only
  repeat' first
    | with_reducible assumption | with_reducible apply keeps_health | with_reducible apply keeps_killMember
    | with_reducible apply keeps_retire | (with_reducible refine keeps_id ?_; simp only [keeps_mk_iff])
    | (with_reducible refine ok_id ?_; simp only [ok_mk_iff]) | split

theorem keeps_preload {s0 s : State} {p : PartId} {img : ImgRec} {cs : List CoreId} (hs : Keeps s0 s)
    : Keeps s0 (State.preload s p img cs) := by
  unfold State.preload
  refine keeps_foldl (fun t c ht => keeps_modCore (fun hk => ?_) ht) (keeps_foldl (fun t c ht => keeps_eccUncorrectable ht) (keeps_fixDeep hs))
  simp only [ok_mk_iff]
  exact ok_withImage hk

theorem keeps_borrow {s0 : State} {s : State} (hs : Keeps s0 s) : Keeps s0 (State.borrow s) := by
  unfold State.borrow
  try dsimp only
  repeat' first
    | with_reducible assumption | with_reducible apply keeps_health | with_reducible apply keeps_killRun
    | with_reducible apply keeps_preload | with_reducible apply keeps_rtFault
    | (with_reducible refine keeps_id ?_; simp only [keeps_mk_iff])
    | (with_reducible refine ok_id ?_; simp only [ok_mk_iff]) | split

theorem keeps_haltRt {s0 : State} {s : State} {reason : Nat} (hs : Keeps s0 s) : Keeps s0 (State.haltRt s reason) := by
  unfold State.haltRt
  try dsimp only
  repeat' first
    | with_reducible assumption | with_reducible apply keeps_rtFault
    | (with_reducible refine keeps_id ?_; simp only [keeps_mk_iff])

/-! ### RunEnd -/

theorem keeps_raiseTime {s0 : State} {s : State} {q : QueueId} {x : StepRec} (hs : Keeps s0 s)
    : Keeps s0 (State.raiseTime s q x) := by
  unfold State.raiseTime
  try dsimp only
  repeat' first
    | with_reducible assumption | with_reducible apply keeps_modQueue | split

theorem keeps_enterAutumn {s0 : State} {s : State} (hs : Keeps s0 s) : Keeps s0 (State.enterAutumn s) := by
  unfold State.enterAutumn
  try dsimp only
  repeat' first
    | with_reducible assumption | with_reducible apply keeps_modPower
    | (with_reducible refine keeps_id ?_; simp only [keeps_mk_iff])

theorem keeps_settleSeason {s0 : State} {s : State} (hs : Keeps s0 s) : Keeps s0 (State.settleSeason s) := by
  unfold State.settleSeason
  try dsimp only
  repeat' first
    | with_reducible assumption | with_reducible apply keeps_enterAutumn | with_reducible apply keeps_modPower
    | split

theorem keeps_closeRun {s0 : State} {s : State} {p : PartId} {r : RunSt} (hs : Keeps s0 s)
    : Keeps s0 (State.closeRun s p r) := by
  unfold State.closeRun
  try dsimp only
  repeat' first
    | with_reducible assumption | with_reducible apply keeps_followLeads
    | with_reducible refine keeps_modCoreI (fun _ _ => ?_) ?_
    | (with_reducible refine Keeps.core ?_ (by assumption) _) | with_reducible apply keeps_modPart
    | (with_reducible refine keeps_id ?_; simp only [keeps_mk_iff])
    | with_reducible refine keeps_foldl (fun _ _ _ => ?_) ?_
    | (with_reducible refine ok_id ?_; simp only [ok_mk_iff]) | split

theorem keeps_endKilled {s0 : State} {s : State} {p : PartId} {cause : Byte} (hs : Keeps s0 s)
    : Keeps s0 (State.endKilled s p cause) := by
  unfold State.endKilled
  try dsimp only
  repeat' first
    | with_reducible assumption | with_reducible apply keeps_charge | with_reducible apply keeps_closeRun
    | with_reducible apply keeps_failStep | with_reducible apply keeps_modStep | with_reducible apply keeps_session
    | with_reducible apply keeps_settleSeason | with_reducible apply keeps_transition | split

theorem keeps_endFailed {s0 : State} {s : State} {p : PartId} {status : Byte} {detail : Nat} (hs : Keeps s0 s)
    : Keeps s0 (State.endFailed s p status detail) := by
  unfold State.endFailed
  try dsimp only
  repeat' first
    | with_reducible assumption | with_reducible apply keeps_charge | with_reducible apply keeps_closeRun
    | with_reducible apply keeps_failStep | with_reducible apply keeps_haltRt | with_reducible apply keeps_modStep
    | with_reducible apply keeps_rtFault | with_reducible apply keeps_settleSeason | split

theorem keeps_commitLost {s0 : State} {s : State} {p : PartId} {status : Byte} (hs : Keeps s0 s)
    : Keeps s0 (State.commitLost s p status) := by
  unfold State.commitLost
  try dsimp only
  repeat' first
    | with_reducible assumption | with_reducible apply keeps_endKilled
    | (with_reducible refine keeps_id ?_; simp only [keeps_mk_iff])

end Sys2Proof.Machine
end

