-- ==== Sys2Proof/Laws/KeepsPorts.lean ====
section
/-!
SUPPORT. Every piece of a command keeps what `Keeps` says: versions, translation, ports, starts, lockstep.
One lemma per function, named after it.
-/
set_option maxRecDepth 20000
namespace Sys2Proof.Machine
open Sys2Proof.Safety

/-! ### Versions -/

theorem keeps_dropSlice {s0 : State} {s : State} {sl : Fin 4} {keepJournal : Bool} (hs : Keeps s0 s)
    : Keeps s0 (State.dropSlice s sl keepJournal) := by
  unfold State.dropSlice
  try dsimp only
  repeat' first
    | with_reducible assumption | with_reducible apply keeps_loseSlice
    | (with_reducible refine keeps_id ?_; simp only [keeps_mk_iff])

theorem keeps_modSlot {s0 : State} {s : State} {i : Fin 256} {f : WSlot → WSlot} (hs : Keeps s0 s)
    : Keeps s0 (State.modSlot s i f) := by
  unfold State.modSlot
  try dsimp only
  repeat' first
    | with_reducible assumption | (with_reducible refine keeps_id ?_; simp only [keeps_mk_iff])

theorem keeps_deepScramble {s0 : State} {s : State} {r : Region} (hs : Keeps s0 s) : Keeps s0 (State.deepScramble s r) := by
  unfold State.deepScramble
  try dsimp only
  repeat' first
    | with_reducible assumption | with_reducible apply keeps_deepPut
    | with_reducible refine keeps_foldl (fun _ _ _ => ?_) ?_ | split | intro _ | dsimp only
    | refine keeps_mkDeep (fun h => ⟨h.rising, h.nonzero, h.poison⟩) ?_

theorem keeps_failVersion {s0 : State} {s : State} {i : Fin 256} {r : Region} {cause : Nat} (hs : Keeps s0 s)
    : Keeps s0 (State.failVersion s i r cause) := by
  unfold State.failVersion
  try dsimp only
  repeat' first
    | with_reducible assumption | with_reducible apply keeps_deepScramble | with_reducible apply keeps_irq
    | with_reducible apply keeps_modSlot

theorem keeps_dropLoads {s0 : State} {s : State} {n : PortId} (hs : Keeps s0 s) : Keeps s0 (State.dropLoads s n) := by
  unfold State.dropLoads
  try dsimp only
  repeat' first
    | with_reducible assumption | with_reducible apply keeps_failVersion
    | with_reducible refine keeps_foldl (fun _ _ _ => ?_) ?_ | split

/-! ### Xlate -/

theorem keeps_countParity {s0 : State} {s : State} {n : Nat} (hs : Keeps s0 s) : Keeps s0 (State.countParity s n) := by
  unfold State.countParity
  try dsimp only
  repeat' first
    | with_reducible assumption | (with_reducible refine keeps_id ?_; simp only [keeps_mk_iff])
    | (with_reducible refine ok_id ?_; simp only [ok_mk_iff]) | split

theorem keeps_tableParity {s0 : State} {s : State} {cl : ClusterId} {ast va : Nat} (hs : Keeps s0 s)
    : Keeps s0 (State.tableParity s cl ast va) := by
  unfold State.tableParity
  try dsimp only
  repeat' first
    | with_reducible assumption | with_reducible apply keeps_countParity
    | (with_reducible refine keeps_id ?_; simp only [keeps_mk_iff])
    | (with_reducible refine ok_id ?_; simp only [ok_mk_iff]) | split

theorem keeps_cacheTable {s0 : State} {s : State} {cl : ClusterId} {t : TableEnt} (hs : Keeps s0 s)
    : Keeps s0 (State.cacheTable s cl t) := by
  unfold State.cacheTable
  try dsimp only
  repeat' first
    | with_reducible assumption | (with_reducible refine keeps_id ?_; simp only [keeps_mk_iff])

theorem keeps_countWalk {s0 : State} {s : State} (hs : Keeps s0 s) : Keeps s0 (State.countWalk s) := by
  unfold State.countWalk
  try dsimp only
  repeat' first
    | with_reducible assumption | (with_reducible refine keeps_id ?_; simp only [keeps_mk_iff])

theorem keeps_countRange {s0 : State} {s : State} {f : XFault} (hs : Keeps s0 s) : Keeps s0 (State.countRange s f) := by
  unfold State.countRange
  try dsimp only
  repeat' first
    | with_reducible assumption | with_reducible apply keeps_countWalk | split

theorem keeps_reportFault {s0 : State} {s : State} {addr ast cause : Nat} (hs : Keeps s0 s)
    : Keeps s0 (State.reportFault s addr ast cause) := by
  unfold State.reportFault
  try dsimp only
  repeat' first
    | with_reducible assumption | (with_reducible refine keeps_id ?_; simp only [keeps_mk_iff])

theorem keeps_streamParity {s0 : State} {s : State} {c : CoreId} {t : Fin 8} {ast va : Nat} (hs : Keeps s0 s)
    : Keeps s0 (State.streamParity s c t ast va) := by
  unfold State.streamParity
  try dsimp only
  repeat' first
    | with_reducible assumption | with_reducible apply keeps_countParity
    | (with_reducible refine keeps_id ?_; simp only [keeps_mk_iff])
    | (with_reducible refine ok_id ?_; simp only [ok_mk_iff]) | split

theorem keeps_stewardParity {s0 : State} {s : State} {cl : ClusterId} {ast va : Nat} (hs : Keeps s0 s)
    : Keeps s0 (State.stewardParity s cl ast va) := by
  unfold State.stewardParity
  try dsimp only
  repeat' first
    | with_reducible assumption | with_reducible apply keeps_countParity
    | (with_reducible refine keeps_id ?_; simp only [keeps_mk_iff])
    | (with_reducible refine ok_id ?_; simp only [ok_mk_iff]) | split

theorem keeps_streamLookup {s0 : State} {s : State} {c : CoreId} {t : Fin 8} {rt : Bool} {ast va : Nat} (hs : Keeps s0 s)
    : KeepsOpt2 s0 (State.streamLookup s c t rt ast va) := by
  unfold State.streamLookup
  repeat' first
    | with_reducible exact keepsOpt2_none
    | with_reducible refine keepsOpt2_some ?_
    | with_reducible assumption
    | (with_reducible refine keeps_id ?_; simp only [keeps_mk_iff])
    | split

theorem keeps_streamInsert {s0 : State} {s : State} {c : CoreId} {t : Fin 8} {l : Leaf} (hs : Keeps s0 s)
    : Keeps s0 (State.streamInsert s c t l) := by
  unfold State.streamInsert
  try dsimp only
  repeat' first
    | with_reducible assumption | (with_reducible refine keeps_id ?_; simp only [keeps_mk_iff])

theorem keeps_stewardLookup {s0 : State} {s : State} {cl : ClusterId} {ast va : Nat} (hs : Keeps s0 s)
    : KeepsOpt2 s0 (State.stewardLookup s cl ast va) := by
  unfold State.stewardLookup
  repeat' first
    | with_reducible exact keepsOpt2_none
    | with_reducible refine keepsOpt2_some ?_
    | with_reducible assumption
    | (with_reducible refine keeps_id ?_; simp only [keeps_mk_iff])
    | split

theorem keeps_stewardInsert {s0 : State} {s : State} {cl : ClusterId} {l : Leaf} (hs : Keeps s0 s)
    : Keeps s0 (State.stewardInsert s cl l) := by
  unfold State.stewardInsert
  try dsimp only
  repeat' first
    | with_reducible assumption | (with_reducible refine keeps_id ?_; simp only [keeps_mk_iff])

/-! ### Ports -/

theorem keeps_present {s0 : State} {s : State} {n : PortId} {op : PortOp} {addr beats : Nat} {qos : Fin 4} {record : Bool}
    {o : Owner} {w : List (Nat × Byte)} (hs : Keeps s0 s) : KeepsOpt s0 (State.present s n op addr beats qos record o w) := by
  unfold State.present
  try dsimp only
  repeat' first
    | with_reducible assumption | with_reducible exact keepsOpt_none | with_reducible refine keepsOpt_some ?_
    | with_reducible apply keeps_modPort | (with_reducible refine keepsOpt_id ?_; split)

theorem keeps_await {s0 : State} {s : State} {n : PortId} {w : Waiter} (hs : Keeps s0 s) : Keeps s0 (State.await s n w) := by
  unfold State.await
  try dsimp only
  repeat' first
    | with_reducible assumption | with_reducible apply keeps_modPort

theorem keeps_dropTxn {s0 : State} {s : State} {n : PortId} {id : Byte} (hs : Keeps s0 s)
    : Keeps s0 (State.dropTxn s n id) := by
  unfold State.dropTxn
  try dsimp only
  repeat' first
    | with_reducible assumption | with_reducible apply keeps_modPort

theorem keeps_portError {s0 : State} {s : State} {n : PortId} {addr op err qos : Nat} (hs : Keeps s0 s)
    : Keeps s0 (State.portError s n addr op err qos) := by
  unfold State.portError
  try dsimp only
  repeat' first
    | with_reducible assumption | with_reducible apply keeps_health | with_reducible apply keeps_modPort

theorem keeps_countRead {s0 : State} {s : State} {n : PortId} {va len : Nat} (hs : Keeps s0 s)
    : Keeps s0 (State.countRead s n va len) := by
  unfold State.countRead
  try dsimp only
  repeat' first
    | with_reducible assumption | with_reducible apply keeps_modPort

theorem keeps_rtLateness {s0 : State} {s : State} {n : PortId} {t : Txn} (hs : Keeps s0 s)
    : Keeps s0 (State.rtLateness s n t) := by
  unfold State.rtLateness
  try dsimp only
  repeat' first
    | with_reducible assumption | with_reducible apply keeps_health | with_reducible apply keeps_modPort | split

theorem keeps_portLost {s0 : State} {s : State} {n : PortId} {st : PortState} (hs : Keeps s0 s)
    : Keeps s0 (State.portLost s n st) := by
  unfold State.portLost
  try dsimp only
  repeat' first
    | with_reducible assumption | with_reducible apply keeps_commitLost | with_reducible apply keeps_dropLoads
    | with_reducible apply keeps_health | with_reducible apply keeps_killRun | with_reducible apply keeps_modPort
    | (with_reducible refine keeps_id ?_; simp only [keeps_mk_iff])
    | with_reducible refine keeps_foldl (fun _ _ _ => ?_) ?_
    | (with_reducible refine ok_id ?_; simp only [ok_mk_iff]) | split

theorem keeps_holdSettled {s0 : State} {s : State} {n : PortId} (hs : Keeps s0 s) : Keeps s0 (State.holdSettled s n) := by
  unfold State.holdSettled
  try dsimp only
  repeat' first
    | with_reducible assumption | with_reducible apply keeps_health | with_reducible apply keeps_modPort | split

theorem keeps_portWalk {s0 : State} {s : State} {n : PortId} {qos : Fin 4} {ast va : Nat} {rs : List WalkRead} (hs
    : Keeps s0 s) : Keeps s0 (State.portWalk s n qos ast va rs).1 := by
  unfold State.portWalk
  try dsimp only
  repeat' first
    | with_reducible assumption | with_reducible apply keeps_cacheTable | with_reducible apply keeps_countRange
    | with_reducible apply keeps_countRead | with_reducible apply keeps_countWalk
    | with_reducible apply keeps_portError | with_reducible apply keeps_portLost
    | with_reducible apply keeps_tableParity | (with_reducible refine keeps_id ?_; simp only [keeps_mk_iff])
    | with_reducible refine keeps_foldl (fun _ _ _ => ?_) ?_ | split

theorem keeps_stewardPage {s0 s : State} {n : PortId} {qos : Fin 4} {ast va : Nat} {ws : List (List WalkRead)} (hs
    : Keeps s0 s) : Keeps s0 (State.stewardPage s n qos ast va ws).1 := by
  unfold State.stewardPage
  dsimp only
  have h0 : Keeps s0 (s.stewardParity n ast va) := keeps_stewardParity hs
  have hw := keeps_portWalk (n := n) (qos := qos) (ast := ast) (va := va) (rs := ws.headD []) h0
  split
  · rename_i l t hl
    exact (keeps_stewardLookup h0).out _ _ hl
  · split <;> rename_i h1 <;> rw [h1] at hw
    · exact hw
    · exact hw
    · exact keeps_stewardInsert hw

theorem keeps_stewardPages {s0 s : State} {tr : Option Nat} {qos : Fin 4} {r : ReadResult} {gs : List (PortId × Seg)}
    {ws : List (List WalkRead)} (hs : Keeps s0 s) : Keeps s0 (State.stewardPages s tr qos r gs ws).1 := by
  induction gs generalizing s ws with
  | nil => exact hs
  | cons g gs ih =>
    obtain ⟨n, g⟩ := g
    unfold State.stewardPages
    split
    · exact hs
    · extract_lets x
      have h1 : Keeps s0 x.1 := by
        unfold x
        split
        · exact keeps_stewardPage hs
        · exact hs
      clear_value x
      dsimp only
      split
      · exact h1
      · exact h1
      · split
        · exact ih (keeps_countRead h1)
        · split
          · exact keeps_portError (keeps_countRead h1)
          · dsimp only
            with_reducible exact keeps_portLost (keeps_countRead h1)

theorem keeps_stewardRead {s0 : State} {s : State} {n : PortId} {qos : Fin 4} {ast va len : Nat} {r : ReadResult} (hs
    : Keeps s0 s) : Keeps s0 (State.stewardRead s n qos ast va len r).1 := by
  unfold State.stewardRead
  try dsimp only
  repeat' first
    | with_reducible assumption | with_reducible apply keeps_stewardPages

theorem keeps_physRead {s0 : State} {s : State} {n : PortId} {pa len : Nat} {r : ReadResult} (hs : Keeps s0 s)
    : Keeps s0 (State.physRead s n pa len r).1 := by
  unfold State.physRead
  try dsimp only
  repeat' first
    | with_reducible assumption | with_reducible apply keeps_stewardPages

theorem keeps_stewardFault {s0 : State} {s : State} {n : PortId} {ast : Nat} {e : ReadEnd} (hs : Keeps s0 s)
    : Keeps s0 (State.stewardFault s n ast e).1 := by
  unfold State.stewardFault
  try dsimp only
  repeat' first
    | with_reducible assumption | with_reducible apply keeps_reportFault | split

/-! ### Start -/

theorem keeps_setSlot {s0 : State} {s : State} {b : Bool} {r : List Byte} (hs : Keeps s0 s)
    : Keeps s0 (State.setSlot s b r) := by
  unfold State.setSlot
  try dsimp only
  repeat' first
    | with_reducible assumption | (with_reducible refine keeps_id ?_; simp only [keeps_mk_iff])

theorem keeps_startRecord {s0 : State} {s : State} {outcome detail : Nat} (hs : Keeps s0 s)
    : Keeps s0 (State.startRecord s outcome detail) := by
  unfold State.startRecord
  try dsimp only
  repeat' first
    | with_reducible assumption | (with_reducible refine keeps_id ?_; simp only [keeps_mk_iff])

theorem keeps_defaults {s0 : State} {s : State} (hs : Keeps s0 s) : Keeps s0 (State.defaults s) := by
  refine ⟨hs.pending, hs.build, hs.latched, hs.inst, hs.master, hs.fuse, fun h => ⟨fun c => ?_, deepOk_of_same (hs.inv h).deep rfl rfl⟩⟩
  have h1 : (State.defaults s).core c = Core.reset := by
    unfold State.core State.defaults State.resetOf
    try dsimp only
    simp
  rw [h1]
  exact coreOk_reset

theorem keeps_mailboxAbort {s0 : State} {s : State} {code : Nat} (hs : Keeps s0 s) : Keeps s0 (State.mailboxAbort s code) := by
  unfold State.mailboxAbort
  try dsimp only
  repeat' first
    | with_reducible assumption | (with_reducible refine keeps_id ?_; simp only [keeps_mk_iff])
    | (with_reducible refine ok_id ?_; simp only [ok_mk_iff]) | split

theorem keeps_beginStart {s0 : State} {s : State} {cause : Nat} {slot : Bool} (hs : Keeps s0 s)
    : Keeps s0 (State.beginStart s cause slot) := by
  unfold State.beginStart
  try dsimp only
  repeat' first
    | with_reducible assumption | with_reducible apply keeps_defaults | with_reducible apply keeps_holdSettled
    | with_reducible apply keeps_mailboxAbort | (with_reducible refine keeps_id ?_; simp only [keeps_mk_iff])

theorem keeps_restart {s0 : State} {s : State} {cause : Nat} (hs : Keeps s0 s) : Keeps s0 (State.restart s cause) := by
  unfold State.restart
  try dsimp only
  repeat' first
    | with_reducible assumption | with_reducible apply keeps_beginStart

theorem keeps_enterMidwinter {s0 : State} {s : State} {reason : Nat} (hs : Keeps s0 s)
    : Keeps s0 (State.enterMidwinter s reason) := by
  unfold State.enterMidwinter
  try dsimp only
  repeat' first
    | with_reducible assumption | with_reducible apply keeps_defaults | with_reducible apply keeps_irq
    | (with_reducible refine keeps_id ?_; simp only [keeps_mk_iff])

theorem keeps_startFail {s0 : State} {s : State} {o : StartOutcome} {detail : Nat} (hs : Keeps s0 s)
    : Keeps s0 (State.startFail s o detail) := by
  unfold State.startFail
  try dsimp only
  repeat' first
    | with_reducible assumption | with_reducible apply keeps_beginStart | with_reducible apply keeps_enterMidwinter
    | with_reducible apply keeps_startRecord | (with_reducible refine keeps_id ?_; simp only [keeps_mk_iff])
    | (with_reducible refine ok_id ?_; simp only [ok_mk_iff]) | split

theorem keeps_lastStewardLost {s0 : State} {s : State} (hs : Keeps s0 s) : Keeps s0 (State.lastStewardLost s) := by
  unfold State.lastStewardLost
  try dsimp only
  repeat' first
    | with_reducible assumption | with_reducible apply keeps_restart | with_reducible apply keeps_startFail | split

theorem keeps_execStart {s0 : State} {s : State} (hs : Keeps s0 s) : KeepsOut s0 (execStart s) := by
  unfold execStart
  try dsimp only
  repeat' first
    | with_reducible assumption | with_reducible refine keepsOut_next ?_ | with_reducible apply keeps_beginStart
    | (with_reducible refine keepsOut_id ?_; split) | (with_reducible refine keeps_id ?_; simp only [keeps_mk_iff])
    | (with_reducible refine ok_id ?_; simp only [ok_mk_iff]) | split

theorem keeps_startSlot {s0 : State} {s : State} {img : ReadResult} (hs : Keeps s0 s) : Keeps s0 (State.startSlot s img) := by
  unfold State.startSlot
  try dsimp only
  repeat' first
    | with_reducible assumption | with_reducible apply keeps_physRead | with_reducible apply keeps_startFail
    | (with_reducible refine keeps_id ?_; simp only [keeps_mk_iff])
    | (with_reducible refine ok_id ?_; simp only [ok_mk_iff]) | split

theorem keeps_startImage {s0 s : State} {boot img : ReadResult} (hs : Keeps s0 s) : Keeps s0 (State.startImage s boot img) := by
  have key : ∀ y : State × ReadEnd, Keeps s0 y.1 → Keeps s0 (match y.2.bytes? with
      | some bs => State.startSlot { y.1 with start := { y.1.start with cold := false, slotA := bootRecord bs 0, slotB := bootRecord bs 32 } } img
      | none => y.1.startFail .fetchFail 0) := by
    intro y hy
    split
    · apply keeps_startSlot
      simp only [keeps_mk_iff]
      exact hy
    · exact keeps_startFail hy
  unfold State.startImage
  split
  · exact key _ (keeps_physRead hs)
  · exact keeps_startSlot hs

theorem keeps_startChecks {s0 : State} {s : State} (hs : Keeps s0 s) : Keeps s0 (State.startChecks s) := by
  unfold State.startChecks
  try dsimp only
  repeat' first
    | with_reducible assumption | with_reducible apply keeps_setSlot | with_reducible apply keeps_startFail
    | (with_reducible refine keeps_id ?_; simp only [keeps_mk_iff])
    | (with_reducible refine ok_id ?_; simp only [ok_mk_iff]) | split

theorem keeps_startFirmware {s0 : State} {s : State} {pass : BitVec 4} (hs : Keeps s0 s)
    : Keeps s0 (State.startFirmware s pass) := by
  unfold State.startFirmware
  try dsimp only
  repeat' first
    | with_reducible assumption | with_reducible apply keeps_startFail
    | (with_reducible refine keeps_id ?_; simp only [keeps_mk_iff])
    | (with_reducible refine ok_id ?_; simp only [ok_mk_iff]) | split

theorem keeps_startPost {s0 : State} {s : State} {coreFail : BitVec 20} {arrayFail : BitVec 64} {control : Bool} (hs
    : Keeps s0 s) : Keeps s0 (State.startPost s coreFail arrayFail control) := by
  unfold State.startPost
  try dsimp only
  repeat' first
    | with_reducible assumption | with_reducible apply keeps_disableArray | with_reducible apply keeps_retire
    | with_reducible apply keeps_startFail | (with_reducible refine keeps_id ?_; simp only [keeps_mk_iff])
    | with_reducible refine keeps_foldl (fun _ _ _ => ?_) ?_
    | (with_reducible refine ok_id ?_; simp only [ok_mk_iff]) | split | intro _ | dsimp only
    | refine keeps_mkDeep (fun _ => ⟨rfl, (by intro y hy; cases hy), rfl⟩) ?_

theorem keeps_startReady {s0 : State} {s : State} (hs : Keeps s0 s) : Keeps s0 (State.startReady s) := by
  unfold State.startReady
  try dsimp only
  repeat' first
    | with_reducible assumption | with_reducible apply keeps_irq | with_reducible apply keeps_oldAlert
    | with_reducible apply keeps_relimit | with_reducible apply keeps_sendHellos
    | with_reducible apply keeps_startRecord | (with_reducible refine keeps_id ?_; simp only [keeps_mk_iff])

theorem keeps_execStartPhaseDone {s0 : State} {d : PhaseDone} {s : State} (hs : Keeps s0 s)
    : KeepsOut s0 (execStartPhaseDone d s) := by
  have h1 : Keeps s0 (if s.powered then { s with start := { s.start with phase := 1 } } else s) := by
    split
    · simp only [keeps_mk_iff]
      exact hs
    · exact hs
  unfold execStartPhaseDone
  split
  · exact keepsOut_next hs
  · generalize s.start.phase = n
    cases d <;> rcases n with _ | _ | _ | _ | _ | _ | n <;> first
      | exact keepsOut_next hs
      | exact keepsOut_next h1
      | exact keepsOut_next (keeps_startImage hs)
      | exact keepsOut_next (keeps_startChecks hs)
      | exact keepsOut_next (keeps_startFirmware hs)
      | exact keepsOut_next (keeps_startPost hs)
      | exact keepsOut_next (keeps_startReady hs)

theorem keeps_execStartFail {s0 : State} {outcome : StartOutcome} {detail : Word} {s : State} (hs : Keeps s0 s)
    : KeepsOut s0 (execStartFail outcome detail s) := by
  unfold execStartFail
  try dsimp only
  repeat' first
    | with_reducible assumption | with_reducible refine keepsOut_next ?_ | with_reducible apply keeps_startFail
    | (with_reducible refine keepsOut_id ?_; split)

theorem keeps_execReadyTimeout {s0 : State} {s : State} (hs : Keeps s0 s) : KeepsOut s0 (execReadyTimeout s) := by
  unfold execReadyTimeout
  try dsimp only
  repeat' first
    | with_reducible assumption | with_reducible refine keepsOut_next ?_ | with_reducible apply keeps_startFail
    | (with_reducible refine keepsOut_id ?_; split)

theorem keeps_execProbationEnd {s0 : State} {s : State} (hs : Keeps s0 s) : KeepsOut s0 (execProbationEnd s) := by
  unfold execProbationEnd
  try dsimp only
  repeat' first
    | with_reducible assumption | with_reducible refine keepsOut_next ?_
    | (with_reducible refine keepsOut_id ?_; split) | (with_reducible refine keeps_id ?_; simp only [keeps_mk_iff])

theorem keeps_execStewardWatchdogFire {s0 : State} {s : State} (hs : Keeps s0 s) : KeepsOut s0 (execStewardWatchdogFire s) := by
  unfold execStewardWatchdogFire
  try dsimp only
  repeat' first
    | with_reducible assumption | with_reducible refine keepsOut_next ?_ | with_reducible apply keeps_restart
    | with_reducible apply keeps_startFail | (with_reducible refine keepsOut_id ?_; split)

/-! ### Lockstep -/

theorem keeps_modFault {s0 : State} {s : State} {f : FaultSt → FaultSt} (hs : Keeps s0 s) : Keeps s0 (State.modFault s f) := by
  unfold State.modFault
  try dsimp only
  repeat' first
    | with_reducible assumption | (with_reducible refine keeps_id ?_; simp only [keeps_mk_iff])

theorem keeps_modPair {s0 : State} {s : State} {i : Fin 2} {f : PairSt → PairSt} (hs : Keeps s0 s)
    : Keeps s0 (State.modPair s i f) := by
  unfold State.modPair
  try dsimp only
  repeat' first
    | with_reducible assumption | with_reducible apply keeps_modFault

theorem keeps_modHealth {s0 : State} {s : State} {c : CoreId} {f : CoreHealth → CoreHealth} (hs : Keeps s0 s)
    : Keeps s0 (State.modHealth s c f) := by
  unfold State.modHealth
  try dsimp only
  repeat' first
    | with_reducible assumption | with_reducible apply keeps_modFault

theorem keeps_noteInterruption {s0 : State} {s : State} {r : RunSt} (hs : Keeps s0 s)
    : Keeps s0 (State.noteInterruption s r) := by
  unfold State.noteInterruption
  try dsimp only
  repeat' first
    | with_reducible assumption | with_reducible apply keeps_modFault | split

theorem keeps_lockstepKill {s0 : State} {s : State} {p : PartId} {r : RunSt} (hs : Keeps s0 s)
    : Keeps s0 (State.lockstepKill s p r) := by
  unfold State.lockstepKill
  try dsimp only
  repeat' first
    | with_reducible assumption | with_reducible apply keeps_killRun | with_reducible apply keeps_noteInterruption

theorem keeps_mismatch {s0 : State} {s : State} {pair : Fin 2} (hs : Keeps s0 s) : Keeps s0 (State.mismatch s pair) := by
  unfold State.mismatch
  try dsimp only
  repeat' first
    | with_reducible assumption | with_reducible apply keeps_lockstepKill | with_reducible apply keeps_modFault
    | with_reducible apply keeps_modPair | with_reducible apply keeps_rtFault | split

theorem keeps_execLockstepMismatch {s0 : State} {pair : Fin 2} {s : State} (hs : Keeps s0 s)
    : KeepsOut s0 (execLockstepMismatch pair s) := by
  unfold execLockstepMismatch
  try dsimp only
  repeat' first
    | with_reducible assumption | with_reducible refine keepsOut_next ?_ | with_reducible apply keeps_mismatch

theorem keeps_joinSpare {s0 : State} {s : State} {pair : Fin 2} {lead checker : Option (Fin 5)} (hs : Keeps s0 s)
    : Keeps s0 (State.joinSpare s pair lead checker) := by
  unfold State.joinSpare
  try dsimp only
  repeat' first
    | with_reducible assumption | with_reducible apply keeps_borrow | with_reducible apply keeps_modFault
    | with_reducible apply keeps_modPair

theorem keeps_degrade {s0 : State} {s : State} {pair : Fin 2} {alive : Option (Fin 5)} {double : Bool} (hs : Keeps s0 s)
    : Keeps s0 (State.degrade s pair alive double) := by
  unfold State.degrade
  try dsimp only
  repeat' first
    | with_reducible assumption | with_reducible apply keeps_haltRt | with_reducible apply keeps_modFault
    | with_reducible apply keeps_modPair | with_reducible apply keeps_rtFault | split

theorem keeps_unresolved {s0 : State} {s : State} {pair : Fin 2} {l c : Fin 5} (hs : Keeps s0 s)
    : Keeps s0 (State.unresolved s pair l c) := by
  unfold State.unresolved
  try dsimp only
  repeat' first
    | with_reducible assumption | with_reducible apply keeps_degrade | with_reducible apply keeps_haltRt
    | with_reducible apply keeps_joinSpare | with_reducible apply keeps_modFault | with_reducible apply keeps_modPair
    | with_reducible apply keeps_retire | split

theorem keeps_tested {s0 : State} {s : State} {c : CoreId} {passes : Bool} (hs : Keeps s0 s)
    : Keeps s0 (State.tested s c passes) := by
  unfold State.tested
  try dsimp only
  repeat' first
    | with_reducible assumption | with_reducible apply keeps_modHealth

theorem keeps_execFailover {s0 : State} {pair : Fin 2} {leadPasses checkerPasses : Bool} {s : State} (hs : Keeps s0 s)
    : KeepsOut s0 (execFailover pair leadPasses checkerPasses s) := by
  unfold execFailover
  try dsimp only
  repeat' first
    | with_reducible assumption | with_reducible refine keepsOut_next ?_ | with_reducible apply keeps_degrade
    | with_reducible apply keeps_haltRt | with_reducible apply keeps_joinSpare | with_reducible apply keeps_modPair
    | with_reducible apply keeps_retire | with_reducible apply keeps_tested | with_reducible apply keeps_unresolved
    | (with_reducible refine keepsOut_id ?_; split) | split

theorem keeps_execPeriodicSelftest {s0 : State} {c : CoreId} {corePasses : Bool} {arrayFails : BitVec 4} {s : State} (hs
    : Keeps s0 s) : KeepsOut s0 (execPeriodicSelftest c corePasses arrayFails s) := by
  unfold execPeriodicSelftest
  try dsimp only
  repeat' first
    | with_reducible assumption | with_reducible refine keepsOut_next ?_ | with_reducible apply keeps_borrow
    | with_reducible apply keeps_disableArray | with_reducible apply keeps_modFault
    | with_reducible apply keeps_retire | with_reducible apply keeps_tested
    | (with_reducible refine keepsOut_id ?_; split) | with_reducible refine keeps_foldl (fun _ _ _ => ?_) ?_ | split

theorem keeps_modSteward {s0 : State} {s : State} {i : Fin 4} {f : Steward → Steward} (hs : Keeps s0 s)
    : Keeps s0 (State.modSteward s i f) := by
  unfold State.modSteward
  try dsimp only
  repeat' first
    | with_reducible assumption | with_reducible apply keeps_modFault

theorem keeps_execStewardHeartbeatMiss {s0 : State} {w : Fin 4} {s : State} (hs : Keeps s0 s)
    : KeepsOut s0 (execStewardHeartbeatMiss w s) := by
  unfold execStewardHeartbeatMiss
  try dsimp only
  repeat' first
    | with_reducible assumption | with_reducible refine keepsOut_next ?_ | with_reducible apply keeps_health
    | with_reducible apply keeps_lastStewardLost | with_reducible apply keeps_modFault
    | with_reducible apply keeps_modSteward | (with_reducible refine keepsOut_id ?_; split) | split

theorem keeps_updateEnd {s0 : State} {s : State} {u : Update} (hs : Keeps s0 s) : Keeps s0 (State.updateEnd s u) := by
  unfold State.updateEnd
  try dsimp only
  repeat' first
    | with_reducible assumption | with_reducible apply keeps_irq
    | (with_reducible refine keeps_id ?_; simp only [keeps_mk_iff])

theorem keeps_execStewardRejoin {s0 : State} {w : Fin 4} {s : State} (hs : Keeps s0 s)
    : KeepsOut s0 (execStewardRejoin w s) := by
  unfold execStewardRejoin
  try dsimp only
  repeat' first
    | with_reducible assumption | with_reducible refine keepsOut_next ?_ | with_reducible apply keeps_modSteward
    | with_reducible apply keeps_updateEnd | (with_reducible refine keepsOut_id ?_; split)
    | (with_reducible refine keeps_id ?_; simp only [keeps_mk_iff])

theorem keeps_replaceMember {s0 : State} {s : State} {c : CoreId} (hs : Keeps s0 s) : Keeps s0 (State.replaceMember s c) := by
  unfold State.replaceMember
  try dsimp only
  repeat' first
    | with_reducible assumption | with_reducible apply keeps_degrade | with_reducible apply keeps_joinSpare | split

theorem keeps_retireMember {s0 : State} {s : State} {c : CoreId} {why : Nat} (hs : Keeps s0 s)
    : Keeps s0 (State.retireMember s c why) := by
  unfold State.retireMember
  try dsimp only
  repeat' first
    | with_reducible assumption | with_reducible apply keeps_replaceMember | with_reducible apply keeps_retire
    | split

theorem keeps_judge {s0 : State} {s : State} {all : List (Nat × (Nat × Nat))} {x : Nat × (Nat × Nat)} (hs : Keeps s0 s)
    : Keeps s0 (State.judge s all x) := by
  unfold State.judge
  try dsimp only
  repeat' first
    | with_reducible assumption | with_reducible apply keeps_health | with_reducible apply keeps_modHealth
    | with_reducible apply keeps_retireMember | split

theorem keeps_execStripRateWindowEnd {s0 : State} {p : PartId} {s : State} (hs : Keeps s0 s)
    : KeepsOut s0 (execStripRateWindowEnd p s) := by
  unfold execStripRateWindowEnd
  try dsimp only
  repeat' first
    | with_reducible assumption | with_reducible refine keepsOut_next ?_ | with_reducible apply keeps_judge
    | with_reducible apply keeps_modPart | (with_reducible refine keepsOut_id ?_; split)
    | with_reducible refine keeps_foldl (fun _ _ _ => ?_) ?_ | split

theorem keeps_execAgingMonitorRead {s0 : State} {c : CoreId} {margin : Half} {s : State} (hs : Keeps s0 s)
    : KeepsOut s0 (execAgingMonitorRead c margin s) := by
  unfold execAgingMonitorRead
  try dsimp only
  repeat' first
    | with_reducible assumption | with_reducible refine keepsOut_next ?_ | with_reducible apply keeps_health
    | with_reducible apply keeps_modHealth | with_reducible apply keeps_retireMember
    | (with_reducible refine keepsOut_id ?_; split) | split

theorem keeps_execInterconnectParityError {s0 : State} {p : PartId} {s : State} (hs : Keeps s0 s)
    : KeepsOut s0 (execInterconnectParityError p s) := by
  unfold execInterconnectParityError
  try dsimp only
  repeat' first
    | with_reducible assumption | with_reducible refine keepsOut_next ?_ | with_reducible apply keeps_failRun
    | with_reducible apply keeps_haltRt | with_reducible apply keeps_lockstepKill
    | (with_reducible refine keepsOut_id ?_; split) | split

theorem keeps_execSequencerWatchdogExpiry {s0 : State} {c : CoreId} {s : State} (hs : Keeps s0 s)
    : KeepsOut s0 (execSequencerWatchdogExpiry c s) := by
  unfold execSequencerWatchdogExpiry
  try dsimp only
  repeat' first
    | with_reducible assumption | with_reducible refine keepsOut_next ?_ | with_reducible apply keeps_failCore
    | (with_reducible refine keepsOut_id ?_; split)

theorem keeps_execWcetOverrun {s0 : State} {s : State} (hs : Keeps s0 s) : KeepsOut s0 (execWcetOverrun s) := by
  unfold execWcetOverrun
  try dsimp only
  repeat' first
    | with_reducible assumption | with_reducible refine keepsOut_next ?_ | with_reducible apply keeps_failRun
    | with_reducible apply keeps_modFault | with_reducible apply keeps_rtFault
    | (with_reducible refine keepsOut_id ?_; split)

end Sys2Proof.Machine
end

