-- ==== Sys2Proof/Laws/KeepsCore.lean ====
section
/-!
SUPPORT. Every piece of a command keeps what `Keeps` says: the units of a core.
One lemma per function, named after it.
-/
set_option maxRecDepth 20000
namespace Sys2Proof.Machine
open Sys2Proof.Safety

/-! ### Operands -/

theorem ok_setS {k : Core} {i : SReg} {x : DWord} (hk : CoreOk k) : CoreOk (Core.setS k i x) := by
  unfold Core.setS
  split
  · exact hk
  · rename_i h
    refine ⟨?_, hk.near, hk.tags, hk.written, hk.poison⟩
    show (k.s.set i.val x i.isLt)[0] = 0
    rw [Vector.getElem_set_ne _ _ h]
    exact hk.zero

theorem ok_setA {k : Core} {i : AReg} {x : Word} (hk : CoreOk k) : CoreOk (Core.setA k i x) := by
  unfold Core.setA
  try dsimp only
  repeat' first
    | with_reducible assumption | (with_reducible refine ok_id ?_; simp only [ok_mk_iff])

theorem ok_setV {k : Core} {i : Nat} {x : Lanes} (hk : CoreOk k) : CoreOk (Core.setV k i x) := by
  unfold Core.setV
  try dsimp only
  repeat' first
    | with_reducible assumption | (with_reducible refine ok_id ?_; simp only [ok_mk_iff])

/-! ### Flags -/

theorem ok_raiseVec {k : Core} {f : Flags} (hk : CoreOk k) : CoreOk (Core.raiseVec k f) := by
  unfold Core.raiseVec
  try dsimp only
  repeat' first
    | with_reducible assumption | (with_reducible refine ok_id ?_; simp only [ok_mk_iff])

theorem ok_raiseMv {k : Core} {f : Flags} (hk : CoreOk k) : CoreOk (Core.raiseMv k f) := by
  unfold Core.raiseMv
  try dsimp only
  repeat' first
    | with_reducible assumption | (with_reducible refine ok_id ?_; simp only [ok_mk_iff])

theorem ok_countNarrow {k : Core} {n clipped : Nat} (hk : CoreOk k) : CoreOk (Core.countNarrow k n clipped) := by
  unfold Core.countNarrow
  try dsimp only
  repeat' first
    | with_reducible assumption | (with_reducible refine ok_id ?_; simp only [ok_mk_iff])

theorem ok_raiseTile {k : Core} {a row : Nat} {f : Flags} (hk : CoreOk k) : CoreOk (Core.raiseTile k a row f) := by
  unfold Core.raiseTile
  try dsimp only
  repeat' first
    | with_reducible assumption | (with_reducible refine ok_id ?_; simp only [ok_mk_iff])

theorem ok_touchTile {k : Core} {a row : Nat} (hk : CoreOk k) : CoreOk (Core.touchTile k a row) := by
  unfold Core.touchTile
  try dsimp only
  repeat' first
    | with_reducible assumption | (with_reducible refine ok_id ?_; simp only [ok_mk_iff])

theorem ok_untouchTile {k : Core} {a row : Nat} (hk : CoreOk k) : CoreOk (Core.untouchTile k a row) := by
  unfold Core.untouchTile
  try dsimp only
  repeat' first
    | with_reducible assumption | (with_reducible refine ok_id ?_; simp only [ok_mk_iff])

theorem ok_openTile {k : Core} {a row : Nat} (hk : CoreOk k) : CoreOk (Core.openTile k a row) := by
  unfold Core.openTile
  try dsimp only
  repeat' first
    | with_reducible assumption | (with_reducible refine ok_id ?_; simp only [ok_mk_iff]) | split

theorem ok_putAcc {k : Core} {a row col : Nat} {x : Word} {st : Bool} (hk : CoreOk k)
    : CoreOk (Core.putAcc k a row col x st) := by
  unfold Core.putAcc
  try dsimp only
  repeat' first
    | with_reducible assumption | (with_reducible refine ok_id ?_; simp only [ok_mk_iff])

theorem ok_freshAcc {k : Core} {keys : List Nat} (hk : CoreOk k) : CoreOk (Core.freshAcc k keys) := by
  unfold Core.freshAcc
  try dsimp only
  repeat' first
    | with_reducible assumption | (with_reducible refine ok_id ?_; simp only [ok_mk_iff])

theorem ok_writeRow {k : Core} {a row mode : Nat} {int init : Bool} {xs : List Word} {fl : Flags} (hk : CoreOk k)
    : CoreOk (Core.writeRow k a row mode int init xs fl) := by
  unfold Core.writeRow
  try dsimp only
  have h : ∀ (fresh : Bool) (l : List Nat) (r : Core × Flags), CoreOk r.1 → CoreOk (l.foldl (fun (r : Core × Flags) c =>
      if fresh then (r.1.putAcc a row c (nth 0 xs c) false, r.2)
      else
        (r.1.putAcc a row c (combine mode int (Tab.get 0 r.1.acc (accKey a row c)) (Tab.get false r.1.sticky (accKey a row c)) (nth 0 xs c)).1
          (combine mode int (Tab.get 0 r.1.acc (accKey a row c)) (Tab.get false r.1.sticky (accKey a row c)) (nth 0 xs c)).2.1,
          r.2 ||| (combine mode int (Tab.get 0 r.1.acc (accKey a row c)) (Tab.get false r.1.sticky (accKey a row c)) (nth 0 xs c)).2.2)) r).1 := by
    intro fresh l
    induction l with
    | nil => exact fun _ h => h
    | cons c l ih =>
      intro r hr
      refine ih _ ?_
      try dsimp only
      split
      · exact ok_putAcc hr
      · exact ok_putAcc hr
  apply ok_raiseTile
  apply ok_touchTile
  simp only [ok_mk_iff]
  apply h
  split
  · exact ok_openTile hk
  · exact hk

theorem ok_importRow {k : Core} {a row : Nat} {intFresh : Bool} {xs : List Word} {sticky : Nat} (hk : CoreOk k)
    : CoreOk (Core.importRow k a row intFresh xs sticky) := by
  unfold Core.importRow
  try dsimp only
  repeat' first
    | with_reducible assumption | with_reducible apply ok_openTile | with_reducible apply ok_putAcc
    | with_reducible apply ok_touchTile | (with_reducible refine ok_id ?_; simp only [ok_mk_iff])
    | with_reducible refine ok_foldl (fun _ _ _ => ?_) ?_ | split

theorem ok_writeMv {k : Core} {v n : Nat} {int init : Bool} {x : Word} (hk : CoreOk k)
    : CoreOk (Core.writeMv k v n int init x) := by
  unfold Core.writeMv
  try dsimp only
  repeat' first
    | with_reducible assumption | (with_reducible refine ok_id ?_; simp only [ok_mk_iff])

/-! ### Sequencer -/

theorem ok_issueS {k : Core} {d : SReg} {x : DWord} (hk : CoreOk k) : CoreOk (Core.issueS k d x) := by
  unfold Core.issueS
  try dsimp only
  repeat' first
    | with_reducible assumption | with_reducible apply ok_setS
    | (with_reducible refine ok_id ?_; simp only [ok_mk_iff])

theorem ok_mapBound {k : Core} {lv : Nat} {f : Nat → Word → Word} (hk : CoreOk k) : CoreOk (Core.mapBound k lv f) := by
  unfold Core.mapBound
  try dsimp only
  repeat' first
    | with_reducible assumption | (with_reducible refine ok_id ?_; simp only [ok_mk_iff])

theorem ok_setLc {k : Core} {lv : Nat} {x : Word} (hk : CoreOk k) : CoreOk (Core.setLc k lv x) := by
  unfold Core.setLc
  try dsimp only
  repeat' first
    | with_reducible assumption | (with_reducible refine ok_id ?_; simp only [ok_mk_iff])

theorem ok_leaveLoop {k : Core} {r : LoopRec} {rest : List LoopRec} (hk : CoreOk k) : CoreOk (Core.leaveLoop k r rest) := by
  unfold Core.leaveLoop
  try dsimp only
  repeat' first
    | with_reducible assumption | with_reducible apply ok_mapBound | with_reducible apply ok_setLc
    | (with_reducible refine ok_id ?_; simp only [ok_mk_iff])

theorem ok_endTest {k : Core} {n b : Nat} (hk : CoreOk k) : CoreOk (Core.endTest n b k) := by
  induction n generalizing k b with
  | zero =>
    unfold Core.endTest
    simp only [ok_mk_iff]
    exact hk
  | succ n ih =>
    unfold Core.endTest
    split
    · simp only [ok_mk_iff]
      exact hk
    · split
      · simp only [ok_mk_iff]
        exact hk
      · dsimp only
        split
        · simp only [ok_mk_iff]
          apply ok_mapBound
          apply ok_setLc
          exact hk
        · exact ih (ok_leaveLoop hk)

theorem ok_refetch {k : Core} {pc0 : Nat} (hk : CoreOk k) : CoreOk (Core.refetch k pc0) := by
  unfold Core.refetch
  try dsimp only
  repeat' first
    | with_reducible assumption | (with_reducible refine ok_id ?_; simp only [ok_mk_iff]) | split

theorem ok_advance {k : Core} (hk : CoreOk k) : CoreOk (Core.advance k) := by
  unfold Core.advance
  try dsimp only
  repeat' first
    | with_reducible assumption | with_reducible apply ok_endTest | with_reducible apply ok_refetch

theorem ok_openLoop {k : Core} {n e : Nat} (hk : CoreOk k) : CoreOk (Core.openLoop k n e) := by
  unfold Core.openLoop
  try dsimp only
  repeat' first
    | with_reducible assumption | with_reducible apply ok_endTest | with_reducible apply ok_refetch
    | with_reducible apply ok_setLc | (with_reducible refine ok_id ?_; simp only [ok_mk_iff]) | split

theorem ok_exitLoop {k : Core} (hk : CoreOk k) : CoreOk (Core.exitLoop k) := by
  unfold Core.exitLoop
  try dsimp only
  repeat' first
    | with_reducible assumption | with_reducible apply ok_advance | with_reducible apply ok_endTest
    | with_reducible apply ok_leaveLoop | with_reducible apply ok_refetch | split

theorem ok_skip {k : Core} {n : Nat} (hk : CoreOk k) : CoreOk (Core.skip k n) := by
  unfold Core.skip
  try dsimp only
  repeat' first
    | with_reducible assumption | (with_reducible refine ok_id ?_; simp only [ok_mk_iff])

theorem ok_loadRecs {k : Core} {rs : List DescRec} (hk : CoreOk k) : CoreOk (Core.loadRecs k rs) := by
  unfold Core.loadRecs
  try dsimp only
  repeat' first
    | with_reducible assumption | (with_reducible refine ok_id ?_; simp only [ok_mk_iff])
    | with_reducible refine ok_foldl (fun _ _ _ => ?_) ?_

theorem ok_enter {k : Core} {r : RoutineRec} {off len : Nat} {rs : List DescRec} {ds : List TensorDecl} (hk : CoreOk k)
    : CoreOk (Core.enter k r off len rs ds) := by
  unfold Core.enter
  try dsimp only
  repeat' first
    | with_reducible assumption | with_reducible apply ok_advance | with_reducible apply ok_loadRecs
    | (with_reducible refine ok_id ?_; simp only [ok_mk_iff])

theorem ok_leave {k : Core} {f : Frame} (hk : CoreOk k) : CoreOk (Core.leave k f) := by
  unfold Core.leave
  try dsimp only
  repeat' first
    | with_reducible assumption | (with_reducible refine ok_id ?_; simp only [ok_mk_iff])

theorem ok_scalarAct {k0 : Core} {o : SclOp} {k : Core} (hk : CoreOk k) : CoreOk (scalarAct k0 o k) := by
  unfold scalarAct
  split
  all_goals first
    | exact ok_issueS hk
    | exact ok_setA hk
    | (simp only [ok_mk_iff]; exact hk)

/-! ### CoreOps -/

theorem keeps_eccFail {s0 : State} {s : State} {c : CoreId} {region loc : Nat} (hs : Keeps s0 s)
    : Keeps s0 (State.eccFail s c region loc) := by
  unfold State.eccFail
  try dsimp only
  repeat' first
    | with_reducible assumption | with_reducible apply keeps_eccUncorrectable | with_reducible apply keeps_failCore

theorem keeps_ownFail {s0 : State} {s : State} {c : CoreId} {region : Nat} {loc : CoreId → Nat → Nat}
    {bad : List (CoreId × Nat)} (hs : Keeps s0 s) : Keeps s0 (State.ownFail s c region loc bad) := by
  unfold State.ownFail
  try dsimp only
  repeat' first
    | with_reducible assumption | with_reducible apply keeps_eccUncorrectable | with_reducible apply keeps_failCore
    | with_reducible apply keeps_mismatch | with_reducible refine keeps_foldl (fun _ _ _ => ?_) ?_ | split

theorem keeps_withOwn {s0 : State} {s : State} {c : CoreId} {region : Nat} {loc : CoreId → Nat → Nat}
    {look : Core → Option Nat} {f : State → State} (hf : ∀ s, Keeps s0 s → Keeps s0 (f s)) (hs : Keeps s0 s)
    : Keeps s0 (State.withOwn s c region loc look f) := by
  unfold State.withOwn
  try dsimp only
  repeat' first
    | with_reducible assumption | with_reducible apply keeps_ownFail | split | intro _ | dsimp only
    | with_reducible apply hf

theorem keeps_fixNear {s0 : State} {s : State} {c : CoreId} {spans : List Span} (hs : Keeps s0 s)
    : Keeps s0 (State.fixNear s c spans) := by
  unfold State.fixNear
  try dsimp only
  repeat' first
    | with_reducible assumption | with_reducible apply keeps_eccFixed
    | with_reducible refine keeps_modCoreI (fun _ _ => ?_) ?_
    | (with_reducible refine Keeps.core ?_ (by assumption) _)
    | (with_reducible refine keeps_id ?_; simp only [keeps_mk_iff])
    | with_reducible refine keeps_foldl (fun _ _ _ => ?_) ?_
    | (with_reducible refine ok_id ?_; simp only [ok_mk_iff]) | split

theorem keeps_fixAcc {s0 : State} {s : State} {c : CoreId} {keys : List Nat} (hs : Keeps s0 s)
    : Keeps s0 (State.fixAcc s c keys) := by
  unfold State.fixAcc
  try dsimp only
  repeat' first
    | with_reducible assumption | with_reducible apply keeps_eccFixed
    | with_reducible refine keeps_modCoreI (fun _ _ => ?_) ?_
    | (with_reducible refine Keeps.core ?_ (by assumption) _)
    | (with_reducible refine keeps_id ?_; simp only [keeps_mk_iff])
    | with_reducible refine keeps_foldl (fun _ _ _ => ?_) ?_
    | (with_reducible refine ok_id ?_; simp only [ok_mk_iff]) | split

theorem keeps_withNear {s0 : State} {s : State} {c : CoreId} {spans : List Span} {f : State → State}
    (hf : ∀ s, Keeps s0 s → Keeps s0 (f s)) (hs : Keeps s0 s) : Keeps s0 (State.withNear s c spans f) := by
  unfold State.withNear
  try dsimp only
  repeat' first
    | with_reducible assumption | with_reducible apply keeps_fixNear | with_reducible apply keeps_withOwn | split
    | intro _ | dsimp only | with_reducible apply hf

theorem keeps_withAcc {s0 : State} {s : State} {c : CoreId} {keys : List Nat} {f : State → State}
    (hf : ∀ s, Keeps s0 s → Keeps s0 (f s)) (hs : Keeps s0 s) : Keeps s0 (State.withAcc s c keys f) := by
  unfold State.withAcc
  try dsimp only
  repeat' first
    | with_reducible assumption | with_reducible apply keeps_fixAcc | with_reducible apply keeps_withOwn | split
    | intro _ | dsimp only | with_reducible apply hf

theorem keeps_freshChecker {s0 : State} {s : State} {c : CoreId} {keys : List Nat} (hs : Keeps s0 s)
    : Keeps s0 (State.freshChecker s c keys) := by
  unfold State.freshChecker
  try dsimp only
  repeat' first
    | with_reducible assumption | with_reducible refine keeps_modCoreI (fun _ _ => ?_) ?_
    | (with_reducible refine Keeps.core ?_ (by assumption) _) | with_reducible apply ok_freshAcc | split

theorem keeps_withDeep {s0 : State} {s : State} {c : CoreId} {rs : List (Nat × Nat)} {f : State → State}
    (hf : ∀ s, Keeps s0 s → Keeps s0 (f s)) (hs : Keeps s0 s) : Keeps s0 (State.withDeep s c rs f) := by
  unfold State.withDeep
  try dsimp only
  repeat' first
    | with_reducible assumption | with_reducible apply keeps_eccFail | with_reducible apply keeps_fixDeep | split
    | intro _ | dsimp only | with_reducible apply hf

theorem keeps_nearPutChecker {s0 s : State} {c : CoreId} {off : Nat} {bs : List Byte} (hs : Keeps s0 s)
    : Keeps s0 (State.nearPutChecker s c off bs).1 := by
  unfold State.nearPutChecker
  split
  · exact hs
  · rename_i d _
    split
    · exact hs
    · dsimp only
      refine keeps_eccFixed (keeps_modCoreI (fun hi hk => ⟨hk.zero, hk.near, hk.tags, hk.written, ?_⟩) hs)
      exact (coreOk_nearWrite _ _ (ok_member (hs.core hi))).poison

theorem keeps_nearPut {s0 s : State} {c : CoreId} {off : Nat} {bs : List Byte} (hs : Keeps s0 s)
    : Keeps s0 (State.nearPut s c off bs) := by
  unfold State.nearPut
  dsimp only
  have h1 : Keeps s0 (((s.nearPutChecker c off bs).1.modCore c (fun _ => ((s.core c).nearWrite off bs).1)).eccFixed 0 ((s.core c).nearMerges off bs)) :=
    keeps_eccFixed (keeps_modCoreI (fun hi _ => coreOk_nearWrite _ _ (hs.core hi c)) (keeps_nearPutChecker hs))
  split
  · exact h1
  · apply keeps_ownFail
    simp only [keeps_mk_iff]
    exact h1

theorem keeps_nearPuts {s0 : State} {s : State} {c : CoreId} {ws : List (Nat × List Byte)} {set : Bool} (hs : Keeps s0 s)
    : Keeps s0 (State.nearPuts s c ws set) := by
  unfold State.nearPuts
  have h1 : Keeps s0 (ws.foldl (fun s w => s.nearPut c w.1 w.2) s) := keeps_foldl (fun _ _ h => keeps_nearPut h) hs
  try dsimp only
  split
  · refine keeps_modCore (fun hk => ?_) h1
    exact ok_foldl (fun _ _ h => coreOk_setTags _ h) hk
  · exact h1

theorem keeps_goFeed {s0 : State} {s : State} {c : CoreId} {tag : ReadTag} {fd : Feed} {put : Feed → Core → Core}
    (hput : ∀ y k, CoreOk k → CoreOk (put y k)) (hs : Keeps s0 s) : Keeps s0 (State.goFeed s c tag fd put) := by
  unfold State.goFeed
  try dsimp only
  repeat' first
    | with_reducible assumption | with_reducible refine keeps_modCoreI (fun _ _ => ?_) ?_
    | (with_reducible refine Keeps.core ?_ (by assumption) _) | with_reducible apply keeps_withNear
    | with_reducible apply coreOk_takeTags | split | intro _ | dsimp only | with_reducible apply hput

theorem keeps_landPuts {s0 s : State} {c : CoreId} {seq : Nat} {set : Bool} {ws : List (Nat × List Byte)} {ent : List Nat} (hs
    : Keeps s0 s) : Keeps s0 (State.landPuts s c seq set ws ent).1 := by
  induction ws generalizing s ent with
  | nil => exact hs
  | cons w r ih =>
    unfold State.landPuts
    dsimp only
    split
    · exact hs
    · refine ih ?_
      split
      · exact keeps_modCore (fun hk => coreOk_setTags _ hk) (keeps_nearPut hs)
      · exact keeps_nearPut hs

/-! ### Expander -/

theorem keeps_modHead {s0 : State} {s : State} {c : CoreId} {t : Fin 8} {g : DmaFlight → DmaFlight} (hs : Keeps s0 s)
    : Keeps s0 (State.modHead s c t g) := by
  unfold State.modHead
  try dsimp only
  repeat' first
    | with_reducible assumption | with_reducible refine keeps_modCoreI (fun _ _ => ?_) ?_
    | (with_reducible refine Keeps.core ?_ (by assumption) _)
    | (with_reducible refine keeps_id ?_; simp only [keeps_mk_iff])
    | (with_reducible refine ok_id ?_; simp only [ok_mk_iff])

theorem keeps_expanderFail {s0 : State} {s : State} {c : CoreId} {t : Fin 8} {b : HbcBad} (hs : Keeps s0 s)
    : Keeps s0 (State.expanderFail s c t b) := by
  unfold State.expanderFail
  try dsimp only
  repeat' first
    | with_reducible assumption | with_reducible apply keeps_failCore | with_reducible apply keeps_health
    | (with_reducible refine keeps_id ?_; simp only [keeps_mk_iff])

theorem keeps_expandBlock {s0 : State} {s : State} {c : CoreId} {t : Fin 8} (hs : Keeps s0 s)
    : Keeps s0 (State.expandBlock s c t) := by
  unfold State.expandBlock
  try dsimp only
  repeat' first
    | with_reducible assumption | with_reducible apply keeps_expanderFail
    | with_reducible refine keeps_modCoreI (fun _ _ => ?_) ?_
    | (with_reducible refine Keeps.core ?_ (by assumption) _) | with_reducible apply keeps_modHead
    | (with_reducible refine keeps_id ?_; simp only [keeps_mk_iff])
    | (with_reducible refine ok_id ?_; simp only [ok_mk_iff]) | split

theorem keeps_expandN {s0 s : State} {cl : ClusterId} {n : Nat} (hs : Keeps s0 s) : Keeps s0 (State.expandN s cl n) := by
  induction n generalizing s with
  | zero => exact hs
  | succ n ih =>
    unfold State.expandN
    split
    · exact hs
    · split
      · exact ih (keeps_expandBlock (keeps_mk hs))
      · exact hs

theorem keeps_expand {s0 : State} {s : State} {c : CoreId} (hs : Keeps s0 s) : Keeps s0 (State.expand s c) := by
  unfold State.expand
  try dsimp only
  repeat' first
    | with_reducible assumption | with_reducible apply keeps_expandN

theorem keeps_takeExp {s0 s : State} {c : CoreId} {t : Fin 8} {fuel n : Nat} {got : List Byte} (hs : Keeps s0 s)
    : Keeps s0 (State.takeExp s c t fuel n got).1 := by
  induction fuel generalizing s n got with
  | zero => exact hs
  | succ fuel ih =>
    unfold State.takeExp
    have h1 := keeps_expand (c := c) hs
    revert h1
    generalize s.expand c = s
    intro h1
    dsimp only
    split
    · split
      · exact h1
      · refine ih (keeps_modCore (fun hk => ?_) h1)
        simp only [ok_mk_iff]
        exact hk
    · exact h1

theorem keeps_feedExp {s0 : State} {s : State} {c : CoreId} {t : Fin 8} {n : Nat} {fd : Feed} {put : Feed → Core → Core}
    (hput : ∀ y k, CoreOk k → CoreOk (put y k)) (hs : Keeps s0 s) : Keeps s0 (State.feedExp s c t n fd put) := by
  unfold State.feedExp
  try dsimp only
  repeat' first
    | with_reducible assumption | with_reducible refine keeps_modCoreI (fun _ _ => ?_) ?_
    | (with_reducible refine Keeps.core ?_ (by assumption) _) | with_reducible apply keeps_takeExp | split | intro _
    | dsimp only | with_reducible apply hput

/-! ### Arrays -/

theorem keeps_takeRows {s0 : State} {s : State} {c : CoreId} {p : ReadPlan} {arrays : List (Nat × Nat)} {first count : Nat}
    {put : Puts → Core → Core} (hput : ∀ y k, CoreOk k → CoreOk (put y k)) (hs : Keeps s0 s)
    : Keeps s0 (State.takeRows s c p arrays first count put) := by
  unfold State.takeRows
  try dsimp only
  repeat' first
    | with_reducible assumption | with_reducible refine keeps_modCoreI (fun _ _ => ?_) ?_
    | (with_reducible refine Keeps.core ?_ (by assumption) _) | with_reducible apply keeps_withAcc
    | with_reducible refine ok_foldl (fun _ _ _ => ?_) ?_ | with_reducible apply ok_countNarrow
    | with_reducible apply ok_raiseTile | with_reducible apply ok_setV | with_reducible apply ok_untouchTile | split
    | intro _ | dsimp only | with_reducible apply hput

theorem keeps_checked {s0 : State} {s : State} {c : CoreId} {w : NsWin} {spans : List Span} {f : List Span → State}
    (hf : ∀ xs, Keeps s0 (f xs)) (hs : Keeps s0 s) : Keeps s0 (State.checked s c w spans f) := by
  unfold State.checked
  split
  · exact hf _
  · exact keeps_failCore hs

theorem keeps_issuePass {s0 : State} {s : State} {c : CoreId} {k0 : Core} {mt : Fin 8} {am : BitVec 4} {sM sAcc : SReg}
    {init swap last : Bool} {ad : Fin 8} {aB : AReg} {sQ sY sB : SReg} (hs : Keeps s0 s)
    : Keeps s0 (State.issuePass s c k0 mt am sM sAcc init swap last ad aB sQ sY sB) := by
  unfold State.issuePass
  try dsimp only
  repeat' first
    | with_reducible assumption | with_reducible apply keeps_checked
    | with_reducible refine keeps_modCoreI (fun _ _ => ?_) ?_
    | (with_reducible refine Keeps.core ?_ (by assumption) _) | with_reducible apply keeps_withNear
    | (with_reducible refine keeps_id ?_; simp only [keeps_mk_iff])
    | (with_reducible refine ok_id ?_; simp only [ok_mk_iff]) | split | intro _

theorem keeps_issueRead {s0 : State} {s : State} {c : CoreId} {k0 : Core} {mt : Fin 8} {am : BitVec 4} {sFirst sCount : SReg}
    (hs : Keeps s0 s) : Keeps s0 (State.issueRead s c k0 mt am sFirst sCount) := by
  unfold State.issueRead
  try dsimp only
  repeat' first
    | with_reducible assumption | with_reducible apply keeps_checked
    | with_reducible refine keeps_modCoreI (fun _ _ => ?_) ?_
    | (with_reducible refine Keeps.core ?_ (by assumption) _) | with_reducible apply keeps_withNear
    | (with_reducible refine keeps_id ?_; simp only [keeps_mk_iff])
    | (with_reducible refine ok_id ?_; simp only [ok_mk_iff]) | split | intro _

theorem keeps_issueLoad {s0 : State} {s : State} {c : CoreId} {k0 : Core} {isImport : Bool} {am : BitVec 4} {bd : Fin 8}
    {a : AReg} {nr first count : Nat} (hs : Keeps s0 s)
    : Keeps s0 (State.issueLoad s c k0 isImport am bd a nr first count) := by
  unfold State.issueLoad
  try dsimp only
  repeat' first
    | with_reducible assumption | with_reducible apply keeps_checked | with_reducible apply keeps_failCore
    | with_reducible refine keeps_modCoreI (fun _ _ => ?_) ?_
    | (with_reducible refine Keeps.core ?_ (by assumption) _)
    | (with_reducible refine keeps_id ?_; simp only [keeps_mk_iff])
    | (with_reducible refine ok_id ?_; simp only [ok_mk_iff]) | split | intro _

theorem ok_swapArrays {k : Core} {arrays : List (Nat × Nat)} (hk : CoreOk k) : CoreOk (Core.swapArrays k arrays) := by
  unfold Core.swapArrays
  try dsimp only
  repeat' first
    | with_reducible assumption | (with_reducible refine ok_id ?_; simp only [ok_mk_iff])

theorem ok_modPass {k : Core} {seq : Nat} {g : PassFlight → PassFlight} (hk : CoreOk k) : CoreOk (Core.modPass k seq g) := by
  unfold Core.modPass
  try dsimp only
  repeat' first
    | with_reducible assumption | (with_reducible refine ok_id ?_; simp only [ok_mk_iff])

theorem keeps_beginPass {s0 : State} {s : State} {c : CoreId} {f : PassFlight} (hs : Keeps s0 s)
    : Keeps s0 (State.beginPass s c f) := by
  unfold State.beginPass
  try dsimp only
  repeat' first
    | with_reducible assumption | with_reducible apply keeps_disableArray | with_reducible apply keeps_failCore
    | with_reducible refine keeps_modCoreI (fun _ _ => ?_) ?_
    | (with_reducible refine Keeps.core ?_ (by assumption) _) | with_reducible apply ok_modPass
    | with_reducible apply ok_swapArrays | split

theorem keeps_streamPass {s0 : State} {s : State} {c : CoreId} {seq : Nat} (hs : Keeps s0 s)
    : Keeps s0 (State.streamPass s c seq) := by
  unfold State.streamPass
  try dsimp only
  repeat' first
    | with_reducible assumption | with_reducible apply keeps_goFeed
    | with_reducible refine keeps_modCoreI (fun _ _ => ?_) ?_
    | (with_reducible refine Keeps.core ?_ (by assumption) _) | with_reducible apply keeps_withNear
    | with_reducible apply ok_modPass | split | intro _

theorem keeps_startPass {s0 : State} {s : State} {c : CoreId} {f : PassFlight} (hs : Keeps s0 s)
    : Keeps s0 (State.startPass s c f) := by
  unfold State.startPass
  try dsimp only
  repeat' first
    | with_reducible assumption | with_reducible apply keeps_beginPass | with_reducible apply keeps_streamPass
    | split

theorem keeps_startPasses {s0 : State} {c : CoreId} {n : Nat} {s : State} (hs : Keeps s0 s)
    : Keeps s0 (State.startPasses s c n) := by
  induction n generalizing s with
  | zero => exact hs
  | succ n ih =>
    unfold State.startPasses
    dsimp only
    repeat' first
      | exact hs
      | with_reducible apply ih
      | with_reducible apply keeps_startPass
      | split

theorem keeps_settleAga {s0 : State} {s : State} {c : CoreId} (hs : Keeps s0 s)
    : Keeps s0 (State.settleAga s c) := keeps_startPasses hs

theorem keeps_writePass {s0 : State} {s : State} {c : CoreId} {f : PassFlight} (hs : Keeps s0 s)
    : Keeps s0 (State.writePass s c f) := by
  unfold State.writePass
  try dsimp only
  repeat' first
    | with_reducible assumption | with_reducible apply keeps_freshChecker
    | with_reducible refine keeps_modCoreI (fun _ _ => ?_) ?_
    | (with_reducible refine Keeps.core ?_ (by assumption) _) | with_reducible apply keeps_withAcc
    | with_reducible refine ok_foldl (fun _ _ _ => ?_) ?_ | with_reducible apply ok_freshAcc
    | with_reducible apply ok_writeRow | split | intro _

theorem keeps_goChained {s0 : State} {s : State} {c : CoreId} (hs : Keeps s0 s) : Keeps s0 (State.goChained s c) := by
  unfold State.goChained
  try dsimp only
  repeat' first
    | with_reducible assumption | with_reducible apply keeps_landPuts
    | with_reducible refine keeps_modCoreI (fun _ _ => ?_) ?_
    | (with_reducible refine Keeps.core ?_ (by assumption) _)
    | (with_reducible refine keeps_id ?_; simp only [keeps_mk_iff])
    | (with_reducible refine ok_id ?_; simp only [ok_mk_iff]) | split

theorem keeps_endPass {s0 : State} {s : State} {c : CoreId} (hs : Keeps s0 s) : Keeps s0 (State.endPass s c) := by
  unfold State.endPass
  try dsimp only
  repeat' first
    | with_reducible assumption | with_reducible apply keeps_goChained
    | with_reducible refine keeps_modCoreI (fun _ _ => ?_) ?_
    | (with_reducible refine Keeps.core ?_ (by assumption) _) | with_reducible apply keeps_settleAga
    | with_reducible apply keeps_takeRows | (with_reducible refine keeps_id ?_; simp only [keeps_mk_iff])
    | (with_reducible refine ok_id ?_; simp only [ok_mk_iff]) | split | intro _

theorem keeps_landPass {s0 : State} {s : State} {c : CoreId} (hs : Keeps s0 s) : Keeps s0 (State.landPass s c) := by
  unfold State.landPass
  try dsimp only
  repeat' first
    | with_reducible assumption | with_reducible apply keeps_endPass
    | with_reducible refine keeps_modCoreI (fun _ _ => ?_) ?_
    | (with_reducible refine Keeps.core ?_ (by assumption) _) | with_reducible apply keeps_settleAga
    | with_reducible apply keeps_writePass | (with_reducible refine keeps_id ?_; simp only [keeps_mk_iff])
    | (with_reducible refine ok_id ?_; simp only [ok_mk_iff]) | split

theorem keeps_goReadout {s0 : State} {s : State} {c : CoreId} (hs : Keeps s0 s) : Keeps s0 (State.goReadout s c) := by
  unfold State.goReadout
  try dsimp only
  repeat' first
    | with_reducible assumption | with_reducible apply keeps_landPuts
    | with_reducible refine keeps_modCoreI (fun _ _ => ?_) ?_
    | (with_reducible refine Keeps.core ?_ (by assumption) _)
    | (with_reducible refine keeps_id ?_; simp only [keeps_mk_iff])
    | (with_reducible refine ok_id ?_; simp only [ok_mk_iff]) | split

theorem keeps_landReadout {s0 : State} {s : State} {c : CoreId} (hs : Keeps s0 s) : Keeps s0 (State.landReadout s c) := by
  unfold State.landReadout
  try dsimp only
  repeat' first
    | with_reducible assumption | with_reducible apply keeps_goReadout | with_reducible apply keeps_takeRows
    | (with_reducible refine keeps_id ?_; simp only [keeps_mk_iff])
    | (with_reducible refine ok_id ?_; simp only [ok_mk_iff]) | split | intro _

theorem ok_writeShadow {k : Core} {f : LoadFlight} {bss : List (List (List Byte))} (hk : CoreOk k)
    : CoreOk (Core.writeShadow k f bss) := by
  unfold Core.writeShadow
  try dsimp only
  repeat' first
    | with_reducible assumption | (with_reducible refine ok_id ?_; simp only [ok_mk_iff])

theorem ok_importTiles {k : Core} {f : LoadFlight} {bss : List (List (List Byte))} (hk : CoreOk k)
    : CoreOk (Core.importTiles k f bss) := by
  unfold Core.importTiles
  try dsimp only
  repeat' first
    | with_reducible assumption | with_reducible apply ok_freshAcc | with_reducible apply ok_importRow
    | with_reducible refine ok_foldl (fun _ _ _ => ?_) ?_

theorem keeps_feedLoad {s0 : State} {s : State} {c : CoreId} (hs : Keeps s0 s) : Keeps s0 (State.feedLoad s c) := by
  unfold State.feedLoad
  try dsimp only
  repeat' first
    | with_reducible assumption | with_reducible apply keeps_feedExp | with_reducible apply keeps_goFeed
    | (with_reducible refine keeps_id ?_; simp only [keeps_mk_iff])
    | (with_reducible refine ok_id ?_; simp only [ok_mk_iff]) | split | intro _

theorem keeps_landLoad {s0 : State} {s : State} {c : CoreId} (hs : Keeps s0 s) : Keeps s0 (State.landLoad s c) := by
  unfold State.landLoad
  try dsimp only
  repeat' first
    | with_reducible assumption | with_reducible apply keeps_feedLoad | with_reducible apply keeps_freshChecker
    | with_reducible refine keeps_modCoreI (fun _ _ => ?_) ?_
    | (with_reducible refine Keeps.core ?_ (by assumption) _) | with_reducible apply keeps_settleAga
    | with_reducible apply keeps_withAcc | with_reducible apply keeps_withDeep | with_reducible apply keeps_withNear
    | (with_reducible refine keeps_id ?_; simp only [keeps_mk_iff]) | with_reducible apply ok_importTiles
    | with_reducible apply ok_writeShadow | (with_reducible refine ok_id ?_; simp only [ok_mk_iff]) | split | intro _

/-! ### Dma -/

theorem keeps_streamFault {s0 : State} {s : State} {c : CoreId} {t : Fin 8} {ast addr : Nat} {a : Access} {f : XFault} (hs
    : Keeps s0 s) : Keeps s0 (State.streamFault s c t ast addr a f) := by
  unfold State.streamFault
  try dsimp only
  repeat' first
    | with_reducible assumption | with_reducible apply keeps_failRun | with_reducible apply keeps_reportFault | split

theorem keeps_presentWalk {s0 : State} {s : State} {c : CoreId} {t : Fin 8} {qos : Fin 4} {w : WalkSt} (hs : Keeps s0 s)
    : Keeps s0 (State.presentWalk s c t qos w) := by
  unfold State.presentWalk
  try dsimp only
  repeat' first
    | with_reducible assumption | with_reducible apply keeps_await | with_reducible apply keeps_modHead
    | with_reducible apply keeps_present | split | intro _ | dsimp only
    | refine KeepsOpt.out (keeps_present ?_) _ (by with_reducible assumption)

theorem keeps_countStreamWalk {s0 : State} {s : State} {c : CoreId} {rt : Bool} (hs : Keeps s0 s)
    : Keeps s0 (State.countStreamWalk s c rt) := by
  unfold State.countStreamWalk
  try dsimp only
  repeat' first
    | with_reducible assumption | with_reducible apply keeps_countWalk | with_reducible apply keeps_health
    | (with_reducible refine keeps_id ?_; simp only [keeps_mk_iff])
    | (with_reducible refine ok_id ?_; simp only [ok_mk_iff]) | split

theorem keeps_hostPiece {s0 : State} {s : State} {c : CoreId} {t : Fin 8} {x : StepRec} {f : DmaFlight} {g : Seg} (hs
    : Keeps s0 s) : Keeps s0 (State.hostPiece s c t x f g).1 := by
  unfold State.hostPiece
  try dsimp only
  repeat' first
    | with_reducible assumption | with_reducible apply keeps_await | with_reducible apply keeps_countStreamWalk
    | with_reducible refine keeps_modCoreI (fun _ _ => ?_) ?_
    | (with_reducible refine Keeps.core ?_ (by assumption) _) | with_reducible apply keeps_modHead
    | with_reducible apply keeps_present | with_reducible apply keeps_presentWalk
    | with_reducible apply keeps_streamFault | with_reducible apply keeps_streamLookup
    | with_reducible apply keeps_streamParity | with_reducible apply keeps_tableParity
    | (with_reducible refine keeps_id ?_; simp only [keeps_mk_iff])
    | (with_reducible refine ok_id ?_; simp only [ok_mk_iff]) | split | intro _ | dsimp only
    | refine KeepsOpt2.out (keeps_streamLookup ?_) _ _ (by with_reducible assumption)
    | refine KeepsOpt.out (keeps_present ?_) _ (by with_reducible assumption)

theorem keeps_remotePiece {s0 : State} {s : State} {c : CoreId} {t : Fin 8} {p : PartId} {f : DmaFlight} {g : Seg} {e w : Nat}
    (hs : Keeps s0 s) : Keeps s0 (State.remotePiece s c t p f g e w).1 := by
  unfold State.remotePiece
  try dsimp only
  repeat' first
    | with_reducible assumption | with_reducible apply keeps_failRun
    | with_reducible refine keeps_modCoreI (fun _ _ => ?_) ?_
    | (with_reducible refine Keeps.core ?_ (by assumption) _) | with_reducible apply keeps_modHead
    | with_reducible apply keeps_sendMsg | (with_reducible refine keeps_id ?_; simp only [keeps_mk_iff])
    | (with_reducible refine ok_id ?_; simp only [ok_mk_iff]) | split

theorem keeps_pumpN {s0 : State} {c : CoreId} {t : Fin 8} {n : Nat} {s : State} (hs : Keeps s0 s)
    : Keeps s0 (State.pumpN s c t n) := by
  induction n generalizing s with
  | zero => exact hs
  | succ n ih =>
    unfold State.pumpN
    have key : ∀ r : State × Bool, Keeps s0 r.1 → Keeps s0 (if r.2 then r.1.pumpN c t n else r.1) := by
      intro r hr
      split
      · exact ih hr
      · exact hr
    split
    · split
      · split
        · exact hs
        · exact keeps_presentWalk hs
      · refine key _ ?_
        split
        · exact keeps_remotePiece hs
        · exact keeps_hostPiece hs
      · exact hs
    · exact hs

theorem keeps_pumpDma {s0 : State} {s : State} {c : CoreId} {t : Fin 8} (hs : Keeps s0 s) : Keeps s0 (State.pumpDma s c t) := by
  unfold State.pumpDma
  split
  · exact keeps_pumpN hs
  · exact hs

theorem keeps_collect {s0 : State} {s : State} {c : CoreId} {t : Fin 8} {p : PartId} {f : DmaFlight} {phase : Nat}
    {ps : List (Nat × Nat × Nat)} (hs : Keeps s0 s) : Keeps s0 (State.collect s c t p f phase ps) := by
  unfold State.collect
  try dsimp only
  repeat' first
    | with_reducible assumption | with_reducible apply keeps_failCore | with_reducible apply keeps_modHead
    | with_reducible apply keeps_withDeep | split | intro _

theorem keeps_startDma {s0 : State} {s : State} {c : CoreId} {t : Fin 8} (hs : Keeps s0 s)
    : Keeps s0 (State.startDma s c t) := by
  unfold State.startDma
  try dsimp only
  repeat' first
    | with_reducible assumption | with_reducible apply keeps_collect | with_reducible apply keeps_goFeed
    | with_reducible refine keeps_modCoreI (fun _ _ => ?_) ?_
    | (with_reducible refine Keeps.core ?_ (by assumption) _) | with_reducible apply keeps_modHead
    | with_reducible apply keeps_withNear | (with_reducible refine keeps_id ?_; simp only [keeps_mk_iff])
    | (with_reducible refine ok_id ?_; simp only [ok_mk_iff]) | split | intro _

theorem keeps_deliver {s0 : State} {s : State} {c : CoreId} {t : Fin 8} {p : PartId} {x : StepRec} {f : DmaFlight}
    {rows : List (List Byte)} (hs : Keeps s0 s) : Keeps s0 (State.deliver s c t p x f rows) := by
  unfold State.deliver
  try dsimp only
  repeat' first
    | with_reducible assumption | with_reducible apply keeps_expand | with_reducible apply keeps_failCore
    | with_reducible refine keeps_modCoreI (fun _ _ => ?_) ?_
    | (with_reducible refine Keeps.core ?_ (by assumption) _) | with_reducible apply keeps_modHead
    | (with_reducible refine keeps_id ?_; simp only [keeps_mk_iff])
    | (with_reducible refine ok_id ?_; simp only [ok_mk_iff]) | split

theorem keeps_turnDma {s0 : State} {s : State} {c : CoreId} {t : Fin 8} (hs : Keeps s0 s) : Keeps s0 (State.turnDma s c t) := by
  unfold State.turnDma
  try dsimp only
  repeat' first
    | with_reducible assumption | with_reducible apply keeps_collect | with_reducible apply keeps_deliver
    | with_reducible apply keeps_failCore | split

theorem keeps_driveDma {s0 : State} {s : State} {c : CoreId} {t : Fin 8} (hs : Keeps s0 s)
    : Keeps s0 (State.driveDma s c t) := by
  unfold State.driveDma
  try dsimp only
  repeat' first
    | with_reducible assumption | with_reducible apply keeps_expand | with_reducible apply keeps_pumpDma
    | with_reducible apply keeps_startDma | with_reducible apply keeps_turnDma

theorem keeps_landPieces {s0 : State} {c : CoreId} {t : Fin 8} {n : Nat} {s : State} (hs : Keeps s0 s)
    : Keeps s0 (State.landPieces s c t n) := by
  induction n generalizing s with
  | zero => exact hs
  | succ n ih =>
    unfold State.landPieces
    split
    · exact hs
    · split
      · exact hs
      · dsimp only
        split
        · refine ih ?_
          split
          · exact keeps_modCore (fun hk => coreOk_setTags _ hk) (keeps_nearPut (keeps_modHead hs))
          · exact keeps_nearPut (keeps_modHead hs)
        · exact hs

theorem keeps_landNear {s0 : State} {s : State} {c : CoreId} {t : Fin 8} (hs : Keeps s0 s)
    : Keeps s0 (State.landNear s c t) := by
  unfold State.landNear
  split
  · exact keeps_landPieces hs
  · exact hs

theorem keeps_landDeepOf {s0 : State} {s : State} {c : CoreId} {seq : Nat} (hs : Keeps s0 s)
    : Keeps s0 (State.landDeepOf s c seq) := by
  unfold State.landDeepOf
  try dsimp only
  repeat' first
    | with_reducible assumption | with_reducible apply keeps_deepWrite | with_reducible apply keeps_failCore
    | with_reducible refine keeps_modCoreI (fun _ _ => ?_) ?_
    | (with_reducible refine Keeps.core ?_ (by assumption) _)
    | (with_reducible refine keeps_id ?_; simp only [keeps_mk_iff])
    | with_reducible refine keeps_foldl (fun _ _ _ => ?_) ?_
    | (with_reducible refine ok_id ?_; simp only [ok_mk_iff]) | split

theorem keeps_endDma {s0 : State} {s : State} {c : CoreId} {t : Fin 8} (hs : Keeps s0 s) : Keeps s0 (State.endDma s c t) := by
  unfold State.endDma
  try dsimp only
  repeat' first
    | with_reducible assumption | with_reducible apply keeps_driveDma | with_reducible apply keeps_landDeepOf
    | with_reducible apply keeps_landNear | with_reducible refine keeps_modCoreI (fun _ _ => ?_) ?_
    | (with_reducible refine Keeps.core ?_ (by assumption) _)
    | (with_reducible refine keeps_id ?_; simp only [keeps_mk_iff])
    | (with_reducible refine ok_id ?_; simp only [ok_mk_iff]) | split

theorem keeps_landOneDeep {s0 : State} {s : State} {c : CoreId} (hs : Keeps s0 s) : Keeps s0 (State.landOneDeep s c) := by
  unfold State.landOneDeep
  try dsimp only
  repeat' first
    | with_reducible assumption | with_reducible apply keeps_deepWrite | with_reducible apply keeps_failCore
    | with_reducible refine keeps_modCoreI (fun _ _ => ?_) ?_
    | (with_reducible refine Keeps.core ?_ (by assumption) _)
    | (with_reducible refine keeps_id ?_; simp only [keeps_mk_iff])
    | (with_reducible refine ok_id ?_; simp only [ok_mk_iff]) | split

theorem keeps_issueDma {s0 : State} {s : State} {c : CoreId} {k0 : Core} {exp : Bool} {t dd : Fin 8} {near : Nat}
    {sF sL : SReg} (hs : Keeps s0 s) : Keeps s0 (State.issueDma s c k0 exp t dd near sF sL) := by
  unfold State.issueDma
  try dsimp only
  repeat' first
    | with_reducible assumption | with_reducible apply keeps_checked | with_reducible apply keeps_driveDma
    | with_reducible apply keeps_failCore | with_reducible refine keeps_modCoreI (fun _ _ => ?_) ?_
    | (with_reducible refine Keeps.core ?_ (by assumption) _)
    | (with_reducible refine keeps_id ?_; simp only [keeps_mk_iff])
    | (with_reducible refine ok_id ?_; simp only [ok_mk_iff]) | split | intro _

/-! ### Mvp -/

theorem ok_storeWrite {k : Core} {v off : Nat} {bs : List Byte} (hk : CoreOk k) : CoreOk (Core.storeWrite k v off bs) := by
  unfold Core.storeWrite
  try dsimp only
  repeat' first
    | with_reducible assumption | (with_reducible refine ok_id ?_; simp only [ok_mk_iff])

theorem keeps_issueMvPass {s0 : State} {s : State} {c : CoreId} {k0 : Core} {vt v1 : Fin 4} {init last : Bool}
    {sAcc sAoff : SReg} {bd : Fin 8} {a : AReg} (hs : Keeps s0 s)
    : Keeps s0 (State.issueMvPass s c k0 vt v1 init last sAcc sAoff bd a) := by
  unfold State.issueMvPass
  try dsimp only
  repeat' first
    | with_reducible assumption | with_reducible apply keeps_checked | with_reducible apply keeps_failCore
    | with_reducible refine keeps_modCoreI (fun _ _ => ?_) ?_
    | (with_reducible refine Keeps.core ?_ (by assumption) _) | with_reducible apply keeps_withNear
    | (with_reducible refine keeps_id ?_; simp only [keeps_mk_iff]) | with_reducible apply ok_raiseMv
    | (with_reducible refine ok_id ?_; simp only [ok_mk_iff]) | split | intro _

theorem keeps_issueMvRead {s0 : State} {s : State} {c : CoreId} {k0 : Core} {vt v1 : Fin 4} {sAcc sN : SReg} (hs : Keeps s0 s)
    : Keeps s0 (State.issueMvRead s c k0 vt v1 sAcc sN) := by
  unfold State.issueMvRead
  try dsimp only
  repeat' first
    | with_reducible assumption | with_reducible apply keeps_checked
    | with_reducible refine keeps_modCoreI (fun _ _ => ?_) ?_
    | (with_reducible refine Keeps.core ?_ (by assumption) _) | with_reducible apply keeps_withNear
    | (with_reducible refine keeps_id ?_; simp only [keeps_mk_iff])
    | (with_reducible refine ok_id ?_; simp only [ok_mk_iff]) | split | intro _

theorem ok_mvAccumulate {s : State} {c : CoreId} {p : PartId} {f : MvFlight} (hk : CoreOk (s.core c))
    : CoreOk (State.mvAccumulate s c p f) := by
  unfold State.mvAccumulate
  dsimp only
  apply ok_freshAcc
  refine ok_foldl (fun k n h => ?_) (ok_raiseMv hk)
  refine ok_foldl (fun k n h => ?_) h
  refine ok_foldl (fun k n h => ?_) h
  exact ok_raiseMv (ok_writeMv h)

theorem ok_putMvWords {k : Core} {f : MvFlight} {p : MvPlan} {v : Nat} {ws : List Word} (hk : CoreOk k)
    : CoreOk (Core.putMvWords k f p v ws) := by
  unfold Core.putMvWords
  try dsimp only
  repeat' first
    | with_reducible assumption | with_reducible apply ok_setV | with_reducible refine ok_foldl (fun _ _ _ => ?_) ?_

theorem ok_modMv {k : Core} {seq : Nat} {g : MvFlight → MvFlight} (hk : CoreOk k) : CoreOk (Core.modMv k seq g) := by
  unfold Core.modMv
  try dsimp only
  repeat' first
    | with_reducible assumption | (with_reducible refine ok_id ?_; simp only [ok_mk_iff])

theorem ok_dropMv {k : Core} {seq : Nat} (hk : CoreOk k) : CoreOk (Core.dropMv k seq) := by
  unfold Core.dropMv
  try dsimp only
  repeat' first
    | with_reducible assumption | (with_reducible refine ok_id ?_; simp only [ok_mk_iff])

theorem keeps_mvTake {s0 : State} {s : State} {c : CoreId} {f : MvFlight} {p : MvPlan} (hs : Keeps s0 s)
    : Keeps s0 (State.mvTake s c f p) := by
  unfold State.mvTake
  try dsimp only
  repeat' first
    | with_reducible assumption | with_reducible refine keeps_modCoreI (fun _ _ => ?_) ?_
    | (with_reducible refine Keeps.core ?_ (by assumption) _) | with_reducible apply keeps_withAcc
    | with_reducible refine ok_foldl (fun _ _ _ => ?_) ?_ | with_reducible apply ok_countNarrow
    | with_reducible apply ok_dropMv | with_reducible apply ok_modMv | with_reducible apply ok_putMvWords
    | with_reducible apply ok_raiseMv | split | intro _

theorem keeps_goMv {s0 : State} {s : State} {c : CoreId} {seq : Nat} (hs : Keeps s0 s) : Keeps s0 (State.goMv s c seq) := by
  unfold State.goMv
  try dsimp only
  repeat' first
    | with_reducible assumption | with_reducible apply keeps_landPuts
    | with_reducible refine keeps_modCoreI (fun _ _ => ?_) ?_
    | (with_reducible refine Keeps.core ?_ (by assumption) _) | with_reducible apply ok_dropMv
    | with_reducible apply ok_modMv | split

theorem keeps_feedMv {s0 : State} {s : State} {c : CoreId} (hs : Keeps s0 s) : Keeps s0 (State.feedMv s c) := by
  unfold State.feedMv
  try dsimp only
  repeat' first
    | with_reducible assumption | with_reducible apply keeps_feedExp | with_reducible apply keeps_goFeed
    | with_reducible apply ok_modMv | split | intro _

theorem keeps_accumulateMv {s0 : State} {s : State} {c : CoreId} {p : PartId} {f : MvFlight} (hs : Keeps s0 s)
    : Keeps s0 (State.accumulateMv s c p f) := by
  unfold State.accumulateMv
  dsimp only
  refine keeps_withNear (fun t ht => ?_) hs
  refine keeps_withDeep (fun t ht => ?_) ht
  refine keeps_withAcc (fun t ht => ?_) ht
  refine keeps_modCoreI (fun hi _ => ?_) (keeps_freshChecker ht)
  have h1 := ok_mvAccumulate (c := c) (p := p) (f := f) (ht.core hi c)
  split
  · exact ok_modMv h1
  · exact ok_dropMv h1

theorem keeps_landMvRead {s0 : State} {s : State} {c : CoreId} {f : MvFlight} (hs : Keeps s0 s)
    : Keeps s0 (State.landMvRead s c f) := by
  unfold State.landMvRead
  try dsimp only
  repeat' first
    | with_reducible assumption | with_reducible apply keeps_goMv
    | with_reducible refine keeps_modCoreI (fun _ _ => ?_) ?_
    | (with_reducible refine Keeps.core ?_ (by assumption) _) | with_reducible apply keeps_mvTake
    | with_reducible apply ok_dropMv | split

theorem keeps_landMv {s0 : State} {s : State} {c : CoreId} (hs : Keeps s0 s) : Keeps s0 (State.landMv s c) := by
  unfold State.landMv
  try dsimp only
  repeat' first
    | with_reducible assumption | with_reducible apply keeps_accumulateMv | with_reducible apply keeps_feedMv
    | with_reducible apply keeps_landMvRead | split

theorem keeps_issueTap {s0 : State} {s : State} {c : CoreId} {k0 : Core} {ad : Fin 8} {aB : AReg} {sP sY : SReg} {vD : VReg}
    {padMax : Bool} (hs : Keeps s0 s) : Keeps s0 (State.issueTap s c k0 ad aB sP sY vD padMax) := by
  unfold State.issueTap
  try dsimp only
  repeat' first
    | with_reducible assumption | with_reducible apply keeps_checked | with_reducible apply keeps_failCore
    | with_reducible refine keeps_modCoreI (fun _ _ => ?_) ?_
    | (with_reducible refine Keeps.core ?_ (by assumption) _)
    | (with_reducible refine keeps_id ?_; simp only [keeps_mk_iff])
    | (with_reducible refine ok_id ?_; simp only [ok_mk_iff]) | split | intro _

theorem keeps_issueStld {s0 : State} {s : State} {c : CoreId} {k0 : Core} {row : Fin 4} {a : AReg} {tag : BitVec 2}
    {sLen : SReg} {doff : BitVec 13} (hs : Keeps s0 s) : Keeps s0 (State.issueStld s c k0 row a tag sLen doff) := by
  unfold State.issueStld
  try dsimp only
  repeat' first
    | with_reducible assumption | with_reducible apply keeps_checked
    | with_reducible refine keeps_modCoreI (fun _ _ => ?_) ?_
    | (with_reducible refine Keeps.core ?_ (by assumption) _)
    | (with_reducible refine keeps_id ?_; simp only [keeps_mk_iff])
    | (with_reducible refine ok_id ?_; simp only [ok_mk_iff]) | split | intro _

theorem ok_deliverTap {k : Core} {f : TapFlight} {read : Core} (hk : CoreOk k) : CoreOk (Core.deliverTap k f read) := by
  unfold Core.deliverTap
  try dsimp only
  repeat' first
    | with_reducible assumption | with_reducible apply ok_raiseVec | with_reducible apply ok_setV
    | with_reducible apply ok_storeWrite | split

theorem keeps_feedTap {s0 : State} {s : State} {c : CoreId} (hs : Keeps s0 s) : Keeps s0 (State.feedTap s c) := by
  unfold State.feedTap
  try dsimp only
  repeat' first
    | with_reducible assumption | with_reducible apply keeps_goFeed
    | (with_reducible refine keeps_id ?_; simp only [keeps_mk_iff])
    | (with_reducible refine ok_id ?_; simp only [ok_mk_iff]) | split | intro _

theorem keeps_landTap {s0 : State} {s : State} {c : CoreId} (hs : Keeps s0 s) : Keeps s0 (State.landTap s c) := by
  unfold State.landTap
  try dsimp only
  repeat' first
    | with_reducible assumption | with_reducible apply keeps_feedTap
    | with_reducible refine keeps_modCoreI (fun _ _ => ?_) ?_
    | (with_reducible refine Keeps.core ?_ (by assumption) _) | with_reducible apply keeps_settleAga
    | with_reducible apply keeps_withNear | (with_reducible refine keeps_id ?_; simp only [keeps_mk_iff])
    | with_reducible apply ok_deliverTap | (with_reducible refine ok_id ?_; simp only [ok_mk_iff]) | split | intro _

/-! ### VecIssue -/

theorem ok_withStores {k : Core} (hk : CoreOk k) : CoreOk (Core.withStores k) := by
  unfold Core.withStores
  try dsimp only
  repeat' first
    | with_reducible assumption | with_reducible apply coreOk_nearWrite
    | with_reducible refine ok_foldl (fun _ _ _ => ?_) ?_ | split

theorem ok_vecResult {k : Core} {seq : Nat} {ws : List (VReg × Lanes)} {fl : Flags} (hk : CoreOk k)
    : CoreOk (Core.vecResult k seq ws fl) := by
  unfold Core.vecResult
  try dsimp only
  repeat' first
    | with_reducible assumption | (with_reducible refine ok_id ?_; simp only [ok_mk_iff])

theorem keeps_issueVec {s0 : State} {s : State} {c : CoreId} {k0 : Core} {o : VecOp} (hs : Keeps s0 s)
    : Keeps s0 (State.issueVec s c k0 o) := by
  unfold State.issueVec
  try dsimp only
  repeat' first
    | with_reducible assumption | with_reducible apply keeps_checked
    | with_reducible refine keeps_modCoreI (fun _ _ => ?_) ?_
    | (with_reducible refine Keeps.core ?_ (by assumption) _) | with_reducible apply keeps_withNear
    | (with_reducible refine keeps_id ?_; simp only [keeps_mk_iff]) | with_reducible apply coreOk_takeTags
    | with_reducible apply ok_countNarrow | with_reducible apply ok_vecResult
    | (with_reducible refine ok_id ?_; simp only [ok_mk_iff]) | split | intro _

theorem keeps_landVec {s0 : State} {s : State} {c : CoreId} (hs : Keeps s0 s) : Keeps s0 (State.landVec s c) := by
  unfold State.landVec
  try dsimp only
  repeat' first
    | with_reducible assumption | with_reducible apply keeps_landPuts
    | with_reducible refine keeps_modCoreI (fun _ _ => ?_) ?_
    | (with_reducible refine Keeps.core ?_ (by assumption) _)
    | (with_reducible refine keeps_id ?_; simp only [keeps_mk_iff])
    | with_reducible refine ok_foldl (fun _ _ _ => ?_) ?_ | with_reducible apply ok_setS
    | with_reducible apply ok_setV | (with_reducible refine ok_id ?_; simp only [ok_mk_iff]) | split

/-! ### Issue -/

theorem keeps_actSlot {s0 : State} {s : State} {c : CoreId} {k0 : Core} {ops : List SlotOp} {o : SlotOp} (hs : Keeps s0 s)
    : Keeps s0 (State.actSlot s c k0 ops o) := by
  unfold State.actSlot
  try dsimp only
  repeat' first
    | with_reducible assumption | with_reducible apply keeps_issueDma | with_reducible apply keeps_issueLoad
    | with_reducible apply keeps_issueMvPass | with_reducible apply keeps_issueMvRead
    | with_reducible apply keeps_issuePass | with_reducible apply keeps_issueRead
    | with_reducible apply keeps_issueStld | with_reducible apply keeps_issueTap
    | with_reducible apply keeps_issueVec | with_reducible refine keeps_modCoreI (fun _ _ => ?_) ?_
    | (with_reducible refine Keeps.core ?_ (by assumption) _) | with_reducible apply ok_scalarAct | split

theorem keeps_actSlots {s0 : State} {s : State} {c : CoreId} {k0 : Core} {ops : List SlotOp} (hs : Keeps s0 s)
    : Keeps s0 (State.actSlots s c k0 ops) := by
  unfold State.actSlots
  try dsimp only
  repeat' first
    | with_reducible assumption | with_reducible apply keeps_actSlot
    | with_reducible refine keeps_foldl (fun _ _ _ => ?_) ?_ | split

theorem keeps_sendToken {s0 : State} {s : State} {c : CoreId} (hs : Keeps s0 s) : Keeps s0 (State.sendToken s c) := by
  unfold State.sendToken
  try dsimp only
  repeat' first
    | with_reducible assumption | with_reducible apply keeps_modPart | split

theorem keeps_sendFlushes {s0 : State} {s : State} {c : CoreId} (hs : Keeps s0 s) : Keeps s0 (State.sendFlushes s c) := by
  unfold State.sendFlushes
  try dsimp only
  repeat' first
    | with_reducible assumption | with_reducible apply keeps_sendMsg
    | (with_reducible refine keeps_id ?_; simp only [keeps_mk_iff])
    | with_reducible refine keeps_foldl (fun _ _ _ => ?_) ?_
    | (with_reducible refine ok_id ?_; simp only [ok_mk_iff]) | split

theorem keeps_commitCore {s0 : State} {s : State} {c : CoreId} {p : PartId} (hs : Keeps s0 s)
    : Keeps s0 (State.commitCore s c p) := by
  unfold State.commitCore
  try dsimp only
  repeat' first
    | with_reducible assumption | with_reducible apply keeps_failRun
    | with_reducible refine keeps_modCoreI (fun _ _ => ?_) ?_
    | (with_reducible refine Keeps.core ?_ (by assumption) _) | with_reducible apply keeps_sendFlushes
    | with_reducible apply keeps_sendToken | (with_reducible refine keeps_id ?_; simp only [keeps_mk_iff])
    | (with_reducible refine ok_id ?_; simp only [ok_mk_iff]) | split

theorem keeps_driveRemote {s0 : State} {s : State} (hs : Keeps s0 s) : Keeps s0 (State.driveRemote s) := by
  unfold State.driveRemote
  try dsimp only
  repeat' first
    | with_reducible assumption | with_reducible apply keeps_driveDma | with_reducible apply keeps_sendFlushes
    | with_reducible refine keeps_foldl (fun _ _ _ => ?_) ?_ | split

theorem keeps_fixStore {s0 : State} {s : State} {c : CoreId} {o n : Nat} (hs : Keeps s0 s)
    : Keeps s0 (State.fixStore s c o n) := by
  unfold State.fixStore
  try dsimp only
  repeat' first
    | with_reducible assumption | with_reducible apply keeps_eccFixed
    | (with_reducible refine keeps_id ?_; simp only [keeps_mk_iff])
    | (with_reducible refine ok_id ?_; simp only [ok_mk_iff]) | split

theorem keeps_callRoutine {s0 : State} {s : State} {c : CoreId} {k0 : Core} {r : SReg} {id : BitVec 16} {x : StepRec} (hs
    : Keeps s0 s) : Keeps s0 (State.callRoutine s c k0 r id x) := by
  unfold State.callRoutine
  try dsimp only
  repeat' first
    | with_reducible assumption | with_reducible apply keeps_eccFail | with_reducible apply keeps_failCore
    | with_reducible apply keeps_fixStore | with_reducible refine keeps_modCoreI (fun _ _ => ?_) ?_
    | (with_reducible refine Keeps.core ?_ (by assumption) _) | with_reducible apply ok_enter | split

theorem keeps_takeStrip {s0 : State} {s : State} {c : CoreId} {d : SReg} {p : PartId} {x : StepRec} (hs : Keeps s0 s)
    : Keeps s0 (State.takeStrip s c d p x) := by
  unfold State.takeStrip
  try dsimp only
  repeat' first
    | with_reducible assumption | with_reducible refine keeps_modCoreI (fun _ _ => ?_) ?_
    | (with_reducible refine Keeps.core ?_ (by assumption) _) | with_reducible apply keeps_modPart
    | (with_reducible refine keeps_id ?_; simp only [keeps_mk_iff]) | with_reducible apply ok_issueS
    | (with_reducible refine ok_id ?_; simp only [ok_mk_iff]) | split

theorem keeps_actSeq {s0 : State} {s : State} {c : CoreId} {k0 : Core} {o : Option SeqOp} {p : PartId} {x : StepRec} (hs
    : Keeps s0 s) : Keeps s0 (State.actSeq s c k0 o p x) := by
  unfold State.actSeq
  try dsimp only
  repeat' first
    | with_reducible assumption | with_reducible apply keeps_callRoutine | with_reducible apply keeps_commitCore
    | with_reducible refine keeps_modCoreI (fun _ _ => ?_) ?_
    | (with_reducible refine Keeps.core ?_ (by assumption) _) | with_reducible apply keeps_takeStrip
    | (with_reducible refine keeps_id ?_; simp only [keeps_mk_iff]) | with_reducible apply ok_advance
    | with_reducible apply ok_exitLoop | with_reducible apply ok_leave | with_reducible apply ok_openLoop
    | with_reducible apply ok_skip | (with_reducible refine ok_id ?_; simp only [ok_mk_iff]) | split

theorem keeps_fixFetch {s0 : State} {s : State} {c : CoreId} {k : Core} (hs : Keeps s0 s)
    : Keeps s0 (State.fixFetch s c k) := by
  unfold State.fixFetch
  try dsimp only
  repeat' first
    | with_reducible assumption | with_reducible apply keeps_eccFixed | with_reducible apply keeps_fixStore
    | with_reducible refine keeps_modCoreI (fun _ _ => ?_) ?_
    | (with_reducible refine Keeps.core ?_ (by assumption) _)
    | (with_reducible refine keeps_id ?_; simp only [keeps_mk_iff])
    | with_reducible refine keeps_foldl (fun _ _ _ => ?_) ?_
    | (with_reducible refine ok_id ?_; simp only [ok_mk_iff]) | split

theorem keeps_withFetch {s0 : State} {s : State} {c : CoreId} {k : Core} {f : State → State}
    (hf : ∀ s, Keeps s0 s → Keeps s0 (f s)) (hs : Keeps s0 s) : Keeps s0 (State.withFetch s c k f) := by
  unfold State.withFetch
  try dsimp only
  repeat' first
    | with_reducible assumption | with_reducible apply keeps_eccFail | with_reducible apply keeps_fixFetch
    | with_reducible apply keeps_withOwn | split | intro _ | dsimp only | with_reducible apply hf

theorem keeps_pastEnd {s0 : State} {s : State} {c : CoreId} (hs : Keeps s0 s) : Keeps s0 (State.pastEnd s c) := by
  unfold State.pastEnd
  try dsimp only
  repeat' first
    | with_reducible assumption | with_reducible apply keeps_failCore | split

theorem keeps_firstBundle {s0 : State} {s : State} {p : PartId} {x : StepRec} (hs : Keeps s0 s)
    : Keeps s0 (State.firstBundle s p x) := by
  unfold State.firstBundle
  try dsimp only
  repeat' first
    | with_reducible assumption | with_reducible apply keeps_modPart
    | (with_reducible refine keeps_id ?_; simp only [keeps_mk_iff])
    | (with_reducible refine ok_id ?_; simp only [ok_mk_iff]) | split

theorem keeps_tryIssue {s0 : State} {s : State} {c : CoreId} (hs : Keeps s0 s) : Keeps s0 (State.tryIssue s c) := by
  unfold State.tryIssue
  try dsimp only
  repeat' first
    | with_reducible assumption | with_reducible apply keeps_actSeq | with_reducible apply keeps_actSlots
    | with_reducible apply keeps_failCore | with_reducible apply keeps_firstBundle
    | with_reducible refine keeps_modCoreI (fun _ _ => ?_) ?_
    | (with_reducible refine Keeps.core ?_ (by assumption) _) | with_reducible apply keeps_pastEnd
    | with_reducible apply keeps_settleAga | with_reducible apply keeps_withFetch
    | (with_reducible refine keeps_id ?_; simp only [keeps_mk_iff])
    | (with_reducible refine ok_id ?_; simp only [ok_mk_iff]) | split | intro _

theorem keeps_issueSlot {s0 : State} {s : State} {c : CoreId} {eob : Bool} {o : SlotOp} (hs : Keeps s0 s)
    : KeepsOut s0 (State.issueSlot s c eob o) := by
  unfold State.issueSlot
  try dsimp only
  repeat' first
    | with_reducible assumption | with_reducible exact keepsOut_refused | with_reducible refine keepsOut_next ?_
    | with_reducible refine keeps_modCoreI (fun _ _ => ?_) ?_
    | (with_reducible refine Keeps.core ?_ (by assumption) _) | with_reducible apply keeps_tryIssue
    | (with_reducible refine keepsOut_id ?_; split) | (with_reducible refine keeps_id ?_; simp only [keeps_mk_iff])
    | (with_reducible refine ok_id ?_; simp only [ok_mk_iff])

theorem keeps_releaseHold {s0 : State} {s : State} {c : CoreId} (hs : Keeps s0 s) : KeepsOut s0 (State.releaseHold s c) := by
  unfold State.releaseHold
  try dsimp only
  repeat' first
    | with_reducible assumption | with_reducible exact keepsOut_refused | with_reducible refine keepsOut_next ?_
    | with_reducible refine keeps_modCoreI (fun _ _ => ?_) ?_
    | (with_reducible refine Keeps.core ?_ (by assumption) _) | with_reducible apply keeps_tryIssue
    | (with_reducible refine keepsOut_id ?_; split) | (with_reducible refine keeps_id ?_; simp only [keeps_mk_iff])
    | (with_reducible refine ok_id ?_; simp only [ok_mk_iff])

end Sys2Proof.Machine
end

