-- ==== Sys2Proof/Laws/KeepsRuns.lean ====
section
/-!
SUPPORT. Every piece of a command keeps what `Keeps` says: runs, responses, power, the mailbox, queues, images, tables, weight sets, the clock, landings.
One lemma per function, named after it.
-/
set_option maxRecDepth 20000
namespace Sys2Proof.Machine
open Sys2Proof.Safety

/-! ### Commit -/

theorem keeps_addCredit {s0 : State} {s : State} {q : QueueId} (hs : Keeps s0 s) : Keeps s0 (State.addCredit s q) := by
  unfold State.addCredit
  try dsimp only
  repeat' first
    | with_reducible assumption | (with_reducible refine keeps_id ?_; simp only [keeps_mk_iff])

theorem keeps_sendChain {s0 : State} {s : State} {p : PartId} {e : Nat} {q : QueueId} (hs : Keeps s0 s)
    : Keeps s0 (State.sendChain s p e q) := by
  unfold State.sendChain
  try dsimp only
  repeat' first
    | with_reducible assumption | with_reducible apply keeps_addCredit | with_reducible apply keeps_sendMsg
    | (with_reducible refine keeps_id ?_; simp only [keeps_mk_iff])
    | (with_reducible refine ok_id ?_; simp only [ok_mk_iff]) | split

theorem keeps_rtCommitted {s0 : State} {s : State} {r : RunSt} (hs : Keeps s0 s) : Keeps s0 (State.rtCommitted s r) := by
  unfold State.rtCommitted
  try dsimp only
  repeat' first
    | with_reducible assumption | with_reducible apply keeps_rtFault
    | (with_reducible refine keeps_id ?_; simp only [keeps_mk_iff])
    | (with_reducible refine ok_id ?_; simp only [ok_mk_iff]) | split

theorem keeps_recordIrq {s0 : State} {s : State} {q : QueueId} (hs : Keeps s0 s) : Keeps s0 (State.recordIrq s q) := by
  unfold State.recordIrq
  try dsimp only
  repeat' first
    | with_reducible assumption | with_reducible apply keeps_irq
    | (with_reducible refine keeps_id ?_; simp only [keeps_mk_iff])
    | (with_reducible refine ok_id ?_; simp only [ok_mk_iff]) | split

theorem keeps_commitStep {s0 : State} {s : State} {p : PartId} {acked : Bool} (hs : Keeps s0 s)
    : Keeps s0 (State.commitStep s p acked) := by
  unfold State.commitStep
  try dsimp only
  repeat' first
    | with_reducible assumption | with_reducible apply keeps_charge | with_reducible apply keeps_closeRun
    | with_reducible apply keeps_dropStep | with_reducible apply keeps_modPart | with_reducible apply keeps_modQueue
    | with_reducible apply keeps_recordIrq | with_reducible apply keeps_rtCommitted
    | with_reducible apply keeps_sendChain | with_reducible apply keeps_session
    | with_reducible apply keeps_settleSeason | with_reducible apply keeps_transition
    | with_reducible refine keeps_foldl (fun _ _ _ => ?_) ?_ | split

theorem keeps_recordFail {s0 : State} {s : State} {r : PendRec} (hs : Keeps s0 s) : Keeps s0 (State.recordFail s r) := by
  unfold State.recordFail
  try dsimp only
  repeat' first
    | with_reducible assumption | with_reducible apply keeps_commitStep | with_reducible apply keeps_stopQueue
    | (with_reducible refine keeps_id ?_; simp only [keeps_mk_iff])
    | (with_reducible refine ok_id ?_; simp only [ok_mk_iff]) | split

theorem keeps_modRecord {s0 : State} {s : State} {id : Nat} {f : PendRec → PendRec} (hs : Keeps s0 s)
    : Keeps s0 (State.modRecord s id f) := by
  unfold State.modRecord
  try dsimp only
  repeat' first
    | with_reducible assumption | (with_reducible refine keeps_id ?_; simp only [keeps_mk_iff])

theorem keeps_presentRecord {s0 : State} {s : State} {r : PendRec} {n : PortId} {pa : Nat} (hs : Keeps s0 s)
    : Keeps s0 (State.presentRecord s r n pa) := by
  unfold State.presentRecord
  try dsimp only
  repeat' first
    | with_reducible assumption | with_reducible apply keeps_await | with_reducible apply keeps_modRecord
    | with_reducible apply keeps_present | split | intro _ | dsimp only
    | refine KeepsOpt.out (keeps_present ?_) _ (by with_reducible assumption)

theorem keeps_presentRecordWalk {s0 : State} {s : State} {r : PendRec} {n : PortId} {w : WalkSt} (hs : Keeps s0 s)
    : Keeps s0 (State.presentRecordWalk s r n w) := by
  unfold State.presentRecordWalk
  try dsimp only
  repeat' first
    | with_reducible assumption | with_reducible apply keeps_await | with_reducible apply keeps_modRecord
    | with_reducible apply keeps_present | split | intro _ | dsimp only
    | refine KeepsOpt.out (keeps_present ?_) _ (by with_reducible assumption)

theorem keeps_driveRecord {s0 : State} {s : State} {id : Nat} (hs : Keeps s0 s) : Keeps s0 (State.driveRecord s id) := by
  unfold State.driveRecord
  try dsimp only
  repeat' first
    | with_reducible assumption | with_reducible apply keeps_countRange | with_reducible apply keeps_countWalk
    | with_reducible apply keeps_presentRecord | with_reducible apply keeps_presentRecordWalk
    | with_reducible apply keeps_recordFail | with_reducible apply keeps_stewardLookup
    | with_reducible apply keeps_stewardParity | with_reducible apply keeps_tableParity
    | (with_reducible refine keeps_id ?_; simp only [keeps_mk_iff])
    | (with_reducible refine ok_id ?_; simp only [ok_mk_iff]) | split | intro _ | dsimp only
    | refine KeepsOpt2.out (keeps_stewardLookup ?_) _ _ (by with_reducible assumption)

theorem keeps_driveRecords {s0 : State} {s : State} (hs : Keeps s0 s) : Keeps s0 (State.driveRecords s) := by
  unfold State.driveRecords
  try dsimp only
  repeat' first
    | with_reducible assumption | with_reducible apply keeps_driveRecord
    | with_reducible refine keeps_foldl (fun _ _ _ => ?_) ?_

theorem keeps_recordAck {s0 : State} {s : State} {id : Nat} {flush : Bool} (hs : Keeps s0 s)
    : Keeps s0 (State.recordAck s id flush) := by
  unfold State.recordAck
  try dsimp only
  repeat' first
    | with_reducible assumption | with_reducible apply keeps_commitStep | with_reducible apply keeps_modRecord
    | with_reducible apply keeps_recordIrq | (with_reducible refine keeps_id ?_; simp only [keeps_mk_iff])
    | (with_reducible refine ok_id ?_; simp only [ok_mk_iff]) | split

theorem keeps_openCommit {s0 : State} {s : State} {p : PartId} (hs : Keeps s0 s) : Keeps s0 (State.openCommit s p) := by
  unfold State.openCommit
  try dsimp only
  repeat' first
    | with_reducible assumption | with_reducible apply keeps_driveRecords | with_reducible apply keeps_modPart
    | with_reducible apply keeps_modStep | with_reducible apply keeps_postRecord | split

theorem keeps_driveFlush {s0 : State} {s : State} {p : PartId} (hs : Keeps s0 s) : Keeps s0 (State.driveFlush s p) := by
  unfold State.driveFlush
  split
  · exact hs
  · split
    · dsimp only
      apply keeps_modPart
      have h : ∀ (x : StepRec) (l : List PortId) (a : State × List PortId × Nat), Keeps s0 a.1 → Keeps s0 (l.foldl (fun (a : State × List PortId × Nat) n =>
        match a.1.present n .flush 0 1 (qosOf x.rt x.cls) false (.dataFlush p) [] with
        | some s => (s, a.2.1, a.2.2 + 1)
        | none => (a.1.await n (.flush p), a.2.1 ++ [n], a.2.2)) a).1 := by
        intro x l
        induction l with
        | nil => exact fun _ h => h
        | cons n l ih =>
          intro a ha
          refine ih _ ?_
          dsimp only
          split
          · rename_i t ht
            exact (keeps_present ha).out _ ht
          · exact keeps_await ha
      exact h _ _ _ hs
    · exact hs

theorem keeps_flushBack {s0 : State} {s : State} {p : PartId} (hs : Keeps s0 s) : Keeps s0 (State.flushBack s p) := by
  unfold State.flushBack
  try dsimp only
  repeat' first
    | with_reducible assumption | with_reducible apply keeps_modPart | with_reducible apply keeps_openCommit | split

theorem keeps_beginFlush {s0 : State} {s : State} {p : PartId} (hs : Keeps s0 s) : Keeps s0 (State.beginFlush s p) := by
  unfold State.beginFlush
  try dsimp only
  repeat' first
    | with_reducible assumption | with_reducible apply keeps_driveFlush | with_reducible apply keeps_modPart
    | with_reducible apply keeps_openCommit | split

/-! ### PortRows -/

theorem keeps_serveWaiter {s0 : State} {s : State} {w : Waiter} (hs : Keeps s0 s) : Keeps s0 (State.serveWaiter s w) := by
  unfold State.serveWaiter
  try dsimp only
  repeat' first
    | with_reducible assumption | with_reducible apply keeps_driveDma | with_reducible apply keeps_driveFlush
    | with_reducible apply keeps_driveRecord | split

theorem keeps_wakeN {s0 s : State} {n : PortId} {k : Nat} {tried : List Waiter} (hs : Keeps s0 s)
    : Keeps s0 (State.wakeN s n k tried) := by
  induction k generalizing s tried with
  | zero => exact hs
  | succ k ih =>
    unfold State.wakeN
    split
    · exact hs
    · have h1 := fun w => keeps_serveWaiter (w := w) (keeps_modPort (n := n) (f := fun p => { p with order := p.order.erase w }) hs)
      dsimp only
      split
      · exact ih (keeps_modPort (h1 _))
      · exact ih (keeps_modPort (h1 _))

theorem keeps_wakePort {s0 : State} {s : State} {n : PortId} (hs : Keeps s0 s) : Keeps s0 (State.wakePort s n) := by
  unfold State.wakePort
  try dsimp only
  repeat' first
    | with_reducible assumption | with_reducible apply keeps_driveRecords | with_reducible apply keeps_wakeN

theorem keeps_takeData {s0 : State} {s : State} {c : CoreId} {t : Fin 8} {seq off len lead : Nat} {bs : List Byte} (hs
    : Keeps s0 s) : Keeps s0 (State.takeData s c t seq off len lead bs) := by
  unfold State.takeData
  try dsimp only
  repeat' first
    | with_reducible assumption | with_reducible apply keeps_driveDma | with_reducible apply keeps_modHead | split

theorem keeps_walkStreamBack {s0 : State} {s : State} {c : CoreId} {t : Fin 8} {bs : List Byte} {err : Nat} (hs : Keeps s0 s)
    : Keeps s0 (State.walkStreamBack s c t bs err) := by
  unfold State.walkStreamBack
  try dsimp only
  repeat' first
    | with_reducible assumption | with_reducible apply keeps_cacheTable | with_reducible apply keeps_countRange
    | with_reducible apply keeps_countWalk | with_reducible apply keeps_driveDma | with_reducible apply keeps_modHead
    | with_reducible apply keeps_presentWalk | with_reducible apply keeps_streamFault
    | with_reducible apply keeps_streamInsert | split

theorem keeps_walkRecordBack {s0 : State} {s : State} {id : Nat} {n : PortId} {bs : List Byte} {err : Nat} (hs : Keeps s0 s)
    : Keeps s0 (State.walkRecordBack s id n bs err) := by
  unfold State.walkRecordBack
  try dsimp only
  repeat' first
    | with_reducible assumption | with_reducible apply keeps_cacheTable | with_reducible apply keeps_countRange
    | with_reducible apply keeps_countWalk | with_reducible apply keeps_driveRecord
    | with_reducible apply keeps_modRecord | with_reducible apply keeps_presentRecordWalk
    | with_reducible apply keeps_recordFail | with_reducible apply keeps_stewardInsert | split

theorem keeps_readBack {s0 : State} {s : State} {n : PortId} {o : Owner} {bs : List Byte} (hs : Keeps s0 s)
    : Keeps s0 (State.readBack s n o bs) := by
  unfold State.readBack
  try dsimp only
  repeat' first
    | with_reducible assumption | with_reducible apply keeps_takeData | with_reducible apply keeps_walkRecordBack
    | with_reducible apply keeps_walkStreamBack | split

theorem keeps_errorBack {s0 : State} {s : State} {n : PortId} {t : Txn} {err : Nat} (hs : Keeps s0 s)
    : Keeps s0 (State.errorBack s n t err) := by
  unfold State.errorBack
  try dsimp only
  repeat' first
    | with_reducible assumption | with_reducible apply keeps_failRun | with_reducible apply keeps_recordFail
    | with_reducible apply keeps_reportFault | with_reducible apply keeps_streamFault
    | with_reducible apply keeps_walkRecordBack | with_reducible apply keeps_walkStreamBack | split

theorem keeps_response {s0 : State} {s : State} {n : PortId} {id : Byte} {kind : PortOp → Bool} {f : Txn → Out}
    (hf : ∀ t, KeepsOut s0 (f t)) (hs : Keeps s0 s) : KeepsOut s0 (State.response s n id kind f) := by
  unfold State.response
  split
  · exact keepsOut_refused
  · split
    · exact keepsOut_next hs
    · split
      · exact keepsOut_fault
      · split
        · exact hf _
        · exact keepsOut_fault

theorem keeps_execPortReadData {s0 : State} {n : PortId} {id : Byte} {beat : Beat} {last : Bool} {s : State} (hs : Keeps s0 s)
    : KeepsOut s0 (execPortReadData n id beat last s) := by
  unfold execPortReadData
  try dsimp only
  repeat' first
    | with_reducible assumption | with_reducible exact keepsOut_refused | with_reducible refine keepsOut_next ?_
    | with_reducible apply keeps_dropTxn | with_reducible apply keeps_modPort | with_reducible apply keeps_readBack
    | with_reducible apply keeps_response | with_reducible apply keeps_rtLateness
    | with_reducible apply keeps_wakePort | (with_reducible refine keepsOut_id ?_; split) | split | intro _

theorem keeps_execPageWalkReadReturn {s0 : State} {n : PortId} {id : Byte} {err : BitVec 2} {beat : Beat} {s : State} (hs
    : Keeps s0 s) : KeepsOut s0 (execPageWalkReadReturn n id err beat s) := by
  unfold execPageWalkReadReturn
  try dsimp only
  repeat' first
    | with_reducible assumption | with_reducible exact keepsOut_refused | with_reducible refine keepsOut_next ?_
    | with_reducible apply keeps_dropTxn | with_reducible apply keeps_errorBack | with_reducible apply keeps_modPort
    | with_reducible apply keeps_portError | with_reducible apply keeps_readBack
    | with_reducible apply keeps_response | with_reducible apply keeps_rtLateness
    | with_reducible apply keeps_wakePort | (with_reducible refine keepsOut_id ?_; split) | split | intro _

theorem keeps_execPortWriteAck {s0 : State} {n : PortId} {id : Byte} {s : State} (hs : Keeps s0 s)
    : KeepsOut s0 (execPortWriteAck n id s) := by
  unfold execPortWriteAck
  try dsimp only
  repeat' first
    | with_reducible assumption | with_reducible refine keepsOut_next ?_ | with_reducible apply keeps_driveDma
    | with_reducible apply keeps_dropTxn | with_reducible apply keeps_modHead | with_reducible apply keeps_modPort
    | with_reducible apply keeps_recordAck | with_reducible apply keeps_response
    | with_reducible apply keeps_rtLateness | with_reducible apply keeps_wakePort
    | (with_reducible refine keepsOut_id ?_; split) | split | intro _

theorem keeps_execPortFlushDone {s0 : State} {n : PortId} {id : Byte} {s : State} (hs : Keeps s0 s)
    : KeepsOut s0 (execPortFlushDone n id s) := by
  unfold execPortFlushDone
  try dsimp only
  repeat' first
    | with_reducible assumption | with_reducible refine keepsOut_next ?_ | with_reducible apply keeps_dropTxn
    | with_reducible apply keeps_flushBack | with_reducible apply keeps_recordAck
    | with_reducible apply keeps_response | with_reducible apply keeps_rtLateness
    | with_reducible apply keeps_wakePort | (with_reducible refine keepsOut_id ?_; split) | split | intro _

theorem keeps_execPortErrorResponse {s0 : State} {n : PortId} {id : Byte} {err : BitVec 2} {s : State} (hs : Keeps s0 s)
    : KeepsOut s0 (execPortErrorResponse n id err s) := by
  unfold execPortErrorResponse
  try dsimp only
  repeat' first
    | with_reducible assumption | with_reducible exact keepsOut_refused | with_reducible refine keepsOut_next ?_
    | with_reducible apply keeps_dropTxn | with_reducible apply keeps_errorBack
    | with_reducible apply keeps_portError | with_reducible apply keeps_response
    | with_reducible apply keeps_rtLateness | with_reducible apply keeps_wakePort
    | (with_reducible refine keepsOut_id ?_; split) | split | intro _

theorem keeps_execPortTimeout {s0 : State} {n : PortId} {id : Byte} {s : State} (hs : Keeps s0 s)
    : KeepsOut s0 (execPortTimeout n id s) := by
  unfold execPortTimeout
  try dsimp only
  repeat' first
    | with_reducible assumption | with_reducible refine keepsOut_next ?_ | with_reducible apply keeps_portLost
    | (with_reducible refine keepsOut_id ?_; split)

theorem keeps_portRises {s0 : State} {s : State} {n : PortId} (hs : Keeps s0 s) : Keeps s0 (State.portRises s n) := by
  unfold State.portRises
  try dsimp only
  repeat' first
    | with_reducible assumption | with_reducible apply keeps_driveRecords | with_reducible apply keeps_modPort

theorem keeps_execSettlingExpiry {s0 : State} {n : PortId} {s : State} (hs : Keeps s0 s)
    : KeepsOut s0 (execSettlingExpiry n s) := by
  unfold execSettlingExpiry
  try dsimp only
  repeat' first
    | with_reducible assumption | with_reducible refine keepsOut_next ?_ | with_reducible apply keeps_driveRecords
    | with_reducible apply keeps_health | with_reducible apply keeps_modPort | with_reducible apply keeps_portRises
    | (with_reducible refine keepsOut_id ?_; split)

/-! ### Power -/

theorem keeps_execIdleTimeoutExpiry {s0 : State} {s : State} (hs : Keeps s0 s) : KeepsOut s0 (execIdleTimeoutExpiry s) := by
  unfold execIdleTimeoutExpiry
  try dsimp only
  repeat' first
    | with_reducible assumption | with_reducible refine keepsOut_next ?_ | with_reducible apply keeps_enterAutumn
    | (with_reducible refine keepsOut_id ?_; split)

theorem keeps_enterWinter {s0 : State} {s : State} (hs : Keeps s0 s) : Keeps s0 (State.enterWinter s) := by
  unfold State.enterWinter
  try dsimp only
  apply keeps_irq
  apply keeps_modPower
  have h1 : Keeps s0 (s.presentClusters.foldl (fun s cl => if s.power.retainMask.getLsbD cl.val then s else s.dropSlice cl (decide (cl = 0))) s) := by
    refine keeps_foldl (fun t p ht => ?_) hs
    try dsimp only
    split
    · exact ht
    · exact keeps_dropSlice ht
  refine keeps_mkCD (fun h c => ?_) (fun h => ⟨h.rising, h.nonzero, h.poison⟩) h1
  rw [Vector.getElem_map]
  exact coreOk_reset

theorem keeps_execWinterEntry {s0 : State} {s : State} (hs : Keeps s0 s) : KeepsOut s0 (execWinterEntry s) := by
  unfold execWinterEntry
  try dsimp only
  repeat' first
    | with_reducible assumption | with_reducible refine keepsOut_next ?_ | with_reducible apply keeps_enterWinter
    | (with_reducible refine keepsOut_id ?_; split)

theorem keeps_raiseSupplies {s0 : State} {s : State} (hs : Keeps s0 s) : Keeps s0 (State.raiseSupplies s) := by
  unfold State.raiseSupplies
  try dsimp only
  repeat' first
    | with_reducible assumption | with_reducible apply keeps_modPower

theorem keeps_wake {s0 : State} {s : State} (hs : Keeps s0 s) : Keeps s0 (State.wake s) := by
  unfold State.wake
  try dsimp only
  repeat' first
    | with_reducible assumption | with_reducible apply keeps_modPower | with_reducible apply keeps_raiseSupplies
    | split

theorem keeps_leaveAutumn {s0 : State} {s : State} (hs : Keeps s0 s) : Keeps s0 (State.leaveAutumn s) := by
  unfold State.leaveAutumn
  try dsimp only
  repeat' first
    | with_reducible assumption | with_reducible apply keeps_modPower | with_reducible apply keeps_raiseSupplies
    | split

theorem keeps_settlePort {s0 : State} {s : State} {n : PortId} (hs : Keeps s0 s) : Keeps s0 (State.settlePort s n) := by
  unfold State.settlePort
  try dsimp only
  repeat' first
    | with_reducible assumption | with_reducible apply keeps_modPort | split

theorem keeps_execPwrAckRise {s0 : State} {cl : ClusterId} {s : State} (hs : Keeps s0 s)
    : KeepsOut s0 (execPwrAckRise cl s) := by
  unfold execPwrAckRise
  try dsimp only
  repeat' first
    | with_reducible assumption | with_reducible refine keepsOut_next ?_ | with_reducible apply keeps_modPower
    | with_reducible apply keeps_settlePort | (with_reducible refine keepsOut_id ?_; split)

theorem keeps_execPwrAckFall {s0 : State} {cl : ClusterId} {s : State} (hs : Keeps s0 s)
    : KeepsOut s0 (execPwrAckFall cl s) := by
  unfold execPwrAckFall
  try dsimp only
  repeat' first
    | with_reducible assumption | with_reducible refine keepsOut_next ?_ | with_reducible apply keeps_modPower
    | (with_reducible refine keepsOut_id ?_; split) | split

theorem keeps_loseCluster {s0 : State} {s : State} {cl : ClusterId} (hs : Keeps s0 s) : Keeps s0 (State.loseCluster s cl) := by
  have key : ∀ s, Keeps s0 s → Keeps s0 (({ s with
      start := { s.start with
                                            store := upd s.start.store cl (fun _ => []),
                                            storePoison := upd s.start.storePoison cl (fun _ => []),
                                            storeFlip := upd s.start.storeFlip cl (fun _ => []),
                                            storesLost := s.start.libLast.isSome,
                                            storeLost := Vector.ofFn (fun i : Fin 8 =>
                                              if i.val / 2 = cl.val then some s.deep.losses else s.start.storeLost[i.val]) },
      deep := { s.deep with losses := s.deep.losses + 1 } }).modPower (fun p => { p with pwrReq := clearBit p.pwrReq cl.val })) := by
    intro s hs
    apply keeps_modPower
    exact keeps_mkDeep (fun h => ⟨h.rising, h.nonzero, h.poison⟩) hs
  unfold State.loseCluster
  refine key _ (keeps_dropSlice ?_)
  refine keeps_foldl (fun t i ht => ?_) (keeps_portLost hs)
  exact keeps_modCore (fun _ => coreOk_reset) ht

theorem keeps_execPwrAckLoss {s0 : State} {cl : ClusterId} {s : State} (hs : Keeps s0 s)
    : KeepsOut s0 (execPwrAckLoss cl s) := by
  unfold execPwrAckLoss
  try dsimp only
  repeat' first
    | with_reducible assumption | with_reducible refine keepsOut_next ?_ | with_reducible apply keeps_loseCluster
    | with_reducible apply keeps_modPower | with_reducible apply keeps_restart | with_reducible apply keeps_startFail
    | (with_reducible refine keepsOut_id ?_; split)

theorem keeps_nextChange {s0 : State} {s : State} (hs : Keeps s0 s) : Keeps s0 (State.nextChange s) := by
  unfold State.nextChange
  try dsimp only
  repeat' first
    | with_reducible assumption | with_reducible apply keeps_startChange

theorem keeps_execPstAckRise {s0 : State} {s : State} (hs : Keeps s0 s) : KeepsOut s0 (execPstAckRise s) := by
  unfold execPstAckRise
  try dsimp only
  repeat' first
    | with_reducible assumption | with_reducible refine keepsOut_next ?_ | with_reducible apply keeps_modPower
    | (with_reducible refine keepsOut_id ?_; split)

theorem keeps_giveUpChange {s0 : State} {s : State} {c : PstChange} (hs : Keeps s0 s) : Keeps s0 (State.giveUpChange s c) := by
  unfold State.giveUpChange
  try dsimp only
  repeat' first
    | with_reducible assumption | with_reducible apply keeps_health | with_reducible apply keeps_modPower

theorem keeps_execPstAckTimeout {s0 : State} {s : State} (hs : Keeps s0 s) : KeepsOut s0 (execPstAckTimeout s) := by
  unfold execPstAckTimeout
  try dsimp only
  repeat' first
    | with_reducible assumption | with_reducible refine keepsOut_next ?_ | with_reducible apply keeps_giveUpChange
    | with_reducible apply keeps_nextChange | (with_reducible refine keepsOut_id ?_; split)

theorem keeps_execGlideEnd {s0 : State} {s : State} (hs : Keeps s0 s) : KeepsOut s0 (execGlideEnd s) := by
  unfold execGlideEnd
  try dsimp only
  repeat' first
    | with_reducible assumption | with_reducible refine keepsOut_next ?_ | with_reducible apply keeps_modPower
    | with_reducible apply keeps_nextChange | (with_reducible refine keepsOut_id ?_; split)

theorem keeps_execPstateOrderInstant {s0 : State} {s : State} (hs : Keeps s0 s) : KeepsOut s0 (execPstateOrderInstant s) := by
  unfold execPstateOrderInstant
  try dsimp only
  repeat' first
    | with_reducible assumption | with_reducible refine keepsOut_next ?_ | with_reducible apply keeps_modPower
    | with_reducible apply keeps_orderP | (with_reducible refine keepsOut_id ?_; split)

theorem keeps_execDroopDetect {s0 : State} {c : CoreId} {cycles : Nat} {s : State} (hs : Keeps s0 s)
    : KeepsOut s0 (execDroopDetect c cycles s) := by
  unfold execDroopDetect
  try dsimp only
  repeat' first
    | with_reducible assumption | with_reducible refine keepsOut_next ?_ | with_reducible apply keeps_modPower
    | (with_reducible refine keepsOut_id ?_; split) | with_reducible refine keeps_foldl (fun _ _ _ => ?_) ?_ | split

theorem keeps_execAlertNFall {s0 : State} {s : State} (hs : Keeps s0 s) : KeepsOut s0 (execAlertNFall s) := by
  unfold execAlertNFall
  try dsimp only
  repeat' first
    | with_reducible assumption | with_reducible refine keepsOut_next ?_ | with_reducible apply keeps_answerAlert
    | with_reducible apply keeps_modPower | (with_reducible refine keepsOut_id ?_; split)

theorem keeps_execAlertHoldExpiry {s0 : State} {s : State} (hs : Keeps s0 s) : KeepsOut s0 (execAlertHoldExpiry s) := by
  unfold execAlertHoldExpiry
  try dsimp only
  repeat' first
    | with_reducible assumption | with_reducible refine keepsOut_next ?_ | with_reducible apply keeps_modPower
    | with_reducible apply keeps_relimit | (with_reducible refine keepsOut_id ?_; split)

theorem keeps_capLoop {s0 : State} {s : State} {e : Nat} (hs : Keeps s0 s) : Keeps s0 (State.capLoop s e) := by
  unfold State.capLoop
  try dsimp only
  repeat' first
    | with_reducible assumption | with_reducible apply keeps_health | with_reducible apply keeps_modPower | split

theorem keeps_execEstimatorPeriod {s0 : State} {counts : List Nat} {s : State} (hs : Keeps s0 s)
    : KeepsOut s0 (execEstimatorPeriod counts s) := by
  unfold execEstimatorPeriod
  try dsimp only
  repeat' first
    | with_reducible assumption | with_reducible refine keepsOut_next ?_ | with_reducible apply keeps_capLoop
    | with_reducible apply keeps_modPower | with_reducible apply keeps_relimit
    | (with_reducible refine keepsOut_id ?_; split)

theorem keeps_execTlmSample {s0 : State} {v : Word} {s : State} (hs : Keeps s0 s) : KeepsOut s0 (execTlmSample v s) := by
  unfold execTlmSample
  try dsimp only
  repeat' first
    | with_reducible assumption | with_reducible refine keepsOut_next ?_ | with_reducible apply keeps_modPower
    | (with_reducible refine keepsOut_id ?_; split)

theorem keeps_execCalPeriodEnd {s0 : State} {s : State} (hs : Keeps s0 s) : KeepsOut s0 (execCalPeriodEnd s) := by
  unfold execCalPeriodEnd
  try dsimp only
  repeat' first
    | with_reducible assumption | with_reducible refine keepsOut_next ?_ | with_reducible apply keeps_health
    | with_reducible apply keeps_modPower | (with_reducible refine keepsOut_id ?_; split) | split

theorem keeps_shutdown {s0 : State} {s : State} (hs : Keeps s0 s) : Keeps s0 (State.shutdown s) := by
  unfold State.shutdown
  try dsimp only
  repeat' first
    | with_reducible assumption | with_reducible apply keeps_enterAutumn | with_reducible apply keeps_haltRt
    | with_reducible apply keeps_killRun | with_reducible apply keeps_modPower
    | with_reducible apply keeps_settleSeason | with_reducible refine keeps_foldl (fun _ _ _ => ?_) ?_ | split

theorem keeps_warm {s0 : State} {s : State} {t : Int} (hs : Keeps s0 s) : Keeps s0 (State.warm s t) := by
  unfold State.warm
  try dsimp only
  repeat' first
    | with_reducible assumption | with_reducible apply keeps_modPower
    | (with_reducible refine keeps_id ?_; simp only [keeps_mk_iff]) | split

theorem keeps_execThermalSample {s0 : State} {halfDegrees : List Int} {s : State} (hs : Keeps s0 s)
    : KeepsOut s0 (execThermalSample halfDegrees s) := by
  unfold execThermalSample
  try dsimp only
  repeat' first
    | with_reducible assumption | with_reducible refine keepsOut_next ?_ | with_reducible apply keeps_enterAutumn
    | with_reducible apply keeps_health | with_reducible apply keeps_modPower | with_reducible apply keeps_relimit
    | with_reducible apply keeps_shutdown | with_reducible apply keeps_warm
    | (with_reducible refine keepsOut_id ?_; split) | split

/-! ### Mailbox -/

theorem keeps_pdServe {s0 : State} {s : State} {r : PdReq} {h : State → Served} (hh : ∀ s, Keeps s0 s → KeepsServed s0 (h s))
    (hs : Keeps s0 s) : KeepsServed s0 (State.pdServe s r h) := by
  unfold State.pdServe
  have h1 := hh s hs
  split
  · exact keepsServed_error
  · split
    · split <;> exact keepsServed_error
    · rename_i e t ht
      split
      · exact keepsServed_fail (h1.fail _ _ ht)
      · exact keepsServed_error
    · rename_i x hx
      split
      · exact hx ▸ h1
      · exact keepsServed_error

theorem keeps_pdCount {s0 : State} {s : State} {r : PdReq} {code : Option Nat} (hs : Keeps s0 s)
    : Keeps s0 (State.pdCount s r code) := by
  unfold State.pdCount
  try dsimp only
  repeat' first
    | with_reducible assumption | (with_reducible refine keeps_id ?_; simp only [keeps_mk_iff])
    | (with_reducible refine ok_id ?_; simp only [ok_mk_iff]) | split

theorem keeps_attach {s0 : State} {s : State} {claim : Half} (hs : Keeps s0 s) : Keeps s0 (State.attach s claim) := by
  unfold State.attach
  try dsimp only
  repeat' first
    | with_reducible assumption | with_reducible apply keeps_irq | with_reducible apply keeps_portRises
    | (with_reducible refine keeps_id ?_; simp only [keeps_mk_iff])
    | with_reducible refine keeps_foldl (fun _ _ _ => ?_) ?_
    | (with_reducible refine ok_id ?_; simp only [ok_mk_iff]) | split

theorem keeps_pdEnd {s0 : State} {s : State} {r : PdReq} {x : Except Nat (List Byte)} (hs : Keeps s0 s)
    : Keeps s0 (State.pdEnd s r x) := by
  unfold State.pdEnd
  try dsimp only
  repeat' first
    | with_reducible assumption | with_reducible apply keeps_attach | with_reducible apply keeps_irq
    | (with_reducible refine keeps_id ?_; simp only [keeps_mk_iff])
    | with_reducible refine keeps_foldl (fun _ _ _ => ?_) ?_
    | (with_reducible refine ok_id ?_; simp only [ok_mk_iff]) | split

theorem keeps_pdRun {s0 : State} {s : State} {r : PdReq} {h : State → Served} (hh : ∀ s, Keeps s0 s → KeepsServed s0 (h s))
    (hs : Keeps s0 s) : Keeps s0 (State.pdRun s r h) := by
  unfold State.pdRun
  have h1 := keeps_pdServe (r := r) hh hs
  split
  · rename_i t bs ht
    have h2 := h1.out _ ht
    split
    · exact h2
    · exact keeps_pdEnd (keeps_pdCount h2)
  · exact keeps_pdEnd (keeps_pdCount hs)
  · rename_i e t ht
    exact keeps_pdEnd (keeps_pdCount (h1.fail _ _ ht))

theorem keeps_pdRegs {s0 : State} {s : State} {r : PdReq} (hs : Keeps s0 s) : Keeps s0 (State.pdRegs s r) := by
  unfold State.pdRegs
  try dsimp only
  repeat' first
    | with_reducible assumption | (with_reducible refine keeps_id ?_; simp only [keeps_mk_iff])

theorem keeps_pdStart {s0 : State} {s : State} {r : PdReq} {go : State → State} (hgo : ∀ s, Keeps s0 s → Keeps s0 (go s)) (hs
    : Keeps s0 s) : Keeps s0 (State.pdStart s r go) := by
  unfold State.pdStart
  try dsimp only
  repeat' first
    | with_reducible assumption | with_reducible apply keeps_wake
    | (with_reducible refine keeps_id ?_; simp only [keeps_mk_iff])
    | (with_reducible refine ok_id ?_; simp only [ok_mk_iff]) | split | intro _ | dsimp only
    | with_reducible apply hgo

theorem keeps_pdBegin {s0 : State} {s : State} {r : PdReq} {go : State → State} (hgo : ∀ s, Keeps s0 s → Keeps s0 (go s)) (hs
    : Keeps s0 s) : KeepsOut s0 (State.pdBegin s r go) := by
  unfold State.pdBegin
  try dsimp only
  repeat' first
    | with_reducible assumption | with_reducible refine keepsOut_next ?_ | with_reducible apply keeps_pdRegs
    | with_reducible apply keeps_pdStart | (with_reducible refine keepsOut_id ?_; split)
    | (with_reducible refine keeps_id ?_; simp only [keeps_mk_iff])

theorem keeps_pdCommand {s0 : State} {s : State} {r : PdReq} {h : State → Served}
    (hh : ∀ s, Keeps s0 s → KeepsServed s0 (h s)) (hs : Keeps s0 s) : KeepsOut s0 (State.pdCommand s r h) := by
  unfold State.pdCommand
  try dsimp only
  repeat' first
    | with_reducible assumption | with_reducible apply keeps_pdBegin | with_reducible apply keeps_pdRun
    | (with_reducible refine keepsOut_id ?_; split) | (with_reducible refine keepsServed_id ?_; split) | split
    | intro _

theorem keeps_done {s0 : State} {s : State} (hs : Keeps s0 s) : KeepsServed s0 (done s) := by
  unfold done
  try dsimp only
  repeat' first
    | with_reducible assumption | with_reducible refine keepsServed_ok ?_

theorem keeps_sized {s0 : State} {n : Nat} {data : List Byte} {h : State → Served} {s : State}
    (hh : ∀ s, Keeps s0 s → KeepsServed s0 (h s)) (hs : Keeps s0 s) : KeepsServed s0 (sized n data h s) := by
  unfold sized
  split
  · exact hh _ hs
  · exact keepsServed_error

theorem keeps_refuse {s0 : State} {b : Bool} {code : Nat} {k : Served} (hk : KeepsServed s0 k)
    : KeepsServed s0 (refuse b code k) := by
  unfold refuse
  split
  · exact keepsServed_error
  · exact hk

theorem keeps_writeResume {s0 : State} {s : State} {n : PortId} {v : Nat} (hs : Keeps s0 s)
    : KeepsServed s0 (State.writeResume s n v) := by
  unfold State.writeResume
  try dsimp only
  repeat' first
    | with_reducible assumption | with_reducible apply keeps_done | with_reducible apply keeps_portRises
    | with_reducible apply keeps_refuse

theorem keeps_execResume {s0 : State} {n : PortId} {v : Byte} {async : Bool} {s : State} (hs : Keeps s0 s)
    : KeepsOut s0 (execResume n v async s) := by
  unfold execResume
  try dsimp only
  repeat' first
    | with_reducible assumption | with_reducible apply keeps_pdCommand | with_reducible apply keeps_writeResume
    | (with_reducible refine keepsOut_id ?_; split) | split | intro _

/-! ### Runs -/

theorem keeps_refuseDesc {s0 : State} {s : State} {q : QueueId} {qseq : Nat} {status : Byte} {detail : Nat} (hs : Keeps s0 s)
    : Keeps s0 (State.refuseDesc s q qseq status detail) := by
  unfold State.refuseDesc
  try dsimp only
  repeat' first
    | with_reducible assumption | with_reducible apply keeps_driveRecords | with_reducible apply keeps_postRecord

theorem keeps_advanceFetch {s0 : State} {s : State} {q : QueueId} (hs : Keeps s0 s) : Keeps s0 (State.advanceFetch s q) := by
  unfold State.advanceFetch
  try dsimp only
  repeat' first
    | with_reducible assumption | with_reducible apply keeps_modQueue
    | (with_reducible refine keeps_id ?_; simp only [keeps_mk_iff])

theorem keeps_execDescriptorFetch {s0 : State} {q : QueueId} {r : ReadResult} {s : State} (hs : Keeps s0 s)
    : KeepsOut s0 (execDescriptorFetch q r s) := by
  unfold execDescriptorFetch
  try dsimp only
  repeat' first
    | with_reducible assumption | with_reducible refine keepsOut_next ?_ | with_reducible apply keeps_advanceFetch
    | with_reducible apply keeps_refuseDesc | with_reducible apply keeps_stewardFault
    | with_reducible apply keeps_stewardRead | with_reducible apply keeps_stopQueue
    | (with_reducible refine keepsOut_id ?_; split) | (with_reducible refine keeps_id ?_; simp only [keeps_mk_iff])

theorem keeps_acceptStep {s0 : State} {s : State} {q : QueueId} {d : StepDesc} {rt : Bool} {bell : Nat} (hs : Keeps s0 s)
    : Keeps s0 (State.acceptStep s q d rt bell) := by
  unfold State.acceptStep
  try dsimp only
  repeat' first
    | with_reducible assumption | with_reducible apply keeps_journalWrite | with_reducible apply keeps_raiseTime
    | with_reducible apply keeps_session | (with_reducible refine keeps_id ?_; simp only [keeps_mk_iff])
    | (with_reducible refine ok_id ?_; simp only [ok_mk_iff]) | split

theorem keeps_execAccept {s0 : State} {q : QueueId} {s : State} (hs : Keeps s0 s) : KeepsOut s0 (execAccept q s) := by
  unfold execAccept
  try dsimp only
  repeat' first
    | with_reducible assumption | with_reducible refine keepsOut_next ?_ | with_reducible apply keeps_acceptStep
    | (with_reducible refine keepsOut_id ?_; split) | (with_reducible refine keeps_id ?_; simp only [keeps_mk_iff])

theorem ok_started {k : Core} {p : PartId} {img : ImgRec} {twin : Bool} {args : List DWord} (hk : CoreOk k)
    : CoreOk (Core.started k p img twin args) := by
  unfold Core.started
  try dsimp only
  apply ok_loadRecs
  refine ⟨?_, rfl, rfl, rfl, hk.poison⟩
  simp

theorem ok_loaded {k : Core} {p : PartId} {img : ImgRec} {twin rt : Bool} {args : List DWord} (hk : CoreOk k)
    : CoreOk (Core.loaded k p img twin rt args) := by
  unfold Core.loaded
  try dsimp only
  repeat' first
    | with_reducible assumption | with_reducible apply ok_started | with_reducible apply ok_withImage | split

theorem keeps_loadCores {s0 : State} {s : State} {p : PartId} {cores : List CoreId} {img : ImgRec} {twin rt : Bool}
    {args : List DWord} (hs : Keeps s0 s) : Keeps s0 (State.loadCores s p cores img twin rt args) := by
  unfold State.loadCores
  try dsimp only
  repeat' first
    | with_reducible assumption | with_reducible apply keeps_followRun
    | with_reducible refine keeps_modCoreI (fun _ _ => ?_) ?_
    | (with_reducible refine Keeps.core ?_ (by assumption) _) | with_reducible apply keeps_modPart
    | with_reducible refine keeps_foldl (fun _ _ _ => ?_) ?_ | with_reducible apply ok_loaded | split

theorem keeps_codeReads {s0 s : State} {x : StepRec} {img : ImgRec} {twin : Bool} {cs : List ClusterId} {rs : List ReadResult}
    (hs : Keeps s0 s) : Keeps s0 (State.codeReads s x img twin cs rs).1 := by
  induction cs generalizing s rs with
  | nil => exact hs
  | cons cl rest ih =>
    unfold State.codeReads
    dsimp only
    have h1 := fun cl qos ast va len r => keeps_stewardRead (n := cl) (qos := qos) (ast := ast) (va := va) (len := len) (r := r) hs
    split
    · split <;> rename_i h4 <;> exact Eq.mp (congrArg (fun z => Keeps s0 z.1) h4) (ih (h1 _ _ _ _ _ _))
    · exact keeps_stewardFault (h1 _ _ _ _ _ _)
    · exact h1 _ _ _ _ _ _

theorem keeps_loadRun {s0 s : State} {p : PartId} {x : StepRec} {cores : List CoreId} {img : ImgRec} {twin : Bool}
    {args : List DWord}
    {code : Option (List ReadResult)} (hs : Keeps s0 s) : Keeps s0 (State.loadRun s p x cores img twin args code) := by
  unfold State.loadRun
  have h1 : Keeps s0 (s.loadCores p cores img twin x.rt args) := keeps_loadCores hs
  revert h1
  generalize s.loadCores p cores img twin x.rt args = s
  intro h1
  dsimp only
  split
  · exact h1
  · rename_i rs
    split
    · exact h1
    · have h2 := keeps_codeReads (x := x) (img := img) (twin := twin) (cs := clustersOf cores) (rs := rs) h1
      split <;> rename_i h4 <;> rw [h4] at h2
      · exact keeps_foldl (fun t c ht => keeps_modCore (fun hk => ok_withCode hk) ht) h2
      · exact keeps_failRun h2

theorem keeps_loaderRead {s0 : State} {s : State} {p : PartId} {img : ImgRec} {twin : Bool} (hs : Keeps s0 s)
    : Keeps s0 (State.loaderRead s p img twin) := by
  unfold State.loaderRead
  try dsimp only
  repeat' first
    | with_reducible assumption | with_reducible apply keeps_eccUncorrectable | with_reducible apply keeps_failRun
    | with_reducible apply keeps_fixDeep | split

theorem keeps_startRun {s0 : State} {s : State} {p : PartId} {x : StepRec} {cores : List CoreId} {img : ImgRec}
    {args : List DWord} {code : Option (List ReadResult)} (hs : Keeps s0 s)
    : Keeps s0 (State.startRun s p x cores img args code) := by
  unfold State.startRun
  try dsimp only
  repeat' first
    | with_reducible assumption | with_reducible apply keeps_loadRun | with_reducible apply keeps_loaderRead
    | with_reducible apply keeps_modPart | with_reducible apply keeps_modPower | with_reducible apply keeps_modStep
    | with_reducible apply keeps_transition | split

theorem keeps_failAtDispatch {s0 : State} {s : State} {x : StepRec} {status : Byte} {detail : Nat} (hs : Keeps s0 s)
    : Keeps s0 (State.failAtDispatch s x status detail) := by
  unfold State.failAtDispatch
  try dsimp only
  repeat' first
    | with_reducible assumption | with_reducible apply keeps_driveRecords | with_reducible apply keeps_failStep

theorem keeps_dispatchStep {s0 : State} {s : State} {p : PartId} {x : StepRec} {code : Option (List ReadResult)} (hs
    : Keeps s0 s) : Keeps s0 (State.dispatchStep s p x code) := by
  unfold State.dispatchStep
  try dsimp only
  repeat' first
    | with_reducible assumption | with_reducible apply keeps_failAtDispatch | with_reducible apply keeps_startRun
    | split

theorem keeps_execDispatch {s0 : State} {l : RunLoad} {s : State} (hs : Keeps s0 s) : KeepsOut s0 (execDispatch l s) := by
  unfold execDispatch
  try dsimp only
  repeat' first
    | with_reducible assumption | with_reducible refine keepsOut_next ?_ | with_reducible apply keeps_dispatchStep
    | (with_reducible refine keepsOut_id ?_; split)

theorem keeps_startTwin {s0 : State} {s : State} {p : PartId} {r : RunSt} {x : StepRec} {img : ImgRec}
    {code : List ReadResult} (hs : Keeps s0 s) : Keeps s0 (State.startTwin s p r x img code) := by
  unfold State.startTwin
  try dsimp only
  repeat' first
    | with_reducible assumption | with_reducible apply keeps_failRun | with_reducible apply keeps_loadRun
    | with_reducible apply keeps_loaderRead | with_reducible apply keeps_modPart | with_reducible apply keeps_modStep
    | split

theorem keeps_collectEnd {s0 : State} {s : State} {p : PartId} {r : RunSt} {code : List ReadResult} (hs : Keeps s0 s)
    : Keeps s0 (State.collectEnd s p r code) := by
  unfold State.collectEnd
  try dsimp only
  repeat' first
    | with_reducible assumption | with_reducible apply keeps_beginFlush | with_reducible apply keeps_modPart
    | with_reducible apply keeps_startTwin | split

theorem keeps_execTokenTaken {s0 : State} {l : RunLoad} {s : State} (hs : Keeps s0 s) : KeepsOut s0 (execTokenTaken l s) := by
  unfold execTokenTaken
  try dsimp only
  repeat' first
    | with_reducible assumption | with_reducible refine keepsOut_next ?_ | with_reducible apply keeps_collectEnd
    | with_reducible apply keeps_modPart | (with_reducible refine keepsOut_id ?_; split) | split

theorem keeps_execSealedTimeout {s0 : State} {p : PartId} {s : State} (hs : Keeps s0 s)
    : KeepsOut s0 (execSealedTimeout p s) := by
  unfold execSealedTimeout
  try dsimp only
  repeat' first
    | with_reducible assumption | with_reducible refine keepsOut_next ?_ | with_reducible apply keeps_commitLost
    | (with_reducible refine keepsOut_id ?_; split)

theorem keeps_preempt {s0 : State} {s : State} {p : PartId} (hs : Keeps s0 s) : Keeps s0 (State.preempt s p) := by
  unfold State.preempt
  try dsimp only
  repeat' first
    | with_reducible assumption | with_reducible apply keeps_killRun | split

theorem keeps_execTimeSlicePreemption {s0 : State} {p : PartId} {s : State} (hs : Keeps s0 s)
    : KeepsOut s0 (execTimeSlicePreemption p s) := by
  unfold execTimeSlicePreemption
  try dsimp only
  repeat' first
    | with_reducible assumption | with_reducible refine keepsOut_next ?_ | with_reducible apply keeps_modPart
    | with_reducible apply keeps_preempt

theorem keeps_execAgeLimitElapsed {s0 : State} {q : QueueId} {s : State} (hs : Keeps s0 s)
    : KeepsOut s0 (execAgeLimitElapsed q s) := by
  unfold execAgeLimitElapsed
  try dsimp only
  repeat' first
    | with_reducible assumption | with_reducible refine keepsOut_next ?_ | with_reducible apply keeps_modStep
    | with_reducible apply keeps_preempt | (with_reducible refine keepsOut_id ?_; split)

theorem keeps_execRunDrained {s0 : State} {p : PartId} {s : State} (hs : Keeps s0 s) : KeepsOut s0 (execRunDrained p s) := by
  unfold execRunDrained
  try dsimp only
  repeat' first
    | with_reducible assumption | with_reducible refine keepsOut_next ?_ | with_reducible apply keeps_driveRecords
    | with_reducible apply keeps_endFailed | with_reducible apply keeps_endKilled
    | (with_reducible refine keepsOut_id ?_; split)

/-! ### QueueRows -/

theorem keeps_ringBell {s0 : State} {s : State} {q : QueueId} (hs : Keeps s0 s) : Keeps s0 (State.ringBell s q) := by
  unfold State.ringBell
  try dsimp only
  repeat' first
    | with_reducible assumption | with_reducible apply keeps_modQueue | with_reducible apply keeps_stopQueue | split

theorem keeps_execDoorbell {s0 : State} {q : QueueId} {tail : Word} {s : State} (hs : Keeps s0 s)
    : KeepsOut s0 (execDoorbell q tail s) := by
  unfold execDoorbell
  try dsimp only
  repeat' first
    | with_reducible assumption | with_reducible refine keepsOut_next ?_ | with_reducible apply keeps_ringBell
    | with_reducible apply keeps_wake | (with_reducible refine keepsOut_id ?_; split)
    | (with_reducible refine keeps_id ?_; simp only [keeps_mk_iff])

theorem keeps_writeEnable {s0 : State} {s : State} {q : QueueId} {v : Nat} (hs : Keeps s0 s)
    : KeepsServed s0 (State.writeEnable s q v) := by
  unfold State.writeEnable
  try dsimp only
  repeat' first
    | with_reducible assumption | with_reducible apply keeps_done | with_reducible apply keeps_driveRecords
    | with_reducible apply keeps_failStep | with_reducible apply keeps_modQueue | with_reducible apply keeps_refuse
    | (with_reducible refine keepsServed_id ?_; split) | with_reducible refine keeps_foldl (fun _ _ _ => ?_) ?_
    | split

theorem keeps_execEnableWrite {s0 : State} {q : QueueId} {v : Byte} {async : Bool} {s : State} (hs : Keeps s0 s)
    : KeepsOut s0 (execEnableWrite q v async s) := by
  unfold execEnableWrite
  try dsimp only
  repeat' first
    | with_reducible assumption | with_reducible apply keeps_pdCommand | with_reducible apply keeps_writeEnable
    | (with_reducible refine keepsOut_id ?_; split) | split | intro _

theorem keeps_writeKill {s0 : State} {s : State} {q : QueueId} {v : Nat} (hs : Keeps s0 s)
    : KeepsServed s0 (State.writeKill s q v) := by
  unfold State.writeKill
  try dsimp only
  repeat' first
    | with_reducible assumption | with_reducible apply keeps_done | with_reducible apply keeps_killRun
    | with_reducible apply keeps_refuse | (with_reducible refine keepsServed_id ?_; split)
    | with_reducible refine keeps_foldl (fun _ _ _ => ?_) ?_

theorem keeps_execKill {s0 : State} {q : QueueId} {v : Byte} {async : Bool} {s : State} (hs : Keeps s0 s)
    : KeepsOut s0 (execKill q v async s) := by
  unfold execKill
  try dsimp only
  repeat' first
    | with_reducible assumption | with_reducible apply keeps_pdCommand | with_reducible apply keeps_writeKill
    | (with_reducible refine keepsOut_id ?_; split) | split | intro _

theorem keeps_writeFetch {s0 : State} {s : State} {q : QueueId} {v : Word} (hs : Keeps s0 s)
    : KeepsServed s0 (State.writeFetch s q v) := by
  unfold State.writeFetch
  try dsimp only
  repeat' first
    | with_reducible assumption | with_reducible apply keeps_done | with_reducible apply keeps_modQueue
    | with_reducible apply keeps_refuse | with_reducible apply keeps_stopQueue
    | (with_reducible refine keepsServed_id ?_; split) | split

theorem keeps_execFetchWrite {s0 : State} {q : QueueId} {v : Word} {async : Bool} {s : State} (hs : Keeps s0 s)
    : KeepsOut s0 (execFetchWrite q v async s) := by
  unfold execFetchWrite
  try dsimp only
  repeat' first
    | with_reducible assumption | with_reducible apply keeps_pdCommand | with_reducible apply keeps_writeFetch
    | (with_reducible refine keepsOut_id ?_; split) | split | intro _

theorem keeps_writeCword {s0 : State} {s : State} {q : QueueId} {v : Word} (hs : Keeps s0 s)
    : KeepsServed s0 (State.writeCword s q v) := by
  unfold State.writeCword
  try dsimp only
  repeat' first
    | with_reducible assumption | with_reducible apply keeps_done | with_reducible apply keeps_modQueue
    | with_reducible apply keeps_refuse

theorem keeps_execCwordWrite {s0 : State} {q : QueueId} {v : Word} {async : Bool} {s : State} (hs : Keeps s0 s)
    : KeepsOut s0 (execCwordWrite q v async s) := by
  unfold execCwordWrite
  try dsimp only
  repeat' first
    | with_reducible assumption | with_reducible apply keeps_pdCommand | with_reducible apply keeps_writeCword
    | (with_reducible refine keepsOut_id ?_; split) | split | intro _

theorem keeps_writeWindowStart {s0 : State} {s : State} {who : Fin 2} {v : DWord} (hs : Keeps s0 s)
    : KeepsServed s0 (State.writeWindowStart s who v) := by
  unfold State.writeWindowStart
  try dsimp only
  repeat' first
    | with_reducible assumption | with_reducible apply keeps_done | with_reducible apply keeps_refuse
    | (with_reducible refine keepsServed_id ?_; split)
    | (with_reducible refine keeps_id ?_; simp only [keeps_mk_iff])

theorem keeps_execWindowStartWrite {s0 : State} {v : DWord} {async : Bool} {s : State} (hs : Keeps s0 s)
    : KeepsOut s0 (execWindowStartWrite v async s) := by
  unfold execWindowStartWrite
  try dsimp only
  repeat' first
    | with_reducible assumption | with_reducible apply keeps_pdCommand | with_reducible apply keeps_writeWindowStart
    | (with_reducible refine keepsOut_id ?_; split) | split | intro _

theorem keeps_writeSessionClear {s0 : State} {s : State} {ast : Nat} (hs : Keeps s0 s)
    : KeepsServed s0 (State.writeSessionClear s ast) := by
  unfold State.writeSessionClear
  try dsimp only
  repeat' first
    | with_reducible assumption | with_reducible apply keeps_done | with_reducible apply keeps_refuse
    | with_reducible apply keeps_session

theorem keeps_execSessionClear {s0 : State} {ast : Half} {async : Bool} {s : State} (hs : Keeps s0 s)
    : KeepsOut s0 (execSessionClear ast async s) := by
  unfold execSessionClear
  try dsimp only
  repeat' first
    | with_reducible assumption | with_reducible apply keeps_pdCommand | with_reducible apply keeps_writeSessionClear
    | (with_reducible refine keepsOut_id ?_; split) | split | intro _

theorem keeps_writeCoreMask {s0 : State} {s : State} {p : PartId} {v : Word} (hs : Keeps s0 s)
    : KeepsServed s0 (State.writeCoreMask s p v) := by
  unfold State.writeCoreMask
  try dsimp only
  repeat' first
    | with_reducible assumption | with_reducible apply keeps_done | with_reducible apply keeps_modPart
    | with_reducible apply keeps_refuse

theorem keeps_execCoreMaskWrite {s0 : State} {p : PartId} {v : Word} {async : Bool} {s : State} (hs : Keeps s0 s)
    : KeepsOut s0 (execCoreMaskWrite p v async s) := by
  unfold execCoreMaskWrite
  try dsimp only
  repeat' first
    | with_reducible assumption | with_reducible apply keeps_pdCommand | with_reducible apply keeps_writeCoreMask
    | (with_reducible refine keepsOut_id ?_; split) | split | intro _

theorem keeps_writeDw {s0 : State} {s : State} {p : PartId} {w : Fin 4} {v : DWord} (hs : Keeps s0 s)
    : KeepsServed s0 (State.writeDw s p w v) := by
  unfold State.writeDw
  try dsimp only
  repeat' first
    | with_reducible assumption | with_reducible apply keeps_done | with_reducible apply keeps_modPart
    | with_reducible apply keeps_refuse

theorem keeps_execWindowRecordWrite {s0 : State} {p : PartId} {w : Fin 4} {v : DWord} {async : Bool} {s : State} (hs
    : Keeps s0 s) : KeepsOut s0 (execWindowRecordWrite p w v async s) := by
  unfold execWindowRecordWrite
  try dsimp only
  repeat' first
    | with_reducible assumption | with_reducible apply keeps_pdCommand | with_reducible apply keeps_writeDw
    | (with_reducible refine keepsOut_id ?_; split) | split | intro _

theorem keeps_writeSlot {s0 : State} {s : State} {i : Fin 16} {bs : List Byte} (hs : Keeps s0 s)
    : KeepsServed s0 (State.writeSlot s i bs) := by
  unfold State.writeSlot
  try dsimp only
  repeat' first
    | with_reducible assumption | with_reducible apply keeps_done | with_reducible apply keeps_refuse
    | (with_reducible refine keepsServed_id ?_; split)
    | (with_reducible refine keeps_id ?_; simp only [keeps_mk_iff])

theorem keeps_execSlotWrite {s0 : State} {i : Fin 16} {bs : List Byte} {async : Bool} {s : State} (hs : Keeps s0 s)
    : KeepsOut s0 (execSlotWrite i bs async s) := by
  unfold execSlotWrite
  try dsimp only
  repeat' first
    | with_reducible assumption | with_reducible apply keeps_pdCommand | with_reducible apply keeps_sized
    | with_reducible apply keeps_writeSlot | (with_reducible refine keepsOut_id ?_; split) | split | intro _

theorem keeps_refuseRtBell {s0 : State} {s : State} {v : Word} (hs : Keeps s0 s) : Keeps s0 (State.refuseRtBell s v) := by
  unfold State.refuseRtBell
  try dsimp only
  repeat' first
    | with_reducible assumption | with_reducible apply keeps_rtFault
    | (with_reducible refine keeps_id ?_; simp only [keeps_mk_iff])

theorem keeps_rtBell {s0 : State} {s : State} {v : Word} (hs : Keeps s0 s) : Keeps s0 (State.rtBell s v) := by
  unfold State.rtBell
  try dsimp only
  repeat' first
    | with_reducible assumption | with_reducible apply keeps_refuseRtBell
    | (with_reducible refine keeps_id ?_; simp only [keeps_mk_iff])
    | (with_reducible refine ok_id ?_; simp only [ok_mk_iff]) | split

theorem keeps_execRtDoorbell {s0 : State} {v : Word} {s : State} (hs : Keeps s0 s) : KeepsOut s0 (execRtDoorbell v s) := by
  unfold execRtDoorbell
  try dsimp only
  repeat' first
    | with_reducible assumption | with_reducible refine keepsOut_next ?_ | with_reducible apply keeps_rtBell
    | with_reducible apply keeps_wake | (with_reducible refine keepsOut_id ?_; split)
    | (with_reducible refine keeps_id ?_; simp only [keeps_mk_iff])

theorem keeps_startPending {s0 : State} {s : State} {p : PartId} {q : QueueId} (hs : Keeps s0 s)
    : Keeps s0 (State.startPending s p q) := by
  unfold State.startPending
  try dsimp only
  repeat' first
    | with_reducible assumption | with_reducible apply keeps_acceptStep | with_reducible apply keeps_dispatchStep
    | (with_reducible refine keeps_id ?_; simp only [keeps_mk_iff])
    | (with_reducible refine ok_id ?_; simp only [ok_mk_iff]) | split

theorem keeps_execRtStepStart {s0 : State} {s : State} (hs : Keeps s0 s) : KeepsOut s0 (execRtStepStart s) := by
  unfold execRtStepStart
  try dsimp only
  repeat' first
    | with_reducible assumption | with_reducible refine keepsOut_next ?_ | with_reducible apply keeps_dispatchStep
    | with_reducible apply keeps_startPending | (with_reducible refine keepsOut_id ?_; split) | split

theorem keeps_enterArmed {s0 : State} {s : State} {p : PartId} {i : ImgRec} (hs : Keeps s0 s)
    : Keeps s0 (State.enterArmed s p i) := by
  unfold State.enterArmed
  try dsimp only
  repeat' first
    | with_reducible assumption | with_reducible apply keeps_deepWrite | with_reducible apply keeps_modPart
    | with_reducible apply keeps_preload | with_reducible apply keeps_relimit
    | (with_reducible refine keeps_id ?_; simp only [keeps_mk_iff])
    | (with_reducible refine ok_id ?_; simp only [ok_mk_iff]) | split

theorem keeps_liftCap {s0 : State} {s : State} {i : ImgRec} (hs : Keeps s0 s) : Keeps s0 (State.liftCap s i) := by
  unfold State.liftCap
  try dsimp only
  repeat' first
    | with_reducible assumption | with_reducible apply keeps_modPower

theorem keeps_enterDisarmed {s0 : State} {s : State} (hs : Keeps s0 s) : Keeps s0 (State.enterDisarmed s) := by
  unfold State.enterDisarmed
  try dsimp only
  repeat' first
    | with_reducible assumption | with_reducible apply keeps_relimit
    | (with_reducible refine keeps_id ?_; simp only [keeps_mk_iff])

theorem keeps_execArmComplete {s0 : State} {s : State} (hs : Keeps s0 s) : KeepsOut s0 (execArmComplete s) := by
  unfold execArmComplete
  try dsimp only
  repeat' first
    | with_reducible assumption | with_reducible refine keepsOut_next ?_ | with_reducible apply keeps_enterArmed
    | with_reducible apply keeps_enterDisarmed | with_reducible apply keeps_irq | with_reducible apply keeps_liftCap
    | with_reducible apply keeps_relimit | (with_reducible refine keepsOut_id ?_; split)
    | (with_reducible refine keeps_id ?_; simp only [keeps_mk_iff])
    | (with_reducible refine ok_id ?_; simp only [ok_mk_iff]) | split

theorem keeps_disarm {s0 : State} {s : State} (hs : Keeps s0 s) : Keeps s0 (State.disarm s) := by
  unfold State.disarm
  try dsimp only
  repeat' first
    | with_reducible assumption | with_reducible apply keeps_enterDisarmed
    | (with_reducible refine keeps_id ?_; simp only [keeps_mk_iff])
    | (with_reducible refine ok_id ?_; simp only [ok_mk_iff]) | split

theorem keeps_arm {s0 : State} {s : State} (hs : Keeps s0 s) : Keeps s0 (State.arm s) := by
  unfold State.arm
  try dsimp only
  repeat' first
    | with_reducible assumption | (with_reducible refine keeps_id ?_; simp only [keeps_mk_iff])
    | (with_reducible refine ok_id ?_; simp only [ok_mk_iff]) | split

theorem keeps_writeArm {s0 : State} {s : State} {v : Nat} (hs : Keeps s0 s) : KeepsServed s0 (State.writeArm s v) := by
  unfold State.writeArm
  try dsimp only
  repeat' first
    | with_reducible assumption | with_reducible apply keeps_arm | with_reducible apply keeps_disarm
    | with_reducible apply keeps_done | with_reducible apply keeps_refuse
    | (with_reducible refine keepsServed_id ?_; split) | split

theorem keeps_execArm {s0 : State} {v : Byte} {async : Bool} {s : State} (hs : Keeps s0 s)
    : KeepsOut s0 (execArm v async s) := by
  unfold execArm
  try dsimp only
  repeat' first
    | with_reducible assumption | with_reducible apply keeps_pdCommand | with_reducible apply keeps_writeArm
    | (with_reducible refine keepsOut_id ?_; split) | split | intro _

theorem keeps_execDisarm {s0 : State} {async : Bool} {s : State} (hs : Keeps s0 s) : KeepsOut s0 (execDisarm async s) := by
  unfold execDisarm
  try dsimp only
  repeat' first
    | with_reducible assumption | with_reducible apply keeps_pdCommand | with_reducible apply keeps_writeArm
    | (with_reducible refine keepsOut_id ?_; split) | split | intro _

theorem keeps_execDisarmComplete {s0 : State} {s : State} (hs : Keeps s0 s) : KeepsOut s0 (execDisarmComplete s) := by
  unfold execDisarmComplete
  try dsimp only
  repeat' first
    | with_reducible assumption | with_reducible refine keepsOut_next ?_ | with_reducible apply keeps_enterDisarmed
    | (with_reducible refine keepsOut_id ?_; split)

theorem keeps_execRtArm {s0 : State} {v : Word} {s : State} (hs : Keeps s0 s) : KeepsOut s0 (execRtArm v s) := by
  unfold execRtArm
  try dsimp only
  repeat' first
    | with_reducible assumption | with_reducible refine keepsOut_next ?_ | with_reducible apply keeps_arm
    | with_reducible apply keeps_disarm | with_reducible apply keeps_wake
    | (with_reducible refine keepsOut_id ?_; split) | split

theorem keeps_execAttach {s0 : State} {v : Word} {s : State} (hs : Keeps s0 s) : KeepsOut s0 (execAttach v s) := by
  unfold execAttach
  try dsimp only
  repeat' first
    | with_reducible assumption | with_reducible refine keepsOut_next ?_ | with_reducible apply keeps_attach
    | with_reducible apply keeps_wake | (with_reducible refine keepsOut_id ?_; split)
    | (with_reducible refine keeps_id ?_; simp only [keeps_mk_iff])

theorem keeps_execIrqClear {s0 : State} {v : Word} {s : State} (hs : Keeps s0 s) : KeepsOut s0 (execIrqClear v s) := by
  unfold execIrqClear
  try dsimp only
  repeat' first
    | with_reducible assumption | with_reducible refine keepsOut_next ?_
    | (with_reducible refine keepsOut_id ?_; split) | (with_reducible refine keeps_id ?_; simp only [keeps_mk_iff])

theorem keeps_execTimeLoRead {s0 : State} {s : State} (hs : Keeps s0 s) : KeepsOut s0 (execTimeLoRead s) := by
  unfold execTimeLoRead
  try dsimp only
  repeat' first
    | with_reducible assumption | with_reducible refine keepsOut_next ?_
    | (with_reducible refine keepsOut_id ?_; split) | (with_reducible refine keeps_id ?_; simp only [keeps_mk_iff])

/-! ### Images -/

theorem keeps_writeLoad {s0 : State} {s : State} {p : PartId} {v : Nat} (hs : Keeps s0 s)
    : KeepsServed s0 (State.writeLoad s p v) := by
  unfold State.writeLoad
  try dsimp only
  repeat' first
    | with_reducible assumption | with_reducible apply keeps_done | with_reducible apply keeps_modPart
    | with_reducible apply keeps_refuse

theorem keeps_execLoad {s0 : State} {p : PartId} {v : QWord} {async : Bool} {s : State} (hs : Keeps s0 s)
    : KeepsOut s0 (execLoad p v async s) := by
  unfold execLoad
  try dsimp only
  repeat' first
    | with_reducible assumption | with_reducible apply keeps_pdCommand | with_reducible apply keeps_writeLoad
    | (with_reducible refine keepsOut_id ?_; split) | split | intro _

theorem keeps_rejectImage {s0 : State} {s : State} {p : PartId} {code offset id : Nat} (hs : Keeps s0 s)
    : Keeps s0 (State.rejectImage s p code offset id) := by
  unfold State.rejectImage
  try dsimp only
  repeat' first
    | with_reducible assumption | with_reducible apply keeps_irq | with_reducible apply keeps_modPart

theorem keeps_placeImage {s0 : State} {s : State} {p : PartId} {i : ImgRec} (hs : Keeps s0 s)
    : Keeps s0 (State.placeImage s p i) := by
  unfold State.placeImage
  try dsimp only
  repeat' first
    | with_reducible assumption | with_reducible apply keeps_deepWrite | split

theorem keeps_acceptImage {s0 : State} {s : State} {p : PartId} {i : ImgRec} (hs : Keeps s0 s)
    : Keeps s0 (State.acceptImage s p i) := by
  unfold State.acceptImage
  try dsimp only
  repeat' first
    | with_reducible assumption | with_reducible apply keeps_irq | with_reducible apply keeps_modPart
    | with_reducible apply keeps_placeImage | split

theorem keeps_checkImage {s0 : State} {s : State} {p : PartId} {l : LoadReq} {bs : List Byte} (hs : Keeps s0 s)
    : Keeps s0 (State.checkImage s p l bs) := by
  unfold State.checkImage
  try dsimp only
  repeat' first
    | with_reducible assumption | with_reducible apply keeps_acceptImage | with_reducible apply keeps_rejectImage
    | split

theorem keeps_execImageLoadDone {s0 : State} {p : PartId} {r : ReadResult} {s : State} (hs : Keeps s0 s)
    : KeepsOut s0 (execImageLoadDone p r s) := by
  unfold execImageLoadDone
  try dsimp only
  repeat' first
    | with_reducible assumption | with_reducible refine keepsOut_next ?_ | with_reducible apply keeps_checkImage
    | with_reducible apply keeps_rejectImage | with_reducible apply keeps_stewardRead
    | (with_reducible refine keepsOut_id ?_; split)

/-! ### Tables -/

theorem keeps_modTables {s0 : State} {s : State} {f : TableSt → TableSt} (hs : Keeps s0 s)
    : Keeps s0 (State.modTables s f) := by
  unfold State.modTables
  try dsimp only
  repeat' first
    | with_reducible assumption | (with_reducible refine keeps_id ?_; simp only [keeps_mk_iff])

theorem keeps_writeCodebook {s0 : State} {s : State} {t : Fin 64} {bs : List Byte} (hs : Keeps s0 s)
    : KeepsServed s0 (State.writeCodebook s t bs) := by
  unfold State.writeCodebook
  try dsimp only
  repeat' first
    | with_reducible assumption | with_reducible apply keeps_done | with_reducible apply keeps_modTables
    | with_reducible apply keeps_refuse

theorem keeps_execCodebookPendingWrite {s0 : State} {t : Fin 64} {bs : List Byte} {async : Bool} {s : State} (hs : Keeps s0 s)
    : KeepsOut s0 (execCodebookPendingWrite t bs async s) := by
  unfold execCodebookPendingWrite
  try dsimp only
  repeat' first
    | with_reducible assumption | with_reducible apply keeps_pdCommand | with_reducible apply keeps_writeCodebook
    | (with_reducible refine keepsOut_id ?_; split) | split | intro _

theorem keeps_switchCodebooks {s0 : State} {s : State} {mask : DWord} (hs : Keeps s0 s)
    : KeepsServed s0 (State.switchCodebooks s mask) := by
  unfold State.switchCodebooks
  try dsimp only
  repeat' first
    | with_reducible assumption | with_reducible apply keeps_done | with_reducible apply keeps_modTables
    | with_reducible apply keeps_refuse

theorem keeps_execCodebookSwitch {s0 : State} {mask : DWord} {async : Bool} {s : State} (hs : Keeps s0 s)
    : KeepsOut s0 (execCodebookSwitch mask async s) := by
  unfold execCodebookSwitch
  try dsimp only
  repeat' first
    | with_reducible assumption | with_reducible apply keeps_pdCommand | with_reducible apply keeps_switchCodebooks
    | (with_reducible refine keepsOut_id ?_; split) | split | intro _

theorem keeps_writeCurve {s0 : State} {s : State} {c : Fin 32} {off n : Nat} {bs : List Byte} (hs : Keeps s0 s)
    : KeepsServed s0 (State.writeCurve s c off n bs) := by
  unfold State.writeCurve
  try dsimp only
  repeat' first
    | with_reducible assumption | with_reducible apply keeps_done | with_reducible apply keeps_modTables
    | with_reducible apply keeps_refuse

theorem keeps_switchCurves {s0 : State} {s : State} {mask : Word} (hs : Keeps s0 s)
    : KeepsServed s0 (State.switchCurves s mask) := by
  unfold State.switchCurves
  try dsimp only
  repeat' first
    | with_reducible assumption | with_reducible apply keeps_done | with_reducible apply keeps_modTables
    | with_reducible apply keeps_refuse

theorem keeps_execCurveSwitch {s0 : State} {mask : Word} {async : Bool} {s : State} (hs : Keeps s0 s)
    : KeepsOut s0 (execCurveSwitch mask async s) := by
  unfold execCurveSwitch
  try dsimp only
  repeat' first
    | with_reducible assumption | with_reducible apply keeps_pdCommand | with_reducible apply keeps_switchCurves
    | (with_reducible refine keepsOut_id ?_; split) | split | intro _

theorem keeps_switchPolicy {s0 : State} {s : State} {v : Nat} (hs : Keeps s0 s) : KeepsServed s0 (State.switchPolicy s v) := by
  unfold State.switchPolicy
  try dsimp only
  repeat' first
    | with_reducible assumption | with_reducible apply keeps_done | with_reducible apply keeps_modTables
    | with_reducible apply keeps_refuse

theorem keeps_execQpolicySwitch {s0 : State} {v : Byte} {async : Bool} {s : State} (hs : Keeps s0 s)
    : KeepsOut s0 (execQpolicySwitch v async s) := by
  unfold execQpolicySwitch
  try dsimp only
  repeat' first
    | with_reducible assumption | with_reducible apply keeps_pdCommand | with_reducible apply keeps_switchPolicy
    | (with_reducible refine keepsOut_id ?_; split) | split | intro _

theorem keeps_switchDirectory {s0 : State} {s : State} {v : Nat} (hs : Keeps s0 s)
    : KeepsServed s0 (State.switchDirectory s v) := by
  unfold State.switchDirectory
  try dsimp only
  repeat' first
    | with_reducible assumption | with_reducible exact keepsServed_error | with_reducible apply keeps_done
    | with_reducible apply keeps_modTables | with_reducible apply keeps_refuse
    | (with_reducible refine keepsServed_id ?_; split)
    | (with_reducible refine keeps_id ?_; simp only [keeps_mk_iff])

theorem keeps_execDirectorySwitch {s0 : State} {v : Byte} {async : Bool} {s : State} (hs : Keeps s0 s)
    : KeepsOut s0 (execDirectorySwitch v async s) := by
  unfold execDirectorySwitch
  try dsimp only
  repeat' first
    | with_reducible assumption | with_reducible apply keeps_pdCommand | with_reducible apply keeps_switchDirectory
    | (with_reducible refine keepsOut_id ?_; split) | split | intro _

/-! ### Sets -/

theorem keeps_writePending {s0 : State} {s : State} {who : Fin 2} {b : List Byte} (hs : Keeps s0 s)
    : KeepsServed s0 (State.writePending s who b) := by
  unfold State.writePending
  try dsimp only
  repeat' first
    | with_reducible assumption | with_reducible apply keeps_done | with_reducible apply keeps_modSlot
    | with_reducible apply keeps_refuse | (with_reducible refine keepsServed_id ?_; split)
    | (with_reducible refine keeps_id ?_; simp only [keeps_mk_iff])

theorem keeps_execPendingVersion {s0 : State} {bs : List Byte} {async : Bool} {s : State} (hs : Keeps s0 s)
    : KeepsOut s0 (execPendingVersion bs async s) := by
  unfold execPendingVersion
  try dsimp only
  repeat' first
    | with_reducible assumption | with_reducible apply keeps_pdCommand | with_reducible apply keeps_writePending
    | (with_reducible refine keepsOut_id ?_; split) | split | intro _

theorem keeps_deepClear {s0 : State} {s : State} {r : Region} (hs : Keeps s0 s) : Keeps s0 (State.deepClear s r) := by
  have h1 : Keeps s0 { s with deep := { s.deep with cells := s.deep.cells.filter (fun c => decide (c.1 < r.1 ∨ r.1 + r.2 ≤ c.1)), poison := s.deep.poison.filter (fun w => decide (8 * w.1 < r.1 ∨ r.1 + r.2 ≤ 8 * w.1)), flip := s.deep.flip.filter (fun w => decide (8 * w.1 < r.1 ∨ r.1 + r.2 ≤ 8 * w.1)) } } := by
    refine keeps_mkDeep (fun h => ⟨Tab.rising_filter _ _ _ h.rising, fun y hy => ?_, Tab.wf_filter _ h.poison⟩) hs
    intro hi
    exact h.nonzero y (List.mem_filter.mp hy).1 hi
  unfold State.deepClear
  dsimp only
  split
  · exact h1
  · exact keeps_foldl (fun _ _ h => keeps_deepPut h) h1

theorem keeps_loaderBlockFail {s0 : State} {s : State} {n : PortId} {e : HbcBad} (hs : Keeps s0 s)
    : Keeps s0 (State.loaderBlockFail s n e) := by
  unfold State.loaderBlockFail
  try dsimp only
  repeat' first
    | with_reducible assumption | with_reducible apply keeps_health
    | (with_reducible refine keeps_id ?_; simp only [keeps_mk_iff])

theorem keeps_endLoad {s0 : State} {s : State} {slot : Fin 256} {b bs : List Byte} (hs : Keeps s0 s)
    : Keeps s0 (State.endLoad s slot b bs) := by
  unfold State.endLoad
  try dsimp only
  repeat' first
    | with_reducible assumption | with_reducible apply keeps_deepClear | with_reducible apply keeps_deepWrite
    | with_reducible apply keeps_failVersion | with_reducible apply keeps_irq
    | with_reducible apply keeps_loaderBlockFail | with_reducible apply keeps_modSlot
    | (with_reducible refine keeps_id ?_; simp only [keeps_mk_iff])
    | (with_reducible refine ok_id ?_; simp only [ok_mk_iff]) | split

theorem keeps_execResidentLoadDone {s0 : State} {slot : Fin 256} {r : ReadResult} {s : State} (hs : Keeps s0 s)
    : KeepsOut s0 (execResidentLoadDone slot r s) := by
  unfold execResidentLoadDone
  try dsimp only
  repeat' first
    | with_reducible assumption | with_reducible refine keepsOut_next ?_ | with_reducible apply keeps_endLoad
    | with_reducible apply keeps_failVersion | with_reducible apply keeps_stewardPages
    | (with_reducible refine keepsOut_id ?_; split)

theorem keeps_switchSets {s0 : State} {s : State} {b : List Byte} (hs : Keeps s0 s)
    : KeepsServed s0 (State.switchSets s b) := by
  unfold State.switchSets
  try dsimp only
  repeat' first
    | with_reducible assumption | with_reducible apply keeps_done | with_reducible apply keeps_freeRetiring
    | with_reducible apply keeps_modSlot | with_reducible apply keeps_refuse
    | (with_reducible refine keepsServed_id ?_; split)
    | (with_reducible refine keeps_id ?_; simp only [keeps_mk_iff])
    | with_reducible refine keeps_foldl (fun _ _ _ => ?_) ?_

theorem keeps_execEquinox {s0 : State} {bs : List Byte} {async : Bool} {s : State} (hs : Keeps s0 s)
    : KeepsOut s0 (execEquinox bs async s) := by
  unfold execEquinox
  try dsimp only
  repeat' first
    | with_reducible assumption | with_reducible apply keeps_pdCommand | with_reducible apply keeps_switchSets
    | (with_reducible refine keepsOut_id ?_; split) | split | intro _

theorem keeps_deleteVersion {s0 : State} {s : State} {who : Fin 2} {v : Nat} (hs : Keeps s0 s)
    : KeepsServed s0 (State.deleteVersion s who v) := by
  unfold State.deleteVersion
  try dsimp only
  repeat' first
    | with_reducible assumption | with_reducible apply keeps_done | with_reducible apply keeps_freeRetiring
    | with_reducible apply keeps_modSlot | with_reducible apply keeps_refuse

theorem keeps_execDeleteSet {s0 : State} {v : Byte} {async : Bool} {s : State} (hs : Keeps s0 s)
    : KeepsOut s0 (execDeleteSet v async s) := by
  unfold execDeleteSet
  try dsimp only
  repeat' first
    | with_reducible assumption | with_reducible apply keeps_deleteVersion | with_reducible apply keeps_pdCommand
    | (with_reducible refine keepsOut_id ?_; split) | split | intro _

/-! ### Roots -/

theorem keeps_rewalkPin {s0 : State} {s : State} {i : Fin 16} {rs : List WalkRead} (hs : Keeps s0 s)
    : Keeps s0 (State.rewalkPin s i rs) := by
  unfold State.rewalkPin
  try dsimp only
  repeat' first
    | with_reducible assumption | with_reducible apply keeps_health | with_reducible apply keeps_portWalk
    | (with_reducible refine keeps_id ?_; simp only [keeps_mk_iff])
    | (with_reducible refine ok_id ?_; simp only [ok_mk_iff]) | split

theorem keeps_endInvalidate {s0 : State} {s : State} (hs : Keeps s0 s) : Keeps s0 (State.endInvalidate s) := by
  unfold State.endInvalidate
  try dsimp only
  repeat' first
    | with_reducible assumption | (with_reducible refine keeps_id ?_; simp only [keeps_mk_iff])
    | (with_reducible refine ok_id ?_; simp only [ok_mk_iff]) | split

theorem keeps_invalidate {s0 : State} {s : State} {hit : Nat → Bool} {walks : List (List WalkRead)} (hs : Keeps s0 s)
    : Keeps s0 (State.invalidate s hit walks) := by
  unfold State.invalidate
  dsimp only
  have h1 : ∀ t : State, Keeps s0 t → Keeps s0 (if t.walksMarked then t else t.endInvalidate) := by
    intro t ht
    split
    · exact ht
    · exact keeps_endInvalidate ht
  refine h1 _ (keeps_mk (keeps_foldl (fun t p ht => keeps_rewalkPin ht) ?_))
  refine keeps_mkCores (fun h c => ?_) hs
  rw [Vector.getElem_map]
  simp only [ok_mk_iff]
  exact h c

theorem keeps_writeRoot {s0 : State} {s : State} {who : Fin 2} {v : DWord} {walks : List (List WalkRead)} (hs : Keeps s0 s)
    : KeepsServed s0 (State.writeRoot s who v walks) := by
  unfold State.writeRoot
  try dsimp only
  repeat' first
    | with_reducible assumption | with_reducible apply keeps_done | with_reducible apply keeps_invalidate
    | with_reducible apply keeps_refuse | (with_reducible refine keepsServed_id ?_; split)
    | (with_reducible refine keeps_id ?_; simp only [keeps_mk_iff])

theorem keeps_execRootWrite {s0 : State} {v : DWord} {walks : List (List WalkRead)} {async : Bool} {s : State} (hs
    : Keeps s0 s) : KeepsOut s0 (execRootWrite v walks async s) := by
  unfold execRootWrite
  try dsimp only
  repeat' first
    | with_reducible assumption | with_reducible apply keeps_pdCommand | with_reducible apply keeps_writeRoot
    | (with_reducible refine keepsOut_id ?_; split) | split | intro _

theorem keeps_writeInvalidate {s0 : State} {s : State} {v : Nat} {walks : List (List WalkRead)} (hs : Keeps s0 s)
    : KeepsServed s0 (State.writeInvalidate s v walks) := by
  unfold State.writeInvalidate
  try dsimp only
  repeat' first
    | with_reducible assumption | with_reducible apply keeps_done | with_reducible apply keeps_invalidate
    | with_reducible apply keeps_refuse

theorem keeps_execInvalidate {s0 : State} {v : Half} {walks : List (List WalkRead)} {async : Bool} {s : State} (hs
    : Keeps s0 s) : KeepsOut s0 (execInvalidate v walks async s) := by
  unfold execInvalidate
  try dsimp only
  repeat' first
    | with_reducible assumption | with_reducible apply keeps_pdCommand | with_reducible apply keeps_writeInvalidate
    | (with_reducible refine keepsOut_id ?_; split) | split | intro _

theorem keeps_writePin {s0 : State} {s : State} {i : Fin 16} {v : DWord} {walk : List WalkRead} (hs : Keeps s0 s)
    : KeepsServed s0 (State.writePin s i v walk) := by
  unfold State.writePin
  try dsimp only
  repeat' first
    | with_reducible assumption | with_reducible exact keepsServed_error | with_reducible refine keepsServed_fail ?_
    | with_reducible apply keeps_done | with_reducible apply keeps_portWalk | with_reducible apply keeps_refuse
    | (with_reducible refine keepsServed_id ?_; split)
    | (with_reducible refine keeps_id ?_; simp only [keeps_mk_iff])

theorem keeps_execRtPin {s0 : State} {i : Fin 16} {v : DWord} {walk : List WalkRead} {async : Bool} {s : State} (hs
    : Keeps s0 s) : KeepsOut s0 (execRtPin i v walk async s) := by
  unfold execRtPin
  try dsimp only
  repeat' first
    | with_reducible assumption | with_reducible apply keeps_pdCommand | with_reducible apply keeps_writePin
    | (with_reducible refine keepsOut_id ?_; split) | split | intro _

/-! ### Clock -/

theorem ok_passCclk {k : Core} {n : Nat} (hk : CoreOk k) : CoreOk (Core.passCclk k n) := by
  unfold Core.passCclk
  try dsimp only
  repeat' first
    | with_reducible assumption | (with_reducible refine ok_id ?_; simp only [ok_mk_iff]) | split

theorem keeps_passCclk {s0 : State} {s : State} {n : Nat} (hs : Keeps s0 s) : Keeps s0 (State.passCclk s n) := by
  unfold State.passCclk
  refine keeps_followRun (keeps_mkCores (fun h c => ?_) hs)
  rw [Vector.getElem_map]
  exact ok_passCclk (h c)

theorem keeps_refEdge {s0 : State} {s : State} (hs : Keeps s0 s) : Keeps s0 (State.refEdge s) := by
  unfold State.refEdge
  try dsimp only
  repeat' first
    | with_reducible assumption | with_reducible apply keeps_modPower | with_reducible apply keeps_passCclk | split

theorem keeps_aonEdge {s0 : State} {s : State} (hs : Keeps s0 s) : Keeps s0 (State.aonEdge s) := by
  unfold State.aonEdge
  try dsimp only
  repeat' first
    | with_reducible assumption | with_reducible apply keeps_modPower | with_reducible apply keeps_passCclk

theorem keeps_stopPlls {s0 : State} {s : State} (hs : Keeps s0 s) : Keeps s0 (State.stopPlls s) := by
  unfold State.stopPlls
  try dsimp only
  repeat' first
    | with_reducible assumption | with_reducible apply keeps_modPower

theorem keeps_finishInvalidate {s0 : State} {s : State} (hs : Keeps s0 s) : Keeps s0 (State.finishInvalidate s) := by
  unfold State.finishInvalidate
  try dsimp only
  repeat' first
    | with_reducible assumption | with_reducible apply keeps_endInvalidate | with_reducible apply keeps_pdCount
    | with_reducible apply keeps_pdEnd | split

theorem keeps_tick {s0 : State} {s : State} (hs : Keeps s0 s) : Keeps s0 (State.tick s) := by
  unfold State.tick
  try dsimp only
  repeat' first
    | with_reducible assumption | with_reducible apply keeps_aonEdge | with_reducible apply keeps_refEdge
    | with_reducible apply keeps_stopPlls | split

theorem keeps_clockEdge {s0 : State} {s : State} (hs : Keeps s0 s) : Keeps s0 (clockEdge s) := by
  unfold clockEdge
  try dsimp only
  repeat' first
    | with_reducible assumption | with_reducible apply keeps_finishInvalidate | with_reducible apply keeps_tick

/-! ### Landings -/

theorem keeps_execSignalTakesEffect {s0 : State} {c : CoreId} {s : State} (hs : Keeps s0 s)
    : KeepsOut s0 (execSignalTakesEffect c s) := by
  unfold execSignalTakesEffect
  try dsimp only
  repeat' first
    | with_reducible assumption | with_reducible refine keepsOut_next ?_
    | with_reducible refine keeps_modCoreI (fun _ _ => ?_) ?_
    | (with_reducible refine Keeps.core ?_ (by assumption) _) | with_reducible apply keeps_modPart
    | (with_reducible refine keepsOut_id ?_; split) | (with_reducible refine keeps_id ?_; simp only [keeps_mk_iff])
    | (with_reducible refine ok_id ?_; simp only [ok_mk_iff])

theorem keeps_execBundleIssueHoldRelease {s0 : State} {c : CoreId} {s : State} (hs : Keeps s0 s)
    : KeepsOut s0 (execBundleIssueHoldRelease c s) := by
  unfold execBundleIssueHoldRelease
  try dsimp only
  repeat' first
    | with_reducible assumption | with_reducible apply keeps_releaseHold

theorem keeps_execDmaCommandEnd {s0 : State} {c : CoreId} {t : Fin 8} {s : State} (hs : Keeps s0 s)
    : KeepsOut s0 (execDmaCommandEnd c t s) := by
  unfold execDmaCommandEnd
  try dsimp only
  repeat' first
    | with_reducible assumption | with_reducible refine keepsOut_next ?_ | with_reducible apply keeps_endDma

theorem keeps_countStalls {s0 : State} {s : State} {c : CoreId} {frost wait : Nat} (hs : Keeps s0 s)
    : Keeps s0 (State.countStalls s c frost wait) := by
  unfold State.countStalls
  try dsimp only
  repeat' first
    | with_reducible assumption | with_reducible apply keeps_modHealth
    | (with_reducible refine keeps_id ?_; simp only [keeps_mk_iff])

theorem keeps_execPassResultLanded {s0 : State} {c : CoreId} {s : State} (hs : Keeps s0 s)
    : KeepsOut s0 (execPassResultLanded c s) := by
  unfold execPassResultLanded
  try dsimp only
  repeat' first
    | with_reducible assumption | with_reducible refine keepsOut_next ?_ | with_reducible apply keeps_countStalls
    | with_reducible apply keeps_landPass | (with_reducible refine keepsOut_id ?_; split) | split

theorem keeps_execMvpPassLanded {s0 : State} {c : CoreId} {s : State} (hs : Keeps s0 s)
    : KeepsOut s0 (execMvpPassLanded c s) := by
  unfold execMvpPassLanded
  refine keepsOut_next ?_
  split
  · exact keeps_countStalls (keeps_landMv hs)
  · exact keeps_landMv hs

theorem keeps_execWeightLoadEnd {s0 : State} {c : CoreId} {s : State} (hs : Keeps s0 s)
    : KeepsOut s0 (execWeightLoadEnd c s) := by
  unfold execWeightLoadEnd
  try dsimp only
  repeat' first
    | with_reducible assumption | with_reducible refine keepsOut_next ?_ | with_reducible apply keeps_landLoad

theorem keeps_execReadoutLanded {s0 : State} {c : CoreId} {s : State} (hs : Keeps s0 s)
    : KeepsOut s0 (execReadoutLanded c s) := by
  unfold execReadoutLanded
  try dsimp only
  repeat' first
    | with_reducible assumption | with_reducible refine keepsOut_next ?_ | with_reducible apply keeps_landReadout

theorem keeps_execVectorOperationLanded {s0 : State} {c : CoreId} {s : State} (hs : Keeps s0 s)
    : KeepsOut s0 (execVectorOperationLanded c s) := by
  unfold execVectorOperationLanded
  try dsimp only
  repeat' first
    | with_reducible assumption | with_reducible refine keepsOut_next ?_ | with_reducible apply keeps_landVec

theorem keeps_execDeepScratchWriteLanded {s0 : State} {c : CoreId} {s : State} (hs : Keeps s0 s)
    : KeepsOut s0 (execDeepScratchWriteLanded c s) := by
  unfold execDeepScratchWriteLanded
  try dsimp only
  repeat' first
    | with_reducible assumption | with_reducible refine keepsOut_next ?_ | with_reducible apply keeps_landOneDeep

theorem keeps_execTapLoadLanded {s0 : State} {c : CoreId} {s : State} (hs : Keeps s0 s)
    : KeepsOut s0 (execTapLoadLanded c s) := by
  unfold execTapLoadLanded
  try dsimp only
  repeat' first
    | with_reducible assumption | with_reducible refine keepsOut_next ?_ | with_reducible apply keeps_landTap

theorem keeps_execTagWaitRelease {s0 : State} {c : CoreId} {u : AccessUnit} {s : State} (hs : Keeps s0 s)
    : KeepsOut s0 (execTagWaitRelease c u s) := by
  unfold execTagWaitRelease
  try dsimp only
  repeat' first
    | with_reducible assumption | with_reducible exact keepsOut_refused | with_reducible refine keepsOut_next ?_
    | with_reducible apply keeps_driveDma | with_reducible apply keeps_feedLoad | with_reducible apply keeps_feedMv
    | with_reducible apply keeps_feedTap | with_reducible apply keeps_landNear | with_reducible apply keeps_settleAga
    | with_reducible apply keeps_tryIssue | (with_reducible refine keepsOut_id ?_; split)

theorem keeps_poison {s0 : State} {s : State} {m : SramId} {w : Nat} (hs : Keeps s0 s) : Keeps s0 (State.poison s m w) := by
  unfold State.poison
  split
  · refine keeps_modCore (fun hk => ⟨hk.zero, hk.near, hk.tags, hk.written, ?_⟩) hs
    exact Tab.wf_set w true hk.poison
  · exact keeps_mkDeep (fun h => ⟨h.rising, h.nonzero, Tab.wf_set w true h.poison⟩) hs
  · refine keeps_modCore (fun hk => ?_) hs
    simp only [ok_mk_iff]
    exact hk
  · simp only [keeps_mk_iff]
    exact hs
  · refine keeps_modCore (fun hk => ?_) hs
    simp only [ok_mk_iff]
    exact hk

theorem keeps_unflip {s0 : State} {s : State} {m : SramId} {w : Nat} (hs : Keeps s0 s) : Keeps s0 (State.unflip s m w) := by
  unfold State.unflip
  split
  case h_2 => exact keeps_mkDeep (fun h => ⟨h.rising, h.nonzero, h.poison⟩) hs
  all_goals first
    | (refine keeps_modCore (fun hk => ?_) hs; simp only [ok_mk_iff]; exact hk)
    | (simp only [keeps_mk_iff]; exact hs)

theorem keeps_scrubOn {s0 : State} {s : State} {m : SramId} {num beats : Nat} (hs : Keeps s0 s)
    : Keeps s0 (State.scrubOn s m num beats) := by
  unfold State.scrubOn
  try dsimp only
  repeat' first
    | with_reducible assumption | (with_reducible refine keeps_id ?_; simp only [keeps_mk_iff])
    | (with_reducible refine ok_id ?_; simp only [ok_mk_iff]) | split

theorem keeps_scrubWord {s0 : State} {s : State} {m : SramId} {w : Nat} {e : EccOutcome} (hs : Keeps s0 s)
    : Keeps s0 (State.scrubWord s m w e) := by
  unfold State.scrubWord
  try dsimp only
  repeat' first
    | with_reducible assumption | with_reducible apply keeps_eccCorrected
    | with_reducible apply keeps_eccUncorrectable | with_reducible apply keeps_poison
    | with_reducible apply keeps_unflip | split

theorem keeps_execScrubBeat {s0 : State} {m : SramId} {word : Nat} {e : EccOutcome} {s : State} (hs : Keeps s0 s)
    : KeepsOut s0 (execScrubBeat m word e s) := by
  unfold execScrubBeat
  try dsimp only
  repeat' first
    | with_reducible assumption | with_reducible refine keepsOut_next ?_ | with_reducible apply keeps_scrubOn
    | with_reducible apply keeps_scrubWord | (with_reducible refine keepsOut_id ?_; split)
    | with_reducible refine keeps_foldl (fun _ _ _ => ?_) ?_

end Sys2Proof.Machine
end

