-- ==== Sys2Proof/Laws/KeepsLink.lean ====
section
/-!
SUPPORT. Every piece of a command keeps what `Keeps` says: the Stack Link, updates.
One lemma per function, named after it.
-/
set_option maxRecDepth 20000
namespace Sys2Proof.Machine
open Sys2Proof.Safety

/-! ### LinkRx -/

theorem keeps_modSt {s0 : State} {s : State} {f : LinkSt → LinkSt} (hs : Keeps s0 s) : Keeps s0 (State.modSt s f) := by
  unfold State.modSt
  try dsimp only
  repeat' first
    | with_reducible assumption | (with_reducible refine keeps_id ?_; simp only [keeps_mk_iff])

theorem keeps_losePeer {s0 : State} {s : State} {e : Fin 8} (hs : Keeps s0 s) : Keeps s0 (State.losePeer s e) := by
  unfold State.losePeer
  try dsimp only
  repeat' first
    | with_reducible assumption | with_reducible apply keeps_failRun | with_reducible apply keeps_modSt
    | with_reducible refine keeps_foldl (fun _ _ _ => ?_) ?_ | split

theorem keeps_restack {s0 : State} {s : State} {noMaster : Bool} (hs : Keeps s0 s) : Keeps s0 (State.restack s noMaster) := by
  unfold State.restack
  try dsimp only
  repeat' first
    | with_reducible assumption | with_reducible apply keeps_irq | with_reducible apply keeps_losePeer
    | with_reducible apply keeps_modSt | with_reducible apply keeps_relimit
    | with_reducible refine keeps_foldl (fun _ _ _ => ?_) ?_ | split

theorem keeps_failPort {s0 : State} {s : State} {l : LinkId} (hs : Keeps s0 s) : Keeps s0 (State.failPort s l) := by
  unfold State.failPort
  try dsimp only
  repeat' first
    | with_reducible assumption | with_reducible apply keeps_health | with_reducible apply keeps_losePeer
    | with_reducible apply keeps_modLink | with_reducible apply keeps_modSt | with_reducible apply keeps_restack
    | with_reducible refine keeps_foldl (fun _ _ _ => ?_) ?_

theorem keeps_execLinkFailed {s0 : State} {l : LinkId} {s : State} (hs : Keeps s0 s) : KeepsOut s0 (execLinkFailed l s) := by
  unfold execLinkFailed
  try dsimp only
  repeat' first
    | with_reducible assumption | with_reducible refine keepsOut_next ?_ | with_reducible apply keeps_failPort
    | (with_reducible refine keepsOut_id ?_; split)

theorem keeps_tryUp {s0 : State} {s : State} {l : LinkId} (hs : Keeps s0 s) : Keeps s0 (State.tryUp s l) := by
  unfold State.tryUp
  try dsimp only
  repeat' first
    | with_reducible assumption | with_reducible apply keeps_modLink | with_reducible apply keeps_modSt
    | with_reducible apply keeps_restack | split

theorem keeps_replayPort {s0 : State} {s : State} {l : LinkId} (hs : Keeps s0 s) : Keeps s0 (State.replayPort s l) := by
  unfold State.replayPort
  try dsimp only
  repeat' first
    | with_reducible assumption | with_reducible apply keeps_failPort | with_reducible apply keeps_modLink | split

theorem keeps_passOn {s0 : State} {s : State} {l : LinkId} {m : Msg} (hs : Keeps s0 s) : Keeps s0 (State.passOn s l m) := by
  unfold State.passOn
  try dsimp only
  repeat' first
    | with_reducible assumption | with_reducible apply keeps_modLink | with_reducible apply keeps_modSt | split

theorem keeps_takeGroup {s0 : State} {s : State} {l : LinkId} {fs : List Flit} (hs : Keeps s0 s)
    : Keeps s0 (State.takeGroup s l fs) := by
  unfold State.takeGroup
  try dsimp only
  repeat' first
    | with_reducible assumption | with_reducible apply keeps_modLink | with_reducible apply keeps_passOn
    | with_reducible apply keeps_replayPort | with_reducible apply keeps_tryUp
    | with_reducible refine keeps_foldl (fun _ _ _ => ?_) ?_ | split

theorem keeps_execLinkGroupReceived {s0 : State} {l : LinkId} {flits : List Flit} {s : State} (hs : Keeps s0 s)
    : KeepsOut s0 (execLinkGroupReceived l flits s) := by
  unfold execLinkGroupReceived
  try dsimp only
  repeat' first
    | with_reducible assumption | with_reducible exact keepsOut_refused | with_reducible refine keepsOut_next ?_
    | with_reducible apply keeps_takeGroup | (with_reducible refine keepsOut_id ?_; split)

theorem keeps_execLinkReplay {s0 : State} {l : LinkId} {s : State} (hs : Keeps s0 s) : KeepsOut s0 (execLinkReplay l s) := by
  unfold execLinkReplay
  try dsimp only
  repeat' first
    | with_reducible assumption | with_reducible refine keepsOut_next ?_ | with_reducible apply keeps_replayPort
    | (with_reducible refine keepsOut_id ?_; split)

theorem keeps_execIdleGroup {s0 : State} {l : LinkId} {s : State} (hs : Keeps s0 s) : KeepsOut s0 (execIdleGroup l s) := by
  unfold execIdleGroup
  try dsimp only
  repeat' first
    | with_reducible assumption | with_reducible refine keepsOut_next ?_ | with_reducible apply keeps_modLink
    | (with_reducible refine keepsOut_id ?_; split)

theorem keeps_phyRise {s0 : State} {s : State} {l : LinkId} (hs : Keeps s0 s) : Keeps s0 (State.phyRise s l) := by
  unfold State.phyRise
  try dsimp only
  repeat' first
    | with_reducible assumption | with_reducible apply keeps_modLink | with_reducible apply keeps_sendHello
    | with_reducible apply keeps_wake

theorem keeps_execPhyUpChange {s0 : State} {l : LinkId} {up : Bool} {s : State} (hs : Keeps s0 s)
    : KeepsOut s0 (execPhyUpChange l up s) := by
  unfold execPhyUpChange
  try dsimp only
  repeat' first
    | with_reducible assumption | with_reducible refine keepsOut_next ?_ | with_reducible apply keeps_modLink
    | with_reducible apply keeps_phyRise | (with_reducible refine keepsOut_id ?_; split)

theorem keeps_execHelloTimer {s0 : State} {s : State} (hs : Keeps s0 s) : KeepsOut s0 (execHelloTimer s) := by
  unfold execHelloTimer
  try dsimp only
  repeat' first
    | with_reducible assumption | with_reducible refine keepsOut_next ?_ | with_reducible apply keeps_restack
    | with_reducible apply keeps_sendHellos | (with_reducible refine keepsOut_id ?_; split)

theorem keeps_followTime {s0 : State} {s : State} {t : Nat} (hs : Keeps s0 s) : Keeps s0 (State.followTime s t) := by
  unfold State.followTime
  try dsimp only
  repeat' first
    | with_reducible assumption | with_reducible apply keeps_modPower | split

theorem keeps_hearHello {s0 : State} {s : State} {l : LinkId} {m : Msg} (hs : Keeps s0 s)
    : Keeps s0 (State.hearHello s l m) := by
  unfold State.hearHello
  try dsimp only
  repeat' first
    | with_reducible assumption | with_reducible apply keeps_followTime | with_reducible apply keeps_modLink
    | with_reducible apply keeps_modSt | with_reducible apply keeps_restack | with_reducible apply keeps_tryUp
    | split

theorem keeps_popReq {s0 : State} {s : State} {l : LinkId} {m : Msg} (hs : Keeps s0 s) : Keeps s0 (State.popReq s l m) := by
  unfold State.popReq
  try dsimp only
  repeat' first
    | with_reducible assumption | with_reducible apply keeps_modLink

theorem keeps_popMgt {s0 : State} {s : State} {l : LinkId} {m : Msg} (hs : Keeps s0 s) : Keeps s0 (State.popMgt s l m) := by
  unfold State.popMgt
  try dsimp only
  repeat' first
    | with_reducible assumption | with_reducible apply keeps_modLink

theorem keeps_popRsp {s0 : State} {s : State} {l : LinkId} (hs : Keeps s0 s) : Keeps s0 (State.popRsp s l) := by
  unfold State.popRsp
  try dsimp only
  repeat' first
    | with_reducible assumption | with_reducible apply keeps_modLink

theorem keeps_onReq {s0 : State} {s : State} {l : LinkId} {typ : Nat} {f : State → Msg → State}
    (hf : ∀ s m, Keeps s0 s → Keeps s0 (f s m)) (hs : Keeps s0 s) : KeepsOut s0 (State.onReq s l typ f) := by
  unfold State.onReq
  try dsimp only
  repeat' first
    | with_reducible assumption | with_reducible refine keepsOut_next ?_ | with_reducible apply keeps_popReq
    | (with_reducible refine keepsOut_id ?_; split) | split | intro _ | dsimp only | with_reducible apply hf

theorem keeps_onMgt {s0 : State} {s : State} {l : LinkId} {typ : Nat} {f : State → Msg → State}
    (hf : ∀ s m, Keeps s0 s → Keeps s0 (f s m)) (hs : Keeps s0 s) : KeepsOut s0 (State.onMgt s l typ f) := by
  unfold State.onMgt
  try dsimp only
  repeat' first
    | with_reducible assumption | with_reducible refine keepsOut_next ?_ | with_reducible apply keeps_popMgt
    | (with_reducible refine keepsOut_id ?_; split) | split | intro _ | dsimp only | with_reducible apply hf

theorem keeps_onRsp {s0 : State} {s : State} {l : LinkId} {typ : Nat} {f : State → Msg → State}
    (hf : ∀ s m, Keeps s0 s → Keeps s0 (f s m)) (hs : Keeps s0 s) : KeepsOut s0 (State.onRsp s l typ f) := by
  unfold State.onRsp
  try dsimp only
  repeat' first
    | with_reducible assumption | with_reducible refine keepsOut_next ?_ | with_reducible apply keeps_popRsp
    | (with_reducible refine keepsOut_id ?_; split) | split | intro _ | dsimp only | with_reducible apply hf

theorem keeps_execHello {s0 : State} {l : LinkId} {s : State} (hs : Keeps s0 s) : KeepsOut s0 (execHello l s) := by
  unfold execHello
  try dsimp only
  repeat' first
    | with_reducible assumption | with_reducible apply keeps_hearHello | with_reducible apply keeps_onMgt
    | (with_reducible refine keepsOut_id ?_; split) | split | intro _

theorem keeps_hearPstate {s0 : State} {s : State} {m : Msg} (hs : Keeps s0 s) : Keeps s0 (State.hearPstate s m) := by
  unfold State.hearPstate
  try dsimp only
  repeat' first
    | with_reducible assumption | with_reducible apply keeps_masterOrder | with_reducible apply keeps_modSt
    | with_reducible apply keeps_sendMsg | split

theorem keeps_execPstate {s0 : State} {l : LinkId} {s : State} (hs : Keeps s0 s) : KeepsOut s0 (execPstate l s) := by
  unfold execPstate
  try dsimp only
  repeat' first
    | with_reducible assumption | with_reducible apply keeps_hearPstate | with_reducible apply keeps_onMgt

theorem keeps_hearEvent {s0 : State} {s : State} {m : Msg} (hs : Keeps s0 s) : Keeps s0 (State.hearEvent s m) := by
  unfold State.hearEvent
  try dsimp only
  repeat' first
    | with_reducible assumption | with_reducible apply keeps_irq
    | (with_reducible refine keeps_id ?_; simp only [keeps_mk_iff])
    | (with_reducible refine ok_id ?_; simp only [ok_mk_iff]) | split

theorem keeps_execEvent {s0 : State} {l : LinkId} {s : State} (hs : Keeps s0 s) : KeepsOut s0 (execEvent l s) := by
  unfold execEvent
  try dsimp only
  repeat' first
    | with_reducible assumption | with_reducible apply keeps_hearEvent | with_reducible apply keeps_onMgt

theorem keeps_countRefused {s0 : State} {s : State} {w : Fin 4} (hs : Keeps s0 s) : Keeps s0 (State.countRefused s w) := by
  unfold State.countRefused
  try dsimp only
  repeat' first
    | with_reducible assumption | with_reducible apply keeps_modSt

theorem keeps_writeEnabled {s0 : State} {s : State} {dsa en : Nat} {bs : List Byte} (hs : Keeps s0 s)
    : Keeps s0 (State.writeEnabled s dsa en bs) := by
  unfold State.writeEnabled
  try dsimp only
  repeat' first
    | with_reducible assumption | with_reducible apply keeps_deepWriteWord
    | with_reducible refine keeps_foldl (fun _ _ _ => ?_) ?_ | split

theorem keeps_sinkWrite {s0 : State} {s : State} {m : Msg} (hs : Keeps s0 s) : Keeps s0 (State.sinkWrite s m) := by
  unfold State.sinkWrite
  try dsimp only
  repeat' first
    | with_reducible assumption | with_reducible apply keeps_countRefused | with_reducible apply keeps_deepWrite
    | with_reducible apply keeps_modSt | with_reducible apply keeps_writeEnabled | split

theorem keeps_execLinkWrite {s0 : State} {l : LinkId} {s : State} (hs : Keeps s0 s) : KeepsOut s0 (execLinkWrite l s) := by
  unfold execLinkWrite
  try dsimp only
  repeat' first
    | with_reducible assumption | with_reducible apply keeps_onReq | with_reducible apply keeps_sinkWrite

theorem keeps_respond {s0 : State} {s : State} {h : Flit} {typ nd status refused : Nat} {data : List Flit} (hs : Keeps s0 s)
    : Keeps s0 (State.respond s h typ nd status refused data) := by
  unfold State.respond
  try dsimp only
  repeat' first
    | with_reducible assumption | with_reducible apply keeps_sendMsg

theorem keeps_serveRead {s0 : State} {s : State} {m : Msg} (hs : Keeps s0 s) : Keeps s0 (State.serveRead s m) := by
  unfold State.serveRead
  try dsimp only
  repeat' first
    | with_reducible assumption | with_reducible apply keeps_countRefused | with_reducible apply keeps_eccFixed
    | with_reducible apply keeps_eccUncorrectable | with_reducible apply keeps_respond | split

theorem keeps_execLinkRead {s0 : State} {l : LinkId} {s : State} (hs : Keeps s0 s) : KeepsOut s0 (execLinkRead l s) := by
  unfold execLinkRead
  try dsimp only
  repeat' first
    | with_reducible assumption | with_reducible refine keepsOut_next ?_ | with_reducible apply keeps_onReq
    | with_reducible apply keeps_serveRead | (with_reducible refine keepsOut_id ?_; split)

theorem keeps_serveFlush {s0 : State} {s : State} {m : Msg} (hs : Keeps s0 s) : Keeps s0 (State.serveFlush s m) := by
  unfold State.serveFlush
  try dsimp only
  repeat' first
    | with_reducible assumption | with_reducible apply keeps_modSt | with_reducible apply keeps_respond

theorem keeps_execLinkFlush {s0 : State} {l : LinkId} {s : State} (hs : Keeps s0 s) : KeepsOut s0 (execLinkFlush l s) := by
  unfold execLinkFlush
  try dsimp only
  repeat' first
    | with_reducible assumption | with_reducible apply keeps_onReq | with_reducible apply keeps_serveFlush

theorem keeps_execChain {s0 : State} {l : LinkId} {s : State} (hs : Keeps s0 s) : KeepsOut s0 (execChain l s) := by
  unfold execChain
  try dsimp only
  repeat' first
    | with_reducible assumption | with_reducible apply keeps_addCredit | with_reducible apply keeps_onReq
    | (with_reducible refine keepsOut_id ?_; split) | split | intro _

theorem keeps_readReturns {s0 : State} {s : State} {m : Msg} (hs : Keeps s0 s) : Keeps s0 (State.readReturns s m) := by
  unfold State.readReturns
  try dsimp only
  repeat' first
    | with_reducible assumption | with_reducible apply keeps_driveDma | with_reducible apply keeps_driveRemote
    | with_reducible apply keeps_failCore | with_reducible apply keeps_modHead | with_reducible apply keeps_modSt
    | split

theorem keeps_execRdata {s0 : State} {l : LinkId} {s : State} (hs : Keeps s0 s) : KeepsOut s0 (execRdata l s) := by
  unfold execRdata
  try dsimp only
  repeat' first
    | with_reducible assumption | with_reducible apply keeps_onRsp | with_reducible apply keeps_readReturns

theorem keeps_flushReturns {s0 : State} {s : State} {m : Msg} (hs : Keeps s0 s) : Keeps s0 (State.flushReturns s m) := by
  unfold State.flushReturns
  try dsimp only
  repeat' first
    | with_reducible assumption | with_reducible apply keeps_driveRemote | with_reducible apply keeps_failCore
    | with_reducible refine keeps_modCoreI (fun _ _ => ?_) ?_
    | (with_reducible refine Keeps.core ?_ (by assumption) _) | with_reducible apply keeps_modSt
    | with_reducible apply keeps_sendToken | (with_reducible refine keeps_id ?_; simp only [keeps_mk_iff])
    | (with_reducible refine ok_id ?_; simp only [ok_mk_iff]) | split

theorem keeps_execFlushDone {s0 : State} {l : LinkId} {s : State} (hs : Keeps s0 s) : KeepsOut s0 (execFlushDone l s) := by
  unfold execFlushDone
  try dsimp only
  repeat' first
    | with_reducible assumption | with_reducible apply keeps_flushReturns | with_reducible apply keeps_onRsp

theorem keeps_writeIw {s0 : State} {s : State} {who : Fin 2} {w : Fin 4} {v : DWord} (hs : Keeps s0 s)
    : KeepsServed s0 (State.writeIw s who w v) := by
  unfold State.writeIw
  try dsimp only
  repeat' first
    | with_reducible assumption | with_reducible apply keeps_done | with_reducible apply keeps_modSt
    | with_reducible apply keeps_refuse

theorem keeps_execInboundWindowWrite {s0 : State} {w : Fin 4} {v : DWord} {async : Bool} {s : State} (hs : Keeps s0 s)
    : KeepsOut s0 (execInboundWindowWrite w v async s) := by
  unfold execInboundWindowWrite
  try dsimp only
  repeat' first
    | with_reducible assumption | with_reducible apply keeps_pdCommand | with_reducible apply keeps_writeIw
    | (with_reducible refine keepsOut_id ?_; split) | split | intro _

theorem keeps_clearPeerEvents {s0 : State} {s : State} {v : Byte} (hs : Keeps s0 s)
    : KeepsServed s0 (State.clearPeerEvents s v) := by
  unfold State.clearPeerEvents
  try dsimp only
  repeat' first
    | with_reducible assumption | with_reducible apply keeps_done | (with_reducible refine keepsServed_id ?_; split)
    | (with_reducible refine keeps_id ?_; simp only [keeps_mk_iff])

theorem keeps_execPeerEventsClear {s0 : State} {v : Byte} {async : Bool} {s : State} (hs : Keeps s0 s)
    : KeepsOut s0 (execPeerEventsClear v async s) := by
  unfold execPeerEventsClear
  try dsimp only
  repeat' first
    | with_reducible assumption | with_reducible apply keeps_clearPeerEvents | with_reducible apply keeps_pdCommand
    | (with_reducible refine keepsOut_id ?_; split) | split | intro _

/-! ### Update -/

theorem keeps_modStart {s0 : State} {s : State} {f : StartSt → StartSt} (hs : Keeps s0 s) : Keeps s0 (State.modStart s f) := by
  unfold State.modStart
  try dsimp only
  repeat' first
    | with_reducible assumption | (with_reducible refine keeps_id ?_; simp only [keeps_mk_iff])

theorem keeps_keepRecord {s0 : State} {s : State} {slot : Bool} {bs : List Byte} {image : ReadResult} (hs : Keeps s0 s)
    : Keeps s0 (State.keepRecord s slot bs image) := by
  unfold State.keepRecord
  try dsimp only
  repeat' first
    | with_reducible assumption | with_reducible apply keeps_physRead | with_reducible apply keeps_setSlot | split

theorem keeps_writeSlotRecord {s0 : State} {s : State} {b : Bool} {bs : List Byte} {image : ReadResult} (hs : Keeps s0 s)
    : KeepsServed s0 (State.writeSlotRecord s b bs image) := by
  unfold State.writeSlotRecord
  try dsimp only
  repeat' first
    | with_reducible assumption | with_reducible apply keeps_done | with_reducible apply keeps_keepRecord
    | with_reducible apply keeps_refuse

theorem keeps_execSlotRecordWrite {s0 : State} {b : Bool} {bs : List Byte} {image : ReadResult} {async : Bool} {s : State} (hs
    : Keeps s0 s) : KeepsOut s0 (execSlotRecordWrite b bs image async s) := by
  unfold execSlotRecordWrite
  try dsimp only
  repeat' first
    | with_reducible assumption | with_reducible apply keeps_pdCommand | with_reducible apply keeps_writeSlotRecord
    | (with_reducible refine keepsOut_id ?_; split) | split | intro _

theorem keeps_beginUpdate {s0 : State} {s : State} {toB : Bool} {b : List Byte} (hs : Keeps s0 s)
    : Keeps s0 (State.beginUpdate s toB b) := by
  unfold State.beginUpdate
  try dsimp only
  repeat' first
    | with_reducible assumption | with_reducible apply keeps_modStart | with_reducible apply keeps_modSteward
    | with_reducible apply keeps_setSlot | split

theorem keeps_writeFwUpdate {s0 : State} {s : State} {v : Nat} {image : ReadResult} (hs : Keeps s0 s)
    : KeepsServed s0 (State.writeFwUpdate s v image) := by
  unfold State.writeFwUpdate
  try dsimp only
  repeat' first
    | with_reducible assumption | with_reducible apply keeps_beginUpdate | with_reducible apply keeps_done
    | with_reducible apply keeps_irq | with_reducible apply keeps_modStart | with_reducible apply keeps_physRead
    | with_reducible apply keeps_refuse | (with_reducible refine keepsServed_id ?_; split)

theorem keeps_execFwUpdate {s0 : State} {v : Byte} {image : ReadResult} {async : Bool} {s : State} (hs : Keeps s0 s)
    : KeepsOut s0 (execFwUpdate v image async s) := by
  unfold execFwUpdate
  try dsimp only
  repeat' first
    | with_reducible assumption | with_reducible apply keeps_pdCommand | with_reducible apply keeps_writeFwUpdate
    | (with_reducible refine keepsOut_id ?_; split) | split | intro _

theorem keeps_execUpdateRollback {s0 : State} {w : Fin 4} {rollbackFails : Bool} {s : State} (hs : Keeps s0 s)
    : KeepsOut s0 (execUpdateRollback w rollbackFails s) := by
  unfold execUpdateRollback
  try dsimp only
  repeat' first
    | with_reducible assumption | with_reducible refine keepsOut_next ?_ | with_reducible apply keeps_modStart
    | with_reducible apply keeps_modSteward | with_reducible apply keeps_restart
    | with_reducible apply keeps_updateEnd | (with_reducible refine keepsOut_id ?_; split)

theorem keeps_writeLibraryLoad {s0 : State} {s : State} {v : Nat} (hs : Keeps s0 s)
    : KeepsServed s0 (State.writeLibraryLoad s v) := by
  unfold State.writeLibraryLoad
  try dsimp only
  repeat' first
    | with_reducible assumption | with_reducible apply keeps_done | with_reducible apply keeps_modStart
    | with_reducible apply keeps_refuse

theorem keeps_execLibraryLoad {s0 : State} {v : QWord} {async : Bool} {s : State} (hs : Keeps s0 s)
    : KeepsOut s0 (execLibraryLoad v async s) := by
  unfold execLibraryLoad
  try dsimp only
  repeat' first
    | with_reducible assumption | with_reducible apply keeps_pdCommand | with_reducible apply keeps_writeLibraryLoad
    | (with_reducible refine keepsOut_id ?_; split) | split | intro _

theorem keeps_fillStores {s0 : State} {s : State} {h : Nat} {st : List Byte} (hs : Keeps s0 s)
    : Keeps s0 (State.fillStores s h st) := by
  unfold State.fillStores
  try dsimp only
  repeat' first
    | with_reducible assumption | with_reducible apply keeps_modStart
    | with_reducible refine keeps_foldl (fun _ _ _ => ?_) ?_

theorem keeps_libraryRead {s0 : State} {s : State} {l : LibLoad} {r : ReadResult} (hs : Keeps s0 s)
    : Keeps s0 (State.libraryRead s l r).1 := by
  unfold State.libraryRead
  try dsimp only
  repeat' first
    | with_reducible assumption | with_reducible apply keeps_stewardRead

theorem keeps_execLibraryLoadDone {s0 : State} {r : ReadResult} {s : State} (hs : Keeps s0 s)
    : KeepsOut s0 (execLibraryLoadDone r s) := by
  unfold execLibraryLoadDone
  try dsimp only
  repeat' first
    | with_reducible assumption | with_reducible refine keepsOut_next ?_ | with_reducible apply keeps_fillStores
    | with_reducible apply keeps_irq | with_reducible apply keeps_libraryRead | with_reducible apply keeps_modStart
    | (with_reducible refine keepsOut_id ?_; split)

theorem keeps_execRoutineStoreReload {s0 : State} {r : ReadResult} {s : State} (hs : Keeps s0 s)
    : KeepsOut s0 (execRoutineStoreReload r s) := by
  unfold execRoutineStoreReload
  try dsimp only
  repeat' first
    | with_reducible assumption | with_reducible refine keepsOut_next ?_ | with_reducible apply keeps_fillStores
    | with_reducible apply keeps_irq | with_reducible apply keeps_libraryRead | with_reducible apply keeps_modStart
    | with_reducible apply keeps_modTables | (with_reducible refine keepsOut_id ?_; split)

theorem keeps_switchCal {s0 : State} {s : State} {v : Nat} (hs : Keeps s0 s) : KeepsServed s0 (State.switchCal s v) := by
  unfold State.switchCal
  try dsimp only
  repeat' first
    | with_reducible assumption | with_reducible apply keeps_done | with_reducible apply keeps_modPower
    | with_reducible apply keeps_modStart | with_reducible apply keeps_refuse

theorem keeps_execCalSwitch {s0 : State} {v : Byte} {async : Bool} {s : State} (hs : Keeps s0 s)
    : KeepsOut s0 (execCalSwitch v async s) := by
  unfold execCalSwitch
  try dsimp only
  repeat' first
    | with_reducible assumption | with_reducible apply keeps_pdCommand | with_reducible apply keeps_switchCal
    | (with_reducible refine keepsOut_id ?_; split) | split | intro _

theorem keeps_beginService {s0 : State} {s : State} {c : CoreId} (hs : Keeps s0 s) : Keeps s0 (State.beginService s c) := by
  unfold State.beginService
  try dsimp only
  repeat' first
    | with_reducible assumption | with_reducible apply keeps_modFault | with_reducible apply keeps_substitute

theorem keeps_writeService {s0 : State} {s : State} {v : Nat} (hs : Keeps s0 s) : KeepsServed s0 (State.writeService s v) := by
  unfold State.writeService
  try dsimp only
  repeat' first
    | with_reducible assumption | with_reducible exact keepsServed_error | with_reducible apply keeps_beginService
    | with_reducible apply keeps_done | with_reducible apply keeps_refuse
    | (with_reducible refine keepsServed_id ?_; split)

theorem keeps_execCoreService {s0 : State} {v : Byte} {async : Bool} {s : State} (hs : Keeps s0 s)
    : KeepsOut s0 (execCoreService v async s) := by
  unfold execCoreService
  try dsimp only
  repeat' first
    | with_reducible assumption | with_reducible apply keeps_pdCommand | with_reducible apply keeps_writeService
    | (with_reducible refine keepsOut_id ?_; split) | split | intro _

theorem keeps_execCoreServiceTestDone {s0 : State} {passes : Bool} {s : State} (hs : Keeps s0 s)
    : KeepsOut s0 (execCoreServiceTestDone passes s) := by
  unfold execCoreServiceTestDone
  try dsimp only
  repeat' first
    | with_reducible assumption | with_reducible refine keepsOut_next ?_ | with_reducible apply keeps_health
    | with_reducible apply keeps_irq | with_reducible apply keeps_modFault | with_reducible apply keeps_modHealth
    | (with_reducible refine keepsOut_id ?_; split)

theorem keeps_testRecord {s0 : State} {s : State} {qseq : Nat} {status : Byte} {detail : Nat} (hs : Keeps s0 s)
    : Keeps s0 (State.testRecord s qseq status detail) := by
  unfold State.testRecord
  try dsimp only
  repeat' first
    | with_reducible assumption | with_reducible apply keeps_driveRecords | with_reducible apply keeps_postRecord

theorem keeps_runTest {s0 : State} {s : State} {img : ImgRec} {d : StepDesc} (hs : Keeps s0 s)
    : Keeps s0 (State.runTest s img d) := by
  unfold State.runTest
  try dsimp only
  repeat' first
    | with_reducible assumption | with_reducible apply keeps_dispatchStep | with_reducible apply keeps_modPart
    | (with_reducible refine keeps_id ?_; simp only [keeps_mk_iff])

theorem keeps_startTest {s0 : State} {s : State} {v : Nat} {image desc : ReadResult} (hs : Keeps s0 s)
    : Keeps s0 (State.startTest s v image desc) := by
  unfold State.startTest
  try dsimp only
  repeat' first
    | with_reducible assumption | with_reducible apply keeps_modPart | with_reducible apply keeps_modStart
    | with_reducible apply keeps_physRead | with_reducible apply keeps_runTest
    | with_reducible apply keeps_testRecord | split

theorem keeps_writeMwStep {s0 : State} {s : State} {bs : List Byte} {image desc : ReadResult} (hs : Keeps s0 s)
    : KeepsServed s0 (State.writeMwStep s bs image desc) := by
  unfold State.writeMwStep
  try dsimp only
  repeat' first
    | with_reducible assumption | with_reducible apply keeps_done | with_reducible apply keeps_refuse
    | with_reducible apply keeps_startTest

theorem keeps_execMwStep {s0 : State} {bs : List Byte} {image desc : ReadResult} {async : Bool} {s : State} (hs : Keeps s0 s)
    : KeepsOut s0 (execMwStep bs image desc async s) := by
  unfold execMwStep
  try dsimp only
  repeat' first
    | with_reducible assumption | with_reducible apply keeps_pdCommand | with_reducible apply keeps_writeMwStep
    | (with_reducible refine keepsOut_id ?_; split) | split | intro _

theorem keeps_writeMwSelftest {s0 : State} {s : State} {v : Nat} {coreFail : BitVec 20} {sharedFail : Bool} (hs : Keeps s0 s)
    : KeepsServed s0 (State.writeMwSelftest s v coreFail sharedFail) := by
  unfold State.writeMwSelftest
  try dsimp only
  repeat' first
    | with_reducible assumption | with_reducible apply keeps_done | with_reducible apply keeps_irq
    | with_reducible apply keeps_modHealth | with_reducible apply keeps_modStart | with_reducible apply keeps_refuse
    | (with_reducible refine keepsServed_id ?_; split) | with_reducible refine keeps_foldl (fun _ _ _ => ?_) ?_
    | split

theorem keeps_execMwSelftest {s0 : State} {v : Byte} {coreFail : BitVec 20} {sharedFail : Bool} {async : Bool} {s : State} (hs
    : Keeps s0 s) : KeepsOut s0 (execMwSelftest v coreFail sharedFail async s) := by
  unfold execMwSelftest
  try dsimp only
  repeat' first
    | with_reducible assumption | with_reducible apply keeps_pdCommand | with_reducible apply keeps_writeMwSelftest
    | (with_reducible refine keepsOut_id ?_; split) | split | intro _

end Sys2Proof.Machine
end

