-- ==== Sys2Proof/Laws/KeepsRows.lean ====
section
/-!
SUPPORT. Every piece of a command keeps what `Keeps` says: the dictionary, the control port, pins, seasons and the slot rows.
One lemma per function, named after it.
-/
set_option maxRecDepth 20000
namespace Sys2Proof.Machine
open Sys2Proof.Safety

/-! ### Entries -/

theorem keeps_within {s0 : State} {lo hi v : Nat} {k : Served} (hk : KeepsServed s0 k)
    : KeepsServed s0 (within lo hi v k) := keeps_refuse hk

structure KeepsE (s0 : State) (e : Entry) : Prop where
  out : ∀ bs, KeepsServed s0 (e.put bs)

structure KeepsRows (s0 : State) (r : Rows) : Prop where
  out : ∀ x ∈ r, KeepsE s0 x.2

theorem keepsE_ro {s0 : State} {n v : Nat} : KeepsE s0 (entRo n v) := ⟨fun _ => keepsServed_error⟩

theorem keepsE_roB {s0 : State} {n : Nat} {bs : List Byte} : KeepsE s0 (entRoB n bs) := ⟨fun _ => keepsServed_error⟩

theorem keepsE_table {s0 : State} {bs : List Byte} : KeepsE s0 (entTable bs) := ⟨fun _ => keepsServed_error⟩

theorem keepsE_rw {s0 : State} {n v : Nat} {f : Nat → Served} (h : ∀ v, KeepsServed s0 (f v))
    : KeepsE s0 (entRw n v f) := ⟨fun _ => h _⟩

theorem keepsE_rwB {s0 : State} {n : Nat} {bs : List Byte} {f : List Byte → Served} (h : ∀ v, KeepsServed s0 (f v))
    : KeepsE s0 (entRwB n bs f) := ⟨fun _ => h _⟩

theorem keepsE_ex {s0 : State} {n : Nat} {f : Nat → Served} (h : ∀ v, KeepsServed s0 (f v))
    : KeepsE s0 (entEx n f) := ⟨fun _ => h _⟩

theorem keepsE_exB {s0 : State} {n : Nat} {f : List Byte → Served} (h : ∀ v, KeepsServed s0 (f v))
    : KeepsE s0 (entExB n f) := ⟨fun _ => h _⟩

theorem keepsE_denied {s0 : State} {e : Entry} {b : Bool} {c : Nat} (h : KeepsE s0 e) : KeepsE s0 (e.denied b c) := ⟨h.out⟩

theorem keepsRows_nil {s0 : State} : KeepsRows s0 [] := ⟨by intro x h; cases h⟩

theorem keepsRows_cons {s0 : State} {n : Nat} {e : Entry} {r : Rows} (he : KeepsE s0 e) (hr : KeepsRows s0 r)
    : KeepsRows s0 ((n, e) :: r) :=
  ⟨by
    intro x h
    rcases List.mem_cons.mp h with h | h
    · subst h; exact he
    · exact hr.out x h⟩

theorem keepsRows_append {s0 : State} {r t : Rows} (hr : KeepsRows s0 r) (ht : KeepsRows s0 t) : KeepsRows s0 (r ++ t) :=
  ⟨by
    intro x h
    rcases List.mem_append.mp h with h | h
    · exact hr.out x h
    · exact ht.out x h⟩

theorem keepsRows_map {s0 : State} {α : Type} {l : List α} {f : α → Nat × Entry} (h : ∀ a, KeepsE s0 (f a).2)
    : KeepsRows s0 (l.map f) :=
  ⟨by
    intro x hx
    obtain ⟨a, _, rfl⟩ := List.mem_map.mp hx
    exact h a⟩

theorem keepsRows_ite {s0 : State} {c : Prop} [Decidable c] {a b : Rows} (ha : KeepsRows s0 a) (hb : KeepsRows s0 b)
    : KeepsRows s0 (if c then a else b) := by
  split
  · exact ha
  · exact hb

theorem keepsRows_id {s0 : State} {r : Rows} (h : KeepsRows s0 r) : KeepsRows s0 r := h

theorem keeps_rows1000 {s0 : State} {s : State} (hs : Keeps s0 s) : KeepsRows s0 (State.rows1000 s) := by
  unfold State.rows1000
  try dsimp only
  repeat' first
    | with_reducible assumption | with_reducible exact keepsE_ro | with_reducible exact keepsE_roB
    | with_reducible exact keepsRows_nil | with_reducible refine keepsRows_cons ?_ ?_

theorem keeps_rows1100 {s0 : State} {s : State} (hs : Keeps s0 s) : KeepsRows s0 (State.rows1100 s) := by
  unfold State.rows1100
  try dsimp only
  repeat' first
    | with_reducible assumption | with_reducible exact keepsE_ro | with_reducible exact keepsRows_nil
    | with_reducible refine keepsRows_cons ?_ ?_

theorem keeps_rows1200 {s0 : State} {s : State} {w : Fin 2} (hs : Keeps s0 s) : KeepsRows s0 (State.rows1200 s w) := by
  unfold State.rows1200
  try dsimp only
  repeat' first
    | with_reducible assumption | with_reducible exact keepsE_ro | with_reducible exact keepsE_roB
    | with_reducible exact keepsRows_nil | with_reducible refine keepsRows_cons ?_ ?_
    | with_reducible refine keepsE_rw ?_ | with_reducible apply keeps_writeWindowStart
    | (with_reducible refine keepsRows_id ?_; split) | intro _

theorem keeps_rows1210 {s0 : State} {s : State} {q : QueueId} (hs : Keeps s0 s) : KeepsRows s0 (State.rows1210 s q) := by
  unfold State.rows1210
  try dsimp only
  repeat' first
    | with_reducible assumption | with_reducible exact keepsRows_nil | with_reducible refine keepsRows_cons ?_ ?_
    | with_reducible refine keepsE_rw ?_ | with_reducible apply keeps_writeCword
    | (with_reducible refine keepsRows_id ?_; split) | intro _

theorem keeps_rows1300 {s0 : State} {s : State} {x : PdExt} (hs : Keeps s0 s) : KeepsRows s0 (State.rows1300 s x) := by
  unfold State.rows1300
  try dsimp only
  repeat' first
    | with_reducible assumption | with_reducible exact keepsE_ro | with_reducible exact keepsE_roB
    | with_reducible exact keepsRows_nil | with_reducible refine keepsRows_cons ?_ ?_
    | with_reducible refine keepsE_denied ?_ | with_reducible refine keepsE_ex ?_
    | with_reducible refine keepsE_exB ?_ | with_reducible apply keeps_writeMwSelftest
    | with_reducible apply keeps_writeMwStep | (with_reducible refine keepsRows_id ?_; split) | intro _

theorem keeps_rows2000 {s0 : State} {s : State} (hs : Keeps s0 s) : KeepsRows s0 (State.rows2000 s) := by
  unfold State.rows2000
  try dsimp only
  repeat' first
    | with_reducible assumption | with_reducible exact keepsE_ro | with_reducible exact keepsRows_nil
    | with_reducible refine keepsRows_cons ?_ ?_ | with_reducible refine keepsE_ex ?_
    | with_reducible apply keeps_clearPeerEvents | (with_reducible refine keepsRows_id ?_; split) | intro _

theorem keeps_rows2100 {s0 : State} {s : State} (hs : Keeps s0 s) : KeepsRows s0 (State.rows2100 s) := by
  unfold State.rows2100
  try dsimp only
  repeat' first
    | with_reducible assumption | with_reducible exact keepsE_ro | with_reducible exact keepsRows_nil
    | with_reducible refine keepsRows_cons ?_ ?_

theorem keeps_rows2200 {s0 : State} {s : State} (hs : Keeps s0 s) : KeepsRows s0 (State.rows2200 s) := by
  unfold State.rows2200
  try dsimp only
  repeat' first
    | with_reducible assumption | with_reducible exact keepsE_ro | with_reducible exact keepsRows_nil
    | with_reducible refine keepsRows_cons ?_ ?_ | with_reducible refine keepsE_rw ?_
    | with_reducible apply keeps_done | with_reducible apply keeps_refuse | with_reducible apply keeps_within
    | (with_reducible refine keepsRows_id ?_; split) | (with_reducible refine keeps_id ?_; simp only [keeps_mk_iff])
    | intro _

theorem keeps_rows2210 {s0 : State} {s : State} {n : PortId} (hs : Keeps s0 s) : KeepsRows s0 (State.rows2210 s n) := by
  unfold State.rows2210
  try dsimp only
  repeat' first
    | with_reducible assumption | with_reducible exact keepsE_ro | with_reducible exact keepsRows_nil
    | with_reducible refine keepsRows_cons ?_ ?_ | with_reducible refine keepsE_rw ?_
    | with_reducible refine keepsE_ex ?_ | with_reducible apply keeps_done | with_reducible apply keeps_modPort
    | with_reducible apply keeps_refuse | with_reducible apply keeps_within | with_reducible apply keeps_writeResume
    | with_reducible refine keepsRows_ite ?_ ?_ | (with_reducible refine keepsRows_id ?_; split) | intro _

theorem keeps_rows2300 {s0 : State} {s : State} {w : Fin 2} {x : PdExt} (hs : Keeps s0 s)
    : KeepsRows s0 (State.rows2300 s w x) := by
  unfold State.rows2300
  try dsimp only
  repeat' first
    | with_reducible assumption | with_reducible exact keepsE_ro | with_reducible exact keepsRows_nil
    | with_reducible refine keepsRows_cons ?_ ?_ | with_reducible refine keepsE_rw ?_
    | with_reducible refine keepsE_ex ?_ | with_reducible apply keeps_done | with_reducible apply keeps_within
    | with_reducible apply keeps_writeInvalidate | with_reducible apply keeps_writeRoot
    | (with_reducible refine keepsRows_id ?_; split) | (with_reducible refine keeps_id ?_; simp only [keeps_mk_iff])
    | intro _

theorem keeps_rows2301 {s0 : State} {s : State} {x : PdExt} (hs : Keeps s0 s) : KeepsRows s0 (State.rows2301 s x) := by
  unfold State.rows2301
  try dsimp only
  repeat' first
    | with_reducible assumption | with_reducible refine keepsRows_map ?_ | with_reducible refine keepsE_rw ?_
    | with_reducible apply keeps_writePin | (with_reducible refine keepsRows_id ?_; split) | intro _

theorem keeps_rows3000 {s0 : State} {s : State} (hs : Keeps s0 s) : KeepsRows s0 (State.rows3000 s) := by
  unfold State.rows3000
  try dsimp only
  repeat' first
    | with_reducible assumption | with_reducible exact keepsE_ro | with_reducible exact keepsRows_nil
    | with_reducible refine keepsRows_cons ?_ ?_

theorem keeps_writeFlowMode {s0 : State} {s : State} {p : PartId} {v : Nat} (hs : Keeps s0 s)
    : KeepsServed s0 (State.writeFlowMode s p v) := by
  unfold State.writeFlowMode
  try dsimp only
  repeat' first
    | with_reducible assumption | with_reducible apply keeps_done | with_reducible apply keeps_modPart
    | with_reducible apply keeps_refuse

theorem keeps_writeRt {s0 : State} {s : State} {p : PartId} {v : Nat} (hs : Keeps s0 s)
    : KeepsServed s0 (State.writeRt s p v) := by
  unfold State.writeRt
  try dsimp only
  repeat' first
    | with_reducible assumption | with_reducible apply keeps_done | with_reducible apply keeps_modPart
    | with_reducible apply keeps_refuse

theorem keeps_writeImageArea {s0 : State} {s : State} {p : PartId} {v : Nat} (hs : Keeps s0 s)
    : KeepsServed s0 (State.writeImageArea s p v) := by
  unfold State.writeImageArea
  try dsimp only
  repeat' first
    | with_reducible assumption | with_reducible apply keeps_done | with_reducible apply keeps_modPart
    | with_reducible apply keeps_refuse

theorem keeps_rows3010 {s0 : State} {s : State} {p : PartId} (hs : Keeps s0 s) : KeepsRows s0 (State.rows3010 s p) := by
  unfold State.rows3010
  try dsimp only
  repeat' first
    | with_reducible assumption | with_reducible exact keepsE_ro | with_reducible exact keepsRows_nil
    | with_reducible refine keepsRows_cons ?_ ?_ | with_reducible refine keepsRows_append ?_ ?_
    | with_reducible refine keepsRows_map ?_ | with_reducible refine keepsE_rw ?_
    | with_reducible refine keepsE_ex ?_ | with_reducible apply keeps_done | with_reducible apply keeps_modPart
    | with_reducible apply keeps_within | with_reducible apply keeps_writeCoreMask
    | with_reducible apply keeps_writeDw | with_reducible apply keeps_writeFlowMode
    | with_reducible apply keeps_writeImageArea | with_reducible apply keeps_writeLoad
    | with_reducible apply keeps_writeRt | (with_reducible refine keepsRows_id ?_; split) | intro _

theorem keeps_writeQueue {s0 : State} {s : State} {q : QueueId} {ok : Bool} {f : Queue → Queue} (hs : Keeps s0 s)
    : KeepsServed s0 (State.writeQueue s q ok f) := by
  unfold State.writeQueue
  try dsimp only
  repeat' first
    | with_reducible assumption | with_reducible apply keeps_done | with_reducible apply keeps_modQueue
    | with_reducible apply keeps_refuse

theorem keeps_rows3110 {s0 : State} {s : State} {q : QueueId} (hs : Keeps s0 s) : KeepsRows s0 (State.rows3110 s q) := by
  unfold State.rows3110
  try dsimp only
  repeat' first
    | with_reducible assumption | with_reducible exact keepsE_ro | with_reducible exact keepsRows_nil
    | with_reducible refine keepsRows_cons ?_ ?_ | with_reducible refine keepsE_rw ?_
    | with_reducible refine keepsE_ex ?_ | with_reducible apply keeps_done | with_reducible apply keeps_modQueue
    | with_reducible apply keeps_within | with_reducible apply keeps_writeEnable
    | with_reducible apply keeps_writeFetch | with_reducible apply keeps_writeKill
    | with_reducible apply keeps_writeQueue | (with_reducible refine keepsRows_id ?_; split) | intro _

theorem keeps_setAgeLimit {s0 : State} {s : State} {v : Nat} (hs : Keeps s0 s) : Keeps s0 (State.setAgeLimit s v) := by
  unfold State.setAgeLimit
  try dsimp only
  repeat' first
    | with_reducible assumption | (with_reducible refine keeps_id ?_; simp only [keeps_mk_iff])

theorem keeps_rows3200 {s0 : State} {s : State} {w : Fin 2} (hs : Keeps s0 s) : KeepsRows s0 (State.rows3200 s w) := by
  unfold State.rows3200
  try dsimp only
  repeat' first
    | with_reducible assumption | with_reducible exact keepsE_ro | with_reducible exact keepsRows_nil
    | with_reducible refine keepsRows_cons ?_ ?_ | with_reducible refine keepsE_rw ?_
    | with_reducible refine keepsE_ex ?_ | with_reducible apply keeps_done | with_reducible apply keeps_setAgeLimit
    | with_reducible apply keeps_within | with_reducible apply keeps_writeSessionClear
    | (with_reducible refine keepsRows_id ?_; split) | (with_reducible refine keeps_id ?_; simp only [keeps_mk_iff])
    | intro _

theorem keeps_rows3300 {s0 : State} {s : State} (hs : Keeps s0 s) : KeepsRows s0 (State.rows3300 s) := by
  unfold State.rows3300
  try dsimp only
  repeat' first
    | with_reducible assumption | with_reducible exact keepsE_ro | with_reducible exact keepsRows_nil
    | with_reducible refine keepsRows_cons ?_ ?_ | with_reducible refine keepsE_denied ?_
    | with_reducible refine keepsE_rw ?_ | with_reducible refine keepsE_ex ?_ | with_reducible apply keeps_done
    | with_reducible apply keeps_refuse | with_reducible apply keeps_writeArm
    | (with_reducible refine keepsRows_id ?_; split) | (with_reducible refine keeps_id ?_; simp only [keeps_mk_iff])
    | intro _

theorem keeps_rows3310 {s0 : State} {s : State} {i : Fin 16} (hs : Keeps s0 s) : KeepsRows s0 (State.rows3310 s i) := by
  unfold State.rows3310
  try dsimp only
  repeat' first
    | with_reducible assumption | with_reducible exact keepsRows_nil | with_reducible refine keepsRows_cons ?_ ?_
    | with_reducible refine keepsE_rwB ?_ | with_reducible apply keeps_writeSlot
    | (with_reducible refine keepsRows_id ?_; split) | intro _

theorem keeps_rows4000 {s0 : State} {s : State} (hs : Keeps s0 s) : KeepsRows s0 (State.rows4000 s) := by
  unfold State.rows4000
  try dsimp only
  repeat' first
    | with_reducible assumption | with_reducible exact keepsE_ro | with_reducible exact keepsRows_nil
    | with_reducible refine keepsRows_cons ?_ ?_ | with_reducible refine keepsE_ex ?_
    | with_reducible apply keeps_switchCodebooks | (with_reducible refine keepsRows_id ?_; split) | intro _

theorem keeps_rows4010 {s0 : State} {s : State} {t : Fin 64} (hs : Keeps s0 s) : KeepsRows s0 (State.rows4010 s t) := by
  unfold State.rows4010
  try dsimp only
  repeat' first
    | with_reducible assumption | with_reducible exact keepsE_ro | with_reducible exact keepsE_roB
    | with_reducible exact keepsRows_nil | with_reducible refine keepsRows_cons ?_ ?_
    | with_reducible refine keepsE_denied ?_ | with_reducible refine keepsE_rwB ?_
    | with_reducible apply keeps_writeCodebook | (with_reducible refine keepsRows_id ?_; split) | intro _

theorem keeps_rows4100 {s0 : State} {s : State} (hs : Keeps s0 s) : KeepsRows s0 (State.rows4100 s) := by
  unfold State.rows4100
  try dsimp only
  repeat' first
    | with_reducible assumption | with_reducible exact keepsE_ro | with_reducible exact keepsRows_nil
    | with_reducible refine keepsRows_cons ?_ ?_ | with_reducible refine keepsE_ex ?_
    | with_reducible apply keeps_switchCurves | (with_reducible refine keepsRows_id ?_; split) | intro _

theorem keeps_rows4110 {s0 : State} {s : State} {c : Fin 32} (hs : Keeps s0 s) : KeepsRows s0 (State.rows4110 s c) := by
  unfold State.rows4110
  try dsimp only
  repeat' first
    | with_reducible assumption | with_reducible exact keepsE_ro | with_reducible exact keepsE_roB
    | with_reducible exact keepsRows_nil | with_reducible refine keepsRows_cons ?_ ?_
    | with_reducible refine keepsRows_append ?_ ?_ | with_reducible refine keepsRows_map ?_
    | with_reducible refine keepsE_denied ?_ | with_reducible refine keepsE_rwB ?_
    | with_reducible apply keeps_writeCurve | (with_reducible refine keepsRows_id ?_; split) | intro _

theorem keeps_rows4200 {s0 : State} {s : State} (hs : Keeps s0 s) : KeepsRows s0 (State.rows4200 s) := by
  unfold State.rows4200
  try dsimp only
  repeat' first
    | with_reducible assumption | with_reducible exact keepsE_ro | with_reducible exact keepsRows_nil
    | with_reducible refine keepsRows_cons ?_ ?_ | with_reducible refine keepsE_ex ?_
    | with_reducible apply keeps_switchPolicy | (with_reducible refine keepsRows_id ?_; split) | intro _

theorem keeps_rows4210 {s0 : State} {s : State} {p : PartId} (hs : Keeps s0 s) : KeepsRows s0 (State.rows4210 s p) := by
  unfold State.rows4210
  try dsimp only
  repeat' first
    | with_reducible assumption | with_reducible exact keepsE_ro | with_reducible exact keepsRows_nil
    | with_reducible refine keepsRows_cons ?_ ?_ | with_reducible refine keepsE_rw ?_
    | with_reducible apply keeps_done | with_reducible apply keeps_modTables | with_reducible apply keeps_within
    | (with_reducible refine keepsRows_id ?_; split) | intro _

theorem keeps_rows4300 {s0 : State} {s : State} (hs : Keeps s0 s) : KeepsRows s0 (State.rows4300 s) := by
  unfold State.rows4300
  try dsimp only
  repeat' first
    | with_reducible assumption | with_reducible exact keepsE_ro | with_reducible exact keepsE_table
    | with_reducible exact keepsRows_nil | with_reducible refine keepsRows_cons ?_ ?_
    | with_reducible refine keepsE_ex ?_ | with_reducible apply keeps_switchDirectory
    | with_reducible apply keeps_writeLibraryLoad | (with_reducible refine keepsRows_id ?_; split) | intro _

theorem keeps_rows4400 {s0 : State} {s : State} {w : Fin 2} (hs : Keeps s0 s) : KeepsRows s0 (State.rows4400 s w) := by
  unfold State.rows4400
  try dsimp only
  repeat' first
    | with_reducible assumption | with_reducible exact keepsE_ro | with_reducible exact keepsE_roB
    | with_reducible exact keepsRows_nil | with_reducible refine keepsRows_cons ?_ ?_
    | with_reducible refine keepsE_rw ?_ | with_reducible refine keepsE_rwB ?_ | with_reducible refine keepsE_ex ?_
    | with_reducible refine keepsE_exB ?_ | with_reducible apply keeps_deleteVersion
    | with_reducible apply keeps_done | with_reducible apply keeps_switchSets
    | with_reducible apply keeps_writePending | (with_reducible refine keepsRows_id ?_; split)
    | (with_reducible refine keeps_id ?_; simp only [keeps_mk_iff]) | intro _

theorem keeps_rows5000 {s0 : State} {s : State} {rwm : Bool} (hs : Keeps s0 s) : KeepsRows s0 (State.rows5000 s rwm) := by
  unfold State.rows5000
  try dsimp only
  repeat' first
    | with_reducible assumption | with_reducible exact keepsE_ro | with_reducible exact keepsRows_nil
    | with_reducible refine keepsRows_cons ?_ ?_ | with_reducible refine keepsE_denied ?_
    | with_reducible refine keepsE_rw ?_ | with_reducible apply keeps_done | with_reducible apply keeps_modPower
    | with_reducible apply keeps_refuse | with_reducible apply keeps_within
    | (with_reducible refine keepsRows_id ?_; split) | intro _

theorem keeps_rows5100 {s0 : State} {s : State} (hs : Keeps s0 s) : KeepsRows s0 (State.rows5100 s) := by
  unfold State.rows5100
  try dsimp only
  repeat' first
    | with_reducible assumption | with_reducible exact keepsE_ro | with_reducible exact keepsRows_nil
    | with_reducible refine keepsRows_cons ?_ ?_ | with_reducible refine keepsE_rw ?_
    | with_reducible apply keeps_done | with_reducible apply keeps_modPower | with_reducible apply keeps_refuse
    | with_reducible apply keeps_within | (with_reducible refine keepsRows_id ?_; split) | intro _

theorem keeps_calWrite {s0 : State} {s : State} {f : PowerSt → PowerSt} (hs : Keeps s0 s)
    : KeepsServed s0 (State.calWrite s f) := by
  unfold State.calWrite
  try dsimp only
  repeat' first
    | with_reducible assumption | with_reducible apply keeps_done | with_reducible apply keeps_modPower
    | with_reducible apply keeps_modStart

theorem keeps_rows5110 {s0 : State} {s : State} {c : CoreId} (hs : Keeps s0 s) : KeepsRows s0 (State.rows5110 s c) := by
  unfold State.rows5110
  try dsimp only
  repeat' first
    | with_reducible assumption | with_reducible exact keepsE_ro | with_reducible exact keepsRows_nil
    | with_reducible refine keepsRows_cons ?_ ?_ | with_reducible refine keepsE_rw ?_
    | with_reducible apply keeps_calWrite | with_reducible apply keeps_within
    | (with_reducible refine keepsRows_id ?_; split) | intro _

theorem keeps_rows5200 {s0 : State} {s : State} (hs : Keeps s0 s) : KeepsRows s0 (State.rows5200 s) := by
  unfold State.rows5200
  try dsimp only
  repeat' first
    | with_reducible assumption | with_reducible exact keepsE_ro | with_reducible exact keepsRows_nil
    | with_reducible refine keepsRows_cons ?_ ?_ | with_reducible refine keepsE_rw ?_
    | with_reducible refine keepsE_rwB ?_ | with_reducible apply keeps_calWrite | with_reducible apply keeps_done
    | with_reducible apply keeps_modPower | with_reducible apply keeps_within
    | (with_reducible refine keepsRows_id ?_; split) | intro _

theorem keeps_rows6000 {s0 : State} {s : State} {w : Fin 2} (hs : Keeps s0 s) : KeepsRows s0 (State.rows6000 s w) := by
  unfold State.rows6000
  try dsimp only
  repeat' first
    | with_reducible assumption | with_reducible exact keepsE_ro | with_reducible exact keepsE_roB
    | with_reducible exact keepsRows_nil | with_reducible refine keepsRows_cons ?_ ?_
    | with_reducible refine keepsE_rw ?_ | with_reducible apply keeps_done
    | (with_reducible refine keepsRows_id ?_; split) | (with_reducible refine keeps_id ?_; simp only [keeps_mk_iff])
    | intro _

theorem keeps_rows6010 {s0 : State} {s : State} {c : CoreId} (hs : Keeps s0 s) : KeepsRows s0 (State.rows6010 s c) := by
  unfold State.rows6010
  try dsimp only
  repeat' first
    | with_reducible assumption | with_reducible exact keepsE_ro | with_reducible exact keepsRows_nil
    | with_reducible refine keepsRows_cons ?_ ?_

theorem keeps_rows6100 {s0 : State} {s : State} (hs : Keeps s0 s) : KeepsRows s0 (State.rows6100 s) := by
  unfold State.rows6100
  try dsimp only
  repeat' first
    | with_reducible assumption | with_reducible exact keepsE_ro | with_reducible exact keepsE_roB
    | with_reducible exact keepsRows_nil | with_reducible refine keepsRows_cons ?_ ?_
    | with_reducible refine keepsE_rw ?_ | with_reducible refine keepsE_ex ?_ | with_reducible apply keeps_done
    | with_reducible apply keeps_modFault | with_reducible apply keeps_refuse | with_reducible apply keeps_within
    | with_reducible apply keeps_writeService | (with_reducible refine keepsRows_id ?_; split) | intro _

theorem keeps_rows6200 {s0 : State} {s : State} (hs : Keeps s0 s) : KeepsRows s0 (State.rows6200 s) := by
  unfold State.rows6200
  try dsimp only
  repeat' first
    | with_reducible assumption | with_reducible exact keepsE_ro | with_reducible exact keepsRows_nil
    | with_reducible refine keepsRows_cons ?_ ?_ | with_reducible refine keepsE_rw ?_
    | with_reducible apply keeps_done | with_reducible apply keeps_refuse | with_reducible apply keeps_within
    | (with_reducible refine keepsRows_id ?_; split) | (with_reducible refine keeps_id ?_; simp only [keeps_mk_iff])
    | intro _

theorem keeps_rows6210 {s0 : State} {s : State} {r : Fin 6} (hs : Keeps s0 s) : KeepsRows s0 (State.rows6210 s r) := by
  unfold State.rows6210
  try dsimp only
  repeat' first
    | with_reducible assumption | with_reducible exact keepsE_ro | with_reducible exact keepsRows_nil
    | with_reducible refine keepsRows_cons ?_ ?_

theorem keeps_rows7000 {s0 : State} {s : State} {rwm : Bool} (hs : Keeps s0 s) : KeepsRows s0 (State.rows7000 s rwm) := by
  unfold State.rows7000
  try dsimp only
  repeat' first
    | with_reducible assumption | with_reducible exact keepsE_ro | with_reducible exact keepsRows_nil
    | with_reducible refine keepsRows_cons ?_ ?_ | with_reducible refine keepsE_denied ?_
    | with_reducible refine keepsE_rw ?_ | with_reducible apply keeps_done | with_reducible apply keeps_modSt
    | with_reducible apply keeps_within | (with_reducible refine keepsRows_id ?_; split) | intro _

theorem keeps_rows7010 {s0 : State} {s : State} {l : LinkId} (hs : Keeps s0 s) : KeepsRows s0 (State.rows7010 s l) := by
  unfold State.rows7010
  try dsimp only
  repeat' first
    | with_reducible assumption | with_reducible exact keepsE_ro | with_reducible exact keepsRows_nil
    | with_reducible refine keepsRows_cons ?_ ?_

theorem keeps_rows7020 {s0 : State} {s : State} {e : Fin 8} (hs : Keeps s0 s) : KeepsRows s0 (State.rows7020 s e) := by
  unfold State.rows7020
  try dsimp only
  repeat' first
    | with_reducible assumption | with_reducible exact keepsE_ro | with_reducible exact keepsRows_nil
    | with_reducible refine keepsRows_cons ?_ ?_

theorem keeps_rows7040 {s0 : State} {s : State} {q : QueueId} (hs : Keeps s0 s) : KeepsRows s0 (State.rows7040 s q) := by
  unfold State.rows7040
  try dsimp only
  repeat' first
    | with_reducible assumption | with_reducible exact keepsRows_nil | with_reducible refine keepsRows_cons ?_ ?_
    | with_reducible refine keepsE_rw ?_ | with_reducible refine keepsE_rwB ?_ | with_reducible apply keeps_done
    | with_reducible apply keeps_modSt | with_reducible apply keeps_refuse | with_reducible apply keeps_within
    | (with_reducible refine keepsRows_id ?_; split) | intro _

theorem keeps_rows7110 {s0 : State} {s : State} {k : Fin 2} {rwm : Bool} {w : Fin 4} (hs : Keeps s0 s)
    : KeepsRows s0 (State.rows7110 s k rwm w) := by
  unfold State.rows7110
  try dsimp only
  repeat' first
    | with_reducible assumption | with_reducible exact keepsE_ro | with_reducible exact keepsRows_nil
    | with_reducible refine keepsRows_cons ?_ ?_ | with_reducible refine keepsE_denied ?_
    | with_reducible refine keepsE_rw ?_ | with_reducible apply keeps_writeIw
    | (with_reducible refine keepsRows_id ?_; split) | intro _

theorem keeps_rows8000 {s0 : State} {s : State} {x : PdExt} (hs : Keeps s0 s) : KeepsRows s0 (State.rows8000 s x) := by
  unfold State.rows8000
  try dsimp only
  repeat' first
    | with_reducible assumption | with_reducible exact keepsE_ro | with_reducible exact keepsRows_nil
    | with_reducible refine keepsRows_cons ?_ ?_ | with_reducible refine keepsE_rw ?_
    | with_reducible refine keepsE_ex ?_ | with_reducible apply keeps_done | with_reducible apply keeps_modStart
    | with_reducible apply keeps_within | with_reducible apply keeps_writeFwUpdate
    | (with_reducible refine keepsRows_id ?_; split) | intro _

theorem keeps_rows8010 {s0 : State} {s : State} {b : Bool} {x : PdExt} (hs : Keeps s0 s)
    : KeepsRows s0 (State.rows8010 s b x) := by
  unfold State.rows8010
  try dsimp only
  repeat' first
    | with_reducible assumption | with_reducible exact keepsRows_nil | with_reducible refine keepsRows_cons ?_ ?_
    | with_reducible refine keepsE_denied ?_ | with_reducible refine keepsE_rwB ?_
    | with_reducible apply keeps_writeSlotRecord | (with_reducible refine keepsRows_id ?_; split) | intro _

theorem keeps_rows8100 {s0 : State} {s : State} (hs : Keeps s0 s) : KeepsRows s0 (State.rows8100 s) := by
  unfold State.rows8100
  try dsimp only
  repeat' first
    | with_reducible assumption | with_reducible exact keepsE_ro | with_reducible exact keepsRows_nil
    | with_reducible refine keepsRows_cons ?_ ?_ | with_reducible refine keepsE_ex ?_
    | with_reducible apply keeps_switchCal | (with_reducible refine keepsRows_id ?_; split) | intro _

theorem keeps_rows8110 {s0 : State} {s : State} (hs : Keeps s0 s) : KeepsRows s0 (State.rows8110 s) := by
  unfold State.rows8110
  try dsimp only
  repeat' first
    | with_reducible assumption | with_reducible exact keepsE_roB | with_reducible exact keepsRows_nil
    | with_reducible refine keepsRows_cons ?_ ?_ | with_reducible refine keepsE_rwB ?_
    | with_reducible apply keeps_done | with_reducible apply keeps_modStart | with_reducible apply keeps_refuse
    | (with_reducible refine keepsRows_id ?_; split) | intro _

theorem keeps_rowsAt {s0 : State} {n : Nat} {base i : Nat} {f : Fin n → Rows} (h : ∀ k, KeepsRows s0 (f k))
    : KeepsRows s0 (rowsAt base i f) := by
  unfold rowsAt
  split
  · exact h _
  · exact keepsRows_nil

theorem keeps_rows {s0 : State} {s : State} {r : PdReq} {x : PdExt} (hs : Keeps s0 s) : KeepsRows s0 (State.rows s r x) := by
  unfold State.rows
  try dsimp only
  repeat' first
    | with_reducible assumption | with_reducible exact keepsE_ro | with_reducible exact keepsRows_nil
    | with_reducible refine keepsRows_cons ?_ ?_ | with_reducible refine keepsRows_append ?_ ?_
    | with_reducible apply keeps_rows1000 | with_reducible apply keeps_rows1100 | with_reducible apply keeps_rows1200
    | with_reducible apply keeps_rows1210 | with_reducible apply keeps_rows1300 | with_reducible apply keeps_rows2000
    | with_reducible apply keeps_rows2100 | with_reducible apply keeps_rows2200 | with_reducible apply keeps_rows2210
    | with_reducible apply keeps_rows2300 | with_reducible apply keeps_rows2301 | with_reducible apply keeps_rows3000
    | with_reducible apply keeps_rows3010 | with_reducible apply keeps_rows3110 | with_reducible apply keeps_rows3200
    | with_reducible apply keeps_rows3300 | with_reducible apply keeps_rows3310 | with_reducible apply keeps_rows4000
    | with_reducible apply keeps_rows4010 | with_reducible apply keeps_rows4100 | with_reducible apply keeps_rows4110
    | with_reducible apply keeps_rows4200 | with_reducible apply keeps_rows4210 | with_reducible apply keeps_rows4300
    | with_reducible apply keeps_rows4400 | with_reducible apply keeps_rows5000 | with_reducible apply keeps_rows5100
    | with_reducible apply keeps_rows5110 | with_reducible apply keeps_rows5200 | with_reducible apply keeps_rows6000
    | with_reducible apply keeps_rows6010 | with_reducible apply keeps_rows6100 | with_reducible apply keeps_rows6200
    | with_reducible apply keeps_rows6210 | with_reducible apply keeps_rows7000 | with_reducible apply keeps_rows7010
    | with_reducible apply keeps_rows7020 | with_reducible apply keeps_rows7040 | with_reducible apply keeps_rows7110
    | with_reducible apply keeps_rows8000 | with_reducible apply keeps_rows8010 | with_reducible apply keeps_rows8100
    | with_reducible apply keeps_rows8110 | with_reducible apply keeps_rowsAt
    | with_reducible refine keepsRows_ite ?_ ?_ | (with_reducible refine keepsRows_id ?_; split) | intro _

theorem keeps_Entry_read {s0 : State} {e : Entry} {s : State} {len offset : Nat} (hs : Keeps s0 s)
    : KeepsServed s0 (Entry.read e s len offset) := by
  unfold Entry.read
  try dsimp only
  repeat' first
    | with_reducible assumption | with_reducible refine keepsServed_ok ?_ | with_reducible apply keeps_refuse
    | (with_reducible refine keepsServed_id ?_; split)

theorem keeps_entry {s0 : State} {s : State} {r : PdReq} {e : Entry} (hs : Keeps s0 s) (h : s.entry r = some e)
    : KeepsE s0 e := by
  unfold State.entry at h
  generalize hr : s.rows r (r.ext.getD PdExt.empty) = rows at h
  have hk : KeepsRows s0 rows := hr ▸ keeps_rows hs
  clear hr
  induction rows with
  | nil => cases h
  | cons y l ih =>
    rw [List.lookup_cons] at h
    split at h
    · cases h
      exact hk.out y (List.mem_cons_self ..)
    · exact ih h ⟨fun x hx => hk.out x (List.mem_cons_of_mem _ hx)⟩

theorem keeps_pdEntry {s0 : State} {r : PdReq} {s : State} (hs : Keeps s0 s) : KeepsServed s0 (State.pdEntry r s) := by
  unfold State.pdEntry
  split
  · exact keepsServed_error
  · rename_i e he
    split
    · exact keepsServed_error
    · split
      · exact keeps_refuse ((keeps_entry hs he).out _)
      · exact keeps_Entry_read hs

/-! ### Pd -/

theorem keeps_notMaster {s0 : State} {r : PdReq} {s : State} (hs : Keeps s0 s) : KeepsServed s0 (State.notMaster r s) := by
  unfold State.notMaster
  try dsimp only
  repeat' first
    | with_reducible assumption | with_reducible exact keepsServed_error
    | (with_reducible refine keepsServed_id ?_; split)

theorem keeps_relayOut {s0 : State} {s : State} {r : PdReq} (hs : Keeps s0 s) : Keeps s0 (State.relayOut s r) := by
  unfold State.relayOut
  try dsimp only
  repeat' first
    | with_reducible assumption | with_reducible apply keeps_modSt | with_reducible apply keeps_sendMsg

theorem keeps_afterWrite {s0 : State} {s : State} {r : PdReq} (hs : Keeps s0 s) : Keeps s0 (State.afterWrite s r) := by
  unfold State.afterWrite
  try dsimp only
  repeat' first
    | with_reducible assumption | with_reducible apply keeps_relimit | split

theorem keeps_pdGo {s0 : State} {s : State} {r : PdReq} (hs : Keeps s0 s) : Keeps s0 (State.pdGo s r) := by
  unfold State.pdGo
  try dsimp only
  repeat' first
    | with_reducible assumption | with_reducible exact keepsServed_error | with_reducible apply keeps_afterWrite
    | with_reducible apply keeps_notMaster | with_reducible apply keeps_pdEntry | with_reducible apply keeps_pdRun
    | with_reducible apply keeps_relayOut | split | intro _

theorem keeps_pdTransaction {s0 : State} {s : State} {r : PdReq} (hs : Keeps s0 s) : KeepsOut s0 (State.pdTransaction s r) := by
  unfold State.pdTransaction
  try dsimp only
  repeat' first
    | with_reducible assumption | with_reducible apply keeps_pdBegin | with_reducible apply keeps_pdGo
    | (with_reducible refine keepsOut_id ?_; split) | (with_reducible refine keeps_id ?_; simp only [keeps_mk_iff])
    | (with_reducible refine ok_id ?_; simp only [ok_mk_iff]) | split | intro _

theorem keeps_execPdRead {s0 : State} {async remote : Bool} {engine : Fin 8} {index : Half} {sub : Byte} {len : BitVec 9}
    {offset : Half} {s : State} (hs : Keeps s0 s) : KeepsOut s0 (execPdRead async remote engine index sub len offset s) := by
  unfold execPdRead
  try dsimp only
  repeat' first
    | with_reducible assumption | with_reducible apply keeps_pdTransaction

theorem keeps_execPdWrite {s0 : State} {async remote : Bool} {engine : Fin 8} {index : Half} {sub : Byte} {len : BitVec 9}
    {offset : Half} {bs : List Byte} {s : State} (hs : Keeps s0 s)
    : KeepsOut s0 (execPdWrite async remote engine index sub len offset bs s) := by
  unfold execPdWrite
  try dsimp only
  repeat' first
    | with_reducible assumption | with_reducible apply keeps_pdTransaction

theorem keeps_serveRelayed {s0 : State} {s : State} {m : Msg} (hs : Keeps s0 s) : Keeps s0 (State.serveRelayed s m) := by
  unfold State.serveRelayed
  have h1 : Keeps s0 { s with ctl := { s.ctl with extNext := s.ctl.extNext + 1 } } := keeps_mk hs
  extract_lets f write r src t answer
  have h2 : Keeps s0 t := h1
  have ha : ∀ s code bs, Keeps s0 s → Keeps s0 (answer s code bs) := fun s code bs h => keeps_sendMsg h
  have h3 : KeepsServed s0 (t.pdServe r (State.pdEntry r)) := keeps_pdServe (fun _ h => keeps_pdEntry h) h2
  split
  · rename_i y bs hy
    exact keeps_afterWrite (ha _ _ _ (keeps_pdCount (keeps_endInvalidate (h3.out _ hy))))
  · exact ha _ _ _ (keeps_pdCount h2)
  · rename_i e y hy
    exact ha _ _ _ (keeps_pdCount (h3.fail _ _ hy))

theorem keeps_takeAnswer {s0 : State} {s : State} {m : Msg} (hs : Keeps s0 s) : Keeps s0 (State.takeAnswer s m) := by
  unfold State.takeAnswer
  try dsimp only
  repeat' first
    | with_reducible assumption | with_reducible apply keeps_modSt | with_reducible apply keeps_pdCount
    | with_reducible apply keeps_pdEnd | split

theorem keeps_execPdmsg {s0 : State} {l : LinkId} {s : State} (hs : Keeps s0 s) : KeepsOut s0 (execPdmsg l s) := by
  unfold execPdmsg
  try dsimp only
  repeat' first
    | with_reducible assumption | with_reducible refine keepsOut_next ?_ | with_reducible apply keeps_onMgt
    | with_reducible apply keeps_serveRelayed | with_reducible apply keeps_takeAnswer
    | with_reducible apply keeps_wake | (with_reducible refine keepsOut_id ?_; split) | split | intro _

theorem keeps_execRelayTimeout {s0 : State} {s : State} (hs : Keeps s0 s) : KeepsOut s0 (execRelayTimeout s) := by
  unfold execRelayTimeout
  try dsimp only
  repeat' first
    | with_reducible assumption | with_reducible refine keepsOut_next ?_ | with_reducible apply keeps_modSt
    | with_reducible apply keeps_pdCount | with_reducible apply keeps_pdEnd
    | (with_reducible refine keepsOut_id ?_; split)

theorem keeps_writePdCtrl {s0 : State} {s : State} {v : Nat} (hs : Keeps s0 s) : KeepsOut s0 (State.writePdCtrl s v) := by
  unfold State.writePdCtrl
  try dsimp only
  repeat' first
    | with_reducible assumption | with_reducible refine keepsOut_next ?_ | with_reducible apply keeps_pdTransaction
    | (with_reducible refine keepsOut_id ?_; split)

theorem keeps_writeBootCtrl {s0 : State} {s : State} {v : Nat} (hs : Keeps s0 s) : KeepsOut s0 (State.writeBootCtrl s v) := by
  unfold State.writeBootCtrl
  try dsimp only
  repeat' first
    | with_reducible assumption | with_reducible refine keepsOut_next ?_ | with_reducible apply keeps_execStart
    | with_reducible apply keeps_modStart | (with_reducible refine keepsOut_id ?_; split)

theorem keeps_writeRegister {s0 : State} {s : State} {off : Nat} {v : Word} (hs : Keeps s0 s)
    : KeepsOut s0 (State.writeRegister s off v) := by
  unfold State.writeRegister
  dsimp only
  repeat' first
    | with_reducible refine keepsOut_ite ?_ ?_
    | with_reducible refine keepsOut_dite (fun _ => ?_) (fun _ => ?_)
    | with_reducible exact keepsOut_next hs
    | with_reducible exact keeps_execIrqClear hs
    | with_reducible exact keeps_writeBootCtrl hs
    | with_reducible exact keeps_execDoorbell hs
    | with_reducible exact keeps_writePdCtrl hs
    | with_reducible exact keeps_execRtDoorbell hs
    | with_reducible exact keeps_execRtArm hs
    | with_reducible exact keeps_execAttach hs
    | exact keepsOut_next (keeps_mk hs)
    | (refine keepsOut_next ?_; split; exact keeps_modStart hs; exact hs)

theorem keeps_execCtlRegisterWrite {s0 : State} {off : BitVec 14} {be : BitVec 4} {v : Word} {s : State} (hs : Keeps s0 s)
    : KeepsOut s0 (execCtlRegisterWrite off be v s) := by
  unfold execCtlRegisterWrite
  try dsimp only
  repeat' first
    | with_reducible assumption | with_reducible refine keepsOut_next ?_ | with_reducible apply keeps_writeRegister
    | (with_reducible refine keepsOut_id ?_; split) | (with_reducible refine keeps_id ?_; simp only [keeps_mk_iff])

/-! ### Pins -/

theorem keeps_linkFall {s0 : State} {s : State} {n : PortId} (hs : Keeps s0 s) : Keeps s0 (State.linkFall s n) := by
  unfold State.linkFall
  try dsimp only
  repeat' first
    | with_reducible assumption | with_reducible apply keeps_portLost | split

theorem keeps_linkRise {s0 : State} {s : State} {n : PortId} (hs : Keeps s0 s) : Keeps s0 (State.linkRise s n) := by
  unfold State.linkRise
  try dsimp only
  repeat' first
    | with_reducible assumption | with_reducible apply keeps_modPort | split

theorem keeps_execLinkUpFall {s0 : State} {n : PortId} {s : State} (hs : Keeps s0 s) : KeepsOut s0 (execLinkUpFall n s) := by
  unfold execLinkUpFall
  try dsimp only
  repeat' first
    | with_reducible assumption | with_reducible exact keepsOut_refused | with_reducible refine keepsOut_next ?_
    | with_reducible apply keeps_linkFall | with_reducible apply keeps_modPort
    | (with_reducible refine keepsOut_id ?_; split)

theorem keeps_execLinkUpRise {s0 : State} {n : PortId} {s : State} (hs : Keeps s0 s) : KeepsOut s0 (execLinkUpRise n s) := by
  unfold execLinkUpRise
  try dsimp only
  repeat' first
    | with_reducible assumption | with_reducible exact keepsOut_refused | with_reducible refine keepsOut_next ?_
    | with_reducible apply keeps_linkRise | with_reducible apply keeps_modPort
    | (with_reducible refine keepsOut_id ?_; split) | split

theorem keeps_setPhy {s0 : State} {s : State} {l : LinkId} {up : Bool} (hs : Keeps s0 s) : Keeps s0 (State.setPhy s l up) := by
  unfold State.setPhy
  try dsimp only
  repeat' first
    | with_reducible assumption | with_reducible apply keeps_modLink

theorem keeps_execPclkReset {s0 : State} {s : State} (hs : Keeps s0 s) : KeepsOut s0 (execPclkReset s) := by
  unfold execPclkReset
  try dsimp only
  repeat' first
    | with_reducible assumption | with_reducible refine keepsOut_next ?_ | with_reducible apply keeps_linkFall
    | with_reducible apply keeps_setPhy | (with_reducible refine keepsOut_id ?_; split)
    | (with_reducible refine keeps_id ?_; simp only [keeps_mk_iff])
    | with_reducible refine keeps_foldl (fun _ _ _ => ?_) ?_

theorem keeps_execWrapperInstructionUpdate {s0 : State} {code : BitVec 3} {s : State} (hs : Keeps s0 s)
    : KeepsOut s0 (execWrapperInstructionUpdate code s) := by
  unfold execWrapperInstructionUpdate
  try dsimp only
  repeat' first
    | with_reducible refine keepsOut_ite ?_ ?_
    | exact keepsOut_next hs
    | exact keepsOut_next (keeps_frame hs rfl rfl rfl rfl rfl rfl rfl rfl)

theorem keeps_execWrapperReset {s0 : State} {s : State} (hs : Keeps s0 s) : KeepsOut s0 (execWrapperReset s) := by
  unfold execWrapperReset
  try dsimp only
  repeat' first
    | with_reducible refine keepsOut_ite ?_ ?_
    | exact keepsOut_next hs
    | exact keepsOut_next (keeps_frame hs rfl rfl rfl rfl rfl rfl rfl rfl)

theorem keeps_execSegmentInsertionUpdate {s0 : State} {i : Instrument} {wantOpen : Bool} {s : State} (hs : Keeps s0 s)
    : KeepsOut s0 (execSegmentInsertionUpdate i wantOpen s) := by
  unfold execSegmentInsertionUpdate
  try dsimp only
  repeat' first
    | with_reducible refine keepsOut_ite ?_ ?_
    | exact keepsOut_next hs
    | exact keepsOut_next (keeps_frame hs rfl rfl rfl rfl rfl rfl rfl rfl)

theorem keeps_execNetworkReset {s0 : State} {s : State} (hs : Keeps s0 s) : KeepsOut s0 (execNetworkReset s) := by
  unfold execNetworkReset
  try dsimp only
  repeat' first
    | with_reducible refine keepsOut_ite ?_ ?_
    | exact keepsOut_next hs
    | exact keepsOut_next (keeps_frame hs rfl rfl rfl rfl rfl rfl rfl rfl)

/-! ### Seasons -/

theorem keeps_ringHeld {s0 : State} {s : State} (hs : Keeps s0 s) : Keeps s0 (State.ringHeld s) := by
  unfold State.ringHeld
  try dsimp only
  repeat' first
    | with_reducible assumption | with_reducible apply keeps_ringBell
    | (with_reducible refine keeps_id ?_; simp only [keeps_mk_iff])
    | with_reducible refine keeps_foldl (fun _ _ _ => ?_) ?_

theorem keeps_refuseHeld {s0 : State} {s : State} (hs : Keeps s0 s) : Keeps s0 (State.refuseHeld s) := by
  unfold State.refuseHeld
  try dsimp only
  repeat' first
    | with_reducible assumption | with_reducible apply keeps_refuseRtBell
    | (with_reducible refine keeps_id ?_; simp only [keeps_mk_iff])
    | with_reducible refine keeps_foldl (fun _ _ _ => ?_) ?_

theorem keeps_serveLatched {s0 : State} {s : State} (hs : Keeps s0 s) : Keeps s0 (State.serveLatched s) := by
  unfold State.serveLatched
  try dsimp only
  repeat' first
    | with_reducible assumption | with_reducible apply keeps_pdGo | split

theorem keeps_springBegins {s0 : State} {s : State} (hs : Keeps s0 s) : Keeps s0 (State.springBegins s) := by
  unfold State.springBegins
  try dsimp only
  repeat' first
    | with_reducible assumption | with_reducible apply keeps_oldAlert | with_reducible apply keeps_refuseHeld
    | with_reducible apply keeps_relimit | with_reducible apply keeps_ringHeld
    | with_reducible apply keeps_serveLatched | split

theorem keeps_wakeUp {s0 : State} {s : State} (hs : Keeps s0 s) : Keeps s0 (State.wakeUp s) := by
  unfold State.wakeUp
  try dsimp only
  repeat' first
    | with_reducible assumption | with_reducible apply keeps_springBegins | with_reducible apply keeps_wake

theorem keeps_execWakeEvent {s0 : State} {k : WakeKind} {s : State} (hs : Keeps s0 s) : KeepsOut s0 (execWakeEvent k s) := by
  unfold execWakeEvent
  try dsimp only
  repeat' first
    | with_reducible assumption | with_reducible refine keepsOut_next ?_ | with_reducible apply keeps_wakeUp
    | (with_reducible refine keepsOut_id ?_; split) | split

theorem keeps_execWakeAtExpiry {s0 : State} {s : State} (hs : Keeps s0 s) : KeepsOut s0 (execWakeAtExpiry s) := by
  unfold execWakeAtExpiry
  try dsimp only
  repeat' first
    | with_reducible assumption | with_reducible refine keepsOut_next ?_ | with_reducible apply keeps_wakeUp
    | (with_reducible refine keepsOut_id ?_; split) | split

theorem keeps_execDrainLimitExpiry {s0 : State} {s : State} (hs : Keeps s0 s) : KeepsOut s0 (execDrainLimitExpiry s) := by
  unfold execDrainLimitExpiry
  try dsimp only
  repeat' first
    | with_reducible assumption | with_reducible refine keepsOut_next ?_ | with_reducible apply keeps_leaveAutumn
    | with_reducible apply keeps_modPower | with_reducible apply keeps_springBegins
    | (with_reducible refine keepsOut_id ?_; split)

theorem keeps_execPllLock {s0 : State} {s : State} (hs : Keeps s0 s) : KeepsOut s0 (execPllLock s) := by
  unfold execPllLock
  try dsimp only
  repeat' first
    | with_reducible assumption | with_reducible refine keepsOut_next ?_ | with_reducible apply keeps_modPower
    | with_reducible apply keeps_springBegins | (with_reducible refine keepsOut_id ?_; split)

theorem keeps_endThaw {s0 : State} {s : State} (hs : Keeps s0 s) : Keeps s0 (State.endThaw s) := by
  unfold State.endThaw
  try dsimp only
  repeat' first
    | with_reducible assumption | with_reducible apply keeps_driveRecords | with_reducible apply keeps_holdSettled
    | with_reducible apply keeps_irq | with_reducible apply keeps_modPower | with_reducible apply keeps_sendHellos
    | with_reducible apply keeps_springBegins

theorem keeps_thawReload {s0 : State} {s : State} {r : ReadResult} (hs : Keeps s0 s) : Keeps s0 (State.thawReload s r) := by
  unfold State.thawReload
  try dsimp only
  repeat' first
    | with_reducible assumption | with_reducible apply keeps_endThaw | with_reducible apply keeps_physRead
    | with_reducible apply keeps_restart | split

theorem keeps_execThawComplete {s0 : State} {r : ReadResult} {s : State} (hs : Keeps s0 s)
    : KeepsOut s0 (execThawComplete r s) := by
  unfold execThawComplete
  try dsimp only
  repeat' first
    | with_reducible assumption | with_reducible refine keepsOut_next ?_ | with_reducible apply keeps_thawReload

theorem keeps_execThawReloadRetry {s0 : State} {r : ReadResult} {s : State} (hs : Keeps s0 s)
    : KeepsOut s0 (execThawReloadRetry r s) := by
  unfold execThawReloadRetry
  try dsimp only
  repeat' first
    | with_reducible assumption | with_reducible refine keepsOut_next ?_ | with_reducible apply keeps_thawReload

theorem keeps_execThawReloadAbandon {s0 : State} {s : State} (hs : Keeps s0 s) : KeepsOut s0 (execThawReloadAbandon s) := by
  unfold execThawReloadAbandon
  try dsimp only
  repeat' first
    | with_reducible assumption | with_reducible refine keepsOut_next ?_ | with_reducible apply keeps_restart
    | (with_reducible refine keepsOut_id ?_; split) | split

theorem keeps_execThermalRestExpiry {s0 : State} {s : State} (hs : Keeps s0 s) : KeepsOut s0 (execThermalRestExpiry s) := by
  unfold execThermalRestExpiry
  try dsimp only
  repeat' first
    | with_reducible assumption | with_reducible refine keepsOut_next ?_ | with_reducible apply keeps_modPower
    | with_reducible apply keeps_wakeUp | (with_reducible refine keepsOut_id ?_; split) | split

theorem keeps_execPclkResetRelease {s0 : State} {s : State} (hs : Keeps s0 s) : KeepsOut s0 (execPclkResetRelease s) := by
  unfold execPclkResetRelease
  try dsimp only
  repeat' first
    | with_reducible assumption | with_reducible refine keepsOut_next ?_ | with_reducible apply keeps_linkRise
    | with_reducible apply keeps_phyRise | (with_reducible refine keepsOut_id ?_; split)
    | (with_reducible refine keeps_id ?_; simp only [keeps_mk_iff])
    | with_reducible refine keeps_foldl (fun _ _ _ => ?_) ?_
    | (with_reducible refine ok_id ?_; simp only [ok_mk_iff]) | split

/-! ### SlotScl -/

theorem keeps_execAdd {s0 : State} {c : CoreId} {eob : Bool} {d a b : SReg} {s : State} (hs : Keeps s0 s)
    : KeepsOut s0 (execAdd c eob d a b s) := by
  unfold execAdd
  try dsimp only
  repeat' first
    | with_reducible assumption | with_reducible apply keeps_issueSlot

theorem keeps_execSub {s0 : State} {c : CoreId} {eob : Bool} {d a b : SReg} {s : State} (hs : Keeps s0 s)
    : KeepsOut s0 (execSub c eob d a b s) := by
  unfold execSub
  try dsimp only
  repeat' first
    | with_reducible assumption | with_reducible apply keeps_issueSlot

theorem keeps_execMul {s0 : State} {c : CoreId} {eob : Bool} {d a b : SReg} {s : State} (hs : Keeps s0 s)
    : KeepsOut s0 (execMul c eob d a b s) := by
  unfold execMul
  try dsimp only
  repeat' first
    | with_reducible assumption | with_reducible apply keeps_issueSlot

theorem keeps_execSclAnd {s0 : State} {c : CoreId} {eob : Bool} {d a b : SReg} {s : State} (hs : Keeps s0 s)
    : KeepsOut s0 (execSclAnd c eob d a b s) := by
  unfold execSclAnd
  try dsimp only
  repeat' first
    | with_reducible assumption | with_reducible apply keeps_issueSlot

theorem keeps_execSclOr {s0 : State} {c : CoreId} {eob : Bool} {d a b : SReg} {s : State} (hs : Keeps s0 s)
    : KeepsOut s0 (execSclOr c eob d a b s) := by
  unfold execSclOr
  try dsimp only
  repeat' first
    | with_reducible assumption | with_reducible apply keeps_issueSlot

theorem keeps_execSclXor {s0 : State} {c : CoreId} {eob : Bool} {d a b : SReg} {s : State} (hs : Keeps s0 s)
    : KeepsOut s0 (execSclXor c eob d a b s) := by
  unfold execSclXor
  try dsimp only
  repeat' first
    | with_reducible assumption | with_reducible apply keeps_issueSlot

theorem keeps_execMin {s0 : State} {c : CoreId} {eob : Bool} {d a b : SReg} {s : State} (hs : Keeps s0 s)
    : KeepsOut s0 (execMin c eob d a b s) := by
  unfold execMin
  try dsimp only
  repeat' first
    | with_reducible assumption | with_reducible apply keeps_issueSlot

theorem keeps_execMax {s0 : State} {c : CoreId} {eob : Bool} {d a b : SReg} {s : State} (hs : Keeps s0 s)
    : KeepsOut s0 (execMax c eob d a b s) := by
  unfold execMax
  try dsimp only
  repeat' first
    | with_reducible assumption | with_reducible apply keeps_issueSlot

theorem keeps_execSlt {s0 : State} {c : CoreId} {eob : Bool} {d a b : SReg} {s : State} (hs : Keeps s0 s)
    : KeepsOut s0 (execSlt c eob d a b s) := by
  unfold execSlt
  try dsimp only
  repeat' first
    | with_reducible assumption | with_reducible apply keeps_issueSlot

theorem keeps_execSclShl {s0 : State} {c : CoreId} {eob : Bool} {d a b : SReg} {s : State} (hs : Keeps s0 s)
    : KeepsOut s0 (execSclShl c eob d a b s) := by
  unfold execSclShl
  try dsimp only
  repeat' first
    | with_reducible assumption | with_reducible apply keeps_issueSlot

theorem keeps_execShr {s0 : State} {c : CoreId} {eob : Bool} {d a b : SReg} {s : State} (hs : Keeps s0 s)
    : KeepsOut s0 (execShr c eob d a b s) := by
  unfold execShr
  try dsimp only
  repeat' first
    | with_reducible assumption | with_reducible apply keeps_issueSlot

theorem keeps_execSclSra {s0 : State} {c : CoreId} {eob : Bool} {d a b : SReg} {s : State} (hs : Keeps s0 s)
    : KeepsOut s0 (execSclSra c eob d a b s) := by
  unfold execSclSra
  try dsimp only
  repeat' first
    | with_reducible assumption | with_reducible apply keeps_issueSlot

theorem keeps_execAddi {s0 : State} {c : CoreId} {eob : Bool} {d a : SReg} {imm : BitVec 16} {s : State} (hs : Keeps s0 s)
    : KeepsOut s0 (execAddi c eob d a imm s) := by
  unfold execAddi
  try dsimp only
  repeat' first
    | with_reducible assumption | with_reducible apply keeps_issueSlot

theorem keeps_execOri {s0 : State} {c : CoreId} {eob : Bool} {d a : SReg} {imm : BitVec 16} {s : State} (hs : Keeps s0 s)
    : KeepsOut s0 (execOri c eob d a imm s) := by
  unfold execOri
  try dsimp only
  repeat' first
    | with_reducible assumption | with_reducible apply keeps_issueSlot

theorem keeps_execShli {s0 : State} {c : CoreId} {eob : Bool} {d a : SReg} {imm : BitVec 16} {s : State} (hs : Keeps s0 s)
    : KeepsOut s0 (execShli c eob d a imm s) := by
  unfold execShli
  try dsimp only
  repeat' first
    | with_reducible assumption | with_reducible apply keeps_issueSlot

theorem keeps_execShri {s0 : State} {c : CoreId} {eob : Bool} {d a : SReg} {imm : BitVec 16} {s : State} (hs : Keeps s0 s)
    : KeepsOut s0 (execShri c eob d a imm s) := by
  unfold execShri
  try dsimp only
  repeat' first
    | with_reducible assumption | with_reducible apply keeps_issueSlot

theorem keeps_execMovi {s0 : State} {c : CoreId} {eob : Bool} {d : SReg} {imm : BitVec 21} {s : State} (hs : Keeps s0 s)
    : KeepsOut s0 (execMovi c eob d imm s) := by
  unfold execMovi
  try dsimp only
  repeat' first
    | with_reducible assumption | with_reducible apply keeps_issueSlot

theorem keeps_execAmov {s0 : State} {c : CoreId} {eob : Bool} {d : AReg} {r : SReg} {s : State} (hs : Keeps s0 s)
    : KeepsOut s0 (execAmov c eob d r s) := by
  unfold execAmov
  try dsimp only
  repeat' first
    | with_reducible assumption | with_reducible apply keeps_issueSlot

theorem keeps_execAadd {s0 : State} {c : CoreId} {eob : Bool} {d a : AReg} {r : SReg} {s : State} (hs : Keeps s0 s)
    : KeepsOut s0 (execAadd c eob d a r s) := by
  unfold execAadd
  try dsimp only
  repeat' first
    | with_reducible assumption | with_reducible apply keeps_issueSlot

theorem keeps_execAmovi {s0 : State} {c : CoreId} {eob : Bool} {d : AReg} {imm : BitVec 22} {s : State} (hs : Keeps s0 s)
    : KeepsOut s0 (execAmovi c eob d imm s) := by
  unfold execAmovi
  try dsimp only
  repeat' first
    | with_reducible assumption | with_reducible apply keeps_issueSlot

theorem keeps_execSmova {s0 : State} {c : CoreId} {eob : Bool} {d : SReg} {a : AReg} {s : State} (hs : Keeps s0 s)
    : KeepsOut s0 (execSmova c eob d a s) := by
  unfold execSmova
  try dsimp only
  repeat' first
    | with_reducible assumption | with_reducible apply keeps_issueSlot

theorem keeps_execRdlc {s0 : State} {c : CoreId} {eob : Bool} {d : SReg} {l : Fin 4} {s : State} (hs : Keeps s0 s)
    : KeepsOut s0 (execRdlc c eob d l s) := by
  unfold execRdlc
  try dsimp only
  repeat' first
    | with_reducible assumption | with_reducible apply keeps_issueSlot

theorem keeps_execSetzp {s0 : State} {c : CoreId} {eob : Bool} {r : SReg} {s : State} (hs : Keeps s0 s)
    : KeepsOut s0 (execSetzp c eob r s) := by
  unfold execSetzp
  try dsimp only
  repeat' first
    | with_reducible assumption | with_reducible apply keeps_issueSlot

theorem keeps_execSetos {s0 : State} {c : CoreId} {eob : Bool} {r : SReg} {s : State} (hs : Keeps s0 s)
    : KeepsOut s0 (execSetos c eob r s) := by
  unfold execSetos
  try dsimp only
  repeat' first
    | with_reducible assumption | with_reducible apply keeps_issueSlot

theorem keeps_execSetinc {s0 : State} {c : CoreId} {eob : Bool} {n : AReg} {l : Fin 4} {r : SReg} {s : State} (hs
    : Keeps s0 s) : KeepsOut s0 (execSetinc c eob n l r s) := by
  unfold execSetinc
  try dsimp only
  repeat' first
    | with_reducible assumption | with_reducible apply keeps_issueSlot

theorem keeps_execSetbind {s0 : State} {c : CoreId} {eob : Bool} {n : AReg} {mask : BitVec 4} {s : State} (hs : Keeps s0 s)
    : KeepsOut s0 (execSetbind c eob n mask s) := by
  unfold execSetbind
  try dsimp only
  repeat' first
    | with_reducible assumption | with_reducible apply keeps_issueSlot

/-! ### SlotSeq -/

theorem keeps_execLoop {s0 : State} {c : CoreId} {eob : Bool} {csrc : Bool} {len : BitVec 11} {cnt : BitVec 14} {s : State}
    (hs : Keeps s0 s) : KeepsOut s0 (execLoop c eob csrc len cnt s) := by
  unfold execLoop
  try dsimp only
  repeat' first
    | with_reducible assumption | with_reducible apply keeps_issueSlot

theorem keeps_execSkipz {s0 : State} {c : CoreId} {eob : Bool} {r : SReg} {n : BitVec 11} {s : State} (hs : Keeps s0 s)
    : KeepsOut s0 (execSkipz c eob r n s) := by
  unfold execSkipz
  try dsimp only
  repeat' first
    | with_reducible assumption | with_reducible apply keeps_issueSlot

theorem keeps_execSkipnz {s0 : State} {c : CoreId} {eob : Bool} {r : SReg} {n : BitVec 11} {s : State} (hs : Keeps s0 s)
    : KeepsOut s0 (execSkipnz c eob r n s) := by
  unfold execSkipnz
  try dsimp only
  repeat' first
    | with_reducible assumption | with_reducible apply keeps_issueSlot

theorem keeps_execExitn {s0 : State} {c : CoreId} {eob : Bool} {r : SReg} {s : State} (hs : Keeps s0 s)
    : KeepsOut s0 (execExitn c eob r s) := by
  unfold execExitn
  try dsimp only
  repeat' first
    | with_reducible assumption | with_reducible apply keeps_issueSlot

theorem keeps_execCall {s0 : State} {c : CoreId} {eob : Bool} {r : SReg} {id : BitVec 16} {s : State} (hs : Keeps s0 s)
    : KeepsOut s0 (execCall c eob r id s) := by
  unfold execCall
  try dsimp only
  repeat' first
    | with_reducible assumption | with_reducible apply keeps_issueSlot

theorem keeps_execRet {s0 : State} {c : CoreId} {eob : Bool} {s : State} (hs : Keeps s0 s) : KeepsOut s0 (execRet c eob s) := by
  unfold execRet
  try dsimp only
  repeat' first
    | with_reducible assumption | with_reducible apply keeps_issueSlot

theorem keeps_execWait {s0 : State} {c : CoreId} {eob : Bool} {mask : BitVec 14} {s : State} (hs : Keeps s0 s)
    : KeepsOut s0 (execWait c eob mask s) := by
  unfold execWait
  try dsimp only
  repeat' first
    | with_reducible assumption | with_reducible apply keeps_issueSlot

theorem keeps_execDelay {s0 : State} {c : CoreId} {eob : Bool} {n : BitVec 16} {s : State} (hs : Keeps s0 s)
    : KeepsOut s0 (execDelay c eob n s) := by
  unfold execDelay
  try dsimp only
  repeat' first
    | with_reducible assumption | with_reducible apply keeps_issueSlot

theorem keeps_execStrip {s0 : State} {c : CoreId} {eob : Bool} {d : SReg} {s : State} (hs : Keeps s0 s)
    : KeepsOut s0 (execStrip c eob d s) := by
  unfold execStrip
  try dsimp only
  repeat' first
    | with_reducible assumption | with_reducible apply keeps_issueSlot

theorem keeps_execSignal {s0 : State} {c : CoreId} {eob : Bool} {e : Fin 16} {s : State} (hs : Keeps s0 s)
    : KeepsOut s0 (execSignal c eob e s) := by
  unfold execSignal
  try dsimp only
  repeat' first
    | with_reducible assumption | with_reducible apply keeps_issueSlot

theorem keeps_execWaitev {s0 : State} {c : CoreId} {eob : Bool} {r : SReg} {e : Fin 16} {s : State} (hs : Keeps s0 s)
    : KeepsOut s0 (execWaitev c eob r e s) := by
  unfold execWaitev
  try dsimp only
  repeat' first
    | with_reducible assumption | with_reducible apply keeps_issueSlot

theorem keeps_execCommit {s0 : State} {c : CoreId} {eob : Bool} {s : State} (hs : Keeps s0 s)
    : KeepsOut s0 (execCommit c eob s) := by
  unfold execCommit
  try dsimp only
  repeat' first
    | with_reducible assumption | with_reducible apply keeps_issueSlot

theorem keeps_execHalt {s0 : State} {c : CoreId} {eob : Bool} {s : State} (hs : Keeps s0 s)
    : KeepsOut s0 (execHalt c eob s) := by
  unfold execHalt
  try dsimp only
  repeat' first
    | with_reducible assumption | with_reducible apply keeps_issueSlot

/-! ### SlotUnits -/

theorem keeps_execRows {s0 : State} {c : CoreId} {eob : Bool} {ad : Fin 8} {aB : AReg} {sQ sY sB : SReg} {s : State} (hs
    : Keeps s0 s) : KeepsOut s0 (execRows c eob ad aB sQ sY sB s) := by
  unfold execRows
  try dsimp only
  repeat' first
    | with_reducible assumption | with_reducible apply keeps_issueSlot

theorem keeps_execTap {s0 : State} {c : CoreId} {eob : Bool} {ad : Fin 8} {aB : AReg} {sP sY : SReg} {vD : VReg}
    {padMax : Bool} {s : State} (hs : Keeps s0 s) : KeepsOut s0 (execTap c eob ad aB sP sY vD padMax s) := by
  unfold execTap
  try dsimp only
  repeat' first
    | with_reducible assumption | with_reducible apply keeps_issueSlot

theorem keeps_execStld {s0 : State} {c : CoreId} {eob : Bool} {row : Fin 4} {a : AReg} {tag : BitVec 2} {sLen : SReg}
    {doff : BitVec 13} {s : State} (hs : Keeps s0 s) : KeepsOut s0 (execStld c eob row a tag sLen doff s) := by
  unfold execStld
  try dsimp only
  repeat' first
    | with_reducible assumption | with_reducible apply keeps_issueSlot

theorem keeps_execLoadw {s0 : State} {c : CoreId} {eob : Bool} {amask : BitVec 4} {bd : Fin 8} {a : AReg} {nr1 : Fin 32}
    {s : State} (hs : Keeps s0 s) : KeepsOut s0 (execLoadw c eob amask bd a nr1 s) := by
  unfold execLoadw
  try dsimp only
  repeat' first
    | with_reducible assumption | with_reducible apply keeps_issueSlot

theorem keeps_execMvstream {s0 : State} {c : CoreId} {eob : Bool} {bd : Fin 8} {a : AReg} {s : State} (hs : Keeps s0 s)
    : KeepsOut s0 (execMvstream c eob bd a s) := by
  unfold execMvstream
  try dsimp only
  repeat' first
    | with_reducible assumption | with_reducible apply keeps_issueSlot

theorem keeps_execImportTile {s0 : State} {c : CoreId} {eob : Bool} {amask : BitVec 4} {bd : Fin 8} {a : AReg}
    {sFirst sCount : SReg} {s : State} (hs : Keeps s0 s) : KeepsOut s0 (execImportTile c eob amask bd a sFirst sCount s) := by
  unfold execImportTile
  try dsimp only
  repeat' first
    | with_reducible assumption | with_reducible apply keeps_issueSlot

theorem keeps_execDmov {s0 : State} {c : CoreId} {eob : Bool} {t dd : Fin 8} {aN : AReg} {sF sL : SReg} {s : State} (hs
    : Keeps s0 s) : KeepsOut s0 (execDmov c eob t dd aN sF sL s) := by
  unfold execDmov
  try dsimp only
  repeat' first
    | with_reducible assumption | with_reducible apply keeps_issueSlot

theorem keeps_execDexp {s0 : State} {c : CoreId} {eob : Bool} {t dd : Fin 8} {sF sL : SReg} {s : State} (hs : Keeps s0 s)
    : KeepsOut s0 (execDexp c eob t dd sF sL s) := by
  unfold execDexp
  try dsimp only
  repeat' first
    | with_reducible assumption | with_reducible apply keeps_issueSlot

theorem keeps_execPass {s0 : State} {c : CoreId} {eob : Bool} {mt : Fin 8} {amask : BitVec 4} {sM sAcc : SReg}
    {init swap last : Bool} {s : State} (hs : Keeps s0 s) : KeepsOut s0 (execPass c eob mt amask sM sAcc init swap last s) := by
  unfold execPass
  try dsimp only
  repeat' first
    | with_reducible assumption | with_reducible apply keeps_issueSlot

theorem keeps_execReadOut {s0 : State} {c : CoreId} {eob : Bool} {mt : Fin 8} {amask : BitVec 4} {sFirst sCount : SReg}
    {s : State} (hs : Keeps s0 s) : KeepsOut s0 (execReadOut c eob mt amask sFirst sCount s) := by
  unfold execReadOut
  try dsimp only
  repeat' first
    | with_reducible assumption | with_reducible apply keeps_issueSlot

theorem keeps_execMvpass {s0 : State} {c : CoreId} {eob : Bool} {vt v1 : Fin 4} {init last : Bool} {sAcc sAoff : SReg}
    {s : State} (hs : Keeps s0 s) : KeepsOut s0 (execMvpass c eob vt v1 init last sAcc sAoff s) := by
  unfold execMvpass
  try dsimp only
  repeat' first
    | with_reducible assumption | with_reducible apply keeps_issueSlot

theorem keeps_execMvread {s0 : State} {c : CoreId} {eob : Bool} {vt v1 : Fin 4} {sAcc sN : SReg} {s : State} (hs : Keeps s0 s)
    : KeepsOut s0 (execMvread c eob vt v1 sAcc sN s) := by
  unfold execMvread
  try dsimp only
  repeat' first
    | with_reducible assumption | with_reducible apply keeps_issueSlot

/-! ### SlotVec -/

theorem keeps_execFadd {s0 : State} {c : CoreId} {eob : Bool} {d a b : VReg} {s : State} (hs : Keeps s0 s)
    : KeepsOut s0 (execFadd c eob d a b s) := by
  unfold execFadd
  try dsimp only
  repeat' first
    | with_reducible assumption | with_reducible apply keeps_issueSlot

theorem keeps_execFsub {s0 : State} {c : CoreId} {eob : Bool} {d a b : VReg} {s : State} (hs : Keeps s0 s)
    : KeepsOut s0 (execFsub c eob d a b s) := by
  unfold execFsub
  try dsimp only
  repeat' first
    | with_reducible assumption | with_reducible apply keeps_issueSlot

theorem keeps_execFmul {s0 : State} {c : CoreId} {eob : Bool} {d a b : VReg} {s : State} (hs : Keeps s0 s)
    : KeepsOut s0 (execFmul c eob d a b s) := by
  unfold execFmul
  try dsimp only
  repeat' first
    | with_reducible assumption | with_reducible apply keeps_issueSlot

theorem keeps_execFmad {s0 : State} {c : CoreId} {eob : Bool} {d a b x : VReg} {s : State} (hs : Keeps s0 s)
    : KeepsOut s0 (execFmad c eob d a b x s) := by
  unfold execFmad
  try dsimp only
  repeat' first
    | with_reducible assumption | with_reducible apply keeps_issueSlot

theorem keeps_execFmin {s0 : State} {c : CoreId} {eob : Bool} {d a b : VReg} {s : State} (hs : Keeps s0 s)
    : KeepsOut s0 (execFmin c eob d a b s) := by
  unfold execFmin
  try dsimp only
  repeat' first
    | with_reducible assumption | with_reducible apply keeps_issueSlot

theorem keeps_execFmax {s0 : State} {c : CoreId} {eob : Bool} {d a b : VReg} {s : State} (hs : Keeps s0 s)
    : KeepsOut s0 (execFmax c eob d a b s) := by
  unfold execFmax
  try dsimp only
  repeat' first
    | with_reducible assumption | with_reducible apply keeps_issueSlot

theorem keeps_execFabs {s0 : State} {c : CoreId} {eob : Bool} {d a : VReg} {s : State} (hs : Keeps s0 s)
    : KeepsOut s0 (execFabs c eob d a s) := by
  unfold execFabs
  try dsimp only
  repeat' first
    | with_reducible assumption | with_reducible apply keeps_issueSlot

theorem keeps_execFneg {s0 : State} {c : CoreId} {eob : Bool} {d a : VReg} {s : State} (hs : Keeps s0 s)
    : KeepsOut s0 (execFneg c eob d a s) := by
  unfold execFneg
  try dsimp only
  repeat' first
    | with_reducible assumption | with_reducible apply keeps_issueSlot

theorem keeps_execFcmplt {s0 : State} {c : CoreId} {eob : Bool} {d a b : VReg} {s : State} (hs : Keeps s0 s)
    : KeepsOut s0 (execFcmplt c eob d a b s) := by
  unfold execFcmplt
  try dsimp only
  repeat' first
    | with_reducible assumption | with_reducible apply keeps_issueSlot

theorem keeps_execFcmple {s0 : State} {c : CoreId} {eob : Bool} {d a b : VReg} {s : State} (hs : Keeps s0 s)
    : KeepsOut s0 (execFcmple c eob d a b s) := by
  unfold execFcmple
  try dsimp only
  repeat' first
    | with_reducible assumption | with_reducible apply keeps_issueSlot

theorem keeps_execFcmpeq {s0 : State} {c : CoreId} {eob : Bool} {d a b : VReg} {s : State} (hs : Keeps s0 s)
    : KeepsOut s0 (execFcmpeq c eob d a b s) := by
  unfold execFcmpeq
  try dsimp only
  repeat' first
    | with_reducible assumption | with_reducible apply keeps_issueSlot

theorem keeps_execSel {s0 : State} {c : CoreId} {eob : Bool} {d a b x : VReg} {s : State} (hs : Keeps s0 s)
    : KeepsOut s0 (execSel c eob d a b x s) := by
  unfold execSel
  try dsimp only
  repeat' first
    | with_reducible assumption | with_reducible apply keeps_issueSlot

theorem keeps_execIadd {s0 : State} {c : CoreId} {eob : Bool} {d a b : VReg} {s : State} (hs : Keeps s0 s)
    : KeepsOut s0 (execIadd c eob d a b s) := by
  unfold execIadd
  try dsimp only
  repeat' first
    | with_reducible assumption | with_reducible apply keeps_issueSlot

theorem keeps_execIsub {s0 : State} {c : CoreId} {eob : Bool} {d a b : VReg} {s : State} (hs : Keeps s0 s)
    : KeepsOut s0 (execIsub c eob d a b s) := by
  unfold execIsub
  try dsimp only
  repeat' first
    | with_reducible assumption | with_reducible apply keeps_issueSlot

theorem keeps_execImul {s0 : State} {c : CoreId} {eob : Bool} {d a b : VReg} {s : State} (hs : Keeps s0 s)
    : KeepsOut s0 (execImul c eob d a b s) := by
  unfold execImul
  try dsimp only
  repeat' first
    | with_reducible assumption | with_reducible apply keeps_issueSlot

theorem keeps_execImin {s0 : State} {c : CoreId} {eob : Bool} {d a b : VReg} {s : State} (hs : Keeps s0 s)
    : KeepsOut s0 (execImin c eob d a b s) := by
  unfold execImin
  try dsimp only
  repeat' first
    | with_reducible assumption | with_reducible apply keeps_issueSlot

theorem keeps_execImax {s0 : State} {c : CoreId} {eob : Bool} {d a b : VReg} {s : State} (hs : Keeps s0 s)
    : KeepsOut s0 (execImax c eob d a b s) := by
  unfold execImax
  try dsimp only
  repeat' first
    | with_reducible assumption | with_reducible apply keeps_issueSlot

theorem keeps_execIcmplt {s0 : State} {c : CoreId} {eob : Bool} {d a b : VReg} {s : State} (hs : Keeps s0 s)
    : KeepsOut s0 (execIcmplt c eob d a b s) := by
  unfold execIcmplt
  try dsimp only
  repeat' first
    | with_reducible assumption | with_reducible apply keeps_issueSlot

theorem keeps_execIcmpeq {s0 : State} {c : CoreId} {eob : Bool} {d a b : VReg} {s : State} (hs : Keeps s0 s)
    : KeepsOut s0 (execIcmpeq c eob d a b s) := by
  unfold execIcmpeq
  try dsimp only
  repeat' first
    | with_reducible assumption | with_reducible apply keeps_issueSlot

theorem keeps_execVecAnd {s0 : State} {c : CoreId} {eob : Bool} {d a b : VReg} {s : State} (hs : Keeps s0 s)
    : KeepsOut s0 (execVecAnd c eob d a b s) := by
  unfold execVecAnd
  try dsimp only
  repeat' first
    | with_reducible assumption | with_reducible apply keeps_issueSlot

theorem keeps_execVecOr {s0 : State} {c : CoreId} {eob : Bool} {d a b : VReg} {s : State} (hs : Keeps s0 s)
    : KeepsOut s0 (execVecOr c eob d a b s) := by
  unfold execVecOr
  try dsimp only
  repeat' first
    | with_reducible assumption | with_reducible apply keeps_issueSlot

theorem keeps_execVecXor {s0 : State} {c : CoreId} {eob : Bool} {d a b : VReg} {s : State} (hs : Keeps s0 s)
    : KeepsOut s0 (execVecXor c eob d a b s) := by
  unfold execVecXor
  try dsimp only
  repeat' first
    | with_reducible assumption | with_reducible apply keeps_issueSlot

theorem keeps_execVecShl {s0 : State} {c : CoreId} {eob : Bool} {d a : VReg} {sh : Fin 32} {s : State} (hs : Keeps s0 s)
    : KeepsOut s0 (execVecShl c eob d a sh s) := by
  unfold execVecShl
  try dsimp only
  repeat' first
    | with_reducible assumption | with_reducible apply keeps_issueSlot

theorem keeps_execVecSra {s0 : State} {c : CoreId} {eob : Bool} {d a : VReg} {sh : Fin 32} {s : State} (hs : Keeps s0 s)
    : KeepsOut s0 (execVecSra c eob d a sh s) := by
  unfold execVecSra
  try dsimp only
  repeat' first
    | with_reducible assumption | with_reducible apply keeps_issueSlot

theorem keeps_execCvtif {s0 : State} {c : CoreId} {eob : Bool} {d a : VReg} {s : State} (hs : Keeps s0 s)
    : KeepsOut s0 (execCvtif c eob d a s) := by
  unfold execCvtif
  try dsimp only
  repeat' first
    | with_reducible assumption | with_reducible apply keeps_issueSlot

theorem keeps_execCvtfi {s0 : State} {c : CoreId} {eob : Bool} {d a : VReg} {s : State} (hs : Keeps s0 s)
    : KeepsOut s0 (execCvtfi c eob d a s) := by
  unfold execCvtfi
  try dsimp only
  repeat' first
    | with_reducible assumption | with_reducible apply keeps_issueSlot

theorem keeps_execFrnd {s0 : State} {c : CoreId} {eob : Bool} {d a : VReg} {f : BitVec 4} {s : State} (hs : Keeps s0 s)
    : KeepsOut s0 (execFrnd c eob d a f s) := by
  unfold execFrnd
  try dsimp only
  repeat' first
    | with_reducible assumption | with_reducible apply keeps_issueSlot

theorem keeps_execFcexp {s0 : State} {c : CoreId} {eob : Bool} {d a : VReg} {s : State} (hs : Keeps s0 s)
    : KeepsOut s0 (execFcexp c eob d a s) := by
  unfold execFcexp
  try dsimp only
  repeat' first
    | with_reducible assumption | with_reducible apply keeps_issueSlot

theorem keeps_execFscalb {s0 : State} {c : CoreId} {eob : Bool} {d a b : VReg} {s : State} (hs : Keeps s0 s)
    : KeepsOut s0 (execFscalb c eob d a b s) := by
  unfold execFscalb
  try dsimp only
  repeat' first
    | with_reducible assumption | with_reducible apply keeps_issueSlot

theorem keeps_execVld {s0 : State} {c : CoreId} {eob : Bool} {v : VReg} {a : AReg} {tag : BitVec 2} {off : BitVec 11}
    {s : State} (hs : Keeps s0 s) : KeepsOut s0 (execVld c eob v a tag off s) := by
  unfold execVld
  try dsimp only
  repeat' first
    | with_reducible assumption | with_reducible apply keeps_issueSlot

theorem keeps_execVldw {s0 : State} {c : CoreId} {eob : Bool} {v : VReg} {a : AReg} {tag : BitVec 2} {f : BitVec 4}
    {off : BitVec 11} {s : State} (hs : Keeps s0 s) : KeepsOut s0 (execVldw c eob v a tag f off s) := by
  unfold execVldw
  try dsimp only
  repeat' first
    | with_reducible assumption | with_reducible apply keeps_issueSlot

theorem keeps_execVst {s0 : State} {c : CoreId} {eob : Bool} {v : VReg} {a : AReg} {tag : BitVec 2} {off : BitVec 11}
    {s : State} (hs : Keeps s0 s) : KeepsOut s0 (execVst c eob v a tag off s) := by
  unfold execVst
  try dsimp only
  repeat' first
    | with_reducible assumption | with_reducible apply keeps_issueSlot

theorem keeps_execVstn {s0 : State} {c : CoreId} {eob : Bool} {v : VReg} {a : AReg} {tag : BitVec 2} {f : BitVec 4}
    {off : BitVec 11} {s : State} (hs : Keeps s0 s) : KeepsOut s0 (execVstn c eob v a tag f off s) := by
  unfold execVstn
  try dsimp only
  repeat' first
    | with_reducible assumption | with_reducible apply keeps_issueSlot

theorem keeps_execSclw {s0 : State} {c : CoreId} {eob : Bool} {v : VReg} {a : AReg} {tag : BitVec 2} {n1 : Fin 64}
    {off : BitVec 9} {s : State} (hs : Keeps s0 s) : KeepsOut s0 (execSclw c eob v a tag n1 off s) := by
  unfold execSclw
  try dsimp only
  repeat' first
    | with_reducible assumption | with_reducible apply keeps_issueSlot

theorem keeps_execVbcs {s0 : State} {c : CoreId} {eob : Bool} {d : VReg} {r : SReg} {s : State} (hs : Keeps s0 s)
    : KeepsOut s0 (execVbcs c eob d r s) := by
  unfold execVbcs
  try dsimp only
  repeat' first
    | with_reducible assumption | with_reducible apply keeps_issueSlot

theorem keeps_execVext {s0 : State} {c : CoreId} {eob : Bool} {d : SReg} {v : VReg} {lane : Fin 64} {s : State} (hs
    : Keeps s0 s) : KeepsOut s0 (execVext c eob d v lane s) := by
  unfold execVext
  try dsimp only
  repeat' first
    | with_reducible assumption | with_reducible apply keeps_issueSlot

theorem keeps_execFrsum {s0 : State} {c : CoreId} {eob : Bool} {d a : VReg} {s : State} (hs : Keeps s0 s)
    : KeepsOut s0 (execFrsum c eob d a s) := by
  unfold execFrsum
  try dsimp only
  repeat' first
    | with_reducible assumption | with_reducible apply keeps_issueSlot

theorem keeps_execFrmax {s0 : State} {c : CoreId} {eob : Bool} {d a : VReg} {s : State} (hs : Keeps s0 s)
    : KeepsOut s0 (execFrmax c eob d a s) := by
  unfold execFrmax
  try dsimp only
  repeat' first
    | with_reducible assumption | with_reducible apply keeps_issueSlot

theorem keeps_execIrsum {s0 : State} {c : CoreId} {eob : Bool} {d a : VReg} {s : State} (hs : Keeps s0 s)
    : KeepsOut s0 (execIrsum c eob d a s) := by
  unfold execIrsum
  try dsimp only
  repeat' first
    | with_reducible assumption | with_reducible apply keeps_issueSlot

theorem keeps_execArgmax {s0 : State} {c : CoreId} {eob : Bool} {d a : VReg} {sN sBase : SReg} {hi idx dir int : Bool}
    {s : State} (hs : Keeps s0 s) : KeepsOut s0 (execArgmax c eob d a sN sBase hi idx dir int s) := by
  unfold execArgmax
  try dsimp only
  repeat' first
    | with_reducible assumption | with_reducible apply keeps_issueSlot

theorem keeps_execTopk {s0 : State} {c : CoreId} {eob : Bool} {d a : VReg} {sN sBase : SReg} {hi idx dir int : Bool}
    {s : State} (hs : Keeps s0 s) : KeepsOut s0 (execTopk c eob d a sN sBase hi idx dir int s) := by
  unfold execTopk
  try dsimp only
  repeat' first
    | with_reducible assumption | with_reducible apply keeps_issueSlot

theorem keeps_execCurve {s0 : State} {c : CoreId} {eob : Bool} {d a : VReg} {n : Fin 32} {s : State} (hs : Keeps s0 s)
    : KeepsOut s0 (execCurve c eob d a n s) := by
  unfold execCurve
  try dsimp only
  repeat' first
    | with_reducible assumption | with_reducible apply keeps_issueSlot

end Sys2Proof.Machine
end

