-- ==== Sys2Proof/Laws/Mailbox.lean ====
section
/-!
SUPPORT. The mailbox: what a command of a dictionary entry does when the stewards serve it at once.
-/
namespace Sys2Proof.Machine
open Sys2Proof.Safety

/-- The control port while a request is served (R428). -/
def busyCtl (c : CtlSt) (r : PdReq) : CtlSt :=
  { c with
      pdAddr := BitVec.ofNat 32 (r.sub % 256 + r.index % 65536 * 2 ^ 8 + r.engine % 8 * 2 ^ 24 + b2n r.remote * 2 ^ 27),
      pdLen := BitVec.ofNat 32 (r.len % 512 + r.offset % 65536 * 2 ^ 16),
      pdData := if r.write then overwrite c.pdData 0 (r.data.take 256) else c.pdData,
      pdCtrl := BitVec.ofNat 32 ((if r.write then 2 else 1) + 4 * b2n r.async),
      pdState := .busy, overrun := false, abort := 0, rlen := 0, latched := some r }
/-- The control port after a WRITE that its handler answered with no bytes (R429, R432). -/
def endCtl (c : CtlSt) (r : PdReq) : CtlSt :=
  { busyCtl c r with
      transactions := c.transactions + 1, latched := none, pdState := .done, abort := 0, rlen := 0,
      irqStatus := if r.async then c.irqStatus ||| 0x20 else c.irqStatus }

/-- A command to a free mailbox is served at once. -/
theorem pdCommand_eq (s : State) (r : PdReq) (h : State → Served) (hm : MailboxFree s) :
    s.pdCommand r h = .next (State.pdRun { s with ctl := busyCtl s.ctl r } r h) := by
  obtain ⟨h1, h2, h3, h4, h5⟩ := hm
  have e1 : ∀ k, State.awake { s with ctl := k } = true := fun k => h3
  simp only [State.pdCommand, State.pdBegin, h1, Bool.false_eq_true, if_false, State.pdRegs, h4, State.pdStart, e1, Bool.not_true, Bool.and_false]
  simp only [busyCtl, h1]

/-- Serving stewards are booted and not in Midwinter. -/
theorem not_midwinter {s : State} (h2 : s.serving = true) : s.inMidwinter = false ∧ s.booted = true := by
  revert h2; unfold State.serving State.booted State.inMidwinter; cases s.start.state <;> simp

/-- A WRITE to a free mailbox whose handler succeeds and leaves `t`, whatever the control port holds, ends DONE. -/
theorem ends_done (s : State) (r : PdReq) (h : State → Served) (async : Bool) (t : State) (hm : MailboxFree s)
    (hw2 : r.write = true) (hr0 : r.async = async) (hc : t.ctl = s.ctl)
    (hh : ∀ k, h { s with ctl := k } = .ok ({ t with ctl := k }, [])) :
    ∃ k, Finished t.ctl k async ∧ s.pdCommand r h = .next { t with ctl := k } := by
  subst hr0
  refine ⟨endCtl s.ctl r, ?_, ?_⟩
  · rw [hc]
    exact ⟨⟨rfl, rfl, rfl, rfl, rfl, rfl, rfl, rfl, rfl, rfl, rfl⟩, rfl, rfl, rfl, rfl, rfl, rfl⟩
  · rw [pdCommand_eq s r h hm]
    obtain ⟨h1, h2, h3, h4, h5⟩ := hm
    obtain ⟨hw, hb⟩ := not_midwinter h2
    unfold State.pdRun State.pdServe
    have e3 : State.inMidwinter { s with ctl := busyCtl s.ctl r } = false := hw
    have e4 : State.booted { s with ctl := busyCtl s.ctl r } = true := hb
    have e6 : ∀ b : Bool, ¬ (b = true ∧ (!b) = true) := by decide
    rw [e3, hh, e4]
    simp only [Bool.false_and, Bool.false_eq_true, if_false, if_true, e6]
    unfold State.pdEnd State.pdCount
    cases hr : r.async
    · simp only [Bool.false_eq_true, if_false]
      have e5 : (busyCtl s.ctl r).attachWaits = [] := h5
      simp only [e5, endCtl, hw2, hr, if_true, Bool.false_eq_true, if_false]; rfl
    · simp only [if_true, State.irq]
      have e5 : (busyCtl s.ctl r).attachWaits = [] := h5
      simp only [e5, endCtl, hw2, hr, if_true]; rfl


end Sys2Proof.Machine
end

