-- ==== Sys2Proof/Laws/Ops.lean ====
section
/-!
SUPPORT. What the shared operations leave: the first bundle of a run, passes, the frequency limit, Spring and the clock.
-/
namespace Sys2Proof.Machine
open Sys2Proof.Safety

@[simp] theorem core_firstBundle (s : State) (p : PartId) (x : StepRec) (d : CoreId) : (s.firstBundle p x).core d = s.core d := by
  unfold State.firstBundle; repeat' split
  all_goals rfl

/-- The cores of every run are those of before. -/
theorem runCores_firstBundle (s : State) (p q : PartId) (x : StepRec) :
    ((s.firstBundle p x).part q).run.map (·.cores) = (s.part q).run.map (·.cores) := by
  unfold State.firstBundle
  split
  · rfl
  · rename_i r hr
    split
    · rfl
    · have : ((s.modPart p (fun y => { y with run := some { r with firstIssue := true } })).part q).run.map (·.cores) = (s.part q).run.map (·.cores) := by
        by_cases h : q = p
        · subst h; simp [hr]
        · rw [part_modPart_ne _ _ _ _ h]
      split
      · exact this
      · exact this

/-- `find?` by equal tests. -/
theorem find_congr {α : Type} (f g : α → Bool) (h : ∀ a, f a = g a) (l : List α) : l.find? f = l.find? g := by
  have : f = g := funext h
  rw [this]

@[simp] theorem runOf_firstBundle (s : State) (p : PartId) (x : StepRec) (d : CoreId) :
    (s.firstBundle p x).runOf d = s.runOf d := by
  unfold State.runOf
  apply find_congr
  intro q
  have h := runCores_firstBundle s p q x
  revert h
  cases ((s.firstBundle p x).part q).run <;> cases (s.part q).run <;> simp
  intro h; rw [h]

/-- With no pass queued nothing starts (R208). -/
theorem settleAga_none (s : State) (c : CoreId) (h : (s.core c).passQ = []) : s.settleAga c = s := by
  simp [State.settleAga, State.startPasses, h]

/-- A lone engine whose limit is in force changes nothing when it judges it again (R368). -/
theorem relimit_alone {s : State} (h : Alone s) : s.relimit = s := by
  obtain ⟨h1, h2, h3⟩ := h
  unfold State.relimit
  simp only [h1, Bool.false_eq_true, if_false, ← h2]
  unfold State.orderP
  simp [h3, State.limit]

/-- Spring with nothing held changes nothing (R363). -/
theorem spring_alone {s : State} (h : Alone s) (n : NothingWaits s) : s.springBegins = s := by
  obtain ⟨n1, n2, n3, n4⟩ := n
  unfold State.springBegins
  split
  · rw [relimit_alone h]
    have e0 : s.oldAlert = s := by
      unfold State.oldAlert
      cases ha : s.power.alertLow <;> simp
      intro hl
      rw [n4 ha] at hl
      cases hl
    have e1 : s.ringHeld = s := by unfold State.ringHeld; simp [n1]; rw [← n1]
    have e2 : s.refuseHeld = s := by unfold State.refuseHeld; simp [n2]; rw [← n2]
    rw [e0, e1, e2]
    unfold State.serveLatched
    split
    · rename_i a b c; exact absurd a n3
    · rfl
  · rfl

/-- A 64-bit count that does not wrap. -/
theorem bump_nat (x : DWord) (n : Nat) (h : x.toNat + n < 2 ^ 64) : (bump x n).toNat = x.toNat + n := by
  unfold bump
  rw [BitVec.toNat_add, BitVec.toNat_ofNat]
  omega

/-- What brings a checker up to its lead changes cores alone (R385). -/
theorem followRun_cores (s : State) : ∃ ks, s.followRun = { s with cores := ks } := by
  have h : ∀ (l : List PairSt) (s : State), ∃ ks, (l.foldl (fun (s : State) x => match x.lead, x.checker with
      | some l, some k => if s.fault.pairs.toList.any (fun y => decide (y.lead = some k)) then s else s.modCore (coreAt 0 k) (fun y => y.behind (s.core (coreAt 0 l)))
      | _, _ => s) s) = { s with cores := ks } := by
    intro l
    induction l with
    | nil => exact fun s => ⟨s.cores, rfl⟩
    | cons a l ih =>
      intro s
      simp only [List.foldl_cons]
      split
      · split
        · exact ih s
        · obtain ⟨ks, e⟩ := ih (s.modCore (coreAt 0 _) (fun y => y.behind (s.core (coreAt 0 _))))
          exact ⟨ks, e⟩
      · exact ih s
  unfold State.followRun
  split
  · split
    · exact h _ s
    · exact ⟨s.cores, rfl⟩
  · exact ⟨s.cores, rfl⟩

/-- What passing CCLK cycles change: the cores' and the runs' counts, and the checkers. -/
theorem passCclk_only (s : State) (n : Nat) : ∃ ks ps, s.passCclk n = { s with cores := ks, parts := ps } := by
  unfold State.passCclk
  dsimp only
  obtain ⟨ks, e⟩ := followRun_cores { s with
    cores := s.cores.map (fun (k : Core) => k.passCclk n)
    parts := s.parts.map (fun (p : Partition) => { p with run := p.run.map (fun (r : RunSt) => r.passCclk n) }) }
  exact ⟨ks, _, e⟩

@[simp] theorem passCclk_ctl (s : State) (n : Nat) : (s.passCclk n).ctl = s.ctl := by
  obtain ⟨ks, ps, e⟩ := passCclk_only s n
  rw [e]

@[simp] theorem passCclk_power (s : State) (n : Nat) : (s.passCclk n).power = s.power := by
  obtain ⟨ks, ps, e⟩ := passCclk_only s n
  rw [e]

/-- A clock edge leaves the control port (R357), but for an invalidation that its walks held (R314). -/
theorem tick_ctl (s : State) : s.tick.ctl = s.ctl := by
  unfold State.tick
  split
  · simp [State.aonEdge, State.modPower]
  · split
    · rfl
    · unfold State.refEdge
      dsimp only
      split
      · rfl
      · simp [State.modPower]

/-- With no invalidation waiting an edge is a tick alone. -/
theorem edge_tick (s : State) (h : s.ctl.waitWalks = false) : clockEdge s = s.tick := by
  unfold clockEdge State.finishInvalidate
  rw [tick_ctl, h]
  rfl

/-- Winter lowers no supply. -/
theorem lower_same (p : PowerSt) (h : p.season = .winter) : p.lowerOne = p := by
  unfold PowerSt.lowerOne; simp [h]

/-- One AON edge in Winter (R356): 488 ns and 9/32 ns. -/
theorem aon_winter (s : State) (h1 : s.power.season = .winter) (h2 : s.power.onAon = true) (h3 : s.power.pllLocked = false) :
    s.tick.power = { s.power with timebase := bump s.power.timebase (488 + (s.power.aonFrac + 9) / 32), aonFrac := (s.power.aonFrac + 9) % 32 } := by
  unfold State.tick
  simp only [h2, if_true, State.aonEdge, State.modPower, lower_same _ h1, h3, passCclk_power]
  simp

/-! ### CORE_MAP and ARRAY_MAP -/

/-- A sum of distinct powers of two below 2 ^ n. -/
theorem sumBits_lt (ok : Nat → Bool) : ∀ n, (List.range n).foldl (fun m k => if ok k then m + 2 ^ k else m) 0 < 2 ^ n
  | 0 => by simp
  | n + 1 => by
    have h := sumBits_lt ok n
    rw [List.range_succ, List.foldl_append]
    simp only [List.foldl_cons, List.foldl_nil]
    split <;> omega

/-- Its bit i says whether power i is in it. -/
theorem sumBits_testBit (ok : Nat → Bool) (i : Nat) : ∀ n,
    ((List.range n).foldl (fun m k => if ok k then m + 2 ^ k else m) 0).testBit i = (decide (i < n) && ok i)
  | 0 => by simp
  | n + 1 => by
    have h := sumBits_testBit ok i n
    have l := sumBits_lt ok n
    rw [List.range_succ, List.foldl_append]
    simp only [List.foldl_cons, List.foldl_nil]
    generalize (List.range n).foldl (fun m k => if ok k then m + 2 ^ k else m) 0 = m at h l
    by_cases e : i = n
    · subst e
      cases k : ok i
      · simp [h]
      · simp [Nat.add_comm m, Nat.testBit_two_pow_add_eq, h]
    · by_cases g : i < n
      · have g' : i < n + 1 := by omega
        split
        · rw [Nat.add_comm, Nat.testBit_two_pow_add_gt g, h, decide_eq_true g, decide_eq_true g']
        · rw [h, decide_eq_true g, decide_eq_true g']
      · have g' : ¬ i < n + 1 := by omega
        have b : (if ok n = true then m + 2 ^ n else m) < 2 ^ (n + 1) := by split <;> omega
        rw [Nat.testBit_lt_two_pow (Nat.lt_of_lt_of_le b (Nat.pow_le_pow_right (by omega) (by omega)))]
        simp [g']

/-- Bit n of CORE_MAP as a start forms it (R13, R397). -/
theorem mapsOf_core (s : State) (n : Nat) (h : n < 20) : s.mapsOf.1.getLsbD n = s.coreOk n := by
  simp only [State.mapsOf, BitVec.getLsbD_ofNat, sumBits_testBit, h, decide_true, Bool.true_and]

/-- Bit n of ARRAY_MAP as a start forms it (R9, R397). -/
theorem mapsOf_array (s : State) (n : Nat) (h : n < 64) : s.mapsOf.2.getLsbD n = s.arrayOk n := by
  simp only [State.mapsOf, BitVec.getLsbD_ofNat, sumBits_testBit, h, decide_true, Bool.true_and]

end Sys2Proof.Machine
end

