-- ==== Sys2Proof/Laws/PerInstr.lean ====
section
/-!
SUPPORT. Per-command lemmas of family Shape: a slot command's slot is the one of Table 8-1 that its row belongs to.
-/
namespace Sys2Proof.Laws.Shape

/-- The slot number of Table 8-1 of a row, by the order of the rows in the syntax; 8 for commands that are no slot. -/
def rowSlot (i : Instr) : Nat :=
  match i with
  | .loop _ _ _ _ _ => 0
  | .skipz _ _ _ _ => 0
  | .skipnz _ _ _ _ => 0
  | .exitn _ _ _ => 0
  | .call _ _ _ _ => 0
  | .ret _ _ => 0
  | .wait _ _ _ => 0
  | .delay _ _ _ => 0
  | .strip _ _ _ => 0
  | .signal _ _ _ => 0
  | .signalTakesEffect _ => 8
  | .waitev _ _ _ _ => 0
  | .commit _ _ => 0
  | .halt _ _ => 0
  | .bundleIssueHoldRelease _ => 8
  | .rows _ _ _ _ _ _ _ => 1
  | .tap _ _ _ _ _ _ _ _ => 1
  | .stld _ _ _ _ _ _ _ => 1
  | .loadw _ _ _ _ _ _ => 2
  | .mvstream _ _ _ _ => 2
  | .importTile _ _ _ _ _ _ _ => 2
  | .dmov _ _ _ _ _ _ _ => 3
  | .dexp _ _ _ _ _ _ => 3
  | .dmaCommandEnd _ _ => 8
  | .pass _ _ _ _ _ _ _ _ _ => 4
  | .passResultLanded _ => 8
  | .readOut _ _ _ _ _ _ => 4
  | .mvpass _ _ _ _ _ _ _ _ => 5
  | .mvread _ _ _ _ _ _ => 5
  | .fadd _ _ _ _ _ => 6
  | .fsub _ _ _ _ _ => 6
  | .fmul _ _ _ _ _ => 6
  | .fmad _ _ _ _ _ _ => 6
  | .fmin _ _ _ _ _ => 6
  | .fmax _ _ _ _ _ => 6
  | .fabs _ _ _ _ => 6
  | .fneg _ _ _ _ => 6
  | .fcmplt _ _ _ _ _ => 6
  | .fcmple _ _ _ _ _ => 6
  | .fcmpeq _ _ _ _ _ => 6
  | .sel _ _ _ _ _ _ => 6
  | .iadd _ _ _ _ _ => 6
  | .isub _ _ _ _ _ => 6
  | .imul _ _ _ _ _ => 6
  | .imin _ _ _ _ _ => 6
  | .imax _ _ _ _ _ => 6
  | .icmplt _ _ _ _ _ => 6
  | .icmpeq _ _ _ _ _ => 6
  | .vecAnd _ _ _ _ _ => 6
  | .vecOr _ _ _ _ _ => 6
  | .vecXor _ _ _ _ _ => 6
  | .vecShl _ _ _ _ _ => 6
  | .vecSra _ _ _ _ _ => 6
  | .cvtif _ _ _ _ => 6
  | .cvtfi _ _ _ _ => 6
  | .frnd _ _ _ _ _ => 6
  | .fcexp _ _ _ _ => 6
  | .fscalb _ _ _ _ _ => 6
  | .vld _ _ _ _ _ _ => 6
  | .vldw _ _ _ _ _ _ _ => 6
  | .vst _ _ _ _ _ _ => 6
  | .vstn _ _ _ _ _ _ _ => 6
  | .sclw _ _ _ _ _ _ _ => 6
  | .vbcs _ _ _ _ => 6
  | .vext _ _ _ _ _ => 6
  | .frsum _ _ _ _ => 6
  | .frmax _ _ _ _ => 6
  | .irsum _ _ _ _ => 6
  | .argmax _ _ _ _ _ _ _ _ _ _ => 6
  | .topk _ _ _ _ _ _ _ _ _ _ => 6
  | .curve _ _ _ _ _ => 6
  | .add _ _ _ _ _ => 7
  | .sub _ _ _ _ _ => 7
  | .mul _ _ _ _ _ => 7
  | .sclAnd _ _ _ _ _ => 7
  | .sclOr _ _ _ _ _ => 7
  | .sclXor _ _ _ _ _ => 7
  | .min _ _ _ _ _ => 7
  | .max _ _ _ _ _ => 7
  | .slt _ _ _ _ _ => 7
  | .sclShl _ _ _ _ _ => 7
  | .shr _ _ _ _ _ => 7
  | .sclSra _ _ _ _ _ => 7
  | .addi _ _ _ _ _ => 7
  | .ori _ _ _ _ _ => 7
  | .shli _ _ _ _ _ => 7
  | .shri _ _ _ _ _ => 7
  | .movi _ _ _ _ => 7
  | .amov _ _ _ _ => 7
  | .aadd _ _ _ _ _ => 7
  | .amovi _ _ _ _ => 7
  | .smova _ _ _ _ => 7
  | .rdlc _ _ _ _ => 7
  | .setzp _ _ _ => 7
  | .setos _ _ _ => 7
  | .setinc _ _ _ _ _ => 7
  | .setbind _ _ _ _ => 7
  | .tagWaitRelease _ _ => 8
  | .scrubBeat _ _ _ => 8
  | .sequencerWatchdogExpiry _ => 8
  | .wcetOverrun => 8
  | .doorbell _ _ => 8
  | .descriptorFetch _ _ => 8
  | .accept _ => 8
  | .dispatch _ => 8
  | .tokenTaken _ => 8
  | .sealedTimeout _ => 8
  | .timeSlicePreemption _ => 8
  | .runDrained _ => 8
  | .rtDoorbell _ => 8
  | .rtStepStart => 8
  | .enableWrite _ _ _ => 8
  | .kill _ _ _ => 8
  | .fetchWrite _ _ _ => 8
  | .coreMaskWrite _ _ _ => 8
  | .windowRecordWrite _ _ _ _ => 8
  | .load _ _ _ => 8
  | .imageLoadDone _ _ => 8
  | .arm _ _ => 8
  | .armComplete => 8
  | .disarm _ => 8
  | .disarmComplete => 8
  | .rtArm _ => 8
  | .slotWrite _ _ _ => 8
  | .sessionClear _ _ => 8
  | .codebookPendingWrite _ _ _ => 8
  | .codebookSwitch _ _ => 8
  | .curveSwitch _ _ => 8
  | .qpolicySwitch _ _ => 8
  | .directorySwitch _ _ => 8
  | .pendingVersion _ _ => 8
  | .residentLoadDone _ _ => 8
  | .equinox _ _ => 8
  | .deleteSet _ _ => 8
  | .cwordWrite _ _ _ => 8
  | .windowStartWrite _ _ => 8
  | .rootWrite _ _ _ => 8
  | .invalidate _ _ _ => 8
  | .rtPin _ _ _ _ => 8
  | .pageWalkReadReturn _ _ _ _ => 8
  | .portReadData _ _ _ _ => 8
  | .portWriteAck _ _ => 8
  | .portFlushDone _ _ => 8
  | .portErrorResponse _ _ _ => 8
  | .portTimeout _ _ => 8
  | .linkUpFall _ => 8
  | .linkUpRise _ => 8
  | .settlingExpiry _ => 8
  | .resume _ _ _ => 8
  | .attach _ => 8
  | .linkGroupReceived _ _ => 8
  | .linkReplay _ => 8
  | .idleGroup _ => 8
  | .linkFailed _ => 8
  | .phyUpChange _ _ => 8
  | .linkWrite _ => 8
  | .linkRead _ => 8
  | .linkFlush _ => 8
  | .chain _ => 8
  | .rdata _ => 8
  | .flushDone _ => 8
  | .hello _ => 8
  | .helloTimer => 8
  | .pstate _ => 8
  | .pstateOrderInstant => 8
  | .pdmsg _ => 8
  | .event _ => 8
  | .relayTimeout => 8
  | .inboundWindowWrite _ _ _ => 8
  | .peerEventsClear _ _ => 8
  | .idleTimeoutExpiry => 8
  | .winterEntry => 8
  | .drainLimitExpiry => 8
  | .wakeEvent _ => 8
  | .wakeAtExpiry => 8
  | .thawComplete _ => 8
  | .thawReloadRetry _ => 8
  | .thawReloadAbandon => 8
  | .routineStoreReload _ => 8
  | .pwrAckRise _ => 8
  | .pwrAckLoss _ => 8
  | .pstAckRise => 8
  | .pstAckTimeout => 8
  | .glideEnd => 8
  | .droopDetect _ _ => 8
  | .alertNFall => 8
  | .alertHoldExpiry => 8
  | .estimatorPeriod _ => 8
  | .tlmSample _ => 8
  | .calPeriodEnd => 8
  | .thermalSample _ => 8
  | .thermalRestExpiry => 8
  | .lockstepMismatch _ => 8
  | .failover _ _ _ => 8
  | .periodicSelftest _ _ _ => 8
  | .stewardHeartbeatMiss _ => 8
  | .stewardRejoin _ => 8
  | .stripRateWindowEnd _ => 8
  | .agingMonitorRead _ _ => 8
  | .interconnectParityError _ => 8
  | .start => 8
  | .startPhaseDone _ => 8
  | .startFail _ _ => 8
  | .readyTimeout => 8
  | .probationEnd => 8
  | .stewardWatchdogFire => 8
  | .mwStep _ _ _ _ => 8
  | .mwSelftest _ _ _ _ => 8
  | .slotRecordWrite _ _ _ _ => 8
  | .fwUpdate _ _ _ => 8
  | .updateRollback _ _ => 8
  | .libraryLoad _ _ => 8
  | .calSwitch _ _ => 8
  | .coreService _ _ => 8
  | .pdRead _ _ _ _ _ _ _ => 8
  | .pdWrite _ _ _ _ _ _ _ _ => 8
  | .irqClear _ => 8
  | .timeLoRead => 8
  | .ctlRegisterWrite _ _ _ => 8
  | .aonReset _ _ _ _ => 8
  | .fuseValidRise _ _ _ => 8
  | .pclkReset => 8
  | .mvpPassLanded _ => 8
  | .weightLoadEnd _ => 8
  | .readoutLanded _ => 8
  | .vectorOperationLanded _ => 8
  | .deepScratchWriteLanded _ => 8
  | .tapLoadLanded _ => 8
  | .ageLimitElapsed _ => 8
  | .pllLock => 8
  | .pwrAckFall _ => 8
  | .libraryLoadDone _ => 8
  | .coreServiceTestDone _ => 8
  | .pclkResetRelease => 8
  | .wrapperInstructionUpdate _ => 8
  | .wrapperReset => 8
  | .segmentInsertionUpdate _ _ => 8
  | .networkReset => 8

/-- The slot of a command has the number of its row, and a command that is no slot has none. -/
def Statement (i : Instr) : Prop := ((i.slotOp).map (fun x => x.2.2.slot)).getD 8 = rowSlot i

theorem loop (c : CoreId) (eob : Bool) (csrc : Bool) (len : BitVec 11) (cnt : BitVec 14) : Statement (.loop c eob csrc len cnt) := rfl
theorem skipz (c : CoreId) (eob : Bool) (s : SReg) (n : BitVec 11) : Statement (.skipz c eob s n) := rfl
theorem skipnz (c : CoreId) (eob : Bool) (s : SReg) (n : BitVec 11) : Statement (.skipnz c eob s n) := rfl
theorem exitn (c : CoreId) (eob : Bool) (s : SReg) : Statement (.exitn c eob s) := rfl
theorem call (c : CoreId) (eob : Bool) (s : SReg) (id : BitVec 16) : Statement (.call c eob s id) := rfl
theorem ret (c : CoreId) (eob : Bool) : Statement (.ret c eob) := rfl
theorem wait (c : CoreId) (eob : Bool) (mask : BitVec 14) : Statement (.wait c eob mask) := rfl
theorem delay (c : CoreId) (eob : Bool) (n : BitVec 16) : Statement (.delay c eob n) := rfl
theorem strip (c : CoreId) (eob : Bool) (d : SReg) : Statement (.strip c eob d) := rfl
theorem signal (c : CoreId) (eob : Bool) (e : Fin 16) : Statement (.signal c eob e) := rfl
theorem signalTakesEffect (c : CoreId) : Statement (.signalTakesEffect c) := rfl
theorem waitev (c : CoreId) (eob : Bool) (s : SReg) (e : Fin 16) : Statement (.waitev c eob s e) := rfl
theorem commit (c : CoreId) (eob : Bool) : Statement (.commit c eob) := rfl
theorem halt (c : CoreId) (eob : Bool) : Statement (.halt c eob) := rfl
theorem bundleIssueHoldRelease (c : CoreId) : Statement (.bundleIssueHoldRelease c) := rfl
theorem rows (c : CoreId) (eob : Bool) (ad : Fin 8) (aB : AReg) (sQ sY sB : SReg) : Statement (.rows c eob ad aB sQ sY sB) := rfl
theorem tap (c : CoreId) (eob : Bool) (ad : Fin 8) (aB : AReg) (sP sY : SReg) (vD : VReg) (padMax : Bool) : Statement (.tap c eob ad aB sP sY vD padMax) := rfl
theorem stld (c : CoreId) (eob : Bool) (row : Fin 4) (a : AReg) (tag : BitVec 2) (sLen : SReg) (doff : BitVec 13) : Statement (.stld c eob row a tag sLen doff) := rfl
theorem loadw (c : CoreId) (eob : Bool) (amask : BitVec 4) (bd : Fin 8) (a : AReg) (nr1 : Fin 32) : Statement (.loadw c eob amask bd a nr1) := rfl
theorem mvstream (c : CoreId) (eob : Bool) (bd : Fin 8) (a : AReg) : Statement (.mvstream c eob bd a) := rfl
theorem importTile (c : CoreId) (eob : Bool) (amask : BitVec 4) (bd : Fin 8) (a : AReg) (sFirst sCount : SReg) : Statement (.importTile c eob amask bd a sFirst sCount) := rfl
theorem dmov (c : CoreId) (eob : Bool) (t dd : Fin 8) (aN : AReg) (sF sL : SReg) : Statement (.dmov c eob t dd aN sF sL) := rfl
theorem dexp (c : CoreId) (eob : Bool) (t dd : Fin 8) (sF sL : SReg) : Statement (.dexp c eob t dd sF sL) := rfl
theorem dmaCommandEnd (c : CoreId) (t : Fin 8) : Statement (.dmaCommandEnd c t) := rfl
theorem pass (c : CoreId) (eob : Bool) (mt : Fin 8) (amask : BitVec 4) (sM sAcc : SReg) (init swap last : Bool) : Statement (.pass c eob mt amask sM sAcc init swap last) := rfl
theorem passResultLanded (c : CoreId) : Statement (.passResultLanded c) := rfl
theorem readOut (c : CoreId) (eob : Bool) (mt : Fin 8) (amask : BitVec 4) (sFirst sCount : SReg) : Statement (.readOut c eob mt amask sFirst sCount) := rfl
theorem mvpass (c : CoreId) (eob : Bool) (vt v1 : Fin 4) (init last : Bool) (sAcc sAoff : SReg) : Statement (.mvpass c eob vt v1 init last sAcc sAoff) := rfl
theorem mvread (c : CoreId) (eob : Bool) (vt v1 : Fin 4) (sAcc sN : SReg) : Statement (.mvread c eob vt v1 sAcc sN) := rfl
theorem fadd (c : CoreId) (eob : Bool) (d a b : VReg) : Statement (.fadd c eob d a b) := rfl
theorem fsub (c : CoreId) (eob : Bool) (d a b : VReg) : Statement (.fsub c eob d a b) := rfl
theorem fmul (c : CoreId) (eob : Bool) (d a b : VReg) : Statement (.fmul c eob d a b) := rfl
theorem fmad (c : CoreId) (eob : Bool) (d a b x : VReg) : Statement (.fmad c eob d a b x) := rfl
theorem fmin (c : CoreId) (eob : Bool) (d a b : VReg) : Statement (.fmin c eob d a b) := rfl
theorem fmax (c : CoreId) (eob : Bool) (d a b : VReg) : Statement (.fmax c eob d a b) := rfl
theorem fabs (c : CoreId) (eob : Bool) (d a : VReg) : Statement (.fabs c eob d a) := rfl
theorem fneg (c : CoreId) (eob : Bool) (d a : VReg) : Statement (.fneg c eob d a) := rfl
theorem fcmplt (c : CoreId) (eob : Bool) (d a b : VReg) : Statement (.fcmplt c eob d a b) := rfl
theorem fcmple (c : CoreId) (eob : Bool) (d a b : VReg) : Statement (.fcmple c eob d a b) := rfl
theorem fcmpeq (c : CoreId) (eob : Bool) (d a b : VReg) : Statement (.fcmpeq c eob d a b) := rfl
theorem sel (c : CoreId) (eob : Bool) (d a b x : VReg) : Statement (.sel c eob d a b x) := rfl
theorem iadd (c : CoreId) (eob : Bool) (d a b : VReg) : Statement (.iadd c eob d a b) := rfl
theorem isub (c : CoreId) (eob : Bool) (d a b : VReg) : Statement (.isub c eob d a b) := rfl
theorem imul (c : CoreId) (eob : Bool) (d a b : VReg) : Statement (.imul c eob d a b) := rfl
theorem imin (c : CoreId) (eob : Bool) (d a b : VReg) : Statement (.imin c eob d a b) := rfl
theorem imax (c : CoreId) (eob : Bool) (d a b : VReg) : Statement (.imax c eob d a b) := rfl
theorem icmplt (c : CoreId) (eob : Bool) (d a b : VReg) : Statement (.icmplt c eob d a b) := rfl
theorem icmpeq (c : CoreId) (eob : Bool) (d a b : VReg) : Statement (.icmpeq c eob d a b) := rfl
theorem vecAnd (c : CoreId) (eob : Bool) (d a b : VReg) : Statement (.vecAnd c eob d a b) := rfl
theorem vecOr (c : CoreId) (eob : Bool) (d a b : VReg) : Statement (.vecOr c eob d a b) := rfl
theorem vecXor (c : CoreId) (eob : Bool) (d a b : VReg) : Statement (.vecXor c eob d a b) := rfl
theorem vecShl (c : CoreId) (eob : Bool) (d a : VReg) (sh : Fin 32) : Statement (.vecShl c eob d a sh) := rfl
theorem vecSra (c : CoreId) (eob : Bool) (d a : VReg) (sh : Fin 32) : Statement (.vecSra c eob d a sh) := rfl
theorem cvtif (c : CoreId) (eob : Bool) (d a : VReg) : Statement (.cvtif c eob d a) := rfl
theorem cvtfi (c : CoreId) (eob : Bool) (d a : VReg) : Statement (.cvtfi c eob d a) := rfl
theorem frnd (c : CoreId) (eob : Bool) (d a : VReg) (f : BitVec 4) : Statement (.frnd c eob d a f) := rfl
theorem fcexp (c : CoreId) (eob : Bool) (d a : VReg) : Statement (.fcexp c eob d a) := rfl
theorem fscalb (c : CoreId) (eob : Bool) (d a b : VReg) : Statement (.fscalb c eob d a b) := rfl
theorem vld (c : CoreId) (eob : Bool) (v : VReg) (a : AReg) (tag : BitVec 2) (off : BitVec 11) : Statement (.vld c eob v a tag off) := rfl
theorem vldw (c : CoreId) (eob : Bool) (v : VReg) (a : AReg) (tag : BitVec 2) (f : BitVec 4) (off : BitVec 11) : Statement (.vldw c eob v a tag f off) := rfl
theorem vst (c : CoreId) (eob : Bool) (v : VReg) (a : AReg) (tag : BitVec 2) (off : BitVec 11) : Statement (.vst c eob v a tag off) := rfl
theorem vstn (c : CoreId) (eob : Bool) (v : VReg) (a : AReg) (tag : BitVec 2) (f : BitVec 4) (off : BitVec 11) : Statement (.vstn c eob v a tag f off) := rfl
theorem sclw (c : CoreId) (eob : Bool) (v : VReg) (a : AReg) (tag : BitVec 2) (n1 : Fin 64) (off : BitVec 9) : Statement (.sclw c eob v a tag n1 off) := rfl
theorem vbcs (c : CoreId) (eob : Bool) (d : VReg) (s : SReg) : Statement (.vbcs c eob d s) := rfl
theorem vext (c : CoreId) (eob : Bool) (d : SReg) (v : VReg) (lane : Fin 64) : Statement (.vext c eob d v lane) := rfl
theorem frsum (c : CoreId) (eob : Bool) (d a : VReg) : Statement (.frsum c eob d a) := rfl
theorem frmax (c : CoreId) (eob : Bool) (d a : VReg) : Statement (.frmax c eob d a) := rfl
theorem irsum (c : CoreId) (eob : Bool) (d a : VReg) : Statement (.irsum c eob d a) := rfl
theorem argmax (c : CoreId) (eob : Bool) (d a : VReg) (sN sBase : SReg) (hi idx dir int : Bool) : Statement (.argmax c eob d a sN sBase hi idx dir int) := rfl
theorem topk (c : CoreId) (eob : Bool) (d a : VReg) (sN sBase : SReg) (hi idx dir int : Bool) : Statement (.topk c eob d a sN sBase hi idx dir int) := rfl
theorem curve (c : CoreId) (eob : Bool) (d a : VReg) (n : Fin 32) : Statement (.curve c eob d a n) := rfl
theorem add (c : CoreId) (eob : Bool) (d a b : SReg) : Statement (.add c eob d a b) := rfl
theorem sub (c : CoreId) (eob : Bool) (d a b : SReg) : Statement (.sub c eob d a b) := rfl
theorem mul (c : CoreId) (eob : Bool) (d a b : SReg) : Statement (.mul c eob d a b) := rfl
theorem sclAnd (c : CoreId) (eob : Bool) (d a b : SReg) : Statement (.sclAnd c eob d a b) := rfl
theorem sclOr (c : CoreId) (eob : Bool) (d a b : SReg) : Statement (.sclOr c eob d a b) := rfl
theorem sclXor (c : CoreId) (eob : Bool) (d a b : SReg) : Statement (.sclXor c eob d a b) := rfl
theorem min (c : CoreId) (eob : Bool) (d a b : SReg) : Statement (.min c eob d a b) := rfl
theorem max (c : CoreId) (eob : Bool) (d a b : SReg) : Statement (.max c eob d a b) := rfl
theorem slt (c : CoreId) (eob : Bool) (d a b : SReg) : Statement (.slt c eob d a b) := rfl
theorem sclShl (c : CoreId) (eob : Bool) (d a b : SReg) : Statement (.sclShl c eob d a b) := rfl
theorem shr (c : CoreId) (eob : Bool) (d a b : SReg) : Statement (.shr c eob d a b) := rfl
theorem sclSra (c : CoreId) (eob : Bool) (d a b : SReg) : Statement (.sclSra c eob d a b) := rfl
theorem addi (c : CoreId) (eob : Bool) (d a : SReg) (imm : BitVec 16) : Statement (.addi c eob d a imm) := rfl
theorem ori (c : CoreId) (eob : Bool) (d a : SReg) (imm : BitVec 16) : Statement (.ori c eob d a imm) := rfl
theorem shli (c : CoreId) (eob : Bool) (d a : SReg) (imm : BitVec 16) : Statement (.shli c eob d a imm) := rfl
theorem shri (c : CoreId) (eob : Bool) (d a : SReg) (imm : BitVec 16) : Statement (.shri c eob d a imm) := rfl
theorem movi (c : CoreId) (eob : Bool) (d : SReg) (imm : BitVec 21) : Statement (.movi c eob d imm) := rfl
theorem amov (c : CoreId) (eob : Bool) (d : AReg) (s : SReg) : Statement (.amov c eob d s) := rfl
theorem aadd (c : CoreId) (eob : Bool) (d a : AReg) (s : SReg) : Statement (.aadd c eob d a s) := rfl
theorem amovi (c : CoreId) (eob : Bool) (d : AReg) (imm : BitVec 22) : Statement (.amovi c eob d imm) := rfl
theorem smova (c : CoreId) (eob : Bool) (d : SReg) (a : AReg) : Statement (.smova c eob d a) := rfl
theorem rdlc (c : CoreId) (eob : Bool) (d : SReg) (l : Fin 4) : Statement (.rdlc c eob d l) := rfl
theorem setzp (c : CoreId) (eob : Bool) (s : SReg) : Statement (.setzp c eob s) := rfl
theorem setos (c : CoreId) (eob : Bool) (s : SReg) : Statement (.setos c eob s) := rfl
theorem setinc (c : CoreId) (eob : Bool) (n : AReg) (l : Fin 4) (s : SReg) : Statement (.setinc c eob n l s) := rfl
theorem setbind (c : CoreId) (eob : Bool) (n : AReg) (mask : BitVec 4) : Statement (.setbind c eob n mask) := rfl
theorem tagWaitRelease (c : CoreId) (u : AccessUnit) : Statement (.tagWaitRelease c u) := rfl
theorem scrubBeat (m : SramId) (word : Nat) (e : EccOutcome) : Statement (.scrubBeat m word e) := rfl
theorem sequencerWatchdogExpiry (c : CoreId) : Statement (.sequencerWatchdogExpiry c) := rfl
theorem wcetOverrun  : Statement (.wcetOverrun) := rfl
theorem doorbell (q : QueueId) (tail : Word) : Statement (.doorbell q tail) := rfl
theorem descriptorFetch (q : QueueId) (r : ReadResult) : Statement (.descriptorFetch q r) := rfl
theorem accept (q : QueueId) : Statement (.accept q) := rfl
theorem dispatch (p : RunLoad) : Statement (.dispatch p) := rfl
theorem tokenTaken (p : RunLoad) : Statement (.tokenTaken p) := rfl
theorem sealedTimeout (p : PartId) : Statement (.sealedTimeout p) := rfl
theorem timeSlicePreemption (p : PartId) : Statement (.timeSlicePreemption p) := rfl
theorem runDrained (p : PartId) : Statement (.runDrained p) := rfl
theorem rtDoorbell (v : Word) : Statement (.rtDoorbell v) := rfl
theorem rtStepStart  : Statement (.rtStepStart) := rfl
theorem enableWrite (q : QueueId) (v : Byte) (async : Bool) : Statement (.enableWrite q v async) := rfl
theorem kill (q : QueueId) (v : Byte) (async : Bool) : Statement (.kill q v async) := rfl
theorem fetchWrite (q : QueueId) (v : Word) (async : Bool) : Statement (.fetchWrite q v async) := rfl
theorem coreMaskWrite (p : PartId) (v : Word) (async : Bool) : Statement (.coreMaskWrite p v async) := rfl
theorem windowRecordWrite (p : PartId) (w : Fin 4) (v : DWord) (async : Bool) : Statement (.windowRecordWrite p w v async) := rfl
theorem load (p : PartId) (v : QWord) (async : Bool) : Statement (.load p v async) := rfl
theorem imageLoadDone (p : PartId) (r : ReadResult) : Statement (.imageLoadDone p r) := rfl
theorem arm (v : Byte) (async : Bool) : Statement (.arm v async) := rfl
theorem armComplete  : Statement (.armComplete) := rfl
theorem disarm (async : Bool) : Statement (.disarm async) := rfl
theorem disarmComplete  : Statement (.disarmComplete) := rfl
theorem rtArm (v : Word) : Statement (.rtArm v) := rfl
theorem slotWrite (i : Fin 16) (bs : List Byte) (async : Bool) : Statement (.slotWrite i bs async) := rfl
theorem sessionClear (ast : Half) (async : Bool) : Statement (.sessionClear ast async) := rfl
theorem codebookPendingWrite (t : Fin 64) (bs : List Byte) (async : Bool) : Statement (.codebookPendingWrite t bs async) := rfl
theorem codebookSwitch (mask : DWord) (async : Bool) : Statement (.codebookSwitch mask async) := rfl
theorem curveSwitch (mask : Word) (async : Bool) : Statement (.curveSwitch mask async) := rfl
theorem qpolicySwitch (v : Byte) (async : Bool) : Statement (.qpolicySwitch v async) := rfl
theorem directorySwitch (v : Byte) (async : Bool) : Statement (.directorySwitch v async) := rfl
theorem pendingVersion (bs : List Byte) (async : Bool) : Statement (.pendingVersion bs async) := rfl
theorem residentLoadDone (slot : Fin 256) (r : ReadResult) : Statement (.residentLoadDone slot r) := rfl
theorem equinox (bs : List Byte) (async : Bool) : Statement (.equinox bs async) := rfl
theorem deleteSet (v : Byte) (async : Bool) : Statement (.deleteSet v async) := rfl
theorem cwordWrite (q : QueueId) (v : Word) (async : Bool) : Statement (.cwordWrite q v async) := rfl
theorem windowStartWrite (v : DWord) (async : Bool) : Statement (.windowStartWrite v async) := rfl
theorem rootWrite (v : DWord) (walks : List (List WalkRead)) (async : Bool) : Statement (.rootWrite v walks async) := rfl
theorem invalidate (v : Half) (walks : List (List WalkRead)) (async : Bool) : Statement (.invalidate v walks async) := rfl
theorem rtPin (i : Fin 16) (v : DWord) (walk : List WalkRead) (async : Bool) : Statement (.rtPin i v walk async) := rfl
theorem pageWalkReadReturn (n : PortId) (id : Byte) (err : BitVec 2) (beat : Beat) : Statement (.pageWalkReadReturn n id err beat) := rfl
theorem portReadData (n : PortId) (id : Byte) (beat : Beat) (last : Bool) : Statement (.portReadData n id beat last) := rfl
theorem portWriteAck (n : PortId) (id : Byte) : Statement (.portWriteAck n id) := rfl
theorem portFlushDone (n : PortId) (id : Byte) : Statement (.portFlushDone n id) := rfl
theorem portErrorResponse (n : PortId) (id : Byte) (err : BitVec 2) : Statement (.portErrorResponse n id err) := rfl
theorem portTimeout (n : PortId) (id : Byte) : Statement (.portTimeout n id) := rfl
theorem linkUpFall (n : PortId) : Statement (.linkUpFall n) := rfl
theorem linkUpRise (n : PortId) : Statement (.linkUpRise n) := rfl
theorem settlingExpiry (n : PortId) : Statement (.settlingExpiry n) := rfl
theorem resume (n : PortId) (v : Byte) (async : Bool) : Statement (.resume n v async) := rfl
theorem attach (v : Word) : Statement (.attach v) := rfl
theorem linkGroupReceived (l : LinkId) (flits : List Flit) : Statement (.linkGroupReceived l flits) := rfl
theorem linkReplay (l : LinkId) : Statement (.linkReplay l) := rfl
theorem idleGroup (l : LinkId) : Statement (.idleGroup l) := rfl
theorem linkFailed (l : LinkId) : Statement (.linkFailed l) := rfl
theorem phyUpChange (l : LinkId) (up : Bool) : Statement (.phyUpChange l up) := rfl
theorem linkWrite (l : LinkId) : Statement (.linkWrite l) := rfl
theorem linkRead (l : LinkId) : Statement (.linkRead l) := rfl
theorem linkFlush (l : LinkId) : Statement (.linkFlush l) := rfl
theorem chain (l : LinkId) : Statement (.chain l) := rfl
theorem rdata (l : LinkId) : Statement (.rdata l) := rfl
theorem flushDone (l : LinkId) : Statement (.flushDone l) := rfl
theorem hello (l : LinkId) : Statement (.hello l) := rfl
theorem helloTimer  : Statement (.helloTimer) := rfl
theorem pstate (l : LinkId) : Statement (.pstate l) := rfl
theorem pstateOrderInstant  : Statement (.pstateOrderInstant) := rfl
theorem pdmsg (l : LinkId) : Statement (.pdmsg l) := rfl
theorem event (l : LinkId) : Statement (.event l) := rfl
theorem relayTimeout  : Statement (.relayTimeout) := rfl
theorem inboundWindowWrite (w : Fin 4) (v : DWord) (async : Bool) : Statement (.inboundWindowWrite w v async) := rfl
theorem peerEventsClear (v : Byte) (async : Bool) : Statement (.peerEventsClear v async) := rfl
theorem idleTimeoutExpiry  : Statement (.idleTimeoutExpiry) := rfl
theorem winterEntry  : Statement (.winterEntry) := rfl
theorem drainLimitExpiry  : Statement (.drainLimitExpiry) := rfl
theorem wakeEvent (k : WakeKind) : Statement (.wakeEvent k) := rfl
theorem wakeAtExpiry  : Statement (.wakeAtExpiry) := rfl
theorem thawComplete (r : ReadResult) : Statement (.thawComplete r) := rfl
theorem thawReloadRetry (r : ReadResult) : Statement (.thawReloadRetry r) := rfl
theorem thawReloadAbandon  : Statement (.thawReloadAbandon) := rfl
theorem routineStoreReload (r : ReadResult) : Statement (.routineStoreReload r) := rfl
theorem pwrAckRise (cl : ClusterId) : Statement (.pwrAckRise cl) := rfl
theorem pwrAckLoss (cl : ClusterId) : Statement (.pwrAckLoss cl) := rfl
theorem pstAckRise  : Statement (.pstAckRise) := rfl
theorem pstAckTimeout  : Statement (.pstAckTimeout) := rfl
theorem glideEnd  : Statement (.glideEnd) := rfl
theorem droopDetect (c : CoreId) (cycles : Nat) : Statement (.droopDetect c cycles) := rfl
theorem alertNFall  : Statement (.alertNFall) := rfl
theorem alertHoldExpiry  : Statement (.alertHoldExpiry) := rfl
theorem estimatorPeriod (counts : List Nat) : Statement (.estimatorPeriod counts) := rfl
theorem tlmSample (v : Word) : Statement (.tlmSample v) := rfl
theorem calPeriodEnd  : Statement (.calPeriodEnd) := rfl
theorem thermalSample (halfDegrees : List Int) : Statement (.thermalSample halfDegrees) := rfl
theorem thermalRestExpiry  : Statement (.thermalRestExpiry) := rfl
theorem lockstepMismatch (pair : Fin 2) : Statement (.lockstepMismatch pair) := rfl
theorem failover (pair : Fin 2) (leadPasses checkerPasses : Bool) : Statement (.failover pair leadPasses checkerPasses) := rfl
theorem periodicSelftest (c : CoreId) (corePasses : Bool) (arrayFails : BitVec 4) : Statement (.periodicSelftest c corePasses arrayFails) := rfl
theorem stewardHeartbeatMiss (s : Fin 4) : Statement (.stewardHeartbeatMiss s) := rfl
theorem stewardRejoin (s : Fin 4) : Statement (.stewardRejoin s) := rfl
theorem stripRateWindowEnd (p : PartId) : Statement (.stripRateWindowEnd p) := rfl
theorem agingMonitorRead (c : CoreId) (margin : Half) : Statement (.agingMonitorRead c margin) := rfl
theorem interconnectParityError (p : PartId) : Statement (.interconnectParityError p) := rfl
theorem start  : Statement (.start) := rfl
theorem startPhaseDone (d : PhaseDone) : Statement (.startPhaseDone d) := rfl
theorem startFail (outcome : StartOutcome) (detail : Word) : Statement (.startFail outcome detail) := rfl
theorem readyTimeout  : Statement (.readyTimeout) := rfl
theorem probationEnd  : Statement (.probationEnd) := rfl
theorem stewardWatchdogFire  : Statement (.stewardWatchdogFire) := rfl
theorem mwStep (bs : List Byte) (image desc : ReadResult) (async : Bool) : Statement (.mwStep bs image desc async) := rfl
theorem mwSelftest (v : Byte) (coreFail : BitVec 20) (sharedFail : Bool) (async : Bool) : Statement (.mwSelftest v coreFail sharedFail async) := rfl
theorem slotRecordWrite (b : Bool) (bs : List Byte) (image : ReadResult) (async : Bool) : Statement (.slotRecordWrite b bs image async) := rfl
theorem fwUpdate (v : Byte) (image : ReadResult) (async : Bool) : Statement (.fwUpdate v image async) := rfl
theorem updateRollback (s : Fin 4) (rollbackFails : Bool) : Statement (.updateRollback s rollbackFails) := rfl
theorem libraryLoad (v : QWord) (async : Bool) : Statement (.libraryLoad v async) := rfl
theorem calSwitch (v : Byte) (async : Bool) : Statement (.calSwitch v async) := rfl
theorem coreService (v : Byte) (async : Bool) : Statement (.coreService v async) := rfl
theorem pdRead (async remote : Bool) (engine : Fin 8) (index : Half) (sub : Byte) (len : BitVec 9) (offset : Half) : Statement (.pdRead async remote engine index sub len offset) := rfl
theorem pdWrite (async remote : Bool) (engine : Fin 8) (index : Half) (sub : Byte) (len : BitVec 9) (offset : Half) (bs : List Byte) : Statement (.pdWrite async remote engine index sub len offset bs) := rfl
theorem irqClear (v : Word) : Statement (.irqClear v) := rfl
theorem timeLoRead  : Statement (.timeLoRead) := rfl
theorem ctlRegisterWrite (off : BitVec 14) (be : BitVec 4) (v : Word) : Statement (.ctlRegisterWrite off be v) := rfl
theorem aonReset (inst : Fin 8) (master fuseValid : Bool) (fuse : BitVec 256) : Statement (.aonReset inst master fuseValid fuse) := rfl
theorem fuseValidRise (inst : Fin 8) (master : Bool) (fuse : BitVec 256) : Statement (.fuseValidRise inst master fuse) := rfl
theorem pclkReset  : Statement (.pclkReset) := rfl
theorem mvpPassLanded (c : CoreId) : Statement (.mvpPassLanded c) := rfl
theorem weightLoadEnd (c : CoreId) : Statement (.weightLoadEnd c) := rfl
theorem readoutLanded (c : CoreId) : Statement (.readoutLanded c) := rfl
theorem vectorOperationLanded (c : CoreId) : Statement (.vectorOperationLanded c) := rfl
theorem deepScratchWriteLanded (c : CoreId) : Statement (.deepScratchWriteLanded c) := rfl
theorem tapLoadLanded (c : CoreId) : Statement (.tapLoadLanded c) := rfl
theorem ageLimitElapsed (q : QueueId) : Statement (.ageLimitElapsed q) := rfl
theorem pllLock  : Statement (.pllLock) := rfl
theorem pwrAckFall (cl : ClusterId) : Statement (.pwrAckFall cl) := rfl
theorem libraryLoadDone (r : ReadResult) : Statement (.libraryLoadDone r) := rfl
theorem coreServiceTestDone (passes : Bool) : Statement (.coreServiceTestDone passes) := rfl
theorem pclkResetRelease  : Statement (.pclkResetRelease) := rfl
theorem wrapperInstructionUpdate (code : BitVec 3) : Statement (.wrapperInstructionUpdate code) := rfl
theorem wrapperReset  : Statement (.wrapperReset) := rfl
theorem segmentInsertionUpdate (i : Instrument) (wantOpen : Bool) : Statement (.segmentInsertionUpdate i wantOpen) := rfl
theorem networkReset  : Statement (.networkReset) := rfl

end Sys2Proof.Laws.Shape
end

