-- ==== Sys2Proof/Tests/Slice0.lean ====
section
/-!
SUPPORT. Witnesses that the hypotheses of the statements can be met, clause by clause at the ends of their ranges, and small tests of
one step each; every expected value is the spec's or worked out by hand from the rule named.
-/
open Sys2Proof Sys2Proof.Machine Sys2Proof.Safety
namespace Sys2Proof.Tests
set_option Elab.async false

/-- A descriptor with nothing in it but its strips. -/
def desc1 : StepDesc :=
  { kv := false, cwin := false, flip := false, qseq := 0, base := 0, adapter := 0, strips := 1, kvVa := 0, kvMax := 0, args := [] }

/-- A step of queue 0 and partition 0 whose image has these header bytes. -/
def stepWith (img : List Byte) : StepRec :=
  { aseq := 1, queue := 0, part := 0, rt := false, cls := 2, ast := 0, desc := desc1,
    image := some { bytes := img, resident := false, wcet := 0, dir := [], va := 0, ast := 0 }, tables := TableSt.reset.active, base := none,
    adapter := none, state := .started, status := 0, flags := 0, starts := 1, kills := 0, twin := false, lockKill := false,
    tAccept := 0, tLast := 0, aged := 0, since := 0, tBell := 0, cclk := 0 }

def runOne : RunSt :=
  { aseq := 1, cores := [0], twin := false, phase := .running, arrived := [], taken := [], started := 0, firstIssue := false,
    cclk := 0, issueCclk := 0, tokenCclk := 0, tokenIssue := 0, stopCclk := 0, heldKill := false, sliced := false, ended := 0 }

/-- A core at the first of eight bundles with a near window of 4 KB. -/
def coreOne : Core := { Core.reset with phase := .running, codeLen := 8, win := ⟨0, 4⟩ }

/-- A serving engine in Spring. -/
def alive : State :=
  { State.reset with
    start := { StartSt.reset with state := .running }
    ports := Vector.replicate 4 { Port.reset true with state := .up, linkUp := true }
    power := { PowerSt.reset Build.reference with season := .spring, onAon := false, pllLocked := true, pwrReq := 15, pwrAck := 15 } }

/-- `alive` with core 0 in a run of step `x`. -/
def atWork (k : Core) (x : StepRec) : State :=
  { alive with
    cores := upd alive.cores 0 (fun _ => k), steps := [x],
    parts := upd alive.parts 0 (fun p => { p with coreMask := 1, run := some runOne }) }

/-- The state a command leaves, or the old one. -/
def after (i : Instr) (s : State) : State := match exec i s with | .next t => t | _ => s


/-- `coreOne` with other scalar registers, descriptors and near bytes. -/
def coreWith (s : Vector DWord 32) (bank : Tab DWord) (near : Tab Byte) : Core :=
  { coreOne with s := s, bank0 := bank, near := near, written := near.map (fun p => (p.1 / 1024, true)) }

/-- The first bytes of an image with FLAGS and the number of arrays. -/
def imageHead (flags arrays : Byte) : List Byte := List.replicate 6 0 ++ [flags] ++ List.replicate 15 0 ++ [arrays]

/-- A step with no image header. -/
def step1 : StepRec := stepWith []

def regs (xs : List (Nat × DWord)) : Vector DWord 32 := Vector.ofFn (fun i : Fin 32 => Tab.get 0 xs i.val)

/-- A core of these values in a run of a step whose image header has these bytes. -/
def work (xs : List (Nat × DWord)) (bank : Tab DWord) (img : List Byte) : State :=
  atWork (coreWith (regs xs) bank []) (stepWith img)

theorem calm_with (s : Vector DWord 32) (bank : Tab DWord) (near : Tab Byte) : Calm (coreWith s bank near) := by
  refine ⟨rfl, rfl, rfl, rfl, rfl, rfl, rfl, rfl, rfl, rfl, rfl, ?_⟩
  intro t
  simp [coreWith, coreOne, Core.reset, DmaStream.reset]

@[simp] theorem core_atWork (k : Core) (x : StepRec) : (atWork k x).core 0 = k := by simp [atWork, State.core, upd]

/-- Nothing marks what core 0 of such a state fetches. -/
theorem fetched_work (k : Core) (x : StepRec) (h1 : k.imemFlip = []) (h2 : k.imemPoison = []) : Fetched (atWork k x) 0 := by
  have hm : (atWork k x).members 0 = [0] := rfl
  refine ⟨fun _ d hd => ?_, fun _ => ⟨?_, ?_⟩⟩
  · rw [hm, List.mem_singleton] at hd
    subst hd
    simp [h1, h2, marksIn, Tab.get]
  · simp [State.storePoisonIn, atWork, alive, StartSt.reset, Tab.get]
  · simp [marksIn, atWork, alive, StartSt.reset]

theorem straight_work (xs : List (Nat × DWord)) (bank : Tab DWord) (img : List Byte) :
    Straight (work xs bank img) 0 0 runOne (stepWith img) :=
  ⟨⟨rfl, rfl, calm_with _ _ _, fetched_work _ _ rfl rfl⟩, fun l rest h => by simp [work, coreWith, coreOne, Core.reset] at h,
    (by decide : (0 : Nat) + 1 < 8)⟩

theorem members_work (k : Core) (x : StepRec) : (atWork k x).members 0 = [0] := rfl

/-- Near scratch without marks meets none. -/
theorem unmarked_work (k : Core) (x : StepRec) (xs : List Span) (h1 : k.nearPoison = []) (h2 : k.nearFlip = []) :
    Unmarked (atWork k x) 0 xs := by
  intro d hd
  rw [members_work, List.mem_singleton] at hd
  subst hd
  have e : (atWork k x).member 0 0 = k := by simp [State.member]
  rw [e]
  exact ⟨fun y _ => by simp [Core.nearPoisonIn, h1], by simp [Core.nearFlips, marksIn, h2]⟩

theorem noMarks_work (k : Core) (x : StepRec) (h : k.nearPoison = [] ∧ k.nearFlip = [] ∧ k.accPoison = [] ∧ k.accFlip = []) :
    NoMarks (atWork k x) 0 := by
  intro d hd
  rw [members_work, List.mem_singleton] at hd
  subst hd
  rw [core_atWork]
  exact h


/-! ### Witnesses: slots -/

def addOp : SlotOp := .scl (.bin .add 1 2 3)

/-- Of `step_runs_front`: a queue with a command, and one without. -/
theorem witness_front : ({ State.reset with pending := [.start] } : State).pending = [.start] ∧ State.reset.pending = [] := ⟨rfl, rfl⟩

/-- Of `slot_commands_enter_bundles`: a slot behind none, a bundle behind a held one, a core that issues nothing, two slots of one unit. -/
theorem witness_bundles :
    (Instr.add 0 false 1 2 3).slotOp = some (0, false, addOp) ∧ (Instr.add 0 true 1 2 3).slotOp = some (0, true, addOp) ∧
    ([addOp].Pairwise (fun a b => a.slot ≠ b.slot)) ∧
    (let s := atWork { coreOne with fetched := [[addOp]] } (stepWith [])
     s.issuing 0 = true ∧ s.stepOf 0 = some (0, runOne, stepWith []) ∧ (s.core 0).fetched ≠ []) ∧
    State.reset.issuing 0 = false ∧
    (let s := atWork { coreOne with staged := [addOp] } (stepWith [])
     s.issuing 0 = true ∧ s.stepOf 0 = some (0, runOne, stepWith []) ∧ ∃ a ∈ (s.core 0).staged, a.slot = addOp.slot) := by
  decide +kernel

/-- Of `vector_table_and_search_operations`: formats, and N at both ends of both windows. -/
theorem witness_search :
    (let k := (work [(1, 1), (2, 64), (3, 32)] [] []).core 0
     k.s32 1 = 1 ∧ k.s32 2 = 64 ∧ k.s32 3 = 32) ∧ formatNamed 0 = true ∧ formatNamed 7 = true ∧ (30 : VReg).val % 2 = 0 := by
  decide +kernel

/-- Of `vector_loads_and_stores`: an access that ends with the window, with a full tag to take; the last store that fits. -/
theorem witness_near :
    (let k := { coreOne with a := coreOne.a.set 1 3840, fullTag := [(3, true)] }
     let s := atWork k step1
     NearOk s 0 3840 256 ∧ k.areg 1 = 3840 ∧ k.readReady (readTag 2) [(k.win.phys 3840, 256)] = true ∧
     3840 + 256 = k.win.nsl * 1024 ∧ k.readReady (readTag 0) [(k.win.phys 3840, 256)] = true ∧ NearOk s 0 3840 ((fmtD 7).bytes 64)) := by
  refine ⟨⟨by rw [core_atWork]; decide, unmarked_work _ _ _ rfl rfl⟩, by decide, by decide, by decide, by decide,
    ⟨by rw [core_atWork]; decide, unmarked_work _ _ _ rfl rfl⟩⟩

/-- Loops at a bundle of core 0. -/
theorem ready_loops (pc : Nat) (ls : List LoopRec) :
    Ready (atWork { coreOne with pc := pc, loops := ls } (stepWith [])) 0 0 runOne (stepWith []) := by
  refine ⟨rfl, rfl, ?_, fetched_work _ _ rfl rfl⟩
  rw [core_atWork]
  have h := calm_with coreOne.s [] []
  exact ⟨h.1, h.2, h.3, h.4, h.5, h.6, h.7, h.8, h.9, h.10, h.11, h.12⟩

/-- Of `loops`: a body up to the bundle before the last one, outside loops and in three; the last bundle of a loop below and at its
count, alone and with an enclosing loop that ends there too; EXITN inside one and at its last bundle. -/
theorem witness_loops :
    Straight (work [] [] []) 0 0 runOne (stepWith []) ∧ 0 + (7 : BitVec 11).toNat < coreOne.codeLen ∧
    0 + (6 : BitVec 11).toNat + 1 < coreOne.codeLen ∧
    (let ls : List LoopRec := [⟨2, 1, 3, []⟩, ⟨2, 1, 4, []⟩, ⟨2, 1, 5, []⟩]
     Straight (atWork { coreOne with pc := 2, loops := ls } (stepWith [])) 0 0 runOne (stepWith []) ∧ ls.length < 4 ∧ 2 + 1 ≤ 3) ∧
    (∀ n, Ready (atWork { coreOne with pc := 3, loops := [⟨n, 1, 3, []⟩] } (stepWith [])) 0 0 runOne (stepWith [])) ∧
    (∀ n, Ready (atWork { coreOne with pc := 3, loops := [⟨n, 1, 3, []⟩, ⟨n, 0, 3, []⟩] } (stepWith [])) 0 0 runOne (stepWith [])) ∧
    Ready (atWork { coreOne with pc := 2, loops := [⟨2, 1, 3, []⟩] } (stepWith [])) 0 0 runOne (stepWith []) ∧
    2 < 3 ∧ 3 + 1 < coreOne.codeLen := by
  refine ⟨straight_work _ _ _, by decide, by decide, ⟨⟨ready_loops _ _, ?_, ?_⟩, by decide, by decide⟩, fun n => ready_loops _ _,
    fun n => ready_loops _ _, ready_loops _ _, by decide, by decide⟩
  · intro l rest h
    rw [core_atWork] at h
    simp at h
    rw [core_atWork, ← h.1]
    decide
  · rw [core_atWork]
    decide

def routine : RoutineRec :=
  { id := 7, flags := 0, storeOff := 0, bundles := 1, minLen := 1, wcet := 1, clobS := 0, clobV := 0, descOff := 0, crc := 0 }

/-- A step whose image may call (FLAGS bit 2) and whose directory holds routine 7. -/
def stepCalls : StepRec :=
  { stepWith (imageHead 4 0) with tables := { TableSt.reset.active with dir := [routine] } }

/-- Of `call_and_return`: a window of one slot at the end of the caller's, a routine that is not there, a window of none, a frame. -/
theorem witness_calls :
    (let s := atWork { coreOne with s := regs [(1, 0x00010003)] } stepCalls
     bitAt (imageLimits stepCalls).1 2 = true ∧ (s.core 0).s32 1 % 2 ^ 11 = 3 ∧ (s.core 0).s32 1 / 2 ^ 16 % 2 ^ 12 = 1 ∧
     3 + 1 ≤ (s.core 0).win.nsl ∧ s.storePoisonIn 0 0 0 = none) ∧
    stepCalls.tables.dir.find? (fun e => decide (e.id = 7)) = some routine ∧
    stepCalls.tables.dir.find? (fun e => decide (e.id = 8)) = none ∧
    (let f : Frame := { pc := 1, codeLen := 8, win := ⟨0, 4⟩, loops := [], lc := coreOne.lc, a := coreOne.a, ainc := coreOne.ainc,
                        abind := coreOne.abind }
     let s := atWork { coreOne with frame := some f, codeLen := 1 } (stepWith [])
     s.issuing 0 = true ∧ (s.core 0).frame = some f ∧ s.storePoisonIn 0 0 32 = none ∧ f.pc < f.codeLen) := by
  decide +kernel

/-- Of `waits_and_delay` and `strip_and_signal`: an event that is reached and one that is not, strips left and none left. -/
theorem witness_waits :
    (let s := work [(1, 1)] [] []
     (s.core 0).s32 0 ≤ (s.part 0).events[0].toNat ∧ (s.part 0).events[0].toNat < (s.core 0).s32 1 ∧
     (s.part 0).stripCounter < (stepWith []).desc.strips ∧ (0 : CoreId) ∉ s.power.parked) ∧
    (let s := { work [] [] [] with parts := upd (work [] [] []).parts 0 (fun p => { p with stripCounter := 1 }) }
     (stepWith []).desc.strips ≤ (s.part 0).stripCounter ∧ s.stepOf 0 = some (0, runOne, stepWith [])) := by
  decide +kernel

/-- Of `commit_and_halt`: no engine written to, and a test image. -/
theorem witness_commit :
    ((work [] [] []).core 0).remoteDirty = 0 ∧ bitAt (imageLimits (stepWith (imageHead 1 0))).1 0 = true := by
  decide +kernel

/-! ### Witnesses: units -/

/-- An image with one array. -/
def oneArray : List Byte := imageHead 0 1

/-- Of `rows_and_pass`: the most rows a pass may have, zero descriptors (INT8, one row and column, no read-out). -/
theorem witness_pass :
    let s := work [(1, 512)] [] oneArray
    let k := s.core 0
    let f := passOf k (k.mt 0) (k.ad 0) (s.maskArrays 0 1) 1 0 true false false 0 0 0 0
    Straight s 0 0 runOne (stepWith oneArray) ∧ maskOk (imageLimits (stepWith oneArray)).2 1 = true ∧ mtRead (k.mt 0) = 0 ∧
    adMode (k.ad 0) = 0 ∧ k.s32 1 = 512 ∧ k.s32 0 + k.s32 1 ≤ 512 ∧ SpansOk s 0 (passRecs k (k.mt 0) (s.maskArrays 0 1) false) ∧
    (k.win.spans (passPlanSpans k (k.mt 0) (s.maskArrays 0 1) false (k.s32 1))).isSome = true ∧ Streamable s 0 f := by
  refine ⟨straight_work _ _ _, by decide +kernel, by decide +kernel, by decide +kernel, by decide +kernel, by decide +kernel,
    ⟨?_, unmarked_work _ _ _ rfl rfl⟩, by decide +kernel, List.replicate 512 [(0, 32)], ?_, ?_, ?_, noMarks_work _ _ ⟨rfl, rfl, rfl, rfl⟩⟩
  all_goals decide +kernel

/-- Of `rows_and_pass`: windowed streams in a MAC template, in a distance mode and with transposed weights. -/
theorem witness_pass_windowed :
    (let k := (work [] [(0x10, 1)] oneArray).core 0
     adMode (k.ad 0) = 1 ∧ mtMode (k.mt 0) = 0 ∧ bitAt (k.mt 0) 22 = false) ∧
    (let k := (work [] [(0, 1), (1, 0x400000), (0x10, 1)] oneArray).core 0
     adMode (k.ad 0) = 1 ∧ mtMode (k.mt 0) ≠ 0 ∧ bitAt (k.mt 1) 22 = true) := by
  decide +kernel

/-- Of `read_load_import_enter`: the last rows of the accumulator, a read-out to vector registers, a load and an import that fit. -/
theorem witness_loads :
    let s := work [(1, 511), (2, 1), (3, 512)] [(0, 0x2000000)] oneArray
    let k := s.core 0
    Straight s 0 0 runOne (stepWith oneArray) ∧ maskOk (imageLimits (stepWith oneArray)).2 1 = true ∧
    mtRead (k.mt 0) = 4 ∧ maskCount 1 = 1 ∧ mtRead (k.mt 1) = 0 ∧ k.s32 1 + k.s32 2 = 512 ∧ k.s32 0 + k.s32 3 = 512 ∧
    (k.win.spans (planSpans (planOf k (k.mt 0) (s.maskArrays 0 1)) (s.maskArrays 0 1) (k.s32 2))).isSome = true ∧
    (∃ xs, k.win.spans (loadNear k (loadOf s 0 k false 1 0 0 1 0 0)) = some xs) ∧
    s.loadDeepOk 0 k (loadOf s 0 k false 1 0 0 1 0 0) = true ∧
    (∃ xs, k.win.spans (loadNear k (loadOf s 0 k true 1 0 0 32 (k.s32 1) (k.s32 2))) = some xs) ∧
    s.loadDeepOk 0 k (loadOf s 0 k true 1 0 0 32 (k.s32 1) (k.s32 2)) = true := by
  refine ⟨straight_work _ _ _, ?_, ?_, ?_, ?_, ?_, ?_, ?_, ⟨_, rfl⟩, ?_, ⟨_, rfl⟩, ?_⟩ <;> decide +kernel

/-- Of `mvp_operations_enter`: zero templates (one column, no activation bytes), the last accumulator entry, a store offset at the end. -/
theorem witness_mvp :
    let s := work [(1, 1023), (2, 16384), (3, 1)] [] oneArray
    let k := s.core 0
    let f := mvPassOf s 0 k 0 0 true false 1 2 0 0
    Straight s 0 0 runOne (stepWith oneArray) ∧ vtVreg (k.vtA 0) = false ∧ k.s32 1 + vtN (k.vtA 0) = 1024 ∧
    k.s32 2 + (fmtD (vtAfmt (k.vtA 0))).bytes (vtK (k.vtA 0)) = 16384 ∧ SpansOk s 0 (mvPassRecs k (k.vtA 0) (k.vtB 0) false) ∧
    (k.win.spans (mvPassNear f ++ mvPassOut f)).isSome = true ∧ s.mvDeepOk 0 f = true ∧
    k.s32 3 = 1 ∧ k.s32 1 + k.s32 3 = 1024 ∧ SpansOk s 0 (mvReadRecs k (k.vtA 0) (k.vtB 0) 1) ∧
    (k.win.spans ((mvPlanOf k (k.vtA 0) (k.vtB 0) 1).spans 1 1)).isSome = true := by
  refine ⟨straight_work _ _ _, ?_, ?_, ?_, ?_, ?_, ?_, ?_, ?_, ?_, ?_⟩ <;> first | decide +kernel | exact ⟨by decide +kernel, unmarked_work _ _ _ rfl rfl⟩

/-- Of `tap_and_store_loads_enter`: a tap over a window of zeros, a store load of nothing and one to the end of its row. -/
theorem witness_tap :
    let s := work [(1, 2)] [(0x10, 1)] oneArray
    let k := s.core 0
    adMode (k.ad 0) = 1 ∧
    (∃ sp xs, tapSpans (k.ad 0) (k.wd (adWd (k.ad 0))) 0 0 0 0 0 = some sp ∧ k.win.spans sp = some xs) ∧
    2 * (8191 : BitVec 13).toNat + k.s32 1 % 2 ^ 24 = 16384 ∧ k.areg 0 + 2 ≤ k.win.nsl * 1024 := by
  refine ⟨by decide +kernel, ⟨_, _, rfl, rfl⟩, by decide +kernel, by decide +kernel⟩

/-- No stream of such a state holds a block to expand. -/
theorem idle_work (xs : List (Nat × DWord)) (bank : Tab DWord) (img : List Byte) : ExpanderIdle (work xs bank img) 0 := by
  intro j hj
  have e : ∀ c t, (work xs bank img).dmaHead c t = none := by
    intro c t
    by_cases h : c = 0
    · subst h
      simp [State.dmaHead, work, coreWith, coreOne, Core.reset, DmaStream.reset]
    · have : (work xs bank img).core c = Core.reset := by
        have h2 : ¬ 0 = c.val := fun e => h (Fin.ext e.symm)
        simp [work, atWork, State.core, upd, alive, State.reset, State.resetOf, h2]
      simp [State.dmaHead, this, Core.reset, DmaStream.reset]
  unfold State.expReady
  simp [e]

/-- Of `dma_commands_enter`: an outbound copy of a slot that waits for its tag; a row into the end of a window of 64 KB; an expansion
whose walk begins. -/
theorem witness_dma :
    (let s := work [(1, 1024)] [(0x20, 37)] []
     let k := s.core 0
     let f := dmaOf k false 0 0 0 1
     ddCodec f.dd = 0 ∧ f.src = .near ∧ s.dmaDeepOk 0 f = true ∧ readTag (ddNtag f.dd) ≠ .free ∧
     ∃ xs y ys, k.win.spans f.nearSpans = some xs ∧ xs.flatMap slotSpans = y :: ys ∧ k.slotFull (y.1 / 1024) = false) ∧
    (let s0 := work [(1, 0xFC00), (2, 1024)] [(0x20, 4)] []
     let s := { s0 with parts := upd s0.parts 0 (fun p => { p with dw := p.dw.set 0 0x100000005 }) }
     let k := s.core 0
     let f := dmaOf k false 0 0 1 2
     ddCodec f.dd = 0 ∧ f.src = .near ∧ f.dst = .deep ∧ f.rows = 1 ∧ f.len = 1024 ∧ s.dmaDeepOk 0 f = true ∧
     (∃ xs, k.win.spans f.nearSpans = some xs ∧ k.readReady (readTag (ddNtag f.dd)) xs = true) ∧
     s.deepPlace 0 (f.dstRow 0) f.len true = some (.dsa 0xFC00)) ∧
    (let s := { work [(1, 64)] [(0x20, 17)] [] with
       xlate := { Xlate.reset with roots := [(0, 37)] } }
     let k := s.core 0
     let g := dmaOf k true 0 0 0 1
     ddCodec g.dd = 2 ∧ ddFar g.dd = 1 ∧ ddOut g.dd = false ∧ ddNonear g.dd = false ∧ 0 < g.len ∧
     CachesHold s 0 0 0 g.far ∧ s.streamLookup 0 0 false 0 g.far = none ∧ (∃ w, s.walkBegin (clusterOf 0) 0 g.far = .ok w) ∧
     (s.freeId (portOf 0) (qosOf false 2) false).isSome = true) := by
  refine ⟨⟨by decide +kernel, by decide +kernel, by decide +kernel, by decide +kernel, _, _, _, rfl, rfl, by decide +kernel⟩, ?_, ?_⟩
  · exact ⟨by decide +kernel, by decide +kernel, by decide +kernel, by decide +kernel, by decide +kernel, by decide +kernel,
      ⟨_, rfl, by decide +kernel⟩, by decide +kernel⟩
  · exact ⟨by decide +kernel, by decide +kernel, by decide +kernel, by decide +kernel, by decide +kernel, ⟨rfl, rfl⟩,
      by decide +kernel, ⟨_, rfl⟩, by decide +kernel⟩

/-! ### Witnesses: landings -/

/-- Of `vector_operations_land`: a result of either kind, and a store that opens a slot. -/
theorem witness_vector_lands :
    (∀ e, ({ coreOne with vecQ := [⟨0, e⟩] } : Core).vecMayLand ⟨0, e⟩ = true ∨ ∃ off bs set, e = .store off bs set) ∧
    (let k := { coreOne with vecQ := [⟨0, .store 1020 [1, 2, 3, 4, 5, 6, 7, 8] true⟩] }
     CoreOk k ∧ k.mayWrite 0 [(1020, [1, 2, 3, 4, 5, 6, 7, 8])] true = true ∧ NoMarks (atWork k step1) 0) := by
  refine ⟨?_, ⟨by decide +kernel, rfl, rfl, rfl, rfl⟩, by decide +kernel, noMarks_work _ _ ⟨rfl, rfl, rfl, rfl⟩⟩
  intro e
  cases e with
  | regs ws => exact .inl rfl
  | scalar d x => exact .inl rfl
  | store off bs set => exact .inr ⟨_, _, _, rfl⟩

/-- Of `deep_writes_and_signals_land`: a write in canonical deep scratch; a signal with no write before it, and one behind a write. -/
theorem witness_deep_lands :
    DeepOk (atWork { coreOne with deepW := [⟨0, 0, [1]⟩] } step1) ∧
    (let s := atWork { coreOne with signals := [(1, 15)] } step1
     s.runOf 0 = some 0 ∧ (s.core 0).deepLanded 1 = true) ∧
    (let s := atWork { coreOne with signals := [(1, 15)], deepW := [⟨0, 0, [1]⟩] } step1
     s.runOf 0 = some 0 ∧ (s.core 0).deepLanded 1 = false ∧ s.deep.poison = [] ∧ s.deep.flip = []) := by
  refine ⟨⟨rfl, ?_, rfl⟩, by decide +kernel, by decide +kernel⟩
  intro y hy
  simp [atWork, alive, State.reset, State.resetOf, DeepSt.reset] at hy

def loadOne : LoadFlight := loadOf (work [] [] oneArray) 0 coreOne false 1 0 0 1 0 0

/-- Of `weight_load_ends`: a LOADW and an IMPORT alone in their queue. -/
theorem witness_weight_load : ∀ imp : Bool,
    let f := { loadOne with isImport := imp, nr := 32, count := 1 }
    let s := atWork { coreOne with agbQ := [f] } step1
    (s.core 0).passQ = [] ∧ (s.core 0).mvQ = [] ∧ s.runOf 0 = some 0 ∧ (s.core 0).loadOrdered f = true ∧ loadFed (s.core 0) f = true ∧
    bdSrc f.bd = 0 ∧ NoMarks s 0 := by
  intro imp
  refine ⟨rfl, rfl, rfl, ?_, ?_, ?_, noMarks_work _ _ ⟨rfl, rfl, rfl, rfl⟩⟩ <;> cases imp <;> decide +kernel

def passOne : PassFlight :=
  passOf (work [(1, 1)] [] oneArray |>.core 0) 0 0 [(0, 0)] 1 0 true false false 0 0 0 0

def toVregs : ReadPlan := planOf (work [] [(0, 0x2000000)] oneArray |>.core 0) 0x2000000 [(0, 0)]

def mvOne : MvFlight := mvPassOf (work [] [] oneArray) 0 coreOne 0 0 true false 0 0 0 0

/-- Of `operations_land`: a pass that streamed, a read-out to vector registers, an MVP pass fed, a separate MVP read-out. -/
theorem witness_operations_land :
    (let f := { passOne with started := true }
     let s := atWork { coreOne with passQ := [f] } step1
     let k := s.core 0
     s.runOf 0 = some 0 ∧ NoMarks s 0 ∧ k.tapQ = [] ∧ f.plan = none ∧ f.wrote = false ∧ k.passOrdered f = true ∧ k.phase ≠ .idle) ∧
    (let k := (atWork { coreOne with mvQ := [mvOne] } step1).core 0
     mvOne.isPass = true ∧ mvOne.plan = none ∧ bdSrc mvOne.bd < 2 ∧ mvOne.feed.todo = [] ∧ k.agbQ = []) ∧
    (let f : ReadFlight := ⟨0, [(0, 0)], 0, 1, toVregs, none⟩
     let k := (atWork { coreOne with readQ := [f] } step1).core 0
     k.readOrdered f = true ∧ f.plan.kind = 4 ∧ ({ k with readQ := [] } : Core).readReadyToLand f.seq f.plan f.arrays f.first f.count = true) ∧
    (let f := { mvReadOf coreOne 0 0 0 0 with plan := some { mvPlanOf coreOne 0 0 1 with kind := 1 } }
     let k := (atWork { coreOne with mvQ := [f] } step1).core 0
     f.isPass = false ∧ (∃ pl, f.plan = some pl ∧ pl.toNs = false) ∧ ({ k with mvQ := [] } : Core).mvMayLand f = true) := by
  refine ⟨⟨rfl, noMarks_work _ _ ⟨rfl, rfl, rfl, rfl⟩, rfl, by decide +kernel, by decide +kernel, by decide +kernel, by decide +kernel⟩,
    by decide +kernel, by decide +kernel, by decide +kernel, ⟨_, rfl, by decide +kernel⟩, by decide +kernel⟩

/-- Of `tap_load_lands`: a tap load, and a store load of two bytes to the end of its row. -/
theorem witness_tap_lands :
    (let f : TapFlight := ⟨0, .tap 0 1 [0, 0, 0, 0] 0 0 0 0 0 false [], ⟨0, 4⟩, [], .free, Feed.start .free []⟩
     tapFed { coreOne with tapQ := [f] } f = true) ∧
    (let f : TapFlight := ⟨0, .stld 0 2 16382, ⟨0, 4⟩, [(0, 2)], .free, Feed.start .free [(0, 2)]⟩
     tapFed { coreOne with tapQ := [f] } f = true ∧ f.feed = Feed.start f.tag f.reads ∧ NoMarks (atWork { coreOne with tapQ := [f] } step1) 0 ∧
     Tab.wf 0 coreOne.store = true ∧ 16382 + 2 ≤ 16384) := by
  exact ⟨by decide +kernel, by decide +kernel, rfl, noMarks_work _ _ ⟨rfl, rfl, rfl, rfl⟩, by decide +kernel, by decide +kernel⟩

/-- Of `dma_command_ends`: a command that has delivered. -/
theorem witness_dma_ends :
    let f := { dmaOf coreOne false 0 0 0 0 with phase := 3 }
    let s := atWork { coreOne with dma := upd coreOne.dma 0 (fun d => { d with q := [f] }) } step1
    ((s.core 0).dma[0]).q = [f] ∧ f.todo = [] ∧ f.openTx = 0 ∧ f.walk = none ∧ f.land = [] ∧ (s.core 0).deepW = [] ∧
    s.link.reads.any (fun r => decide (r.core = 0 ∧ r.stream = 0 ∧ r.seq = f.seq)) = false ∧ s.linkHolds 0 0 f.seq = false := by
  decide +kernel

/-- Of `waits_are_released`: a pass that may stream; a core that issues nothing; a held bundle; a bundle of zeros. -/
theorem witness_released :
    (let k : Core := { coreOne with passQ := [passOne] }
     passOne.started = false ∧ passOne.feed = none ∧ k.phase ≠ .idle ∧ Streams (atWork k step1) 0 passOne [[(0, 32)]] ∧
     k.readReady passOne.tag ([[(0, 32)]].flatten.map (fun y => (passOne.win.phys y.1, y.2))) = true) ∧
    State.reset.issuing 0 = false ∧
    (let s := atWork { coreOne with fetched := [[addOp]], timed := true } step1
     s.issuing 0 = true ∧ s.stepOf 0 = some (0, runOne, step1) ∧ Fetched s 0) ∧
    (∀ i, i < 32 → Tab.get 0 ((work [] [] []).core 0).imem i = 0) := by
  refine ⟨⟨by decide +kernel, by decide +kernel, by decide +kernel, ⟨by rw [core_atWork]; decide +kernel, by rw [core_atWork]; decide +kernel,
    by decide +kernel, noMarks_work _ _ ⟨rfl, rfl, rfl, rfl⟩⟩, by decide +kernel⟩, rfl,
    ⟨by decide +kernel, by decide +kernel, fetched_work _ _ rfl rfl⟩, fun i _ => rfl⟩

/-- Of `scrub_beat`: scrub on at a core that runs, its words unmarked and one poisoned; switched off; an SRAM that is not built. -/
theorem witness_scrub :
    (let s := atWork coreOne step1
     s.scrub.enable = true ∧ s.sramClocked (.near 0) = true ∧ s.build.coreMap.getLsbD 0 = true ∧
     (∀ i, i < 8 → Tab.get false (s.core 0).nearPoison i = false) ∧ Tab.wf false (s.core 0).nearPoison = true) ∧
    (let k := { coreOne with nearPoison := [(7, true)] }
     Tab.get false k.nearPoison 7 = true ∧ ∀ i, i < 8 → i ≠ 7 → Tab.get false k.nearPoison i = false) ∧
    ({ alive with scrub := { ScrubSt.reset with enable := false } } : State).scrub.enable = false ∧
    ({ alive with build := { Build.reference with c := 1 } } : State).sramWords (.store 1) = 0 := by
  exact ⟨by decide +kernel, by decide +kernel, rfl, by decide +kernel⟩

/-! ### Witnesses: entries, tables, images, sets -/

theorem free_alive : MailboxFree alive := ⟨rfl, rfl, rfl, by decide, rfl⟩

/-- A descriptor of one strip and its CRC. -/
def goodDesc : List Byte :=
  let b : List Byte := overwrite (overwrite (List.replicate 128 0) 0 [1]) 0x10 [1]
  overwrite b 0x3C (leBytes 4 (crc32c b))

/-- A read of host memory whose page is walked: a leaf of level 1 with every right. -/
def hostRead (bs : List Byte) : ReadResult := { walks := [[⟨0x3F, 0⟩]], bytes := bs, err := none }

/-- Address space 0 with a root that reaches its first gigabytes. -/
def rooted (s : State) : State := { s with xlate := { Xlate.reset with roots := [(0, 37)] } }

/-- A curve of mode 0 with a domain and a scale. -/
def goodCurve : List Byte := overwrite (overwrite zeroCurve 10 [0x80, 0x3F]) 30 [0x80, 0x3F]

/-- Of `queue_and_partition_entries`: an idle engine for the writes, a STARTED step of queue 0 to kill. -/
theorem witness_entries :
    MailboxFree alive ∧ (alive.queue 0).stopped = false ∧ alive.records = [] ∧ alive.steps = [] ∧ alive.fetched = [] ∧
    (alive.queue 0).enable = false ∧
    (let s := atWork coreOne step1
     MailboxFree s ∧ Running s 0 runOne step1 ∧ s.steps.filter (fun y => decide (y.queue = 0 ∧ y.state = .started)) = [step1]) ∧
    (let s := { alive with journal := { JournalSt.reset with nextAseq := 2 } }
     MailboxFree s ∧ 0 < (1 : DWord).toNat ∧ (1 : DWord).toNat < s.journal.nextAseq) ∧
    (1023 : Half).toNat ≤ 1023 ∧ alive.partQuiet 0 = true ∧ (alive.part 0).rt = false ∧
    (let v : Word := 0x7BDEF
     ∀ n : Fin 32, v.getLsbD n.val = true → n.val % 5 ≠ 4 ∧ alive.fault.coreMap.getLsbD n.val = true ∧
       ∀ k : PartId, k ≠ 0 → (alive.part k).coreMask.getLsbD n.val = false) ∧
    alive.dwBad 0 0 = false ∧ descChecks goodDesc none alive.rtImage = none := by
  refine ⟨free_alive, rfl, rfl, rfl, rfl, rfl, ⟨⟨rfl, rfl, rfl, by decide, rfl⟩, ⟨rfl, rfl, rfl⟩, by decide +kernel⟩,
    ⟨⟨rfl, rfl, rfl, by decide, rfl⟩, by decide, by decide⟩, by decide, by decide +kernel, rfl, by decide +kernel, by decide +kernel,
    by decide +kernel⟩

/-- Of `table_and_translation_entries`. -/
theorem witness_tables :
    MailboxFree alive ∧ alive.bookBound 63 = false ∧ (∀ i, i < 16 → finiteBf16 (leAt defaultCodebookBytes (2 * i) 2) = true) ∧
    defaultCodebookBytes.length = 32 ∧
    (let s := { alive with tables := { TableSt.reset with cbMask := 2, cvMask := 1, cvPending := TableSt.reset.cvPending.set 0 goodCurve } }
     MailboxFree s ∧ (∀ i : Fin 64, (2 : DWord).getLsbD i.val = true → s.tables.cbMask.getLsbD i.val = true) ∧
     (∀ i : Fin 32, (1 : Word).getLsbD i.val = true → s.tables.cvMask.getLsbD i.val = true ∧ curveBad s.tables.cvPending[i.val] = false)) ∧
    (let s := { alive with start := { alive.start with pendingDir := some [routine] } }
     MailboxFree s ∧ s.start.pendingDir = some [routine] ∧ s.images = []) ∧
    (alive.astInUse 0 = false ∧ rootBad 1 = false ∧ Tab.wf 0 alive.xlate.roots = true ∧
     alive.xlate.pinLeaf = Vector.replicate 16 none ∧ alive.rt.arm ≠ .armed) ∧
    alive.ownsRwm = true ∧ alive.iwBad 0 = false := by
  refine ⟨free_alive, by decide +kernel, by decide +kernel, by decide +kernel, ⟨⟨rfl, rfl, rfl, by decide, rfl⟩, by decide +kernel, by decide +kernel⟩,
    ⟨⟨rfl, rfl, rfl, by decide, rfl⟩, rfl, by decide +kernel⟩, by decide +kernel, by decide +kernel, by decide +kernel⟩

/-- Of `table_and_translation_entries`: no walk at all, a walk under AST 0 whose read is out, the page of a pin found. -/
theorem witness_walks :
    Unwalked alive (fun _ => True) ∧
    (let w : WalkSt := ⟨0, 0, 1, 4096, false, true⟩
     let f := { dmaOf coreOne false 0 0 0 0 with walk := some w }
     let s := atWork { coreOne with dma := upd coreOne.dma 0 (fun d => { d with q := [f] }) } step1
     MailboxFree s ∧ s.dmaHead 0 0 = some f ∧ f.walk = some w ∧ w.asked = true ∧ (0 : Half).toNat = w.ast ∧ s.ctl.waitWalks = false ∧
     s.xlate.pinLeaf = Vector.replicate 16 none) ∧
    (let s := rooted { alive with queues := upd alive.queues 1 (fun q => { q with cls := 0 }) }
     s.rt.arm ≠ .armed ∧ s.rtQueue = some 1 ∧ s.portCarries 0 = true ∧ ∃ l, (s.portWalk 0 3 (s.queue 1).ast.toNat 0 [⟨0x3F, 0⟩]).2 = some (.ok l)) := by
  have hc : ∀ c : CoreId, alive.core c = Core.reset := by
    intro c
    simp [alive, State.core, State.reset, State.resetOf]
  refine ⟨⟨fun c st f hf => ?_, fun r hr => ?_⟩, ⟨⟨rfl, rfl, rfl, by decide, rfl⟩, rfl, rfl, rfl, rfl, rfl, rfl⟩,
    by decide +kernel, by decide +kernel, by decide +kernel, _, rfl⟩
  · rw [hc] at hf
    simp [Core.reset, DmaStream.reset] at hf
  · cases hr

/-- An image of one bundle with COMMIT and no descriptor record, laid out by Tables 9-1 and 9-2: FLAGS, CORES_MIN. -/
def commitImage (flags : Byte) : List Byte :=
  let code : List Byte := leBytes 4 0x30000000 ++ List.replicate 28 0
  let b : List Byte :=
    leBytes 4 0x4C4D5849 ++ [2, 0, flags, 0] ++ leBytes 4 0xA0 ++ leBytes 4 0 ++ leBytes 4 0x30000 ++ [1, 1, 1, 0] ++ leBytes 2 4 ++
    leBytes 2 3 ++ List.replicate 4 0 ++ leBytes 4 77 ++ List.replicate 28 0 ++
    (leBytes 2 1 ++ [0, 0] ++ leBytes 4 0x80 ++ leBytes 4 32 ++ leBytes 4 (crc32c code)) ++
    (leBytes 2 2 ++ [0, 0] ++ leBytes 4 0xA0 ++ leBytes 4 0 ++ leBytes 4 (crc32c [])) ++
    (leBytes 2 5 ++ [0, 0] ++ leBytes 4 0xA0 ++ leBytes 4 0 ++ leBytes 4 (crc32c [])) ++ List.replicate 16 0 ++ code
  overwrite b 12 (leBytes 4 (crc32c b))

def masked : State := { alive with parts := upd alive.parts 0 (fun p => { p with coreMask := 1 }) }

def loadingImage : State :=
  rooted { masked with parts := upd masked.parts 0 (fun p => { p with loading := some ⟨0, 0xA0, 0⟩ }) }

/-- One whose walk meets an entry that is not valid, and one whose response is an error. -/
def hostFault : ReadResult := { walks := [[⟨0, 0⟩]], bytes := [], err := none }
def hostError : ReadResult := { walks := [[⟨0x3F, 0⟩]], bytes := [], err := some 2 }

theorem fault_of (e : ReadEnd) (h : (match e with | .fault _ _ => true | _ => false) = true) : ∃ f va, e = .fault f va := by
  cases e <;> simp_all

theorem error_of (e : ReadEnd) (h : (match e with | .error _ _ => true | _ => false) = true) : ∃ x pa, e = .error x pa := by
  cases e <;> simp_all

/-- Of `image_loads`: a LOAD without an area and one into an area of 64 KB; an image that verifies and one that does not. -/
theorem witness_images :
    MailboxFree alive ∧ (alive.part 0).loading = none ∧ (alive.part 0).area.2 = 0 ∧
    (let area : Nat × Nat := ({ alive.part 0 with imageArea := 0x00010000 } : Partition).area
     area.2 = 65536 ∧ alive.badPlace area = false ∧ (alive.windows (fun _ => true)).any (overlap area) = false) ∧
    loadingImage.serving = true ∧ loadingImage.awake = true ∧
    loadingImage.portCarries (loadingImage.partPort 0) = true ∧ alive.portCarries 0 = true ∧
    ({ alive with ports := Vector.replicate 4 (Port.reset true) } : State).portCarries 0 = false ∧
    (loadingImage.stewardRead 0 0 0 0 0xA0 (hostRead (commitImage 0))).2 = .data (commitImage 0) ∧
    (loadingImage.stewardRead 0 0 0 0 0xA0 hostFault).2.bytes? = none ∧
    verify (loadingImage.verCtx 0 false false) (commitImage 0) 0xA0 = none ∧
    verify ((rooted alive).verCtx 0 false false) (commitImage 0) 0xA0 = some (0x0602, 0x14) ∧ 0x24 ≤ (commitImage 0).length := by
  refine ⟨free_alive, rfl, rfl, by decide +kernel, rfl, rfl, ?_, ?_, ?_, ?_, ?_, ?_, ?_, ?_⟩ <;> decide +kernel

/-- A HOST version record of partition 0, and a DEEP one of 64 KB at 0 whose source holds four bytes. -/
def hostRecord : List Byte := overwrite (List.replicate 32 0) 1 [1]
def deepRecord : List Byte :=
  overwrite (overwrite (overwrite (overwrite (List.replicate 32 0) 0 [2, 1]) 16 [4]) 20 (leBytes 4 (crc32c [1, 2, 3, 4]))) 26 [1]

/-- Slot 255 with this record's load under way, in an address space with a root. -/
def loadingSet (record : List Byte) : State :=
  rooted { alive with sets := { SetSt.reset with slots := upd SetSt.reset.slots 255 (fun w => { w with
    used := true, pending := some ⟨1, record, false⟩, pendState := .loading }) } }

/-- What the steward's reads of the source end in. -/
def setRead (record : List Byte) (r : ReadResult) : ReadEnd :=
  let got := r.bytes.take (verSrcLen record)
  ((loadingSet record).stewardPages (some (verSrcAst record)) 0 { r with bytes := got } ((loadingSet record).loadPages record got) r.walks).2

/-- Of `weight_sets`: both records, loads that agree, do not translate, err, do not agree, an EQUINOX of slot 0. -/
theorem witness_sets :
    MailboxFree alive ∧ hostRecord.length = 32 ∧ alive.versionBad 0 hostRecord = false ∧ alive.versionBad 0 deepRecord = false ∧
    (alive.slotW 0).retiring = [] ∧ (alive.slotW 0).pendState ≠ .loading ∧
    (let s := loadingSet deepRecord
     s.serving = true ∧ s.awake = true ∧ (s.slotW 255).pendState = .loading ∧ verSrcLen deepRecord = 4 ∧
     (verRegion deepRecord).2 = 65536 ∧ verExpand deepRecord = 0) ∧
    setRead deepRecord (hostRead [1, 2, 3, 4]) = .data [1, 2, 3, 4] ∧ setRead deepRecord hostError ≠ .lost ∧
    (∃ f va, setRead deepRecord hostFault = .fault f va) ∧ (∃ e pa, setRead deepRecord hostError = .error e pa) ∧
    crc32c [1, 2, 3, 4] = verSrcCrc deepRecord ∧ crc32c [1, 2, 3, 5] ≠ verSrcCrc deepRecord ∧
    (∃ out blocks, loadOutput deepRecord [1, 2, 3, 4] = (out, blocks, none)) ∧
    (∃ out blocks e, loadOutput deepRecord [1, 2, 3, 5] = (out, blocks, some e)) ∧
    (let s := { alive with sets := { SetSt.reset with slots := upd SetSt.reset.slots 0 (fun w => { w with
       used := true, pending := some ⟨1, hostRecord, false⟩, pendState := .ready }) } }
     let bs : List Byte := [0, 1] ++ List.replicate 62 0
     MailboxFree s ∧ bs.length = 64 ∧ equinoxHandles bs = [256] ∧
     ∀ h ∈ equinoxHandles bs, (s.slotW (handleSlot h)).gen = h / 256 ∧ (s.slotW (handleSlot h)).pendState = .ready) := by
  have ok : ∀ x : List Byte × Nat × Option (Nat × Option HbcBad), x.2.2 = none → ∃ out blocks, x = (out, blocks, none) := by
    rintro ⟨a, b, c⟩ h
    exact ⟨a, b, by rw [show c = none from h]⟩
  have bad : ∀ x : List Byte × Nat × Option (Nat × Option HbcBad), x.2.2.isSome = true → ∃ out blocks e, x = (out, blocks, some e) := by
    rintro ⟨a, b, c⟩ h
    obtain ⟨e, he⟩ := Option.isSome_iff_exists.mp h
    exact ⟨a, b, e, by rw [show c = some e from he]⟩
  refine ⟨free_alive, by decide, by decide +kernel, by decide +kernel, by decide +kernel, by decide +kernel,
    by decide +kernel, by decide +kernel, by decide +kernel, fault_of _ (by decide +kernel), error_of _ (by decide +kernel),
    by decide +kernel, by decide +kernel, ok _ (by decide +kernel), bad _ (by decide +kernel),
    ⟨⟨rfl, rfl, rfl, by decide, rfl⟩, by decide, by decide +kernel, by decide +kernel⟩⟩

/-! ### Witnesses: the life of a step -/

def fetching : State :=
  rooted { alive with queues := upd alive.queues 0 (fun q => { q with enable := true, tail := 1 }) }

/-- TAIL is one more than the slot count ahead of FETCH. -/
def overran : State := { alive with queues := upd alive.queues 0 (fun q => { q with enable := true, tail := 2 ^ q.slotsLog2.toNat + 1 }) }

/-- Of `doorbells_and_descriptors`: a queue of class 2 and one of class 0, a descriptor that passes and one that fails, an RT doorbell of
the last slot with seven pending, and one refused. -/
theorem witness_doorbells :
    alive.ctl.inReset = false ∧ alive.serving = true ∧ alive.awake = true ∧ (alive.queue 0).cls ≠ 0 ∧
    (({ alive.queue 0 with cls := 0 } : Queue).cls = 0) ∧
    fetching.mayFetch 0 = true ∧ (fetching.stewardRead 0 2 0 0 128 (hostRead goodDesc)).2 = .data goodDesc ∧
    (∃ f a, (fetching.stewardRead 0 2 0 0 128 hostFault).2 = .fault f a) ∧ (∃ e pa, (fetching.stewardRead 0 2 0 0 128 hostError).2 = .error e pa) ∧
    ((overran.queue 0).enable = true ∧ (overran.queue 0).stopped = false ∧ overran.slots 0 < overran.posted 0) ∧
    descChecks goodDesc (some (0, fetching.slots 0)) none = none ∧
    descChecks (List.replicate 128 0) (some (0, fetching.slots 0)) none = some 1 ∧ fetching.records = [] ∧
    (let s := { alive with rt := { RtSt.reset with arm := .armed, slotValid := 0x8000, pend := List.replicate 7 ⟨[], 0⟩ } }
     s.rt.arm = .armed ∧ (15 : Word).toNat < 16 ∧ s.rt.slotValid.getLsbD 15 = true ∧ s.rt.pend.length < 8) ∧
    alive.rt.arm ≠ .armed := by
  refine ⟨rfl, rfl, rfl, ?_, ?_, ?_, ?_, fault_of _ ?_, error_of _ ?_, ?_, ?_, ?_, rfl, ?_, ?_⟩ <;> decide +kernel

def commitRec : ImgRec := ⟨commitImage 0, false, 0, [], 0, 0⟩

def accepted : StepRec := { stepWith [] with image := some commitRec, state := .accepted, starts := 0 }

/-- A partition of core 0 whose queue 0 has a step to dispatch. -/
def waiting : State :=
  rooted { masked with
    steps := [accepted], queues := upd masked.queues 0 (fun q => { q with enable := true }),
    parts := upd masked.parts 0 (fun p => { p with active := some commitRec }) }

/-- A real-time partition of cores 0 to 3, armed, with a doorbell that waits; queue 1 is of class 0. -/
def rtReady : State :=
  { alive with
    parts := upd alive.parts 0 (fun p => { p with rt := true, coreMask := 15, active := some commitRec }),
    queues := upd alive.queues 1 (fun q => { q with cls := 0, enable := true }),
    rt := { RtSt.reset with arm := .armed, pend := [⟨goodDesc, 0⟩] } }

/-- Of `acceptance_and_dispatch` and `how_a_run_ends`: a cluster's code read from host memory, and a resident image's. -/
theorem witness_loads_code :
    (∃ tab, Loads waiting 0 accepted commitRec false [0] [hostRead (slice (commitImage 0) 0x80 32)] tab) ∧
    Loads waiting 0 accepted { commitRec with resident := true } true [0] [] [] := by
  have key : ∀ e : Except (Byte × Nat) (Tab (List Byte)), (match e with | .ok t => decide (t.length = 1) | _ => false) = true →
      ∃ t, e = .ok t ∧ t.length = 1 := by
    intro e h
    cases e with
    | ok t => exact ⟨t, rfl, by simpa using h⟩
    | error _ => cases h
  refine ⟨?_, ?_⟩
  · obtain ⟨t, h1, h2⟩ := key (waiting.codeReads accepted commitRec false (clustersOf [0]) [hostRead (slice (commitImage 0) 0x80 32)]).2
      (by decide +kernel)
    refine ⟨t, ?_⟩
    unfold Loads
    rw [if_neg (by decide)]
    exact ⟨h1, by rw [h2]; decide⟩
  · unfold Loads
    rw [if_pos rfl]
    decide +kernel

/-- Of `acceptance_and_dispatch`; the loads of its hypotheses are those of `witness_loads_code`. -/
theorem witness_dispatch :
    (let s := { alive with fetched := [⟨0, parseDesc goodDesc⟩] }
     s.serving = true ∧ s.awake = true ∧ s.journalFree 17 = true ∧ s.fetched.find? (fun f => decide (f.queue = 0)) = some ⟨0, parseDesc goodDesc⟩) ∧
    ((waiting.part 0).rt = false ∧ waiting.mayDispatch 0 = true ∧ waiting.nextStep 0 = some accepted ∧
     waiting.step? accepted.aseq = some accepted ∧ usesAtomics commitRec = false ∧ (waiting.part 0).active.isSome = true ∧
     commitRec.coresMin ≤ (waiting.maskCores 0 commitRec.arrays).length ∧ waiting.coresFor 0 commitRec ≠ []) ∧
    (∃ args, waiting.stepArgs accepted = .ok args) ∧
    ((atWork coreOne step1).part 0).run.isSome = true ∧
    (rtReady.rtPart = some 0 ∧ rtReady.rtQueue = some 1 ∧ rtReady.rt.arm = .armed ∧ (rtReady.queue 1).part = 0 ∧
     rtReady.mayDispatch 0 = true ∧ rtReady.fault.pairs.toList.any (fun y => y.testing) = false ∧ rtReady.headOf 1 = none ∧
     rtReady.rt.pend = [⟨goodDesc, 0⟩] ∧ rtReady.journalFree 1 = true) := by
  refine ⟨⟨rfl, rfl, by decide +kernel, by decide +kernel⟩, by decide +kernel, ⟨_, rfl⟩, rfl, by decide +kernel⟩

/-- Of `what_stops_a_run`: a running step, alone and with a better one in another queue; a commit phase whose time is up. -/
theorem witness_stops :
    (let s := atWork coreOne step1
     Running s 0 runOne step1 ∧ s.runOf 0 = some 0 ∧ (s.core 0).phase = .running ∧ (s.part 0).rt = false ∧
     (∃ c ∈ runOne.cores, (s.core c).phase ≠ .committed) ∧ step1.kills < 2) ∧
    ({ atWork coreOne step1 with parts := upd (atWork coreOne step1).parts 0 (fun p => { p with rt := true }) } : State).rtPart = some 0 ∧
    (let y := { accepted with queue := 1, cls := 1, aseq := 2 }
     let s := { atWork coreOne step1 with steps := [step1, y] }
     s.dispatchable 1 = some y ∧ y.part = 0 ∧ (1 : QueueId) ≠ step1.queue ∧ effClass y < step1.cls ∧ Running s 0 runOne step1) ∧
    2 ≤ ({ step1 with kills := 2 } : StepRec).kills ∧
    (let r := { runOne with phase := .commit }
     let s := { atWork coreOne step1 with
       parts := upd alive.parts 0 (fun p => { p with run := some r }), queues := upd alive.queues 0 (fun q => { q with enable := true }) }
     (s.part 0).run = some r ∧ s.step? r.aseq = some step1 ∧ (s.queue step1.queue).enable = true) := by
  refine ⟨⟨⟨rfl, rfl, rfl⟩, ?_, rfl, rfl, ?_, ?_⟩, ?_, ⟨?_, rfl, ?_, ?_, ⟨rfl, rfl, rfl⟩⟩, ?_, rfl, rfl, ?_⟩ <;> decide +kernel

def tokenOf (ports : BitVec 4) : Token :=
  { core := 0, flags := 0, narrowed := 0, clipped := 0, ports := ports, strips := 0, stripCclk := 0 }

def withRun (r : RunSt) : State :=
  { atWork coreOne step1 with
    parts := upd alive.parts 0 (fun p => { p with coreMask := 1, run := some r }), queues := upd alive.queues 0 (fun q => { q with enable := true }) }

/-- An image with a section of type 3, and a step of it whose policy asks for a wide twin when a lane saturates. -/
def twinImage : ImgRec :=
  ⟨overwrite (overwrite (List.replicate 96 0) 0x1A [1]) 0x40 [3], true, 0, [], 0, 0⟩

def stepTwin : StepRec :=
  { step1 with image := some twinImage,
               tables := { TableSt.reset.active with policy := Vector.replicate 8 ⟨0, fSAT, true⟩ } }

/-- Of `how_a_run_ends`: the last token of a run that saturated, its twin served. -/
theorem witness_twin :
    let r := { runOne with arrived := [{ core := 0, flags := fSAT, narrowed := 0, clipped := 0, ports := 0, strips := 0, stripCclk := 0 }] }
    let w : RunSt := { r with arrived := [], taken := r.arrived, ended := 0 }
    let s := { atWork coreOne stepTwin with parts := upd alive.parts 0 (fun p => { p with coreMask := 1, run := some r }) }
    (s.part 0).run = some r ∧ s.step? r.aseq = some stepTwin ∧ s.records = [] ∧ r.taken.length + 1 = r.cores.length ∧
    triggered stepTwin.tables.policy[0] w = true ∧ stepTwin.rt = false ∧ stepTwin.tables.policy[0].twin = true ∧
    (findSection twinImage.bytes 3).isSome = true ∧ (∃ args, s.stepArgs stepTwin = .ok args) ∧ s.inMidwinter = false ∧
    s.deepPoisonIn (s.codeRange 0 twinImage true).1 (s.codeRange 0 twinImage true).2 = none := by
  refine ⟨rfl, by decide +kernel, rfl, rfl, by decide +kernel, rfl, rfl, by decide +kernel, ⟨_, rfl⟩, rfl, by decide +kernel⟩

/-- Of `how_a_run_ends`: a token that is not the last, the last one with and without a port to flush, drains, and a head step that ages. -/
theorem witness_ends :
    (let r := { runOne with cores := [0, 1], arrived := [tokenOf 0] }
     ((withRun r).part 0).run = some r ∧ (withRun r).step? r.aseq = some step1 ∧ (withRun r).records = [] ∧
     r.taken.length + 1 < r.cores.length) ∧
    (let r := { runOne with arrived := [tokenOf 0] }
     let w : RunSt := { r with arrived := [], taken := [tokenOf 0], ended := 0 }
     let s := { withRun r with ports := State.reset.ports }
     r.taken.length + 1 = r.cores.length ∧ triggered step1.tables.policy[0] w = false ∧ w.ports = [] ∧
     s.portUp (s.partPort 0) = false ∧ s.inMidwinter = false) ∧
    (let r := { runOne with arrived := [tokenOf 8] }
     let w : RunSt := { r with arrived := [], taken := [tokenOf 8], ended := 0 }
     triggered step1.tables.policy[0] w = false ∧ w.ports = [3] ∧ ((withRun r).freeId 3 (qosOf false 2) false).isSome = true) ∧
    (let r := { runOne with phase := .draining (.kill 1) }
     (withRun r).writesOpen r = false ∧ ((withRun r).queue step1.queue).enable = true ∧ r.aseq ≠ 0) ∧
    (let r := { runOne with phase := .draining (.kill 1) }
     let x : Txn := ⟨0, .write, 0, 1, 1, .dma 0 0 0 0 64 0, 0, [], []⟩
     ({ withRun r with ports := upd alive.ports 0 (fun p => { p with txns := [x] }) } : State).writesOpen r = true) ∧
    (waiting.dispatchable 0 = some accepted ∧ waiting.journal.ageLimit ≠ 0 ∧ (waiting.part 0).run = none) := by
  decide +kernel

/-- A real-time image in the partition's area. -/
def rtImageRec : ImgRec := ⟨imageHead 2 1, true, 0, [], 0, 0⟩

def arming : State :=
  { rtReady with
    rt := { RtSt.reset with arm := .arming },
    parts := upd rtReady.parts 0 (fun p => { p with active := some rtImageRec }) }

/-- Of `arming`: every state of ARM_STATE, an image that passes the checks of R281, none, and an RT step still open. -/
theorem witness_arming :
    rtReady.rtPart = some 0 ∧ MailboxFree rtReady ∧ rtReady.rt.arm = .armed ∧
    (∀ a : ArmState, MailboxFree { rtReady with rt := { RtSt.reset with arm := a } }) ∧ (2047 : Word).toNat < 2 ^ 11 ∧
    (let s := { arming with power := { arming.power with ordered := 0, pstate := 0 } }
     Alone s ∧ s.power.capP ≤ imgFloor rtImageRec.bytes ∧ s.floorMet rtImageRec = true) ∧
    (arming.awake = true ∧ (arming.part 0).run = none ∧ (arming.part 0).pendingImg = none ∧ arming.armCheck 0 (some rtImageRec) = 0 ∧
     arming.armCheck 0 none = 1 ∧ arming.rt.pend = [] ∧ arming.steps = []) ∧
    ∃ x ∈ [{ step1 with rt := true }], x.rt = true := by
  refine ⟨by decide +kernel, ⟨rfl, rfl, rfl, by decide, rfl⟩, rfl, fun a => ⟨rfl, rfl, rfl, nofun, rfl⟩, by decide,
    ⟨⟨by decide +kernel, by decide +kernel, by decide +kernel⟩, by decide +kernel, by decide +kernel⟩, by decide +kernel,
    ⟨_, List.mem_singleton.2 rfl, rfl⟩⟩

/-! ### Witnesses: ports and the Stack Link -/

/-- A core whose stream 0 has this command, with a transaction of port 0 and identifier 5 open. -/
def portWith (f : DmaFlight) (op : PortOp) (o : Owner) (beats : Nat) : State :=
  { atWork { coreOne with dma := upd coreOne.dma 0 (fun d => { d with q := [f] }) } step1 with
    ports := upd alive.ports 0 (fun p => { p with txns := [⟨5, op, 0, beats, 1, o, 0, [], []⟩] }) }

def flightOne : DmaFlight := dmaOf coreOne false 0 0 0 0

theorem idle_port (f : DmaFlight) (op : PortOp) (o : Owner) (beats : Nat) : PortIdle (portWith f op o beats) 0 0 0 := by
  refine ⟨rfl, rfl, rfl, ?_⟩
  · intro i t h
    fin_cases i <;> fin_cases t <;> first | rfl | exact absurd rfl h

/-- Of `port_responses`: a read with beats to come, its last beat among others, a walk, a write, a flush, an error, a read of nobody, and
the three ways a port has no such transaction. -/
theorem witness_responses :
    (let s := portWith { flightOne with phase := 1, openTx := 2 } .read (.dma 0 0 0 0 128 0) 2
     PortIdle s 0 0 0 ∧ (0 : PortId).val < s.build.c ∧ s.portCarries 0 = true ∧ ∃ x, s.txn? 0 5 = some x ∧ x.qos ≠ 3 ∧ x.op = .read ∧
     x.rdata.length + 64 < 64 * x.beats) ∧
    (let s := portWith { flightOne with phase := 1, openTx := 2 } .read (.dma 0 0 0 0 64 0) 1
     ∃ x f, s.txn? 0 5 = some x ∧ 64 * x.beats ≤ x.rdata.length + 64 ∧ x.owner = .dma 0 0 0 0 64 0 ∧ s.dmaHead 0 0 = some f ∧ f.seq = 0 ∧
     f.phase = 1 ∧ f.openTx = 0 + 2 ∧ f.todo = [] ∧ f.walk = none) ∧
    (let w : WalkSt := ⟨0, 0, 1, 4096, false, true⟩
     let s := portWith { flightOne with walk := some w } .read (.walkStream 0 0) 1
     ∃ x f l, s.txn? 0 5 = some x ∧ x.beats = 1 ∧ s.dmaHead 0 0 = some f ∧ f.walk = some w ∧ s.stepOf 0 = some (0, runOne, step1) ∧
     bitAt 0 0 = false ∧ walkRead w 0x3F 0 = .leaf l ∧ Tab.wf [] s.xlate.streams = true) ∧
    (let s := portWith { flightOne with phase := 3, openTx := 1 } .write (.dma 0 0 0 0 64 0) 1
     ∃ x f, s.txn? 0 5 = some x ∧ x.op.writes = true ∧ s.dmaHead 0 0 = some f ∧ f.phase = 3 ∧ f.openTx = 0 + 1 ∧ f.todo = [] ∧
     s.stepOf 0 = some (0, runOne, step1)) ∧
    (let r := { runOne with phase := .flushing [] 2 }
     let s := { withRun r with ports := upd alive.ports 0 (fun p => { p with txns := [⟨5, .flush, 0, 1, 1, .dataFlush 0, 0, [], []⟩] }) }
     s.dmaHead 0 0 = none ∧ (s.part 0).run = some r ∧ ∃ x, s.txn? 0 5 = some x ∧ x.op = .flush ∧ x.owner = .dataFlush 0) ∧
    (State.reset.portCarries 0 = false ∧ alive.portCarries 0 = true ∧ alive.txn? 0 5 = none ∧
     ({ alive with build := ⟨1, 4, 4, 128⟩ } : State).build.c ≤ (1 : PortId).val) := by
  refine ⟨⟨idle_port _ _ _ _, by decide, rfl, _, rfl, by decide, rfl, by decide⟩,
    ⟨_, _, rfl, by decide, rfl, rfl, rfl, rfl, rfl, rfl, rfl⟩,
    ⟨_, _, _, rfl, rfl, rfl, rfl, rfl, by decide, rfl, rfl⟩, ⟨_, _, rfl, rfl, rfl, rfl, rfl, rfl, rfl⟩,
    ⟨rfl, rfl, _, rfl, rfl, rfl⟩, by decide +kernel⟩

/-- Of `port_states`: a timeout, a port in each state, supplies on and off, PCLK reset on and off, a claim and a write without its key. -/
theorem witness_ports :
    (∃ x, (portWith flightOne .read .dropped 1).txn? 0 5 = some x) ∧ (portWith flightOne .read .dropped 1).maskMeets 0 0 = true ∧
    masked.maskMeets 0 0 = true ∧ (alive.port 3).state = .up ∧ (3 : PortId).val < alive.build.c ∧
    alive.power.pwrAck.getLsbD 3 = true ∧ (State.reset.port 3).state = .down ∧ State.reset.power.pwrAck.getLsbD 3 = false ∧
    (∀ (st : PortState) (b : Bool), let s := { alive with ports := upd alive.ports 3 (fun p => { p with state := st, autoResume := b }) }
     (s.port 3).state = st ∧ (s.port 3).autoResume = b ∧ s.records = [] ∧ MailboxFree s) ∧
    (0xA77A0001 : Word).toNat / 65536 = 0xA77A ∧ BitVec.ofNat 16 (0xA77A0001 : Word).toNat ≠ 0 ∧ (0xA77B0001 : Word).toNat / 65536 ≠ 0xA77A ∧
    (let s := { alive with ctl := { CtlSt.reset with inReset := true } }
     s.ctl.inReset = true ∧ ∀ l : LinkId, (s.link.ports[l.val]).phyIn = false) := by
  refine ⟨⟨_, rfl⟩, by decide +kernel, by decide +kernel, rfl, by decide, by decide, rfl, by decide, ?_, by decide, by decide, by decide, rfl, ?_⟩
  · intro st b
    exact ⟨rfl, rfl, rfl, ⟨rfl, rfl, rfl, nofun, rfl⟩⟩
  · decide +kernel

/-- A serving engine whose east port is so. -/
def linked (p : LinkPort) : State := { alive with link := { LinkSt.reset 0 true false with ports := #v[p, LinkPort.reset false] } }

def portUp : LinkPort := { LinkPort.reset true with state := .up, phyIn := true, phyUp := true }

/-- A group of idle slots with a sequence number and its CRC, or another one. -/
def groupOf (seq crcAdd : Nat) : List Flit :=
  let fs := List.replicate 7 (0 : Flit)
  fs ++ [BitVec.ofNat 256 (seq * 2 ^ 32 + (groupCrc fs (seq * 2 ^ 32) + crcAdd) % 2 ^ 32 * 2 ^ 224)]

/-- A message of a type and of a source engine with DST 0 and these ARG, OFFSET, STATUS, REFUSED. -/
def msgOf (typ src arg status refused : Nat) (data : List Flit) : Msg :=
  ⟨msgHeader typ src 0 0 0 0 data.length 0 arg status refused 0, data⟩

/-- Of `link_layer`: a group with a wrong CRC, one out of sequence, the one that follows ACK_SEQ 0xFFF; groups to replay; HELLO of the
neighbour and of another engine; ports in and out of use. -/
theorem witness_link_layer :
    (linked portUp).linkOn = true ∧ State.reset.linkOn = false ∧ portUp.active = true ∧
    (∀ fs ∈ [groupOf 0 1, groupOf 1 0, groupOf 0 0], fs.length = 8) ∧
    (let tail := ((groupOf 0 1).getD 7 0).toNat; groupCrc ((groupOf 0 1).take 7) tail ≠ fld tail 255 224) ∧
    (let tail := ((groupOf 1 0).getD 7 0).toNat
     groupCrc ((groupOf 1 0).take 7) tail = fld tail 255 224 ∧ fld tail 43 32 ≠ (portUp.ackSeq + 1) % 4096) ∧
    (let tail := ((groupOf 0 0).getD 7 0).toNat
     groupCrc ((groupOf 0 0).take 7) tail = fld tail 255 224 ∧ fld tail 43 32 = (portUp.ackSeq + 1) % 4096) ∧
    bitAt ((groupOf 0 0).getD 7 0).toNat 56 = false ∧ portUp.noProgress < (linked portUp).link.replayLimit.toNat ∧
    (linked portUp).link.replayLimit.toNat ≤ ({ portUp with noProgress := 65535 } : LinkPort).noProgress ∧
    portUp.wired = false ∧ (linked portUp).pins.inst.val = 0 ∧
    ({ portUp with replayBuf := [⟨0, 0, [], 0, 0⟩] } : LinkPort).replayBuf ≠ [] ∧ portUp.nextSlot.isNone = true ∧ portUp.replayBuf.length < 64 ∧
    (∀ src ∈ [1, 2], let m := msgOf 12 src 0 0 0 []
     (linked { portUp with rxMgt := [m], state := .down }).link.ports[0].rxMgt = [m] ∧ hType m.hdr = 12 ∧ hSrc m.hdr = src) ∧
    (linked portUp).neighbour 0 = some 1 ∧ portUp.helloHeard = false ∧ (LinkPort.reset false).state = .unconnected ∧
    (LinkPort.reset true).phyUp = false ∧ (linked portUp).ctl.inReset = false ∧ ([] : List Flit).length ≠ 8 := by
  decide +kernel

/-- A port whose PHY is down. -/
def portQuiet : LinkPort := { LinkPort.reset true with state := .up }

/-- Inbound window 0 open to engine 1 for reads and writes, 64 KB at 0. -/
def windowed (m : Msg) : State :=
  { linked { portQuiet with rxReq := [m] } with link := { LinkSt.reset 0 true false with
      ports := #v[{ portQuiet with rxReq := [m] }, LinkPort.reset false], iw := (Vector.replicate 4 0).set 0 0x000100000207 } }

/-- Of `link_requests`: a WRITE of a flit with one byte enabled, a READ of 32 bytes, both refused from engine 2, a FLUSH, a CHAIN of queue 63. -/
theorem witness_requests :
    (∀ m ∈ [msgOf 1 1 1 0 0 [0], msgOf 2 1 32 0 0 [], msgOf 1 2 1 0 0 [0], msgOf 2 2 32 0 0 [], msgOf 3 1 0 0 0 [], msgOf 4 1 63 0 0 []],
      (windowed m).linkOn = true ∧ (windowed m).link.ports[0].rxReq = [m] ∧ (∀ l : LinkId, ((windowed m).link.ports[l.val]).phyUp = false) ∧
      ((windowed m).link.ports[((windowed m).routeTo (hSrc m.hdr)).val]).state = .up ∧ hOffset m.hdr % 32 = 0 ∧
      (windowed m).deepPoisonIn 0 32 = none) ∧
    (windowed (msgOf 1 1 1 0 0 [0])).windowDsa 0 1 0 32 true = some 0 ∧ (windowed (msgOf 1 1 1 0 0 [0])).windowDsa 0 2 0 32 true = none ∧
    (windowed (msgOf 1 1 1 0 0 [0])).windowDsa 0 1 0 32 false = some 0 ∧ (windowed (msgOf 1 1 1 0 0 [0])).windowDsa 0 2 0 32 false = none ∧
    (windowed (msgOf 1 1 1 0 0 [0])).windowDsa 0 1 65504 32 true = some 65504 ∧
    (windowed (msgOf 1 1 1 0 0 [0])).windowDsa 0 1 65536 32 true = none ∧
    (let s := windowed (msgOf 2 1 32 0 0 [])
     (s.link.ports.toList.map (fun q => q.trackers s.pins.inst.val)).sum < 64 ∧
     ({ s with deep := { s.deep with poison := [(0, true)] } } : State).deepPoisonIn 0 32 = some 0) ∧
    hType (msgOf 1 1 1 0 0 [0]).hdr = 1 ∧ hType (msgOf 2 1 32 0 0 []).hdr = 2 ∧ hArg (msgOf 2 1 32 0 0 []).hdr = 32 ∧
    hType (msgOf 3 1 0 0 0 []).hdr = 3 ∧ hType (msgOf 4 1 63 0 0 []).hdr = 4 ∧ hArg (msgOf 4 1 63 0 0 []).hdr < 64 := by
  decide +kernel

/-- A read of core 0, stream 0, from engine 1, and its answer at the east port. -/
def answered (m : Msg) (master : Bool) (id : Byte) : State :=
  { portWith { flightOne with phase := 1, openTx := 1 } .read .dropped 1 with
    pins := { PinSt.reset with master := master }
    link := { LinkSt.reset 0 true false with
      ports := #v[{ portQuiet with rxRsp := [m], rxMgt := [m] }, LinkPort.reset false], stackState := 1, masterId := id,
      reads := [⟨0, 1, 0, 0, 0, 0, 32, 0, true⟩], flushes := [⟨0, 1, 0, true⟩], relay := none } }

def relayed : PdReq :=
  { write := false, async := false, remote := true, engine := 1, index := 0, sub := 0, len := 0, offset := 0, data := [],
    fromMaster := false, ext := none }

/-- Of `link_responses_and_control`: no expansion and no other request waits. -/
theorem witness_waits_for_none : ∀ m, ExpanderIdle (answered m true 0) 0 ∧ RemoteIdle (answered m true 0) 0 := by
  intro m
  have h : ∀ d st, ((answered m true 0).dmaHead d st).all (fun f => !f.exp && f.todo.isEmpty) = true := by
    intro d st
    fin_cases d <;> fin_cases st <;> rfl
  have hp : ∀ d : CoreId, d ≠ 0 → ((answered m true 0).core d).phase ≠ .committed := by
    intro d hd
    fin_cases d <;> first | exact absurd rfl hd | (intro e; cases e)
  refine ⟨fun j _ => ?_, ⟨fun d hd e => absurd e (hp d hd), fun d st f hf => ?_⟩⟩
  · unfold State.expReady
    dsimp only
    have := h (expStream (clusterOf 0) j).1 (expStream (clusterOf 0) j).2
    cases e : (answered m true 0).dmaHead (expStream (clusterOf 0) j).1 (expStream (clusterOf 0) j).2 with
    | none => rfl
    | some f =>
      rw [e] at this
      simp only [Option.all_some, Bool.and_eq_true, Bool.not_eq_true'] at this
      simp [this.1]
  · have := h d st
    rw [hf] at this
    simp only [Option.all_some, Bool.and_eq_true, List.isEmpty_iff] at this
    simp [this.2]

/-- Of `link_responses_and_control`: RDATA of each status, FLUSH_DONE with and without refusals, management messages at the master and at
another engine, a relayed transaction, an order. -/
theorem witness_responses_link :
    (∀ st ∈ [0, 1, 2], let m := msgOf 8 1 0 st 0 [0]
     let s := answered m true 0
     s.linkOn = true ∧ (s.link.ports[0]).rxRsp = [m] ∧ hType m.hdr = 8 ∧ hStatus m.hdr = st ∧
     s.link.reads.find? (fun r => decide (r.tag = hTag m.hdr ∧ r.engine = hSrc m.hdr)) = some ⟨0, 1, 0, 0, 0, 0, 32, 0, true⟩ ∧
     s.stepOf 0 = some (0, runOne, step1) ∧ (s.core 0).phase ≠ .committed ∧
     (∃ f ∈ s.dmaHead 0 0, f.seq = 0 ∧ f.phase = 1 ∧ f.openTx ≠ 0 ∧ f.todo = [] ∧ f.walk = none)) ∧
    (∀ n ∈ [0, 65535], let m := msgOf 9 1 0 0 n []
     let s := answered m true 0
     hType m.hdr = 9 ∧ hRefused m.hdr = n ∧ (s.core 0).phase ≠ .committed ∧
     s.link.flushes.find? (fun r => decide (r.tag = hTag m.hdr ∧ r.engine = hSrc m.hdr)) = some ⟨0, 1, 0, true⟩) ∧
    (∀ t ∈ [13, 14, 15], hType (msgOf t 1 0 0 0 []).hdr = t) ∧
    (let s := answered (msgOf 13 1 0 0 0 []) false 1
     s.formed = true ∧ s.pins.master = false ∧ s.awake = true ∧ s.link.masterId.toNat = hSrc (msgOf 13 1 0 0 0 []).hdr ∧ s.link.relay.isNone = true) ∧
    (let s := { alive with link := { LinkSt.reset 0 true false with relay := some (relayed, 0) } }
     s.link.relay = some (relayed, hTag (msgOf 14 1 0 0 0 []).hdr) ∧ relayed.engine = hSrc (msgOf 14 1 0 0 0 []).hdr ∧ s.ctl.attachWaits = []) ∧
    (let s := { alive with link := { LinkSt.reset 0 true false with stackState := 1, order := some (3, 0) } }
     s.link.order = some (3, 0) ∧ s.formed = true ∧ s.power.change = none ∧ pst 3 ≠ s.power.ordered ∧ pst 3 < s.power.pstate ∧
     (2 : Fin 6) < pst 3) := by
  decide +kernel

/-! ### Witnesses: seasons, power, health, starts, control port, pins -/

/-- `alive` with other power and start states. -/
def inSeason (f : PowerSt → PowerSt) (g : StartSt → StartSt) : State := { alive with power := f alive.power, start := g alive.start }

theorem alone_alive : Alone { alive with power := { alive.power with ordered := 0 } } := ⟨by decide, by decide, by decide +kernel⟩

/-- Of `seasons`. -/
theorem witness_seasons :
    (alive.idle = true ∧ alive.power.idleTimeout ≠ 0) ∧
    (∀ n, n ≤ 5 → let s := inSeason (fun p => { p with season := .autumn, autumnStage := n, ordered := 0, wakeAt := 1 }) id
      s.power.season = .autumn ∧ (∀ p, (s.part p).run = none) ∧ s.serving = true ∧ Alone s ∧ NothingWaits s ∧
      ∀ k, k ≠ .phyRise → s.canWake k = true) ∧
    (linked portUp).canWake .phyRise = true ∧
    (∀ th, (inSeason (fun p => { p with season := .winter, thermal := th }) id).serving = true) ∧
    (let s := inSeason (fun p => { p with season := .thaw, ordered := 0 }) (fun y => { y with fwCrc := 0 })
     s.serving = true ∧ s.powered = true ∧ s.reloadPort = true ∧ crc32c ([] : List Byte) = s.start.fwCrc.toNat ∧
     crc32c ([1] : List Byte) ≠ s.start.fwCrc.toNat ∧ slotLength (s.slotRecord s.start.activeSlot) = 0 ∧
     Alone s ∧ NothingWaits s ∧ PhysDown s ∧ s.records = [] ∧
     (s.physRead 0 (slotPa (s.slotRecord s.start.activeSlot)) 0 (.data [])).2 = .data []) ∧
    (let s := inSeason (fun p => { p with season := .thaw }) (fun y => { y with fwCrc := 1, slotA := overwrite y.slotA 8 [1] })
     s.serving = true ∧ s.powered = true ∧ s.reloadPort = true ∧
     slotLength (s.slotRecord s.start.activeSlot) = 1 ∧ crc32c [1] ≠ s.start.fwCrc.toNat ∧
     (s.physRead 0 (slotPa (s.slotRecord s.start.activeSlot)) 1 (.data [1])).2 = .data [1] ∧
     ∃ e pa, (s.physRead 0 (slotPa (s.slotRecord s.start.activeSlot)) 1 (.portError 2)).2 = .error e pa) ∧
    (let s := inSeason (fun p => { p with season := .autumn, autumnStage := 4, pwrReq := 1 }) id
     s.power.season = .autumn ∧ s.power.autumnStage = 4 ∧ s.power.pwrReq.toNat ≤ 1) ∧
    (let s := rooted (inSeason id (fun y => { y with libLast := some ⟨0, 1, 0, crc32c [1]⟩, storesLost := true }))
     s.serving = true ∧ s.awake = true ∧ s.portCarries 0 = true ∧ (s.stewardRead 0 0 0 0 1 (hostRead [1])).2 = .data [1] ∧
     (s.stewardRead 0 0 0 0 1 (hostRead [2])).2 = .data [2] ∧ crc32c [1] = (⟨0, 1, 0, crc32c [1]⟩ : LibLoad).crc ∧
     crc32c [2] ≠ (⟨0, 1, 0, crc32c [1]⟩ : LibLoad).crc) := by
  refine ⟨⟨by decide +kernel, by decide⟩, ?_, by decide, fun th => rfl, ?_, ⟨?_, ?_, ?_, ?_, ?_, ?_, error_of _ ?_⟩, by decide +kernel, ?_⟩
  · intro n _
    refine ⟨rfl, ?_, rfl, ⟨rfl, rfl, rfl⟩, ⟨rfl, rfl, nofun, nofun⟩, ?_⟩
    · intro p
      fin_cases p <;> rfl
    · intro k hk
      cases k <;> first | rfl | exact absurd rfl hk
  · refine ⟨rfl, by decide +kernel, by decide +kernel, by decide +kernel, by decide +kernel, by decide +kernel, ⟨rfl, rfl, rfl⟩, ⟨rfl, rfl, by decide, by decide⟩, ?_, rfl, rfl⟩
    intro l
    fin_cases l <;> rfl
  all_goals decide +kernel

/-- Of `supplies_and_pstate`. -/
theorem witness_supplies :
    (∀ cl : Fin 4, cl.val < alive.build.c ∧ alive.power.pwrReq.getLsbD cl.val = true ∧ alive.power.pwrAck.getLsbD cl.val = true ∧
      State.reset.power.pwrReq.getLsbD cl.val = false) ∧
    alive.start.state = .running ∧ (inSeason id (fun y => { y with state := .probation })).start.state = .probation ∧
    (let s := inSeason (fun p => { p with change := some ⟨3, true, false⟩, alertLimit := true }) id
     s.power.change = some ⟨3, true, false⟩ ∧ s.power.alertLimit = true) ∧
    (∀ o : Fin 6, let s := inSeason (fun p => { p with change := some ⟨3, true, true⟩, ordered := o }) id
     s.power.change = some ⟨3, true, true⟩ ∧ s.power.ordered = o) ∧ pst 3 = 3 ∧ (3 : Fin 6) ≠ 4 ∧
    alive.power.change.isNone = true ∧ alive.booted = true ∧ alive.serving = true ∧ alive.power.season ≠ .winter ∧ alive.power.season ≠ .thaw := by
  decide +kernel

/-- Of `estimator_and_thermal`: an estimate above and below the cap, before and after 64 ticks, a sample period with and without samples, k
inside and outside its clamp, every thermal band. -/
theorem witness_estimator :
    alive.serving = true ∧ alive.awake = true ∧
    (let s := inSeason (fun p => { p with capMw := 1, timebase := 64, pstate := 0 }) id
     s.power.capMw.toNat < (s.estimate []).1 - s.pendingParks * perP s.power.full 0 ∧ s.power.lastAct + 64 ≤ s.now ∧
     max s.power.capP s.power.pstate.val < s.link.stackFloor) ∧
    (let s := inSeason (fun p => { p with capMw := 1, timebase := 63, pstate := 0 }) id
     s.power.capMw.toNat < (s.estimate []).1 - s.pendingParks * perP s.power.full 0 ∧ s.now < s.power.lastAct + 64) ∧
    ((alive.estimate []).1 - alive.pendingParks * perP alive.power.full alive.power.pstate.val ≤ alive.power.capMw.toNat ∧
     alive.power.calm + 1 < alive.power.capHold.toNat) ∧
    alive.power.tlmSamples = 0 ∧
    (∀ e ∈ [1, 2], let w := { alive.power with tlmSamples := 1, tlmLsb := 1, tlmEnergy := e, estSum := 2 }
     w.tlmSamples ≠ 0 ∧ w.tlmLsb ≠ 0 ∧ w.estSum ≠ 0 ∧ 32768 ≤ w.tlmEnergy * 65536 / w.estSum ∧ w.tlmEnergy * 65536 / w.estSum ≤ 131072) ∧
    (∀ e ∈ [0, 9], let k := e * 65536 / 2; k < 32768 ∨ 131072 < k) ∧
    (∀ t ∈ [94, 95, 104, 105, 114, 115], alive.hottest (List.replicate 18 (2 * t : Int)) = some (2 * t)) ∧
    alive.power.tWarn.toInt = 95 ∧ alive.power.tCrit.toInt = 105 ∧ alive.power.thermal = .normal ∧
    (inSeason (fun p => { p with thermal := .shutdown }) id).power.wakeHeld = false := by
  decide +kernel

/-- A pair of cores 0 and 1 with the hot spare 4, waiting for the self-test or not. -/
def paired (testing : Bool) : State :=
  { atWork coreOne step1 with
    parts := upd (atWork coreOne step1).parts 0 (fun p => { p with rt := true })
    fault := { FaultSt.reset Build.reference with
      pairs := (Vector.replicate 2 ⟨none, none, none, 0, false⟩).set 0 ⟨some 0, some 1, none, 0, testing⟩, hotSpare := some 4 } }

/-- Of `lockstep_and_health`. -/
theorem witness_lockstep :
    ((paired false).rtPart = some 0 ∧ Running (paired false) 0 runOne step1 ∧ ((paired false).fault.pairs[0]).lead = some 0 ∧
     ((paired false).fault.pairs[0]).checker = some 1) ∧
    (((paired true).fault.pairs[0]).testing = true ∧ ((paired true).fault.pairs[0]).stage = 0 ∧ (paired true).fault.hotSpare = some 4) ∧
    (masked.testable 0 = true ∧ masked.rtRole 0 = false ∧ alive.testable 0 = false) ∧
    (alive.fault.agingWarn.toNat = 50 ∧ alive.fault.agingRetire.toNat = 20 ∧ (alive.fault.cores[0]).agingBelow = false ∧
     alive.usable 0 = true ∧ alive.rtRole 0 = false ∧ (indexOf 0).val < 4 ∧ alive.spareFree (clusterOf 0) = true) ∧
    ((∃ j : Fin 4, j ≠ 0 ∧ (alive.fault.stewards[j.val]).faulted = false ∧ (alive.fault.stewards[j.val]).retired = false) ∧
     (alive.fault.stewards[0]).retired = false ∧ alive.booted = true) ∧
    (let s := { alive with fault := { alive.fault with stewards := (Vector.replicate 4 (⟨true, false, [], false⟩ : Steward)).set 0 Steward.reset } }
     (∀ j : Fin 4, j ≠ 0 → (s.fault.stewards[j.val]).faulted = true ∨ (s.fault.stewards[j.val]).retired = true) ∧
     (s.fault.stewards[1]).faulted = true ∧ (s.fault.stewards[1]).retired = false ∧ s.start.update.isNone = true ∧ s.start.state = .running) ∧
    (let s := { alive with parts := upd alive.parts 0 (fun p => { p with rate := ⟨16, [(0, (3, 100)), (1, (1, 100))]⟩ }) }
     let all := (s.part 0).rate.rates.filter (fun y => decide (0 < y.2.2))
     16 ≤ (s.part 0).rate.steps ∧ 2 ≤ all.length ∧ (all.map (·.1)).Nodup ∧ s.fault.slowRetire = 0 ∧ slowRate all (1, (1, 100)) = true ∧
     slowRate all (0, (3, 100)) = false) := by
  refine ⟨⟨by decide +kernel, ⟨rfl, rfl, rfl⟩, rfl, rfl⟩, by decide +kernel, by decide +kernel, by decide +kernel, by decide +kernel,
    by decide +kernel, by decide +kernel⟩

/-- A start in a phase. -/
def startingAt (n : Nat) : State :=
  inSeason id (fun y => { y with state := .starting, phase := n, cold := false, slotA := overwrite y.slotA 20 [1] })

/-- Fuses that pass the check of R403: REF_CLK 25 MHz and the CRC. -/
def goodFuse : BitVec 256 :=
  let f := 25000 * 2 ^ 96
  BitVec.ofNat 256 (f + crc32c (leBytes 28 f) * 2 ^ 224)

/-- Of `starts`: every STATE and phase; a container that fails (one that passes rests on a signature, a free value, see below). -/
theorem witness_starts :
    (alive.pins.granted = false ∧ alive.pins.wir = 0 ∧ State.reset.start.state = .unstarted) ∧
    (let s := startingAt 1
     s.start.cold = false ∧ slotLength (s.slotRecord s.start.slot) = 0 ∧ (s.physRead 0 (slotPa (s.slotRecord s.start.slot)) 0 (.data [])).2 = .data []) ∧
    (let s := inSeason id (fun y => { y with state := .starting, phase := 1, slotA := overwrite (overwrite y.slotA 20 [1]) 8 [1] })
     slotValid (s.slotRecord s.start.slot) = true ∧ slotLength (s.slotRecord s.start.slot) = 1 ∧
     ∃ e pa, (s.physRead 0 (slotPa (s.slotRecord s.start.slot)) 1 (.portError 2)).2 = .error e pa) ∧
    (let s := inSeason id (fun y => { y with state := .starting, phase := 1, cold := true })
     let b : List Byte := overwrite (List.replicate 64 0) 20 [1]
     s.start.cold = true ∧ (s.physRead 0 (s.start.bootHi.toNat * 2 ^ 32 + s.start.bootLo.toNat) 64 (.data b)).2 = .data b ∧
     slotValid (bootRecord b 0) = true ∧ slotLength (bootRecord b 0) = 0) ∧
    (∀ n, n ≤ 5 → (startingAt n).start.state = .starting ∧ (startingAt n).start.phase = n) ∧
    ((startingAt 0).powered = true ∧ ((startingAt 1).port 0).state = .up ∧ slotValid ((startingAt 1).slotRecord false) = true) ∧
    (startingAt 2).containerCheck 1 [] 0 (some 0) = some 1 ∧
    (2 ≤ ((List.finRange 4).filter (fun i => (0x3 : BitVec 4).getLsbD i.val)).length ∧
     ((List.finRange 4).filter (fun i => (0x4 : BitVec 4).getLsbD i.val)).length < 2) ∧
    (let s := { startingAt 4 with pins := { PinSt.reset with fuse := goodFuse } }
     s.fuseOk = true ∧ (∃ c : CoreId, c.val < 5 ∧ s.usable c = true) ∧ ∀ c : CoreId, s.inService c.val = true → s.usable c = true) := by
  refine ⟨by decide, by decide +kernel, ⟨by decide +kernel, by decide +kernel, error_of _ (by decide +kernel)⟩, by decide +kernel,
    fun n _ => ⟨rfl, rfl⟩, by decide +kernel, by decide +kernel, by decide, by decide +kernel⟩

/-- A container of 4,096 bytes with its CRC (Table 18-3). -/
def container : List Byte :=
  let b : List Byte := leBytes 4 0x57465356 ++ [1, 0, 0, 0] ++ leBytes 4 4096 ++ leBytes 4 7 ++ leBytes 4 0x30000 ++ [0, 0, 1, 0] ++ List.replicate 4072 0
  overwrite b 0x18 (leBytes 4 (crc32c (b.take 4032)))

set_option maxRecDepth 100000 in
/-- Of `starts` and `firmware_and_service`: it passes exactly where the signature, a free value, verifies. -/
theorem witness_container :
    alive.containerCheck 1 container 4096 (some (leAt container 0x18 4)) = if Config.signatureOk 0 container then none else some 6 := by
  have h0 : leAt container 8 4 = 4096 ∧ leAt container 6 1 = 0 ∧ leAt container 0 4 = 0x57465356 ∧ leAt container 4 2 = 1 ∧
      leAt container 0x16 2 = 1 ∧ container.length = 4096 ∧ blockMinOk (leAt container 0x10 4) = true ∧ leAt container 7 1 = 0 := by decide +kernel
  obtain ⟨h1, h2, h3, h4, h5, h6, h7, h8⟩ := h0
  have h9 : crc32c (overwrite (container.take 4032) 0x18 [0, 0, 0, 0]) = leAt container 0x18 4 := by decide +kernel
  have h10 : alive.fuseBit 84 = false ∧ alive.svnMin = 0 := by decide +kernel
  unfold State.containerCheck
  simp only [h1, h2, h3, h4, h5, h6, h7, h8, h9, h10.1, h10.2]
  cases Config.signatureOk 0 container <;> simp

/-- A partition 0 of core 0 alone in Midwinter. -/
def midwinter : State :=
  { inSeason id (fun y => { y with state := .midwinter }) with parts := upd alive.parts 0 (fun p => { p with coreMask := 1 }) }

/-- Of `firmware_and_service`. -/
theorem witness_firmware :
    MailboxFree alive ∧ true ≠ alive.start.activeSlot ∧
    (∀ v ∈ [(0 : Byte), 1], let bs : List Byte := overwrite (List.replicate 32 0) 20 [v]
     bs.length = 32 ∧ fld (leNat bs) 63 48 = 0 ∧ fld (leNat bs) 255 162 = 0 ∧ slotPa bs % 4096 = 0 ∧ slotValid bs = decide (v = 1)) ∧
    (alive.start.update.isNone = true ∧ alive.start.libLoading.isNone = true ∧ (1 : Byte).toNat ≤ 1 ∧
     (alive.physRead 0 0 0 (.data [])).2 = .data [] ∧ (alive.physRead 0 0 1 (.portError 2)).2 = .error 2 0 ∧
     (alive.fault.stewards[3]).retired = false ∧ (∀ j : Fin 4, 3 < j → (alive.fault.stewards[j.val]).retired = true) ∧
     alive.halfBound = false ∧ leAt (([] : List Byte)) 0x14 2 = alive.start.fwCompat) ∧
    calBad ({ alive with start := { alive.start with calPending := defaultCal } } : State).start.calPending = false ∧
    (alive.serviceable 19 = false ∧ alive.serviceable 18 = true ∧ alive.fault.serviceCore.isNone = true ∧ alive.spareFree (clusterOf 18) = true) ∧
    (let u : Update := { toB := true, cur := 1, done := [0], back := false, compat := 0, version := 0 }
     (inSeason id (fun y => { y with update := some u })).start.update = some u ∧ (0 : Fin 4) ∈ u.done ∧
     (alive.fault.stewards[0]).retired = false) ∧
    (let s := rooted (inSeason id (fun y => { y with libLoading := some ⟨0, 1, 0, 0⟩ }))
     (s.stewardRead 0 0 0 0 1 (hostRead [1])).2 = .data [1] ∧ (s.stewardRead 0 0 0 0 1 hostFault).2.bytes? = none ∧
     s.serving = true ∧ s.awake = true ∧ s.portCarries 0 = true) ∧
    alive.libraryCheck [1] 1 = .error 0x0701 ∧
    (MidwinterFree midwinter ∧ midwinter.start.mwTest.isNone = true ∧ midwinter.steps = [] ∧ midwinter.power.parked = [] ∧
     midwinter.testCore = some 0 ∧ imgCoresMin (commitImage 1) = 1 ∧ imgCoresMax (commitImage 1) = 1 ∧
     bitAt (imgFlags (commitImage 1)) 0 = true ∧ imgArrays (commitImage 1) ≤ (midwinter.arraysOf 0).length ∧
     descChecks goodDesc none none = none ∧ (parseDesc goodDesc).base = 0 ∧ (parseDesc goodDesc).adapter = 0 ∧
     usesAtomics { bytes := commitImage 1, resident := false, wcet := 0, dir := [], va := 0, ast := 0 } = false ∧
     (midwinter.physRead 0 0 128 (.data goodDesc)).2 = .data goodDesc ∧
     (midwinter.physRead 0 0 0xA0 (.data (commitImage 1))).2 = .data (commitImage 1) ∧
     verify (midwinter.verCtx 0 false true) (commitImage 1) 0xA0 = none) := by
  refine ⟨free_alive, by decide, by decide +kernel, by decide +kernel, by decide +kernel, by decide +kernel, by decide +kernel,
    by decide +kernel, ?_, ⟨⟨rfl, rfl, by decide, rfl⟩, by decide +kernel⟩⟩
  unfold State.libraryCheck
  rw [if_pos (by decide +kernel)]

/-- Of `control_port`, `time_pair` and `reset_and_test_access`: PCLK_RST_N high and low, wrapper codes, test access open and closed, straps
latched and not. -/
theorem witness_port :
    MailboxFree alive ∧ alive.ctl.inReset = false ∧ ({ alive with ctl := { CtlSt.reset with inReset := true } } : State).ctl.inReset = true ∧
    (1 : Byte).toNat ≤ 1 ∧ 1 < (2 : Byte).toNat ∧ (0 : BitVec 4) ≠ 15 ∧ (1 : Word).getLsbD 0 = true ∧ 0x900 ≤ (0x900 : BitVec 14).toNat ∧
    State.reset.pins.latched = false ∧
    (let s := { State.reset with pins := { PinSt.reset with latched := true } }
     s.pins.latched = true ∧ s.start.state = .unstarted ∧ s.pins.fuse.getLsbD 94 = false) ∧
    alive.start.state ≠ .unstarted ∧ (∃ i : Instrument, instrumentBit i < 5) ∧ (∃ i : Instrument, 5 ≤ instrumentBit i) ∧
    alive.now + 16489 + alive.power.refFrac + alive.power.aonFrac < 2 ^ 64 := by
  refine ⟨free_alive, rfl, rfl, by decide, by decide, by decide, by decide, by decide, rfl, ⟨rfl, rfl, by decide⟩, nofun, ?_, ?_, by decide⟩
  · exact ⟨.aon, by decide⟩
  · exact ⟨.mbist, by decide⟩

/-- Of `timebase`: Winter on AON_CLK with the largest fraction; Spring on a REF_CLK of 25 MHz. -/
theorem witness_timebase :
    (let s := { State.reset with power := { State.reset.power with aonFrac := 31 } }
     s.power.season = .winter ∧ s.power.onAon = true ∧ s.power.pllLocked = false ∧ s.power.aonFrac < 32 ∧ s.now + 15625 < 2 ^ 64) ∧
    (let s := { alive with pins := { PinSt.reset with fuse := goodFuse }, power := { alive.power with refFrac := 24999 } }
     s.power.season ≠ .winter ∧ s.power.season ≠ .autumn ∧ s.power.onAon = false ∧ s.power.refFrac < s.refKhz ∧ s.now + 16001 < 2 ^ 64 ∧
     s.power.slow = 0 ∧ ({ s.power with slow := 1 } : PowerSt).slow ≠ 0) := by
  decide +kernel

/-- Of `identity_registers`: two engines of one build in different states. -/
theorem witness_identity :
    State.reset.build = alive.build ∧ State.reset.pins = alive.pins ∧ State.reset.start.state ≠ alive.start.state := ⟨rfl, rfl, nofun⟩

/-- Of `tags_clear_at_start`: DISPATCH starts a run. -/
theorem witness_tags : (waiting.part 0).run.isNone = true ∧ ((after (.dispatch ⟨0, [hostRead (slice (commitImage 0) 0x80 32)]⟩) waiting).part 0).run.isSome = true := by decide +kernel

/-- Of `commands_keep_queue_and_straps` and `every_step_keeps_invariant`: a command that answers a next state from a state with the invariant. -/
theorem witness_step :
    Inv State.reset ∧ (match exec .pllLock State.reset with | .next _ => True | _ => False) ∧ (match step State.reset with | .next _ => True | _ => False) := by
  refine ⟨⟨?_, deepOk_reset⟩, trivial, trivial⟩
  intro c
  have : State.reset.core c = Core.reset := by simp [State.core, State.reset, State.resetOf]
  rw [this]
  exact coreOk_reset

/-! ### Ill-formed commands, one for each check of WellFormed -/

theorem test_wf_refuses :
    [Instr.loop 0 true true 0 1, .loop 0 true false 1 32, .skipz 0 true 0 0, .skipnz 0 true 0 0, .stld 0 true 0 0 3 0 0, .frnd 0 true 0 0 5,
     .frnd 0 true 0 0 8, .vld 0 true 0 0 3 0, .vldw 0 true 0 0 3 0 0, .vldw 0 true 0 0 0 5 0, .vst 0 true 0 0 2 0, .vstn 0 true 0 0 2 0 0,
     .vstn 0 true 0 0 0 5 0, .sclw 0 true 0 0 2 0 0, .topk 0 true 1 0 1 0 false false false false, .slotWrite 0 (List.replicate 257 0) false,
     .codebookPendingWrite 0 (List.replicate 257 0) false, .pendingVersion (List.replicate 257 0) false, .equinox (List.replicate 257 0) false,
     .linkGroupReceived 0 (List.replicate 7 0), .estimatorPeriod [], .thermalSample [], .mwStep (List.replicate 257 0) (.data []) (.data []) false,
     .slotRecordWrite false (List.replicate 257 0) (.data []) false, .pdRead false false 0 0 0 257 0, .pdWrite false false 0 0 0 257 0 (List.replicate 257 0),
     .pdWrite false false 0 0 0 1 0 [], .ctlRegisterWrite 2 15 0].all (fun i => !i.wf) = true := by decide +kernel

/-- Their neighbours that the encodings admit. -/
theorem test_wf_accepts :
    [Instr.loop 0 true true 1 1, .loop 0 true false 1 31, .skipz 0 true 0 1, .stld 0 true 0 0 2 0 0, .frnd 0 true 0 0 7, .vld 0 true 0 0 2 0,
     .vst 0 true 0 0 1 0, .topk 0 true 30 0 1 0 false false false false, .linkGroupReceived 0 (List.replicate 8 0), .ctlRegisterWrite 4 15 0].all
      (fun i => i.wf) = true := by decide

/-! ### One step each; expected values by hand from the rule named -/

/-- Table 8-18: 5 + (2^64 − 1) wraps. -/
theorem test_add_wraps : ((after (.add 0 true 3 1 2) (work [(1, 5), (2, 0xFFFFFFFFFFFFFFFF)] [] [])).core 0).s[3] = 4 := by decide +kernel
/-- R185: a write of s0 is discarded, the pc moves on. -/
theorem test_s0 : let t := after (.movi 0 true 0 7) (work [] [] []); (t.core 0).s[0] = 0 ∧ (t.core 0).pc = 1 := by decide +kernel
/-- Table 8-18: SLT compares signed. -/
theorem test_slt : ((after (.slt 0 true 3 1 0) (work [(1, 0xFFFFFFFFFFFFFFFF)] [] [])).core 0).s[3] = 1 := by decide +kernel
/-- Table 8-18: MOVI sign-extends imm21. -/
theorem test_movi : ((after (.movi 0 true 1 0x1FFFFF) (work [] [] [])).core 0).s[1] = 0xFFFFFFFFFFFFFFFF := by decide +kernel
/-- R191: a count of 0 skips the body. -/
theorem test_loop_zero : ((after (.loop 0 true true 3 0) (work [] [] [])).core 0).pc = 4 := by decide +kernel
/-- R193: SKIPZ of a zero register jumps over n bundles. -/
theorem test_skipz : ((after (.skipz 0 true 1 2) (work [] [] [])).core 0).pc = 3 := by decide +kernel
/-- R202: STRIP gives the partition's count and raises it. -/
theorem test_strip : let t := after (.strip 0 true 5) (work [(5, 9)] [] []); (t.core 0).s[5] = 0 ∧ (t.part 0).stripCounter = 1 := by decide +kernel
/-- R203: COMMIT brings the token to the collector. -/
theorem test_commit : ((after (.commit 0 true) (work [] [] [])).part 0).run.map (fun r => r.arrived.length) = some 1 := by decide +kernel
/-- R188: a slot without the end of its bundle waits. -/
theorem test_staged : let t := after (.add 0 false 3 1 2) (work [(1, 5)] [] []); (t.core 0).s[3] = 0 ∧ (t.core 0).pc = 0 := by decide +kernel
/-- Table 8-4: nothing issues outside a run. -/
theorem test_not_issuing : exec (.add 0 true 3 1 2) State.reset = .refused .coreNotIssuing := rfl
/-- R45, Table 2-1: 1.0 + 1.0 is 2.0, 1.0 × −0.0 is −0.0; a NaN comes out canonical with its flag. -/
theorem test_float : add32 0x3F800000 0x3F800000 = (0x40000000, 0) ∧ mul32 0x3F800000 0x80000000 = (0x80000000, 0) ∧
    add32 0x7F800001 0 = (nan32, fNAN) := by decide +kernel
/-- Table 5-5: IADD saturates. -/
theorem test_iadd : intLane .iadd 0x7FFFFFFF 1 = 0x7FFFFFFF ∧ intLane .isub 0x80000000 1 = 0x80000000 := by decide
/-- RFC 3720's check value of CRC-32C. -/
theorem test_crc32c : crc32c [0x31, 0x32, 0x33, 0x34, 0x35, 0x36, 0x37, 0x38, 0x39] = 0xE3069283 := by decide +kernel
/-- R268: a doorbell past the ring stops the queue; R425: it is kept. -/
theorem test_doorbell : let t := after (.doorbell 0 17) alive; (t.queue 0).stopped = true ∧ t.ctl.bells[0] = 17 := by decide +kernel
/-- Table 10-2: the fetched descriptor waits for acceptance. -/
theorem test_fetch : (after (.descriptorFetch 0 (hostRead goodDesc)) fetching).fetched.length = 1 := by decide +kernel
/-- R242: a dispatched step is STARTED and has its cores. -/
theorem test_dispatch : let t := after (.dispatch ⟨0, [hostRead (slice (commitImage 0) 0x80 32)]⟩) waiting; t.steps.map (·.state) = [.started] ∧ (t.core 0).phase = .running := by decide +kernel
/-- R205: the watchdog ends the step with 0x07. -/
theorem test_watchdog : ((after (.sequencerWatchdogExpiry 0) (work [] [] [])).part 0).run.map (·.phase) = some (.draining (.fault 7 0)) := by
  decide +kernel
/-- Table 19-18: an entry ends DONE; R431: an unknown one ABORTED 0x01. -/
theorem test_mailbox : (after (.enableWrite 3 1 false) alive).ctl.pdState = .done ∧ (after (.pdRead false false 0 0xFFFF 0 4 0) alive).ctl.abort = 1 := by
  decide +kernel
/-- R222: the image that verifies becomes active. -/
theorem test_image : ((after (.imageLoadDone 0 (hostRead (commitImage 0))) loadingImage).part 0).active.isSome = true := by decide +kernel
/-- R299: a loss takes the port DOWN and counts. -/
theorem test_link_fall : let t := after (.linkUpFall 2) alive; (t.port 2).state = .down ∧ (t.port 2).linkDrops = 1 := by decide +kernel
/-- R337: a wrong CRC is counted. -/
theorem test_group : ((after (.linkGroupReceived 0 (groupOf 0 1)) (linked portUp)).link.ports[0]).crcErrors = 1 := by decide +kernel
/-- R363: a wake event in Winter begins Thaw and asks for the supplies. -/
theorem test_wake : let t := after (.wakeEvent .doorbell) { alive with power := { PowerSt.reset Build.reference with season := .winter } }
    t.power.season = .thaw ∧ t.power.pwrReq = 15 := by decide +kernel
/-- Table 16-8: 115 °C is SHUTDOWN. -/
theorem test_thermal : (after (.thermalSample (List.replicate 18 230)) alive).power.thermal = .shutdown := by decide +kernel
/-- R356: an AON edge of Winter. -/
theorem test_edge : (clockEdge State.reset).now = 488 ∧ (clockEdge State.reset).power.aonFrac = 9 := by decide +kernel
/-- R410: the first START of an engine. -/
theorem test_start : (after .start State.reset).start.state = .starting := by decide +kernel
/-- R454: intrusive access is granted in UNSTARTED. -/
theorem test_wrapper : (after (.wrapperInstructionUpdate 1) { State.reset with pins := { PinSt.reset with latched := true } }).pins.granted = true := by
  decide +kernel
/-- Table 7-7: an uncorrectable word is poisoned. -/
theorem test_scrub : Tab.get false ((after (.scrubBeat (.near 0) 3 .uncorrectable) (work [] [] [])).core 0).nearPoison 3 = true := by decide +kernel
/-- The front command runs, the queue keeps its rest. -/
theorem test_step : (match step { State.reset with pending := [.start, .pllLock] } with | .next t => t.pending | _ => []) = [.pllLock] := by
  decide +kernel
/-- No row has bits, so no word spells a command. -/
theorem test_decode : decodeTableWord 32 5 = none ∧ State.reset.withFetchWord 32 5 = State.reset := ⟨rfl, rfl⟩

end Sys2Proof.Tests
end

/-!
PROOFS. What the shared operations that arming and dispatch use leave of the state: messages, the frequency limit, ECC detections, updates of
the cores of a list, and instruction memory after a load.
-/
namespace Sys2Proof.Machine
open Sys2Proof.Safety

/-! ### Messages and the frequency limit -/

/-- A fold whose steps change the Stack Link alone changes it alone. -/
theorem foldl_link {α : Type} (f : State → α → State) (hf : ∀ s a, ∃ l, f s a = { s with link := l }) (xs : List α) (s : State) :
    ∃ l, xs.foldl f s = { s with link := l } := by
  induction xs generalizing s with
  | nil => exact ⟨s.link, rfl⟩
  | cons a xs ih =>
    obtain ⟨l, e⟩ := hf s a
    obtain ⟨l', e'⟩ := ih (f s a)
    exact ⟨l', by rw [List.foldl_cons, e', e]⟩

theorem forwardEvent_link (s : State) (r : QWord) : ∃ l, s.forwardEvent r = { s with link := l } := by
  unfold State.forwardEvent
  split
  · exact ⟨_, rfl⟩
  · exact ⟨s.link, rfl⟩

theorem masterOrder_link (s : State) : ∃ l, s.masterOrder = { s with link := l } := by
  unfold State.masterOrder
  dsimp only
  split
  · exact ⟨s.link, rfl⟩
  · refine (foldl_link _ (fun s e => ?_) _ _).imp fun l h => h
    split
    · exact ⟨s.link, rfl⟩
    · exact ⟨_, rfl⟩

theorem orderP_power (s : State) (t : Fin 6) : ∃ w, s.orderP t = { s with power := w } := by
  unfold State.orderP State.startChange State.modPower
  dsimp only
  repeat' split
  all_goals exact ⟨_, rfl⟩

/-- Acting on a changed limit touches the Stack Link and the power state alone (R368). -/
theorem relimit_only (s : State) : ∃ l w, s.relimit = { s with link := l, power := w } := by
  unfold State.relimit
  split
  · split
    · obtain ⟨l, e⟩ := masterOrder_link s
      exact ⟨l, s.power, e⟩
    · split
      · exact ⟨s.link, s.power, rfl⟩
      · exact ⟨_, s.power, rfl⟩
  · obtain ⟨w, e⟩ := orderP_power { s with link := { s.link with stackFloor := s.ownFloor } } s.limit
    exact ⟨_, w, e⟩

/-- `s` with another control port. -/
def State.withCtl (s : State) (k : CtlSt) : State := { s with ctl := k }

theorem foldl_withCtl {α : Type} (k : CtlSt) (f : State → α → State) (hf : ∀ s a, f (s.withCtl k) a = (f s a).withCtl k) (xs : List α)
    (s : State) : xs.foldl f (s.withCtl k) = (xs.foldl f s).withCtl k :=
  List.foldl_hom (fun t : State => t.withCtl k) hf

theorem masterOrder_withCtl (s : State) (k : CtlSt) : (s.withCtl k).masterOrder = s.masterOrder.withCtl k := by
  unfold State.masterOrder
  dsimp only
  rw [apply_ite (fun t : State => t.withCtl k)]
  refine if_congr Iff.rfl rfl (Eq.trans ?_ (foldl_withCtl k _ (fun t e => ?_) _ _))
  · rfl
  · rw [apply_ite (fun t : State => t.withCtl k)]
    rfl

theorem startChange_withCtl (s : State) (t : Fin 6) (k : CtlSt) : (s.withCtl k).startChange t = (s.startChange t).withCtl k := by
  have hp : (s.withCtl k).power = s.power := rfl
  unfold State.startChange
  rw [hp]
  cases s.power.change with
  | some _ => rfl
  | none =>
    dsimp only
    rw [apply_ite (fun t : State => t.withCtl k), apply_ite (fun t : State => t.withCtl k)]
    rfl

theorem orderP_withCtl (s : State) (t : Fin 6) (k : CtlSt) : (s.withCtl k).orderP t = (s.orderP t).withCtl k := by
  unfold State.orderP
  rw [apply_ite (fun t : State => t.withCtl k)]
  exact if_congr Iff.rfl rfl (startChange_withCtl (s.modPower fun p => { p with ordered := t }) t k)

/-- What the control port holds takes no part in it (R368). -/
theorem relimit_withCtl (s : State) (k : CtlSt) : (s.withCtl k).relimit = s.relimit.withCtl k := by
  unfold State.relimit
  rw [apply_ite (fun t : State => t.withCtl k), apply_ite (fun t : State => t.withCtl k), apply_ite (fun t : State => t.withCtl k)]
  exact if_congr Iff.rfl
    (if_congr Iff.rfl (masterOrder_withCtl s k) (if_congr Iff.rfl rfl rfl))
    (orderP_withCtl { s with link := { s.link with stackFloor := s.ownFloor } } s.limit k)

/-! ### ECC detections and deep scratch -/

/-- What accesses to deep scratch and the detections they make change: deep scratch, the scrub counters, the health log, the status bits and
what goes to the master over the Stack Link (R179, R349, R398). -/
def EccLogged (s t : State) : Prop :=
  ∃ d sc l h n i, t = { s with deep := d, scrub := sc, link := l, fault := { s.fault with health := h, healthNext := n },
                               ctl := { s.ctl with irqStatus := i } }

theorem EccLogged.refl (s : State) : EccLogged s s := ⟨s.deep, s.scrub, s.link, s.fault.health, s.fault.healthNext, s.ctl.irqStatus, rfl⟩

theorem EccLogged.trans {s t u : State} (h : EccLogged s t) (g : EccLogged t u) : EccLogged s u := by
  obtain ⟨d, sc, l, h, n, i, rfl⟩ := h
  obtain ⟨d', sc', l', h', n', i', rfl⟩ := g
  exact ⟨d', sc', l', h', n', i', rfl⟩

theorem EccLogged.foldl {α : Type} {f : State → α → State} (hf : ∀ s a, EccLogged s (f s a)) (xs : List α) (s : State) :
    EccLogged s (xs.foldl f s) := by
  induction xs generalizing s with
  | nil => exact .refl s
  | cons a xs ih => exact (hf s a).trans (ih (f s a))

theorem eccLogged_deep (s : State) (d : DeepSt) (sc : ScrubSt) : EccLogged s { s with deep := d, scrub := sc } :=
  ⟨d, sc, s.link, s.fault.health, s.fault.healthNext, s.ctl.irqStatus, rfl⟩

theorem eccLogged_health (s : State) (code : Nat) (core : Option CoreId) (cluster detail : Nat) :
    EccLogged s (s.health code core cluster detail) := by
  unfold State.health
  dsimp only
  obtain ⟨l, e⟩ := forwardEvent_link (({ s with fault := { s.fault with
    health := Tab.put s.fault.health (s.fault.healthNext.toNat % 64) (eventRecord code core cluster detail s.now),
    healthNext := s.fault.healthNext + 1 } }).irq 3) (eventRecord code core cluster detail s.now)
  exact ⟨s.deep, s.scrub, l, _, _, _, e⟩

theorem eccLogged_eccUncorrectable (s : State) (r loc : Nat) (core : Option CoreId) (cluster : Nat) :
    EccLogged s (s.eccUncorrectable r loc core cluster) :=
  (eccLogged_deep s s.deep _).trans (eccLogged_health _ _ _ _ _)

theorem eccLogged_eccFixed (s : State) (r n : Nat) : EccLogged s (s.eccFixed r n) := by
  unfold State.eccFixed
  split
  · exact .refl s
  · exact eccLogged_deep s s.deep _

theorem eccLogged_fixDeep (s : State) (rs : List (Nat × Nat)) : EccLogged s (s.fixDeep rs) := by
  unfold State.fixDeep
  split
  · exact .refl s
  · exact (eccLogged_deep s _ s.scrub).trans (eccLogged_eccFixed _ _ _)

theorem eccLogged_deepWriteWord (s : State) (w : Nat) (ps : List (Nat × Byte)) : EccLogged s (s.deepWriteWord w ps).1 := by
  unfold State.deepWriteWord
  split
  · exact (eccLogged_deep s s.deep _).trans (eccLogged_eccUncorrectable _ _ _ _ _)
  · exact ((eccLogged_eccFixed s _ _).trans (eccLogged_deep _ _ _)).trans (.foldl (fun t a => eccLogged_deep t _ t.scrub) ps _)

theorem eccLogged_deepWrite (s : State) (dsa : Nat) (bs : List Byte) : EccLogged s (s.deepWrite dsa bs).1 := by
  unfold State.deepWrite
  split
  · exact .refl s
  · have key : ∀ (ws : List Nat) (r : State × Bool), EccLogged r.1 (ws.foldl (fun r i =>
        let w := dsa / 8 + i
        let t := r.1.deepWriteWord w (wordBytes dsa bs w)
        (t.1, r.2 || t.2)) r).1 := by
      intro ws
      induction ws with
      | nil => exact fun r => .refl r.1
      | cons a ws ih => exact fun r => (eccLogged_deepWriteWord r.1 _ _).trans (ih _)
    exact key _ _

/-! ### The cores of a list -/

/-- Changing every core of a list changes cores alone. -/
theorem foldl_modCore_cores (cs : List CoreId) (g : CoreId → Core → Core) (s : State) :
    ∃ ks, cs.foldl (fun s c => s.modCore c (g c)) s = { s with cores := ks } := by
  induction cs generalizing s with
  | nil => exact ⟨s.cores, rfl⟩
  | cons a cs ih => exact ih (s.modCore a (g a))

/-- A core is changed as often as the list names it. -/
theorem core_foldl_modCore (cs : List CoreId) (g : CoreId → Core → Core) (s : State) (c : CoreId) :
    (cs.foldl (fun s c => s.modCore c (g c)) s).core c = (g c)^[cs.count c] (s.core c) := by
  induction cs generalizing s with
  | nil => rfl
  | cons a cs ih =>
    rw [List.foldl_cons, ih, core_modCore_eq, List.count_cons]
    by_cases h : c = a
    · subst h
      simp
    · simp [h, Ne.symm h]

/-- Changing the cores of a list: a core of the list has been changed once at least, no other has. -/
theorem foldl_modCore_spec (cs : List CoreId) (g : CoreId → Core → Core) (s : State) :
    ∃ ks, cs.foldl (fun s c => s.modCore c (g c)) s = { s with cores := ks } ∧ (∀ c : CoreId, c ∉ cs → ks[c.val] = s.core c) ∧
      ∀ c : CoreId, c ∈ cs → ∃ n, ks[c.val] = g c ((g c)^[n] (s.core c)) := by
  obtain ⟨ks, e⟩ := foldl_modCore_cores cs g s
  have hk : ∀ c : CoreId, ks[c.val] = (g c)^[cs.count c] (s.core c) := by
    intro c
    rw [← core_foldl_modCore, e]
    rfl
  refine ⟨ks, e, fun c hc => ?_, fun c hc => ?_⟩
  · rw [hk, List.count_eq_zero_of_not_mem hc]
    rfl
  · obtain ⟨n, hn⟩ := Nat.exists_eq_succ_of_ne_zero (List.count_pos_iff.2 hc).ne'
    exact ⟨n, by rw [hk, hn, Function.iterate_succ_apply']⟩

/-! ### Instruction memory -/

/-- The sparse table of a byte string that lies at address `o` and up. -/
theorem tabGet_zipIdx (code : List Byte) (o n : Nat) :
    Tab.get 0 (((code.zipIdx o).filter (fun b => b.1 ≠ 0)).map (fun b => (b.2, b.1))) n = if o ≤ n then code.getD (n - o) 0 else 0 := by
  induction code generalizing o with
  | nil => simp [Tab.get]
  | cons b code ih =>
    have tail := ih (o + 1)
    have step : (if n = o then b else if o + 1 ≤ n then code.getD (n - (o + 1)) 0 else 0) = if o ≤ n then (b :: code).getD (n - o) 0 else 0 := by
      rcases Nat.lt_trichotomy n o with h | h | h
      · rw [if_neg h.ne, if_neg (by omega), if_neg (by omega)]
      · simp [h]
      · rw [if_neg h.ne', if_pos (Nat.succ_le_of_lt h), if_pos h.le, show n - o = n - (o + 1) + 1 by omega, List.getD_cons_succ]
    rw [← step, List.zipIdx_cons, List.filter_cons]
    split
    · rw [List.map_cons, Tab.get, tail]
    · rename_i hb
      have hb0 : b = 0 := by simpa using hb
      by_cases h : n = o
      · rw [if_pos h, tail, if_neg (by omega), hb0]
      · rw [if_neg h, tail]

/-- Instruction memory holds the code it was filled with (R224). -/
theorem imem_withCode (k : Core) (code : List Byte) (n : Nat) : Tab.get 0 (k.withCode code).imem n = code.getD n 0 := by
  have h := tabGet_zipIdx code 0 n
  rwa [if_pos (Nat.zero_le n)] at h

/-- The last code that a core was filled with stays. -/
theorem withCode_iterate (k : Core) (code : List Byte) (n : Nat) :
    ((fun k : Core => k.withCode code)^[n] k).withCode code = k.withCode code := by
  induction n generalizing k with
  | zero => rfl
  | succ n ih => exact ih (k.withCode code)

end Sys2Proof.Machine

/-!
PROOFS. Arming and disarming the real-time service (R281, R282, R394, R426): `arming`.
-/
namespace Sys2Proof.Machine
open Sys2Proof.Safety

/-! ### Writes of ARM -/

theorem arm_withCtl (s : State) (k : CtlSt) : (s.withCtl k).arm = s.arm.withCtl k := by
  have hr : (s.withCtl k).rt = s.rt := rfl
  unfold State.arm
  rw [hr]
  split <;> rfl

/-- `s` with the service DISARMED: borrowed cores that are not retired are back, the pairs are gone (R282, R391). -/
def State.disarmed (s : State) : State :=
  { s with rt := { s.rt with arm := .disarmed },
           fault := { s.fault with coreMap := s.fault.coreMap ||| (s.fault.borrowed &&& ~~~s.fault.retired), borrowed := 0, lockstep := 0,
                                   hotSpare := none, pairs := Vector.replicate 2 ⟨none, none, none, 0, false⟩, faultRunStart := none,
                                   failoverOpen := false } }

/-- DISARMED leaves everything else but the limit and the Stack Link. -/
theorem enterDisarmed_only (s : State) : ∃ l w, s.enterDisarmed = { s.disarmed with link := l, power := w } := relimit_only s.disarmed

/-- `s` with the time since its halt counted as unavailable (R395). -/
def State.haltCounted (s : State) : State :=
  { s with fault := { s.fault with rtUnavailable := bump s.fault.rtUnavailable (ticksNs (s.now - s.fault.haltedSince)) } }

theorem disarm_of_halted_eq {s : State} (h : s.rt.arm = .halted) : s.disarm = s.haltCounted.enterDisarmed := by
  simp only [State.disarm, h]
  rfl

theorem disarm_of_armed {s : State} (h : s.rt.arm = .armed ∨ s.rt.arm = .arming) :
    s.disarm = { s with rt := { s.rt with arm := .disarming } } := by
  rcases h with h | h <;> simp only [State.disarm, h]

theorem disarm_of_disarmed {s : State} (h : s.rt.arm = .disarmed ∨ s.rt.arm = .disarming) : s.disarm = s := by
  rcases h with h | h <;> simp only [State.disarm, h]

theorem arm_ctl (s : State) : s.arm.ctl = s.ctl := by
  unfold State.arm
  split <;> rfl

theorem disarm_withCtl (s : State) (k : CtlSt) : (s.withCtl k).disarm = s.disarm.withCtl k := by
  cases h : s.rt.arm with
  | disarmed => rw [disarm_of_disarmed (.inl h), disarm_of_disarmed (s := s.withCtl k) (.inl h)]
  | disarming => rw [disarm_of_disarmed (.inr h), disarm_of_disarmed (s := s.withCtl k) (.inr h)]
  | armed => exact disarm_of_armed (s := s.withCtl k) (.inl h) |>.trans (by rw [disarm_of_armed (.inl h)]; rfl)
  | arming => exact disarm_of_armed (s := s.withCtl k) (.inr h) |>.trans (by rw [disarm_of_armed (.inr h)]; rfl)
  | halted =>
    rw [disarm_of_halted_eq h, disarm_of_halted_eq (s := s.withCtl k) h]
    exact relimit_withCtl s.haltCounted.disarmed k

theorem disarm_ctl (s : State) : s.disarm.ctl = s.ctl := by
  cases h : s.rt.arm with
  | disarmed => rw [disarm_of_disarmed (.inl h)]
  | disarming => rw [disarm_of_disarmed (.inr h)]
  | armed => rw [disarm_of_armed (.inl h)]
  | arming => rw [disarm_of_armed (.inr h)]
  | halted =>
    obtain ⟨l, w, e⟩ := enterDisarmed_only s.haltCounted
    rw [disarm_of_halted_eq h, e]
    rfl

/-- A write of ARM to a free mailbox ends DONE with what its value orders. -/
theorem endsDone_arm {s : State} {p : PartId} (hp : s.rtPart = some p) (hm : MailboxFree s) (async : Bool) :
    EndsDone (.arm 1 async) s async s.arm := by
  refine ends_done s (writeReq async 0x3300 2 [1]) (fun s => s.writeArm (1 : Byte).toNat) async s.arm hm rfl rfl (arm_ctl s) (fun k => ?_)
  have hk : (s.withCtl k).rtPart = some p := hp
  change State.writeArm (s.withCtl k) 1 = done (s.arm.withCtl k)
  simp [State.writeArm, refuse, hk, arm_withCtl]

theorem endsDone_disarm {s : State} {p : PartId} (hp : s.rtPart = some p) (hm : MailboxFree s) (async : Bool) :
    EndsDone (.disarm async) s async s.disarm := by
  refine ends_done s (writeReq async 0x3300 2 [0]) (fun s => s.writeArm 0) async s.disarm hm rfl rfl (disarm_ctl s) (fun k => ?_)
  have hk : (s.withCtl k).rtPart = some p := hp
  change State.writeArm (s.withCtl k) 0 = done (s.disarm.withCtl k)
  simp [State.writeArm, refuse, hk, disarm_withCtl]

/-- A wake event finds the stewards awake (R363). -/
theorem wake_awake {s : State} (h : s.awake = true) : s.wake = s := by
  unfold State.awake at h
  unfold State.wake
  split
  · rfl
  · cases hs : s.power.season <;> simp [hs] at h ⊢

/-- RT_ARM without a reserved bit (R426). -/
theorem exec_rtArm_served {s : State} {p : PartId} (hp : s.rtPart = some p) {v : Word} (hc : s.ctl.inReset = false)
    (hs : s.serving = true) (ha : s.awake = true) (hv : v.toNat < 2 ^ 11) :
    exec (.rtArm v) s = .next (if v.getLsbD 0 then s.arm else s.disarm) := by
  rw [exec_rtArm, execRtArm, if_neg (by simp [hc, hs]; omega), wake_awake ha]
  exact if_neg (by simp [hp])

theorem arm_of_disarmed {s : State} (h : s.rt.arm = .disarmed) : s.arm = { s with rt := { s.rt with arm := .arming, again := false } } := by
  simp only [State.arm, h]

theorem arm_of_disarming {s : State} (h : s.rt.arm = .disarming) : s.arm = { s with rt := { s.rt with arm := .arming, again := true } } := by
  simp only [State.arm, h]

theorem arm_of_other {s : State} (h : s.rt.arm = .armed ∨ s.rt.arm = .arming ∨ s.rt.arm = .halted) : s.arm = s := by
  rcases h with h | h | h <;> simp only [State.arm, h]

/-- HALTED is left at once, the borrowed cores that are not retired return (R391, R394). -/
theorem disarm_of_halted {s : State} (h : s.rt.arm = .halted) : s.disarm.rt.arm = .disarmed ∧ s.disarm.fault.lockstep = 0 ∧
    s.disarm.fault.borrowed = 0 ∧ s.disarm.fault.coreMap = s.fault.coreMap ||| (s.fault.borrowed &&& ~~~s.fault.retired) := by
  obtain ⟨l, w, e⟩ := enterDisarmed_only s.haltCounted
  rw [disarm_of_halted_eq h, e]
  exact ⟨rfl, rfl, rfl, rfl⟩

/-! ### An image in service -/

/-- A core after the loader has filled it outside a step; the words that it found poisoned are marked (R281). -/
def State.filled (s : State) (p : PartId) (img : ImgRec) (k : Core) : Core :=
  let r := s.codeRange p img false
  { k.withImage img false with imemPoison := (marksIn s.deep.poison [r]).map (fun w => (w - r.1 / 8, true)) }

theorem imem_filled (s : State) (p : PartId) (img : ImgRec) (k : Core) (n : Nat) :
    Tab.get 0 (s.filled p img k).imem n = (img.code false).getD n 0 := imem_withCode k (img.code false) n

/-- The loader counts what it meets in the image area, and fills every core of the list and no other (R281, R386). -/
theorem preload_spec (s : State) (p : PartId) (img : ImgRec) (cs : List CoreId) :
    ∃ u ks, EccLogged s u ∧ s.preload p img cs = { u with cores := ks } ∧ (∀ c : CoreId, c ∉ cs → ks[c.val] = s.core c) ∧
      ∀ c : CoreId, c ∈ cs → ∀ n, Tab.get 0 ks[c.val].imem n = (img.code false).getD n 0 := by
  obtain ⟨u, hu, e⟩ : ∃ u, EccLogged s u ∧ s.preload p img cs = cs.foldl (fun t c => t.modCore c (s.filled p img)) u :=
    ⟨_, (eccLogged_fixDeep s _).trans (.foldl (fun t w => eccLogged_eccUncorrectable t _ _ _ _) _ _), rfl⟩
  obtain ⟨ks, ek, hout, hin⟩ := foldl_modCore_spec cs (fun _ => s.filled p img) u
  refine ⟨u, ks, hu, e.trans ek, fun c hc => ?_, fun c hc n => ?_⟩
  · obtain ⟨d, sc, l, h, n, j, rfl⟩ := hu
    exact hout c hc
  · obtain ⟨m, em⟩ := hin c hc
    rw [em]
    exact imem_filled s p img _ n

/-- `s` ARMED with an image: pairs, hot spare, LOCKSTEP_STATE (R281, R386). -/
def State.armedWith (s : State) (p : PartId) (i : ImgRec) : State :=
  { s.modPart p (fun x => { x with active := some i, pendingImg := none }) with
    rt := { s.rt with arm := .armed, armResult := 0, again := false, freeAt := s.now },
    fault := { s.fault with pairs := pairsOf (s.maskCores p i.arrays), hotSpare := s.hotSpareFor i,
                            lockstep := if (s.hotSpareFor i).isSome then 1 else 2, haltReason := 0 } }

/-- The cores that hold the image once it is ARMED: the members of the pairs and the hot spare. -/
def State.holders (s : State) (p : PartId) (i : ImgRec) : List CoreId :=
  s.maskCores p i.arrays ++ ((s.hotSpareFor i).map (coreAt 0)).toList

/-- A pending image is written to its area, the service is ARMED, the cores are filled, the limit is judged again. -/
theorem enterArmed_eq (s : State) (p : PartId) (i : ImgRec) :
    ∃ u, EccLogged s u ∧ s.enterArmed p i = ((u.armedWith p i).preload p i (s.holders p i)).relimit := by
  cases h : (s.part p).pendingImg.isSome with
  | false =>
    refine ⟨s, .refl s, ?_⟩
    unfold State.enterArmed
    rw [h]
    rfl
  | true =>
    refine ⟨_, eccLogged_deepWrite s (s.part p).area.1 i.bytes, ?_⟩
    unfold State.enterArmed
    rw [h]
    obtain ⟨d, sc, l, h, n, i', e⟩ := eccLogged_deepWrite s (s.part p).area.1 i.bytes
    rw [e]
    rfl

/-- The image `i` is in service in `t` (R281, R386): the pairs stand, and it is in the instruction memory of the members. -/
structure InService (s t : State) (p : PartId) (i : ImgRec) : Prop where
  steps : t.steps = s.steps
  arm : t.rt.arm = .armed
  result : t.rt.armResult = 0
  active : (t.part p).active = some i
  pending : (t.part p).pendingImg = none
  pairs : t.fault.pairs = pairsOf (s.maskCores p i.arrays)
  hotSpare : t.fault.hotSpare = s.hotSpareFor i
  code : ∀ c ∈ s.maskCores p i.arrays, ∀ n, Tab.get 0 (t.core c).imem n = (i.code false).getD n 0
  others : ∀ c, c ∉ s.maskCores p i.arrays → (∀ h, s.hotSpareFor i = some h → c ≠ coreAt 0 h) → t.core c = s.core c

theorem enterArmed_inService (s : State) (p : PartId) (i : ImgRec) : InService s (s.enterArmed p i) p i := by
  obtain ⟨u, hu, e⟩ := enterArmed_eq s p i
  obtain ⟨v, ks, hv, ev, hout, hin⟩ := preload_spec (u.armedWith p i) p i (s.holders p i)
  obtain ⟨l, w, el⟩ := relimit_only ((u.armedWith p i).preload p i (s.holders p i))
  have hnot : ∀ c, c ∉ s.maskCores p i.arrays → (∀ h, s.hotSpareFor i = some h → c ≠ coreAt 0 h) → c ∉ s.holders p i := by
    intro c hc hh
    simp only [State.holders, List.mem_append, not_or, Option.mem_toList, Option.map_eq_some_iff, not_exists, not_and]
    exact ⟨hc, fun h eh => (hh h eh).symm⟩
  rw [el, ev] at e
  obtain ⟨d, sc, l', h, n, j, rfl⟩ := hu
  obtain ⟨d, sc, l', h, n, j, rfl⟩ := hv
  have hpart : (s.enterArmed p i).part p = { s.part p with active := some i, pendingImg := none } := by
    rw [e]
    exact part_modPart s p _
  have hcore : ∀ c : CoreId, (s.enterArmed p i).core c = ks[c.val] := by
    intro c
    rw [e]
    rfl
  constructor
  · rw [e]; rfl
  · rw [e]; rfl
  · rw [e]; rfl
  · rw [hpart]
  · rw [hpart]
  · rw [e]; rfl
  · rw [e]; rfl
  · exact fun c hc n => (hcore c).symm ▸ hin c (List.mem_append_left _ hc) n
  · exact fun c hc hh => (hcore c).trans (hout c (hnot c hc hh))

theorem InService.irq {s t : State} {p : PartId} {i : ImgRec} (h : InService s t p i) (b : Nat) : InService s (t.irq b) p i :=
  ⟨h.steps, h.arm, h.result, h.active, h.pending, h.pairs, h.hotSpare, h.code, h.others⟩

/-- The limit and the Stack Link do not decide which cores are members. -/
theorem InService.of_power {s t : State} {p : PartId} {i : ImgRec} {l : LinkSt} {w : PowerSt}
    (h : InService { s with link := l, power := w } t p i) : InService s t p i :=
  ⟨h.steps, h.arm, h.result, h.active, h.pending, h.pairs, h.hotSpare, h.code, h.others⟩

/-! ### ARM_COMPLETE -/

theorem liftCap_of_le {s : State} {i : ImgRec} (h : s.power.capP ≤ imgFloor i.bytes) : s.liftCap i = s := by
  simp [State.liftCap, State.modPower, Nat.min_eq_left h]

/-- The cap is lifted and the limit judged before the P-state is looked at: the RT state, cores, partitions, health and steps stay. -/
theorem liftCap_relimit_only (s : State) (i : ImgRec) : ∃ l w, (s.liftCap i).relimit = { s with link := l, power := w } := by
  obtain ⟨l, w, e⟩ := relimit_only (s.liftCap i)
  exact ⟨l, w, e⟩

theorem irq_bit7 (s : State) : (s.irq 7).ctl.irqStatus.getLsbD 7 = true := by
  simp [State.irq]

/-- The image that arming checks: the pending one, if there is one (R223). -/
def Partition.armImage (x : Partition) : Option ImgRec := match x.pendingImg with | some i => some i | none => x.active

/-- An image passes every check of R281: ARMED once the common P-state is at FLOOR or faster. -/
def State.armPassed (s : State) (p : PartId) (i : ImgRec) : State :=
  if (s.liftCap i).relimit.floorMet i then ((s.liftCap i).relimit.enterArmed p i).irq 7 else (s.liftCap i).relimit

/-- `s` with the first check that failed in ARM_RESULT. -/
def State.armReported (s : State) (n : Nat) : State := { s with rt := { s.rt with armResult := BitVec.ofNat 8 n } }

/-- Check n fails: DISARMED, or DISARMING where arming began there and steps of before remain (R281, R426). -/
def State.armFailed (s : State) (n : Nat) : State :=
  (if !s.rt.again ∨ (s.rt.pend = [] ∧ ¬ s.steps.any (fun x => x.rt)) then (s.armReported n).enterDisarmed
    else { s.armReported n with rt := { (s.armReported n).rt with arm := .disarming } }).irq 7

theorem exec_armComplete_eq {s : State} {p : PartId} (hp : s.rtPart = some p) (ha : s.rt.arm = .arming) (hw : s.awake = true)
    (hr : (s.part p).run = none) :
    exec .armComplete s = .next (match s.armCheck p (s.part p).armImage, (s.part p).armImage with
      | 0, some i => s.armPassed p i
      | n, _ => s.armFailed n) := by
  rw [exec_armComplete, execArmComplete]
  simp only [hp]
  rw [if_neg (by simp [ha, hw, hr])]
  change (match s.armCheck p (s.part p).armImage, (s.part p).armImage with | 0, some i => _ | n, _ => _) = _
  generalize s.armCheck p (s.part p).armImage = n
  cases n <;> cases (s.part p).armImage <;> rfl

/-- Nothing but the outcome of arming moves the steps; an image in service is reported (R281, R282). -/
theorem armPassed_spec (s : State) (p : PartId) (i : ImgRec) : (s.armPassed p i).steps = s.steps ∧
    (InService s (s.armPassed p i) p i ∧ (s.armPassed p i).ctl.irqStatus.getLsbD 7 = true ∨
      (s.armPassed p i).rt = s.rt ∧ (s.armPassed p i).cores = s.cores ∧ (s.armPassed p i).parts = s.parts) := by
  obtain ⟨l, w, e⟩ := liftCap_relimit_only s i
  unfold State.armPassed
  rw [e]
  split
  · have h := enterArmed_inService { s with link := l, power := w } p i
    exact ⟨h.steps, .inl ⟨h.of_power.irq 7, irq_bit7 _⟩⟩
  · exact ⟨rfl, .inr ⟨rfl, rfl, rfl⟩⟩

/-- A lone engine that meets FLOOR already is ARMED at once. -/
theorem armPassed_alone {s : State} {i : ImgRec} (p : PartId) (h : Alone s) (hc : s.power.capP ≤ imgFloor i.bytes)
    (hf : s.floorMet i = true) : (s.armPassed p i).rt.arm = .armed := by
  unfold State.armPassed
  rw [liftCap_of_le hc, relimit_alone h, if_pos hf]
  exact (enterArmed_inService s p i).arm

theorem armFailed_spec (s : State) (n : Nat) : (s.armFailed n).rt.armResult = BitVec.ofNat 8 n ∧
    (s.armFailed n).ctl.irqStatus.getLsbD 7 = true ∧ (s.armFailed n).parts = s.parts ∧ (s.armFailed n).steps = s.steps ∧
    (s.armFailed n).rt.arm = if !s.rt.again ∨ (s.rt.pend = [] ∧ ¬ s.steps.any (fun x => x.rt)) then .disarmed else .disarming := by
  obtain ⟨l, w, e⟩ := enterDisarmed_only (s.armReported n)
  unfold State.armFailed
  rw [e]
  split
  · exact ⟨rfl, irq_bit7 _, rfl, rfl, rfl⟩
  · exact ⟨rfl, irq_bit7 _, rfl, rfl, rfl⟩

/-- No RT step is left. -/
theorem not_any_rt {xs : List StepRec} (h : ∀ x ∈ xs, x.rt = false) : ¬ xs.any (fun x => x.rt) = true := by
  simpa using h

/-- A doorbell or an RT step is left. -/
theorem not_rtIdle {s : State} (h : s.rt.pend ≠ [] ∨ ∃ x ∈ s.steps, x.rt = true) :
    ¬ (s.rt.pend = [] ∧ ¬ s.steps.any (fun x => x.rt) = true) := by
  rintro ⟨hq, hx⟩
  rcases h with h | ⟨x, hm, hr⟩
  · exact h hq
  · exact hx (List.any_eq_true.2 ⟨x, hm, hr⟩)

/-- Settles O39: each write of ARM by the state it finds; ARM_COMPLETE by its check, then by the P-state. -/
theorem arming : Obligations.arming := by
  unfold Obligations.arming
  intro s p hp
  refine ⟨fun async hm => ⟨fun h => ?_, fun h => ?_, fun h => ?_, fun h => ⟨?_, ?_⟩, fun h => ?_, fun h => ?_⟩,
    fun v hc hs ha hv => ⟨fun h1 h => ?_, fun h1 h => ?_, fun h1 h => ?_⟩, fun ha hw hr => ?_, fun ha hq hx => ?_, fun ha hq => ?_⟩
  · exact arm_of_disarmed h ▸ endsDone_arm hp hm async
  · exact arm_of_disarming h ▸ endsDone_arm hp hm async
  · have h1 := endsDone_arm hp hm async
    rwa [arm_of_other h] at h1
  · exact disarm_of_armed h ▸ endsDone_disarm hp hm async
  · exact disarm_of_armed h ▸ endsDone_disarm hp hm async
  · have h1 := endsDone_disarm hp hm async
    rwa [disarm_of_disarmed h] at h1
  · exact ⟨s.disarm, endsDone_disarm hp hm async, disarm_of_halted h⟩
  · rw [exec_rtArm_served hp hc hs ha hv, if_pos h1, arm_of_disarmed h]
  · rw [exec_rtArm_served hp hc hs ha hv, if_pos h1, arm_of_disarming h]
  · rw [exec_rtArm_served hp hc hs ha hv, if_neg (by rw [h1]; decide), disarm_of_armed h]
  · refine ⟨fun i hi hc => ?_, fun hc => ?_⟩
    · change (s.part p).armImage = some i at hi
      change s.armCheck p (s.part p).armImage = 0 at hc
      have e : exec .armComplete s = .next (s.armPassed p i) := by
        rw [exec_armComplete_eq hp ha hw hr, hc, hi]
        rfl
      obtain ⟨hsteps, hout⟩ := armPassed_spec s p i
      refine ⟨_, e, hsteps, hout.imp_left fun ⟨h, hq⟩ => ?_, armPassed_alone p⟩
      exact ⟨h.arm, h.result, h.active, h.pending, hq, h.pairs, h.hotSpare, h.code, h.others⟩
    · change s.armCheck p (s.part p).armImage ≠ 0 at hc
      obtain ⟨hres, hirq, hparts, hsteps, harm⟩ := armFailed_spec s (s.armCheck p (s.part p).armImage)
      have e : exec .armComplete s = .next (s.armFailed (s.armCheck p (s.part p).armImage)) := by
        rw [exec_armComplete_eq hp ha hw hr]
        split
        · exact absurd ‹_› hc
        · rfl
      refine ⟨_, e, hres, hirq, hparts, hsteps, fun h => harm.trans (if_pos ?_), fun h1 h2 => harm.trans (if_neg ?_)⟩
      · exact h.imp (by simp) (fun ⟨h1, h2⟩ => ⟨h1, not_any_rt h2⟩)
      · rintro (h | h)
        · simp [h1] at h
        · exact not_rtIdle h2 h
  · rw [exec_disarmComplete, execDisarmComplete, if_pos ⟨ha, hq, not_any_rt hx⟩]
    obtain ⟨l, w, e⟩ := enterDisarmed_only s
    exact ⟨_, rfl, by rw [e]; rfl, by rw [e]; rfl, by rw [e]; rfl, by rw [e]; rfl⟩
  · rw [exec_disarmComplete, execDisarmComplete, if_neg]
    exact fun ⟨_, h⟩ => not_rtIdle hq h

end Sys2Proof.Machine

/-!
PROOFS. Reads of host memory that bring their bytes: they touch the ports and the translation caches alone, and rest on nothing else but
these and Midwinter, so that the loader reads the same code before and after a run is opened (R224, R305 to R312).
-/
namespace Sys2Proof.Machine
open Sys2Proof.Safety

/-! ### Ports and caches -/

/-- `t` with the ports and the translation caches of `s`. -/
def State.hosting (t s : State) : State := { t with ports := s.ports, xlate := s.xlate }

theorem countParity_hosting (t s : State) (n : Nat) : (t.hosting s).countParity n = t.hosting (s.countParity n) := by
  unfold State.countParity
  rw [apply_ite t.hosting]
  rfl

theorem tableParity_hosting (t s : State) (cl : ClusterId) (ast va : Nat) :
    (t.hosting s).tableParity cl ast va = t.hosting (s.tableParity cl ast va) := by
  unfold State.tableParity
  dsimp only
  rw [apply_ite t.hosting, ← countParity_hosting]
  rfl

theorem stewardParity_hosting (t s : State) (cl : ClusterId) (ast va : Nat) :
    (t.hosting s).stewardParity cl ast va = t.hosting (s.stewardParity cl ast va) := by
  unfold State.stewardParity
  dsimp only
  rw [apply_ite t.hosting, ← countParity_hosting]
  rfl

theorem cacheTables_hosting (t s : State) (n : PortId) (ts : List TableEnt) :
    ts.foldl (fun (s : State) e => s.cacheTable n e) (t.hosting s) = t.hosting (ts.foldl (fun (s : State) e => s.cacheTable n e) s) :=
  List.foldl_hom t.hosting (fun _ _ => rfl)

/-! ### Walks, pages, reads -/

/-- A walk that ends in a translation (R305 to R308). -/
theorem portWalk_hosting (t s : State) (n : PortId) (qos : Fin 4) (ast va : Nat) (rs : List WalkRead) (l : Leaf)
    (h : (s.portWalk n qos ast va rs).2 = some (.ok l)) :
    (t.hosting s).portWalk n qos ast va rs = (t.hosting (s.portWalk n qos ast va rs).1, some (.ok l)) := by
  unfold State.portWalk at h ⊢
  dsimp only at h ⊢
  rw [tableParity_hosting]
  generalize s.tableParity n ast va = u at h ⊢
  change (match u.walkBegin n ast va with | .error e => _ | .ok w => _) = _
  cases hw : u.walkBegin n ast va with
  | error e =>
    rw [hw] at h
    simp at h
  | ok w =>
    rw [hw] at h
    dsimp only at h ⊢
    cases hr : (walkAll w rs).1 with
    | none => simp [hr] at h
    | some x =>
      cases x with
      | error e => simp [hr] at h
      | ok l' =>
        simp only [hr, Option.some.injEq, Except.ok.injEq] at h ⊢
        rw [h, show (t.hosting u).countWalk = t.hosting u.countWalk from rfl, cacheTables_hosting]
        rfl

/-- A page that translates (R303, R310, R312). -/
theorem stewardPage_hosting (t s : State) (hm : t.inMidwinter = s.inMidwinter) (n : PortId) (qos : Fin 4) (ast va : Nat)
    (ws : List (List WalkRead)) (pa : Nat) (h : (s.stewardPage n qos ast va ws).2.2 = some (.ok pa)) :
    (t.hosting s).stewardPage n qos ast va ws = (t.hosting (s.stewardPage n qos ast va ws).1, (s.stewardPage n qos ast va ws).2) := by
  have hm' : (s.stewardParity n ast va).inMidwinter = s.inMidwinter := by
    rw [show s.stewardParity n ast va = s.hosting (s.stewardParity n ast va) from stewardParity_hosting s s n ast va]
    rfl
  unfold State.stewardPage at h ⊢
  dsimp only at h ⊢
  rw [stewardParity_hosting]
  rw [← hm'] at hm
  generalize s.stewardParity n ast va = u at h hm ⊢
  have hl : (t.hosting u).stewardLookup n ast va = (u.stewardLookup n ast va).map (fun x => (x.1, t.hosting x.2)) := by
    unfold State.stewardLookup
    rw [show (t.hosting u).inMidwinter = u.inMidwinter from hm]
    split
    · rfl
    · change (match lookupLeaf u.xlate.stewards[n.val] ast va with | some (l, ls) => _ | none => none) = _
      cases lookupLeaf u.xlate.stewards[n.val] ast va <;> rfl
  rw [hl]
  cases hu : u.stewardLookup n ast va with
  | some x => rfl
  | none =>
    rw [hu] at h
    dsimp only [Option.map] at h ⊢
    rcases hw : u.portWalk n qos ast va (ws.headD []) with ⟨v, _ | e | l⟩
    · rw [hw] at h
      cases h
    · rw [hw] at h
      cases h
    · have ht := portWalk_hosting t u n qos ast va _ l (by rw [hw])
      rw [ht, hw]
      rfl

/-- The page that one request of a read by pages reads: under an AST, or at a physical address. -/
def State.readPage (s : State) (tr : Option Nat) (n : PortId) (qos : Fin 4) (va : Nat) (ws : List (List WalkRead)) :
    State × List (List WalkRead) × Option (Except XFault Nat) :=
  match tr with
  | some ast => s.stewardPage n qos ast va ws
  | none => (s, ws, some (.ok va))

theorem readPage_hosting (t s : State) (hm : t.inMidwinter = s.inMidwinter) (tr : Option Nat) (n : PortId) (qos : Fin 4) (va : Nat)
    (ws : List (List WalkRead)) (pa : Nat) (h : (s.readPage tr n qos va ws).2.2 = some (.ok pa)) :
    (t.hosting s).readPage tr n qos va ws = (t.hosting (s.readPage tr n qos va ws).1, (s.readPage tr n qos va ws).2) := by
  cases tr with
  | none => rfl
  | some ast => exact stewardPage_hosting t s hm n qos ast va ws pa h

/-- A request whose bytes have come: the read goes on behind it. -/
theorem stewardPages_cons {s : State} {tr : Option Nat} {qos : Fin 4} {r : ReadResult} {n : PortId} {g : Seg} {rest : List (PortId × Seg)}
    {ws : List (List WalkRead)} {pa : Nat} (hc : s.portCarries n = true) (hp : (s.readPage tr n qos g.va ws).2.2 = some (.ok pa))
    (hl : g.len ≤ r.bytes.length - g.off) : s.stewardPages tr qos r ((n, g) :: rest) ws =
      ((s.readPage tr n qos g.va ws).1.countRead n pa g.len).stewardPages tr qos r rest (s.readPage tr n qos g.va ws).2.1 := by
  rw [State.stewardPages.eq_def]
  dsimp only
  rw [if_neg (by simp [hc])]
  change (match (s.readPage tr n qos g.va ws).2.2 with | none => _ | some (.error e) => _ | some (.ok pa) => _) = _
  rw [hp]
  exact if_pos hl

/-- A read that brings its bytes has the bytes of its first request. -/
theorem of_stewardPages_data {s : State} {tr : Option Nat} {qos : Fin 4} {r : ReadResult} {n : PortId} {g : Seg}
    {rest : List (PortId × Seg)} {ws : List (List WalkRead)} {bs : List Byte}
    (h : (s.stewardPages tr qos r ((n, g) :: rest) ws).2 = .data bs) :
    s.portCarries n = true ∧ (∃ pa, (s.readPage tr n qos g.va ws).2.2 = some (.ok pa)) ∧ g.len ≤ r.bytes.length - g.off := by
  rw [State.stewardPages.eq_def] at h
  dsimp only at h
  split at h
  · cases h
  · rename_i hc
    refine ⟨by simpa using hc, ?_⟩
    change (match (s.readPage tr n qos g.va ws).2.2 with | none => _ | some (.error e) => _ | some (.ok pa) => _ : State × ReadEnd).2 = _ at h
    rcases hp : (s.readPage tr n qos g.va ws).2.2 with _ | e | pa
    · rw [hp] at h
      cases h
    · rw [hp] at h
      cases h
    · rw [hp] at h
      refine ⟨⟨pa, rfl⟩, ?_⟩
      by_contra hl
      dsimp only at h
      rw [if_neg hl] at h
      split at h <;> cases h

/-- A read by pages that brings its bytes (R312). -/
theorem stewardPages_hosting (t : State) (tr : Option Nat) (qos : Fin 4) (r : ReadResult) (bs : List Byte) (gs : List (PortId × Seg))
    (s : State) (hm : t.inMidwinter = s.inMidwinter) (ws : List (List WalkRead)) (h : (s.stewardPages tr qos r gs ws).2 = .data bs) :
    (t.hosting s).stewardPages tr qos r gs ws = (t.hosting (s.stewardPages tr qos r gs ws).1, .data bs) := by
  induction gs generalizing s ws with
  | nil => exact Prod.ext rfl h
  | cons g gs ih =>
    obtain ⟨n, g⟩ := g
    obtain ⟨hc, ⟨pa, hp⟩, hl⟩ := of_stewardPages_data h
    have ht := readPage_hosting t s hm tr n qos g.va ws pa hp
    have hs : (s.readPage tr n qos g.va ws).1 = s.hosting (s.readPage tr n qos g.va ws).1 :=
      congrArg Prod.fst (readPage_hosting s s rfl tr n qos g.va ws pa hp)
    have hm' : t.inMidwinter = ((s.readPage tr n qos g.va ws).1.countRead n pa g.len).inMidwinter := by
      rw [hs]
      exact hm
    rw [stewardPages_cons hc hp hl] at h ⊢
    rw [stewardPages_cons (s := t.hosting s) hc (by rw [ht]; exact hp) hl, ht]
    exact ih _ hm' _ h

/-- A read of host memory under an AST that brings its bytes. -/
theorem stewardRead_hosting (t s : State) (hm : t.inMidwinter = s.inMidwinter) (n : PortId) (qos : Fin 4) (ast va len : Nat)
    (r : ReadResult) (bs : List Byte) (h : (s.stewardRead n qos ast va len r).2 = .data bs) :
    (t.hosting s).stewardRead n qos ast va len r = (t.hosting (s.stewardRead n qos ast va len r).1, .data bs) :=
  stewardPages_hosting t _ _ _ bs _ s hm _ h

/-! ### The loader -/

/-- The loader's read of one cluster's code (R224). -/
def State.codeRead (s : State) (x : StepRec) (img : ImgRec) (twin : Bool) (cl : ClusterId) (r : ReadResult) : State × ReadEnd :=
  let at' := match findSection img.bytes (if twin then 3 else 1) with | some y => (y.off, y.size) | none => (0, 0)
  s.stewardRead cl (qosOf x.rt x.cls) img.ast (img.va + at'.1) at'.2 r

theorem codeRead_hosting (t s : State) (hm : t.inMidwinter = s.inMidwinter) {x : StepRec} {img : ImgRec} {twin : Bool} {cl : ClusterId}
    {r : ReadResult} {u : State} {bs : List Byte} (h : s.codeRead x img twin cl r = (u, .data bs)) :
    (t.hosting s).codeRead x img twin cl r = (t.hosting u, .data bs) := by
  have hr := stewardRead_hosting t s hm _ _ _ _ _ _ bs (congrArg Prod.snd h)
  exact hr.trans (congrArg (fun v => (t.hosting v, ReadEnd.data bs)) (congrArg Prod.fst h))

/-- How the loader goes on from the read of cluster `cl`: to the rest, or to the fault that ends the step. -/
def codeReadsFrom (x : StepRec) (img : ImgRec) (twin : Bool) (cl : ClusterId) (rest : List ClusterId) (rs : List ReadResult) :
    State × ReadEnd → State × Except (Byte × Nat) (Tab (List Byte))
  | (u, .data bs) => ((u.codeReads x img twin rest rs).1, (u.codeReads x img twin rest rs).2.map (fun t => (cl.val, bs) :: t))
  | (u, e) => match u.stewardFault cl img.ast e with
    | (v, some w) => (v, .error w)
    | (_, none) => (u, .ok [])

theorem codeReads_cons (s : State) (x : StepRec) (img : ImgRec) (twin : Bool) (cl : ClusterId) (rest : List ClusterId)
    (rs : List ReadResult) : s.codeReads x img twin (cl :: rest) rs =
      codeReadsFrom x img twin cl rest (rs.drop 1) (s.codeRead x img twin cl (rs.headD (.data []))) := by
  have key : ∀ y : State × ReadEnd,
      (match y.2, (y.1.stewardFault cl img.ast y.2).2 with
        | .data bs, _ => (match y.1.codeReads x img twin rest (rs.drop 1) with
          | (s, .ok t) => (s, Except.ok ((cl.val, bs) :: t))
          | (s, .error e) => (s, .error e))
        | _, some w => ((y.1.stewardFault cl img.ast y.2).1, .error w)
        | _, none => (y.1, .ok [])) = codeReadsFrom x img twin cl rest (rs.drop 1) y := by
    rintro ⟨u, bs | _ | _ | _⟩
    · dsimp only [codeReadsFrom]
      rcases u.codeReads x img twin rest (rs.drop 1) with ⟨v, _ | _⟩ <;> rfl
    · rfl
    · rfl
    · rfl
  rw [State.codeReads.eq_def]
  exact key (s.codeRead x img twin cl (rs.headD (.data [])))

/-- Where every cluster's read brings bytes, the first does, and the rest does (R224). -/
theorem of_codeReads_ok {s : State} {x : StepRec} {img : ImgRec} {twin : Bool} {cl : ClusterId} {rest : List ClusterId}
    {rs : List ReadResult} {tab : Tab (List Byte)} (h : (s.codeReads x img twin (cl :: rest) rs).2 = .ok tab)
    (hl : tab.length = rest.length + 1) : ∃ u bs t, s.codeRead x img twin cl (rs.headD (.data [])) = (u, .data bs) ∧
      (u.codeReads x img twin rest (rs.drop 1)).2 = .ok t ∧ tab = (cl.val, bs) :: t := by
  rw [codeReads_cons] at h
  rcases hr : s.codeRead x img twin cl (rs.headD (.data [])) with ⟨u, bs | _ | _ | _⟩
  · rw [hr] at h
    dsimp only [codeReadsFrom] at h
    cases ht : (u.codeReads x img twin rest (rs.drop 1)).2 with
    | error e =>
      rw [ht] at h
      cases h
    | ok t =>
      rw [ht] at h
      cases h
      exact ⟨u, bs, t, rfl, ht, rfl⟩
  · rw [hr] at h
    cases h
  · rw [hr] at h
    cases h
  · rw [hr] at h
    cases h
    cases hl

/-- Reads that bring every cluster's code bring it in another state with the same ports and caches too. -/
theorem codeReads_hosting (t : State) (x : StepRec) (img : ImgRec) (twin : Bool) (cls : List ClusterId) (s : State)
    (hm : t.inMidwinter = s.inMidwinter) (rs : List ReadResult) (tab : Tab (List Byte))
    (h : (s.codeReads x img twin cls rs).2 = .ok tab) (hl : tab.length = cls.length) :
    (t.hosting s).codeReads x img twin cls rs = (t.hosting (s.codeReads x img twin cls rs).1, .ok tab) := by
  induction cls generalizing s rs tab with
  | nil => exact Prod.ext rfl h
  | cons cl rest ih =>
    obtain ⟨u, bs, tab', hr, ht, rfl⟩ := of_codeReads_ok h hl
    have es : u = s.hosting u := congrArg Prod.fst (hr.symm.trans (codeRead_hosting s s rfl hr))
    have hm' : t.inMidwinter = u.inMidwinter := by
      rw [es]
      exact hm
    rw [codeReads_cons, codeReads_cons, codeRead_hosting t s hm hr, hr]
    dsimp only [codeReadsFrom]
    rw [ih u hm' (rs.drop 1) tab' ht (Nat.succ.inj hl)]
    rfl

/-- Each cluster's code stands in the table under its number. -/
theorem codeReads_keys (x : StepRec) (img : ImgRec) (twin : Bool) (cls : List ClusterId) (s : State) (rs : List ReadResult)
    (tab : Tab (List Byte)) (h : (s.codeReads x img twin cls rs).2 = .ok tab) (hl : tab.length = cls.length) :
    tab.map Prod.fst = cls.map Fin.val := by
  induction cls generalizing s rs tab with
  | nil => simpa using hl
  | cons cl rest ih =>
    obtain ⟨u, bs, tab', -, ht, rfl⟩ := of_codeReads_ok h hl
    rw [List.map_cons, List.map_cons, ih u (rs.drop 1) tab' ht (Nat.succ.inj hl)]

/-- A listed key reads the same whatever an unlisted one would. -/
theorem tabGet_of_mem {β : Type} {tab : Tab β} {k : Nat} (h : k ∈ tab.map Prod.fst) (d e : β) : Tab.get d tab k = Tab.get e tab k := by
  induction tab with
  | nil => cases h
  | cons y tab ih =>
    obtain ⟨i, v⟩ := y
    unfold Tab.get
    split
    · rfl
    · rename_i hk
      exact ih ((List.mem_cons.1 h).resolve_left hk)

end Sys2Proof.Machine

/-!
PROOFS. How a run starts: the step in STARTED, the cores as the loader leaves them, the checkers behind their leads (R165, R186, R201, R224,
R242, R385).
-/
namespace Sys2Proof.Machine
open Sys2Proof.Safety

/-! ### Steps -/

/-- A change that keeps the acceptance sequence number changes the step that it names. -/
theorem step?_modStep (s : State) (a : Nat) (f : StepRec → StepRec) (hf : ∀ y, (f y).aseq = y.aseq) :
    (s.modStep a f).step? a = (s.step? a).map f := by
  have hg : ∀ y : StepRec, (if y.aseq = a then f y else y).aseq = y.aseq := by
    intro y
    split
    · exact hf y
    · rfl
  unfold State.step? State.modStep
  dsimp only
  rw [List.find?_map]
  have hp : ((fun x : StepRec => x.aseq == a) ∘ fun y => if y.aseq = a then f y else y) = fun x : StepRec => x.aseq == a :=
    funext fun y => by simp only [Function.comp, hg]
  rw [hp]
  cases hx : s.steps.find? (fun x => x.aseq == a) with
  | none => rfl
  | some y =>
    have hy : y.aseq = a := by simpa using List.find?_some hx
    simp [hy]

theorem journalWrite_entries (s : State) (x : StepRec) :
    ∃ es, s.journalWrite x = { s with journal := { s.journal with entries := es } } := by
  unfold State.journalWrite
  split
  · exact ⟨s.journal.entries, rfl⟩
  · exact ⟨_, rfl⟩

/-- A transition changes the step, and writes its entry (R241). -/
theorem transition_eq (s : State) (a : Nat) (st : StepState) (status : Byte) :
    ∃ es, s.transition a st status = { s.modStep a (fun x => { x with state := st, status := status, tLast := s.now }) with
      journal := { s.journal with entries := es } } := by
  unfold State.transition
  dsimp only
  split
  · exact journalWrite_entries _ _
  · exact ⟨s.journal.entries, rfl⟩

/-! ### One core -/

/-- Descriptor records of a bank fill AINC and ABIND (R187, R220). -/
theorem loadRecs_only (k : Core) (rs : List DescRec) : ∃ a b, k.loadRecs rs = { k with ainc := a, abind := b } := by
  unfold Core.loadRecs
  induction rs generalizing k with
  | nil => exact ⟨k.ainc, k.abind, rfl⟩
  | cons r rs ih => exact ih _

/-- A core that holds its code stands at the start of a run (R165, R185, R187, R201). -/
theorem started_started (k : Core) (p : PartId) (img : ImgRec) (twin : Bool) (args : List DWord) (code : List Byte)
    (h : ∀ n, Tab.get 0 k.imem n = code.getD n 0) : Started (k.started p img twin args) args code := by
  unfold Core.started
  obtain ⟨a, b, e⟩ := loadRecs_only _ (img.records twin)
  rw [e]
  exact ⟨rfl, rfl, fun n => ⟨rfl, rfl⟩, fun i => Vector.getElem_ofFn .., rfl, rfl, rfl, h⟩

theorem started_loaded (k : Core) (p : PartId) (img : ImgRec) (twin : Bool) (args : List DWord) :
    Started (k.loaded p img twin false args) args (img.code twin) :=
  started_started (k.withImage img twin) p img twin args _ (imem_withCode k (img.code twin))

theorem started_withCode {k : Core} {args : List DWord} {a : List Byte} (h : Started k args a) (b : List Byte) :
    Started (k.withCode b) args b :=
  ⟨h.phase, h.pc, h.tags, h.scalars, h.addresses, h.counters, h.vectors, imem_withCode k b⟩

/-- The class RT partition's cores keep the instruction memory they were filled with at arming (R24, R281). -/
theorem loaded_rt (k : Core) (p : PartId) (img : ImgRec) (twin : Bool) (args : List DWord) :
    (k.loaded p img twin true args).phase = .running ∧ (k.loaded p img twin true args).pc = 0 ∧
      (k.loaded p img twin true args).imem = k.imem ∧
      ∀ i : Fin 32, (k.loaded p img twin true args).s[i.val] = if 1 ≤ i.val ∧ i.val ≤ 8 then args.getD (i.val - 1) 0 else 0 := by
  change (k.started p img twin args).phase = _ ∧ (k.started p img twin args).pc = _ ∧ (k.started p img twin args).imem = _ ∧
    ∀ i : Fin 32, (k.started p img twin args).s[i.val] = _
  unfold Core.started
  obtain ⟨a, b, e⟩ := loadRecs_only _ (img.records twin)
  rw [e]
  exact ⟨rfl, rfl, rfl, fun i => Vector.getElem_ofFn ..⟩

theorem imem_iterate_loaded_rt (k : Core) (p : PartId) (img : ImgRec) (twin : Bool) (args : List DWord) (n : Nat) :
    ((fun k => k.loaded p img twin true args)^[n] k).imem = k.imem := by
  induction n with
  | zero => rfl
  | succ n ih =>
    obtain ⟨-, -, hi, -⟩ := loaded_rt ((fun k => k.loaded p img twin true args)^[n] k) p img twin args
    rw [Function.iterate_succ_apply', hi, ih]

/-! ### The cores of a run -/

/-- A partition at the start of a run: strip counter and event counters 0 (R201, R202). -/
def Partition.cleared (y : Partition) : Partition := { y with stripCounter := 0, events := Vector.replicate 16 0 }

theorem loadCores_general (s : State) (p : PartId) (cs : List CoreId) (img : ImgRec) (twin : Bool) (args : List DWord) :
    s.loadCores p cs img twin false args =
      (cs.foldl (fun s c => s.modCore c (fun k => k.loaded p img twin false args)) s).modPart p Partition.cleared := rfl

theorem loadCores_rt (s : State) (p : PartId) (cs : List CoreId) (img : ImgRec) (twin : Bool) (args : List DWord) :
    s.loadCores p cs img twin true args =
      ((cs.foldl (fun s c => s.modCore c (fun k => k.loaded p img twin true args)) s).modPart p Partition.cleared).followRun := rfl

/-- The checker of a pair is brought up to its lead, unless it leads a pair itself (R385). -/
def State.followPair (s : State) (x : PairSt) : State :=
  match x.lead, x.checker with
  | some l, some k => if s.fault.pairs.toList.any (fun y => decide (y.lead = some k)) then s
    else s.modCore (coreAt 0 k) (fun y => y.behind (s.core (coreAt 0 l)))
  | _, _ => s

theorem followLeads_eq (s : State) : s.followLeads = s.fault.pairs.toList.foldl State.followPair s := rfl

theorem coreAt_injective {cl : ClusterId} {i j : Fin 5} (h : coreAt cl i = coreAt cl j) : i = j := by
  have := congrArg Fin.val h
  simp only [coreAt] at this
  omega

/-- What `u` is to `s` where checkers alone were brought up to their leads: a core that leads a pair follows none. -/
def Followed (s u : State) : Prop :=
  ∃ ks, u = { s with cores := ks } ∧ ∀ l : Fin 5, (∃ y ∈ s.fault.pairs.toList, y.lead = some l) →
    ks[(coreAt 0 l).val] = s.core (coreAt 0 l)

theorem followed_refl (s : State) : Followed s s := ⟨s.cores, rfl, fun _ _ => rfl⟩

theorem followed_trans {s t u : State} (h : Followed s t) (g : Followed t u) : Followed s u := by
  obtain ⟨ks, rfl, hk⟩ := h
  obtain ⟨ls, rfl, hl⟩ := g
  exact ⟨ls, rfl, fun l hy => (hl l hy).trans (hk l hy)⟩

theorem followed_followPair (s : State) (x : PairSt) : Followed s (s.followPair x) := by
  unfold State.followPair
  split
  · rename_i k _ _
    split
    · exact followed_refl s
    · rename_i hk
      refine ⟨_, rfl, fun l hl => core_modCore_ne _ _ _ _ (fun e => hk ?_)⟩
      obtain ⟨y, hy, hl⟩ := hl
      exact List.any_eq_true.2 ⟨y, hy, by simp [hl, coreAt_injective e]⟩
  · exact followed_refl s

theorem followed_followLeads (s : State) : Followed s s.followLeads := by
  rw [followLeads_eq]
  generalize s.fault.pairs.toList = xs
  induction xs generalizing s with
  | nil => exact followed_refl s
  | cons x xs ih => exact followed_trans (followed_followPair s x) (ih (s.followPair x))

theorem followed_followRun (s : State) : Followed s s.followRun := by
  unfold State.followRun
  split
  · split
    · exact followed_followLeads s
    · exact followed_refl s
  · exact followed_refl s

/-! ### The loader -/

/-- What the loader finds for the cores of a cluster (R224). -/
def loadedCode (img : ImgRec) (twin : Bool) (tab : Tab (List Byte)) (c : CoreId) : List Byte :=
  if img.resident = true then img.code twin else Tab.get [] tab (clusterOf c).val

theorem clusterOf_mem {cs : List CoreId} {c : CoreId} (h : c ∈ cs) : clusterOf c ∈ clustersOf cs := by
  simp only [clustersOf, List.mem_filter, List.mem_finRange, true_and, List.any_eq_true, decide_eq_true_eq]
  exact ⟨c, h, rfl⟩

/-- The cores of a general run before code comes through the ports: every one of them at its start, no other touched. -/
theorem loadCores_spec (s : State) (p : PartId) (cs : List CoreId) (img : ImgRec) (twin : Bool) (args : List DWord) :
    ∃ ks, s.loadCores p cs img twin false args = { s.modPart p Partition.cleared with cores := ks } ∧
      (∀ c : CoreId, c ∉ cs → ks[c.val] = s.core c) ∧ ∀ c : CoreId, c ∈ cs → Started ks[c.val] args (img.code twin) := by
  obtain ⟨ks, e, hout, hin⟩ := foldl_modCore_spec cs (fun _ k => k.loaded p img twin false args) s
  refine ⟨ks, ?_, hout, fun c hc => ?_⟩
  · rw [loadCores_general, e]
    rfl
  · obtain ⟨n, en⟩ := hin c hc
    rw [en]
    exact started_loaded _ p img twin args

/-- The loader fills the cores of a general run where its reads bring the code, whatever else has changed since (R224). -/
theorem loadRun_loads {s u : State} {p : PartId} {x : StepRec} {img : ImgRec} {twin : Bool} {cs : List CoreId} {code : List ReadResult}
    {tab : Tab (List Byte)} (hp : u.ports = s.ports) (hc : u.xlate = s.xlate) (hm : u.inMidwinter = s.inMidwinter)
    (hx : x.rt = false) (args : List DWord)
    (hl : Loads s p x img twin cs code tab) :
    ∃ ks po xl, u.loadRun p x cs img twin args (some code) = { u.modPart p Partition.cleared with cores := ks, ports := po, xlate := xl } ∧
      (∀ c : CoreId, c ∉ cs → ks[c.val] = u.core c) ∧ ∀ c : CoreId, c ∈ cs → Started ks[c.val] args (loadedCode img twin tab c) := by
  obtain ⟨ks, e, hout, hin⟩ := loadCores_spec u p cs img twin args
  unfold State.loadRun
  dsimp only
  rw [hx, e]
  unfold Loads at hl
  by_cases hr : img.resident = true
  · rw [if_pos hr]
    refine ⟨ks, u.ports, u.xlate, rfl, hout, fun c hc => ?_⟩
    rw [loadedCode, if_pos hr]
    exact hin c hc
  · rw [if_neg hr] at hl ⊢
    obtain ⟨hok, hlen⟩ := hl
    have hv : State.hosting { u.modPart p Partition.cleared with cores := ks } s = { u.modPart p Partition.cleared with cores := ks } := by
      unfold State.hosting
      rw [← hp, ← hc]
      rfl
    have hread := codeReads_hosting { u.modPart p Partition.cleared with cores := ks } x img twin (clustersOf cs) s hm code tab hok hlen
    rw [hv] at hread
    rw [hread]
    dsimp only
    generalize (s.codeReads x img twin (clustersOf cs) code).1 = w
    obtain ⟨ls, el, lout, lin⟩ := foldl_modCore_spec cs (fun c k => k.withCode (Tab.get (img.code twin) tab (clusterOf c).val))
      (State.hosting { u.modPart p Partition.cleared with cores := ks } w)
    refine ⟨ls, w.ports, w.xlate, el, fun c hc => (lout c hc).trans (hout c hc), fun c hc => ?_⟩
    obtain ⟨n, en⟩ := lin c hc
    have hkey : (clusterOf c).val ∈ tab.map Prod.fst := by
      rw [codeReads_keys x img twin _ s code tab hok hlen]
      exact List.mem_map_of_mem (clusterOf_mem hc)
    rw [en, withCode_iterate, loadedCode, if_neg hr, tabGet_of_mem hkey [] (img.code twin)]
    exact started_withCode (hin c hc) _

theorem fixDeep_only (s : State) (rs : List (Nat × Nat)) : ∃ d sc, s.fixDeep rs = { s with deep := d, scrub := sc } := by
  unfold State.fixDeep
  split
  · exact ⟨s.deep, s.scrub, rfl⟩
  · unfold State.eccFixed
    split
    · exact ⟨_, s.scrub, rfl⟩
    · exact ⟨_, _, rfl⟩

/-- The loader's read of a resident image that holds no poisoned word corrects flipped words and no more (R179, R224). -/
theorem loaderRead_loads {s u : State} {p : PartId} {x : StepRec} {img : ImgRec} {twin : Bool} {cs : List CoreId} {code : List ReadResult}
    {tab : Tab (List Byte)} (hd : u.deep = s.deep) (ha : (u.part p).imageArea = (s.part p).imageArea) (hl : Loads s p x img twin cs code tab) :
    ∃ d sc, u.loaderRead p img twin = { u with deep := d, scrub := sc } := by
  unfold State.loaderRead
  split
  · exact ⟨u.deep, u.scrub, rfl⟩
  · rename_i hr
    unfold Loads at hl
    rw [if_pos (by simpa using hr)] at hl
    have hcr : u.codeRange p img twin = s.codeRange p img twin := by
      unfold State.codeRange Partition.area
      rw [ha]
    have hpo : u.deepPoisonIn (s.codeRange p img twin).1 (s.codeRange p img twin).2 = none := by
      rw [← hl]
      unfold State.deepPoisonIn
      rw [hd]
    dsimp only
    rw [hcr, hpo]
    exact fixDeep_only u _

/-! ### The run -/

/-- The run of a step as its start opens it. -/
def freshRun (x : StepRec) (cores : List CoreId) (now : Nat) : RunSt :=
  { aseq := x.aseq, cores := cores, twin := x.twin, phase := .running, arrived := [], taken := [], started := now,
    firstIssue := false, cclk := 0, issueCclk := 0, tokenCclk := 0, tokenIssue := 0, stopCclk := 0, heldKill := false, sliced := false,
    ended := now }

/-- `s` with the steps that a start leaves: the step STARTED, one start more (R242). -/
def State.stepStarted (s : State) (x : StepRec) : State :=
  (s.modStep x.aseq (fun y => { y with starts := y.starts + 1, aged := 0, flags := 0 })).modStep x.aseq
    (fun y => { y with state := .started, status := x.status, tLast := s.now })

/-- `s` with a run opened on cores, its entry `es` in the journal, in Summer (R241, R360). -/
def State.opened (s : State) (p : PartId) (x : StepRec) (cs : List CoreId) (es : Tab JEntry) : State :=
  { (s.stepStarted x).modPart p (fun y => { y with run := some (freshRun x cs s.now) }) with
    journal := { s.journal with entries := es }, power := { s.power with season := .summer } }

theorem startRun_eq (s : State) (p : PartId) (x : StepRec) (cs : List CoreId) (img : ImgRec) (args : List DWord)
    (code : Option (List ReadResult)) : ∃ es, s.startRun p x cs img args code =
      if x.rt then (s.opened p x cs es).loadRun p x cs img x.twin args code
      else ((s.opened p x cs es).loadRun p x cs img x.twin args code).loaderRead p img x.twin := by
  obtain ⟨es, e⟩ := transition_eq (s.modStep x.aseq (fun y => { y with starts := y.starts + 1, aged := 0, flags := 0 })) x.aseq .started x.status
  refine ⟨es, ?_⟩
  unfold State.startRun
  dsimp only
  rw [e]
  rfl

theorem step?_opened (s : State) (p : PartId) (x : StepRec) (cs : List CoreId) (es : Tab JEntry) :
    (s.opened p x cs es).step? x.aseq = (s.step? x.aseq).map (fun y =>
      { y with starts := y.starts + 1, aged := 0, flags := 0, state := .started, status := x.status, tLast := s.now }) := by
  change (s.stepStarted x).step? x.aseq = _
  unfold State.stepStarted
  rw [step?_modStep, step?_modStep, Option.map_map]
  · rfl
  · exact fun y => rfl
  · exact fun y => rfl

section
variable (s : State) (p : PartId) (x : StepRec) (cs : List CoreId) (es : Tab JEntry)

@[simp] theorem opened_deep : (s.opened p x cs es).deep = s.deep := rfl
@[simp] theorem opened_ports : (s.opened p x cs es).ports = s.ports := rfl
@[simp] theorem opened_xlate : (s.opened p x cs es).xlate = s.xlate := rfl
@[simp] theorem opened_inMidwinter : (s.opened p x cs es).inMidwinter = s.inMidwinter := rfl
@[simp] theorem part_opened : (s.opened p x cs es).part p = { s.part p with run := some (freshRun x cs s.now) } := part_modPart _ p _
theorem part_opened_ne {k : PartId} (h : k ≠ p) : (s.opened p x cs es).part k = s.part k := part_modPart_ne _ p k _ h

end

/-- The start of a general run (R241, R242, R224). -/
theorem startRun_general {s : State} {p : PartId} {x : StepRec} {img : ImgRec} {cs : List CoreId} {code : List ReadResult}
    {tab : Tab (List Byte)} (hx : x.rt = false) (args : List DWord) (hl : Loads s p x img x.twin cs code tab) :
    ∃ es ks po xl d sc, s.startRun p x cs img args (some code) = { (s.opened p x cs es).modPart p Partition.cleared with
        cores := ks, ports := po, xlate := xl, deep := d, scrub := sc } ∧
      (∀ c : CoreId, c ∉ cs → ks[c.val] = s.core c) ∧ ∀ c : CoreId, c ∈ cs → Started ks[c.val] args (loadedCode img x.twin tab c) := by
  obtain ⟨es, e⟩ := startRun_eq s p x cs img args (some code)
  obtain ⟨ks, po, xl, er, hout, hin⟩ := loadRun_loads (opened_ports s p x cs es) (opened_xlate s p x cs es) (opened_inMidwinter s p x cs es)
    hx args hl
  have hdeep : ((s.opened p x cs es).loadRun p x cs img x.twin args (some code)).deep = s.deep := by
    rw [er]
    exact opened_deep s p x cs es
  have harea : (((s.opened p x cs es).loadRun p x cs img x.twin args (some code)).part p).imageArea = (s.part p).imageArea := by
    rw [er]
    change (((s.opened p x cs es).modPart p Partition.cleared).part p).imageArea = _
    rw [part_modPart, part_opened]
    rfl
  obtain ⟨d, sc, ed⟩ := loaderRead_loads hdeep harea hl
  refine ⟨es, ks, po, xl, d, sc, ?_, hout, hin⟩
  rw [e, hx, if_neg (by decide), ed, er]

/-- The start of an RT run: every lead at its start, with the instruction memory that it holds (R24, R242). -/
theorem startRun_rt {s : State} {p : PartId} {x : StepRec} {img : ImgRec} {cs : List CoreId} (hx : x.rt = true) (args : List DWord)
    (hcs : ∀ c ∈ cs, ∃ l, c = coreAt 0 l ∧ ∃ y ∈ s.fault.pairs.toList, y.lead = some l) :
    ∃ es ks, s.startRun p x cs img args none = { (s.opened p x cs es).modPart p Partition.cleared with cores := ks } ∧
      ∀ c ∈ cs, ∃ k : Core, ks[c.val] = k.loaded p img x.twin true args ∧ k.imem = (s.core c).imem := by
  obtain ⟨es, e⟩ := startRun_eq s p x cs img args none
  obtain ⟨ks, ek, -, hin⟩ := foldl_modCore_spec cs (fun _ k => k.loaded p img x.twin true args) (s.opened p x cs es)
  obtain ⟨ls, el, hl⟩ := followed_followRun { (s.opened p x cs es).modPart p Partition.cleared with cores := ks }
  have hload : (s.opened p x cs es).loadRun p x cs img x.twin args none =
      (s.opened p x cs es).loadCores p cs img x.twin true args := by
    unfold State.loadRun
    rw [hx]
  refine ⟨es, ls, ?_, fun c hc => ?_⟩
  · rw [e, hx, if_pos rfl, hload, loadCores_rt, ek]
    exact el
  · obtain ⟨l, rfl, hy⟩ := hcs c hc
    obtain ⟨n, hn⟩ := hin _ hc
    exact ⟨_, (hl l hy).trans hn, imem_iterate_loaded_rt ..⟩

end Sys2Proof.Machine

/-!
PROOFS. What the end of a step and its completion record leave alone: the RT pending list, RT_SEQ and the next ASEQ (R21, R239, R241, R279).
-/
namespace Sys2Proof.Machine
open Sys2Proof.Safety

/-- What a start of an RT step takes from: the pending list, RT_SEQ and NEXT_ASEQ. -/
def State.intake (s : State) : List RtPending × Word × Nat := (s.rt.pend, s.rt.seq, s.journal.nextAseq)

theorem foldl_intake {α : Type} {f : State → α → State} (hf : ∀ s a, (f s a).intake = s.intake) (xs : List α) (s : State) :
    (xs.foldl f s).intake = s.intake := by
  induction xs generalizing s with
  | nil => rfl
  | cons a xs ih => exact (ih (f s a)).trans (hf s a)

/-! ### Updates and events -/

@[simp] theorem intake_modCore (s : State) (c : CoreId) (f : Core → Core) : (s.modCore c f).intake = s.intake := rfl
@[simp] theorem intake_modPart (s : State) (p : PartId) (f : Partition → Partition) : (s.modPart p f).intake = s.intake := rfl
@[simp] theorem intake_modQueue (s : State) (q : QueueId) (f : Queue → Queue) : (s.modQueue q f).intake = s.intake := rfl
@[simp] theorem intake_modStep (s : State) (a : Nat) (f : StepRec → StepRec) : (s.modStep a f).intake = s.intake := rfl
@[simp] theorem intake_modRecord (s : State) (i : Nat) (f : PendRec → PendRec) : (s.modRecord i f).intake = s.intake := rfl
@[simp] theorem intake_session (s : State) (a : Nat) (f : Session → Session) : (s.session a f).intake = s.intake := rfl
@[simp] theorem intake_charge (s : State) (p : PartId) (q : QueueId) (n : Nat) (b : Bool) : (s.charge p q n b).intake = s.intake := by
  unfold State.charge
  dsimp only
  rw [intake_modQueue, intake_modPart]
@[simp] theorem intake_countWalk (s : State) : s.countWalk.intake = s.intake := rfl

theorem EccLogged.intake {s t : State} (h : EccLogged s t) : t.intake = s.intake := by
  obtain ⟨d, sc, l, h, n, i, rfl⟩ := h
  rfl

@[simp] theorem intake_health (s : State) (code : Nat) (core : Option CoreId) (cluster detail : Nat) :
    (s.health code core cluster detail).intake = s.intake := (eccLogged_health s code core cluster detail).intake

@[simp] theorem intake_rtFault (s : State) (code : Nat) (core : Option CoreId) (detail : Nat) :
    (s.rtFault code core detail).intake = s.intake := by
  unfold State.rtFault
  dsimp only
  generalize eventRecord code core 0 detail s.now = r
  obtain ⟨l, e⟩ := forwardEvent_link (({ s with fault := { s.fault with
    rtFaults := Tab.put s.fault.rtFaults (s.fault.rtFaultNext.toNat % 16) r, rtFaultNext := s.fault.rtFaultNext + 1 } }).irq 1) r
  rw [e]
  rfl

@[simp] theorem intake_stopQueue (s : State) (q : QueueId) : (s.stopQueue q).intake = s.intake := by
  unfold State.stopQueue
  split
  · rfl
  · simp

/-! ### The end of a step -/

@[simp] theorem intake_transition (s : State) (a : Nat) (st : StepState) (status : Byte) :
    (s.transition a st status).intake = s.intake := by
  obtain ⟨es, e⟩ := transition_eq s a st status
  rw [e]
  rfl

@[simp] theorem intake_headWaits (s : State) (q : QueueId) : (s.headWaits q).intake = s.intake := by
  unfold State.headWaits
  split <;> rfl

@[simp] theorem intake_dropStep (s : State) (a : Nat) : (s.dropStep a).intake = s.intake := by
  unfold State.dropStep
  dsimp only
  split
  · rw [intake_headWaits]
    rfl
  · rfl

@[simp] theorem intake_postRecord (s : State) (q : QueueId) (p : PartId) (c : Option Nat) (qos : Fin 4) (n : Nat) (bs : List Byte) :
    (s.postRecord q p c qos n bs).intake = s.intake := rfl

@[simp] theorem intake_failStep (s : State) (a : Nat) (status : Byte) (detail : Nat) : (s.failStep a status detail).intake = s.intake := by
  unfold State.failStep
  split
  · rfl
  · simp

@[simp] theorem intake_followLeads (s : State) : s.followLeads.intake = s.intake := by
  obtain ⟨ks, e, -⟩ := followed_followLeads s
  rw [e]
  rfl

/-- A run that is over leaves its time in the RT state, and no more (R280). -/
@[simp] theorem intake_closeRun (s : State) (p : PartId) (r : RunSt) : (s.closeRun p r).intake = s.intake := by
  have key : ∀ t : State, ((r.cores.foldl (fun s c => s.modCore c (fun k => { k with phase := .idle })) t).modPart p
      (fun x => { x with run := none })).intake = t.intake := fun t =>
    (intake_modPart _ p _).trans (foldl_intake (f := fun s c => s.modCore c (fun k => { k with phase := .idle }))
      (fun s c => intake_modCore s c _) r.cores t)
  unfold State.closeRun
  dsimp only
  split <;> split
  · exact (key s.followLeads).trans (intake_followLeads s)
  · exact (key s.followLeads).trans (intake_followLeads s)
  · exact key s
  · exact key s

@[simp] theorem intake_settleSeason (s : State) : s.settleSeason.intake = s.intake := by
  unfold State.settleSeason
  split
  · dsimp only
    split <;> rfl
  · rfl

@[simp] theorem intake_sendChain (s : State) (p : PartId) (e : Nat) (q : QueueId) : (s.sendChain p e q).intake = s.intake := by
  unfold State.sendChain
  split
  · rfl
  · split <;> rfl

@[simp] theorem intake_rtCommitted (s : State) (r : RunSt) : (s.rtCommitted r).intake = s.intake := by
  unfold State.rtCommitted
  dsimp only
  split
  · rfl
  · split
    · rw [intake_rtFault]
      rfl
    · rfl

@[simp] theorem intake_recordIrq (s : State) (q : QueueId) : (s.recordIrq q).intake = s.intake := by
  unfold State.recordIrq
  split
  · rfl
  · split <;> rfl

@[simp] theorem intake_commitStep (s : State) (p : PartId) (acked : Bool) : (s.commitStep p acked).intake = s.intake := by
  unfold State.commitStep
  split
  · rfl
  · split
    · rfl
    · split
      · rfl
      · rename_i r _ x _ _
        have chain : ∀ (xs : List (Nat × QueueId)) (t : State), (xs.foldl (fun s y => s.sendChain p y.1 y.2) t).intake = t.intake :=
          fun xs t => foldl_intake (f := fun s (y : Nat × QueueId) => s.sendChain p y.1 y.2) (fun s y => intake_sendChain s p y.1 y.2) xs t
        dsimp only
        simp only [intake_settleSeason, intake_dropStep, apply_ite State.intake, intake_rtCommitted, ite_self, chain, intake_session,
          intake_modPart, intake_closeRun, intake_charge, intake_recordIrq, intake_modQueue, intake_transition]

/-! ### Completion records -/

@[simp] theorem intake_recordFail (s : State) (r : PendRec) : (s.recordFail r).intake = s.intake := by
  unfold State.recordFail
  dsimp only
  split
  · rw [intake_commitStep, intake_stopQueue]
    rfl
  · rw [intake_stopQueue]
    rfl

theorem intake_present {s t : State} {n : PortId} {op : PortOp} {addr beats : Nat} {qos : Fin 4} {record : Bool} {o : Owner}
    {w : List (Nat × Byte)} (h : s.present n op addr beats qos record o w = some t) : t.intake = s.intake := by
  unfold State.present at h
  split at h
  · cases h
  · cases h
    rfl

@[simp] theorem intake_presentRecord (s : State) (r : PendRec) (n : PortId) (pa : Nat) : (s.presentRecord r n pa).intake = s.intake := by
  unfold State.presentRecord
  dsimp only
  split
  · rfl
  · rename_i s1 h1
    split
    · rfl
    · rename_i s2 h2
      rw [intake_modRecord, intake_present h2, intake_present h1]

@[simp] theorem intake_presentRecordWalk (s : State) (r : PendRec) (n : PortId) (w : WalkSt) :
    (s.presentRecordWalk r n w).intake = s.intake := by
  unfold State.presentRecordWalk
  split
  · rename_i t h
    rw [intake_modRecord, intake_present h]
  · rfl

@[simp] theorem intake_stewardParity (s : State) (cl : ClusterId) (ast va : Nat) : (s.stewardParity cl ast va).intake = s.intake := by
  rw [show s.stewardParity cl ast va = s.hosting (s.stewardParity cl ast va) from stewardParity_hosting s s cl ast va]
  rfl

@[simp] theorem intake_tableParity (s : State) (cl : ClusterId) (ast va : Nat) : (s.tableParity cl ast va).intake = s.intake := by
  rw [show s.tableParity cl ast va = s.hosting (s.tableParity cl ast va) from tableParity_hosting s s cl ast va]
  rfl

@[simp] theorem intake_countRange (s : State) (f : XFault) : (s.countRange f).intake = s.intake := by
  unfold State.countRange
  split <;> rfl

theorem intake_stewardLookup {s t : State} {cl : ClusterId} {ast va : Nat} {l : Leaf} (h : s.stewardLookup cl ast va = some (l, t)) :
    t.intake = s.intake := by
  unfold State.stewardLookup at h
  split at h
  · cases h
    rfl
  · split at h
    · cases h
      rfl
    · cases h

@[simp] theorem intake_driveRecord (s : State) (id : Nat) : (s.driveRecord id).intake = s.intake := by
  unfold State.driveRecord
  split
  · rfl
  · rename_i r _
    dsimp only
    split
    · rfl
    · split
      · rfl
      · split
        · split
          · rfl
          · simp
        · have parity := (intake_tableParity (s.stewardParity (s.partPort r.part) r.ast r.va) (s.partPort r.part) r.ast r.va).trans
            (intake_stewardParity s (s.partPort r.part) r.ast r.va)
          split
          · rename_i h
            split <;> simp [intake_stewardLookup h]
          · split
            · exact parity
            · split <;> simp

@[simp] theorem intake_driveRecords (s : State) : s.driveRecords.intake = s.intake :=
  foldl_intake (f := fun s (r : PendRec) => s.driveRecord r.id) (fun s r => intake_driveRecord s r.id) s.records s

end Sys2Proof.Machine

/-!
PROOFS. Stages 4 and 5: acceptance, dispatch, the start of an RT step (R21, R165, R201, R202, R224, R241, R242, R279).
-/
namespace Sys2Proof.Machine
open Sys2Proof.Safety

/-! ### Acceptance -/

/-- The step that acceptance makes of a descriptor (R21). -/
def State.acceptedStep (s : State) (q : QueueId) (d : StepDesc) (rt : Bool) (bell : Nat) : StepRec :=
  { aseq := s.journal.nextAseq, queue := q, part := (s.queue q).part, rt := rt, cls := (s.queue q).cls.val, ast := (s.queue q).ast.toNat,
    desc := d, image := (s.part (s.queue q).part).active, tables := s.tables.active, base := s.bindHandle d.base,
    adapter := s.bindHandle d.adapter, state := .accepted, status := 0, flags := 0, starts := 0, kills := 0,
    twin := false, lockKill := false, tAccept := s.now, tLast := s.now, aged := 0, since := s.now, tBell := bell, cclk := 0 }

theorem raiseTime_queues (s : State) (q : QueueId) (x : StepRec) : ∃ qs, s.raiseTime q x = { s with queues := qs } := by
  unfold State.raiseTime
  split
  · exact ⟨s.queues, rfl⟩
  · exact ⟨_, rfl⟩

/-- `s` with a step and the next ASEQ in the journal, its entry written and its session counted (R21, R241). -/
def State.entered (s : State) (x : StepRec) : State :=
  (({ s with steps := s.steps ++ [x], journal := { s.journal with nextAseq := (s.journal.nextAseq + 1) % 2 ^ 48 } }).journalWrite x).session
    x.ast (fun j => { j with accepted := j.accepted + 1 })

theorem acceptStep_entered (s : State) (q : QueueId) (d : StepDesc) (rt : Bool) (bell : Nat) : s.acceptStep q d rt bell =
    if (s.headOf q).isNone = true ∧ (!rt) = true then (s.entered (s.acceptedStep q d rt bell)).raiseTime q (s.acceptedStep q d rt bell)
    else s.entered (s.acceptedStep q d rt bell) := rfl

theorem entered_eq (s : State) (x : StepRec) : ∃ es ss, s.entered x = { s with
    steps := s.steps ++ [x]
    journal := { s.journal with nextAseq := (s.journal.nextAseq + 1) % 2 ^ 48, entries := es, sessions := ss } } := by
  unfold State.entered
  obtain ⟨es, e⟩ := journalWrite_entries
    { s with steps := s.steps ++ [x], journal := { s.journal with nextAseq := (s.journal.nextAseq + 1) % 2 ^ 48 } } x
  rw [e]
  exact ⟨es, _, rfl⟩

/-- Acceptance adds the step and takes an ASEQ; of the queues it touches virtual times alone, and none for an RT step (R21, R272). -/
theorem acceptStep_eq (s : State) (q : QueueId) (d : StepDesc) (rt : Bool) (bell : Nat) :
    ∃ es ss qs, s.acceptStep q d rt bell = { s with
        steps := s.steps ++ [s.acceptedStep q d rt bell]
        journal := { s.journal with nextAseq := (s.journal.nextAseq + 1) % 2 ^ 48, entries := es, sessions := ss }
        queues := qs } ∧ (rt = true → qs = s.queues) := by
  obtain ⟨es, ss, e⟩ := entered_eq s (s.acceptedStep q d rt bell)
  rw [acceptStep_entered]
  split
  · rename_i h
    obtain ⟨qs, eq⟩ := raiseTime_queues (s.entered (s.acceptedStep q d rt bell)) q (s.acceptedStep q d rt bell)
    rw [eq, e]
    exact ⟨es, ss, qs, rfl, fun hrt => absurd h.2 (by simp [hrt])⟩
  · rw [e]
    exact ⟨es, ss, s.queues, rfl, fun _ => rfl⟩

/-- ACCEPT (R21, R269). -/
theorem execAccept_eq {s : State} {q : QueueId} {f : Fetched} (hs : s.serving = true) (ha : s.awake = true) (hj : s.journalFree 17 = true)
    (hf : s.fetched.find? (fun f => decide (f.queue = q)) = some f) :
    execAccept q s = .next (({ s with fetched := s.fetched.erase f }).acceptStep q f.desc false 0) := by
  unfold execAccept
  rw [hf]
  simp [hs, ha, hj]

/-! ### Dispatch -/

/-- The cores that a step would run on (R262). -/
def State.stepCores (s : State) (p : PartId) (x : StepRec) (img : ImgRec) : List CoreId :=
  if x.rt then s.rtCores img else s.coresFor p img

/-- The number that R230 holds against CORES_MIN. -/
def State.stepCount (s : State) (p : PartId) (x : StepRec) (img : ImgRec) : Nat :=
  if x.rt then (s.stepCores p x img).length else (s.maskCores p img.arrays).length

/-- A step that has its image, its arguments and its cores starts (R230, R241). -/
theorem dispatchStep_starts {s : State} {p : PartId} {x : StepRec} {img : ImgRec} {args : List DWord} (code : Option (List ReadResult))
    (himg : x.image = some img) (hact : (s.part p).active.isSome = true) (hbounds : x.rt = true → rtBoundsOk img x.desc = true)
    (hargs : s.stepArgs x = .ok args) (hmin : img.coresMin ≤ s.stepCount p x img) (hcount : s.stepCount p x img ≠ 0)
    (hne : s.stepCores p x img ≠ []) (hat : usesAtomics img = true → ∀ c ∈ s.stepCores p x img, (s.port (portOf c)).atomicEn = true) :
    s.dispatchStep p x code = s.startRun p x (s.stepCores p x img) img args code := by
  obtain ⟨act, hact⟩ := Option.isSome_iff_exists.1 hact
  have hb : (x.rt && !rtBoundsOk img x.desc) = false := by
    cases h : x.rt
    · rfl
    · simp [hbounds h]
  have hatom : ¬ (usesAtomics img = true ∧ (s.stepCores p x img).any (fun c => !(s.port (portOf c)).atomicEn) = true) := by
    rintro ⟨hu, h⟩
    obtain ⟨c, hc, hn⟩ := List.any_eq_true.1 h
    simp [hat hu c hc] at hn
  have hlow : ¬ (s.stepCount p x img < img.coresMin ∨ s.stepCount p x img = 0) := by omega
  unfold State.dispatchStep
  rw [himg, hact]
  change (if (x.rt && !rtBoundsOk img x.desc) = true then _ else _) = _
  rw [hb, if_neg (by decide), hargs]
  change (if s.stepCount p x img < img.coresMin ∨ s.stepCount p x img = 0 then _ else if s.stepCores p x img = [] then _
    else if usesAtomics img = true ∧ (s.stepCores p x img).any (fun c => !(s.port (portOf c)).atomicEn) = true then _ else _) = _
  rw [if_neg hlow, if_neg hne]
  exact if_neg hatom

/-- Where a step runs on any core, its mask holds one. -/
theorem maskCores_ne_zero {s : State} {p : PartId} {img : ImgRec} (h : s.coresFor p img ≠ []) : (s.maskCores p img.arrays).length ≠ 0 := by
  intro h0
  apply h
  unfold State.coresFor
  rw [List.eq_nil_of_length_eq_zero h0, List.filter_nil, List.take_nil]

/-- DISPATCH of a general partition that may dispatch (R271). -/
theorem execDispatch_eq {s : State} {p : PartId} {x : StepRec} (code : List ReadResult) (hrt : (s.part p).rt = false)
    (hd : s.mayDispatch p = true) (hx : s.nextStep p = some x) : execDispatch ⟨p, code⟩ s = .next (s.dispatchStep p x (some code)) := by
  unfold execDispatch
  simp [hrt, hd, hx]

/-- A general step that may start does so (R241, R224). -/
theorem dispatchStep_general {s : State} {p : PartId} {x : StepRec} {img : ImgRec} {args : List DWord} {code : List ReadResult}
    (hx : x.rt = false) (himg : x.image = some img) (hact : (s.part p).active.isSome = true)
    (hargs : s.stepArgs x = .ok args) (hmin : img.coresMin ≤ (s.maskCores p img.arrays).length) (hne : s.coresFor p img ≠ [])
    (hat : usesAtomics img = true → ∀ c ∈ s.coresFor p img, (s.port (portOf c)).atomicEn = true) :
    s.dispatchStep p x (some code) = s.startRun p x (s.coresFor p img) img args (some code) := by
  have hcores : s.stepCores p x img = s.coresFor p img := by simp [State.stepCores, hx]
  have hcount : s.stepCount p x img = (s.maskCores p img.arrays).length := by simp [State.stepCount, hx]
  rw [← hcores] at hne hat ⊢
  rw [← hcount] at hmin
  refine dispatchStep_starts _ himg hact (by simp [hx]) hargs hmin ?_ hne hat
  rw [hcount]
  exact maskCores_ne_zero (hcores ▸ hne)

/-- Nothing starts while a run is not drained. -/
theorem mayDispatch_of_run {s : State} {p : PartId} (h : (s.part p).run.isSome = true) : s.mayDispatch p = false := by
  have hn : (s.part p).run.isNone = false := by rw [← Option.not_isSome, h]; rfl
  unfold State.mayDispatch
  simp [hn]

theorem execDispatch_of_run {s : State} {p : PartId} (code : List ReadResult) (h : (s.part p).run.isSome = true) :
    execDispatch ⟨p, code⟩ s = .next s := by
  unfold execDispatch
  simp [mayDispatch_of_run h]

/-! ### RT steps -/

@[simp] theorem intake_failAtDispatch (s : State) (x : StepRec) (status : Byte) (detail : Nat) :
    (s.failAtDispatch x status detail).intake = s.intake := by
  unfold State.failAtDispatch
  rw [intake_driveRecords, intake_failStep]

/-- The cores of an RT run lead pairs (R385). -/
theorem rtCores_lead {s : State} {img : ImgRec} {c : CoreId} (h : c ∈ s.rtCores img) :
    ∃ l, c = coreAt 0 l ∧ ∃ y ∈ s.fault.pairs.toList, y.lead = some l := by
  obtain ⟨y, hy, e⟩ := List.mem_filterMap.1 (List.mem_of_mem_take h)
  split at e
  · rename_i l hl
    split at e
    · cases e
      exact ⟨l, rfl, y, hy, hl⟩
    · cases e
  · cases e

/-- Whatever the dispatch of an RT step comes to, it takes no further doorbell and no further number. -/
theorem intake_dispatchStep_rt (s : State) (p : PartId) (x : StepRec) (hx : x.rt = true) : (s.dispatchStep p x none).intake = s.intake := by
  unfold State.dispatchStep
  split
  · split
    · simp
    · split
      · simp
      · rename_i img _ _ _ _ _ args _
        dsimp only
        split
        · simp
        · split
          · rfl
          · split
            · simp
            · obtain ⟨es, ks, e, -⟩ := startRun_rt (p := p) (img := img) hx args (fun c hc => rtCores_lead (s := s) (img := img) hc)
              rw [e]
              rfl
  · simp

/-- A step without weight-set handles takes its own argument words, with the commit word in word 7 where it asks for it (R237). -/
theorem stepArgs_plain (s : State) (x : StepRec) (hb : x.desc.base = 0) (ha : x.desc.adapter = 0) :
    s.stepArgs x = .ok (if x.desc.cwin then setNth x.desc.args 7 ((s.queue x.queue).cword.zeroExtend 64) else x.desc.args) := by
  unfold State.stepArgs
  simp [hb, ha]

theorem args_parseDesc_length (b : List Byte) : (parseDesc b).args.length = 8 := by
  unfold parseDesc
  simp

/-- The eighth word of a CWIN step, and the others (R237). -/
theorem getD_commitArgs {as : List DWord} (h : as.length = 8) (cwin : Bool) (w : DWord) {i : Nat} (hi : 1 ≤ i ∧ i ≤ 8) :
    (if cwin then setNth as 7 w else as).getD (i - 1) 0 = if i = 8 ∧ cwin = true then w else as.getD (i - 1) 0 := by
  cases cwin with
  | false => simp
  | true =>
    have hn : (7 = i - 1) ↔ i = 8 := by omega
    simp only [setNth, List.getD_eq_getElem?_getD, List.getElem?_set, if_true, hn, h, and_true]
    split
    · simp
    · rfl

theorem headOf_append {s t : State} {q : QueueId} {x : StepRec} (ht : t.steps = s.steps ++ [x]) (h : s.headOf q = none) (hx : x.queue = q) :
    t.headOf q = some x := by
  unfold State.headOf at h ⊢
  rw [ht, List.find?_append, h]
  simp [hx]

/-- RT_STEP_START with nothing to run again (R279). -/
theorem execRtStepStart_eq {s : State} {p : PartId} {q : QueueId} (hp : s.rtPart = some p) (hq : s.rtQueue = some q)
    (harm : s.rt.arm = .armed ∨ s.rt.arm = .disarming) (hqp : (s.queue q).part = p) (hd : s.mayDispatch p = true)
    (ht : s.fault.pairs.toList.any (fun y => y.testing) = false) (hh : s.headOf q = none) :
    execRtStepStart s = .next (s.startPending p q) := by
  unfold execRtStepStart
  rw [hp, hq]
  dsimp only
  have harm' : ¬ (s.rt.arm ≠ .armed ∧ s.rt.arm ≠ .disarming) := by tauto
  rw [if_neg (by simp [harm', hqp, hd, ht]), hh]

/-- The descriptor of an RT doorbell takes RT_SEQ for its QSEQ (R279). -/
def State.bellDesc (s : State) (e : RtPending) : StepDesc := { parseDesc e.bytes with qseq := s.rt.seq }

/-- The step of an RT doorbell (R279). -/
def State.bellStep (s : State) (q : QueueId) (e : RtPending) : StepRec := s.acceptedStep q (s.bellDesc e) true e.arrival

/-- `s` with the oldest RT doorbell accepted (R279). -/
def State.bellAccepted (s : State) (q : QueueId) (e : RtPending) (rest : List RtPending) : State :=
  ({ s with rt := { s.rt with pend := rest, seq := s.rt.seq + 1 } }).acceptStep q (s.bellDesc e) true e.arrival

theorem bellAccepted_eq (s : State) (q : QueueId) (e : RtPending) (rest : List RtPending) :
    ∃ es ss, s.bellAccepted q e rest = { s with
      rt := { s.rt with pend := rest, seq := s.rt.seq + 1 }
      steps := s.steps ++ [s.bellStep q e]
      journal := { s.journal with nextAseq := (s.journal.nextAseq + 1) % 2 ^ 48, entries := es, sessions := ss } } := by
  obtain ⟨es, ss, qs, ea, hqs⟩ := acceptStep_eq { s with rt := { s.rt with pend := rest, seq := s.rt.seq + 1 } } q (s.bellDesc e) true e.arrival
  rw [hqs rfl] at ea
  exact ⟨es, ss, ea⟩

theorem intake_bellAccepted (s : State) (q : QueueId) (e : RtPending) (rest : List RtPending) :
    (s.bellAccepted q e rest).intake = (rest, s.rt.seq + 1, (s.journal.nextAseq + 1) % 2 ^ 48) := by
  obtain ⟨es, ss, ea⟩ := bellAccepted_eq s q e rest
  rw [ea]
  rfl

/-- RT_STEP_START with an entry pending: its step is accepted and dispatched (R279). -/
theorem startPending_eq {s : State} {p : PartId} {q : QueueId} {e : RtPending} {rest : List RtPending} (hh : s.headOf q = none)
    (hpend : s.rt.pend = e :: rest) (hj : s.journalFree 1 = true) :
    s.startPending p q = (s.bellAccepted q e rest).dispatchStep p (s.bellStep q e) none := by
  have hhead : (s.bellAccepted q e rest).headOf q = some (s.bellStep q e) := by
    obtain ⟨es, ss, ea⟩ := bellAccepted_eq s q e rest
    rw [ea]
    exact headOf_append rfl hh rfl
  unfold State.startPending
  rw [hpend]
  simp only [hj, Bool.not_true, Bool.false_eq_true, if_false]
  change (match (s.bellAccepted q e rest).headOf q with | some x => _ | none => _) = _
  rw [hhead]
  rfl

/-- An RT step that may start does so, on the leads of the pairs (R24, R241, R242). -/
theorem dispatchStep_rt {s : State} {p : PartId} {x : StepRec} {img : ImgRec} {args : List DWord} (hx : x.rt = true)
    (himg : x.image = some img) (hact : (s.part p).active.isSome = true) (hbounds : rtBoundsOk img x.desc = true)
    (hargs : s.stepArgs x = .ok args) (hmin : img.coresMin ≤ (s.rtCores img).length) (hne : s.rtCores img ≠ [])
    (hat : usesAtomics img = true → ∀ c ∈ s.rtCores img, (s.port (portOf c)).atomicEn = true) :
    s.dispatchStep p x none = s.startRun p x (s.rtCores img) img args none := by
  have hcores : s.stepCores p x img = s.rtCores img := by simp [State.stepCores, hx]
  have hcount : s.stepCount p x img = (s.rtCores img).length := by simp [State.stepCount, hcores, hx]
  rw [← hcores] at hne hat ⊢
  refine dispatchStep_starts _ himg hact (fun _ => hbounds) hargs (hcount ▸ hmin) ?_ hne hat
  rw [hcount, ← hcores]
  exact fun h => hne (List.eq_nil_of_length_eq_zero h)

/-! ### The obligation -/

/-- The partition of a run that has just started. -/
theorem part_started (s : State) (p : PartId) (x : StepRec) (cs : List CoreId) (es : Tab JEntry) :
    ((s.opened p x cs es).modPart p Partition.cleared).part p = ({ s.part p with run := some (freshRun x cs s.now) }).cleared := by
  rw [part_modPart, part_opened]

theorem part_started_ne (s : State) {p k : PartId} (x : StepRec) (cs : List CoreId) (es : Tab JEntry) (h : k ≠ p) :
    ((s.opened p x cs es).modPart p Partition.cleared).part k = s.part k := by
  rw [part_modPart_ne _ _ _ _ h, part_opened_ne _ _ _ _ _ h]

/-- What runs after the dispatch of an RT doorbell's step, where that step may start. -/
theorem dispatchStep_bell {s : State} {p : PartId} {q : QueueId} {e : RtPending} {rest : List RtPending} {img : ImgRec}
    (hqp : (s.queue q).part = p) (hact : (s.part p).active = some img) (hbounds : rtBoundsOk img (s.bellDesc e) = true)
    (hb : (s.bellDesc e).base = 0) (ha : (s.bellDesc e).adapter = 0) (hmin : img.coresMin ≤ (s.rtCores img).length)
    (hne : s.rtCores img ≠ []) (hat : usesAtomics img = true → ∀ c ∈ s.rtCores img, (s.port (portOf c)).atomicEn = true) :
    let t := (s.bellAccepted q e rest).dispatchStep p (s.bellStep q e) none
    (t.part p).run = some (freshRun (s.bellStep q e) (s.rtCores img) s.now) ∧ (t.part p).stripCounter = 0 ∧
      ∀ c ∈ s.rtCores img, ∃ k : Core, k.imem = (s.core c).imem ∧ t.core c = k.loaded p img false true
        (if (s.bellDesc e).cwin then setNth (s.bellDesc e).args 7 ((s.queue q).cword.zeroExtend 64) else (s.bellDesc e).args) := by
  obtain ⟨es, ss, ea⟩ := bellAccepted_eq s q e rest
  generalize s.bellAccepted q e rest = u at ea
  have himg : (s.bellStep q e).image = some img := (congrArg (fun p => (s.part p).active) hqp).trans hact
  have hqueue : u.queue (s.bellStep q e).queue = s.queue q := by rw [ea]; rfl
  have hcores : u.rtCores img = s.rtCores img := by rw [ea]; rfl
  have hpart : (u.part p).active.isSome = true := by
    rw [ea]
    exact Option.isSome_of_mem hact
  have hport : u.port = s.port := by rw [ea]; rfl
  have hcore : u.core = s.core := by rw [ea]; rfl
  have hnow : u.now = s.now := by rw [ea]; rfl
  have hargs := stepArgs_plain u (s.bellStep q e) hb ha
  rw [← hport, ← hcores] at hat
  rw [← hcores] at hmin hne
  obtain ⟨js, ks, er, hk⟩ := startRun_rt (s := u) (p := p) (x := s.bellStep q e) (img := img) rfl _
    (fun c hc => rtCores_lead (s := u) (img := img) hc)
  have hp := part_started u p (s.bellStep q e) (u.rtCores img) js
  dsimp only
  rw [dispatchStep_rt rfl himg hpart hbounds hargs hmin hne hat, er]
  rw [← hcores, ← hnow]
  refine ⟨congrArg Partition.run hp, congrArg Partition.stripCounter hp, fun c hc => ?_⟩
  obtain ⟨k, hload, himem⟩ := hk c hc
  rw [hqueue] at hload
  exact ⟨k, himem.trans (congrArg Core.imem (congrFun hcore c)), hload⟩

/-- Settles O36, through the frame of acceptance (`acceptStep_eq`), of the start of a general run (`startRun_general`) and of the start of
an RT run (`startRun_rt`); whatever an RT dispatch comes to leaves the pending list and the numbers (`intake_dispatchStep_rt`). -/
theorem acceptanceAndDispatch : Obligations.acceptance_and_dispatch := by
  unfold Obligations.acceptance_and_dispatch
  intro s
  refine ⟨?_, ?_, ?_, ?_⟩
  · intro q f hs ha hj hf
    obtain ⟨es, ss, qs, e, -⟩ := acceptStep_eq { s with fetched := s.fetched.erase f } q f.desc false 0
    refine ⟨_, s.acceptedStep q f.desc false 0, by rw [exec_accept, execAccept_eq hs ha hj hf], ?_⟩
    rw [e]
    exact ⟨rfl, rfl, rfl, rfl, rfl, rfl, rfl, rfl, rfl, rfl, rfl, rfl, rfl, rfl, rfl⟩
  · intro p code x img args tab hrt hd hnext hx hstep himg hact hargs cs hmin hne hat hl
    obtain ⟨es, ks, po, xl, d, sc, e, hout, hin⟩ := startRun_general hx args hl
    have hstart := dispatchStep_general (code := code) hx himg hact hargs hmin hne hat
    have hp := part_started s p x cs es
    have hsteps := step?_opened s p x cs es
    rw [hstep] at hsteps
    refine ⟨_, freshRun x cs s.now, { x with starts := x.starts + 1, aged := 0, flags := 0, state := .started, tLast := s.now },
      (exec_dispatch _ _).trans ((execDispatch_eq code hrt hd hnext).trans
      (congrArg Host.Outcome.next (hstart.trans e))), ?_⟩
    exact ⟨congrArg Partition.run hp, rfl, rfl, rfl, rfl, hsteps, rfl, rfl, congrArg Partition.stripCounter hp,
      congrArg Partition.events hp, rfl, fun k hk => part_started_ne s x cs es hk, hout, hin⟩
  · intro p code hrun
    rw [exec_dispatch, execDispatch_of_run code hrun]
  · intro p q e rest hp hq harm hqp hd ht hh hpend hj
    have hint := (intake_dispatchStep_rt (s.bellAccepted q e rest) p (s.bellStep q e) rfl).trans (intake_bellAccepted s q e rest)
    simp only [State.intake, Prod.mk.injEq] at hint
    obtain ⟨hrest, hseq, haseq⟩ := hint
    refine ⟨_, (exec_rtStepStart s).trans ((execRtStepStart_eq hp hq harm hqp hd ht hh).trans
      (congrArg Host.Outcome.next (startPending_eq hh hpend hj))), hrest, hseq, haseq, ?_⟩
    intro img hact d cs hbounds hbase hadapter hmin hne hat
    obtain ⟨hrun, hstrip, hcores⟩ := dispatchStep_bell (rest := rest) hqp hact hbounds hbase hadapter hmin hne hat
    refine ⟨_, hrun, rfl, rfl, rfl, hstrip, fun c hc => ?_⟩
    obtain ⟨k, himem, hk⟩ := hcores c hc
    obtain ⟨hphase, hpc, hkeep, hscalars⟩ := loaded_rt k p img false
      (if d.cwin then setNth d.args 7 ((s.queue q).cword.zeroExtend 64) else d.args)
    rw [hk]
    refine ⟨hphase, hpc, hkeep.trans himem, fun i => (hscalars i).trans ?_⟩
    split
    · rename_i hi
      exact getD_commitArgs (args_parseDesc_length e.bytes) d.cwin _ hi
    · rfl

end Sys2Proof.Machine

/-!
PROOFS. What a slot alone in its bundle does: the bundle issues at once, the slot acts, and the core moves on (R184 to R206).
-/
namespace Sys2Proof.Machine
open Sys2Proof.Safety

/-! ### What a bundle leaves alone -/

theorem othersSame_refl (s : State) (c : CoreId) : OthersSame s s c :=
  ⟨fun _ _ => rfl, rfl, rfl, rfl, rfl, rfl, rfl, rfl, rfl, rfl, rfl, rfl, rfl, rfl, rfl, rfl, rfl, rfl, rfl⟩

theorem othersSame_modCore {s t : State} {c : CoreId} (h : OthersSame s t c) (f : Core → Core) : OthersSame s (t.modCore c f) c :=
  { h with cores := fun d hd => (core_modCore_ne t c d f hd).trans (h.cores d hd) }

theorem othersSame_modPart {s t : State} {c : CoreId} (h : OthersSame s t c) (p : PartId) (f : Partition → Partition) :
    OthersSame s (t.modPart p f) c := { h with cores := h.cores }

theorem othersSame_firstBundle {s t : State} {c : CoreId} (h : OthersSame s t c) (p : PartId) (x : StepRec) :
    OthersSame s (t.firstBundle p x) c := by
  unfold State.firstBundle
  split
  · exact h
  · split
    · exact h
    · next r _ _ =>
      have h' := othersSame_modPart h p (fun y => { y with run := some { r with firstIssue := true } })
      split
      · exact { h' with cores := h'.cores }
      · exact h'

/-! ### A core that only moves on -/

/-- A core with the bundle `ops` arrived and nothing staged. -/
def Core.holding (k : Core) (ops : List SlotOp) : Core := { k with staged := [], fetched := [ops] }

/-- A core whose only bundle issues: its slots have not acted yet. -/
def Core.begun (k : Core) : Core := { k with staged := [], fetched := [], watchdog := 0, issued := k.issued + 1 }

/-- The state in which the slots of that bundle act. -/
def State.begun (s : State) (c : CoreId) (p : PartId) (x : StepRec) : State := (s.modCore c Core.begun).firstBundle p x

/-- A slot left what the sequencer goes on from and the queue of passes as they were. -/
structure SameControl (k k' : Core) : Prop where
  phase : k'.phase = k.phase
  pc : k'.pc = k.pc
  loops : k'.loops = k.loops
  codeLen : k'.codeLen = k.codeLen
  passes : k'.passQ = k.passQ

/-- Away from the last bundle of the innermost loop the pc moves by one (R191). -/
theorem advance_straight {k : Core} (h : ∀ l rest, k.loops = l :: rest → l.last ≠ k.pc) : k.advance = { k with pc := k.pc + 1 } := by
  have he : Core.endTest 5 k.pc k = { k with pc := k.pc + 1 } := by
    unfold Core.endTest
    split
    · rfl
    · next l rest hl => rw [if_pos (h l rest hl)]
  rw [Core.advance, he, Core.refetch, if_pos rfl]

@[simp] theorem core_begun (s : State) (c : CoreId) (p : PartId) (x : StepRec) : (s.begun c p x).core c = (s.core c).begun := by
  simp [State.begun]

@[simp] theorem runOf_begun (s : State) (c d : CoreId) (p : PartId) (x : StepRec) : (s.begun c p x).runOf d = s.runOf d := by
  simp [State.begun]

theorem othersSame_begun (s : State) (c : CoreId) (p : PartId) (x : StepRec) : OthersSame s (s.begun c p x) c :=
  othersSame_firstBundle (othersSame_modCore (othersSame_refl s c) _) p x

/-- A change of a core matters by what it makes of that core as it stands. -/
theorem modCore_congr {s : State} {c : CoreId} {f g : Core → Core} (h : f (s.core c) = g (s.core c)) :
    s.modCore c f = s.modCore c g := by
  unfold State.modCore upd
  rw [show f s.cores[c.val] = g s.cores[c.val] from h]

/-- A change of a core that keeps its phase keeps whether it issues. -/
theorem issuing_modCore {s : State} {c : CoreId} {f : Core → Core} (h : (f (s.core c)).phase = (s.core c).phase) :
    (s.modCore c f).issuing c = s.issuing c := by
  simp [State.issuing, h]

theorem issuing_begun (s : State) (c : CoreId) (p : PartId) (x : StepRec) : (s.begun c p x).issuing c = s.issuing c := by
  simp [State.issuing, Core.begun]

/-! ### Fetch and action -/

/-- A fold none of whose steps changes the start ends where it began. -/
theorem foldl_same {α β : Type} {f : β → α → β} {b : β} {xs : List α} (h : ∀ a ∈ xs, f b a = b) : xs.foldl f b = b := by
  induction xs with
  | nil => rfl
  | cons a xs ih =>
    rw [List.foldl_cons, h a List.mem_cons_self]
    exact ih fun y hy => h y (List.mem_cons_of_mem a hy)

/-- A fetch that meets no error mark corrects nothing (R179). -/
theorem fixFetch_clean {s : State} {c : CoreId} (h : Safety.Fetched s c) : s.fixFetch c (s.core c) = s := by
  unfold State.fixFetch
  split
  · next hf => rw [State.fixStore, (h.store hf).2]
  · next hf =>
    refine foldl_same fun d hd => ?_
    rw [(h.own (by simpa using hf) d hd).1]

/-- No member of the core's pair sees an uncorrectable word in the bundle at the pc (R179, R386). -/
theorem seenBy_clean {s : State} {c : CoreId} (h : Safety.Fetched s c) (hf : (s.core c).frame = none) :
    s.seenBy c (fun q => (List.range 4).findSome? (fun i =>
      if Tab.get false q.imemPoison (4 * (s.core c).pc + i) then some (4 * (s.core c).pc + i) else none)) = [] := by
  refine List.filterMap_eq_nil_iff.mpr fun d hd => Option.map_eq_none_iff.mpr (List.findSome?_eq_none_iff.mpr fun i hi => ?_)
  have hp : (s.member c d).imemPoison = (s.core d).imemPoison := by
    unfold State.member
    split
    · next e => rw [e]
    · rfl
  rw [hp, (h.own hf d hd).2 i (List.mem_range.mp hi)]
  rfl

/-- A fetch that meets no error mark lets the bundle issue (R179, R206). -/
theorem withFetch_clean {s : State} {c : CoreId} (h : Safety.Fetched s c) (f : State → State) :
    s.withFetch c (s.core c) f = f s := by
  unfold State.withFetch
  split
  · next hf => rw [(h.store hf).1]; exact congrArg f (fixFetch_clean h)
  · next hf =>
    unfold State.withOwn
    rw [seenBy_clean h (by simpa using hf)]
    exact congrArg f (fixFetch_clean h)

/-- The bundle of a core that holds slots lies where it lay. -/
theorem fetched_holding {s : State} {c : CoreId} (h : Safety.Fetched s c) (ops : List SlotOp) :
    Safety.Fetched (s.modCore c (·.holding ops)) c := by
  have hc : ∀ d, ((s.modCore c (·.holding ops)).core d).imemFlip = (s.core d).imemFlip ∧
      ((s.modCore c (·.holding ops)).core d).imemPoison = (s.core d).imemPoison := by
    intro d
    rw [core_modCore_eq]
    split
    · next e => rw [e]; exact ⟨rfl, rfl⟩
    · exact ⟨rfl, rfl⟩
  refine ⟨fun hf d hd => ?_, fun hf => ?_⟩
  · rw [core_modCore] at hf ⊢
    rw [(hc d).1, (hc d).2]
    exact h.own hf d hd
  · rw [core_modCore] at hf ⊢
    exact h.store hf

/-- The slots of a bundle of one slot do what that slot does. -/
theorem actSlots_single {s : State} {c : CoreId} (k0 : Core) (o : SlotOp) (h : s.issuing c = true) :
    s.actSlots c k0 [o] = s.actSlot c k0 [o] o := by
  cases o <;> simp [State.actSlots, List.range_succ, SlotOp.slot, h]

/-- Before the last bundle the code has not ended (R205). -/
theorem pastEnd_inside {s : State} {c : CoreId} (h : (s.core c).pc < (s.core c).codeLen) : s.pastEnd c = s := by
  simp [State.pastEnd, h]

/-! ### A bundle of one slot -/

/-- A core after the bundle whose slot left `k`: it has moved on (R184, R191). -/
def Core.passed (k : Core) : Core := { k with pc := k.pc + 1, seq := k.seq + 1 }

/-- After slots that left it straight on, the core moves on and nothing else starts (R191, R205, R208). -/
theorem sequence_straight {t : State} {c : CoreId} (hloops : ∀ l rest, (t.core c).loops = l :: rest → l.last ≠ (t.core c).pc)
    (hmore : (t.core c).pc + 1 < (t.core c).codeLen) (hpass : (t.core c).passQ = []) :
    (((t.modCore c Core.advance).modCore c (fun k => { k with seq := k.seq + 1 })).pastEnd c).settleAga c =
      t.modCore c Core.passed := by
  have hadv : (t.modCore c Core.advance).modCore c (fun k => { k with seq := k.seq + 1 }) = t.modCore c Core.passed := by
    rw [modCore_modCore]
    refine modCore_congr ?_
    rw [advance_straight hloops]
    rfl
  rw [hadv, pastEnd_inside (by rw [core_modCore]; exact hmore), settleAga_none _ _ (by rw [core_modCore]; exact hpass)]

/-- A bundle of one slot that nothing holds issues at once: the slot acts, then the core moves on. -/
theorem tryIssue_single {s : State} {c : CoreId} {p : PartId} {r : RunSt} {x : StepRec} {o : SlotOp} {g : Core → Core}
    (h : Straight s c p r x) (hslot : o.slot ≠ 0)
    (hheld : bundleHeld ((s.core c).holding [o]) (s.part p).events.toList [o] = false)
    (hop : operandsOk ((s.core c).holding [o]) o = true)
    (hact : (s.begun c p x).actSlot c ((s.core c).holding [o]) [o] o = (s.begun c p x).modCore c g)
    (hg : SameControl (s.core c).begun (g (s.core c).begun)) :
    (s.modCore c (·.holding [o])).tryIssue c = ((s.begun c p x).modCore c g).modCore c Core.passed := by
  have hready := h.ready
  have hk : (s.modCore c (·.holding [o])).core c = (s.core c).holding [o] := core_modCore _ _ _
  have harrived : ((s.core c).holding [o]).fetched = [[o]] := rfl
  have hi : (s.modCore c (·.holding [o])).issuing c = true := (issuing_modCore rfl).trans hready.issuing
  have hfetch := fun f => hk ▸ withFetch_clean (fetched_holding hready.fetched [o]) f
  have hbegun : ((s.modCore c (·.holding [o])).modCore c
      (fun k => { k with fetched := [], watchdog := 0, issued := k.issued + 1 })).firstBundle p x = s.begun c p x :=
    congrArg (State.firstBundle · p x) (modCore_modCore _ _ _ _)
  have hslots : (s.begun c p x).actSlots c ((s.core c).holding [o]) [o] = (s.begun c p x).modCore c g :=
    (actSlots_single _ o ((issuing_begun s c p x).trans hready.issuing)).trans hact
  have hgoes : ((s.begun c p x).modCore c g).issuing c = true := by
    rw [issuing_modCore (by rw [core_begun]; exact hg.phase), issuing_begun, hready.issuing]
  have hcore : ((s.begun c p x).modCore c g).core c = g (s.core c).begun := by rw [core_modCore, core_begun]
  have hend := sequence_straight (t := (s.begun c p x).modCore c g) (c := c)
    (by rw [hcore, hg.loops, hg.pc]; exact h.inside) (by rw [hcore, hg.pc, hg.codeLen]; exact h.more)
    (by rw [hcore, hg.passes]; exact hready.calm.passes)
  unfold State.tryIssue
  simp only [hk, stepOf_modCore, hready.step, hi, part_modCore, hfetch, harrived, hheld, List.all_cons, List.all_nil, hop, hbegun,
    hslots, hgoes, Bool.not_true, Bool.or_self, Bool.and_self, Bool.false_eq_true, if_false]
  cases o with
  | seq q => exact absurd rfl hslot
  | _ => exact hend

/-- A slot alone in its bundle that the verifier accepts and nothing holds acts at once; the core moves on (R184 to R206). -/
theorem issueSlot_single {s : State} {c : CoreId} {p : PartId} {r : RunSt} {x : StepRec} {o : SlotOp} {g : Core → Core}
    (h : Straight s c p r x) (hslot : o.slot ≠ 0)
    (hbad : bundleBad (s.core c) (imageLimits x).1 (imageLimits x).2 [o] = false)
    (hheld : bundleHeld ((s.core c).holding [o]) (s.part p).events.toList [o] = false)
    (hop : operandsOk ((s.core c).holding [o]) o = true)
    (hact : (s.begun c p x).actSlot c ((s.core c).holding [o]) [o] o = (s.begun c p x).modCore c g)
    (hg : SameControl (s.core c).begun (g (s.core c).begun)) :
    ∃ t, s.issueSlot c true o = .next t ∧ OthersSame s t c ∧ t.core c = (g (s.core c).begun).passed := by
  have hready := h.ready
  refine ⟨((s.begun c p x).modCore c g).modCore c Core.passed, ?_,
    othersSame_modCore (othersSame_modCore (othersSame_begun s c p x) _) _, by simp⟩
  rw [← tryIssue_single h hslot hheld hop hact hg]
  have hone : dupes ([o].map SlotOp.slot) = false := rfl
  unfold State.issueSlot
  simp only [hready.issuing, hready.step, hready.calm.staged, hready.calm.fetched, List.nil_append, hone, hbad, Bool.not_true,
    Bool.false_eq_true, if_false, if_true]
  rfl

end Sys2Proof.Machine

/-!
PROOFS. Vector operations of one register result, and the FP32 operations on two registers (R45, R46, R133 to R135):
`vector_float_operations`.
-/
namespace Sys2Proof.Machine
open Sys2Proof.Safety

/-! ### Register results -/

/-- In a core with nothing in flight no register is still to be written. -/
theorem pending_calm {k : Core} (h : Calm k) (ops : List SlotOp) :
    (∀ i, (k.holding ops).pendingS i = false) ∧ (∀ i, (k.holding ops).pendingV i = false) := by
  have hvecs : (k.holding ops).vecQ = [] := h.vecs
  have hwrites : (k.holding ops).vecWrites = [] := by
    simp [Core.vecWrites, Core.holding, h.vecs, h.taps, h.reads, h.passes, h.mvps]
  exact ⟨fun i => by rw [Core.pendingS, hvecs]; rfl, fun i => by rw [Core.pendingV, hwrites]; rfl⟩

/-- A vector operation that does not load waits for no tag, and finds room for its store (R169, R189). -/
theorem slotHeld_vec {k : Core} (h : k.vecQ = []) (events : List Word) {o : VecOp} (hload : vecLoads o = false) :
    slotHeld k events (.vec o) = false := by
  change (!vecFed k o || (vecStores o && decide (4 ≤ (k.vecQ.filter _).length))) = false
  rw [h]
  simp [vecFed, hload]

/-- Nothing holds a vector operation that does not load, in a core with nothing in flight (R189). -/
theorem bundleHeld_vec {k : Core} (h : Calm k) (events : List Word) {o : VecOp} (hload : vecLoads o = false) :
    bundleHeld (k.holding [.vec o]) events [.vec o] = false := by
  obtain ⟨hs, hv⟩ := pending_calm h [.vec o]
  have htimed : (k.holding [.vec o]).timed = false := h.timed
  have hslot : slotHeld (k.holding [.vec o]) events (.vec o) = false := slotHeld_vec h.vecs events hload
  simp [bundleHeld, hs, hv, htimed, hslot]

/-- An operation that forms register results puts them into the pipeline (R133, R134). -/
theorem issueVec_of_compute {s : State} {c : CoreId} {k0 : Core} {o : VecOp} {r : List (VReg × Lanes) × Flags}
    (h : vecCompute (s.tablesOf c) k0 o = some r) : s.issueVec c k0 o = s.modCore c (fun k => k.vecResult k0.seq r.1 r.2) := by
  cases o with
  | vld | vldw | vst | vstn | sclw | vext => cases h
  | _ => simp only [State.issueVec, vecSpan, h]

/-- A vector operation that forms register results, alone in its bundle, issues them and nothing else (R133, R134, R188). -/
theorem vecIssued_of_compute {s : State} {c : CoreId} {p : PartId} {r : RunSt} {x : StepRec} {o : VecOp}
    {ws : List (VReg × Lanes)} {fl : Flags} (h : Straight s c p r x) (hload : vecLoads o = false)
    (hbad : bundleBad (s.core c) (imageLimits x).1 (imageLimits x).2 [.vec o] = false)
    (hop : operandsOk ((s.core c).holding [.vec o]) (.vec o) = true)
    (hr : vecCompute ((s.begun c p x).tablesOf c) ((s.core c).holding [.vec o]) o = some (ws, fl)) :
    ∃ t, s.issueSlot c true (.vec o) = .next t ∧ VecIssued s t c ws fl := by
  have hcalm := h.ready.calm
  obtain ⟨t, ht, hothers, hcore⟩ := issueSlot_single (g := fun k => k.vecResult (s.core c).seq ws fl) h (by simp [SlotOp.slot]) hbad
    (bundleHeld_vec hcalm _ hload) hop (issueVec_of_compute hr) ⟨rfl, rfl, rfl, rfl, rfl⟩
  refine ⟨t, ht, ?_, hothers⟩
  rw [hcore]
  simp only [Core.passed, Core.vecResult, Core.begun, moved, hcalm.vecs, List.nil_append, hcalm.staged, hcalm.fetched]

/-! ### Two registers -/

/-- The lanes of an operation on two registers and the union of their flags. -/
theorem lanes2_eq_lanesOf (f : Word → Word → Word × Flags) (x y : Lanes) : lanes2 f x y = lanesOf f x y := by
  have hlanes : (x.zipWith f y).map (·.1) = Vector.ofFn (fun i : Fin 64 => (f x[i.val] y[i.val]).1) :=
    Vector.ext fun i hi => by simp
  have hflags : (x.zipWith f y).toList.map (·.2) = (List.finRange 64).map (fun i => (f x[i.val] y[i.val]).2) :=
    List.ext_getElem (by simp) fun i hi _ => by simp
  exact Prod.ext hlanes (congrArg orFlags hflags)

/-- A lane operation on two registers, alone in its bundle (R135). -/
theorem vecIssued_bin {s : State} {c : CoreId} {p : PartId} {r : RunSt} {x : StepRec} (h : Straight s c p r x) (f : VBin)
    (d a b : VReg) : ∃ t, s.issueSlot c true (.vec (.bin f d a b)) = .next t ∧
      VecIssued s t c [(d, (lanesOf (laneBin f) (s.core c).v[a.val] (s.core c).v[b.val]).1)]
        (lanesOf (laneBin f) (s.core c).v[a.val] (s.core c).v[b.val]).2 := by
  rw [← lanes2_eq_lanesOf]
  exact vecIssued_of_compute h rfl rfl rfl rfl

/-! ### FP32 -/

/-- The unit's name of an FP32 operation. -/
def floatBin (f : FloatOp) : VBin :=
  match f with
  | .fadd => .fadd
  | .fsub => .fsub
  | .fmul => .fmul
  | .fmin => .fmin
  | .fmax => .fmax
  | .fcmplt => .fcmplt
  | .fcmple => .fcmple
  | .fcmpeq => .fcmpeq
  | .fscalb => .fscalb

theorem exec_floatCmd (f : FloatOp) (c : CoreId) (d a b : VReg) (s : State) :
    exec (floatCmd f c d a b) s = s.issueSlot c true (.vec (.bin (floatBin f) d a b)) := by
  cases f with
  | fadd => exact exec_fadd c true d a b s
  | fsub => exact exec_fsub c true d a b s
  | fmul => exact exec_fmul c true d a b s
  | fmin => exact exec_fmin c true d a b s
  | fmax => exact exec_fmax c true d a b s
  | fcmplt => exact exec_fcmplt c true d a b s
  | fcmple => exact exec_fcmple c true d a b s
  | fcmpeq => exact exec_fcmpeq c true d a b s
  | fscalb => exact exec_fscalb c true d a b s

/-- One lane of an FP32 operation: FSUB adds the word of inverted sign, a compare with a NaN gives 0 (R45, R46, Table 5-5). -/
theorem laneBin_floatBin (f : FloatOp) (a b : Word) : laneBin (floatBin f) a b = floatLane f a b := by
  cases f <;> rfl

/-- Settles O7: the command is a lane operation on two registers, whose lanes are those of Table 5-5. -/
theorem vectorFloatOperations : Obligations.vector_float_operations := by
  intro s c p r x h f d a b
  have hlane : laneBin (floatBin f) = floatLane f := funext fun u => funext fun w => laneBin_floatBin f u w
  rw [exec_floatCmd, ← hlane]
  exact vecIssued_bin h (floatBin f) d a b

end Sys2Proof.Machine

/-!
PROOFS. Loadable tables, root records, invalidation, pins and inbound windows (R72, R76, R145, R235, R304, R314, R317, R344):
`table_and_translation_entries`.
-/
namespace Sys2Proof.Machine
open Sys2Proof.Safety

/-! ### Writes that a rule accepts -/

theorem refuse_of_false {b : Bool} (h : b = false) (code : Nat) (k : Served) : refuse b code k = k := by
  rw [h]
  rfl

/-- Serving stewards answer a request as its handler does. -/
theorem pdServe_done {s u : State} {h : State → Served} (r : PdReq) (hs : s.serving = true) (hh : h s = done u) :
    s.pdServe r h = .ok (u, []) := by
  obtain ⟨hmid, hboot⟩ := not_midwinter hs
  unfold State.pdServe
  rw [hmid, hh, hboot]
  rfl

/-- A transaction ends at once unless its handler leaves walks to wait for (R314). -/
theorem pdRun_done {s u : State} {h : State → Served} (r : PdReq) (hs : s.serving = true) (hh : h s = done u)
    (hw : u.ctl.waitWalks = true → s.ctl.waitWalks = true) : s.pdRun r h = (u.pdCount r none).pdEnd r (.ok []) := by
  have hgo : ¬ (u.ctl.waitWalks = true ∧ (!s.ctl.waitWalks) = true) := by
    rintro ⟨h1, h2⟩
    rw [hw h1] at h2
    cases h2
  unfold State.pdRun
  rw [pdServe_done r hs hh]
  exact if_neg hgo

theorem pdRun_waits {s u : State} {h : State → Served} (r : PdReq) (hs : s.serving = true) (hh : h s = done u)
    (hu : u.ctl.waitWalks = true) (hw : s.ctl.waitWalks = false) : s.pdRun r h = u := by
  unfold State.pdRun
  rw [pdServe_done r hs hh]
  exact if_pos ⟨hu, by rw [hw]; rfl⟩

/-- A write served at once whose handler moves nothing of the control port but the wait for walks and PEER_EVENTS. -/
theorem pdCommand_served {s u : State} {r : PdReq} {h : State → Served} {w : Bool} {e : Byte} (hm : MailboxFree s) (hr : r.write = true)
    (hh : h (s.withCtl (busyCtl s.ctl r)) = done u) (hc : u.ctl = { busyCtl s.ctl r with waitWalks := w, peerEvents := e })
    (hw : w = true → s.ctl.waitWalks = true) :
    s.pdCommand r h = .next (u.withCtl { endCtl s.ctl r with waitWalks := w, peerEvents := e }) := by
  have hclaims : (busyCtl s.ctl r).attachWaits = [] := hm.claims
  rw [pdCommand_eq s r h hm]
  refine congrArg Host.Outcome.next ((pdRun_done (s := s.withCtl (busyCtl s.ctl r)) r hm.serving hh (by rw [hc]; exact hw)).trans ?_)
  unfold State.pdEnd State.pdCount
  cases ha : r.async <;> simp only [hc, hclaims, hr, ha, State.irq, endCtl, Bool.false_eq_true, if_true, if_false] <;> rfl

/-- The control port after such a write. -/
theorem finished_endCtl (c : CtlSt) (r : PdReq) (w : Bool) (e : Byte) :
    Finished c { endCtl c r with waitWalks := w, peerEvents := e } r.async :=
  ⟨⟨rfl, rfl, rfl, rfl, rfl, rfl, rfl, rfl, rfl, rfl, rfl⟩, rfl, rfl, rfl, rfl, rfl, rfl⟩

/-! ### Loadable tables -/

/-- A PENDING write that R72 accepts. -/
theorem writeCodebook_eq {s : State} {t : Fin 64} {bs : List Byte} (ht : t.val ≠ 0) (hl : bs.length = 32) (hb : s.bookBound t = false)
    (hf : ∀ i, i < 16 → finiteBf16 (leAt bs (2 * i) 2) = true) : s.writeCodebook t bs =
      done { s with tables := { s.tables with cbPending := s.tables.cbPending.set t.val bs t.isLt,
                                              cbMask := s.tables.cbMask ||| BitVec.ofNat 64 (2 ^ t.val) } } := by
  have hfinite : (List.range 16).any (fun i => !finiteBf16 (leAt bs (2 * i) 2)) = false := by
    simpa [List.any_eq_false] using hf
  unfold State.writeCodebook
  rw [refuse_of_false (decide_eq_false ht), refuse_of_false (decide_eq_false (not_not.2 hl)), refuse_of_false hb, refuse_of_false hfinite]
  rfl

theorem endsDone_codebookPendingWrite {s : State} {async : Bool} (hm : MailboxFree s) {t : Fin 64} {bs : List Byte} (ht : t.val ≠ 0)
    (hl : bs.length = 32) (hb : s.bookBound t = false) (hf : ∀ i, i < 16 → finiteBf16 (leAt bs (2 * i) 2) = true) :
    EndsDone (.codebookPendingWrite t bs async) s async
      { s with tables := { s.tables with cbPending := s.tables.cbPending.set t.val bs t.isLt,
                                         cbMask := s.tables.cbMask ||| BitVec.ofNat 64 (2 ^ t.val) } } :=
  ends_done s _ (fun s => s.writeCodebook t bs) async _ hm rfl rfl rfl (fun k => writeCodebook_eq (s := s.withCtl k) ht hl hb hf)

/-- A mask whose tables all have a pending copy names no other table. -/
theorem and_not_eq_zero {n : Nat} {m p : BitVec n} (h : ∀ i : Nat, i < n → m.getLsbD i = true → p.getLsbD i = true) :
    m &&& ~~~p = 0 := by
  refine BitVec.eq_of_getLsbD_eq fun i hi => ?_
  cases hm : m.getLsbD i with
  | false => simp [hm]
  | true => simp [hm, hi, h i hi hm]

/-- The tables after CODEBOOK_SWITCH: the pending bytes are kept (R72, log 65). -/
def TableSt.switchedBooks (x : TableSt) (mask : DWord) : TableSt :=
  { x with
    gen := x.gen + 1, cbMask := x.cbMask &&& ~~~mask
    active := { x.active with codebooks := Vector.ofFn (fun t : Fin 64 =>
      if mask.getLsbD t.val then { gen := x.gen + 1, bytes := x.cbPending[t.val] } else x.active.codebooks[t.val]) } }

/-- A codebook switch leaves every other table, and the pending copies. -/
theorem switchedBooks_keeps (x : TableSt) (mask : DWord) : (x.switchedBooks mask).cbMask = x.cbMask &&& ~~~mask ∧
    (x.switchedBooks mask).active.curves = x.active.curves ∧ (x.switchedBooks mask).active.policy = x.active.policy ∧
    (x.switchedBooks mask).active.dir = x.active.dir ∧ (x.switchedBooks mask).cbPending = x.cbPending := by
  simp only [TableSt.switchedBooks, and_self]

theorem switchCodebooks_eq {s : State} {mask : DWord} (h : ∀ i, mask.getLsbD i = true → s.tables.cbMask.getLsbD i = true) :
    s.switchCodebooks mask = done { s with tables := s.tables.switchedBooks mask } := by
  have hz : mask &&& ~~~s.tables.cbMask = 0 := and_not_eq_zero fun i _ => h i
  unfold State.switchCodebooks
  rw [refuse_of_false (decide_eq_false (not_not.2 hz))]
  rfl

theorem endsDone_codebookSwitch {s : State} {async : Bool} (hm : MailboxFree s) {mask : DWord}
    (h : ∀ i, mask.getLsbD i = true → s.tables.cbMask.getLsbD i = true) :
    EndsDone (.codebookSwitch mask async) s async { s with tables := s.tables.switchedBooks mask } :=
  ends_done s _ (fun s => s.switchCodebooks mask) async _ hm rfl rfl rfl (fun k => switchCodebooks_eq (s := s.withCtl k) h)

theorem bytes_switchedBooks (x : TableSt) (mask : DWord) (i : Fin 64) : ((x.switchedBooks mask).active.codebooks[i.val]).bytes =
    if mask.getLsbD i.val then x.cbPending[i.val] else (x.active.codebooks[i.val]).bytes := by
  simp only [TableSt.switchedBooks, Vector.getElem_ofFn]
  split <;> rfl

/-- The tables after CURVE_SWITCH. -/
def TableSt.switchedCurves (x : TableSt) (mask : Word) : TableSt :=
  { x with
    gen := x.gen + 1, cvMask := x.cvMask &&& ~~~mask
    active := { x.active with curves := Vector.ofFn (fun c : Fin 32 =>
      if mask.getLsbD c.val then { gen := x.gen + 1, bytes := x.cvPending[c.val] } else x.active.curves[c.val]) } }

/-- A curve switch leaves every other table. -/
theorem switchedCurves_keeps (x : TableSt) (mask : Word) : (x.switchedCurves mask).cvMask = x.cvMask &&& ~~~mask ∧
    (x.switchedCurves mask).active.codebooks = x.active.codebooks ∧ (x.switchedCurves mask).active.policy = x.active.policy ∧
    (x.switchedCurves mask).active.dir = x.active.dir := by
  simp only [TableSt.switchedCurves, and_self]

theorem switchCurves_eq {s : State} {mask : Word} (h : ∀ i : Fin 32, mask.getLsbD i.val = true →
      s.tables.cvMask.getLsbD i.val = true ∧ curveBad s.tables.cvPending[i.val] = false) :
    s.switchCurves mask = done { s with tables := s.tables.switchedCurves mask } := by
  have hz : mask &&& ~~~s.tables.cvMask = 0 := and_not_eq_zero fun i hi hm => (h ⟨i, hi⟩ hm).1
  have hgood : (List.finRange 32).any (fun c => mask.getLsbD c.val && curveBad s.tables.cvPending[c.val]) = false := by
    refine List.any_eq_false.2 fun c _ hc => ?_
    obtain ⟨hm, hbad⟩ := Bool.and_eq_true_iff.1 hc
    rw [(h c hm).2] at hbad
    cases hbad
  unfold State.switchCurves
  rw [refuse_of_false (Bool.or_eq_false_iff.2 ⟨decide_eq_false (not_not.2 hz), hgood⟩)]
  rfl

theorem endsDone_curveSwitch {s : State} {async : Bool} (hm : MailboxFree s) {mask : Word}
    (h : ∀ i : Fin 32, mask.getLsbD i.val = true → s.tables.cvMask.getLsbD i.val = true ∧ curveBad s.tables.cvPending[i.val] = false) :
    EndsDone (.curveSwitch mask async) s async { s with tables := s.tables.switchedCurves mask } :=
  ends_done s _ (fun s => s.switchCurves mask) async _ hm rfl rfl rfl (fun k => switchCurves_eq (s := s.withCtl k) h)

theorem endsDone_qpolicySwitch {s : State} (async : Bool) (hm : MailboxFree s) : EndsDone (.qpolicySwitch 1 async) s async
    { s with tables := { s.tables with policyGen := s.tables.policyGen + 1,
                                       active := { s.tables.active with policy := s.tables.policyPending } } } :=
  ends_done s _ (fun s => s.switchPolicy (1 : Byte).toNat) async _ hm rfl rfl rfl (fun _ => rfl)

theorem bytes_switchedCurves (x : TableSt) (mask : Word) (i : Fin 32) : ((x.switchedCurves mask).active.curves[i.val]).bytes =
    if mask.getLsbD i.val then x.cvPending[i.val] else (x.active.curves[i.val]).bytes := by
  simp only [TableSt.switchedCurves, Vector.getElem_ofFn]
  split <;> rfl

/-- Without an image no routine that one uses gets worse (R235). -/
theorem switchDirectory_eq {s : State} {d : List RoutineRec} (hd : s.start.pendingDir = some d) (hi : s.images = []) :
    s.switchDirectory 1 = done { s with tables := { s.tables with active := { s.tables.active with dir := d } },
                                        start := { s.start with pendingDir := none, dirGen := s.start.dirGen + 1 } } := by
  unfold State.switchDirectory
  rw [hd]
  dsimp only
  rw [hi, refuse_of_false (by simp)]
  rfl

theorem endsDone_directorySwitch {s : State} {async : Bool} (hm : MailboxFree s) {d : List RoutineRec} (hd : s.start.pendingDir = some d)
    (hi : s.images = []) : EndsDone (.directorySwitch 1 async) s async
      { s with tables := { s.tables with active := { s.tables.active with dir := d } },
               start := { s.start with pendingDir := none, dirGen := s.start.dirGen + 1 } } :=
  ends_done s _ (fun s => s.switchDirectory (1 : Byte).toNat) async _ hm rfl rfl rfl (fun k => switchDirectory_eq (s := s.withCtl k) hd hi)

/-! ### Invalidation -/

/-- `s` with the cached translations of the ASTs that are hit dropped and their walks marked (R314). -/
def State.swept (s : State) (hit : Nat → Bool) : State :=
  let keep := fun (ls : List Leaf) => ls.filter (fun l => !hit l.ast)
  let mark := fun (w : Option WalkSt) => w.map (fun w => w.mark s.root hit)
  { s with
    xlate := { s.xlate with
      streams := (s.xlate.streams.map (fun y => (y.1, keep y.2))).filter (fun y => !y.2.isEmpty)
      stewards := s.xlate.stewards.map keep
      walkCache := s.xlate.walkCache.map (fun ts => ts.filter (fun t => !hit t.ast)) }
    cores := s.cores.map (fun (k : Core) => { k with dma := k.dma.map (fun d =>
      { d with q := d.q.map (fun f => { f with walk := mark f.walk }) }) })
    records := s.records.map (fun (r : PendRec) => { r with walk := mark r.walk }) }

/-- Without a pinned page an invalidation ends at once, or waits for the walks that it marked. -/
theorem invalidate_of_unpinned {s : State} (h : s.xlate.pinLeaf = Vector.replicate 16 none) (hit : Nat → Bool)
    (walks : List (List WalkRead)) : s.invalidate hit walks =
      let t := s.swept hit
      if t.walksMarked then { t with ctl := { t.ctl with waitWalks := true } }
      else { t with ctl := { t.ctl with waitWalks := false }, xlate := { t.xlate with invalidations := t.xlate.invalidations + 1 } } := by
  have hpins : (List.finRange 16).filter (fun i => ((s.swept hit).xlate.pinLeaf[i.val]).any (fun l => hit l.ast)) = [] := by
    refine List.filter_eq_nil_iff.2 fun i _ => ?_
    have hl : (s.swept hit).xlate.pinLeaf = Vector.replicate 16 none := h
    simp [hl]
  have hgo : s.invalidate hit walks =
      let t := ((List.finRange 16).filter (fun i => ((s.swept hit).xlate.pinLeaf[i.val]).any (fun l => hit l.ast))).zipIdx.foldl
        (fun (s : State) y => s.rewalkPin y.1 (walks.getD y.2 [])) (s.swept hit)
      let t := { t with ctl := { t.ctl with waitWalks := true } }
      if t.walksMarked then t else t.endInvalidate := rfl
  rw [hgo, hpins]
  rfl

/-- What an invalidation leaves in no cache, and what it leaves alone (R314). -/
theorem swept_caches (s : State) (hit : Nat → Bool) :
    (∀ y ∈ (s.swept hit).xlate.streams, ∀ l ∈ y.2, hit l.ast = false) ∧
      (∀ (i : Fin 4), ∀ l ∈ (s.swept hit).xlate.stewards[i.val], hit l.ast = false) ∧
      ∀ (i : Fin 4), ∀ l ∈ (s.swept hit).xlate.walkCache[i.val], hit l.ast = false := by
  refine ⟨fun y hy l hl => ?_, fun i l hl => ?_, fun i l hl => ?_⟩
  · obtain ⟨z, -, rfl⟩ := List.mem_map.1 (List.mem_of_mem_filter hy)
    simpa using (List.mem_filter.1 hl).2
  · simp only [State.swept, Vector.getElem_map, List.mem_filter] at hl
    simpa using hl.2
  · simp only [State.swept, Vector.getElem_map, List.mem_filter] at hl
    simpa using hl.2

theorem restart_mark {w : WalkSt} {hit : Nat → Bool} (root : Nat → Nat) (hr : w.restart = false) (ha : w.asked = true → hit w.ast = false) :
    (w.mark root hit).restart = false := by
  unfold WalkSt.mark
  split
  · exact hr
  · rename_i hh
    split
    · rename_i hasked
      simp [ha hasked] at hh
    · exact hr

theorem restart_mark_asked {w : WalkSt} {hit : Nat → Bool} (root : Nat → Nat) (ha : w.asked = true) (hh : hit w.ast = true) :
    (w.mark root hit).restart = true := by
  simp [WalkSt.mark, ha, hh]

theorem walksMarked_iff (s : State) : s.walksMarked = true ↔
    (∃ (c : CoreId) (st : Fin 8), ∃ f ∈ ((s.core c).dma[st.val]).q, ∃ w ∈ f.walk, w.restart = true) ∨
      ∃ r ∈ s.records, ∃ w ∈ r.walk, w.restart = true := by
  have hwalk : ∀ o : Option WalkSt, o.any (·.restart) = true ↔ ∃ w ∈ o, w.restart = true := fun o => by cases o <;> simp
  have hvec : ∀ {α : Type} {n : Nat} (v : Vector α n) (f : α → Bool), v.toList.any f = true ↔ ∃ i : Fin n, f v[i.val] = true := by
    intro α n v f
    rw [List.any_eq_true]
    constructor
    · rintro ⟨x, hx, h⟩
      obtain ⟨i, hi, rfl⟩ := Vector.getElem_of_mem (Vector.mem_toList_iff.1 hx)
      exact ⟨⟨i, hi⟩, h⟩
    · rintro ⟨i, h⟩
      exact ⟨_, Vector.mem_toList_iff.2 (Vector.getElem_mem i.isLt), h⟩
  unfold State.walksMarked
  simp only [Bool.or_eq_true, hvec, List.any_eq_true, hwalk]
  rfl

/-- The commands of a stream after an invalidation: their walks are marked. -/
theorem dmaQ_swept (s : State) (hit : Nat → Bool) (c : CoreId) (st : Fin 8) : (((s.swept hit).core c).dma[st.val]).q =
    (((s.core c).dma[st.val]).q).map (fun f => { f with walk := f.walk.map (fun w => w.mark s.root hit) }) := by
  simp only [State.swept, State.core, Vector.getElem_map]

/-- No walk waits where none was marked and none of the ASTs has a read out. -/
theorem walksMarked_swept_of_unwalked {s : State} {hit : Nat → Bool} (h : Unwalked s (fun a => hit a = true)) :
    (s.swept hit).walksMarked = false := by
  have key : ∀ {o : Option WalkSt}, (∀ w ∈ o, w.restart = false ∧ (w.asked = true → ¬ hit w.ast = true)) →
      ¬ ∃ w ∈ o.map (fun w => w.mark s.root hit), w.restart = true := by
    rintro o ho ⟨w, hw, hr⟩
    obtain ⟨v, hv, rfl⟩ := Option.map_eq_some_iff.1 hw
    obtain ⟨hold, hasked⟩ := ho v hv
    rw [restart_mark s.root hold (fun ha => by simpa using hasked ha)] at hr
    cases hr
  refine Bool.eq_false_iff.2 fun hm => ?_
  rcases (walksMarked_iff _).1 hm with ⟨c, st, f, hf, hw⟩ | ⟨r, hr, hw⟩
  · rw [dmaQ_swept] at hf
    obtain ⟨g, hg, rfl⟩ := List.mem_map.1 hf
    exact key (h.streams c st g hg) hw
  · obtain ⟨g, hg, rfl⟩ := List.mem_map.1 hr
    exact key (h.records g hg) hw

/-- A walk of an AST that is hit, with its read out, is waited for. -/
theorem walksMarked_swept_of_asked {s : State} {hit : Nat → Bool} {c : CoreId} {st : Fin 8} {f : DmaFlight} {w : WalkSt}
    (hf : s.dmaHead c st = some f) (hw : f.walk = some w) (ha : w.asked = true) (hh : hit w.ast = true) :
    (s.swept hit).walksMarked = true := by
  refine (walksMarked_iff _).2 (.inl ⟨c, st, { f with walk := f.walk.map (fun w => w.mark s.root hit) }, ?_, w.mark s.root hit, ?_,
    restart_mark_asked s.root ha hh⟩)
  · rw [dmaQ_swept]
    exact List.mem_map_of_mem (List.mem_of_mem_head? hf)
  · rw [hw]
    rfl

/-- `s` after an invalidation that waits for no walk. -/
def State.invalidated (s : State) (hit : Nat → Bool) : State :=
  { s.swept hit with xlate := { (s.swept hit).xlate with invalidations := s.xlate.invalidations + 1 } }

/-- An invalidation that waits for no walk is done at once (R314). -/
theorem pdCommand_invalidate {s u : State} {r : PdReq} {h : State → Served} {hit : Nat → Bool} {walks : List (List WalkRead)} {async : Bool}
    (hm : MailboxFree s) (hr : r.write = true) (ha : r.async = async) (hctl : u.ctl = s.ctl)
    (hpin : u.xlate.pinLeaf = Vector.replicate 16 none) (hun : Unwalked u (fun a => hit a = true))
    (hh : h (s.withCtl (busyCtl s.ctl r)) = done ((u.withCtl (busyCtl s.ctl r)).invalidate hit walks)) :
    ∃ k, Finished (u.invalidated hit).ctl k async ∧ s.pdCommand r h = .next { u.invalidated hit with ctl := k } := by
  have hc : (u.invalidated hit).ctl = s.ctl := hctl
  have hmark : ((u.withCtl (busyCtl s.ctl r)).swept hit).walksMarked = false :=
    walksMarked_swept_of_unwalked ⟨hun.streams, hun.records⟩
  rw [invalidate_of_unpinned (s := u.withCtl (busyCtl s.ctl r)) hpin] at hh
  dsimp only at hh
  rw [hmark, if_neg (by decide)] at hh
  rw [hc, ← ha]
  exact ⟨_, finished_endCtl s.ctl r false s.ctl.peerEvents, pdCommand_served (w := false) (e := s.ctl.peerEvents)
    (u := (u.invalidated hit).withCtl { busyCtl s.ctl r with waitWalks := false }) hm hr hh rfl nofun⟩

/-- One with a walk to wait for leaves the transaction BUSY (R314). -/
theorem pdCommand_invalidate_waits {s : State} {r : PdReq} {h : State → Served} {hit : Nat → Bool} {walks : List (List WalkRead)}
    (hm : MailboxFree s) (hw : s.ctl.waitWalks = false) (hpin : s.xlate.pinLeaf = Vector.replicate 16 none)
    (hmark : (s.swept hit).walksMarked = true)
    (hh : h (s.withCtl (busyCtl s.ctl r)) = done ((s.withCtl (busyCtl s.ctl r)).invalidate hit walks)) :
    s.pdCommand r h = .next ((s.swept hit).withCtl { busyCtl s.ctl r with waitWalks := true }) := by
  have hmark' : ((s.withCtl (busyCtl s.ctl r)).swept hit).walksMarked = true := hmark
  rw [invalidate_of_unpinned (s := s.withCtl (busyCtl s.ctl r)) hpin] at hh
  dsimp only at hh
  rw [hmark', if_pos rfl] at hh
  rw [pdCommand_eq s r h hm]
  exact congrArg Host.Outcome.next (pdRun_waits (s := s.withCtl (busyCtl s.ctl r)) r hm.serving hh rfl hw)

theorem writeRoot_eq {s : State} {v : DWord} (walks : List (List WalkRead)) (hu : s.astInUse (s.journal.astSelect[0]).toNat = false)
    (hb : rootBad v.toNat = false) : s.writeRoot 0 v walks =
      let ast := (s.journal.astSelect[0]).toNat
      done (({ s with xlate := { s.xlate with roots := Tab.set 0 s.xlate.roots ast v } }).invalidate (fun a => decide (a = ast)) walks) := by
  unfold State.writeRoot
  exact (refuse_of_false hu _ _).trans (refuse_of_false hb _ _)

/-- A write of ROOT ends DONE with its record in place and its AST invalidated (R304). -/
theorem endsDone_rootWrite {s : State} {async : Bool} (hm : MailboxFree s) {v : DWord} (walks : List (List WalkRead))
    (hu : s.astInUse (s.journal.astSelect[0]).toNat = false) (hb : rootBad v.toNat = false)
    (hpin : s.xlate.pinLeaf = Vector.replicate 16 none) (hun : Unwalked s (fun a => a = (s.journal.astSelect[0]).toNat)) :
    EndsDone (.rootWrite v walks async) s async
      (({ s with xlate := { s.xlate with roots := Tab.set 0 s.xlate.roots (s.journal.astSelect[0]).toNat v } }).invalidated
        (fun a => decide (a = (s.journal.astSelect[0]).toNat))) := by
  refine pdCommand_invalidate (u := { s with xlate := { s.xlate with roots := Tab.set 0 s.xlate.roots (s.journal.astSelect[0]).toNat v } })
    hm rfl rfl rfl hpin ?_ (writeRoot_eq (s := s.withCtl _) walks hu hb)
  simp only [decide_eq_true_eq]
  exact ⟨hun.streams, hun.records⟩

/-- The ASTs that a write of INVALIDATE names (R314). -/
def invalidates (v : Half) (a : Nat) : Bool := decide (v.toNat = 0xFFFF ∨ a = v.toNat)

theorem invalidates_iff (v : Half) (a : Nat) : invalidates v a = true ↔ v = 0xFFFF ∨ a = v.toNat := by
  have h : v.toNat = 0xFFFF ↔ v = 0xFFFF := BitVec.toNat_inj (y := (0xFFFF : Half))
  rw [invalidates, decide_eq_true_iff, h]

theorem invalidates_eq_false_iff (v : Half) (a : Nat) : invalidates v a = false ↔ v ≠ 0xFFFF ∧ a ≠ v.toNat := by
  rw [← Bool.not_eq_true, invalidates_iff, not_or]

theorem writeInvalidate_eq (s : State) {v : Half} (walks : List (List WalkRead)) (hv : v.toNat ≤ 1023 ∨ v = 0xFFFF) :
    s.writeInvalidate v.toNat walks = done (s.invalidate (invalidates v) walks) := by
  refine refuse_of_false (decide_eq_false ?_) _ _
  rintro ⟨h1, h2⟩
  rcases hv with h | rfl
  · omega
  · exact h2 rfl

/-! ### Pins -/

theorem writePin_drop {s : State} {v : DWord} (i : Fin 16) (walk : List WalkRead) (ha : s.rt.arm ≠ .armed) (h1 : fld v.toNat 11 1 = 0)
    (h2 : fld v.toNat 63 48 = 0) (hv : bitAt v.toNat 0 = false) : s.writePin i v walk =
      done { s with xlate := { s.xlate with pins := s.xlate.pins.set i.val v i.isLt, pinLeaf := s.xlate.pinLeaf.set i.val none i.isLt } } := by
  unfold State.writePin
  dsimp only
  rw [refuse_of_false (decide_eq_false ha), refuse_of_false (by simp [h1, h2]), hv]
  rfl

theorem endsDone_rtPin_drop {s : State} {async : Bool} (hm : MailboxFree s) {v : DWord} (i : Fin 16) (walk : List WalkRead)
    (ha : s.rt.arm ≠ .armed) (h1 : fld v.toNat 11 1 = 0) (h2 : fld v.toNat 63 48 = 0) (hv : bitAt v.toNat 0 = false) :
    EndsDone (.rtPin i v walk async) s async
      { s with xlate := { s.xlate with pins := s.xlate.pins.set i.val v i.isLt, pinLeaf := s.xlate.pinLeaf.set i.val none i.isLt } } :=
  ends_done s _ (fun s => s.writePin i v walk) async _ hm rfl rfl rfl (fun k => writePin_drop (s := s.withCtl k) i walk ha h1 h2 hv)

theorem writePin_walk {s u : State} {v : DWord} {q : QueueId} {l : Leaf} (i : Fin 16) {walk : List WalkRead} (ha : s.rt.arm ≠ .armed)
    (h1 : fld v.toNat 11 1 = 0) (h2 : fld v.toNat 63 48 = 0) (hv : bitAt v.toNat 0 = true) (hq : s.rtQueue = some q)
    (hp : s.portCarries 0 = true)
    (hw : s.portWalk 0 3 (s.queue q).ast.toNat (fld v.toNat 47 12 * 4096) walk = (u, some (.ok l))) : s.writePin i v walk =
      done { u with xlate := { u.xlate with pins := u.xlate.pins.set i.val v i.isLt, pinLeaf := u.xlate.pinLeaf.set i.val (some l) i.isLt } } := by
  unfold State.writePin
  dsimp only
  rw [refuse_of_false (decide_eq_false ha), refuse_of_false (by simp [h1, h2]), hv, hq]
  dsimp only
  rw [hp, hw]
  rfl

/-- A walk moves the translation caches and the ports alone. -/
theorem portWalk_only {s u : State} {n : PortId} {qos : Fin 4} {ast va : Nat} {rs : List WalkRead} {l : Leaf}
    (h : s.portWalk n qos ast va rs = (u, some (.ok l))) :
    u.ctl = s.ctl ∧ ∀ k, (s.withCtl k).portWalk n qos ast va rs = (u.withCtl k, some (.ok l)) := by
  have hu : u = s.hosting u := by
    have := portWalk_hosting s s n qos ast va rs l (by rw [h])
    rw [h] at this
    exact (congrArg Prod.fst (h.symm.trans this))
  refine ⟨by rw [hu]; rfl, fun k => ?_⟩
  have := portWalk_hosting (s.withCtl k) s n qos ast va rs l (by rw [h])
  rw [h] at this
  refine this.trans (Prod.ext ?_ rfl)
  rw [hu]
  rfl

theorem endsDone_rtPin_walk {s u : State} {async : Bool} (hm : MailboxFree s) {v : DWord} {q : QueueId} {l : Leaf} (i : Fin 16)
    {walk : List WalkRead} (ha : s.rt.arm ≠ .armed) (h1 : fld v.toNat 11 1 = 0) (h2 : fld v.toNat 63 48 = 0) (hv : bitAt v.toNat 0 = true)
    (hq : s.rtQueue = some q) (hp : s.portCarries 0 = true)
    (hw : s.portWalk 0 3 (s.queue q).ast.toNat (fld v.toNat 47 12 * 4096) walk = (u, some (.ok l))) :
    EndsDone (.rtPin i v walk async) s async
      { u with xlate := { u.xlate with pins := u.xlate.pins.set i.val v i.isLt, pinLeaf := u.xlate.pinLeaf.set i.val (some l) i.isLt } } := by
  obtain ⟨hctl, hwalk⟩ := portWalk_only hw
  exact ends_done s _ (fun s => s.writePin i v walk) async _ hm rfl rfl hctl
    (fun k => writePin_walk (s := s.withCtl k) i ha h1 h2 hv hq hp (hwalk k))

/-! ### Inbound windows -/

theorem writeIw_eq {s : State} {v : DWord} (w : Fin 4) (ho : s.ownsRwm = true) (hb : s.iwBad v.toNat = false) :
    s.writeIw 0 w v = done { s with link := { s.link with iw := s.link.iw.set w.val v w.isLt } } := by
  unfold State.writeIw
  rw [refuse_of_false (by simp [ho]), refuse_of_false hb]
  rfl

theorem endsDone_inboundWindowWrite {s : State} {async : Bool} (hm : MailboxFree s) {v : DWord} (w : Fin 4) (ho : s.ownsRwm = true)
    (hb : s.iwBad v.toNat = false) :
    EndsDone (.inboundWindowWrite w v async) s async { s with link := { s.link with iw := s.link.iw.set w.val v w.isLt } } :=
  ends_done s _ (fun s => s.writeIw 0 w v) async _ hm rfl rfl rfl (fun k => writeIw_eq (s := s.withCtl k) w ho hb)

theorem exec_peerEventsClear_served {s : State} (hm : MailboxFree s) (v : Byte) (async : Bool) :
    ∃ k, Finished { s.ctl with peerEvents := s.ctl.peerEvents &&& ~~~v } k async ∧ k.peerEvents = s.ctl.peerEvents &&& ~~~v ∧
      exec (.peerEventsClear v async) s = .next { s with ctl := k } :=
  ⟨_, finished_endCtl _ (writeReq async 0x2000 7 [v]) s.ctl.waitWalks (s.ctl.peerEvents &&& ~~~v), rfl,
    pdCommand_served (w := s.ctl.waitWalks) (e := s.ctl.peerEvents &&& ~~~v)
      (u := s.withCtl { busyCtl s.ctl (writeReq async 0x2000 7 [v]) with peerEvents := s.ctl.peerEvents &&& ~~~v }) hm rfl rfl rfl id⟩

/-! ### The obligation -/

/-- Settles O32: each handler accepts and leaves what is stated; an invalidation (`invalidate_of_unpinned`) is done unless one of its walks
has a read out (`walksMarked_swept_of_unwalked`, `walksMarked_swept_of_asked`). -/
theorem tableAndTranslationEntries : Obligations.table_and_translation_entries := by
  unfold Obligations.table_and_translation_entries
  intro s async hm
  refine ⟨?_, ?_, ?_, ?_, ?_, ?_, ?_, ?_, ?_, ?_, ?_⟩
  · exact fun t bs => endsDone_codebookPendingWrite hm
  · intro mask h
    obtain ⟨hmask, hcurves, hpolicy, hdir, hpending⟩ := switchedBooks_keeps s.tables mask
    exact ⟨s.tables.switchedBooks mask, endsDone_codebookSwitch hm h, hmask, hcurves, hpolicy, hdir, hpending,
      bytes_switchedBooks s.tables mask⟩
  · intro mask h
    obtain ⟨hmask, hbooks, hpolicy, hdir⟩ := switchedCurves_keeps s.tables mask
    exact ⟨s.tables.switchedCurves mask, endsDone_curveSwitch hm h, hmask, hbooks, hpolicy, hdir, bytes_switchedCurves s.tables mask⟩
  · exact endsDone_qpolicySwitch async hm
  · exact fun d => endsDone_directorySwitch hm
  · intro v walks ast hu hb hwf hpin hun
    have hget : ∀ a, Tab.get 0 (Tab.set 0 s.xlate.roots ast v) a = if a = ast then v else Tab.get 0 s.xlate.roots a :=
      fun a => Tab.get_set 0 _ ast a v 0 (Bool.and_eq_true_iff.1 hwf).1
    exact ⟨_, endsDone_rootWrite hm walks hu hb hpin hun, (hget ast).trans (if_pos rfl), fun a ha => (hget a).trans (if_neg ha),
      rfl, rfl, rfl, rfl⟩
  · intro v walks hv hpin gone
    obtain ⟨hstreams, hstewards, htables⟩ := swept_caches s (invalidates v)
    have hgone : gone (s.swept (invalidates v)) :=
      ⟨rfl, fun y hy l hl => (invalidates_eq_false_iff v _).1 (hstreams y hy l hl),
        fun i l hl => (invalidates_eq_false_iff v _).1 (hstewards i l hl),
        fun i l hl => (invalidates_eq_false_iff v _).1 (htables i l hl), rfl, rfl⟩
    have hserve : ∀ k, (s.withCtl k).writeInvalidate v.toNat walks = done ((s.withCtl k).invalidate (invalidates v) walks) :=
      fun k => writeInvalidate_eq (s.withCtl k) walks hv
    refine ⟨fun hun => ?_, fun c st f w hf hw ha hh hwait => ?_⟩
    · have hun' : Unwalked s (fun a => invalidates v a = true) := by
        simpa only [invalidates_iff] using hun
      exact ⟨s.invalidated (invalidates v), pdCommand_invalidate hm rfl rfl rfl hpin hun' (hserve _), hgone, rfl⟩
    · have hmark := walksMarked_swept_of_asked hf hw ha ((invalidates_iff v w.ast).2 hh)
      exact ⟨_, pdCommand_invalidate_waits hm hwait hpin hmark (hserve _), hgone, rfl, rfl, rfl⟩
  · exact fun i v walk q u l => endsDone_rtPin_walk hm i
  · exact fun i v walk => endsDone_rtPin_drop hm i walk
  · exact fun w v => endsDone_inboundWindowWrite hm w
  · exact fun v => exec_peerEventsClear_served hm v async

end Sys2Proof.Machine

/-!
PROOFS. The end of a step: what the operations that end a run, fail or commit a step and stop a queue do to the run, its cores, the step, the
journal and the completion records (R241, R247, R253, R267, R270).
-/
namespace Sys2Proof.Machine
open Sys2Proof.Safety

/-! ### What follows the end of a step -/

/-- What follows the end of a step touches the Stack Link, the fault state, the control port, the RT state, the power state and the
translation caches alone. -/
def Aftermath (s t : State) : Prop :=
  ∃ l f c rt w x, t = { s with link := l, fault := f, ctl := c, rt := rt, power := w, xlate := x }

theorem Aftermath.refl (s : State) : Aftermath s s := ⟨s.link, s.fault, s.ctl, s.rt, s.power, s.xlate, rfl⟩

theorem Aftermath.trans {s t u : State} (h : Aftermath s t) (g : Aftermath t u) : Aftermath s u := by
  obtain ⟨l, f, c, rt, w, x, rfl⟩ := h
  obtain ⟨l', f', c', rt', w', x', rfl⟩ := g
  exact ⟨l', f', c', rt', w', x', rfl⟩

theorem Aftermath.foldl {α : Type} {f : State → α → State} (hf : ∀ s a, Aftermath s (f s a)) (xs : List α) (s : State) :
    Aftermath s (xs.foldl f s) := by
  induction xs generalizing s with
  | nil => exact .refl s
  | cons a xs ih => exact (hf s a).trans (ih (f s a))

theorem aftermath_rtFault (s : State) (code : Nat) (core : Option CoreId) (detail : Nat) : Aftermath s (s.rtFault code core detail) := by
  unfold State.rtFault
  dsimp only
  generalize eventRecord code core 0 detail s.now = r
  obtain ⟨l, e⟩ := forwardEvent_link (({ s with fault := { s.fault with
    rtFaults := Tab.put s.fault.rtFaults (s.fault.rtFaultNext.toNat % 16) r, rtFaultNext := s.fault.rtFaultNext + 1 } }).irq 1) r
  rw [e]
  exact ⟨l, _, _, s.rt, s.power, s.xlate, rfl⟩

theorem aftermath_haltRt (s : State) (reason : Nat) : Aftermath s (s.haltRt reason) :=
  .trans ⟨s.link, _, s.ctl, _, s.power, s.xlate, rfl⟩ (aftermath_rtFault _ 0x46 none reason)

theorem aftermath_settleSeason (s : State) : Aftermath s s.settleSeason := by
  unfold State.settleSeason
  split
  · dsimp only
    split
    · exact ⟨s.link, s.fault, s.ctl, s.rt, _, _, rfl⟩
    · exact ⟨s.link, s.fault, s.ctl, s.rt, _, s.xlate, rfl⟩
  · exact .refl s

theorem aftermath_sendChain (s : State) (p : PartId) (e : Nat) (q : QueueId) : Aftermath s (s.sendChain p e q) := by
  unfold State.sendChain
  split
  · exact ⟨_, s.fault, s.ctl, s.rt, s.power, s.xlate, rfl⟩
  · split <;> exact ⟨_, s.fault, s.ctl, s.rt, s.power, s.xlate, rfl⟩

theorem aftermath_rtCommitted (s : State) (r : RunSt) : Aftermath s (s.rtCommitted r) := by
  unfold State.rtCommitted
  dsimp only
  split
  · exact ⟨s.link, _, s.ctl, s.rt, s.power, s.xlate, rfl⟩
  · split
    · exact .trans ⟨s.link, _, s.ctl, s.rt, s.power, s.xlate, rfl⟩ (aftermath_rtFault _ 0x43 none _)
    · exact ⟨s.link, _, s.ctl, s.rt, s.power, s.xlate, rfl⟩

/-! ### A run that is over -/

/-- A partition without its run. -/
def Partition.freed (x : Partition) : Partition := { x with run := none }

/-- A run that is over leaves its cores idle (R247). -/
theorem closeRun_eq (s : State) (p : PartId) (r : RunSt) :
    ∃ ks rt, s.closeRun p r = { s.modPart p Partition.freed with cores := ks, rt := rt } ∧ ∀ c ∈ r.cores, (ks[c.val]).phase = .idle := by
  have hlead : ∃ ks, (if (s.part p).rt then s.followLeads else s) = { s with cores := ks } := by
    split
    · obtain ⟨ks, e, -⟩ := followed_followLeads s
      exact ⟨ks, e⟩
    · exact ⟨s.cores, rfl⟩
  obtain ⟨ks, e⟩ := hlead
  obtain ⟨ls, el, -, hin⟩ := foldl_modCore_spec r.cores (fun _ k => { k with phase := .idle }) { s with cores := ks }
  have hidle : ∀ c ∈ r.cores, (ls[c.val]).phase = .idle := fun c hc => by
    obtain ⟨n, hn⟩ := hin c hc
    rw [hn]
  unfold State.closeRun
  rw [e]
  dsimp only
  rw [el]
  split
  · exact ⟨ls, _, rfl, hidle⟩
  · exact ⟨ls, s.rt, rfl, hidle⟩

/-- A partition and a queue with a run charged to them (R272). -/
def Partition.charged (n k : Nat) (x : Partition) : Partition :=
  { x with engineCclk := bump x.engineCclk n, killedCclk := bump x.killedCclk k }
def Queue.charged (n k : Nat) (x : Queue) : Queue :=
  { x with engineCclk := bump x.engineCclk n, killedCclk := bump x.killedCclk k,
           vtime := x.vtime + n * (if x.share.toNat = 0 then 0 else vtUnit / x.share.toNat) }

theorem charge_eq (s : State) (p : PartId) (q : QueueId) (n : Nat) (killed : Bool) : s.charge p q n killed =
    (s.modPart p (Partition.charged n (if killed then n else 0))).modQueue q (Queue.charged n (if killed then n else 0)) := rfl

/-- The cores and the partition of a run are free, other partitions stay. -/
structure Freed (s t : State) (p : PartId) (r : RunSt) : Prop where
  run : (t.part p).run = none
  unserved : (t.part p).unserved = (s.part p).unserved
  idle : ∀ c ∈ r.cores, (t.core c).phase = .idle
  parts : ∀ k : PartId, k ≠ p → t.part k = s.part k

theorem Freed.congr {s t u : State} {p : PartId} {r : RunSt} (h : Freed s t p r) (hp : u.parts = t.parts) (hc : u.cores = t.cores) :
    Freed s u p r := by
  have hpart : u.part = t.part := funext fun k => by unfold State.part; rw [hp]
  have hcore : u.core = t.core := funext fun c => by unfold State.core; rw [hc]
  obtain ⟨hrun, hunserved, hidle, hparts⟩ := h
  exact ⟨by rw [hpart, hrun], by rw [hpart, hunserved], by rwa [hcore], by rwa [hpart]⟩

/-- A run that is charged and over; no queue is enabled or stopped by it (R247, R272). -/
theorem closeRun_charge (s : State) (p : PartId) (q : QueueId) (n : Nat) (killed : Bool) (r : RunSt) :
    Freed s ((s.charge p q n killed).closeRun p r) p r ∧
      ∃ ks rt qs pt, (s.charge p q n killed).closeRun p r = { s with cores := ks, rt := rt, queues := qs, parts := pt } ∧
        ∀ k : QueueId, (qs[k.val]).enable = (s.queue k).enable ∧ (qs[k.val]).stopped = (s.queue k).stopped := by
  obtain ⟨ks, rt, e, hidle⟩ := closeRun_eq (s.charge p q n killed) p r
  have hpart : ∀ k, ((s.charge p q n killed).closeRun p r).part k = ((s.charge p q n killed).modPart p Partition.freed).part k := by
    rw [e]
    exact fun k => rfl
  refine ⟨⟨?_, ?_, ?_, fun k hk => ?_⟩, ks, rt, _, _, e, fun k => ?_⟩
  · rw [hpart, part_modPart]
    rfl
  · rw [hpart, part_modPart]
    change ((s.charge p q n killed).part p).unserved = _
    rw [charge_eq]
    exact (congrArg Partition.unserved (part_modPart s p (Partition.charged n (if killed then n else 0)))).trans rfl
  · rw [e]
    exact hidle
  · rw [hpart, part_modPart_ne _ p k _ hk]
    exact part_modPart_ne s p k _ hk
  · change ((s.charge p q n killed).queue k).enable = _ ∧ ((s.charge p q n killed).queue k).stopped = _
    rw [charge_eq]
    by_cases hk : k = q
    · rw [hk, queue_modQueue]
      exact ⟨rfl, rfl⟩
    · rw [queue_modQueue_ne _ q k _ hk]
      exact ⟨rfl, rfl⟩

/-! ### Completion records -/

/-- A completion record that is not on its way yet. -/
structure PendRec.Fresh (y : PendRec) (q : QueueId) (p : PartId) (commits : Option Nat) : Prop where
  queue : y.queue = q
  part : y.part = p
  commits : y.commits = commits
  walk : y.walk = none
  bytes : y.bytes ≠ []
  issued : y.issued = false

/-- `s` with one more record to be written. -/
def State.noted (s : State) (y : PendRec) : State := { s with nextRec := s.nextRec + 1, records := s.records ++ [y] }

theorem recordBytes_ne_nil (qseq aseq : Nat) (status flags : Byte) (reruns q cclk detail cword : Nat) :
    recordBytes qseq aseq status flags reruns q cclk detail cword ≠ [] := by
  simp [recordBytes, leBytes]

theorem postRecord_eq (s : State) (q : QueueId) (p : PartId) (commits : Option Nat) (qos : Fin 4) (qseq : Nat) {bs : List Byte}
    (hb : bs ≠ []) : ∃ y : PendRec, s.postRecord q p commits qos qseq bs = s.noted y ∧ y.Fresh q p commits :=
  ⟨_, rfl, rfl, rfl, rfl, rfl, hb, rfl⟩

/-! ### The end of a step -/

/-- A step that is changed and keeps its number is found changed. -/
theorem step?_modStep_some {s : State} {a : Nat} {x : StepRec} {f : StepRec → StepRec} (h : s.step? a = some x)
    (hf : ∀ y, (f y).aseq = y.aseq) : (s.modStep a f).step? a = some (f x) := by
  rw [step?_modStep s a f hf, h]
  rfl

theorem mem_put {β : Type} (t : Tab β) (i : Nat) (x : β) : (i, x) ∈ Tab.put t i x := by
  induction t with
  | nil => exact List.mem_singleton.2 rfl
  | cons y t ih =>
    obtain ⟨k, v⟩ := y
    unfold Tab.put
    split
    · exact List.mem_cons_self
    · split
      · exact List.mem_cons_self
      · exact List.mem_cons_of_mem _ ih

/-- The journal entry of a transition (R241, Table 10-7). -/
theorem entry_transition {s : State} {a : Nat} {x : StepRec} (h : s.step? a = some x) (ha : a ≠ 0) (st : StepState) (status : Byte) :
    ∃ e, (a % 4096, e) ∈ (s.transition a st status).journal.entries ∧ e.aseq = a ∧ e.state = st.code ∧ e.status = status := by
  have haseq : x.aseq = a := by simpa using List.find?_some h
  have hs := step?_modStep_some (f := fun x => { x with state := st, status := status, tLast := s.now }) h (fun _ => rfl)
  refine ⟨journalEntry { x with state := st, status := status, tLast := s.now } s.now, ?_, haseq, rfl, rfl⟩
  unfold State.transition
  dsimp only
  rw [hs]
  dsimp only
  unfold State.journalWrite
  rw [if_neg (by rwa [haseq]), haseq]
  exact mem_put ..

/-- A transition of a step (R241). -/
theorem step?_transition {s : State} {a : Nat} {x : StepRec} (h : s.step? a = some x) (st : StepState) (status : Byte) :
    (s.transition a st status).step? a = some { x with state := st, status := status, tLast := s.now } := by
  obtain ⟨es, e⟩ := transition_eq s a st status
  rw [e]
  exact step?_modStep_some h fun _ => rfl

/-- A change that keeps the acceptance sequence numbers names no step anew. -/
theorem step?_modStep_none {s : State} {a : Nat} (b : Nat) {f : StepRec → StepRec} (hf : ∀ y, (f y).aseq = y.aseq) (h : s.step? a = none) :
    (s.modStep b f).step? a = none := by
  refine List.find?_eq_none.2 fun z hz => ?_
  obtain ⟨y, hy, rfl⟩ := List.mem_map.1 hz
  have hya := List.find?_eq_none.1 h y hy
  split
  · rwa [hf]
  · exact hya

/-- A step that is dropped is gone (R241). -/
theorem dropStep_eq (s : State) (a : Nat) : (∃ st ss, s.dropStep a = { s with steps := st, sets := ss }) ∧ (s.dropStep a).step? a = none := by
  have hgone : (({ s with steps := s.steps.filter (fun x => x.aseq ≠ a) }).freeRetiring).step? a = none := by
    refine List.find?_eq_none.2 fun z hz => ?_
    simpa using (List.mem_filter.1 hz).2
  unfold State.dropStep
  dsimp only
  split
  · unfold State.headWaits
    split
    · exact ⟨⟨_, _, rfl⟩, step?_modStep_none _ (fun _ => by rfl) hgone⟩
    · exact ⟨⟨_, _, rfl⟩, hgone⟩
  · exact ⟨⟨_, _, rfl⟩, hgone⟩

/-- A step that fails: it is gone, its entry says FAILED, its completion record waits (R241, Table 10-4). -/
theorem failStep_eq {s : State} {a : Nat} {x : StepRec} (h : s.step? a = some x) (status : Byte) (detail : Nat) :
    (∃ st j ss y, s.failStep a status detail = { s.noted y with steps := st, journal := j, sets := ss } ∧ y.Fresh x.queue x.part none) ∧
      (s.failStep a status detail).step? a = none ∧
      (a ≠ 0 → ∃ e, (a % 4096, e) ∈ (s.failStep a status detail).journal.entries ∧ e.aseq = a ∧ e.state = 5 ∧ e.status = status) := by
  have hs : (s.modStep a (fun x => { x with flags := 0 })).step? a = some { x with flags := 0 } :=
    step?_modStep_some h fun _ => rfl
  have hentry := fun ha => entry_transition hs ha .failed status
  obtain ⟨es, et⟩ := transition_eq (s.modStep a (fun x => { x with flags := 0 })) a .failed status
  unfold State.failStep
  rw [h]
  dsimp only
  generalize (s.modStep a (fun x => { x with flags := 0 })).transition a .failed status = u at et hentry
  obtain ⟨y, ey, hy⟩ := postRecord_eq u x.queue x.part none (qosOf x.rt x.cls) x.desc.qseq.toNat
    (recordBytes_ne_nil x.desc.qseq.toNat x.aseq status 0 (x.starts - 1) x.queue.val x.cclk detail (u.queue x.queue).cword.toNat)
  rw [ey]
  obtain ⟨⟨st, ss, ed⟩, hgone⟩ := dropStep_eq (u.noted y) a
  refine ⟨⟨st, u.journal, ss, y, ?_, hy⟩, hgone, fun ha => ?_⟩
  · rw [ed, et]
    rfl
  · rw [ed]
    exact hentry ha

/-! ### KILLED, FAILED, COMMITTED -/

/-- A step that is killed once more (R247). -/
def StepRec.killedBy (r : RunSt) (cause : Byte) (now : Nat) (y : StepRec) : StepRec :=
  { y with kills := y.kills + 1, aged := 0, since := now, flags := 0, cclk := r.issueCclk, lockKill := y.lockKill || decide (cause = 0x0A) }

/-- `s`, where a run of step `x` is over, with KILLED written (R247, R253). -/
def State.killed (s : State) (r : RunSt) (x : StepRec) (cause : Byte) : State :=
  ((s.modStep r.aseq (StepRec.killedBy r cause s.now)).transition r.aseq .killed cause).session x.ast
    (fun j => { j with killed := j.killed + 1 })

theorem killed_eq (s : State) (r : RunSt) (x : StepRec) (cause : Byte) :
    ∃ st j, s.killed r x cause = { s with steps := st, journal := j } := by
  obtain ⟨es, e⟩ := transition_eq (s.modStep r.aseq (StepRec.killedBy r cause s.now)) r.aseq .killed cause
  unfold State.killed
  rw [e]
  exact ⟨_, _, rfl⟩

theorem step?_killed {s : State} {r : RunSt} {x : StepRec} (h : s.step? r.aseq = some x) (cause : Byte) :
    ∃ y, (s.killed r x cause).step? r.aseq = some y ∧ y.state = .killed ∧ y.status = cause ∧ y.kills = x.kills + 1 :=
  ⟨_, step?_transition (step?_modStep_some (f := StepRec.killedBy r cause s.now) h fun _ => rfl) .killed cause, rfl, rfl, rfl⟩

/-- KILLED of a disabled queue's step is FAILED at once (R270). -/
theorem endKilled_eq {s : State} {p : PartId} {r : RunSt} {x : StepRec} (hr : (s.part p).run = some r) (hx : s.step? r.aseq = some x)
    (cause : Byte) : s.endKilled p cause =
      let u := ((s.charge p x.queue (r.cores.length * r.cclk) true).closeRun p r).killed r x cause
      (if (u.queue x.queue).enable then u else u.failStep r.aseq 0x01 0).settleSeason := by
  unfold State.endKilled
  rw [hr]
  dsimp only
  rw [hx]
  rfl

/-- How a killed run ends: its step stays, KILLED; of a disabled queue it is gone, and its completion record waits (R247, R253, R270). -/
theorem endKilled_spec {s : State} {p : PartId} {r : RunSt} {x : StepRec} (hr : (s.part p).run = some r) (hx : s.step? r.aseq = some x)
    (cause : Byte) : Freed s (s.endKilled p cause) p r ∧
      ((s.queue x.queue).enable = true → (s.endKilled p cause).records = s.records ∧
        ∃ y, (s.endKilled p cause).step? r.aseq = some y ∧ y.state = .killed ∧ y.status = cause ∧ y.kills = x.kills + 1) ∧
      ((s.queue x.queue).enable = false → (s.endKilled p cause).step? r.aseq = none ∧
        ∃ z : PendRec, (s.endKilled p cause).records = s.records ++ [z] ∧ z.walk = none ∧ z.bytes ≠ [] ∧ z.commits = none) := by
  obtain ⟨hfreed, ks, rt, qs, pt, e, hqueue⟩ := closeRun_charge s p x.queue (r.cores.length * r.cclk) true r
  rw [endKilled_eq hr hx]
  dsimp only
  generalize (s.charge p x.queue (r.cores.length * r.cclk) true).closeRun p r = u at e hfreed ⊢
  have hu : u.step? r.aseq = some x := by
    rw [e]
    exact hx
  obtain ⟨st, j, ek⟩ := killed_eq u r x cause
  obtain ⟨y, hy, hkilled⟩ := step?_killed hu cause
  have hen : ((u.killed r x cause).queue x.queue).enable = (s.queue x.queue).enable := by
    rw [ek, e]
    exact (hqueue x.queue).1
  have hfreed' : Freed s (u.killed r x cause) p r := hfreed.congr (by rw [ek]) (by rw [ek])
  have hrec : (u.killed r x cause).records = s.records := by
    rw [ek, e]
  rw [hen]
  generalize u.killed r x cause = k at hy hfreed' hrec ⊢
  cases (s.queue x.queue).enable with
  | true =>
    rw [if_pos rfl]
    obtain ⟨l, f, c, rt, w, xl, ea⟩ := aftermath_settleSeason k
    rw [ea]
    exact ⟨hfreed'.congr rfl rfl, fun _ => ⟨hrec, y, hy, hkilled⟩, nofun⟩
  | false =>
    rw [if_neg (by decide)]
    obtain ⟨⟨st, j, ss, z, ef, hz⟩, hgone, -⟩ := failStep_eq hy 0x01 0
    obtain ⟨l, f, c, rt, w, xl, ea⟩ := aftermath_settleSeason (k.failStep r.aseq 0x01 0)
    rw [ea]
    refine ⟨hfreed'.congr ?_ ?_, nofun, fun _ => ⟨hgone, z, ?_, hz.walk, hz.bytes, hz.commits⟩⟩
    · rw [ef]
      rfl
    · rw [ef]
      rfl
    · rw [ef, ← hrec]
      rfl

/-- What an RT step that fails for uncorrectable data comes to (R390, R393). -/
theorem aftermath_rtData (s : State) (rt : Bool) (status : Byte) (detail : Nat) : Aftermath s
    (if rt ∧ status = 0x04 then
      let t := s.rtFault 0x48 none detail
      if t.fault.lockstep = 3 then t.haltRt 3 else t
    else s) := by
  split
  · dsimp only
    split
    · exact (aftermath_rtFault s 0x48 none detail).trans (aftermath_haltRt _ 3)
    · exact aftermath_rtFault s 0x48 none detail
  · exact .refl s

/-- How a failed run ends: its step is gone, its entry says FAILED, its completion record waits (R247, Table 10-4). -/
theorem endFailed_spec {s : State} {p : PartId} {r : RunSt} {x : StepRec} (hr : (s.part p).run = some r) (hx : s.step? r.aseq = some x)
    (status : Byte) (detail : Nat) (ha : r.aseq ≠ 0) : Freed s (s.endFailed p status detail) p r ∧
      (s.endFailed p status detail).step? r.aseq = none ∧
      (∃ e, (r.aseq % 4096, e) ∈ (s.endFailed p status detail).journal.entries ∧ e.aseq = r.aseq ∧ e.state = 5 ∧ e.status = status) ∧
      ∃ z : PendRec, (s.endFailed p status detail).records = s.records ++ [z] ∧ z.walk = none ∧ z.bytes ≠ [] ∧ z.commits = none := by
  obtain ⟨hfreed, ks, rt, qs, pt, e, -⟩ := closeRun_charge s p x.queue (r.cores.length * r.cclk) false r
  have hend : s.endFailed p status detail =
      let t := (((s.charge p x.queue (r.cores.length * r.cclk) false).closeRun p r).modStep r.aseq
        (fun x => { x with cclk := r.issueCclk })).failStep r.aseq status detail
      (if x.rt ∧ status = 0x04 then
        let t := t.rtFault 0x48 none detail
        if t.fault.lockstep = 3 then t.haltRt 3 else t
      else t).settleSeason := by
    unfold State.endFailed
    rw [hr]
    dsimp only
    rw [hx]
  rw [hend]
  generalize (s.charge p x.queue (r.cores.length * r.cclk) false).closeRun p r = u at e hfreed ⊢
  have hu : u.step? r.aseq = some x := by
    rw [e]
    exact hx
  obtain ⟨⟨st, j, ss, z, ef, hz⟩, hgone, hentry⟩ :=
    failStep_eq (step?_modStep_some (f := fun x => { x with cclk := r.issueCclk }) hu fun _ => rfl) status detail
  dsimp only
  generalize (u.modStep r.aseq (fun x => { x with cclk := r.issueCclk })).failStep r.aseq status detail = t at ef hgone hentry ⊢
  obtain ⟨l, f, c, rt, w, xl, ea⟩ := (aftermath_rtData t x.rt status detail).trans (aftermath_settleSeason _)
  have hfreed' : Freed s t p r := by
    refine hfreed.congr ?_ ?_ <;> rw [ef] <;> rfl
  have hrec : t.records = s.records ++ [z] := by
    rw [ef, e]
    rfl
  dsimp only at ea
  rw [ea]
  exact ⟨hfreed'.congr rfl rfl, hgone, hentry ha, z, hrec, hz.walk, hz.bytes, hz.commits⟩

/-- `s` with COMMITTED written, and the commit word of a sealed step (R246). -/
def State.commitWritten (s : State) (r : RunSt) (x : StepRec) : State :=
  let t := s.transition r.aseq .committed (commitStatus x r.twin)
  if x.desc.flip then t.modQueue x.queue (fun k => { k with cword := k.cword + 1 }) else t

/-- `s` with a committed run counted (R75, R274, R276). -/
def State.commitCounted (s : State) (p : PartId) (r : RunSt) (x : StepRec) : State :=
  (s.modPart p (fun y => { y.countRates r x.desc.strips with
    committed := y.committed + 1, lastNarrowed := r.narrowed.setWidth 64, lastClipped := r.clipped.setWidth 64 })).session x.ast
      (fun j => { j with committed := j.committed + 1 })

/-- `s` with the chain doorbells of a committed step rung, and the failover of an RT run over (R351, R388). -/
def State.commitSent (s : State) (p : PartId) (r : RunSt) (x : StepRec) : State :=
  let t := (s.chainTargets x.queue).foldl (fun s t => s.sendChain p t.1 t.2) s
  if x.rt then t.rtCommitted r else t

theorem commitStep_eq {s : State} {p : PartId} {r : RunSt} {x : StepRec} (hr : (s.part p).run = some r) (hx : s.step? r.aseq = some x)
    (hc : r.phase = .commit) : s.commitStep p false =
      ((((((s.commitWritten r x).charge p x.queue (r.cores.length * r.tokenCclk) false).closeRun p r).commitCounted p r x).commitSent p r
        x).dropStep r.aseq).settleSeason := by
  unfold State.commitStep
  rw [hr]
  dsimp only
  rw [hx]
  exact if_neg (not_not.2 hc)

theorem commitWritten_eq (s : State) (r : RunSt) (x : StepRec) :
    ∃ st j qs, s.commitWritten r x = { s with steps := st, journal := j, queues := qs } ∧
      ∀ q : QueueId, (qs[q.val]).stopped = (s.queue q).stopped := by
  obtain ⟨es, e⟩ := transition_eq s r.aseq .committed (commitStatus x r.twin)
  unfold State.commitWritten
  dsimp only
  rw [e]
  split
  · refine ⟨_, _, _, rfl, fun q => ?_⟩
    rw [getElem_upd]
    split
    · rename_i h
      rw [h]
      rfl
    · rfl
  · exact ⟨_, _, s.queues, rfl, fun q => rfl⟩

theorem run_commitCounted (s : State) (p : PartId) (r : RunSt) (x : StepRec) :
    ((s.commitCounted p r x).part p).run = (s.part p).run ∧ ((s.commitCounted p r x).part p).unserved = (s.part p).unserved := by
  have hpart : (s.commitCounted p r x).part p = { (s.part p).countRates r x.desc.strips with
      committed := (s.part p).committed + 1, lastNarrowed := r.narrowed.setWidth 64, lastClipped := r.clipped.setWidth 64 } :=
    part_modPart s p _
  rw [hpart]
  unfold Partition.countRates
  split <;> exact ⟨rfl, rfl⟩

theorem aftermath_commitSent (s : State) (p : PartId) (r : RunSt) (x : StepRec) : Aftermath s (s.commitSent p r x) := by
  have hchains : Aftermath s ((s.chainTargets x.queue).foldl (fun s t => s.sendChain p t.1 t.2) s) :=
    .foldl (fun t (a : Nat × QueueId) => aftermath_sendChain t p a.1 a.2) _ s
  unfold State.commitSent
  dsimp only
  split
  · exact hchains.trans (aftermath_rtCommitted _ r)
  · exact hchains

/-- The commit phase ends COMMITTED with its record unwritten: the run is over, the records and the stopped queues stay (R253, R267). -/
theorem commitStep_spec {s : State} {p : PartId} {r : RunSt} {x : StepRec} (hr : (s.part p).run = some r) (hx : s.step? r.aseq = some x)
    (hc : r.phase = .commit) : ((s.commitStep p false).part p).run = none ∧
      ((s.commitStep p false).part p).unserved = (s.part p).unserved ∧ (s.commitStep p false).records = s.records ∧
      (s.commitStep p false).nextRec = s.nextRec ∧ ∀ q, ((s.commitStep p false).queue q).stopped = (s.queue q).stopped := by
  obtain ⟨st, j, qs, ew, hqs⟩ := commitWritten_eq s r x
  obtain ⟨hfreed, ks, rt, ls, pt, ec, hls⟩ := closeRun_charge (s.commitWritten r x) p x.queue (r.cores.length * r.tokenCclk) false r
  rw [commitStep_eq hr hx hc]
  generalize ((s.commitWritten r x).charge p x.queue (r.cores.length * r.tokenCclk) false).closeRun p r = u at hfreed ec ⊢
  obtain ⟨hrun, hunserved⟩ := run_commitCounted u p r x
  have hkept : (u.commitCounted p r x).records = u.records ∧ (u.commitCounted p r x).nextRec = u.nextRec ∧
      (u.commitCounted p r x).queues = u.queues := ⟨rfl, rfl, rfl⟩
  generalize u.commitCounted p r x = v at hrun hunserved hkept ⊢
  obtain ⟨hrec, hnext, hqueues⟩ := hkept
  obtain ⟨l, f, c, rt', w, xl, es⟩ := aftermath_commitSent v p r x
  obtain ⟨⟨st', ss, ed⟩, -⟩ := dropStep_eq (v.commitSent p r x) r.aseq
  obtain ⟨l', f', c', rt'', w', xl', ea⟩ := aftermath_settleSeason ((v.commitSent p r x).dropStep r.aseq)
  rw [ea, ed, es]
  refine ⟨hrun.trans hfreed.run, hunserved.trans (hfreed.unserved.trans ?_), hrec.trans ?_, hnext.trans ?_, fun q => ?_⟩
  · rw [ew]
    rfl
  · rw [ec, ew]
  · rw [ec, ew]
  · change (v.queues[q.val]).stopped = _
    rw [hqueues, ec]
    refine (hls q).2.trans ?_
    rw [ew]
    exact hqs q

/-! ### Records on their way -/

/-- A stopped queue (R267, R268). -/
theorem stopQueue_eq (s : State) (q : QueueId) : ∃ qs l f c, s.stopQueue q = { s with queues := qs, link := l, fault := f, ctl := c } ∧
    (qs[q.val]).stopped = true := by
  unfold State.stopQueue
  split
  · rename_i h
    exact ⟨s.queues, s.link, s.fault, s.ctl, rfl, h⟩
  · unfold State.health
    dsimp only
    generalize eventRecord 0x09 none 0 q.val _ = r
    obtain ⟨l, e⟩ := forwardEvent_link (({ s.modQueue q (fun x => { x with stopped := true }) with fault := { s.fault with
      health := Tab.put s.fault.health (s.fault.healthNext.toNat % 64) r, healthNext := s.fault.healthNext + 1 } }).irq 3) r
    refine ⟨_, l, _, _, e, ?_⟩
    exact congrArg Queue.stopped (queue_modQueue s q _)

/-- The only record went as far as it can go: what it is to commit stays. -/
def Sent (s t : State) (y : PendRec) : Prop :=
  ∃ u z, t = { s.hosting u with records := [z] } ∧ z.part = y.part ∧ z.commits = y.commits

theorem Sent.of_hosting {s t u : State} {y : PendRec} (h : Sent (s.hosting u) t y) : Sent s t y := h

theorem present_hosting {s t : State} {n : PortId} {op : PortOp} {addr beats : Nat} {qos : Fin 4} {record : Bool} {o : Owner}
    {w : List (Nat × Byte)} (h : s.present n op addr beats qos record o w = some t) : t = s.hosting t := by
  unfold State.present at h
  split at h
  · cases h
  · cases h
    rfl

/-- A change of the only record. -/
theorem sent_modRecord {s : State} {y : PendRec} (h : s.records = [y]) {f : PendRec → PendRec} (hp : (f y).part = y.part)
    (hc : (f y).commits = y.commits) : Sent s (s.modRecord y.id f) y := by
  refine ⟨s, f y, ?_, hp, hc⟩
  unfold State.modRecord
  rw [h]
  simp only [List.map_cons, List.map_nil, if_true]
  rfl

theorem sent_presentRecord {s : State} {y : PendRec} (h : s.records = [y]) (n : PortId) (pa : Nat) : Sent s (s.presentRecord y n pa) y := by
  have hwait : Sent s (s.await n (.record y.id)) y := ⟨s.await n (.record y.id), y, by rw [← h]; rfl, rfl, rfl⟩
  unfold State.presentRecord
  dsimp only
  split
  · exact hwait
  · rename_i s1 h1
    split
    · exact hwait
    · rename_i s2 h2
      have e1 : s1 = s.hosting s1 := present_hosting h1
      have e2 : s2 = s.hosting s2 := by
        have := present_hosting h2
        rwa [e1] at this
      rw [e2]
      exact (sent_modRecord (s := s.hosting s2) h rfl rfl).of_hosting

theorem sent_presentRecordWalk {s : State} {y : PendRec} (h : s.records = [y]) (n : PortId) (w : WalkSt) :
    Sent s (s.presentRecordWalk y n w) y := by
  unfold State.presentRecordWalk
  split
  · rename_i t ht
    have e : t = s.hosting t := present_hosting ht
    rw [e]
    exact (sent_modRecord (s := s.hosting t) h rfl rfl).of_hosting
  · obtain ⟨u, z, e, hz⟩ := sent_modRecord (f := fun x => { x with walk := some { w with asked := false } }) h rfl rfl
    rw [e]
    exact ⟨State.await { s.hosting u with records := [z] } n (.record y.id), z, rfl, hz⟩

theorem stewardLookup_hosting {s t : State} {cl : ClusterId} {ast va : Nat} {l : Leaf} (h : s.stewardLookup cl ast va = some (l, t)) :
    t = s.hosting t := by
  unfold State.stewardLookup at h
  split at h
  · cases h
    rfl
  · split at h
    · cases h
      rfl
    · cases h

theorem countRange_hosting (s : State) (f : XFault) : s.countRange f = s.hosting (s.countRange f) := by
  unfold State.countRange
  split <;> rfl

/-- The only record, not on its way yet, is sent or cannot be written (R267, R289). -/
theorem driveRecord_only {s : State} {y : PendRec} (h : s.records = [y]) (hw : y.walk = none) (hb : y.bytes ≠ []) :
    Sent s (s.driveRecord y.id) y ∨ ∃ u, s.driveRecord y.id = (s.hosting u).recordFail y := by
  have hstay : ∀ u, Sent s (s.hosting u) y := fun u => ⟨u, y, by rw [← h]; rfl, rfl, rfl⟩
  have hparity : ∃ u, (s.stewardParity (s.partPort y.part) y.ast y.va).tableParity (s.partPort y.part) y.ast y.va = s.hosting u := by
    have e : s.stewardParity (s.partPort y.part) y.ast y.va = s.hosting (s.stewardParity (s.partPort y.part) y.ast y.va) :=
      stewardParity_hosting s s ..
    exact ⟨_, (congrArg (fun t : State => t.tableParity (s.partPort y.part) y.ast y.va) e).trans (tableParity_hosting ..)⟩
  obtain ⟨u, eu⟩ := hparity
  have hfind : s.records.find? (fun x => x.id == y.id) = some y := by simp [h]
  unfold State.driveRecord
  rw [hfind]
  dsimp only
  rw [if_neg (by simp [hb])]
  split
  · exact .inl (hstay s)
  · rw [hw]
    dsimp only
    rw [eu]
    split
    · rename_i l t ht
      have et : t = s.hosting t := stewardLookup_hosting (s := s.hosting u) ht
      rw [et]
      split
      · exact .inr ⟨t, rfl⟩
      · exact .inl (sent_presentRecord (s := s.hosting t) h _ _).of_hosting
    · split
      · exact .inl (hstay u)
      · split
        · rename_i e _
          exact .inr ⟨(s.hosting u).countRange e, by rw [countRange_hosting (s.hosting u) e]; rfl⟩
        · exact .inl (sent_presentRecordWalk (s := (s.hosting u).countWalk) h _ _)

theorem driveRecords_nil {s : State} (h : s.records = []) : s.driveRecords = s := by
  unfold State.driveRecords
  rw [h]
  rfl

theorem driveRecords_only {s : State} {y : PendRec} (h : s.records = [y]) : s.driveRecords = s.driveRecord y.id := by
  unfold State.driveRecords
  rw [h]
  rfl

/-- `s`, whose only record cannot be written: it is given up, its queue stops (R267). -/
def State.recordDropped (s : State) (q : QueueId) : State :=
  ({ s with records := [], start := { s.start with mwTest := none } }).stopQueue q

theorem recordDropped_eq (s : State) (q : QueueId) : ∃ qs l f c, s.recordDropped q =
    { s with records := [], start := { s.start with mwTest := none }, queues := qs, link := l, fault := f, ctl := c } ∧
      (qs[q.val]).stopped = true :=
  stopQueue_eq { s with records := [], start := { s.start with mwTest := none } } q

theorem records_filter_only {s : State} {y : PendRec} (h : s.records = [y]) : s.records.filter (fun x => x.id ≠ y.id) = [] := by
  simp [h]

theorem recordFail_of_none {s : State} {y : PendRec} (h : s.records = [y]) (hc : y.commits = none) :
    s.recordFail y = s.recordDropped y.queue := by
  unfold State.recordFail State.recordDropped
  rw [records_filter_only h, hc]

/-- What a record was to commit commits without it. -/
theorem recordFail_of_commits {s : State} {y : PendRec} {a : Nat} (h : s.records = [y]) (hc : y.commits = some a) :
    s.recordFail y = (s.recordDropped y.queue).commitStep y.part false := by
  unfold State.recordFail State.recordDropped
  rw [records_filter_only h, hc]

/-- Sending the record of a failed step leaves the partitions, the cores, the steps and the journal (R267). -/
theorem driveRecords_failed {s : State} {y : PendRec} (h : s.records = [y]) (hw : y.walk = none) (hb : y.bytes ≠ [])
    (hc : y.commits = none) : s.driveRecords.parts = s.parts ∧ s.driveRecords.cores = s.cores ∧ s.driveRecords.steps = s.steps ∧
      s.driveRecords.journal = s.journal := by
  rw [driveRecords_only h]
  rcases driveRecord_only h hw hb with ⟨u, z, e, -, -⟩ | ⟨u, e⟩
  · rw [e]
    exact ⟨rfl, rfl, rfl, rfl⟩
  · obtain ⟨qs, l, f, c, er, -⟩ := recordDropped_eq (s.hosting u) y.queue
    rw [e, recordFail_of_none (s := s.hosting u) h hc, er]
    exact ⟨rfl, rfl, rfl, rfl⟩

/-! ### The end of a stopped run -/

theorem execRunDrained_kill {s : State} {p : PartId} {r : RunSt} {cause : Byte} (hr : (s.part p).run = some r)
    (hp : r.phase = .draining (.kill cause)) (hw : s.writesOpen r = false) :
    execRunDrained p s = .next (s.endKilled p cause).driveRecords := by
  unfold execRunDrained
  rw [hr]
  dsimp only
  rw [hp]
  dsimp only
  rw [hw]
  rfl

theorem execRunDrained_fault {s : State} {p : PartId} {r : RunSt} {status : Byte} {detail : Word} (hr : (s.part p).run = some r)
    (hp : r.phase = .draining (.fault status detail)) (hw : s.writesOpen r = false) :
    execRunDrained p s = .next (s.endFailed p status detail.toNat).driveRecords := by
  unfold execRunDrained
  rw [hr]
  dsimp only
  rw [hp]
  dsimp only
  rw [hw]
  rfl

/-- A run is not over while a write of its own is unanswered (R247). -/
theorem execRunDrained_open {s : State} {p : PartId} {r : RunSt} {w : StopWhy} (hr : (s.part p).run = some r) (hp : r.phase = .draining w)
    (hw : s.writesOpen r = true) : execRunDrained p s = .next s := by
  unfold execRunDrained
  rw [hr]
  dsimp only
  rw [hp]
  dsimp only
  rw [hw]
  rfl

/-- A drained kill (R247, R270). -/
theorem runDrained_kill {s : State} {p : PartId} {r : RunSt} {x : StepRec} {cause : Byte} (hr : (s.part p).run = some r)
    (hx : s.step? r.aseq = some x) (hn : s.records = []) (hp : r.phase = .draining (.kill cause)) (hw : s.writesOpen r = false) :
    ∃ t, execRunDrained p s = .next t ∧ Freed s t p r ∧
      ((s.queue x.queue).enable = true → ∃ y, t.step? r.aseq = some y ∧ y.state = .killed ∧ y.status = cause ∧ y.kills = x.kills + 1) ∧
      ((s.queue x.queue).enable = false → t.step? r.aseq = none) := by
  obtain ⟨hfreed, hkilled, hfailed⟩ := endKilled_spec hr hx cause
  refine ⟨_, execRunDrained_kill hr hp hw, ?_⟩
  generalize s.endKilled p cause = t at hfreed hkilled hfailed
  rw [hn] at hkilled hfailed
  cases he : (s.queue x.queue).enable with
  | true =>
    obtain ⟨hrec, hy⟩ := hkilled he
    rw [driveRecords_nil hrec]
    exact ⟨hfreed, fun _ => hy, nofun⟩
  | false =>
    obtain ⟨hgone, z, hrec, hzw, hzb, hzc⟩ := hfailed he
    obtain ⟨hparts, hcores, hsteps, -⟩ := driveRecords_failed hrec hzw hzb hzc
    refine ⟨hfreed.congr hparts hcores, nofun, fun _ => ?_⟩
    unfold State.step?
    rw [hsteps]
    exact hgone

/-- A drained fault (R247, Table 10-4). -/
theorem runDrained_fault {s : State} {p : PartId} {r : RunSt} {x : StepRec} {status : Byte} {detail : Word} (hr : (s.part p).run = some r)
    (hx : s.step? r.aseq = some x) (hn : s.records = []) (hp : r.phase = .draining (.fault status detail)) (hw : s.writesOpen r = false)
    (ha : r.aseq ≠ 0) : ∃ t e, execRunDrained p s = .next t ∧ (t.part p).run = none ∧ t.step? r.aseq = none ∧
      (r.aseq % 4096, e) ∈ t.journal.entries ∧ e.aseq = r.aseq ∧ e.state = 5 ∧ e.status = status ∧
      ∀ c ∈ r.cores, (t.core c).phase = .idle := by
  obtain ⟨hfreed, hgone, ⟨e, hentry, haseq, hstate, hstatus⟩, z, hrec, hzw, hzb, hzc⟩ := endFailed_spec hr hx status detail.toNat ha
  refine ⟨_, e, execRunDrained_fault hr hp hw, ?_⟩
  generalize s.endFailed p status detail.toNat = t at hfreed hgone hentry hrec
  rw [hn] at hrec
  obtain ⟨hparts, hcores, hsteps, hjournal⟩ := driveRecords_failed hrec hzw hzb hzc
  have hfreed' := hfreed.congr hparts hcores
  refine ⟨hfreed'.run, ?_, ?_, haseq, hstate, hstatus, hfreed'.idle⟩
  · unfold State.step?
    rw [hsteps]
    exact hgone
  · rw [hjournal]
    exact hentry

end Sys2Proof.Machine

/-!
PROOFS. How a run goes on and ends: tokens, the flushes, the commit phase, the wide twin, a drained run, ageing (R77, R78, R241, R247, R251,
R253, R267, R270, R271): `how_a_run_ends`.
-/
namespace Sys2Proof.Machine
open Sys2Proof.Safety

/-! ### The run of a partition -/

/-- `s` with another run in a partition. -/
def State.withRun (s : State) (p : PartId) (r : RunSt) : State := s.modPart p (fun y => { y with run := some r })

theorem modPart_modPart (s : State) (p : PartId) (f g : Partition → Partition) :
    (s.modPart p f).modPart p g = s.modPart p (fun x => g (f x)) := by
  simp [State.modPart, upd]

theorem withRun_withRun (s : State) (p : PartId) (r w : RunSt) : (s.withRun p r).withRun p w = s.withRun p w := modPart_modPart s p _ _

@[simp] theorem part_withRun (s : State) (p : PartId) (r : RunSt) : (s.withRun p r).part p = { s.part p with run := some r } :=
  part_modPart s p _

theorem coveringWindow_withRun (s : State) (p : PartId) (r : RunSt) (k : PartId) (g : Region) :
    (s.withRun p r).coveringWindow k g = s.coveringWindow k g := by
  have hdw : ((s.withRun p r).part k).dw = (s.part k).dw := by
    by_cases h : k = p
    · rw [h, part_withRun]
    · exact congrArg Partition.dw (part_modPart_ne s p k _ h)
  unfold State.coveringWindow
  rw [hdw]

/-- The arguments of a step do not depend on what runs (R237, R329). -/
theorem stepArgs_withRun (s : State) (p : PartId) (r : RunSt) (x : StepRec) : (s.withRun p r).stepArgs x = s.stepArgs x := by
  have hresolve : (s.withRun p r).resolve = s.resolve := by
    funext y kind b
    have hbound : (s.withRun p r).boundVersion = s.boundVersion := rfl
    unfold State.resolve
    simp only [hbound, coveringWindow_withRun]
  unfold State.stepArgs
  rw [hresolve]
  rfl

/-- A run with its oldest token taken (R251). -/
def RunSt.taking (r : RunSt) (k : Token) (rest : List Token) (now : Nat) : RunSt :=
  { r with arrived := rest, taken := r.taken ++ [k], ended := now }

/-- A run at its last token: what it is charged and what it reports (R272, Table 10-3). -/
def RunSt.timed (r : RunSt) : RunSt := { r with tokenCclk := r.cclk, tokenIssue := r.issueCclk }

/-- TOKEN_TAKEN of a running run (R251). -/
theorem execTokenTaken_eq {s : State} {p : PartId} {r : RunSt} {k : Token} {rest : List Token} (code : List ReadResult)
    (hr : (s.part p).run = some r) (hp : r.phase = .running) (ha : r.arrived = k :: rest) : execTokenTaken ⟨p, code⟩ s = .next
      (if r.taken.length + 1 = r.cores.length then (s.withRun p (r.taking k rest s.now)).collectEnd p (r.taking k rest s.now) code
        else s.withRun p (r.taking k rest s.now)) := by
  have hlen : (r.taking k rest s.now).taken.length = r.taken.length + 1 := List.length_append
  unfold execTokenTaken
  dsimp only
  rw [hr, ← hlen]
  dsimp only
  split
  · rename_i harr
    rw [ha] at harr
    cases harr
    rfl
  · rename_i h
    exact (h k rest hp ha).elim

/-! ### After the last token -/

/-- Whether a wide twin is wanted, and whether it can be had (R77, R78). -/
def RunSt.fires (r : RunSt) (p : PartId) (x : StepRec) : Prop := r.twin = false ∧ triggered x.tables.policy[p.val] r = true
def StepRec.served (x : StepRec) (p : PartId) : Prop :=
  x.rt = false ∧ x.tables.policy[p.val].twin = true ∧ ∃ img, x.image = some img ∧ (findSection img.bytes 3).isSome = true

/-- `s` with a trigger that no twin serves counted (R77). -/
def State.unservedMore (s : State) (p : PartId) (n : DWord) : State := s.modPart p (fun y => { y with unserved := y.unserved + n })

theorem modPart_same {s : State} {p : PartId} {f : Partition → Partition} (h : f (s.part p) = s.part p) : s.modPart p f = s := by
  unfold State.modPart upd
  rw [show f s.parts[p.val] = s.parts[p.val] from h, Vector.set_getElem_self]

/-- Without a twin to start, stage 8 begins; a trigger that fired is counted (R77, R251). -/
theorem collectEnd_unserved {s : State} {p : PartId} {r : RunSt} {x : StepRec} (code : List ReadResult) (hx : s.step? r.aseq = some x)
    (h : ¬ (r.fires p x ∧ x.served p)) : s.collectEnd p r code =
      (s.unservedMore p (if r.twin = false ∧ triggered x.tables.policy[p.val] r = true then 1 else 0)).beginFlush p := by
  unfold State.collectEnd
  rw [hx]
  dsimp only
  by_cases hf : r.twin = false ∧ triggered x.tables.policy[p.val] r = true
  · have hs : ¬ x.served p := fun hs => h ⟨hf, hs⟩
    rw [if_pos (by simp [hf]), if_pos hf]
    split
    · rename_i img hrt hpol himg
      split
      · rename_i hsec
        exact absurd ⟨hrt, hpol, img, himg, hsec⟩ hs
      · rfl
    · rfl
  · rw [if_neg (by simpa using hf), if_neg hf]
    unfold State.unservedMore
    rw [modPart_same (by simp)]

/-- A trigger that the policy and the image serve starts the twin (R78). -/
theorem collectEnd_served {s : State} {p : PartId} {r : RunSt} {x : StepRec} {img : ImgRec} (code : List ReadResult)
    (hx : s.step? r.aseq = some x) (hf : r.twin = false ∧ triggered x.tables.policy[p.val] r = true) (hrt : x.rt = false)
    (hpol : x.tables.policy[p.val].twin = true) (himg : x.image = some img) (hsec : (findSection img.bytes 3).isSome = true) :
    s.collectEnd p r code = s.startTwin p r x img code := by
  unfold State.collectEnd
  rw [hx]
  dsimp only
  rw [if_pos (by simp [hf]), hrt, hpol, himg]
  exact if_pos hsec

/-- Stage 8 begins: the commit phase where the run wrote no port, else its flushes (R251). -/
theorem beginFlush_eq {s : State} {p : PartId} {r : RunSt} (hr : (s.part p).run = some r) : s.beginFlush p =
    if r.ports = [] then (s.withRun p r.timed).openCommit p
    else (s.withRun p { r.timed with phase := .flushing r.ports 0 }).driveFlush p := by
  rw [← withRun_withRun s p r.timed { r.timed with phase := .flushing r.ports 0 }]
  unfold State.beginFlush
  rw [hr]
  rfl

/-! ### Flushes -/

/-- One flush of a run's list: sent, or waiting for an identifier (R251, R293). -/
def flushPort (p : PartId) (qos : Fin 4) (a : State × List PortId × Nat) (n : PortId) : State × List PortId × Nat :=
  match a.1.present n .flush 0 1 qos false (.dataFlush p) [] with
  | some s => (s, a.2.1, a.2.2 + 1)
  | none => (a.1.await n (.flush p), a.2.1 ++ [n], a.2.2)

theorem driveFlush_eq {s : State} {p : PartId} {r : RunSt} {x : StepRec} {todo : List PortId} {left : Nat} (hr : (s.part p).run = some r)
    (hp : r.phase = .flushing todo left) (hx : s.step? r.aseq = some x) : s.driveFlush p =
      let t := todo.foldl (flushPort p (qosOf x.rt x.cls)) (s, [], left)
      t.1.withRun p { r with phase := .flushing t.2.1 t.2.2 } := by
  unfold State.driveFlush
  rw [hr]
  dsimp only
  rw [hp, hx]
  rfl

/-- A flush is sent or waits. -/
theorem flushPort_spec (p : PartId) (qos : Fin 4) (a : State × List PortId × Nat) (n : PortId) :
    (flushPort p qos a n).1 = a.1.hosting (flushPort p qos a n).1 ∧
      (flushPort p qos a n).2.1.length + (flushPort p qos a n).2.2 = a.2.1.length + a.2.2 + 1 := by
  unfold flushPort
  split
  · rename_i h
    exact ⟨present_hosting h, rfl⟩
  · refine ⟨rfl, ?_⟩
    simp only [List.length_append, List.length_singleton]
    omega

/-- Flushes touch the ports alone; each is sent or waits. -/
theorem foldl_flushPort (p : PartId) (qos : Fin 4) (ns : List PortId) (a : State × List PortId × Nat) :
    (ns.foldl (flushPort p qos) a).1 = a.1.hosting (ns.foldl (flushPort p qos) a).1 ∧
      (ns.foldl (flushPort p qos) a).2.1.length + (ns.foldl (flushPort p qos) a).2.2 = a.2.1.length + a.2.2 + ns.length := by
  induction ns generalizing a with
  | nil => exact ⟨rfl, rfl⟩
  | cons n ns ih =>
    obtain ⟨h1, h2⟩ := flushPort_spec p qos a n
    obtain ⟨h3, h4⟩ := ih (flushPort p qos a n)
    rw [List.foldl_cons, List.length_cons]
    refine ⟨?_, by omega⟩
    rw [h1] at h3
    exact h3

/-- A run with ports to flush flushes them (R251). -/
theorem beginFlush_flushes {s : State} {p : PartId} {r : RunSt} {x : StepRec} (hr : (s.part p).run = some r) (hx : s.step? r.aseq = some x)
    (hn : r.ports ≠ []) : ∃ todo left, (s.beginFlush p).cores = s.cores ∧
      ((s.beginFlush p).part p).run = some { r.timed with phase := .flushing todo left } ∧ todo.length + left = r.ports.length := by
  have hrun : ((s.withRun p { r.timed with phase := .flushing r.ports 0 }).part p).run = some { r.timed with phase := .flushing r.ports 0 } := by
    rw [part_withRun]
  rw [beginFlush_eq hr, if_neg hn, driveFlush_eq hrun rfl hx]
  dsimp only
  obtain ⟨h1, h2⟩ := foldl_flushPort p (qosOf x.rt x.cls) r.ports
    (s.withRun p { r.timed with phase := .flushing r.ports 0 }, [], 0)
  generalize r.ports.foldl (flushPort p (qosOf x.rt x.cls)) (s.withRun p { r.timed with phase := .flushing r.ports 0 }, [], 0) = t at h1 h2 ⊢
  refine ⟨t.2.1, t.2.2, ?_, by rw [part_withRun], by simpa using h2⟩
  rw [h1]
  rfl

/-- With an identifier free the only flush goes out at once (R251, R286). -/
theorem beginFlush_one {s : State} {p : PartId} {r : RunSt} {x : StepRec} {n : PortId} {i : Nat} (hr : (s.part p).run = some r)
    (hx : s.step? r.aseq = some x) (hn : r.ports = [n]) (hi : s.freeId n (qosOf x.rt x.cls) false = some i) :
    ((s.beginFlush p).part p).run = some { r.timed with phase := .flushing [] 1 } ∧ ((s.beginFlush p).port n).txns = (s.port n).txns ++
      [⟨BitVec.ofNat 8 i, .flush, 0, 1, qosOf x.rt x.cls, .dataFlush p, s.now, [], []⟩] := by
  have hrun : ((s.withRun p { r.timed with phase := .flushing r.ports 0 }).part p).run = some { r.timed with phase := .flushing r.ports 0 } := by
    rw [part_withRun]
  rw [beginFlush_eq hr, if_neg (by simp [hn]), driveFlush_eq hrun rfl hx, hn]
  generalize hu : s.withRun p { r.timed with phase := .flushing [n] 0 } = u
  have hport : u.port = s.port := by rw [← hu]; rfl
  have hnow : u.now = s.now := by rw [← hu]; rfl
  have hfree : u.freeId n (qosOf x.rt x.cls) false = some i := by rw [← hu]; exact hi
  have hone : [n].foldl (flushPort p (qosOf x.rt x.cls)) (u, [], 0) = (u.modPort n (fun q => { q with txns := q.txns ++
      [⟨BitVec.ofNat 8 i, .flush, 0, 1, qosOf x.rt x.cls, .dataFlush p, u.now, [], []⟩] }), [], 1) := by
    simp only [List.foldl_cons, List.foldl_nil, flushPort, State.present, hfree]
  rw [hone]
  refine ⟨by rw [part_withRun], ?_⟩
  change ((u.modPort n _).port n).txns = _
  rw [port_modPort, hport, hnow]

/-! ### The commit phase -/

/-- `s` with the commit phase of a run open (R253). -/
def State.committing (s : State) (p : PartId) (r : RunSt) : State :=
  (s.withRun p { r with phase := .commit }).modStep r.aseq (fun x => { x with flags := r.flags, cclk := r.tokenIssue })

theorem part_committing (s : State) (p : PartId) (r : RunSt) : ((s.committing p r).part p).run = some { r with phase := .commit } ∧
    ((s.committing p r).part p).unserved = (s.part p).unserved ∧ ((s.committing p r).part p).coreMask = (s.part p).coreMask := by
  rw [show (s.committing p r).part p = { s.part p with run := some { r with phase := .commit } } from part_withRun s p _]
  exact ⟨rfl, rfl, rfl⟩

theorem openCommit_eq {s : State} {p : PartId} {r : RunSt} {x : StepRec} (hr : (s.part p).run = some r) (hx : s.step? r.aseq = some x) :
    ∃ y : PendRec, s.openCommit p = ((s.committing p r).noted y).driveRecords ∧ y.Fresh x.queue p (some r.aseq) := by
  have hstep : (s.committing p r).step? r.aseq = some { x with flags := r.flags, cclk := r.tokenIssue } :=
    step?_modStep_some (s := s.withRun p { r with phase := .commit }) hx (fun _ => rfl)
  unfold State.openCommit
  rw [hr]
  dsimp only
  split
  · rename_i h
    exact absurd (h.symm.trans hstep) nofun
  · rename_i x' h
    have hx' : x' = { x with flags := r.flags, cclk := r.tokenIssue } := Option.some.inj (h.symm.trans hstep)
    exact ⟨_, rfl, by rw [hx'], rfl, rfl, rfl, recordBytes_ne_nil _ _ _ _ _ _ _ _ _, rfl⟩

/-- The commit phase opens, or it is over at once and the queue stops where the record cannot be written (R253, R267). -/
theorem openCommit_spec {s : State} {p : PartId} {r : RunSt} {x : StepRec} (hr : (s.part p).run = some r) (hx : s.step? r.aseq = some x)
    (hn : s.records = []) : (s.openCommit p).nextRec = s.nextRec + 1 ∧ ((s.openCommit p).part p).unserved = (s.part p).unserved ∧
      ((((s.openCommit p).part p).run = some { r with phase := .commit } ∧ (s.openCommit p).cores = s.cores ∧
          ∃ y, (s.openCommit p).records = [y] ∧ y.part = p ∧ y.commits = some r.aseq) ∨
        (((s.openCommit p).part p).run = none ∧ (s.openCommit p).records = [] ∧ ((s.openCommit p).queue x.queue).stopped = true)) := by
  obtain ⟨y, e, hy⟩ := openCommit_eq hr hx
  obtain ⟨hrun, hunserved, -⟩ := part_committing s p r
  have hstep : (s.committing p r).step? r.aseq = some { x with flags := r.flags, cclk := r.tokenIssue } :=
    step?_modStep_some (s := s.withRun p { r with phase := .commit }) hx (fun _ => rfl)
  have hkept : (s.committing p r).nextRec = s.nextRec ∧ (s.committing p r).cores = s.cores ∧ (s.committing p r).records = [] :=
    ⟨rfl, rfl, hn⟩
  rw [e]
  clear e
  generalize s.committing p r = u at hrun hunserved hstep hkept ⊢
  obtain ⟨hnext, hcores, hnone⟩ := hkept
  have hrec : (u.noted y).records = [y] := by
    change u.records ++ [y] = [y]
    rw [hnone]
    rfl
  rw [driveRecords_only hrec]
  rcases driveRecord_only hrec hy.walk hy.bytes with ⟨v, z, ev, hzp, hzc⟩ | ⟨v, ev⟩
  · rw [ev]
    exact ⟨congrArg (· + 1) hnext, hunserved, .inl ⟨hrun, hcores, z, rfl, hzp.trans hy.part, hzc.trans hy.commits⟩⟩
  · rw [ev, recordFail_of_commits (s := (u.noted y).hosting v) hrec hy.commits]
    obtain ⟨qs, l, f, c, ed, hq⟩ := recordDropped_eq ((u.noted y).hosting v) y.queue
    have hrun' : ((((u.noted y).hosting v).recordDropped y.queue).part y.part).run = some { r with phase := .commit } := by
      rw [ed, hy.part]
      exact hrun
    have hstep' : (((u.noted y).hosting v).recordDropped y.queue).step? r.aseq = some { x with flags := r.flags, cclk := r.tokenIssue } := by
      rw [ed]
      exact hstep
    obtain ⟨hover, hunserved', hrecords, hnext', hstopped⟩ := commitStep_spec hrun' hstep' rfl
    rw [hy.part] at hover hunserved' hrecords hnext' hstopped ⊢
    refine ⟨hnext'.trans ?_, hunserved'.trans ?_, .inr ⟨hover, hrecords.trans ?_, (hstopped x.queue).trans ?_⟩⟩
    · rw [ed]
      exact congrArg (· + 1) hnext
    · rw [ed]
      exact hunserved
    · rw [ed]
    · rw [ed, ← hy.queue]
      exact hq

/-- A record waits for its port to be UP (R299). -/
theorem driveRecord_down {s : State} {y : PendRec} (h : s.records = [y]) (hb : y.bytes ≠ []) (hp : s.portUp (s.partPort y.part) = false)
    (hm : s.inMidwinter = false) : s.driveRecord y.id = s := by
  have hfind : s.records.find? (fun x => x.id == y.id) = some y := by simp [h]
  unfold State.driveRecord
  rw [hfind]
  dsimp only
  rw [if_neg (by simp [hb]), if_pos (by simp [hp, hm])]

/-- A partition's port is that of its mask (R19). -/
theorem partPort_of_mask {s t : State} {p : PartId} (h : (t.part p).coreMask = (s.part p).coreMask) : t.partPort p = s.partPort p := by
  unfold State.partPort
  rw [h]

/-- Where the port is down the commit phase opens with its record unsent (R299). -/
theorem openCommit_down {s : State} {p : PartId} {r : RunSt} {x : StepRec} (hr : (s.part p).run = some r) (hx : s.step? r.aseq = some x)
    (hn : s.records = []) (hp : s.portUp (s.partPort p) = false) (hm : s.inMidwinter = false) :
    ((s.openCommit p).part p).run = some { r with phase := .commit } ∧ (s.openCommit p).ports = s.ports ∧
      ∃ y, (s.openCommit p).records = [y] ∧ y.commits = some r.aseq ∧ y.issued = false := by
  obtain ⟨y, e, hy⟩ := openCommit_eq hr hx
  obtain ⟨hrun, -, hmask⟩ := part_committing s p r
  have hrec : ((s.committing p r).noted y).records = [y] := by
    change s.records ++ [y] = [y]
    rw [hn]
    rfl
  have hport : ((s.committing p r).noted y).partPort y.part = s.partPort p := by
    rw [hy.part]
    exact partPort_of_mask hmask
  have hdown : ((s.committing p r).noted y).portUp (((s.committing p r).noted y).partPort y.part) = false := by
    rw [hport]
    exact hp
  rw [e, driveRecords_only hrec, driveRecord_down hrec hy.bytes hdown hm]
  exact ⟨hrun, rfl, y, hrec, hy.commits, hy.issued⟩

/-! ### The wide twin -/

/-- `s` with the wide twin of a run opened (R78). -/
def State.twinOpened (s : State) (p : PartId) (r : RunSt) (x : StepRec) : State :=
  (s.modStep x.aseq (fun y => { y with twin := true })).modPart p (fun y =>
    { y with twinRuns := y.twinRuns + 1, run := some { r with twin := true, phase := .running, arrived := [], taken := [] } })

theorem part_twinOpened (s : State) (p : PartId) (r : RunSt) (x : StepRec) : (s.twinOpened p r x).part p = { s.part p with
    twinRuns := (s.part p).twinRuns + 1, run := some { r with twin := true, phase := .running, arrived := [], taken := [] } } :=
  part_modPart (s.modStep x.aseq (fun y => { y with twin := true })) p _

theorem startTwin_eq {s : State} {x : StepRec} {args : List DWord} (p : PartId) (r : RunSt) (img : ImgRec) (code : List ReadResult)
    (ha : s.stepArgs x = .ok args) (hm : s.inMidwinter = false) : s.startTwin p r x img code =
      ((s.twinOpened p r x).loadRun p x r.cores img true args (some code)).loaderRead p img true := by
  have hmid : (s.twinOpened p r x).inMidwinter = false := hm
  unfold State.startTwin
  rw [ha]
  change ((s.twinOpened p r x).loadRun p x r.cores img true args
    (if (s.twinOpened p r x).inMidwinter then none else some code)).loaderRead p img true = _
  rw [hmid]
  rfl

/-- The wide twin starts on the run's cores with the step's arguments and the twin's code, which the loader finds as it does in a state
`s` with the same memories outside the cores (R78, R224). -/
theorem startTwin_spec {s u : State} {p : PartId} {r : RunSt} {x : StepRec} {img : ImgRec} {args : List DWord} {code : List ReadResult}
    {tab : Tab (List Byte)} (hp : u.ports = s.ports) (hc : u.xlate = s.xlate) (hd : u.deep = s.deep)
    (harea : (u.part p).imageArea = (s.part p).imageArea) (hst : u.inMidwinter = s.inMidwinter) (hm : s.inMidwinter = false)
    (hrt : x.rt = false) (ha : u.stepArgs x = .ok args) (hl : Loads s p x img true r.cores code tab) :
    ((u.startTwin p r x img code).part p).run = some { r with twin := true, phase := .running, arrived := [], taken := [] } ∧
      ((u.startTwin p r x img code).part p).twinRuns = (u.part p).twinRuns + 1 ∧
      ∀ c ∈ r.cores, Started ((u.startTwin p r x img code).core c) args (loadedCode img true tab c) := by
  have hpart := part_twinOpened u p r x
  rw [startTwin_eq p r img code ha (hst.trans hm)]
  have hkept : (u.twinOpened p r x).ports = s.ports ∧ (u.twinOpened p r x).xlate = s.xlate ∧ (u.twinOpened p r x).deep = s.deep ∧
      (u.twinOpened p r x).inMidwinter = s.inMidwinter := ⟨hp, hc, hd, hst⟩
  generalize u.twinOpened p r x = v at hpart hkept ⊢
  obtain ⟨hvp, hvc, hvd, hvm⟩ := hkept
  obtain ⟨ks, po, xl, er, -, hin⟩ := loadRun_loads (s := s) hvp hvc hvm hrt args hl
  have hcleared : (v.modPart p Partition.cleared).part p = (v.part p).cleared := part_modPart v p _
  rw [er]
  have hdeep : State.deep { v.modPart p Partition.cleared with cores := ks, ports := po, xlate := xl } = s.deep := hvd
  have harea' : (State.part { v.modPart p Partition.cleared with cores := ks, ports := po, xlate := xl } p).imageArea =
      (s.part p).imageArea := by
    refine (congrArg Partition.imageArea hcleared).trans ?_
    rw [hpart]
    exact harea
  obtain ⟨d, sc, el⟩ := loaderRead_loads hdeep harea' hl
  rw [el]
  refine ⟨(congrArg Partition.run hcleared).trans ?_, (congrArg Partition.twinRuns hcleared).trans ?_, hin⟩
  · rw [hpart]
    rfl
  · rw [hpart]
    rfl

/-! ### Ageing -/

theorem steps_foldl {α : Type} {f : State → α → State} (hf : ∀ s a, (f s a).steps = s.steps) (xs : List α) (s : State) :
    (xs.foldl f s).steps = s.steps := by
  induction xs generalizing s with
  | nil => rfl
  | cons a xs ih => exact (ih (f s a)).trans (hf s a)

theorem steps_landDeep (s : State) (c : CoreId) : (s.landDeep c).steps = s.steps := by
  refine steps_foldl (f := fun s (w : DeepWrite) => (s.deepWrite w.dsa w.bs).1) (fun t w => ?_) _ s
  obtain ⟨d, sc, l, h, n, i, e⟩ := eccLogged_deepWrite t w.dsa w.bs
  rw [e]

/-- Stopping a run moves no step (R247). -/
theorem steps_killRun (s : State) (p : PartId) (cause : Byte) : (s.killRun p cause).steps = s.steps := by
  have hstop : ∀ why, (s.stopRun p why).steps = s.steps := by
    intro why
    unfold State.stopRun
    split
    · rfl
    · split
      · rfl
      · rename_i r _ _ _
        exact steps_foldl (f := fun s c => (s.landDeep c).modCore c Core.abandon) (fun t c => steps_landDeep t c) r.cores s
  unfold State.killRun
  split
  · rfl
  · split
    · rfl
    · exact hstop _

theorem steps_preempt (s : State) (p : PartId) : (s.preempt p).steps = s.steps := by
  unfold State.preempt
  split
  · rfl
  · split
    · rfl
    · dsimp only
      split
      · exact steps_killRun s p 0x01
      · rfl

/-- Nothing is pre-empted where nothing runs (R273). -/
theorem preempt_of_none {s : State} {p : PartId} (h : (s.part p).run = none) : s.preempt p = s := by
  unfold State.preempt
  rw [h]

theorem execAgeLimitElapsed_eq {s : State} {q : QueueId} {y : StepRec} (hy : s.dispatchable q = some y) (ha : s.journal.ageLimit ≠ 0) :
    execAgeLimitElapsed q s = .next ((s.modStep y.aseq (fun z => { z with aged := z.aged + 1 })).preempt y.part) := by
  unfold execAgeLimitElapsed
  rw [hy]
  exact if_neg ha

/-! ### The last token -/

/-- `s` where the last token of a run is taken and no twin serves it; the trigger that fired is counted (R77, R251). -/
def State.lastTaken (s : State) (p : PartId) (r : RunSt) (x : StepRec) : State :=
  (s.withRun p r).unservedMore p (if r.twin = false ∧ triggered x.tables.policy[p.val] r = true then 1 else 0)

theorem part_lastTaken (s : State) (p : PartId) (r : RunSt) (x : StepRec) : (s.lastTaken p r x).part p = { s.part p with
    run := some r
    unserved := (s.part p).unserved + (if r.twin = false ∧ triggered x.tables.policy[p.val] r = true then 1 else 0) } := by
  refine (part_modPart (s.withRun p r) p _).trans ?_
  rw [part_withRun]

/-- The last token of a run that no twin serves: stage 8 begins (R77, R251). -/
theorem tokenTaken_unserved {s : State} {p : PartId} {r : RunSt} {x : StepRec} {k : Token} {rest : List Token} (code : List ReadResult)
    (hr : (s.part p).run = some r) (hx : s.step? r.aseq = some x) (hp : r.phase = .running) (ha : r.arrived = k :: rest)
    (hlen : r.taken.length + 1 = r.cores.length) (h : ¬ ((r.taking k rest s.now).fires p x ∧ x.served p)) :
    exec (.tokenTaken ⟨p, code⟩) s = .next ((s.lastTaken p (r.taking k rest s.now) x).beginFlush p) := by
  rw [exec_tokenTaken, execTokenTaken_eq code hr hp ha, if_pos hlen]
  exact congrArg Host.Outcome.next (collectEnd_unserved (s := s.withRun p (r.taking k rest s.now)) code hx h)

/-- The same where the run wrote no port: the commit phase opens (R253). -/
theorem beginFlush_commits {s : State} {p : PartId} {r : RunSt} (x : StepRec) (hn : r.ports = []) :
    (s.lastTaken p r x).beginFlush p = ((s.lastTaken p r x).withRun p r.timed).openCommit p := by
  rw [beginFlush_eq (congrArg Partition.run (part_lastTaken s p r x)), if_pos hn]

/-- Settles O38: the last token leads to the twin (`collectEnd_served`, `startTwin_spec`), to the flushes (`beginFlush_flushes`,
`beginFlush_one`) or to the commit phase (`openCommit_spec`); a drained run ends KILLED or FAILED (`runDrained_kill`, `runDrained_fault`). -/
theorem howARunEnds : Obligations.how_a_run_ends := by
  unfold Obligations.how_a_run_ends
  intro s p r x code hr hx hn
  refine ⟨?_, ?_, ?_, ?_, ?_, ?_⟩
  · intro k rest hp ha hlen
    refine ⟨_, (exec_tokenTaken _ s).trans (execTokenTaken_eq code hr hp ha), ?_⟩
    rw [if_neg hlen.ne, part_withRun]
    exact ⟨rfl, rfl, rfl⟩
  · intro k rest hp ha hlen w fires served
    refine ⟨fun hno => ?_, ?_⟩
    · have hexec := tokenTaken_unserved code hr hx hp ha hlen hno
      have hlast := part_lastTaken s p (r.taking k rest s.now) x
      have hpart := part_withRun (s.lastTaken p (r.taking k rest s.now) x) p w
      have hrun : ((s.lastTaken p (r.taking k rest s.now) x).part p).run = some (r.taking k rest s.now) := by rw [hlast]
      have hrun' : (((s.lastTaken p (r.taking k rest s.now) x).withRun p w).part p).run = some w := by rw [hpart]
      refine ⟨fun hports => ?_, fun hports hup hm => ?_, fun hports => ?_, fun n i hports hi => ?_⟩
      · obtain ⟨hnext, hunserved, hend⟩ := openCommit_spec hrun' hx hn
        refine ⟨_, hexec.trans (congrArg Host.Outcome.next (beginFlush_commits x hports)), hnext, hunserved.trans ?_, hend⟩
        rw [hpart, hlast]
        rfl
      · have hport : ((s.lastTaken p (r.taking k rest s.now) x).withRun p w).partPort p = s.partPort p :=
          partPort_of_mask (by rw [hpart, hlast])
        obtain ⟨hcommit, hkept, hrec⟩ := openCommit_down hrun' hx hn (by rw [hport]; exact hup) hm
        exact ⟨_, hexec.trans (congrArg Host.Outcome.next (beginFlush_commits x hports)), hcommit, hkept, hrec⟩
      · obtain ⟨todo, left, hcores, hflush, hsum⟩ := beginFlush_flushes hrun hx hports
        exact ⟨_, todo, left, hexec, hcores, hflush, hsum⟩
      · exact ⟨_, hexec, beginFlush_one hrun hx hports hi⟩
    · intro img args tab hf hrt hpol himg hsec hargs hm hl
      have hexec : exec (.tokenTaken ⟨p, code⟩) s = .next ((s.withRun p (r.taking k rest s.now)).startTwin p (r.taking k rest s.now) x
          img code) := by
        rw [exec_tokenTaken, execTokenTaken_eq code hr hp ha, if_pos hlen]
        exact congrArg Host.Outcome.next
          (collectEnd_served (s := s.withRun p (r.taking k rest s.now)) code hx hf hrt hpol himg hsec)
      have hpart := part_withRun s p (r.taking k rest s.now)
      obtain ⟨hrun, htwin, hcores⟩ := startTwin_spec (s := s) (u := s.withRun p (r.taking k rest s.now)) (r := r.taking k rest s.now)
        rfl rfl rfl (by rw [hpart]) rfl hm hrt ((stepArgs_withRun s p _ x).trans hargs) hl
      exact ⟨_, _, hexec, hrun, rfl, rfl, rfl, rfl, rfl, htwin.trans (by rw [hpart]), hcores⟩
  · intro cause hp hw
    obtain ⟨t, e, hfreed, hkilled, hfailed⟩ := runDrained_kill hr hx hn hp hw
    exact ⟨t, (exec_runDrained p s).trans e, hfreed.run, hfreed.idle, hfreed.parts, hkilled, hfailed⟩
  · intro status detail hp hw ha
    obtain ⟨t, e, hexec, h⟩ := runDrained_fault hr hx hn hp hw ha
    exact ⟨t, e, (exec_runDrained p s).trans hexec, h⟩
  · intro w hp hw
    exact (exec_runDrained p s).trans (execRunDrained_open hr hp hw)
  · intro q y hy ha
    refine ⟨_, (exec_ageLimitElapsed q s).trans (execAgeLimitElapsed_eq hy ha), steps_preempt _ _, fun hnone => ?_⟩
    rw [preempt_of_none (s := s.modStep y.aseq (fun z => { z with aged := z.aged + 1 })) hnone]
    exact ⟨rfl, rfl⟩

end Sys2Proof.Machine

/-!
PROOFS. READ, LOADW and IMPORT at their issue (R91, R111, R114, R164, R175, R188): `read_load_import_enter`.
-/
namespace Sys2Proof.Machine
open Sys2Proof.Safety

/-! ### The first bundle of a run -/

/-- A partition whose run, where it has one, has issued a bundle. -/
def Partition.issuedFirst (y : Partition) : Partition := { y with run := y.run.map (fun r => { r with firstIssue := true }) }

/-- A change of a partition matters by what it makes of that partition as it stands. -/
theorem modPart_congr {s : State} {p : PartId} {f g : Partition → Partition} (h : f (s.part p) = g (s.part p)) :
    s.modPart p f = s.modPart p g := by
  unfold State.modPart upd
  rw [show f s.parts[p.val] = g s.parts[p.val] from h]

/-- The first bundle of a run sets the run's issue mark, and of an RT step the start figure (R280). -/
theorem firstBundle_marks (s : State) (p : PartId) (x : StepRec) :
    ∃ rt, s.firstBundle p x = { s.modPart p Partition.issuedFirst with rt := rt } := by
  unfold State.firstBundle
  split
  · next hr =>
    have hsame : (s.part p).issuedFirst = s.part p := by rw [Partition.issuedFirst, hr, Option.map_none, ← hr]
    exact ⟨s.rt, by rw [modPart_same hsame]⟩
  · next r hr =>
    split
    · next hissued =>
      have hmark : { r with firstIssue := true } = r := by rw [← hissued]
      have hsame : (s.part p).issuedFirst = s.part p := by rw [Partition.issuedFirst, hr, Option.map_some, hmark, ← hr]
      exact ⟨s.rt, by rw [modPart_same hsame]⟩
    · have hmarked : s.modPart p (fun y => { y with run := some { r with firstIssue := true } }) =
          s.modPart p Partition.issuedFirst := modPart_congr (by rw [Partition.issuedFirst, hr, Option.map_some])
      rw [hmarked]
      split
      · exact ⟨_, rfl⟩
      · exact ⟨s.rt, rfl⟩

/-! ### What a bundle's slots find -/

theorem begun_marks (s : State) (c : CoreId) (p : PartId) (x : StepRec) :
    ∃ rt, s.begun c p x = { (s.modCore c Core.begun).modPart p Partition.issuedFirst with rt := rt } := firstBundle_marks _ p x

@[simp] theorem maskArrays_begun (s : State) (c d : CoreId) (p : PartId) (x : StepRec) (m : BitVec 4) :
    (s.begun c p x).maskArrays d m = s.maskArrays d m := by
  obtain ⟨rt, h⟩ := begun_marks s c p x
  rw [h]
  rfl

@[simp] theorem members_begun (s : State) (c d : CoreId) (p : PartId) (x : StepRec) : (s.begun c p x).members d = s.members d := by
  obtain ⟨rt, h⟩ := begun_marks s c p x
  rw [h]
  rfl

@[simp] theorem dw_begun (s : State) (c : CoreId) (p q : PartId) (x : StepRec) : ((s.begun c p x).part q).dw = (s.part q).dw := by
  obtain ⟨rt, h⟩ := begun_marks s c p x
  rw [h]
  change (((s.modCore c Core.begun).modPart p Partition.issuedFirst).part q).dw = (s.part q).dw
  by_cases hq : q = p
  · rw [hq, part_modPart]
    rfl
  · rw [part_modPart_ne _ p q _ hq, part_modCore]

@[simp] theorem deepLocal_begun (s : State) (c : CoreId) (p q : PartId) (x : StepRec) (da n : Nat) :
    (s.begun c p x).deepLocal q da n = s.deepLocal q da n := by
  simp only [State.deepLocal, State.deepPlace, dw_begun]

/-- The step of a core whose first bundle issues is the step it was. -/
theorem stepOf_begun {s : State} {c : CoreId} {p : PartId} {r : RunSt} {x : StepRec} (h : s.stepOf c = some (p, r, x)) :
    (s.begun c p x).stepOf c = some (p, { r with firstIssue := true }, x) := by
  obtain ⟨hp, hr, hx⟩ := of_stepOf h
  obtain ⟨rt, hb⟩ := begun_marks s c p x
  have hrun : ((s.begun c p x).part p).run = some { r with firstIssue := true } := by
    rw [hb]
    change (((s.modCore c Core.begun).modPart p Partition.issuedFirst).part p).run = _
    rw [part_modPart, part_modCore, Partition.issuedFirst, hr, Option.map_some]
  have hstep : (s.begun c p x).step? r.aseq = some x := by rw [hb]; exact hx
  simp only [State.stepOf, runOf_begun, hp, hrun, hstep]

theorem tablesOf_begun {s : State} {c : CoreId} {p : PartId} {r : RunSt} {x : StepRec} (h : s.stepOf c = some (p, r, x)) :
    (s.begun c p x).tablesOf c = s.tablesOf c := by
  simp only [State.tablesOf, stepOf_begun h, h]

/-! ### Near scratch at issue -/

/-- Accesses are legal where each lies in the window (R164). -/
theorem spans_isSome_iff {w : NsWin} {xs : List Span} : (w.spans xs).isSome = true ↔ ∀ y ∈ xs, y.1 + y.2 ≤ w.nsl * 1024 := by
  simp only [NsWin.spans, Option.isSome_ite, NsWin.ok, List.all_eq_true, decide_eq_true_eq]

/-- Two lists of legal accesses are legal together (R164). -/
theorem spans_append_isSome {w : NsWin} {xs ys : List Span} (hx : (w.spans xs).isSome = true) (hy : (w.spans ys).isSome = true) :
    (w.spans (xs ++ ys)).isSome = true :=
  spans_isSome_iff.mpr (List.forall_mem_append.mpr ⟨spans_isSome_iff.mp hx, spans_isSome_iff.mp hy⟩)

/-- An operation whose accesses are legal goes on (R164). -/
theorem checked_legal {s : State} {c : CoreId} {w : NsWin} {xs : List Span} (h : (w.spans xs).isSome = true) (t : State) :
    s.checked c w xs (fun _ => t) = t := by
  obtain ⟨ys, hys⟩ := Option.isSome_iff_exists.mp h
  rw [State.checked, hys]

/-- Reads that meet no error mark correct nothing and end no step (R179). -/
theorem withNear_unmarked {s : State} {c : CoreId} {xs : List Span} (h : Unmarked s c xs) (f : State → State) :
    s.withNear c xs f = f s := by
  have hseen : s.seenBy c (fun k => xs.findSome? (fun sp => k.nearPoisonIn sp)) = [] :=
    List.filterMap_eq_nil_iff.mpr fun d hd => Option.map_eq_none_iff.mpr (List.findSome?_eq_none_iff.mpr (h d hd).1)
  have hfix : s.fixNear c xs = s := foldl_same fun d hd => by rw [(h d hd).2]
  rw [State.withNear, State.withOwn, hseen, hfix]

/-- Near scratch meets the marks that it met before the bundle. -/
theorem unmarked_begun {s : State} {c : CoreId} {xs : List Span} (h : Unmarked s c xs) (p : PartId) (x : StepRec) :
    Unmarked (s.begun c p x) c xs := by
  intro d hd
  rw [members_begun] at hd
  have hmarks := h d hd
  unfold State.member at hmarks ⊢
  rw [core_begun]
  by_cases hdc : d = c
  · rw [if_pos hdc] at hmarks ⊢
    exact hmarks
  · rw [if_neg hdc] at hmarks ⊢
    rw [(othersSame_begun s c p x).cores d hdc]
    exact hmarks

/-! ### Acceptance of a bundle of one slot, and room in the queues -/

/-- A slot that writes no register is, alone in its bundle, rejected by its own checks or not at all (R184, Table 9-7). -/
theorem bundleBad_single (k : Core) (flags arrays : Nat) {o : SlotOp} (hs : slotWritesS o = []) (hv : slotWritesV o = []) :
    bundleBad k flags arrays [o] = slotBad k flags arrays [o] o := by
  simp only [bundleBad, List.flatMap_singleton, hs, hv, List.any_cons, List.any_nil, Bool.or_false]
  rfl

/-- In a core with nothing in flight only its slot itself could hold a bundle of one slot (R189). -/
theorem bundleHeld_calm {k : Core} (h : Calm k) (events : List Word) {o : SlotOp} (hslot : slotHeld (k.holding [o]) events o = false) :
    bundleHeld (k.holding [o]) events [o] = false := by
  obtain ⟨hs, hv⟩ := pending_calm h [o]
  have htimed : (k.holding [o]).timed = false := h.timed
  simp [bundleHeld, hs, hv, htimed, hslot]

/-- A READ finds room where no read-out waits. -/
theorem slotHeld_readOut {k : Core} (h : k.readQ = []) (events : List Word) (mt : Fin 8) (am : BitVec 4) (f n : SReg) :
    slotHeld k events (.mxa (.readOut mt am f n)) = false := by
  change decide (2 ≤ (k.readQ.filter _).length) = false
  rw [h]
  rfl

/-- Address generator B has room where no load and no stream waits. -/
theorem slotHeld_agb {k : Core} (hloads : k.agbQ = []) (hmvps : k.mvQ = []) (events : List Word) (o : AgbOp) :
    slotHeld k events (.agb o) = false := by
  have hload : k.loadsUnstarted = 0 := by rw [Core.loadsUnstarted, hloads]; rfl
  have hstream : k.streamsUnstarted = 0 := by rw [Core.streamsUnstarted, Core.passesHeld, hmvps]; rfl
  change decide (2 ≤ k.loadsUnstarted + k.streamsUnstarted) = false
  rw [hload, hstream]
  rfl

/-! ### READ -/

/-- The queue of a core with one more READ. -/
def Core.queueRead (f : ReadFlight) (k : Core) : Core := { k with readQ := k.readQ ++ [f] }

/-- A READ of a template without a read-out does nothing (R111). -/
theorem issueRead_none {s : State} {c : CoreId} {k0 : Core} {mt : Fin 8} (h : mtRead (k0.mt mt) = 0) (am : BitVec 4) (f n : SReg) :
    s.issueRead c k0 mt am f n = s := by
  rw [State.issueRead, if_pos h]

/-- A READ whose records and whose writes lie in the window enters its queue (R111, R164). -/
theorem issueRead_legal {s : State} {c : CoreId} {k0 : Core} {mt : Fin 8} {am : BitVec 4} {f n : SReg} (hread : mtRead (k0.mt mt) ≠ 0)
    (hrecs : (k0.win.spans (readRecs k0 (k0.mt mt) (s.maskArrays c am))).isSome = true)
    (hclean : Unmarked s c ((readRecs k0 (k0.mt mt) (s.maskArrays c am)).map (fun y => (k0.win.phys y.1, y.2))))
    (hplan : (k0.win.spans (planSpans (planOf k0 (k0.mt mt) (s.maskArrays c am)) (s.maskArrays c am) (k0.s32 n))).isSome = true) :
    s.issueRead c k0 mt am f n = s.modCore c (Core.queueRead (readOf k0 (k0.mt mt) (s.maskArrays c am) f n)) := by
  rw [State.issueRead, if_neg hread, checked_legal (spans_append_isSome hrecs hplan), withNear_unmarked hclean]
  rfl

/-- A change that is none. -/
theorem modCore_id (s : State) (c : CoreId) : s.modCore c id = s := by
  unfold State.modCore upd
  rw [id, Vector.set_getElem_self]

/-- A READ with legal operands and addresses, alone in its bundle, enters its queue where its template has a read-out (R111). -/
theorem read_enters {s : State} {c : CoreId} {p : PartId} {r : RunSt} {x : StepRec} (h : Straight s c p r x) (mt : Fin 8) (am : BitVec 4)
    (f n : SReg) (hbad : bundleBad (s.core c) (imageLimits x).1 (imageLimits x).2 [.mxa (.readOut mt am f n)] = false)
    (hop : operandsOk ((s.core c).holding [.mxa (.readOut mt am f n)]) (.mxa (.readOut mt am f n)) = true)
    (hrecs : SpansOk s c (readRecs (s.core c) ((s.core c).mt mt) (s.maskArrays c am)))
    (hplan : ((s.core c).win.spans (planSpans (planOf (s.core c) ((s.core c).mt mt) (s.maskArrays c am)) (s.maskArrays c am)
      ((s.core c).s32 n))).isSome = true) :
    ∃ t, s.issueSlot c true (.mxa (.readOut mt am f n)) = .next t ∧ OthersSame s t c ∧
      t.core c = if mtRead ((s.core c).mt mt) = 0 then moved (s.core c)
        else { moved (s.core c) with readQ := [readOf (s.core c) ((s.core c).mt mt) (s.maskArrays c am) f n] } := by
  have hcalm := h.ready.calm
  have hheld := bundleHeld_calm hcalm (s.part p).events.toList
    (slotHeld_readOut (k := (s.core c).holding [.mxa (.readOut mt am f n)]) hcalm.reads _ mt am f n)
  by_cases hread : mtRead ((s.core c).mt mt) = 0
  · obtain ⟨t, ht, hothers, hcore⟩ := issueSlot_single (g := id) h (by simp [SlotOp.slot]) hbad hheld hop
      ((issueRead_none hread am f n).trans (modCore_id _ c).symm) ⟨rfl, rfl, rfl, rfl, rfl⟩
    refine ⟨t, ht, hothers, ?_⟩
    rw [hcore, if_pos hread]
    simp only [Core.passed, Core.begun, moved, id, hcalm.staged, hcalm.fetched]
  · obtain ⟨hin, hmarks⟩ := hrecs
    have hinside := spans_isSome_iff.mpr hin
    have hclean := unmarked_begun hmarks p x
    rw [← maskArrays_begun s c c p x] at hinside hclean hplan
    obtain ⟨t, ht, hothers, hcore⟩ := issueSlot_single h (by simp [SlotOp.slot]) hbad hheld hop
      (issueRead_legal hread hinside hclean hplan) ⟨rfl, rfl, rfl, rfl, rfl⟩
    refine ⟨t, ht, hothers, ?_⟩
    rw [hcore, if_neg hread, maskArrays_begun]
    simp only [Core.passed, Core.queueRead, Core.begun, moved, hcalm.reads, List.nil_append, hcalm.staged, hcalm.fetched]
    rfl

/-! ### LOADW and IMPORT -/

/-- The queue of address generator B with one more load. -/
def Core.queueLoad (f : LoadFlight) (k : Core) : Core := { k with agbQ := k.agbQ ++ [f] }

/-- A load whose addresses are legal enters the queue of address generator B (R164, R175, R178). -/
theorem issueLoad_legal {s : State} {c : CoreId} {k0 : Core} {imp : Bool} {am : BitVec 4} {bd : Fin 8} {a : AReg} {nr first count : Nat}
    {xs : List Span} (hspans : k0.win.spans (loadNear k0 (loadOf s c k0 imp am bd a nr first count)) = some xs)
    (hdeep : s.loadDeepOk c k0 (loadOf s c k0 imp am bd a nr first count) = true) :
    s.issueLoad c k0 imp am bd a nr first count =
      s.modCore c (Core.queueLoad ((loadOf s c k0 imp am bd a nr first count).armed k0 xs)) := by
  rw [State.issueLoad, State.checked, hspans]
  exact if_pos hdeep

/-- A load reads at issue what it read before its bundle began. -/
theorem loadOf_begun {s : State} {c : CoreId} {p : PartId} {r : RunSt} {x : StepRec} (h : s.stepOf c = some (p, r, x))
    (ops : List SlotOp) (imp : Bool) (am : BitVec 4) (bd : Fin 8) (a : AReg) (nr first count : Nat) :
    loadOf (s.begun c p x) c ((s.core c).holding ops) imp am bd a nr first count =
      loadOf s c (s.core c) imp am bd a nr first count := by
  simp only [loadOf, maskArrays_begun, State.codebook, tablesOf_begun h]
  rfl

theorem loadDeepOk_begun (s : State) (c : CoreId) (p : PartId) (x : StepRec) (ops : List SlotOp) (f : LoadFlight) :
    (s.begun c p x).loadDeepOk c ((s.core c).holding ops) f = s.loadDeepOk c (s.core c) f := by
  simp only [State.loadDeepOk, runOf_begun, deepLocal_begun]
  rfl

/-- A load of address generator B with legal operands and addresses, alone in its bundle, enters the queue. -/
theorem agb_enters {s : State} {c : CoreId} {p : PartId} {r : RunSt} {x : StepRec} {o : AgbOp} {imp : Bool} {am : BitVec 4} {bd : Fin 8}
    {a : AReg} {nr first count : Nat} {xs : List Span} (h : Straight s c p r x)
    (hbad : bundleBad (s.core c) (imageLimits x).1 (imageLimits x).2 [.agb o] = false)
    (hop : operandsOk ((s.core c).holding [.agb o]) (.agb o) = true)
    (hact : ∀ t : State, t.actSlot c ((s.core c).holding [.agb o]) [.agb o] (.agb o) =
      t.issueLoad c ((s.core c).holding [.agb o]) imp am bd a nr first count)
    (hspans : (s.core c).win.spans (loadNear (s.core c) (loadOf s c (s.core c) imp am bd a nr first count)) = some xs)
    (hdeep : s.loadDeepOk c (s.core c) (loadOf s c (s.core c) imp am bd a nr first count) = true) :
    ∃ t, s.issueSlot c true (.agb o) = .next t ∧ OthersSame s t c ∧
      t.core c = { moved (s.core c) with agbQ := [(loadOf s c (s.core c) imp am bd a nr first count).armed (s.core c) xs] } := by
  have hcalm := h.ready.calm
  have hload := loadOf_begun h.ready.step [.agb o] imp am bd a nr first count
  have henters : (s.begun c p x).actSlot c ((s.core c).holding [.agb o]) [.agb o] (.agb o) = (s.begun c p x).modCore c
      (Core.queueLoad ((loadOf s c (s.core c) imp am bd a nr first count).armed (s.core c) xs)) := by
    rw [hact, issueLoad_legal (xs := xs) (by rw [hload]; exact hspans) (by rw [hload, loadDeepOk_begun]; exact hdeep), hload]
    rfl
  have hheld := bundleHeld_calm hcalm (s.part p).events.toList
    (slotHeld_agb (k := (s.core c).holding [.agb o]) hcalm.loads hcalm.mvps _ o)
  obtain ⟨t, ht, hothers, hcore⟩ := issueSlot_single h (by simp [SlotOp.slot]) hbad hheld hop henters ⟨rfl, rfl, rfl, rfl, rfl⟩
  refine ⟨t, ht, hothers, ?_⟩
  rw [hcore]
  simp only [Core.passed, Core.queueLoad, Core.begun, moved, hcalm.loads, List.nil_append, hcalm.staged, hcalm.fetched]

/-! ### The obligation -/

/-- Settles O19: a READ enters its queue (`read_enters`), a LOADW and an IMPORT that of address generator B (`agb_enters`). -/
theorem readLoadImportEnter : Obligations.read_load_import_enter := by
  unfold Obligations.read_load_import_enter
  intro s c p r x h mt bd am f n a nr1 hmask
  have hall : (!maskOk (imageLimits x).2 am) = false := by rw [hmask]; rfl
  refine ⟨fun hrows hcount hrecs hplan => ?_, fun xs hspans hdeep => ?_, fun xs hrows hspans hdeep => ?_⟩
  · have hone : (decide (mtRead ((s.core c).mt mt) = 4) && decide (maskCount am ≠ 1)) = false := by simpa using hcount
    have haccepted : slotBad (s.core c) (imageLimits x).1 (imageLimits x).2 [.mxa (.readOut mt am f n)] (.mxa (.readOut mt am f n)) =
        false := Bool.or_eq_false_iff.mpr ⟨hall, hone⟩
    rw [exec_readOut]
    exact read_enters h mt am f n ((bundleBad_single _ _ _ rfl rfl).trans haccepted) (decide_eq_true hrows) hrecs hplan
  · rw [exec_loadw]
    exact agb_enters h ((bundleBad_single _ _ _ rfl rfl).trans hall) rfl (fun _ => rfl) hspans hdeep
  · rw [exec_importTile]
    exact agb_enters h ((bundleBad_single _ _ _ rfl rfl).trans hall) (decide_eq_true hrows) (fun _ => rfl) hspans hdeep

end Sys2Proof.Machine

/-!
PROOFS. Integer, mixed, one-operand, table and search operations of the vector unit (R133 to R138, R142, Table 5-5):
`vector_integer_operations`, `vector_mixed_operations`, `vector_unary_operations`, `vector_table_and_search_operations`.
-/
namespace Sys2Proof.Machine
open Sys2Proof.Safety

/-! ### Flags of lanes -/

/-- The union over a list of one flag, raised where a test holds, is that flag where the test holds of some member. -/
theorem orFlags_map_flagIf {α : Type} (p : α → Bool) (f : Flags) (xs : List α) :
    orFlags (xs.map (fun x => flagIf (p x) f)) = flagIf (xs.any p) f := by
  have key : ∀ b : Bool, (xs.map (fun x => flagIf (p x) f)).foldl (· ||| ·) (flagIf b f) = flagIf (b || xs.any p) f := by
    induction xs with
    | nil => simp
    | cons x xs ih =>
      intro b
      have hor : flagIf b f ||| flagIf (p x) f = flagIf (b || p x) f := by cases b <;> cases p x <;> simp [flagIf]
      rw [List.map_cons, List.foldl_cons, hor, ih, List.any_cons, Bool.or_assoc]
  exact key false

/-! ### Integers and bits -/

/-- The unit's name of an integer or bit operation. -/
def intBin (f : IntOp) : VBin :=
  match f with
  | .iadd => .iadd
  | .isub => .isub
  | .imul => .imul
  | .imin => .imin
  | .imax => .imax
  | .icmplt => .icmplt
  | .icmpeq => .icmpeq
  | .and => .and
  | .or => .or
  | .xor => .xor

theorem exec_intCmd (f : IntOp) (c : CoreId) (d a b : VReg) (s : State) :
    exec (intCmd f c d a b) s = s.issueSlot c true (.vec (.bin (intBin f) d a b)) := by
  cases f with
  | iadd => exact exec_iadd c true d a b s
  | isub => exact exec_isub c true d a b s
  | imul => exact exec_imul c true d a b s
  | imin => exact exec_imin c true d a b s
  | imax => exact exec_imax c true d a b s
  | icmplt => exact exec_icmplt c true d a b s
  | icmpeq => exact exec_icmpeq c true d a b s
  | and => exact exec_vecAnd c true d a b s
  | or => exact exec_vecOr c true d a b s
  | xor => exact exec_vecXor c true d a b s

/-- Whether one lane of an integer operation saturates. -/
def laneSaturates (f : IntOp) (a b : Word) : Bool :=
  match intExact f a b with
  | some z => decide (clamp32 z ≠ z)
  | none => false

/-- The saturating INT32 of an exact integer is the nearest one, and SAT says that it is another (Table 5-5). -/
theorem satI32_eq (z : Int) : satI32 z = (BitVec.ofInt 32 (clamp32 z), flagIf (decide (clamp32 z ≠ z)) fSAT) := by
  have hclamp : clampInt minI32 maxI32 z = (clamp32 z, decide (clamp32 z ≠ z)) := by
    unfold clampInt clamp32 minI32 maxI32
    split
    · exact Prod.ext (by simp only; omega) (by simp only [ne_eq, true_eq_decide_iff]; omega)
    · split
      · exact Prod.ext (by simp only; omega) (by simp only [ne_eq, true_eq_decide_iff]; omega)
      · exact Prod.ext (by simp only; omega) (by simp only [ne_eq, false_eq_decide_iff]; omega)
  rw [satI32, hclamp]

/-- Of two words whose values compare either way, the smaller may be named by either comparison. -/
theorem min_word (a b : Word) : (if b.toInt < a.toInt then b else a) = if a.toInt ≤ b.toInt then a else b := by
  by_cases h : a.toInt ≤ b.toInt
  · rw [if_pos h, if_neg (by omega)]
  · rw [if_neg h, if_pos (by omega)]

theorem max_word (a b : Word) : (if a.toInt < b.toInt then b else a) = if a.toInt ≤ b.toInt then b else a := by
  rcases Int.lt_trichotomy a.toInt b.toInt with h | h | h
  · rw [if_pos h, if_pos (by omega)]
  · rw [BitVec.eq_of_toInt_eq h, ite_self, ite_self]
  · rw [if_neg (by omega), if_neg (by omega)]

/-- One lane of an integer or bit operation, with SAT where it saturates (Table 5-5). -/
theorem laneBin_intBin (f : IntOp) (a b : Word) : laneBin (intBin f) a b = (intLane f a b, flagIf (laneSaturates f a b) fSAT) := by
  cases f with
  | iadd | isub | imul => exact satI32_eq _
  | imin => exact Prod.ext (min_word a b) rfl
  | imax => exact Prod.ext (max_word a b) rfl
  | icmplt => exact Prod.ext (by simp [laneBin, intBin, intLane, maskW]) rfl
  | icmpeq => exact Prod.ext (by simp [laneBin, intBin, intLane, maskW]) rfl
  | and | or | xor => rfl

/-- SAT of the whole operation: some lane saturates. -/
theorem orFlags_intBin (f : IntOp) (x y : Lanes) :
    (lanesOf (laneBin (intBin f)) x y).2 = if intSaturates f x y then fSAT else 0 := by
  have hlane : ∀ i : Fin 64, (laneBin (intBin f) x[i.val] y[i.val]).2 = flagIf (laneSaturates f x[i.val] y[i.val]) fSAT :=
    fun i => by rw [laneBin_intBin]
  simp only [lanesOf, hlane]
  exact orFlags_map_flagIf (fun i : Fin 64 => laneSaturates f x[i.val] y[i.val]) fSAT (List.finRange 64)

/-- Settles O6: the command is a lane operation on two registers, each lane that of Table 5-5 with its saturation. -/
theorem vectorIntegerOperations : Obligations.vector_integer_operations := by
  intro s c p r x h f d a b
  have hlanes : (lanesOf (laneBin (intBin f)) (s.core c).v[a.val] (s.core c).v[b.val]).1 =
      Vector.ofFn (fun i : Fin 64 => intLane f ((s.core c).v[a.val])[i.val] ((s.core c).v[b.val])[i.val]) := by
    simp only [lanesOf, laneBin_intBin]
  rw [exec_intCmd, ← hlanes, ← orFlags_intBin]
  exact vecIssued_bin h (intBin f) d a b

/-! ### Vectors of lanes with flags -/

/-- The words and the flags of lanes formed together. -/
theorem ofFn_lanes (g : Fin 64 → Word × Flags) :
    (Vector.ofFn g).map (·.1) = Vector.ofFn (fun i => (g i).1) ∧
    (Vector.ofFn g).toList.map (·.2) = (List.finRange 64).map (fun i => (g i).2) :=
  ⟨Vector.ext fun i hi => by simp, List.ext_getElem (by simp) fun i hi _ => by simp⟩

/-- The lanes of an operation on one register and the union of their flags. -/
theorem lanes1_eq_lanesOf1 (f : Word → Word × Flags) (x : Lanes) : lanes1 f x = lanesOf1 f x := by
  obtain ⟨hlanes, hflags⟩ := ofFn_lanes (fun i : Fin 64 => f x[i.val])
  have hmap : x.map f = Vector.ofFn (fun i : Fin 64 => f x[i.val]) := Vector.ext fun i hi => by simp
  simp only [lanes1, lanesOf1, hmap, hlanes, hflags]

/-! ### FMAD, SEL, shifts, VBCS -/

/-- FMAD adds the rounded product: its lanes and its flags (Table 5-5). -/
theorem vecCompute_fmad (t : Tables) (k : Core) (d a b e : VReg) : vecCompute t k (.fmad d a b e) =
    some ([(d, Vector.ofFn (fun i : Fin 64 => (fmadLane (k.v[a.val])[i.val] (k.v[b.val])[i.val] (k.v[e.val])[i.val]).1))],
      orFlags ((List.finRange 64).map (fun i => (fmadLane (k.v[a.val])[i.val] (k.v[b.val])[i.val] (k.v[e.val])[i.val]).2))) := by
  obtain ⟨hlanes, hflags⟩ := ofFn_lanes (fun i : Fin 64 => fmadLane (k.v[a.val])[i.val] (k.v[b.val])[i.val] (k.v[e.val])[i.val])
  simp only [vecCompute, hlanes, hflags]

/-- A shift to the left multiplies by a power of two. -/
theorem shiftLeft_word (w : Word) (n : Nat) : w <<< n = BitVec.ofNat 32 (w.toNat * 2 ^ n) :=
  BitVec.eq_of_toNat_eq (by rw [BitVec.toNat_shiftLeft, BitVec.toNat_ofNat, Nat.shiftLeft_eq])

/-- An arithmetic shift to the right divides by a power of two, rounding down. -/
theorem sshiftRight_word (w : Word) (n : Nat) : w.sshiftRight n = BitVec.ofInt 32 (w.toInt / 2 ^ n) := by
  have hdiv : w.toInt / 2 ^ n = (w.sshiftRight n).toInt := by
    rw [BitVec.toInt_sshiftRight, Int.shiftRight_eq_div_pow]
    norm_cast
  rw [hdiv, BitVec.ofInt_toInt]

/-- Settles O8: each command forms its lanes from registers alone and enters the pipeline (`vecIssued_of_compute`). -/
theorem vectorMixedOperations : Obligations.vector_mixed_operations := by
  intro s c p r x h d a b e sh q va vb ve
  refine ⟨?_, ?_, ?_, ?_, ?_⟩
  · rw [exec_fmad]
    exact vecIssued_of_compute h rfl rfl rfl (vecCompute_fmad _ _ d a b e)
  · rw [exec_sel]
    exact vecIssued_of_compute h rfl rfl rfl rfl
  · have hlanes : va.map (fun (w : Word) => w <<< sh.val) =
        Vector.ofFn (fun i : Fin 64 => BitVec.ofNat 32 (va[i.val].toNat * 2 ^ sh.val)) :=
      Vector.ext fun i hi => by simp only [Vector.getElem_map, Vector.getElem_ofFn, shiftLeft_word]
    rw [exec_vecShl, ← hlanes]
    exact vecIssued_of_compute h rfl rfl rfl rfl
  · have hlanes : va.map (fun w => w.sshiftRight sh.val) =
        Vector.ofFn (fun i : Fin 64 => BitVec.ofInt 32 (va[i.val].toInt / 2 ^ sh.val)) :=
      Vector.ext fun i hi => by simp only [Vector.getElem_map, Vector.getElem_ofFn, sshiftRight_word]
    rw [exec_vecSra, ← hlanes]
    exact vecIssued_of_compute h rfl rfl rfl rfl
  · rw [exec_vbcs, BitVec.ofNat_toNat]
    exact vecIssued_of_compute h rfl rfl rfl rfl

/-! ### One operand and reductions -/

theorem exec_unaryCmd (f : VUn) (c : CoreId) (d a : VReg) (s : State) :
    exec (unaryCmd f c d a) s = s.issueSlot c true (.vec (.un f d a)) := by
  cases f with
  | fabs => exact exec_fabs c true d a s
  | fneg => exact exec_fneg c true d a s
  | cvtif => exact exec_cvtif c true d a s
  | cvtfi => exact exec_cvtfi c true d a s
  | fcexp => exact exec_fcexp c true d a s
  | frsum => exact exec_frsum c true d a s
  | frmax => exact exec_frmax c true d a s
  | irsum => exact exec_irsum c true d a s

/-- Results of the one-operand operations: FABS to FCEXP lane by lane, the reductions in lane 0 (R136, Table 5-5). -/
theorem vecUn_eq_unaryResult (f : VUn) (x : Lanes) : vecUn f x = unaryResult f x := by
  cases f with
  | fabs | fneg | cvtif | cvtfi | fcexp => exact lanes1_eq_lanesOf1 _ x
  | frsum | frmax => rfl
  | irsum =>
    simp only [vecUn, unaryResult, satI32_eq]
    refine Prod.ext rfl ?_
    simp [flagIf]

/-- Settles O9: the unit forms the result of Table 5-5 and it enters the pipeline. -/
theorem vectorUnaryOperations : Obligations.vector_unary_operations := by
  intro s c p r x h f d a
  rw [exec_unaryCmd, ← vecUn_eq_unaryResult]
  exact vecIssued_of_compute h rfl rfl rfl rfl

/-! ### FRND, CURVE, VEXT, ARGMAX, TOPK -/

/-- The formats that a vector slot may name are those that the verifier accepts (R135, Table 2-1). -/
theorem vecFmtOk_eq_formatNamed (f : BitVec 4) : vecFmtOk f = formatNamed f := by
  revert f
  decide

/-- The tables of the step that a core runs (R26). -/
theorem tablesOf_of_stepOf {s : State} {c : CoreId} {p : PartId} {r : RunSt} {x : StepRec} (h : s.stepOf c = some (p, r, x)) :
    s.tablesOf c = x.tables := by
  rw [State.tablesOf, h]

/-- A slot that writes no scalar register, and no vector register twice, is, alone in its bundle, rejected by its own checks or not at
all (R184, Table 9-7). -/
theorem bundleBad_writesV (k : Core) (flags arrays : Nat) {o : SlotOp} (hs : slotWritesS o = []) (hv : dupes (slotWritesV o) = false) :
    bundleBad k flags arrays [o] = slotBad k flags arrays [o] o := by
  simp only [bundleBad, List.flatMap_singleton, hs, hv, List.any_cons, List.any_nil, Bool.or_false]
  rfl

/-- VEXT, alone in its bundle: the lane, sign-extended, waits for its scalar register (R135). -/
theorem vext_enters {s : State} {c : CoreId} {p : PartId} {r : RunSt} {x : StepRec} (h : Straight s c p r x) (e : SReg) (a : VReg)
    (lane : Fin 64) : ∃ t, s.issueSlot c true (.vec (.vext e a lane)) = .next t ∧ OthersSame s t c ∧
      t.core c = { moved (s.core c) with vecQ :=
        [{ seq := (s.core c).seq, eff := .scalar e (BitVec.ofInt 64 (((s.core c).v[a.val])[lane.val]).toInt) }] } := by
  have hcalm := h.ready.calm
  have hbad : bundleBad (s.core c) (imageLimits x).1 (imageLimits x).2 [.vec (.vext e a lane)] = false := by
    have hone : dupes ([e].filter (fun d => decide (d.val ≠ 0))) = false := by
      rw [List.filter_singleton]
      cases decide (e.val ≠ 0) <;> rfl
    simp only [bundleBad, List.flatMap_singleton, slotWritesS, hone]
    rfl
  obtain ⟨t, ht, hothers, hcore⟩ := issueSlot_single (g := fun k => { k with vecQ := k.vecQ ++
      [{ seq := (s.core c).seq, eff := .scalar e ((((s.core c).v[a.val])[lane.val]).signExtend 64) }] }) h (by simp [SlotOp.slot]) hbad
    (bundleHeld_vec hcalm _ rfl) rfl rfl ⟨rfl, rfl, rfl, rfl, rfl⟩
  refine ⟨t, ht, hothers, ?_⟩
  rw [hcore]
  simp only [Core.passed, Core.begun, moved, hcalm.vecs, List.nil_append, hcalm.staged, hcalm.fetched]
  rfl

/-- Settles O10: FRND, CURVE, ARGMAX and TOPK form register results (`vecIssued_of_compute`), VEXT a scalar (`vext_enters`). -/
theorem vectorTableAndSearchOperations : Obligations.vector_table_and_search_operations := by
  intro s c p r x h d a f n e lane sN sB hi idx dir int k va vd first size base
  refine ⟨fun hf => ?_, ?_, ?_, fun hN => ?_, fun hN => ?_⟩
  · have hok : slotBad (s.core c) (imageLimits x).1 (imageLimits x).2 [.vec (.frnd d a f)] (.vec (.frnd d a f)) = false := by
      rw [← vecFmtOk_eq_formatNamed] at hf
      exact congrArg not hf
    rw [exec_frnd, ← lanes1_eq_lanesOf1]
    exact vecIssued_of_compute h rfl ((bundleBad_writesV _ _ _ rfl rfl).trans hok) rfl rfl
  · have htables : (s.begun c p x).tablesOf c = x.tables := (tablesOf_begun h.ready.step).trans (tablesOf_of_stepOf h.ready.step)
    rw [exec_curve, ← lanes1_eq_lanesOf1, ← htables]
    exact vecIssued_of_compute h rfl rfl rfl rfl
  · rw [exec_vext]
    exact vext_enters h e a lane
  · obtain ⟨hlow, hhigh⟩ := hN
    rw [exec_argmax]
    exact vecIssued_of_compute h rfl rfl (Bool.and_eq_true_iff.mpr ⟨decide_eq_true hlow, decide_eq_true hhigh⟩)
      (by simp only [base, BitVec.ofNat_toNat]; rfl)
  · obtain ⟨hlow, hhigh, heven⟩ := hN
    have hok : slotBad (s.core c) (imageLimits x).1 (imageLimits x).2 [.vec (.topk d a sN sB hi idx dir int)]
        (.vec (.topk d a sN sB hi idx dir int)) = false := decide_eq_false (by omega)
    have htwo : dupes (slotWritesV (.vec (.topk d a sN sB hi idx dir int))) = false := by
      have hne : d.val ≠ (d.val + 1) % 32 := by omega
      simp [slotWritesV, vecWritesV, dupes, hne]
    rw [exec_topk]
    exact vecIssued_of_compute h rfl ((bundleBad_writesV _ _ _ rfl htwo).trans hok)
      (Bool.and_eq_true_iff.mpr ⟨decide_eq_true hlow, decide_eq_true hhigh⟩) (by simp only [base, BitVec.ofNat_toNat]; rfl)

end Sys2Proof.Machine

/-!
PROOFS. MVSTREAM with MVPASS, MVREAD, TAP and STLD at their issue (R118, R121, R127, R132, R154, R164, R188, R209):
`mvp_operations_enter`, `tap_and_store_loads_enter`.
-/
namespace Sys2Proof.Machine
open Sys2Proof.Safety

/-! ### A bundle of several slots -/

/-- In a core with nothing in flight only its own slots could hold a bundle (R189). -/
theorem bundleHeld_calm_slots {k : Core} (h : Calm k) (events : List Word) {ops : List SlotOp}
    (hslots : ∀ o ∈ ops, slotHeld (k.holding ops) events o = false) : bundleHeld (k.holding ops) events ops = false := by
  obtain ⟨hs, hv⟩ := pending_calm h ops
  have htimed : (k.holding ops).timed = false := h.timed
  simpa [bundleHeld, hs, hv, htimed] using hslots

/-- A bundle without a sequencer slot that nothing holds issues at once: its slots act, then the core moves on. -/
theorem tryIssue_slots {s : State} {c : CoreId} {p : PartId} {r : RunSt} {x : StepRec} {ops : List SlotOp} {g : Core → Core}
    (h : Straight s c p r x) (hslots : ∀ o ∈ ops, o.slot ≠ 0)
    (hheld : bundleHeld ((s.core c).holding ops) (s.part p).events.toList ops = false)
    (hop : ops.all (operandsOk ((s.core c).holding ops)) = true)
    (hact : (s.begun c p x).actSlots c ((s.core c).holding ops) ops = (s.begun c p x).modCore c g)
    (hg : SameControl (s.core c).begun (g (s.core c).begun)) :
    (s.modCore c (·.holding ops)).tryIssue c = ((s.begun c p x).modCore c g).modCore c Core.passed := by
  have hready := h.ready
  have hk : (s.modCore c (·.holding ops)).core c = (s.core c).holding ops := core_modCore _ _ _
  have harrived : ((s.core c).holding ops).fetched = [ops] := rfl
  have hi : (s.modCore c (·.holding ops)).issuing c = true := (issuing_modCore rfl).trans hready.issuing
  have hfetch := fun f => hk ▸ withFetch_clean (fetched_holding hready.fetched ops) f
  have hbegun : ((s.modCore c (·.holding ops)).modCore c
      (fun k => { k with fetched := [], watchdog := 0, issued := k.issued + 1 })).firstBundle p x = s.begun c p x :=
    congrArg (State.firstBundle · p x) (modCore_modCore _ _ _ _)
  have hgoes : ((s.begun c p x).modCore c g).issuing c = true := by
    rw [issuing_modCore (by rw [core_begun]; exact hg.phase), issuing_begun, hready.issuing]
  have hcore : ((s.begun c p x).modCore c g).core c = g (s.core c).begun := by rw [core_modCore, core_begun]
  have hend := sequence_straight (t := (s.begun c p x).modCore c g) (c := c)
    (by rw [hcore, hg.loops, hg.pc]; exact h.inside) (by rw [hcore, hg.pc, hg.codeLen]; exact h.more)
    (by rw [hcore, hg.passes]; exact hready.calm.passes)
  unfold State.tryIssue
  simp only [hk, stepOf_modCore, hready.step, hi, part_modCore, hfetch, harrived, hheld, hop, hbegun, hact, hgoes, Bool.not_true,
    Bool.or_self, Bool.false_eq_true, if_false]
  rw [List.findSome?_eq_none_iff.mpr (fun o ho => ?noseq)]
  · exact hend
  case noseq =>
    cases o with
    | seq q => exact absurd rfl (hslots _ ho)
    | _ => rfl

/-- The core with a slot staged. -/
def Core.staging (o : SlotOp) (k : Core) : Core := { k with staged := [o] }

/-- The first slot of a bundle is staged (R188). -/
theorem issueSlot_first {s : State} {c : CoreId} {p : PartId} {r : RunSt} {x : StepRec} (h : Ready s c p r x) (o : SlotOp) :
    s.issueSlot c false o = .next (s.modCore c (Core.staging o)) := by
  have hone : dupes ([o].map SlotOp.slot) = false := rfl
  unfold State.issueSlot
  simp only [h.issuing, h.step, h.calm.staged, List.nil_append, hone, Bool.false_eq_true, if_false, Bool.not_false, if_true]
  exact congrArg Host.Outcome.next (modCore_congr (by rw [Core.staging]))

/-- A second slot that closes the bundle lets it issue where the verifier accepts it and nothing holds it (R184 to R206). -/
theorem issueSlot_pair {s : State} {c : CoreId} {p : PartId} {r : RunSt} {x : StepRec} {o1 o2 : SlotOp} {g : Core → Core}
    (h : Straight s c p r x) (hslots : ∀ o ∈ [o1, o2], o.slot ≠ 0)
    (hbad : bundleBad ((s.core c).staging o1) (imageLimits x).1 (imageLimits x).2 [o1, o2] = false)
    (hheld : bundleHeld ((s.core c).holding [o1, o2]) (s.part p).events.toList [o1, o2] = false)
    (hop : [o1, o2].all (operandsOk ((s.core c).holding [o1, o2])) = true)
    (hact : (s.begun c p x).actSlots c ((s.core c).holding [o1, o2]) [o1, o2] = (s.begun c p x).modCore c g)
    (hg : SameControl (s.core c).begun (g (s.core c).begun)) :
    ∃ u t, s.issueSlot c false o1 = .next u ∧ u.core c = { s.core c with staged := [o1] } ∧ u.issueSlot c true o2 = .next t ∧
      OthersSame s t c ∧ t.core c = (g (s.core c).begun).passed := by
  have hready := h.ready
  refine ⟨_, ((s.begun c p x).modCore c g).modCore c Core.passed, issueSlot_first hready o1, core_modCore _ _ _, ?_,
    othersSame_modCore (othersSame_modCore (othersSame_begun s c p x) _) _, by simp⟩
  have hissuing : (s.modCore c (Core.staging o1)).issuing c = true := (issuing_modCore rfl).trans hready.issuing
  have htwo : dupes ([o1, o2].map SlotOp.slot) = false := by
    simp only [bundleBad, Bool.or_eq_false_iff] at hbad
    exact hbad.1.1.1
  have hstaged : ((s.core c).staging o1).staged = [o1] := rfl
  have hfetched : ((s.core c).staging o1).fetched = [] := hready.calm.fetched
  have hclosed : (s.modCore c (Core.staging o1)).modCore c (fun k => { k with staged := [], fetched := [[o1, o2]] }) =
      s.modCore c (·.holding [o1, o2]) := modCore_modCore _ _ _ _
  rw [← tryIssue_slots h hslots hheld hop hact hg, ← hclosed]
  unfold State.issueSlot
  simp only [hissuing, stepOf_modCore, hready.step, core_modCore, hstaged, hfetched, List.cons_append, List.nil_append, htwo, hbad,
    Bool.not_true, Bool.false_eq_true, if_false, if_true]

/-! ### MVSTREAM with MVPASS -/

/-- The queue of the MVP with one more operation. -/
def Core.queueMv (f : MvFlight) (k : Core) : Core := { k with mvQ := k.mvQ ++ [f] }

/-- The core with the flags of the activations that a pass reads from registers (R121). -/
def Core.raiseActs (k0 : Core) (vt v1 : Fin 4) (k : Core) : Core :=
  if vtVreg (k0.vtA vt) then k.raiseMv (orFlags ((mvRegActs k0 (k0.vtA vt) (v1.val + 1)).flatten.map (·.2))) else k

/-- An MVP operation finds room where none waits. -/
theorem slotHeld_mvp {k : Core} (h : k.mvQ = []) (events : List Word) (o : MvpOp) : slotHeld k events (.mvp o) = false := by
  have hnone : k.passesHeld = [] := by rw [Core.passesHeld, h]; rfl
  change decide (2 ≤ k.passesHeld.length) = false
  rw [hnone]
  rfl

/-- In the bundle of MVSTREAM and MVPASS the pass acts for both (R209). -/
theorem actSlots_mvPass {s : State} {c : CoreId} (k0 : Core) (bd : Fin 8) (a : AReg) (vt v1 : Fin 4) (init last : Bool) (sA sO : SReg)
    (h : s.issuing c = true) :
    s.actSlots c k0 [.agb (.mvstream bd a), .mvp (.mvpass vt v1 init last sA sO)] =
      s.issueMvPass c k0 vt v1 init last sA sO bd a := by
  simp [State.actSlots, List.range_succ, SlotOp.slot, State.actSlot, h]

/-- The verifier accepts the bundle of MVSTREAM and MVPASS where an activation offset is given for the store only (R121, R209). -/
theorem bundleBad_mvPass {k : Core} {vt : Fin 4} {sO : SReg} (hoff : vtVreg (k.vtA vt) = true → sO.val = 0) (flags arrays : Nat)
    (bd : Fin 8) (a : AReg) (v1 : Fin 4) (init last : Bool) (sA : SReg) :
    bundleBad k flags arrays [.agb (.mvstream bd a), .mvp (.mvpass vt v1 init last sA sO)] = false := by
  have hown : (vtVreg (k.vtA vt) && decide (sO.val ≠ 0)) = false := by simpa using hoff
  have hpass : slotBad k flags arrays [.agb (.mvstream bd a), .mvp (.mvpass vt v1 init last sA sO)]
      (.mvp (.mvpass vt v1 init last sA sO)) = false := Bool.or_eq_false_iff.mpr ⟨rfl, hown⟩
  simp only [bundleBad, List.any_cons, List.any_nil, hpass, Bool.or_false]
  rfl

/-- A pass with its MVSTREAM as it stands in the queue: with the near bytes that it has to read (R168). -/
def mvPassArmed (s : State) (c : CoreId) (k0 : Core) (vt v1 : Fin 4) (init last : Bool) (sA sO : SReg) (bd : Fin 8) (a : AReg) : MvFlight :=
  (mvPassOf s c k0 vt v1 init last sA sO bd a).armed
    ((mvPassNear (mvPassOf s c k0 vt v1 init last sA sO bd a)).map (fun y => (k0.win.phys y.1, y.2)))

/-- An MVPASS whose records, stream and destination are legal enters the MVP's queue (R121, R127, R164, R175). -/
theorem issueMvPass_legal {s : State} {c : CoreId} {k0 : Core} {vt v1 : Fin 4} {init last : Bool} {sA sO : SReg} {bd : Fin 8} {a : AReg}
    (hrecs : (k0.win.spans (mvPassRecs k0 (k0.vtA vt) (k0.vtB vt) last)).isSome = true)
    (hclean : Unmarked s c ((mvPassRecs k0 (k0.vtA vt) (k0.vtB vt) last).map (fun y => (k0.win.phys y.1, y.2))))
    (hnear : (k0.win.spans (mvPassNear (mvPassOf s c k0 vt v1 init last sA sO bd a) ++
      mvPassOut (mvPassOf s c k0 vt v1 init last sA sO bd a))).isSome = true)
    (hdeep : s.mvDeepOk c (mvPassOf s c k0 vt v1 init last sA sO bd a) = true) :
    s.issueMvPass c k0 vt v1 init last sA sO bd a =
      s.modCore c (fun k => (k0.raiseActs vt v1 k).queueMv (mvPassArmed s c k0 vt v1 init last sA sO bd a)) := by
  have hspans := spans_append_isSome hrecs hnear
  rw [← List.append_assoc] at hspans
  rw [State.issueMvPass, checked_legal hspans, withNear_unmarked hclean, if_pos hdeep]
  rfl

/-- A pass reads at issue what it read before its bundle began. -/
theorem mvPassOf_begun {s : State} {c : CoreId} {p : PartId} {r : RunSt} {x : StepRec} (h : s.stepOf c = some (p, r, x))
    (k0 : Core) (vt v1 : Fin 4) (init last : Bool) (sA sO : SReg) (bd : Fin 8) (a : AReg) :
    mvPassOf (s.begun c p x) c k0 vt v1 init last sA sO bd a = mvPassOf s c k0 vt v1 init last sA sO bd a := by
  simp only [mvPassOf, State.codebook, tablesOf_begun h]

theorem mvDeepOk_begun (s : State) (c : CoreId) (p : PartId) (x : StepRec) (f : MvFlight) :
    (s.begun c p x).mvDeepOk c f = s.mvDeepOk c f := by
  simp only [State.mvDeepOk, runOf_begun, deepLocal_begun]

/-- A calm core after the bundle whose pass raised its flags and took its place in the queue. -/
theorem passed_queueMv {k : Core} (h : Calm k) (k0 : Core) (vt v1 : Fin 4) (f : MvFlight) :
    ((k0.raiseActs vt v1 k.begun).queueMv f).passed = { k0.raiseActs vt v1 (moved k) with mvQ := [f] } := by
  by_cases hv : vtVreg (k0.vtA vt) = true
  · simp only [Core.raiseActs, if_pos hv, Core.raiseMv, Core.queueMv, Core.passed, Core.begun, moved, h.mvps, h.staged, h.fetched,
      List.nil_append]
  · simp only [Core.raiseActs, if_neg hv, Core.queueMv, Core.passed, Core.begun, moved, h.mvps, h.staged, h.fetched, List.nil_append]

/-- The flags of a pass and its place in the queue leave the sequencer alone. -/
theorem sameControl_queueMv (k0 : Core) (vt v1 : Fin 4) (f : MvFlight) (k : Core) :
    SameControl k ((k0.raiseActs vt v1 k).queueMv f) := by
  unfold Core.raiseActs
  split <;> exact ⟨rfl, rfl, rfl, rfl, rfl⟩

/-- MVSTREAM and MVPASS, one bundle, with legal operands and addresses: the pass enters the MVP's queue (R118, R121, R127). -/
theorem mvPass_enters {s : State} {c : CoreId} {p : PartId} {r : RunSt} {x : StepRec} (h : Straight s c p r x) (vt v1 : Fin 4)
    (bd : Fin 8) (a : AReg) (sA sO : SReg) (init last : Bool) (hoff : vtVreg ((s.core c).vtA vt) = true → sO.val = 0)
    (hacc : (s.core c).s32 sA + vtN ((s.core c).vtA vt) ≤ 1024)
    (hact : (s.core c).s32 sO + (fmtD (vtAfmt ((s.core c).vtA vt))).bytes (vtK ((s.core c).vtA vt)) ≤ 16384)
    (hrecs : SpansOk s c (mvPassRecs (s.core c) ((s.core c).vtA vt) ((s.core c).vtB vt) last))
    (hnear : ((s.core c).win.spans (mvPassNear (mvPassOf s c (s.core c) vt v1 init last sA sO bd a) ++
      mvPassOut (mvPassOf s c (s.core c) vt v1 init last sA sO bd a))).isSome = true)
    (hdeep : s.mvDeepOk c (mvPassOf s c (s.core c) vt v1 init last sA sO bd a) = true) :
    ∃ u t, s.issueSlot c false (.agb (.mvstream bd a)) = .next u ∧ u.core c = { s.core c with staged := [.agb (.mvstream bd a)] } ∧
      u.issueSlot c true (.mvp (.mvpass vt v1 init last sA sO)) = .next t ∧ OthersSame s t c ∧
      t.core c = { (s.core c).raiseActs vt v1 (moved (s.core c)) with
        mvQ := [mvPassArmed s c (s.core c) vt v1 init last sA sO bd a] } := by
  have hcalm := h.ready.calm
  obtain ⟨hin, hmarks⟩ := hrecs
  have hpass := mvPassOf_begun h.ready.step (s.core c) vt v1 init last sA sO bd a
  have hheld : bundleHeld ((s.core c).holding [.agb (.mvstream bd a), .mvp (.mvpass vt v1 init last sA sO)]) (s.part p).events.toList
      [.agb (.mvstream bd a), .mvp (.mvpass vt v1 init last sA sO)] = false := by
    refine bundleHeld_calm_slots hcalm _ fun o ho => ?_
    rcases List.mem_pair.mp ho with rfl | rfl
    · exact slotHeld_agb (k := (s.core c).holding _) hcalm.loads hcalm.mvps _ _
    · exact slotHeld_mvp (k := (s.core c).holding _) hcalm.mvps _ _
  have hop : [SlotOp.agb (.mvstream bd a), .mvp (.mvpass vt v1 init last sA sO)].all
      (operandsOk ((s.core c).holding [.agb (.mvstream bd a), .mvp (.mvpass vt v1 init last sA sO)])) = true := by
    refine List.all_eq_true.mpr fun o ho => ?_
    rcases List.mem_pair.mp ho with rfl | rfl
    · rfl
    · exact Bool.and_eq_true_iff.mpr ⟨decide_eq_true hacc, decide_eq_true hact⟩
  have henters : (s.begun c p x).actSlots c ((s.core c).holding [.agb (.mvstream bd a), .mvp (.mvpass vt v1 init last sA sO)])
      [.agb (.mvstream bd a), .mvp (.mvpass vt v1 init last sA sO)] = (s.begun c p x).modCore c (fun k =>
        ((s.core c).raiseActs vt v1 k).queueMv (mvPassArmed s c (s.core c) vt v1 init last sA sO bd a)) := by
    refine (actSlots_mvPass _ bd a vt v1 init last sA sO ((issuing_begun s c p x).trans h.ready.issuing)).trans
      ((issueMvPass_legal (spans_isSome_iff.mpr hin) (unmarked_begun hmarks p x) (by rw [hpass]; exact hnear)
        (by rw [hpass, mvDeepOk_begun]; exact hdeep)).trans ?_)
    rw [mvPassArmed, hpass]
    rfl
  obtain ⟨u, t, hu, hstaged, ht, hothers, hcore⟩ := issueSlot_pair h (by simp [SlotOp.slot])
    (bundleBad_mvPass hoff _ _ bd a v1 init last sA) hheld hop henters (sameControl_queueMv _ vt v1 _ _)
  exact ⟨u, t, hu, hstaged, ht, hothers, hcore.trans (passed_queueMv hcalm _ vt v1 _)⟩

/-! ### MVREAD -/

/-- An MVREAD whose template has no read-out does nothing (R132). -/
theorem issueMvRead_none {s : State} {c : CoreId} {k0 : Core} {vt : Fin 4} {sO : SReg}
    (h : (mvPlanOf k0 (k0.vtA vt) (k0.vtB vt) (k0.s32 sO)).kind = 0) (v1 : Fin 4) (sA : SReg) : s.issueMvRead c k0 vt v1 sA sO = s := by
  rw [State.issueMvRead, if_pos h]

/-- An MVREAD whose records and whose writes lie in the window enters the MVP's queue (R132, R164). -/
theorem issueMvRead_legal {s : State} {c : CoreId} {k0 : Core} {vt v1 : Fin 4} {sO : SReg}
    (hread : (mvPlanOf k0 (k0.vtA vt) (k0.vtB vt) (k0.s32 sO)).kind ≠ 0)
    (hrecs : (k0.win.spans (mvReadRecs k0 (k0.vtA vt) (k0.vtB vt) (k0.s32 sO))).isSome = true)
    (hclean : Unmarked s c ((mvReadRecs k0 (k0.vtA vt) (k0.vtB vt) (k0.s32 sO)).map (fun y => (k0.win.phys y.1, y.2))))
    (hplan : (k0.win.spans ((mvPlanOf k0 (k0.vtA vt) (k0.vtB vt) (k0.s32 sO)).spans (v1.val + 1) (k0.s32 sO))).isSome = true)
    (sA : SReg) : s.issueMvRead c k0 vt v1 sA sO = s.modCore c (Core.queueMv (mvReadOf k0 vt v1 sA sO)) := by
  rw [State.issueMvRead, if_neg hread, checked_legal (spans_append_isSome hrecs hplan), withNear_unmarked hclean]
  rfl

/-- An MVREAD with legal operands and addresses, alone in its bundle, enters the MVP's queue where its template has a read-out (R132). -/
theorem mvRead_enters {s : State} {c : CoreId} {p : PartId} {r : RunSt} {x : StepRec} (h : Straight s c p r x) (vt v1 : Fin 4)
    (sA sO : SReg) (hn : 1 ≤ (s.core c).s32 sO) (hn' : (s.core c).s32 sO ≤ 1024) (hacc : (s.core c).s32 sA + (s.core c).s32 sO ≤ 1024)
    (hrecs : SpansOk s c (mvReadRecs (s.core c) ((s.core c).vtA vt) ((s.core c).vtB vt) ((s.core c).s32 sO)))
    (hplan : ((s.core c).win.spans ((mvPlanOf (s.core c) ((s.core c).vtA vt) ((s.core c).vtB vt) ((s.core c).s32 sO)).spans (v1.val + 1)
      ((s.core c).s32 sO))).isSome = true) :
    ∃ t, s.issueSlot c true (.mvp (.mvread vt v1 sA sO)) = .next t ∧ OthersSame s t c ∧
      t.core c = if (mvPlanOf (s.core c) ((s.core c).vtA vt) ((s.core c).vtB vt) ((s.core c).s32 sO)).kind = 0 then moved (s.core c)
        else { moved (s.core c) with mvQ := [mvReadOf (s.core c) vt v1 sA sO] } := by
  have hcalm := h.ready.calm
  have hbad : bundleBad (s.core c) (imageLimits x).1 (imageLimits x).2 [.mvp (.mvread vt v1 sA sO)] = false :=
    bundleBad_single _ _ _ rfl rfl
  have hheld := bundleHeld_calm hcalm (s.part p).events.toList
    (slotHeld_mvp (k := (s.core c).holding [.mvp (.mvread vt v1 sA sO)]) hcalm.mvps _ _)
  have hop : operandsOk ((s.core c).holding [.mvp (.mvread vt v1 sA sO)]) (.mvp (.mvread vt v1 sA sO)) = true :=
    decide_eq_true ⟨hn, hn', hacc⟩
  by_cases hread : (mvPlanOf (s.core c) ((s.core c).vtA vt) ((s.core c).vtB vt) ((s.core c).s32 sO)).kind = 0
  · obtain ⟨t, ht, hothers, hcore⟩ := issueSlot_single (g := id) h (by simp [SlotOp.slot]) hbad hheld hop
      ((issueMvRead_none hread v1 sA).trans (modCore_id _ c).symm) ⟨rfl, rfl, rfl, rfl, rfl⟩
    refine ⟨t, ht, hothers, ?_⟩
    rw [hcore, if_pos hread]
    simp only [Core.passed, Core.begun, moved, id, hcalm.staged, hcalm.fetched]
  · obtain ⟨hin, hmarks⟩ := hrecs
    obtain ⟨t, ht, hothers, hcore⟩ := issueSlot_single h (by simp [SlotOp.slot]) hbad hheld hop
      (issueMvRead_legal hread (spans_isSome_iff.mpr hin) (unmarked_begun hmarks p x) hplan sA) ⟨rfl, rfl, rfl, rfl, rfl⟩
    refine ⟨t, ht, hothers, ?_⟩
    rw [hcore, if_neg hread]
    simp only [Core.passed, Core.queueMv, Core.begun, moved, hcalm.mvps, List.nil_append, hcalm.staged, hcalm.fetched]

/-- Settles O20: the bundle of MVSTREAM and MVPASS (`mvPass_enters`) and MVREAD (`mvRead_enters`). -/
theorem mvpOperationsEnter : Obligations.mvp_operations_enter := by
  unfold Obligations.mvp_operations_enter
  intro s c p r x h vt v1 bd a sA sO init last
  refine ⟨fun hoff hacc hact hrecs hnear hdeep => ?_, fun hn hn' hacc hrecs hplan => ?_⟩
  · exact mvPass_enters h vt v1 bd a sA sO init last hoff hacc hact hrecs hnear hdeep
  · rw [exec_mvread]
    exact mvRead_enters h vt v1 sA sO hn hn' hacc hrecs hplan

/-! ### TAP and STLD -/

/-- The queue of address generator A's loads with one more. -/
def Core.queueTap (f : TapFlight) (k : Core) : Core := { k with tapQ := k.tapQ ++ [f] }

/-- A load of address generator A finds room where none waits. -/
theorem slotHeld_tap {k : Core} (h : k.tapQ = []) (events : List Word) {o : AgaOp} (ho : ∀ ad aB q y b, o ≠ .rows ad aB q y b) :
    slotHeld k events (.aga o) = false := by
  cases o with
  | rows ad aB q y b => exact absurd rfl (ho ad aB q y b)
  | tap | stld => simp only [slotHeld, h]; rfl

/-- A load of address generator A that the verifier accepts, alone in its bundle, enters the queue it is put into. -/
theorem tapQ_enters {s : State} {c : CoreId} {p : PartId} {r : RunSt} {x : StepRec} {o : AgaOp} {f : TapFlight} (h : Straight s c p r x)
    (ho : ∀ ad aB q y b, o ≠ .rows ad aB q y b) (hv : dupes (slotWritesV (.aga o)) = false)
    (hbad : slotBad (s.core c) (imageLimits x).1 (imageLimits x).2 [.aga o] (.aga o) = false)
    (hop : operandsOk ((s.core c).holding [.aga o]) (.aga o) = true)
    (hact : (s.begun c p x).actSlot c ((s.core c).holding [.aga o]) [.aga o] (.aga o) = (s.begun c p x).modCore c (Core.queueTap f)) :
    ∃ t, s.issueSlot c true (.aga o) = .next t ∧ OthersSame s t c ∧ t.core c = { moved (s.core c) with tapQ := [f] } := by
  have hcalm := h.ready.calm
  obtain ⟨t, ht, hothers, hcore⟩ := issueSlot_single h (by simp [SlotOp.slot]) ((bundleBad_writesV _ _ _ rfl hv).trans hbad)
    (bundleHeld_calm hcalm _ (slotHeld_tap hcalm.taps _ ho)) hop hact ⟨rfl, rfl, rfl, rfl, rfl⟩
  refine ⟨t, ht, hothers, ?_⟩
  rw [hcore]
  simp only [Core.passed, Core.queueTap, Core.begun, moved, hcalm.taps, List.nil_append, hcalm.staged, hcalm.fetched]

/-- The low field of a register. -/
theorem fld_low (w hi : Nat) : fld w hi 0 = w % 2 ^ (hi + 1) := by
  rw [fld, pow_zero, Nat.div_one, Nat.sub_zero]

/-- A TAP whose elements all lie in the window enters the queue with their spans (R154, R164). -/
theorem issueTap_legal {s : State} {c : CoreId} {k0 : Core} {ad : Fin 8} {aB : AReg} {sP sY : SReg} {sp xs : List Span}
    (hsp : tapSpans (k0.ad ad) (k0.wd (adWd (k0.ad ad))) (k0.areg aB.val) (fld (k0.sreg sP).toNat 31 0) (k0.s32 sY)
      (fld (k0.sreg sP).toNat 47 32) (fld (k0.sreg sP).toNat 59 48) = some sp)
    (hxs : k0.win.spans sp = some xs) (vD : VReg) (pm : Bool) :
    s.issueTap c k0 ad aB sP sY vD pm = s.modCore c (Core.queueTap ⟨k0.seq, .tap vD (k0.ad ad) (k0.wd (adWd (k0.ad ad)))
      (k0.areg aB.val) (fld (k0.sreg sP).toNat 31 0) (k0.s32 sY) (fld (k0.sreg sP).toNat 47 32) (fld (k0.sreg sP).toNat 59 48) pm
      (s.codebook c (k0.book (0x10 + ad.val))), k0.win, xs, readTag (adTag (k0.ad ad)),
      Feed.start (readTag (adTag (k0.ad ad))) xs⟩) := by
  simp only [State.issueTap, hsp, State.checked, hxs]
  rfl

/-- An STLD within the window enters the queue with its span (R121, R164). -/
theorem issueStld_legal {s : State} {c : CoreId} {k0 : Core} {aB : AReg} {sL : SReg}
    (h : k0.areg aB.val + k0.s32 sL % 2 ^ 24 ≤ k0.win.nsl * 1024) (row : Fin 4) (tag : BitVec 2) (doff : BitVec 13) :
    s.issueStld c k0 row aB tag sL doff = s.modCore c (Core.queueTap ⟨k0.seq, .stld row (k0.s32 sL % 2 ^ 24) (2 * doff.toNat), k0.win,
      [(k0.win.phys (k0.areg aB.val), k0.s32 sL % 2 ^ 24)], readTag tag.toNat,
      Feed.start (readTag tag.toNat) [(k0.win.phys (k0.areg aB.val), k0.s32 sL % 2 ^ 24)]⟩) := by
  have hspan : k0.win.spans [(k0.areg aB.val, k0.s32 sL % 2 ^ 24)] = some [(k0.win.phys (k0.areg aB.val), k0.s32 sL % 2 ^ 24)] := by
    simp only [NsWin.spans, NsWin.ok, List.all_cons, List.all_nil, decide_eq_true h, Bool.and_true, if_true, List.map_cons, List.map_nil]
  simp only [State.issueStld, State.checked, hspan]
  rfl

/-- Settles O21: a TAP whose bytes lie in the window and an STLD within it and its row enter the queue (`tapQ_enters`). -/
theorem tapAndStoreLoadsEnter : Obligations.tap_and_store_loads_enter := by
  unfold Obligations.tap_and_store_loads_enter
  intro s c p r x h ad aB sP sY sL vD pm row tag doff
  refine ⟨fun sp xs hmode hsp hxs => ?_, fun htag hrow hwin => ?_⟩
  · have hbook : (s.begun c p x).codebook c = s.codebook c := by
      funext n
      rw [State.codebook, tablesOf_begun h.ready.step, State.codebook]
    rw [← fld_low _ 31] at hsp ⊢
    rw [exec_tap, ← hbook]
    exact tapQ_enters h (by simp) rfl (decide_eq_false (not_not.mpr hmode)) rfl (issueTap_legal hsp hxs vD pm)
  · rw [exec_stld]
    exact tapQ_enters h (by simp) rfl (decide_eq_false htag) (decide_eq_true hrow) (issueStld_legal hwin row tag doff)

end Sys2Proof.Machine

/-!
PROOFS. VECTOR_OPERATION_LANDED (R134, R163, R167, R168): `vector_operations_land`.
-/
namespace Sys2Proof.Machine
open Sys2Proof.Safety

/-! ### Tables -/

/-- Reading a table of which the keys that fail a test were dropped. -/
theorem Tab.get_filter {β : Type} (d : β) (t : Tab β) (keep : Nat → Bool) (k : Nat) :
    Tab.get d (t.filter (fun p => keep p.1)) k = if keep k then Tab.get d t k else d := by
  induction t with
  | nil => simp [Tab.get]
  | cons p t ih =>
    obtain ⟨q, v⟩ := p
    rw [List.filter_cons]
    by_cases hq : keep q = true
    · rw [if_pos hq, Tab.get, ih, Tab.get]
      by_cases hk : k = q
      · rw [if_pos hk, if_pos hk, hk, if_pos hq]
      · rw [if_neg hk, if_neg hk]
    · rw [if_neg hq, ih, Tab.get]
      by_cases hk : k = q
      · rw [hk, if_neg hq, if_neg hq]
      · rw [if_neg hk]

/-- Reading a table after writes that all put at a key what one function gives for it. -/
theorem Tab.get_foldl_set {β α : Type} [DecidableEq β] {d : β} (key : α → Nat) (val : α → β) (g : Nat → β) {xs : List α}
    (hg : ∀ x ∈ xs, val x = g (key x)) {t : Tab β} (ht : Tab.wf d t = true) (k : Nat) :
    Tab.get d (xs.foldl (fun t x => Tab.set d t (key x) (val x)) t) k = if k ∈ xs.map key then g k else Tab.get d t k := by
  induction xs generalizing t with
  | nil => simp
  | cons x xs ih =>
    obtain ⟨hx, hxs⟩ := List.forall_mem_cons.mp hg
    rw [List.foldl_cons, ih hxs (Tab.wf_set _ _ ht), Tab.get_set _ _ _ _ _ _ (Tab.wf_rising ht), List.map_cons]
    by_cases hk : k = key x
    · rw [if_pos hk, hk, if_pos List.mem_cons_self, hx, ite_self]
    · simp [hk]

/-! ### Slots and spans -/

theorem mem_slotsOf {sp : Span} {n : Nat} : n ∈ slotsOf sp ↔ 0 < sp.2 ∧ sp.1 / 1024 ≤ n ∧ n ≤ (sp.1 + sp.2 - 1) / 1024 := by
  unfold slotsOf
  split
  · simp [*]
  · simp only [List.mem_map, List.mem_range]
    constructor
    · rintro ⟨i, hi, rfl⟩
      omega
    · rintro ⟨h, hlo, hhi⟩
      exact ⟨n - sp.1 / 1024, by omega, by omega⟩

/-- The slot of a byte of a span is one of the span's. -/
theorem slot_mem_slotsOf {sp : Span} {a : Nat} (hlo : sp.1 ≤ a) (hhi : a < sp.1 + sp.2) : a / 1024 ∈ slotsOf sp :=
  mem_slotsOf.mpr ⟨by omega, by omega, by omega⟩

theorem slotsOf_nodup (sp : Span) : (slotsOf sp).Nodup := by
  unfold slotsOf
  split
  · exact List.nodup_nil
  · exact List.nodup_range.map fun i j h => Nat.add_right_cancel h

/-- A piece of a span cut at slot boundaries: it is not empty and lies in the span and in one slot (R168). -/
structure SlotPiece (sp y : Span) : Prop where
  some : 0 < y.2
  low : sp.1 ≤ y.1
  high : y.1 + y.2 ≤ sp.1 + sp.2
  slot : (y.1 + y.2 - 1) / 1024 = y.1 / 1024

theorem slotPiece_of_mem {sp y : Span} (h : y ∈ slotSpans sp) : SlotPiece sp y := by
  obtain ⟨n, hn, rfl⟩ := List.mem_map.mp h
  obtain ⟨hsome, hlo, hhi⟩ := mem_slotsOf.mp hn
  constructor <;> simp only <;> omega

/-- A piece touches one slot, and that is one of the span's. -/
theorem SlotPiece.slotsOf_eq {sp y : Span} (h : SlotPiece sp y) : slotsOf y = [y.1 / 1024] := by
  obtain ⟨hsome, _, _, hslot⟩ := h
  rw [slotsOf, if_neg (by omega), hslot, Nat.sub_self]
  simp

theorem SlotPiece.slot_mem {sp y : Span} (h : SlotPiece sp y) : y.1 / 1024 ∈ slotsOf sp := by
  obtain ⟨hsome, hlow, hhigh, _⟩ := h
  exact slot_mem_slotsOf hlow (by omega)

/-- Every byte of a span lies in a piece of it. -/
theorem exists_slotPiece {sp : Span} {a : Nat} (hlo : sp.1 ≤ a) (hhi : a < sp.1 + sp.2) :
    ∃ y ∈ slotSpans sp, y.1 ≤ a ∧ a < y.1 + y.2 ∧ y.1 / 1024 = a / 1024 :=
  ⟨_, List.mem_map_of_mem (slot_mem_slotsOf hlo hhi), by simp only; omega, by simp only; omega, by simp only; omega⟩

/-- Every slot of a span holds a piece of it. -/
theorem exists_slotPiece_of_slot {sp : Span} {n : Nat} (h : n ∈ slotsOf sp) : ∃ y ∈ slotSpans sp, y.1 / 1024 = n := by
  obtain ⟨hsome, hlo, hhi⟩ := mem_slotsOf.mp h
  exact ⟨_, List.mem_map_of_mem h, by simp only; omega⟩

/-- The pieces of a span lie in different slots. -/
theorem slotSpans_pairwise (sp : Span) : (slotSpans sp).Pairwise (fun y z => y.1 / 1024 ≠ z.1 / 1024) := by
  refine List.pairwise_map.mpr ((slotsOf_nodup sp).imp_of_mem fun {m n} hm hn hne => ?_)
  obtain ⟨_, hmlo, hmhi⟩ := mem_slotsOf.mp hm
  obtain ⟨_, hnlo, hnhi⟩ := mem_slotsOf.mp hn
  simp only
  omega

/-! ### One write to near scratch -/

/-- `l` is `k` but for near scratch, its written marks and its full tags. -/
def NearOnly (k l : Core) : Prop := ∃ near written tags, l = { k with near := near, written := written, fullTag := tags }

theorem NearOnly.refl (k : Core) : NearOnly k k := ⟨k.near, k.written, k.fullTag, rfl⟩

theorem NearOnly.trans {k l m : Core} (h : NearOnly k l) (g : NearOnly l m) : NearOnly k m := by
  obtain ⟨_, _, _, rfl⟩ := h
  obtain ⟨n, w, t, rfl⟩ := g
  exact ⟨n, w, t, rfl⟩

/-- A core whose near scratch holds no error mark. -/
def NearClear (k : Core) : Prop := k.nearPoison = [] ∧ k.nearFlip = []

theorem NearOnly.clear {k l : Core} (h : NearOnly k l) (hk : NearClear k) : NearClear l := by
  obtain ⟨_, _, _, rfl⟩ := h
  exact hk

/-- `l` is `k` with bytes of near scratch written: at the addresses of `at_` those that `g` gives (R163, R167). -/
structure Stored (k l : Core) (at_ : Nat → Prop) (g : Nat → Byte) : Prop where
  only : NearOnly k l
  ok : CoreOk l
  stored : ∀ a, at_ a → l.nearByte a = g a
  kept : ∀ a, ¬ at_ a → l.nearByte a = k.nearByte a

/-- The first write of a slot where no error mark is met (R167). -/
theorem openSlot_clear {k : Core} (hk : NearClear k) {n : Nat} (hn : k.slotWritten n = false) : k.openSlot n =
    { k with near := Tab.dropRange k.near (n * 1024) 1024, written := Tab.set false k.written n true } := by
  obtain ⟨hpoison, hflip⟩ := hk
  have hpoison' : Tab.dropRange k.nearPoison (n * 128) 128 = k.nearPoison := by rw [hpoison]; rfl
  have hflip' : Tab.dropRange k.nearFlip (n * 128) 128 = k.nearFlip := by rw [hflip]; rfl
  rw [Core.openSlot, if_neg (by rw [hn]; decide), hpoison', hflip']

/-- A slot that is opened reads as before: 0 where nothing was written (R166, R167). -/
theorem openSlot_spec {k : Core} (hk : NearClear k) (ok : CoreOk k) (n : Nat) :
    NearOnly k (k.openSlot n) ∧ (k.openSlot n).fullTag = k.fullTag ∧ (∀ a, (k.openSlot n).nearByte a = k.nearByte a) ∧
      ∀ m, (k.openSlot n).slotWritten m = (k.slotWritten m || decide (m = n)) := by
  by_cases hw : k.slotWritten n = true
  · rw [Core.openSlot, if_pos hw]
    refine ⟨.refl k, rfl, fun a => rfl, fun m => ?_⟩
    by_cases hm : m = n
    · simp [hm, hw]
    · simp [hm]
  · have hclosed : k.slotWritten n = false := by simpa using hw
    have hopen : ∀ m, Tab.get false (Tab.set false k.written n true) m = (k.slotWritten m || decide (m = n)) := by
      intro m
      rw [Tab.get_set _ _ _ _ _ _ (Tab.wf_rising ok.written)]
      by_cases hm : m = n
      · simp [hm]
      · simp [hm, Core.slotWritten]
    rw [openSlot_clear hk hclosed]
    refine ⟨⟨_, _, _, rfl⟩, rfl, fun a => ?_, hopen⟩
    have hdrop : Tab.get 0 (Tab.dropRange k.near (n * 1024) 1024) a = if a / 1024 = n then 0 else Tab.get 0 k.near a := by
      rw [Tab.dropRange, Tab.get_filter 0 k.near (fun q => decide (q < n * 1024) || decide (n * 1024 + 1024 ≤ q))]
      by_cases ha : a / 1024 = n
      · rw [if_pos ha, if_neg (by simp; omega)]
      · rw [if_neg ha, if_pos (by simp; omega)]
    change (if Tab.get false (Tab.set false k.written n true) (a / 1024) = true then
      Tab.get 0 (Tab.dropRange k.near (n * 1024) 1024) a else 0) = k.nearByte a
    rw [hopen, hdrop, Core.nearByte]
    by_cases ha : a / 1024 = n
    · simp [ha, hclosed]
    · simp [ha]

/-- Slots that are opened read as before. -/
theorem openSlots_spec {k : Core} (hk : NearClear k) (ok : CoreOk k) (ns : List Nat) :
    NearOnly k (ns.foldl Core.openSlot k) ∧ CoreOk (ns.foldl Core.openSlot k) ∧ (ns.foldl Core.openSlot k).fullTag = k.fullTag ∧
      (∀ a, (ns.foldl Core.openSlot k).nearByte a = k.nearByte a) ∧
      ∀ m, m ∈ ns ∨ k.slotWritten m = true → (ns.foldl Core.openSlot k).slotWritten m = true := by
  induction ns generalizing k with
  | nil => exact ⟨.refl k, ok, rfl, fun a => rfl, fun m hm => hm.resolve_left (List.not_mem_nil)⟩
  | cons n ns ih =>
    obtain ⟨honly, htags, hbytes, hwritten⟩ := openSlot_spec hk ok n
    obtain ⟨ionly, iok, itags, ibytes, iwritten⟩ := ih (honly.clear hk) (coreOk_openSlot n ok)
    refine ⟨honly.trans ionly, iok, itags.trans htags, fun a => (ibytes a).trans (hbytes a), fun m hm => iwritten m ?_⟩
    rw [hwritten]
    rcases hm with hm | hm
    · rcases List.mem_cons.mp hm with rfl | hm
      · simp
      · exact .inl hm
    · simp [hm]

theorem mem_wordBytes {off : Nat} {bs : List Byte} {w a : Nat} :
    a ∈ (wordBytes off bs w).map (·.1) ↔ a / 8 = w ∧ off ≤ a ∧ a < off + bs.length := by
  simp only [wordBytes, List.mem_map, List.mem_filterMap, List.mem_range]
  constructor
  · rintro ⟨p, ⟨i, hi, hp⟩, rfl⟩
    split at hp
    · cases hp
      simp only
      omega
    · cases hp
  · rintro ⟨hw, hlo, hhi⟩
    exact ⟨(a, bs.getD (a - off) 0), ⟨a % 8, by omega, by rw [if_pos (by omega), show 8 * w + a % 8 = a by omega]⟩, rfl⟩

theorem value_of_mem_wordBytes {off : Nat} {bs : List Byte} {w : Nat} {p : Nat × Byte} (h : p ∈ wordBytes off bs w) :
    p.2 = bs.getD (p.1 - off) 0 := by
  obtain ⟨i, _, hp⟩ := List.mem_filterMap.mp h
  dsimp only at hp
  split at hp
  · cases hp
    rfl
  · cases hp

/-- A word written where no error mark is met (R179). -/
theorem nearWriteWord_clear {k : Core} (hk : NearClear k) (w : Nat) (ps : List (Nat × Byte)) :
    k.nearWriteWord w ps = ({ k with near := ps.foldl (fun t p => Tab.set 0 t p.1 p.2) k.near }, false) := by
  obtain ⟨hpoison, hflip⟩ := hk
  have hmark : Tab.get false k.nearPoison w = false := by rw [hpoison]; rfl
  have hpoison' : Tab.del k.nearPoison w = k.nearPoison := by rw [hpoison]; rfl
  have hflip' : Tab.del k.nearFlip w = k.nearFlip := by rw [hflip]; rfl
  rw [Core.nearWriteWord, hmark, if_neg (by simp), hpoison', hflip']

/-- Writing word `i` after word `off / 8` of a write of `bs` at `off`, with the words refused so far. -/
def Core.writeWordAt (off : Nat) (bs : List Byte) (r : Core × List Nat) (i : Nat) : Core × List Nat :=
  ((r.1.nearWriteWord (off / 8 + i) (wordBytes off bs (off / 8 + i))).1,
    if (r.1.nearWriteWord (off / 8 + i) (wordBytes off bs (off / 8 + i))).2 then r.2 ++ [off / 8 + i] else r.2)

/-- The words of a write put its bytes and no others, and none is refused where no error mark is met (R179). -/
theorem writeWords_spec (off : Nat) (bs : List Byte) (is : List Nat) {k : Core} (hk : NearClear k) (ok : CoreOk k) :
    ∃ near, is.foldl (Core.writeWordAt off bs) (k, []) = ({ k with near := near }, []) ∧ CoreOk { k with near := near } ∧
      ∀ a, Tab.get 0 near a = if (∃ i ∈ is, a / 8 = off / 8 + i) ∧ off ≤ a ∧ a < off + bs.length then bs.getD (a - off) 0
        else Tab.get 0 k.near a := by
  induction is generalizing k with
  | nil => exact ⟨k.near, rfl, ok, fun a => by simp⟩
  | cons i is ih =>
    let near1 := (wordBytes off bs (off / 8 + i)).foldl (fun t p => Tab.set 0 t p.1 p.2) k.near
    have hstep : Core.writeWordAt off bs (k, []) i = ({ k with near := near1 }, []) := by
      simp only [Core.writeWordAt, nearWriteWord_clear hk, Bool.false_eq_true, if_false, near1]
    have hok : CoreOk { k with near := near1 } := by
      have hword := coreOk_nearWriteWord (off / 8 + i) (wordBytes off bs (off / 8 + i)) ok
      rwa [nearWriteWord_clear hk] at hword
    obtain ⟨near, hfold, hnear, hbytes⟩ := ih (k := { k with near := near1 }) hk hok
    refine ⟨near, by rw [List.foldl_cons, hstep]; exact hfold, hnear, fun a => ?_⟩
    have hword : Tab.get 0 near1 a = _ := Tab.get_foldl_set (d := (0 : Byte)) (·.1) (·.2) (fun a => bs.getD (a - off) 0)
      (fun p hp => value_of_mem_wordBytes hp) ok.near a (xs := wordBytes off bs (off / 8 + i))
    rw [hbytes, hword]
    simp only [mem_wordBytes, List.exists_mem_cons_iff]
    by_cases hrest : ∃ j ∈ is, a / 8 = off / 8 + j
    · by_cases hin : off ≤ a ∧ a < off + bs.length
      · simp [hrest, hin]
      · simp [hin]
    · simp [hrest]

/-- A write where no error mark is met stores exactly its bytes, whatever slots it opens; no tag changes (R163, R167, R179). -/
theorem nearWrite_spec {k : Core} (hk : NearClear k) (ok : CoreOk k) (off : Nat) (bs : List Byte) :
    (k.nearWrite off bs).2 = [] ∧ (k.nearWrite off bs).1.fullTag = k.fullTag ∧
      Stored k (k.nearWrite off bs).1 (fun a => off ≤ a ∧ a < off + bs.length) (fun a => bs.getD (a - off) 0) := by
  by_cases hlen : bs.length = 0
  · rw [Core.nearWrite, if_pos hlen]
    exact ⟨rfl, rfl, .refl k, ok, fun a ha => by omega, fun a _ => rfl⟩
  · obtain ⟨honly, hok, htags, hbytes, hopen⟩ := openSlots_spec hk ok (slotsOf (off, bs.length))
    obtain ⟨near, hfold, hnear, hget⟩ :=
      writeWords_spec off bs (List.range ((off + bs.length - 1) / 8 - off / 8 + 1)) (honly.clear hk) hok
    have heq : k.nearWrite off bs = ({ (slotsOf (off, bs.length)).foldl Core.openSlot k with near := near }, []) := by
      rw [Core.nearWrite, if_neg hlen]
      exact hfold
    have hword : ∀ a, off ≤ a ∧ a < off + bs.length →
        ∃ i ∈ List.range ((off + bs.length - 1) / 8 - off / 8 + 1), a / 8 = off / 8 + i :=
      fun a ha => ⟨a / 8 - off / 8, List.mem_range.mpr (by omega), by omega⟩
    rw [heq]
    refine ⟨rfl, htags, honly.trans ⟨near, _, _, rfl⟩, hnear, fun a ha => ?_, fun a ha => ?_⟩
    · have hslot := hopen (a / 1024) (.inl (slot_mem_slotsOf ha.1 ha.2))
      simp only [Core.nearByte, hget, if_pos (And.intro (hword a ha) ha)]
      exact if_pos hslot
    · rw [← hbytes a]
      simp only [Core.nearByte, hget, if_neg (fun h : _ ∧ _ => ha h.2)]
      rfl

/-! ### A write of a core of its own -/

/-- A change of a core that leaves it no error mark leaves its pair none. -/
theorem noMarks_modCore {s : State} {c : CoreId} (h : NoMarks s c) {f : Core → Core}
    (hnear : NearClear (s.core c) → NearClear (f (s.core c)))
    (hacc : (f (s.core c)).accPoison = (s.core c).accPoison ∧ (f (s.core c)).accFlip = (s.core c).accFlip) :
    NoMarks (s.modCore c f) c := by
  intro d hd
  obtain ⟨hp, hf, hap, haf⟩ := h d hd
  rw [core_modCore_eq]
  by_cases hdc : d = c
  · subst hdc
    obtain ⟨hp', hf'⟩ := hnear ⟨hp, hf⟩
    rw [if_pos rfl]
    exact ⟨hp', hf', hacc.1.trans hap, hacc.2.trans haf⟩
  · rw [if_neg hdc]
    exact ⟨hp, hf, hap, haf⟩

theorem nearClear_of_noMarks {s : State} {c : CoreId} (h : NoMarks s c) : NearClear (s.core c) := by
  obtain ⟨hp, hf, _⟩ := h c List.mem_cons_self
  exact ⟨hp, hf⟩

/-- A checker without error marks takes no part in a write of its lead (R179, R386). -/
theorem nearPutChecker_clear {s : State} {c : CoreId} (h : NoMarks s c) (off : Nat) (bs : List Byte) :
    s.nearPutChecker c off bs = (s, []) := by
  unfold State.nearPutChecker
  split
  · rfl
  · next d hd =>
    obtain ⟨hp, hf, _⟩ := h d (List.mem_cons_of_mem c (by rw [hd]; exact List.mem_singleton_self d))
    rw [if_pos ⟨hp, hf⟩]

/-- A write that meets no error mark is a write of the core alone (R179). -/
theorem nearPut_clear {s : State} {c : CoreId} (h : NoMarks s c) (ok : CoreOk (s.core c)) (off : Nat) (bs : List Byte) :
    s.nearPut c off bs = s.modCore c (fun k => (k.nearWrite off bs).1) := by
  have hclear := nearClear_of_noMarks h
  obtain ⟨hrefused, _, _⟩ := nearWrite_spec hclear ok off bs
  have hmerges : (s.core c).nearMerges off bs = 0 := by
    rw [Core.nearMerges, Core.nearFlips, hclear.2]
    rfl
  simp only [State.nearPut, nearPutChecker_clear h, hrefused, hmerges, List.map_nil, List.append_nil, State.eccFixed, if_true]
  exact modCore_congr rfl

/-! ### The pieces of a store -/

/-- A piece of a store lands: its bytes, and with SET the tags of its slots (R168). -/
def Core.landPiece (set : Bool) (k : Core) (w : Nat × List Byte) : Core :=
  if set then (k.nearWrite w.1 w.2).1.setTags (w.1, w.2.length) else (k.nearWrite w.1 w.2).1

/-- The full tags after SET filled the slots of a span (R168). -/
theorem slotFull_setTags {k : Core} (ok : CoreOk k) (sp : Span) (n : Nat) :
    (k.setTags sp).slotFull n = (k.slotFull n || decide (n ∈ slotsOf sp)) := by
  have hget := Tab.get_foldl_set (d := false) (fun n => n) (fun _ => true) (fun _ => true) (xs := slotsOf sp) (fun _ _ => rfl) ok.tags n
  rw [List.map_id'] at hget
  simp only [Core.slotFull, Core.setTags, hget]
  by_cases hn : n ∈ slotsOf sp
  · simp [hn]
  · simp [hn]

/-- A piece that lands stores exactly its bytes, and fills its slots where the store sets tags (R167, R168). -/
theorem landPiece_spec {k : Core} (hk : NearClear k) (ok : CoreOk k) (set : Bool) (w : Nat × List Byte) :
    Stored k (k.landPiece set w) (fun a => w.1 ≤ a ∧ a < w.1 + w.2.length) (fun a => w.2.getD (a - w.1) 0) ∧
      ∀ n, (k.landPiece set w).slotFull n = (k.slotFull n || (set && decide (n ∈ slotsOf (w.1, w.2.length)))) := by
  obtain ⟨_, htags, honly, hok, hstored, hkept⟩ := nearWrite_spec hk ok w.1 w.2
  have hfull : ∀ n, (k.nearWrite w.1 w.2).1.slotFull n = k.slotFull n := fun n => by rw [Core.slotFull, htags, Core.slotFull]
  unfold Core.landPiece
  cases set with
  | false => exact ⟨⟨honly, hok, hstored, hkept⟩, fun n => by simp [hfull]⟩
  | true =>
    refine ⟨⟨honly.trans ⟨_, _, _, rfl⟩, coreOk_setTags _ hok, hstored, hkept⟩, fun n => ?_⟩
    rw [if_pos rfl, slotFull_setTags hok, hfull, Bool.true_and]

/-- Pieces of one store land: together they put the store's bytes where they lie and fill their slots (R167, R168). -/
theorem landPieces_spec {k : Core} (hk : NearClear k) (ok : CoreOk k) (set : Bool) (g : Nat → Byte) (ws : List (Nat × List Byte))
    (hg : ∀ w ∈ ws, ∀ a, w.1 ≤ a ∧ a < w.1 + w.2.length → w.2.getD (a - w.1) 0 = g a) :
    Stored k (ws.foldl (Core.landPiece set) k) (fun a => ∃ w ∈ ws, w.1 ≤ a ∧ a < w.1 + w.2.length) g ∧
      ∀ n, (ws.foldl (Core.landPiece set) k).slotFull n =
        (k.slotFull n || (set && decide (∃ w ∈ ws, n ∈ slotsOf (w.1, w.2.length)))) := by
  induction ws generalizing k with
  | nil => exact ⟨⟨.refl k, ok, fun a ha => by simp at ha, fun a _ => rfl⟩, fun n => by simp⟩
  | cons w ws ih =>
    obtain ⟨hw, hws⟩ := List.forall_mem_cons.mp hg
    obtain ⟨⟨honly, hok, hstored, hkept⟩, hfull⟩ := landPiece_spec hk ok set w
    obtain ⟨⟨ionly, iok, istored, ikept⟩, ifull⟩ := ih (honly.clear hk) hok hws
    refine ⟨⟨honly.trans ionly, iok, fun a ha => ?_, fun a ha => ?_⟩, fun n => ?_⟩
    · by_cases hlater : ∃ w ∈ ws, w.1 ≤ a ∧ a < w.1 + w.2.length
      · exact istored a hlater
      · have hfirst := ((List.exists_mem_cons_iff _ _ _).mp ha).resolve_right hlater
        exact (ikept a hlater).trans ((hstored a hfirst).trans (hw a hfirst))
    · rw [List.exists_mem_cons_iff, not_or] at ha
      exact (ikept a ha.2).trans (hkept a ha.1)
    · rw [List.foldl_cons, ifull, hfull]
      simp only [List.exists_mem_cons_iff, Bool.decide_or]
      cases set <;> simp [Bool.or_assoc]

/-- Whether earlier reads let a write begin does not depend on what near scratch holds (R163). -/
theorem NearOnly.warFree {k l : Core} (h : NearOnly k l) (seq : Nat) (xs : List Span) : l.warFree seq xs = k.warFree seq xs := by
  obtain ⟨_, _, _, rfl⟩ := h
  rfl

/-- The pieces of a store, in different slots that are free for them, all land, one after the other (R163, R168). -/
theorem landPuts_all {c : CoreId} (seq : Nat) (set : Bool) (ws : List (Nat × List Byte)) {s : State} (ent : List Nat) (h : NoMarks s c)
    (ok : CoreOk (s.core c)) (hone : ∀ w ∈ ws, slotsOf (w.1, w.2.length) = [w.1 / 1024])
    (hfree : ∀ w ∈ ws, (s.core c).warFree seq [(w.1, w.2.length)] = true)
    (hready : ∀ w ∈ ws, set = true → (s.core c).slotFull (w.1 / 1024) = false)
    (hapart : ws.Pairwise (fun v w => v.1 / 1024 ≠ w.1 / 1024)) :
    ∃ ent', s.landPuts c seq set ws ent = (s.modCore c (fun k => ws.foldl (Core.landPiece set) k), ⟨[], ent'⟩) := by
  induction ws generalizing s ent with
  | nil => exact ⟨ent, by rw [State.landPuts]; exact congrArg (·, _) (modCore_id s c).symm⟩
  | cons w ws ih =>
    obtain ⟨hfirst, hlater⟩ := List.pairwise_cons.mp hapart
    have hclear := nearClear_of_noMarks h
    obtain ⟨⟨honly, hok, _, _⟩, hfull⟩ := landPiece_spec hclear ok set w
    have hgo : ¬ (w.1 / 1024 ∉ ent ∧ ((!(s.core c).warFree seq [(w.1, w.2.length)]) = true ∨
        (set = true ∧ (s.core c).slotFull (w.1 / 1024) = true))) := by
      rintro ⟨-, hwar | ⟨hset, htag⟩⟩
      · simp [hfree w List.mem_cons_self] at hwar
      · simp [hready w List.mem_cons_self hset] at htag
    have hlast : ws.any (fun x => decide (x.1 / 1024 = w.1 / 1024)) = false :=
      List.any_eq_false.mpr fun x hx => by simpa using (hfirst x hx).symm
    have hput : (if set && !(ws.any (fun x => decide (x.1 / 1024 = w.1 / 1024))) then
        (s.nearPut c w.1 w.2).modCore c (fun k => k.setTags (w.1, w.2.length)) else s.nearPut c w.1 w.2) =
        s.modCore c (fun k => k.landPiece set w) := by
      rw [nearPut_clear h ok, hlast]
      cases set with
      | false => rfl
      | true => exact modCore_modCore _ _ _ _
    obtain ⟨ent', hrest⟩ := ih (s := s.modCore c (fun k => k.landPiece set w)) (w.1 / 1024 :: ent)
      (noMarks_modCore h honly.clear (by obtain ⟨_, _, _, e⟩ := honly; rw [e]; exact ⟨rfl, rfl⟩)) (by rw [core_modCore]; exact hok)
      (fun v hv => hone v (List.mem_cons_of_mem w hv))
      (fun v hv => by rw [core_modCore, honly.warFree]; exact hfree v (List.mem_cons_of_mem w hv))
      (fun v hv hset => by
        rw [core_modCore, hfull, hready v (List.mem_cons_of_mem w hv) hset, hone w List.mem_cons_self]
        simpa using fun _ => (hfirst v hv).symm)
      hlater
    refine ⟨ent', ?_⟩
    rw [State.landPuts]
    simp only [if_neg hgo, hput, hrest, modCore_modCore, List.foldl_cons]

/-! ### The landing -/

/-- The pieces of a store in the slots that it touches. -/
def storePieces (off : Nat) (bs : List Byte) : List (Nat × List Byte) :=
  (slotSpans (off, bs.length)).map (fun y => (y.1, (bs.drop (y.1 - off)).take y.2))

theorem todo_start_single (off : Nat) (bs : List Byte) : (Puts.start [(off, bs)]).todo = storePieces off bs := by
  simp [Puts.start, storePieces]

/-- A piece of a store: the bytes of the store over one slot piece of its span. -/
theorem of_mem_storePieces {off : Nat} {bs : List Byte} {w : Nat × List Byte} (h : w ∈ storePieces off bs) :
    SlotPiece (off, bs.length) (w.1, w.2.length) ∧ (w.1, w.2.length) ∈ slotSpans (off, bs.length) ∧
      ∀ a, w.1 ≤ a ∧ a < w.1 + w.2.length → w.2.getD (a - w.1) 0 = bs.getD (a - off) 0 := by
  obtain ⟨y, hy, rfl⟩ := List.mem_map.mp h
  obtain ⟨_, hlow, hhigh, _⟩ := slotPiece_of_mem hy
  simp only at hlow hhigh
  have hlen : ((bs.drop (y.1 - off)).take y.2).length = y.2 := by
    rw [List.length_take, List.length_drop]
    omega
  simp only [hlen]
  refine ⟨slotPiece_of_mem hy, hy, fun a ha => ?_⟩
  simp only [List.getD_eq_getElem?_getD]
  rw [List.getElem?_take_of_lt (by omega), List.getElem?_drop, show y.1 - off + (a - y.1) = a - off by omega]

theorem mem_storePieces_of_span {off : Nat} {bs : List Byte} {y : Span} (h : y ∈ slotSpans (off, bs.length)) :
    ∃ w ∈ storePieces off bs, (w.1, w.2.length) = y := by
  obtain ⟨_, hlow, hhigh, _⟩ := slotPiece_of_mem h
  simp only at hlow hhigh
  refine ⟨_, List.mem_map_of_mem h, Prod.ext rfl ?_⟩
  simp only [List.length_take, List.length_drop]
  omega

/-- The pieces of a store cover its bytes and no others. -/
theorem covered_by_storePieces (off : Nat) (bs : List Byte) (a : Nat) :
    (∃ w ∈ storePieces off bs, w.1 ≤ a ∧ a < w.1 + w.2.length) ↔ off ≤ a ∧ a < off + bs.length := by
  constructor
  · rintro ⟨w, hw, hlo, hhi⟩
    obtain ⟨⟨_, hlow, hhigh, _⟩, -, -⟩ := of_mem_storePieces hw
    simp only at hlow hhigh
    omega
  · rintro ⟨hlo, hhi⟩
    obtain ⟨y, hy, hya, hay, -⟩ := exists_slotPiece (sp := (off, bs.length)) hlo hhi
    obtain ⟨w, hw, rfl⟩ := mem_storePieces_of_span hy
    exact ⟨w, hw, hya, hay⟩

/-- The pieces of a store lie in its slots, one in each. -/
theorem slot_of_storePieces (off : Nat) (bs : List Byte) (n : Nat) :
    (∃ w ∈ storePieces off bs, n ∈ slotsOf (w.1, w.2.length)) ↔ n ∈ slotsOf (off, bs.length) := by
  constructor
  · rintro ⟨w, hw, hn⟩
    have hpiece := (of_mem_storePieces hw).1
    rw [hpiece.slotsOf_eq, List.mem_singleton] at hn
    exact hn ▸ hpiece.slot_mem
  · intro hn
    obtain ⟨y, hy, hslot⟩ := exists_slotPiece_of_slot hn
    obtain ⟨w, hw, rfl⟩ := mem_storePieces_of_span hy
    exact ⟨w, hw, by rw [(of_mem_storePieces hw).1.slotsOf_eq, ← hslot]; exact List.mem_singleton_self _⟩

/-- A store whose slots it may write may land a piece in each of them (R163, R168). -/
theorem piece_of_mayWrite {k : Core} {seq off : Nat} {bs : List Byte} {set : Bool} (h : k.mayWrite seq [(off, bs)] set = true)
    {w : Nat × List Byte} (hw : w ∈ storePieces off bs) :
    k.warFree seq [(w.1, w.2.length)] = true ∧ (set = true → k.slotFull (w.1 / 1024) = false) := by
  obtain ⟨hpiece, -, -⟩ := of_mem_storePieces hw
  have hslot := hpiece.slot_mem
  obtain ⟨hsome, hlow, hhigh, _⟩ := hpiece
  simp only [Core.mayWrite, List.map_cons, List.map_nil, List.all_cons, List.all_nil, Bool.and_true, Bool.and_eq_true, Bool.or_eq_true,
    Bool.not_eq_true'] at h
  obtain ⟨hwar, htags⟩ := h
  refine ⟨?_, fun hset => ?_⟩
  · simp only [Core.warFree, List.all_cons, List.all_nil, Bool.and_true, List.all_eq_true, Bool.not_eq_true'] at hwar ⊢
    intro r hr
    have hfar := hwar r hr
    simp only [shareSlot, Bool.and_eq_false_iff, decide_eq_false_iff_not] at hfar ⊢
    simp only at hsome hlow hhigh
    omega
  · have hset' : k.setReady (off, bs.length) = true := htags.resolve_left (by rw [hset]; decide)
    simpa using List.all_eq_true.mp hset' _ hslot

/-- A store whose slots it may write may write any of its pieces (R163, R168). -/
theorem mayWrite_pieces {k : Core} {seq off : Nat} {bs : List Byte} {set : Bool} (h : k.mayWrite seq [(off, bs)] set = true)
    {ws : List (Nat × List Byte)} (hws : ∀ w ∈ ws, w ∈ storePieces off bs) : k.mayWrite seq ws set = true := by
  simp only [Core.mayWrite, Core.warFree, List.all_map, Bool.and_eq_true, Bool.or_eq_true, Bool.not_eq_true', List.all_eq_true]
  refine ⟨fun w hw => ?_, or_iff_not_imp_left.mpr fun hset w hw => ?_⟩
  · have hwar := (piece_of_mayWrite h (hws w hw)).1
    simpa [Core.warFree] using hwar
  · have hready := (piece_of_mayWrite h (hws w hw)).2 (by simpa using hset)
    have hslots := (of_mem_storePieces (hws w hw)).1.slotsOf_eq
    simp only at hslots
    simp [Core.setReady, hslots, hready]

/-- A store at the head of the pipeline lands whole where its slots let it (R134, R163, R167, R168). -/
theorem landVec_store {s : State} {c : CoreId} {f : VecFlight} {off : Nat} {bs : List Byte} {set : Bool} (ok : CoreOk (s.core c))
    (hq : (s.core c).vecQ = [f]) (hf : f.eff = .store off bs set) (hmay : (s.core c).mayWrite f.seq [(off, bs)] set = true)
    (hmarks : NoMarks s c) :
    s.landVec c = s.modCore c (fun k => { (storePieces off bs).foldl (Core.landPiece set) k with vecQ := [] }) := by
  have hone : ∀ w ∈ storePieces off bs, slotsOf (w.1, w.2.length) = [w.1 / 1024] := fun w hw => (of_mem_storePieces hw).1.slotsOf_eq
  have hapart : (storePieces off bs).Pairwise (fun v w => v.1 / 1024 ≠ w.1 / 1024) :=
    List.pairwise_map.mpr (slotSpans_pairwise (off, bs.length))
  have hlands : (s.core c).vecMayLand f = true := by
    have hpiece := mayWrite_pieces hmay (ws := (storePieces off bs).take 1) fun w hw => List.mem_of_mem_take hw
    simp only [Core.vecMayLand, hf, todo_start_single, hpiece, hq]
    simp [hf]
  obtain ⟨ent', hputs⟩ := landPuts_all f.seq set (storePieces off bs) [] hmarks ok hone (fun w hw => (piece_of_mayWrite hmay hw).1)
    (fun w hw => (piece_of_mayWrite hmay hw).2) hapart
  obtain ⟨⟨honly, _⟩, _⟩ := landPieces_spec (nearClear_of_noMarks hmarks) ok set (fun a => bs.getD (a - off) 0) (storePieces off bs)
    (fun w hw => (of_mem_storePieces hw).2.2)
  have hqueue : ((storePieces off bs).foldl (Core.landPiece set) (s.core c)).vecQ = [f] := by
    obtain ⟨_, _, _, e⟩ := honly
    rw [e]
    exact hq
  simp only [State.landVec, hq, List.find?_cons, hlands, hf, todo_start_single, hputs, modCore_modCore]
  refine modCore_congr ?_
  rw [hqueue]
  simp

/-- Register results alone in the pipeline that may land are written (R134). -/
theorem landVec_regs {s : State} {c : CoreId} {f : VecFlight} {ws : List (VReg × Lanes)} (hq : (s.core c).vecQ = [f])
    (hmay : (s.core c).vecMayLand f = true) (hf : f.eff = .regs ws) :
    s.landVec c = s.modCore c (fun k => ws.foldl (fun (k : Core) w => k.setV w.1.val w.2) { k with vecQ := [] }) := by
  simp only [State.landVec, hq, List.find?_cons, hmay, hf, List.erase_cons_head]
  exact modCore_congr rfl

/-- A scalar result alone in the pipeline that may land is written (R134, R135). -/
theorem landVec_scalar {s : State} {c : CoreId} {f : VecFlight} {d : SReg} {x : DWord} (hq : (s.core c).vecQ = [f])
    (hmay : (s.core c).vecMayLand f = true) (hf : f.eff = .scalar d x) :
    s.landVec c = s.modCore c (fun k => ({ k with vecQ := [] } : Core).setS d x) := by
  simp only [State.landVec, hq, List.find?_cons, hmay, hf, List.erase_cons_head]
  exact modCore_congr rfl

/-- A vector register written by its number. -/
theorem setV_register (k : Core) (d : VReg) (l : Lanes) : k.setV d.val l = { k with v := k.v.set d.val l d.isLt } := by
  simp only [Core.setV, Nat.mod_eq_of_lt d.isLt]

/-- Settles O23: register results at once, a store piece by piece (`landVec_store`, `landPieces_spec`). -/
theorem vectorOperationsLand : Obligations.vector_operations_land := by
  unfold Obligations.vector_operations_land
  refine ⟨fun s c f hq hmay => ⟨fun d l hf => ?_, fun d y hf => ?_⟩, fun s c f off bs set ok hq hf hmay hmarks => ?_⟩
  · rw [exec_vectorOperationLanded]
    exact ⟨_, congrArg Host.Outcome.next (landVec_regs hq hmay hf), othersSame_modCore (othersSame_refl s c) _,
      (core_modCore _ _ _).trans (setV_register _ d l)⟩
  · rw [exec_vectorOperationLanded]
    exact ⟨_, congrArg Host.Outcome.next (landVec_scalar hq hmay hf), othersSame_modCore (othersSame_refl s c) _, core_modCore _ _ _⟩
  · obtain ⟨⟨honly, _, hstored, hkept⟩, hfull⟩ := landPieces_spec (nearClear_of_noMarks hmarks) ok set
      (fun a => bs.getD (a - off) 0) (storePieces off bs) (fun w hw => (of_mem_storePieces hw).2.2)
    obtain ⟨_, _, _, e⟩ := honly
    rw [exec_vectorOperationLanded]
    refine ⟨_, congrArg Host.Outcome.next (landVec_store ok hq hf hmay hmarks), othersSame_modCore (othersSame_refl s c) _, ?_⟩
    rw [core_modCore]
    refine ⟨rfl, fun a => ?_, fun n => ?_, (congrArg Core.s e :), (congrArg Core.a e :), (congrArg Core.v e :), (congrArg Core.acc e :)⟩
    · split
      · next ha => exact hstored a ((covered_by_storePieces off bs a).mpr ha)
      · next ha => exact hkept a (fun h => ha ((covered_by_storePieces off bs a).mp h))
    · refine (hfull n).trans ?_
      simp only [slot_of_storePieces]

end Sys2Proof.Machine

/-!
PROOFS. TAP_LOAD_LANDED (R121, R131, R154, R168): `tap_load_lands`.
-/
namespace Sys2Proof.Machine
open Sys2Proof.Safety

/-! ### Reads that meet no error mark -/

/-- Near scratch without error marks meets none anywhere (R179). -/
theorem unmarked_of_noMarks {s : State} {c : CoreId} (h : NoMarks s c) (xs : List Span) : Unmarked s c xs := by
  intro d hd
  obtain ⟨hp, hf, _⟩ := h d hd
  have hmember : (s.member c d).nearPoison = [] ∧ (s.member c d).nearFlip = [] := by
    unfold State.member
    split
    · next e => exact e ▸ ⟨hp, hf⟩
    · exact ⟨hp, hf⟩
  refine ⟨fun y _ => ?_, ?_⟩
  · rw [Core.nearPoisonIn, hmember.1]
    exact ite_self none
  · rw [Core.nearFlips, hmember.2]
    rfl

/-- The accesses that a read makes now and those that wait are all of them, in order (R168). -/
theorem feedSplit_append (full : Nat → Bool) (ent : List Nat) (xs : List Span) :
    (feedSplit full ent xs).1 ++ (feedSplit full ent xs).2 = xs := by
  induction xs generalizing ent with
  | nil => rfl
  | cons y ys ih =>
    rw [feedSplit]
    split
    · exact congrArg (y :: ·) (ih _)
    · rfl

/-- A load that its tags let read makes all its accesses (R168, R169). -/
theorem feedSplit_of_tapFed {k : Core} {f : TapFlight} (h : tapFed k f = true) :
    feedSplit k.slotFull f.feed.ent f.feed.todo = (f.feed.todo, []) := by
  have hrest : (feedSplit k.slotFull f.feed.ent f.feed.todo).2 = [] := List.isEmpty_iff.mp h
  have happend := feedSplit_append k.slotFull f.feed.ent f.feed.todo
  rw [hrest, List.append_nil] at happend
  exact Prod.ext happend hrest

/-- The feed of a load that made all its accesses. -/
theorem fed_of_tapFed {k : Core} {f : TapFlight} (h : tapFed k f = true) : k.fed f.feed =
    ⟨[], f.feed.cap ++ f.feed.todo.map (fun y => (y.1, k.nearRead y.1 y.2)), f.feed.ent ++ f.feed.todo.map (fun y => y.1 / 1024)⟩ := by
  rw [Core.fed, feedSplit_of_tapFed h]

/-- A TAKE read changes tags alone (R168). -/
theorem takeTags_eq (k : Core) (tag : ReadTag) (xs : List Span) : ∃ tags, k.takeTags tag xs = { k with fullTag := tags } := by
  cases tag with
  | free | wait => exact ⟨k.fullTag, rfl⟩
  | take => exact ⟨_, rfl⟩

/-! ### The load at its landing -/

/-- The load with all its data, as it stands when it lands: a tagged read has nothing left to read. -/
def TapFlight.fedBy (f : TapFlight) (k : Core) : TapFlight :=
  { f with feed := k.fed f.feed, reads := if f.feed.todo = [] then f.reads else [] }

/-- The core in which a fed load of address generator A lands: the load has all its data, its tags are taken. -/
def Core.tapReady (tags : Tab Bool) (f : TapFlight) (k : Core) : Core := { k with fullTag := tags, tapQ := [f.fedBy k] }

/-- That core when the load has left its queue. -/
def Core.tapTaken (tags : Tab Bool) (k : Core) : Core := { k with fullTag := tags, tapQ := [] }

/-- The oldest load of address generator A, fed, reads all it still has to read; only tags change (R168, R169). -/
theorem feedTap_fed {s : State} {c : CoreId} {f : TapFlight} (hq : (s.core c).tapQ = [f]) (hp : (s.core c).passQ = [])
    (hfed : tapFed (s.core c) f = true) (hmarks : NoMarks s c) :
    ∃ tags, s.feedTap c = s.modCore c (Core.tapReady tags f) := by
  have hsplit := feedSplit_of_tapFed hfed
  have hread := fed_of_tapFed hfed
  unfold State.feedTap
  simp only [hq, hp, List.any_nil, Bool.false_eq_true, if_false, State.goFeed, hsplit]
  split
  · next htodo =>
    have hsame : f.fedBy (s.core c) = f := by
      rw [TapFlight.fedBy, if_pos htodo, hread]
      obtain ⟨seq, kind, win, reads, tag, todo, cap, ent⟩ := f
      simp only at htodo
      simp [htodo]
    refine ⟨(s.core c).fullTag, (modCore_id s c).symm.trans (modCore_congr ?_)⟩
    rw [Core.tapReady, hsame, ← hq]
    rfl
  · next htodo =>
    obtain ⟨tags, htags⟩ := takeTags_eq (s.core c) f.tag f.feed.todo
    refine ⟨tags, (withNear_unmarked (unmarked_of_noMarks hmarks _) _).trans (modCore_congr ?_)⟩
    simp only [htags, hq, hread, Core.tapReady, TapFlight.fedBy, if_neg htodo]

/-- What a load delivers leaves the passes queued. -/
theorem deliverTap_passQ (k : Core) (f : TapFlight) (read : Core) : (k.deliverTap f read).passQ = k.passQ := by
  unfold Core.deliverTap
  split
  · rfl
  · split <;> rfl

/-- A load alone in its core waits for no older write and for no pass (R131, R134). -/
theorem tapBlocked_alone {k : Core} (f : TapFlight) (hp : k.passQ = []) (hr : k.readQ = []) (hm : k.mvQ = []) (hv : k.vecQ = [])
    (ht : k.tapQ = []) : k.tapBlocked f = false := by
  unfold Core.tapBlocked
  split
  · have hwrites : k.vecWrites = [] := by simp [Core.vecWrites, hp, hr, hm, hv, ht]
    rw [Core.olderV, hwrites]
    rfl
  · rw [hm]
    rfl

/-- A fed load of address generator A, alone in its core, delivers what it read (R131, R134, R154). -/
theorem landTap_fed {s : State} {c : CoreId} {f : TapFlight} (hq : (s.core c).tapQ = [f]) (hp : (s.core c).passQ = [])
    (hr : (s.core c).readQ = []) (hm : (s.core c).mvQ = []) (hv : (s.core c).vecQ = []) (hfed : tapFed (s.core c) f = true)
    (hmarks : NoMarks s c) :
    ∃ tags, s.landTap c = s.modCore c (fun k => (k.tapTaken tags).deliverTap (f.fedBy k)
      ((k.tapReady tags f).withCap (k.fed f.feed))) := by
  obtain ⟨tags, hfeed⟩ := feedTap_fed hq hp hfed hmarks
  have hready : tapFed ((s.core c).tapReady tags f) (f.fedBy (s.core c)) = true := by
    have hdone : (f.fedBy (s.core c)).feed.todo = [] := congrArg Feed.todo (fed_of_tapFed hfed)
    rw [tapFed, Core.feedRest, hdone]
    rfl
  have hfree : ((s.core c).tapTaken tags).tapBlocked (f.fedBy (s.core c)) = false := tapBlocked_alone _ hp hr hm hv rfl
  have hgo : (((s.core c).tapTaken tags).tapBlocked (f.fedBy (s.core c)) ||
      !tapFed ((s.core c).tapReady tags f) (f.fedBy (s.core c)) ||
      (s.core c).passQ.any (fun p => decide (p.seq < f.seq) && !p.started)) = false := by
    rw [hfree, hready, hp]
    rfl
  have hunmarked : Unmarked (s.modCore c (Core.tapReady tags f)) c (f.fedBy (s.core c)).reads :=
    unmarked_of_noMarks (noMarks_modCore hmarks id ⟨rfl, rfl⟩) _
  have hqueue : ((s.core c).tapReady tags f).tapQ = [f.fedBy (s.core c)] := rfl
  refine ⟨tags, ?_⟩
  unfold State.landTap
  simp only [settleAga_none s c hp, hfeed, core_modCore, hqueue]
  refine (if_neg (ne_true_of_eq_false hgo)).trans ((withNear_unmarked hunmarked _).trans ?_)
  rw [settleAga_none, modCore_modCore]
  · exact modCore_congr rfl
  · rw [core_modCore, deliverTap_passQ, core_modCore]
    exact hp

/-! ### Near scratch as a load reads it that has read part of its bytes already (R168) -/

/-- What a table gives at a key that lies in its newer part. -/
theorem Tab.get_append_of_mem {β : Type} {d v : β} {xs : Tab β} {k : Nat} (hv : ∀ y ∈ xs, y.1 = k → y.2 = v)
    (hk : ∃ y ∈ xs, y.1 = k) (t : Tab β) : Tab.get d (xs ++ t) k = v := by
  induction xs with
  | nil => simp at hk
  | cons x xs ih =>
    obtain ⟨hx, hxs⟩ := List.forall_mem_cons.mp hv
    rw [List.cons_append, Tab.get]
    by_cases h : x.1 = k
    · rw [if_pos h.symm, hx h]
    · rw [if_neg (Ne.symm h)]
      exact ih hxs (by simpa [h] using hk)

theorem withCap_near (k : Core) (fd : Feed) :
    (k.withCap fd).near = fd.cap.flatMap (fun x => x.2.zipIdx.map (fun b => (x.1 + b.2, b.1))) ++ k.near := by
  unfold Core.withCap
  split <;> simp [*]

theorem withCap_written (k : Core) (fd : Feed) :
    (k.withCap fd).written = fd.cap.map (fun x => (x.1 / 1024, true)) ++ k.written := by
  unfold Core.withCap
  split <;> simp [*]

theorem length_nearRead (k : Core) (off len : Nat) : (k.nearRead off len).length = len := by simp [Core.nearRead]

theorem getElem?_nearRead (k : Core) (off : Nat) {len i : Nat} (hi : i < len) : (k.nearRead off len)[i]? = some (k.nearByte (off + i)) := by
  simp [Core.nearRead, hi]

/-- A byte of the pieces that were read is the byte that near scratch holds. -/
theorem nearByte_withCap {k : Core} {fd : Feed} {xs : List Span} (hcap : fd.cap = xs.map (fun y => (y.1, k.nearRead y.1 y.2)))
    {a : Nat} (ha : ∃ y ∈ xs, y.1 ≤ a ∧ a < y.1 + y.2 ∧ y.1 / 1024 = a / 1024) : (k.withCap fd).nearByte a = k.nearByte a := by
  obtain ⟨y, hy, hlo, hhi, hslot⟩ := ha
  have hwritten : (k.withCap fd).slotWritten (a / 1024) = true := by
    rw [Core.slotWritten, withCap_written, hcap]
    refine Tab.get_append_of_mem ?_ ⟨(y.1 / 1024, true), ?_, hslot⟩ _
    · simp
    · exact List.mem_map.mpr ⟨_, List.mem_map_of_mem hy, rfl⟩
  rw [Core.nearByte, if_pos hwritten, withCap_near, hcap]
  refine Tab.get_append_of_mem ?_ ?_ _
  · intro z hz hza
    simp only [List.mem_flatMap, List.mem_map] at hz
    obtain ⟨_, ⟨w, _, rfl⟩, b, hb, rfl⟩ := hz
    have hget := List.mem_zipIdx_iff_getElem?.mp hb
    obtain ⟨hlt, _⟩ := List.getElem?_eq_some_iff.mp hget
    rw [length_nearRead] at hlt
    rw [getElem?_nearRead _ _ hlt] at hget
    exact (Option.some.inj hget).symm.trans (congrArg k.nearByte hza)
  · have hread : (k.nearRead y.1 y.2)[a - y.1]? = some (k.nearByte a) := by
      rw [getElem?_nearRead _ _ (by omega), Nat.add_sub_cancel' hlo]
    have hmem : (k.nearByte a, a - y.1) ∈ (k.nearRead y.1 y.2).zipIdx := List.mem_zipIdx_iff_getElem?.mpr hread
    exact ⟨_, List.mem_flatMap.mpr ⟨_, List.mem_map_of_mem hy, List.mem_map.mpr ⟨_, hmem, rfl⟩⟩, Nat.add_sub_cancel' hlo⟩

/-! ### A row of the activation store (R121) -/

/-- A write to a row of the activation store changes its bytes alone. -/
theorem storeWrite_get {k : Core} {v off : Nat} {bs : List Byte} (hwf : Tab.wf 0 k.store = true) (hend : off + bs.length ≤ 16384)
    (r : Nat) {i : Nat} (hi : i < 16384) : Tab.get 0 (k.storeWrite v off bs).store (storeKey r i) =
      if r = v ∧ off ≤ i ∧ i < off + bs.length then bs.getD (i - off) 0 else Tab.get 0 k.store (storeKey r i) := by
  have hvalue : ∀ x ∈ bs.zipIdx, x.1 = bs.getD (storeKey v (off + x.2) - storeKey v off) 0 := by
    intro x hx
    have hoff : storeKey v (off + x.2) - storeKey v off = x.2 := by unfold storeKey; omega
    rw [hoff, List.getD_eq_getElem?_getD, List.mem_zipIdx_iff_getElem?.mp hx, Option.getD_some]
  have hkey : storeKey r i ∈ bs.zipIdx.map (fun x => storeKey v (off + x.2)) ↔ r = v ∧ off ≤ i ∧ i < off + bs.length := by
    unfold storeKey
    constructor
    · rintro h
      obtain ⟨x, hx, hxi⟩ := List.mem_map.mp h
      obtain ⟨hlt, _⟩ := List.getElem?_eq_some_iff.mp (List.mem_zipIdx_iff_getElem?.mp hx)
      omega
    · rintro ⟨rfl, hlo, hhi⟩
      have hmem : (bs[i - off], i - off) ∈ bs.zipIdx := List.mem_zipIdx_iff_getElem?.mpr (List.getElem?_eq_getElem (by omega))
      exact List.mem_map.mpr ⟨_, hmem, by simp only; omega⟩
  rw [Core.storeWrite]
  refine (Tab.get_foldl_set _ _ (fun q => bs.getD (q - storeKey v off) 0) hvalue hwf _).trans ?_
  by_cases h : r = v ∧ off ≤ i ∧ i < off + bs.length
  · rw [if_pos h, if_pos (hkey.mpr h), h.1]
    congr 1
    unfold storeKey
    omega
  · rw [if_neg h, if_neg (hkey.not.mpr h)]

/-! ### The obligation -/

/-- A store load before its first access has read nothing; it reads pieces of its span, or all of it where it lands (R168). -/
theorem feed_start_single (tag : ReadTag) (sp : Span) : (Feed.start tag [sp]).cap = [] ∧
    ((Feed.start tag [sp]).todo = [] ∨ (Feed.start tag [sp]).todo = slotSpans sp) := by
  cases tag <;> simp [Feed.start]

/-- The pieces of a span begin at its address. -/
theorem head_slotSpans {sp : Span} (h : slotSpans sp ≠ []) : ∃ rest, (slotSpans sp).map (·.1) = sp.1 :: rest := by
  have hsome : sp.2 ≠ 0 := fun h0 => h (by simp [slotSpans, slotsOf, h0])
  have hbase : max sp.1 (sp.1 / 1024 * 1024) = sp.1 := by omega
  simp [slotSpans, slotsOf, hsome, List.range_succ_eq_map, hbase]

/-- The tags of the slots and the load at the head of its queue do not matter to what a read returns. -/
theorem nearByte_withCap_tapReady (tags : Tab Bool) (f : TapFlight) (k : Core) (fd : Feed) (a : Nat) :
    ((k.tapReady tags f).withCap fd).nearByte a = (k.withCap fd).nearByte a := by
  unfold Core.withCap
  split <;> rfl

/-- Equal bytes make equal reads. -/
theorem nearRead_congr {k l : Core} {off len : Nat} (h : ∀ i < len, k.nearByte (off + i) = l.nearByte (off + i)) :
    k.nearRead off len = l.nearRead off len :=
  List.map_congr_left fun i hi => h i (List.mem_range.mp hi)

/-- A fed store load finds the address of its span, and the bytes of near scratch there. -/
theorem stld_reads {k : Core} {f : TapFlight} {sp : Span} (hreads : f.reads = [sp]) (hstart : f.feed = Feed.start f.tag f.reads)
    (hfed : tapFed k f = true) :
    (∃ rest, (f.fedBy k).feed.cap.map (·.1) ++ (f.fedBy k).reads.map (·.1) = sp.1 :: rest) ∧
    (k.withCap (k.fed f.feed)).nearRead sp.1 sp.2 = k.nearRead sp.1 sp.2 := by
  obtain ⟨hcap, htodo⟩ := feed_start_single f.tag sp
  rw [hreads] at hstart
  rw [← hstart] at hcap htodo
  have hread : (k.fed f.feed).cap = f.feed.todo.map (fun y => (y.1, k.nearRead y.1 y.2)) := by
    rw [fed_of_tapFed hfed, hcap, List.nil_append]
  have hheads : (f.fedBy k).feed.cap.map (·.1) = f.feed.todo.map (·.1) := by
    rw [TapFlight.fedBy, hread, List.map_map]
    rfl
  by_cases hnone : f.feed.todo = []
  · refine ⟨⟨[], ?_⟩, ?_⟩
    · rw [hheads, TapFlight.fedBy, hnone, if_pos rfl, hreads]
      rfl
    · rw [hnone, List.map_nil] at hread
      rw [Core.withCap, hread]
  · have hpieces := htodo.resolve_left hnone
    refine ⟨?_, nearRead_congr fun i hi => nearByte_withCap hread ?_⟩
    · rw [hheads, hpieces]
      obtain ⟨rest, hrest⟩ := head_slotSpans (hpieces ▸ hnone)
      exact ⟨_, by rw [hrest, List.cons_append]⟩
    · rw [hpieces]
      exact exists_slotPiece (Nat.le_add_right _ _) (by omega)

/-- What a fed store load delivers: the bytes of near scratch at its address (R154, R168). -/
theorem deliverTap_stld {k : Core} {f : TapFlight} {row : Fin 4} {dst : Nat} {sp : Span} (tags : Tab Bool)
    (hkind : f.kind = .stld row sp.2 dst) (hreads : f.reads = [sp]) (hstart : f.feed = Feed.start f.tag f.reads)
    (hfed : tapFed k f = true) :
    (k.tapTaken tags).deliverTap (f.fedBy k) ((k.tapReady tags f).withCap (k.fed f.feed)) =
      (k.tapTaken tags).storeWrite row.val dst (k.nearRead sp.1 sp.2) := by
  obtain ⟨⟨rest, hhead⟩, hbytes⟩ := stld_reads hreads hstart hfed
  have hkind' : (f.fedBy k).kind = .stld row sp.2 dst := hkind
  have hsame : ((k.tapReady tags f).withCap (k.fed f.feed)).nearRead sp.1 sp.2 = k.nearRead sp.1 sp.2 :=
    (nearRead_congr fun i _ => nearByte_withCap_tapReady tags f k _ (sp.1 + i)).trans hbytes
  simp only [Core.deliverTap, hkind', hhead, hsame]

/-- The lanes of a tap load come from near scratch alone. -/
theorem tapLanes_tapReady (tags : Tab Bool) (f : TapFlight) (k : Core) (fd : Feed) :
    tapLanes ((k.tapReady tags f).withCap fd) = tapLanes (k.withCap fd) := by
  unfold Core.withCap
  split <;> rfl

/-- Settles O27: the load at the head has all its data when it lands; a tap writes its lanes, a store load the bytes at its address. -/
theorem tapLoadLands : Obligations.tap_load_lands := by
  unfold Obligations.tap_load_lands
  intro s c f k read hq hp hr hm hv hfed hmarks
  obtain ⟨tags, hland⟩ := landTap_fed hq hp hr hm hv hfed hmarks
  refine ⟨fun v ad wd base q y0 n c0 pm cb hkind => ?_, fun row len dst sp hkind hreads hlen hstart hwf hend => ?_⟩
  · have hkind' : (f.fedBy (s.core c)).kind = .tap v ad wd base q y0 n c0 pm cb := hkind
    refine ⟨_, congrArg Host.Outcome.next hland, othersSame_modCore (othersSame_refl s c) _, ?_⟩
    simp only [core_modCore, Core.deliverTap, hkind', tapLanes_tapReady, setV_register]
    exact ⟨rfl, rfl, rfl, rfl, rfl⟩
  · subst hlen
    refine ⟨_, congrArg Host.Outcome.next hland, othersSame_modCore (othersSame_refl s c) _, ?_⟩
    rw [core_modCore, deliverTap_stld tags hkind hreads hstart hfed]
    refine ⟨rfl, rfl, rfl, fun r i hi => ?_⟩
    have hlength := length_nearRead k sp.1 sp.2
    rw [storeWrite_get (k := k.tapTaken tags) hwf (by rw [hlength]; exact hend) r.val hi, hlength]
    refine ite_congr (by rw [Fin.val_inj]) (fun hin => ?_) fun _ => rfl
    rw [List.getD_eq_getElem?_getD, getElem?_nearRead _ _ (by omega), Option.getD_some]

end Sys2Proof.Machine

/-!
PROOFS. The invariant of every step: s0 reads 0, near and deep scratch keep their canonical forms (R166, R167, R170, R185).
-/
namespace Sys2Proof.Machine
open Sys2Proof.Safety

/-- Every row but the two that latch the straps and the fuses (R449) keeps what `Keeps` says. -/
theorem exec_keeps_or_latches (i : Instr) (s : State) : KeepsOut s (exec i s) ∨
    (∃ inst master valid fuse, i = .aonReset inst master valid fuse) ∨ ∃ inst master fuse, i = .fuseValidRise inst master fuse :=
  match i with
  | .loop .. => .inl (keeps_execLoop (keeps_refl s))
  | .skipz .. => .inl (keeps_execSkipz (keeps_refl s))
  | .skipnz .. => .inl (keeps_execSkipnz (keeps_refl s))
  | .exitn .. => .inl (keeps_execExitn (keeps_refl s))
  | .call .. => .inl (keeps_execCall (keeps_refl s))
  | .ret .. => .inl (keeps_execRet (keeps_refl s))
  | .wait .. => .inl (keeps_execWait (keeps_refl s))
  | .delay .. => .inl (keeps_execDelay (keeps_refl s))
  | .strip .. => .inl (keeps_execStrip (keeps_refl s))
  | .signal .. => .inl (keeps_execSignal (keeps_refl s))
  | .signalTakesEffect .. => .inl (keeps_execSignalTakesEffect (keeps_refl s))
  | .waitev .. => .inl (keeps_execWaitev (keeps_refl s))
  | .commit .. => .inl (keeps_execCommit (keeps_refl s))
  | .halt .. => .inl (keeps_execHalt (keeps_refl s))
  | .bundleIssueHoldRelease .. => .inl (keeps_execBundleIssueHoldRelease (keeps_refl s))
  | .rows .. => .inl (keeps_execRows (keeps_refl s))
  | .tap .. => .inl (keeps_execTap (keeps_refl s))
  | .stld .. => .inl (keeps_execStld (keeps_refl s))
  | .loadw .. => .inl (keeps_execLoadw (keeps_refl s))
  | .mvstream .. => .inl (keeps_execMvstream (keeps_refl s))
  | .importTile .. => .inl (keeps_execImportTile (keeps_refl s))
  | .dmov .. => .inl (keeps_execDmov (keeps_refl s))
  | .dexp .. => .inl (keeps_execDexp (keeps_refl s))
  | .dmaCommandEnd .. => .inl (keeps_execDmaCommandEnd (keeps_refl s))
  | .pass .. => .inl (keeps_execPass (keeps_refl s))
  | .passResultLanded .. => .inl (keeps_execPassResultLanded (keeps_refl s))
  | .readOut .. => .inl (keeps_execReadOut (keeps_refl s))
  | .mvpass .. => .inl (keeps_execMvpass (keeps_refl s))
  | .mvread .. => .inl (keeps_execMvread (keeps_refl s))
  | .fadd .. => .inl (keeps_execFadd (keeps_refl s))
  | .fsub .. => .inl (keeps_execFsub (keeps_refl s))
  | .fmul .. => .inl (keeps_execFmul (keeps_refl s))
  | .fmad .. => .inl (keeps_execFmad (keeps_refl s))
  | .fmin .. => .inl (keeps_execFmin (keeps_refl s))
  | .fmax .. => .inl (keeps_execFmax (keeps_refl s))
  | .fabs .. => .inl (keeps_execFabs (keeps_refl s))
  | .fneg .. => .inl (keeps_execFneg (keeps_refl s))
  | .fcmplt .. => .inl (keeps_execFcmplt (keeps_refl s))
  | .fcmple .. => .inl (keeps_execFcmple (keeps_refl s))
  | .fcmpeq .. => .inl (keeps_execFcmpeq (keeps_refl s))
  | .sel .. => .inl (keeps_execSel (keeps_refl s))
  | .iadd .. => .inl (keeps_execIadd (keeps_refl s))
  | .isub .. => .inl (keeps_execIsub (keeps_refl s))
  | .imul .. => .inl (keeps_execImul (keeps_refl s))
  | .imin .. => .inl (keeps_execImin (keeps_refl s))
  | .imax .. => .inl (keeps_execImax (keeps_refl s))
  | .icmplt .. => .inl (keeps_execIcmplt (keeps_refl s))
  | .icmpeq .. => .inl (keeps_execIcmpeq (keeps_refl s))
  | .vecAnd .. => .inl (keeps_execVecAnd (keeps_refl s))
  | .vecOr .. => .inl (keeps_execVecOr (keeps_refl s))
  | .vecXor .. => .inl (keeps_execVecXor (keeps_refl s))
  | .vecShl .. => .inl (keeps_execVecShl (keeps_refl s))
  | .vecSra .. => .inl (keeps_execVecSra (keeps_refl s))
  | .cvtif .. => .inl (keeps_execCvtif (keeps_refl s))
  | .cvtfi .. => .inl (keeps_execCvtfi (keeps_refl s))
  | .frnd .. => .inl (keeps_execFrnd (keeps_refl s))
  | .fcexp .. => .inl (keeps_execFcexp (keeps_refl s))
  | .fscalb .. => .inl (keeps_execFscalb (keeps_refl s))
  | .vld .. => .inl (keeps_execVld (keeps_refl s))
  | .vldw .. => .inl (keeps_execVldw (keeps_refl s))
  | .vst .. => .inl (keeps_execVst (keeps_refl s))
  | .vstn .. => .inl (keeps_execVstn (keeps_refl s))
  | .sclw .. => .inl (keeps_execSclw (keeps_refl s))
  | .vbcs .. => .inl (keeps_execVbcs (keeps_refl s))
  | .vext .. => .inl (keeps_execVext (keeps_refl s))
  | .frsum .. => .inl (keeps_execFrsum (keeps_refl s))
  | .frmax .. => .inl (keeps_execFrmax (keeps_refl s))
  | .irsum .. => .inl (keeps_execIrsum (keeps_refl s))
  | .argmax .. => .inl (keeps_execArgmax (keeps_refl s))
  | .topk .. => .inl (keeps_execTopk (keeps_refl s))
  | .curve .. => .inl (keeps_execCurve (keeps_refl s))
  | .add .. => .inl (keeps_execAdd (keeps_refl s))
  | .sub .. => .inl (keeps_execSub (keeps_refl s))
  | .mul .. => .inl (keeps_execMul (keeps_refl s))
  | .sclAnd .. => .inl (keeps_execSclAnd (keeps_refl s))
  | .sclOr .. => .inl (keeps_execSclOr (keeps_refl s))
  | .sclXor .. => .inl (keeps_execSclXor (keeps_refl s))
  | .min .. => .inl (keeps_execMin (keeps_refl s))
  | .max .. => .inl (keeps_execMax (keeps_refl s))
  | .slt .. => .inl (keeps_execSlt (keeps_refl s))
  | .sclShl .. => .inl (keeps_execSclShl (keeps_refl s))
  | .shr .. => .inl (keeps_execShr (keeps_refl s))
  | .sclSra .. => .inl (keeps_execSclSra (keeps_refl s))
  | .addi .. => .inl (keeps_execAddi (keeps_refl s))
  | .ori .. => .inl (keeps_execOri (keeps_refl s))
  | .shli .. => .inl (keeps_execShli (keeps_refl s))
  | .shri .. => .inl (keeps_execShri (keeps_refl s))
  | .movi .. => .inl (keeps_execMovi (keeps_refl s))
  | .amov .. => .inl (keeps_execAmov (keeps_refl s))
  | .aadd .. => .inl (keeps_execAadd (keeps_refl s))
  | .amovi .. => .inl (keeps_execAmovi (keeps_refl s))
  | .smova .. => .inl (keeps_execSmova (keeps_refl s))
  | .rdlc .. => .inl (keeps_execRdlc (keeps_refl s))
  | .setzp .. => .inl (keeps_execSetzp (keeps_refl s))
  | .setos .. => .inl (keeps_execSetos (keeps_refl s))
  | .setinc .. => .inl (keeps_execSetinc (keeps_refl s))
  | .setbind .. => .inl (keeps_execSetbind (keeps_refl s))
  | .tagWaitRelease .. => .inl (keeps_execTagWaitRelease (keeps_refl s))
  | .scrubBeat .. => .inl (keeps_execScrubBeat (keeps_refl s))
  | .sequencerWatchdogExpiry .. => .inl (keeps_execSequencerWatchdogExpiry (keeps_refl s))
  | .wcetOverrun => .inl (keeps_execWcetOverrun (keeps_refl s))
  | .doorbell .. => .inl (keeps_execDoorbell (keeps_refl s))
  | .descriptorFetch .. => .inl (keeps_execDescriptorFetch (keeps_refl s))
  | .accept .. => .inl (keeps_execAccept (keeps_refl s))
  | .dispatch .. => .inl (keeps_execDispatch (keeps_refl s))
  | .tokenTaken .. => .inl (keeps_execTokenTaken (keeps_refl s))
  | .sealedTimeout .. => .inl (keeps_execSealedTimeout (keeps_refl s))
  | .timeSlicePreemption .. => .inl (keeps_execTimeSlicePreemption (keeps_refl s))
  | .runDrained .. => .inl (keeps_execRunDrained (keeps_refl s))
  | .rtDoorbell .. => .inl (keeps_execRtDoorbell (keeps_refl s))
  | .rtStepStart => .inl (keeps_execRtStepStart (keeps_refl s))
  | .enableWrite .. => .inl (keeps_execEnableWrite (keeps_refl s))
  | .kill .. => .inl (keeps_execKill (keeps_refl s))
  | .fetchWrite .. => .inl (keeps_execFetchWrite (keeps_refl s))
  | .coreMaskWrite .. => .inl (keeps_execCoreMaskWrite (keeps_refl s))
  | .windowRecordWrite .. => .inl (keeps_execWindowRecordWrite (keeps_refl s))
  | .load .. => .inl (keeps_execLoad (keeps_refl s))
  | .imageLoadDone .. => .inl (keeps_execImageLoadDone (keeps_refl s))
  | .arm .. => .inl (keeps_execArm (keeps_refl s))
  | .armComplete => .inl (keeps_execArmComplete (keeps_refl s))
  | .disarm .. => .inl (keeps_execDisarm (keeps_refl s))
  | .disarmComplete => .inl (keeps_execDisarmComplete (keeps_refl s))
  | .rtArm .. => .inl (keeps_execRtArm (keeps_refl s))
  | .slotWrite .. => .inl (keeps_execSlotWrite (keeps_refl s))
  | .sessionClear .. => .inl (keeps_execSessionClear (keeps_refl s))
  | .codebookPendingWrite .. => .inl (keeps_execCodebookPendingWrite (keeps_refl s))
  | .codebookSwitch .. => .inl (keeps_execCodebookSwitch (keeps_refl s))
  | .curveSwitch .. => .inl (keeps_execCurveSwitch (keeps_refl s))
  | .qpolicySwitch .. => .inl (keeps_execQpolicySwitch (keeps_refl s))
  | .directorySwitch .. => .inl (keeps_execDirectorySwitch (keeps_refl s))
  | .pendingVersion .. => .inl (keeps_execPendingVersion (keeps_refl s))
  | .residentLoadDone .. => .inl (keeps_execResidentLoadDone (keeps_refl s))
  | .equinox .. => .inl (keeps_execEquinox (keeps_refl s))
  | .deleteSet .. => .inl (keeps_execDeleteSet (keeps_refl s))
  | .cwordWrite .. => .inl (keeps_execCwordWrite (keeps_refl s))
  | .windowStartWrite .. => .inl (keeps_execWindowStartWrite (keeps_refl s))
  | .rootWrite .. => .inl (keeps_execRootWrite (keeps_refl s))
  | .invalidate .. => .inl (keeps_execInvalidate (keeps_refl s))
  | .rtPin .. => .inl (keeps_execRtPin (keeps_refl s))
  | .pageWalkReadReturn .. => .inl (keeps_execPageWalkReadReturn (keeps_refl s))
  | .portReadData .. => .inl (keeps_execPortReadData (keeps_refl s))
  | .portWriteAck .. => .inl (keeps_execPortWriteAck (keeps_refl s))
  | .portFlushDone .. => .inl (keeps_execPortFlushDone (keeps_refl s))
  | .portErrorResponse .. => .inl (keeps_execPortErrorResponse (keeps_refl s))
  | .portTimeout .. => .inl (keeps_execPortTimeout (keeps_refl s))
  | .linkUpFall .. => .inl (keeps_execLinkUpFall (keeps_refl s))
  | .linkUpRise .. => .inl (keeps_execLinkUpRise (keeps_refl s))
  | .settlingExpiry .. => .inl (keeps_execSettlingExpiry (keeps_refl s))
  | .resume .. => .inl (keeps_execResume (keeps_refl s))
  | .attach .. => .inl (keeps_execAttach (keeps_refl s))
  | .linkGroupReceived .. => .inl (keeps_execLinkGroupReceived (keeps_refl s))
  | .linkReplay .. => .inl (keeps_execLinkReplay (keeps_refl s))
  | .idleGroup .. => .inl (keeps_execIdleGroup (keeps_refl s))
  | .linkFailed .. => .inl (keeps_execLinkFailed (keeps_refl s))
  | .phyUpChange .. => .inl (keeps_execPhyUpChange (keeps_refl s))
  | .linkWrite .. => .inl (keeps_execLinkWrite (keeps_refl s))
  | .linkRead .. => .inl (keeps_execLinkRead (keeps_refl s))
  | .linkFlush .. => .inl (keeps_execLinkFlush (keeps_refl s))
  | .chain .. => .inl (keeps_execChain (keeps_refl s))
  | .rdata .. => .inl (keeps_execRdata (keeps_refl s))
  | .flushDone .. => .inl (keeps_execFlushDone (keeps_refl s))
  | .hello .. => .inl (keeps_execHello (keeps_refl s))
  | .helloTimer => .inl (keeps_execHelloTimer (keeps_refl s))
  | .pstate .. => .inl (keeps_execPstate (keeps_refl s))
  | .pstateOrderInstant => .inl (keeps_execPstateOrderInstant (keeps_refl s))
  | .pdmsg .. => .inl (keeps_execPdmsg (keeps_refl s))
  | .event .. => .inl (keeps_execEvent (keeps_refl s))
  | .relayTimeout => .inl (keeps_execRelayTimeout (keeps_refl s))
  | .inboundWindowWrite .. => .inl (keeps_execInboundWindowWrite (keeps_refl s))
  | .peerEventsClear .. => .inl (keeps_execPeerEventsClear (keeps_refl s))
  | .idleTimeoutExpiry => .inl (keeps_execIdleTimeoutExpiry (keeps_refl s))
  | .winterEntry => .inl (keeps_execWinterEntry (keeps_refl s))
  | .drainLimitExpiry => .inl (keeps_execDrainLimitExpiry (keeps_refl s))
  | .wakeEvent .. => .inl (keeps_execWakeEvent (keeps_refl s))
  | .wakeAtExpiry => .inl (keeps_execWakeAtExpiry (keeps_refl s))
  | .thawComplete .. => .inl (keeps_execThawComplete (keeps_refl s))
  | .thawReloadRetry .. => .inl (keeps_execThawReloadRetry (keeps_refl s))
  | .thawReloadAbandon => .inl (keeps_execThawReloadAbandon (keeps_refl s))
  | .routineStoreReload .. => .inl (keeps_execRoutineStoreReload (keeps_refl s))
  | .pwrAckRise .. => .inl (keeps_execPwrAckRise (keeps_refl s))
  | .pwrAckLoss .. => .inl (keeps_execPwrAckLoss (keeps_refl s))
  | .pstAckRise => .inl (keeps_execPstAckRise (keeps_refl s))
  | .pstAckTimeout => .inl (keeps_execPstAckTimeout (keeps_refl s))
  | .glideEnd => .inl (keeps_execGlideEnd (keeps_refl s))
  | .droopDetect .. => .inl (keeps_execDroopDetect (keeps_refl s))
  | .alertNFall => .inl (keeps_execAlertNFall (keeps_refl s))
  | .alertHoldExpiry => .inl (keeps_execAlertHoldExpiry (keeps_refl s))
  | .estimatorPeriod .. => .inl (keeps_execEstimatorPeriod (keeps_refl s))
  | .tlmSample .. => .inl (keeps_execTlmSample (keeps_refl s))
  | .calPeriodEnd => .inl (keeps_execCalPeriodEnd (keeps_refl s))
  | .thermalSample .. => .inl (keeps_execThermalSample (keeps_refl s))
  | .thermalRestExpiry => .inl (keeps_execThermalRestExpiry (keeps_refl s))
  | .lockstepMismatch .. => .inl (keeps_execLockstepMismatch (keeps_refl s))
  | .failover .. => .inl (keeps_execFailover (keeps_refl s))
  | .periodicSelftest .. => .inl (keeps_execPeriodicSelftest (keeps_refl s))
  | .stewardHeartbeatMiss .. => .inl (keeps_execStewardHeartbeatMiss (keeps_refl s))
  | .stewardRejoin .. => .inl (keeps_execStewardRejoin (keeps_refl s))
  | .stripRateWindowEnd .. => .inl (keeps_execStripRateWindowEnd (keeps_refl s))
  | .agingMonitorRead .. => .inl (keeps_execAgingMonitorRead (keeps_refl s))
  | .interconnectParityError .. => .inl (keeps_execInterconnectParityError (keeps_refl s))
  | .start => .inl (keeps_execStart (keeps_refl s))
  | .startPhaseDone .. => .inl (keeps_execStartPhaseDone (keeps_refl s))
  | .startFail .. => .inl (keeps_execStartFail (keeps_refl s))
  | .readyTimeout => .inl (keeps_execReadyTimeout (keeps_refl s))
  | .probationEnd => .inl (keeps_execProbationEnd (keeps_refl s))
  | .stewardWatchdogFire => .inl (keeps_execStewardWatchdogFire (keeps_refl s))
  | .mwStep .. => .inl (keeps_execMwStep (keeps_refl s))
  | .mwSelftest .. => .inl (keeps_execMwSelftest (keeps_refl s))
  | .slotRecordWrite .. => .inl (keeps_execSlotRecordWrite (keeps_refl s))
  | .fwUpdate .. => .inl (keeps_execFwUpdate (keeps_refl s))
  | .updateRollback .. => .inl (keeps_execUpdateRollback (keeps_refl s))
  | .libraryLoad .. => .inl (keeps_execLibraryLoad (keeps_refl s))
  | .calSwitch .. => .inl (keeps_execCalSwitch (keeps_refl s))
  | .coreService .. => .inl (keeps_execCoreService (keeps_refl s))
  | .pdRead .. => .inl (keeps_execPdRead (keeps_refl s))
  | .pdWrite .. => .inl (keeps_execPdWrite (keeps_refl s))
  | .irqClear .. => .inl (keeps_execIrqClear (keeps_refl s))
  | .timeLoRead => .inl (keeps_execTimeLoRead (keeps_refl s))
  | .ctlRegisterWrite .. => .inl (keeps_execCtlRegisterWrite (keeps_refl s))
  | .aonReset .. => .inr (.inl ⟨_, _, _, _, rfl⟩)
  | .fuseValidRise .. => .inr (.inr ⟨_, _, _, rfl⟩)
  | .pclkReset => .inl (keeps_execPclkReset (keeps_refl s))
  | .mvpPassLanded .. => .inl (keeps_execMvpPassLanded (keeps_refl s))
  | .weightLoadEnd .. => .inl (keeps_execWeightLoadEnd (keeps_refl s))
  | .readoutLanded .. => .inl (keeps_execReadoutLanded (keeps_refl s))
  | .vectorOperationLanded .. => .inl (keeps_execVectorOperationLanded (keeps_refl s))
  | .deepScratchWriteLanded .. => .inl (keeps_execDeepScratchWriteLanded (keeps_refl s))
  | .tapLoadLanded .. => .inl (keeps_execTapLoadLanded (keeps_refl s))
  | .ageLimitElapsed .. => .inl (keeps_execAgeLimitElapsed (keeps_refl s))
  | .pllLock => .inl (keeps_execPllLock (keeps_refl s))
  | .pwrAckFall .. => .inl (keeps_execPwrAckFall (keeps_refl s))
  | .libraryLoadDone .. => .inl (keeps_execLibraryLoadDone (keeps_refl s))
  | .coreServiceTestDone .. => .inl (keeps_execCoreServiceTestDone (keeps_refl s))
  | .pclkResetRelease => .inl (keeps_execPclkResetRelease (keeps_refl s))
  | .wrapperInstructionUpdate .. => .inl (keeps_execWrapperInstructionUpdate (keeps_refl s))
  | .wrapperReset => .inl (keeps_execWrapperReset (keeps_refl s))
  | .segmentInsertionUpdate .. => .inl (keeps_execSegmentInsertionUpdate (keeps_refl s))
  | .networkReset => .inl (keeps_execNetworkReset (keeps_refl s))

/-- What the latch of the straps and the fuses leaves of the memories. -/
theorem inv_latch {s : State} (h : Inv s) (inst : Fin 8) (master : Bool) (fuse : BitVec 256) : Inv (s.latch inst master fuse) :=
  ⟨h.cores, deepOk_of_same h.deep rfl rfl⟩

/-- An AON reset leaves every core as at reset and no listed word of deep scratch (R450). -/
theorem inv_aonReset (s : State) : Inv s.aonReset where
  cores c := by
    have hc : s.aonReset.core c = Core.reset := Vector.getElem_replicate _
    rw [hc]
    exact coreOk_reset
  deep := ⟨rfl, fun y hy => absurd hy List.not_mem_nil, rfl⟩

theorem inv_execAonReset {inst : Fin 8} {master valid : Bool} {fuse : BitVec 256} {s t : State}
    (ht : execAonReset inst master valid fuse s = .next t) : Inv t := by
  have hreset := inv_aonReset s
  unfold execAonReset at ht
  generalize s.aonReset = u at ht hreset
  cases ht
  split
  · exact inv_latch hreset inst master fuse
  · exact ⟨hreset.cores, deepOk_of_same hreset.deep rfl rfl⟩

theorem inv_execFuseValidRise {inst : Fin 8} {master : Bool} {fuse : BitVec 256} {s t : State} (h : Inv s)
    (ht : execFuseValidRise inst master fuse s = .next t) : Inv t := by
  unfold execFuseValidRise at ht
  split at ht <;> cases ht
  · exact h
  · exact inv_latch h inst master fuse

/-- Every command keeps the invariant. -/
theorem inv_exec {i : Instr} {s t : State} (h : Inv s) (ht : exec i s = .next t) : Inv t := by
  obtain hk | ⟨inst, master, valid, fuse, rfl⟩ | ⟨inst, master, fuse, rfl⟩ := exec_keeps_or_latches i s
  · exact (hk.out t ht).inv h
  · exact inv_execAonReset ht
  · exact inv_execFuseValidRise h ht

/-- Settles O59: the front command keeps the invariant, and so does the clock edge that passes when none waits. -/
theorem everyStepKeepsInvariant : Obligations.every_step_keeps_invariant := by
  unfold Obligations.every_step_keeps_invariant
  intro s t h ht
  cases hq : s.pending with
  | nil =>
    rw [step_nil s hq] at ht
    cases ht
    exact (keeps_clockEdge (keeps_refl s)).inv h
  | cons i rest =>
    have hrest : Inv { s with pending := rest } := ⟨h.cores, deepOk_of_same h.deep rfl rfl⟩
    rw [step_cons s i rest hq] at ht
    exact inv_exec hrest ht

end Sys2Proof.Machine

/-!
PROOFS. F and W at the start of a run (R165): a state in which the tags of a dispatched core do not stay clear.
-/
namespace Sys2Proof.Machine
open Sys2Proof.Safety

/-- An image with a section of code that its LOAD left in host memory (R222, R224), for one core. -/
def hostImage : ImgRec :=
  { bytes := overwrite (overwrite (overwrite (overwrite (List.replicate 80 0) 0x15 [1]) 0x1A [1]) 0x40 [1]) 0x48 [32]
    resident := false, wcet := 0, dir := [], va := 0, ast := 0 }

/-- A step of queue 0 and partition 0 with that image, accepted. -/
def hostStep : StepRec :=
  { aseq := 1, queue := 0, part := 0, rt := false, cls := 2, ast := 0,
    desc := { kv := false, cwin := false, flip := false, qseq := 0, base := 0, adapter := 0, strips := 1, kvVa := 0, kvMax := 0, args := [] }
    image := some hostImage, tables := TableSt.reset.active, base := none, adapter := none, state := .accepted, status := 0, flags := 0,
    starts := 0, kills := 0, twin := false, lockKill := false, tAccept := 0, tLast := 0, aged := 0, since := 0, tBell := 0, cclk := 0 }

/-- A run of the lead, core 0, in its commit phase. -/
def leadCommitting : RunSt :=
  { aseq := 0, cores := [0], twin := false, phase := .commit, arrived := [], taken := [], started := 0, firstIssue := true, cclk := 0,
    issueCclk := 0, tokenCclk := 0, tokenIssue := 0, stopCclk := 0, heldKill := false, sliced := false, ended := 0 }

/-- An engine in Spring whose class RT partition 1 is in its commit phase on the pair of cores 0 and 1, slot 0 of the lead full; the mask
of partition 0 names the checker, core 1. -/
def checkerMasked : State :=
  { State.reset with
    cores := State.reset.cores.set 0 { Core.reset with fullTag := [(0, true)] }
    parts := (State.reset.parts.set 0 { Partition.reset with coreMask := 2, active := some hostImage }).set 1
      { Partition.reset with rt := true, coreMask := 1, run := some leadCommitting }
    queues := upd State.reset.queues 0 (fun q => { q with enable := true })
    steps := [hostStep]
    ports := Vector.replicate 4 { Port.reset true with state := .up, linkUp := true }
    xlate := { Xlate.reset with roots := [(0, 1)] }
    power := { PowerSt.reset Build.reference with season := .spring }
    fault := { FaultSt.reset Build.reference with pairs := (Vector.replicate 2 ⟨none, none, none, 0, false⟩).set 0 ⟨some 0, some 1, none, 0, false⟩ }
    start := { StartSt.reset with state := .running } }
/-- DISPATCH clears the tags of core 1 and then reads its code; the walk of that read is never answered, so the port fails, the run of
partition 1 ends without a commit, and core 1 takes over the tags of core 0 as its checker (R224, R296, R298, R385). -/
theorem checkerMasked_dispatch :
    let t := checkerMasked.dispatchStep 0 hostStep (some [])
    exec (.dispatch ⟨0, []⟩) checkerMasked = .next t ∧ (∃ r ∈ (t.part 0).run, 1 ∈ r.cores) ∧ (t.core 1).slotFull 0 = true := by
  have hmay : checkerMasked.mayDispatch 0 = true := by decide +kernel
  have hnext : checkerMasked.nextStep 0 = some hostStep := by decide +kernel
  refine ⟨(exec_dispatch _ _).trans (execDispatch_eq [] (by decide +kernel) hmay hnext), ?_, ?_⟩
  · decide +kernel
  · decide +kernel

/-- Refutes O56: it holds over every state, and nothing in it keeps the checker of a pair out of the mask of another partition. -/
theorem not_tagsClearAtStart : ¬ Obligations.tags_clear_at_start := by
  unfold Obligations.tags_clear_at_start
  intro h
  obtain ⟨hexec, ⟨r, hrun, hmem⟩, hfull⟩ := checkerMasked_dispatch
  obtain ⟨hclear, -⟩ := h (.dispatch ⟨0, []⟩) checkerMasked _ 0 r hexec hrun (.inl ⟨rfl, .inl ⟨[], rfl⟩⟩) 1 hmem 0
  exact absurd hclear (ne_false_of_eq_true hfull)

end Sys2Proof.Machine

/-!
PROOFS. What a write to deep scratch stores where no error mark is met, and the landing of deep-scratch writes and signals (R173, R179, R202).
-/
namespace Sys2Proof.Machine
open Sys2Proof.Safety

/-! ### One byte, the bytes of a word -/

theorem deepByte_eq_get (s : State) (a : Nat) : s.deepByte a = Tab.get (s.deepDefault a) s.deep.cells a := by
  unfold State.deepByte
  induction s.deep.cells with
  | nil => rfl
  | cons p t ih =>
    rw [List.find?_cons, Tab.get]
    by_cases h : a = p.1
    · simp [h]
    · rw [if_neg h, beq_false_of_ne (Ne.symm h)]
      exact ih

theorem deepDefault_of_intact {s : State} {a : Nat} (h : s.sliceIntact a = true) : s.deepDefault a = 0 := by
  unfold State.sliceIntact at h
  unfold State.deepDefault
  rw [Option.isNone_iff_eq_none.mp h]

theorem deepByte_deepPut {s : State} (h : Tab.rising 0 s.deep.cells = true) (a : Nat) (x : Byte) (b : Nat) :
    (s.deepPut a x).deepByte b = if b = a then x else s.deepByte b := by
  rw [deepByte_eq_get, deepByte_eq_get]
  change Tab.get (s.deepDefault b) (if s.sliceIntact a then Tab.set 0 s.deep.cells a x else Tab.put s.deep.cells a x) b = _
  split
  · rename_i hi
    unfold Tab.set
    split
    · rename_i hx
      rw [Tab.get_del _ _ _ _ _ h]
      by_cases hb : b = a
      · rw [if_pos hb, if_pos hb, hb, deepDefault_of_intact hi, hx]
      · rw [if_neg hb, if_neg hb]
    · exact Tab.get_put _ _ _ _ _ _ h
  · exact Tab.get_put _ _ _ _ _ _ h

/-- `t` is `s` but for the listed bytes of deep scratch. -/
def DeepOnly (s t : State) : Prop := ∃ cells, t = { s with deep := { s.deep with cells := cells } }

theorem DeepOnly.refl (s : State) : DeepOnly s s := ⟨s.deep.cells, rfl⟩

theorem DeepOnly.trans {s t u : State} (h : DeepOnly s t) (g : DeepOnly t u) : DeepOnly s u := by
  obtain ⟨_, rfl⟩ := h
  obtain ⟨cells, rfl⟩ := g
  exact ⟨cells, rfl⟩

/-- Deep scratch that holds no error mark. -/
def DeepClear (s : State) : Prop := s.deep.poison = [] ∧ s.deep.flip = []

theorem DeepOnly.clear {s t : State} (h : DeepOnly s t) (hs : DeepClear s) : DeepClear t := by
  obtain ⟨_, rfl⟩ := h
  exact hs

/-- `t` is `s` with bytes of deep scratch written: at the addresses of `at_` those that `g` gives, in whatever slice (R173). -/
structure DeepStored (s t : State) (at_ : Nat → Prop) (g : Nat → Byte) : Prop where
  only : DeepOnly s t
  ok : DeepOk t
  stored : ∀ a, at_ a → t.deepByte a = g a
  kept : ∀ a, ¬ at_ a → t.deepByte a = s.deepByte a

theorem DeepStored.trans {s t u : State} {p q : Nat → Prop} {g : Nat → Byte} (h : DeepStored s t p g) (k : DeepStored t u q g) :
    DeepStored s u (fun a => p a ∨ q a) g where
  only := h.only.trans k.only
  ok := k.ok
  stored a ha := by
    by_cases hq : q a
    · exact k.stored a hq
    · exact (k.kept a hq).trans (h.stored a (ha.resolve_right hq))
  kept a ha := (k.kept a (fun hq => ha (.inr hq))).trans (h.kept a (fun hp => ha (.inl hp)))

theorem DeepStored.congr {s t : State} {p q : Nat → Prop} {g : Nat → Byte} (h : DeepStored s t p g) (hpq : ∀ a, q a ↔ p a) :
    DeepStored s t q g :=
  ⟨h.only, h.ok, fun a ha => h.stored a ((hpq a).mp ha), fun a ha => h.kept a (fun hp => ha ((hpq a).mpr hp))⟩

theorem deepStored_nothing {s : State} (ok : DeepOk s) (g : Nat → Byte) : DeepStored s s (fun _ => False) g :=
  ⟨.refl s, ok, nofun, fun _ _ => rfl⟩

theorem deepPut_stored {s : State} (ok : DeepOk s) {g : Nat → Byte} {p : Nat × Byte} (hp : p.2 = g p.1) :
    DeepStored s (s.deepPut p.1 p.2) (fun a => a = p.1) g where
  only := ⟨_, rfl⟩
  ok := deepOk_deepPut p.1 p.2 ok
  stored a ha := by rw [deepByte_deepPut ok.rising, if_pos ha, hp, ha]
  kept a ha := by rw [deepByte_deepPut ok.rising, if_neg ha]

theorem deepPuts_stored {s : State} (ok : DeepOk s) {g : Nat → Byte} {ps : List (Nat × Byte)} (hg : ∀ p ∈ ps, p.2 = g p.1) :
    DeepStored s (ps.foldl (fun s p => s.deepPut p.1 p.2) s) (fun a => a ∈ ps.map (·.1)) g := by
  induction ps generalizing s with
  | nil => exact (deepStored_nothing ok g).congr (by simp)
  | cons p ps ih =>
    obtain ⟨hp, hps⟩ := List.forall_mem_cons.mp hg
    have hput := deepPut_stored ok hp
    exact (hput.trans (ih hput.ok hps)).congr (by simp)

/-! ### A write -/

/-- A word written where no error mark is met (R179). -/
theorem deepWriteWord_clear {s : State} (hs : DeepClear s) (w : Nat) (ps : List (Nat × Byte)) :
    s.deepWriteWord w ps = (ps.foldl (fun s p => s.deepPut p.1 p.2) s, false) := by
  obtain ⟨hpoison, hflip⟩ := hs
  have hmark : s.deepPoisoned w = false := by rw [State.deepPoisoned, hpoison]; rfl
  have hflip' : Tab.get false s.deep.flip w = false := by rw [hflip]; rfl
  have hfixed : s.eccFixed 1 0 = s := rfl
  have hsame : ({ s with deep := { s.deep with poison := Tab.del s.deep.poison w, flip := Tab.del s.deep.flip w } } : State) = s := by
    have hp : Tab.del s.deep.poison w = s.deep.poison := by rw [hpoison]; rfl
    have hf : Tab.del s.deep.flip w = s.deep.flip := by rw [hflip]; rfl
    rw [hp, hf]
  unfold State.deepWriteWord
  simp only [hmark, hflip', Bool.false_and, Bool.false_eq_true, if_false, hfixed, hsame]

/-- Writing word `i` after word `dsa / 8` of a write of `bs` at `dsa`, and whether a merge was refused. -/
def State.writeWordAt (dsa : Nat) (bs : List Byte) (r : State × Bool) (i : Nat) : State × Bool :=
  ((r.1.deepWriteWord (dsa / 8 + i) (wordBytes dsa bs (dsa / 8 + i))).1,
    r.2 || (r.1.deepWriteWord (dsa / 8 + i) (wordBytes dsa bs (dsa / 8 + i))).2)

/-- The words of a write put its bytes and no others, and none is refused where no error mark is met (R179). -/
theorem deepWriteWords_stored (dsa : Nat) (bs : List Byte) (is : List Nat) {s : State} (hs : DeepClear s) (ok : DeepOk s) :
    ∃ t, is.foldl (State.writeWordAt dsa bs) (s, false) = (t, false) ∧
      DeepStored s t (fun a => (∃ i ∈ is, a / 8 = dsa / 8 + i) ∧ dsa ≤ a ∧ a < dsa + bs.length) (fun a => bs.getD (a - dsa) 0) := by
  induction is generalizing s with
  | nil => exact ⟨s, rfl, (deepStored_nothing ok _).congr (by simp)⟩
  | cons i is ih =>
    have hword := deepPuts_stored ok (g := fun a => bs.getD (a - dsa) 0)
      (fun p hp => value_of_mem_wordBytes hp) (ps := wordBytes dsa bs (dsa / 8 + i))
    obtain ⟨t, hfold, ht⟩ := ih (hword.only.clear hs) hword.ok
    refine ⟨t, ?_, (hword.trans ht).congr fun a => ?_⟩
    · rw [List.foldl_cons, State.writeWordAt, deepWriteWord_clear hs]
      exact hfold
    · rw [mem_wordBytes, List.exists_mem_cons_iff]
      tauto

/-- A write where no error mark is met stores exactly its bytes (R173, R179). -/
theorem deepWrite_stored {s : State} (hs : DeepClear s) (ok : DeepOk s) (dsa : Nat) (bs : List Byte) :
    ∃ t, s.deepWrite dsa bs = (t, false) ∧
      DeepStored s t (fun a => dsa ≤ a ∧ a < dsa + bs.length) (fun a => bs.getD (a - dsa) 0) := by
  by_cases hlen : bs.length = 0
  · exact ⟨s, by rw [State.deepWrite, if_pos hlen], (deepStored_nothing ok _).congr fun a => iff_false_intro (by omega)⟩
  · obtain ⟨t, hfold, ht⟩ := deepWriteWords_stored dsa bs (List.range ((dsa + bs.length - 1) / 8 - dsa / 8 + 1)) hs ok
    refine ⟨t, ?_, ht.congr fun a => ?_⟩
    · rw [State.deepWrite, if_neg hlen]
      exact hfold
    · refine ⟨fun ha => ⟨⟨a / 8 - dsa / 8, List.mem_range.mpr (by omega), by omega⟩, ha⟩, And.right⟩

/-! ### The obligation -/

/-- DEEP_SCRATCH_WRITE_LANDED where no error mark is met. -/
theorem landOneDeep_clear {s : State} {c : CoreId} {w : DeepWrite} {rest : List DeepWrite} (ok : DeepOk s) (hs : DeepClear s)
    (hq : (s.core c).deepW = w :: rest) :
    DeepStored (s.modCore c (fun k => { k with deepW := rest })) (s.landOneDeep c) (fun a => w.dsa ≤ a ∧ a < w.dsa + w.bs.length)
      (fun a => w.bs.getD (a - w.dsa) 0) := by
  obtain ⟨t, hwrite, ht⟩ := deepWrite_stored (s := s.modCore c (fun k => { k with deepW := rest })) hs (deepOk_of_same ok rfl rfl) w.dsa w.bs
  have hland : s.landOneDeep c = t := by
    unfold State.landOneDeep
    rw [hq]
    simp only [hwrite, Bool.false_eq_true, if_false]
  rwa [hland]

theorem satInc_one_word (x : Word) : satInc x 1 = BitVec.ofNat 32 (min 4294967295 (x.toNat + 1)) := by
  unfold satInc
  split
  · rw [Nat.min_eq_right (by omega)]
  · rw [Nat.min_eq_left (by omega)]
    rfl

/-- SIGNAL_TAKES_EFFECT with a signal at the head (R202). -/
theorem execSignalTakesEffect_eq {s : State} {c : CoreId} {p : PartId} {q : Nat} {e : Fin 16} {rest : List (Nat × Fin 16)}
    (hq : (s.core c).signals = (q, e) :: rest) (hp : s.runOf c = some p) : execSignalTakesEffect c s =
      if (s.core c).deepLanded q then .next ((s.modCore c (fun k => { k with signals := rest })).modPart p (fun x =>
        { x with events := upd x.events e (fun n => satInc n 1) })) else .next s := by
  unfold execSignalTakesEffect
  simp only [hq, hp]

/-- Settles O24: a write lands by `deepWrite_stored`; a signal waits until `deepLanded` lets it. -/
theorem deepWritesAndSignalsLand : Obligations.deep_writes_and_signals_land := by
  unfold Obligations.deep_writes_and_signals_land
  refine ⟨fun s c w rest ok hq hpoison hflip => ?_, fun s c p q e rest hq hp => ⟨fun hlanded => ?_, fun hwaits => ?_⟩⟩
  · obtain ⟨⟨cells, honly⟩, -, hstored, hkept⟩ := landOneDeep_clear ok ⟨hpoison, hflip⟩ hq
    refine ⟨_, exec_deepScratchWriteLanded c s, ?_, fun d hd => ?_, ?_, ?_, ?_, ?_, fun a => ?_⟩
    · rw [honly]
      exact core_modCore s c _
    · rw [honly]
      exact core_modCore_ne s c d _ hd
    · rw [honly, State.modCore_parts]
    · rw [honly, State.modCore_ports]
    · rw [honly, State.modCore_scrub]
    · rw [honly, State.modCore_fault]
    · split
      · exact hstored a ‹_›
      · exact hkept a ‹_›
  · have hexec := (exec_signalTakesEffect c s).trans ((execSignalTakesEffect_eq hq hp).trans (if_pos hlanded))
    refine ⟨_, hexec, core_modCore s c _, fun i => ?_, fun d hd => core_modCore_ne s c d _ hd, fun k hk => part_modPart_ne _ p k _ hk, rfl⟩
    rw [part_modPart, part_modCore, getElem_upd, satInc_one_word]
    split
    · rename_i hi
      rw [hi]
    · rfl
  · exact (exec_signalTakesEffect c s).trans ((execSignalTakesEffect_eq hq hp).trans (if_neg (ne_true_of_eq_false hwaits)))

end Sys2Proof.Machine

/-!
PROOFS. Vector loads and stores alone in their bundle: what they read or form at issue, and where it waits (R70, R75, R140, R163, R164, R168,
R169, R214).
-/
namespace Sys2Proof.Machine
open Sys2Proof.Safety

/-! ### Loads -/

/-- The operations that load. -/
theorem load_forms {o : VecOp} (h : vecLoads o = true) : (∃ v a tag off, o = .vld v a tag off) ∨ ∃ v a tag f off, o = .vldw v a tag f off := by
  cases o <;> simp_all [vecLoads]

/-- The register that a load writes. -/
def loadReg (o : VecOp) : VReg := match o with | .vld v _ _ _ => v | .vldw v _ _ _ _ => v | _ => 0

/-- A core whose load of the physical span `sp` has read `k.nearRead sp.1 sp.2`: the result waits, the tags are taken. -/
def Core.loading (o : VecOp) (sp : Span) (seq : Nat) (bs : List Byte) (k : Core) : Core :=
  (k.takeTags (readTag (vecTag o)) [sp]).vecResult seq [(loadReg o, (vecLoad o bs).1)] (vecLoad o bs).2

/-- A load in the window that meets no error mark reads near scratch as the stores before it leave it (R163, R164). -/
theorem issueVec_load {s : State} {c : CoreId} {k0 : Core} {o : VecOp} {sp : Span} (hload : vecLoads o = true)
    (hspan : vecSpan k0 o = some sp) (hin : sp.1 + sp.2 ≤ k0.win.nsl * 1024) (hclean : Unmarked s c [(k0.win.phys sp.1, sp.2)]) :
    s.issueVec c k0 o = s.modCore c (Core.loading o (k0.win.phys sp.1, sp.2) k0.seq
      ((s.core c).withStores.nearRead (k0.win.phys sp.1) sp.2)) := by
  have hlegal : (k0.win.spans [sp]).isSome = true := spans_isSome_iff.mpr (by simpa using hin)
  unfold State.issueVec
  rw [hspan]
  simp only [checked_legal hlegal, hload, if_true, withNear_unmarked hclean]
  rfl

/-- What the tags of a core become depends on its tags alone. -/
theorem takeTags_begun (k : Core) (tag : ReadTag) (xs : List Span) :
    k.begun.takeTags tag xs = { k.begun with fullTag := (k.takeTags tag xs).fullTag } := by
  unfold Core.takeTags
  split <;> rfl

/-- With no operation in the pipeline a load reads near scratch as it is. -/
theorem withStores_begun {k : Core} (h : k.vecQ = []) : k.begun.withStores = k.begun := by
  have hq : k.begun.vecQ = [] := h
  rw [Core.withStores, hq, List.foldl_nil]

/-- A load whose tags let it read does not hold its bundle (R169, R189). -/
theorem slotHeld_load {k : Core} (events : List Word) {o : VecOp} {sp : Span} (hload : vecLoads o = true) (hspan : vecSpan k o = some sp)
    (hready : k.readReady (readTag (vecTag o)) [(k.win.phys sp.1, sp.2)] = true) : slotHeld k events (.vec o) = false := by
  have hstore : vecStores o = false := by obtain ⟨_, _, _, _, rfl⟩ | ⟨_, _, _, _, _, rfl⟩ := load_forms hload <;> rfl
  have hfed : vecFed k o = true := by
    unfold vecFed
    simp only [hload, if_true, hspan, hready, Bool.or_true]
  change (!vecFed k o || (vecStores o && _)) = false
  rw [hfed, hstore]
  rfl

theorem passed_loading {k : Core} (h : Calm k) (o : VecOp) (sp : Span) (seq : Nat) (bs : List Byte) :
    (Core.loading o sp seq bs k.begun).passed = { moved k with
      fullTag := (k.takeTags (readTag (vecTag o)) [sp]).fullTag
      vecQ := [{ seq := seq, eff := .regs [(loadReg o, (vecLoad o bs).1)] }]
      vecFlags := k.vecFlags ||| (vecLoad o bs).2 } := by
  rw [Core.loading, takeTags_begun]
  simp only [Core.passed, Core.vecResult, Core.begun, moved, h.vecs, List.nil_append, h.staged, h.fetched]

/-- A load in the window whose tags let it read, alone in its bundle (R164, R168, R169, R188). -/
theorem load_enters {s : State} {c : CoreId} {p : PartId} {r : RunSt} {x : StepRec} {o : VecOp} {off n : Nat} (h : Straight s c p r x)
    (hload : vecLoads o = true) (hspan : vecSpan (s.core c) o = some (off, n)) (hok : NearOk s c off n)
    (hready : (s.core c).readReady (readTag (vecTag o)) [((s.core c).win.phys off, n)] = true)
    (hbad : bundleBad (s.core c) (imageLimits x).1 (imageLimits x).2 [.vec o] = false) :
    ∃ t, s.issueSlot c true (.vec o) = .next t ∧ OthersSame s t c ∧ t.core c = { moved (s.core c) with
      fullTag := ((s.core c).takeTags (readTag (vecTag o)) [((s.core c).win.phys off, n)]).fullTag
      vecQ := [{ seq := (s.core c).seq, eff := .regs [(loadReg o, (vecLoad o ((s.core c).nearRead ((s.core c).win.phys off) n)).1)] }]
      vecFlags := (s.core c).vecFlags ||| (vecLoad o ((s.core c).nearRead ((s.core c).win.phys off) n)).2 } := by
  have hcalm := h.ready.calm
  have hspan' : vecSpan ((s.core c).holding [.vec o]) o = some (off, n) := by rw [← hspan]; cases o <;> rfl
  have hready' : ((s.core c).holding [.vec o]).readReady (readTag (vecTag o)) [((s.core c).win.phys off, n)] = true := by
    rw [← hready]
    unfold Core.readReady
    split <;> rfl
  have hheld := bundleHeld_calm hcalm (s.part p).events.toList (slotHeld_load _ hload hspan' hready')
  have hop : operandsOk ((s.core c).holding [.vec o]) (.vec o) = true := by
    obtain ⟨_, _, _, _, rfl⟩ | ⟨_, _, _, _, _, rfl⟩ := load_forms hload <;> rfl
  have hread : ((s.begun c p x).core c).withStores.nearRead ((s.core c).win.phys off) n =
      (s.core c).nearRead ((s.core c).win.phys off) n := by
    rw [core_begun, withStores_begun hcalm.vecs]
    rfl
  have hact := issueVec_load hload hspan' hok.window (unmarked_begun hok.clean p x)
  have hsame : ∀ bs, SameControl (s.core c).begun (Core.loading o ((s.core c).win.phys off, n) (s.core c).seq bs (s.core c).begun) := by
    intro bs
    rw [Core.loading, takeTags_begun]
    exact ⟨rfl, rfl, rfl, rfl, rfl⟩
  obtain ⟨t, ht, hothers, hcore⟩ := issueSlot_single h (by simp [SlotOp.slot]) hbad hheld hop hact (hsame _)
  refine ⟨t, ht, hothers, hcore.trans ?_⟩
  rw [← hread]
  exact passed_loading hcalm o _ _ _

/-- The little-endian words of a read are reads of 4 bytes (R168). -/
theorem leAt_nearRead (k : Core) (off : Nat) {n i m : Nat} (h : i + m ≤ n) : leAt (k.nearRead off n) i m = leNat (k.nearRead (off + i) m) := by
  have hread : ((k.nearRead off n).drop i).take m = k.nearRead (off + i) m := by
    refine List.ext_getElem (by simp [Core.nearRead]; omega) fun j hj _ => ?_
    simp [Core.nearRead, Nat.add_assoc]
  rw [leAt, slice, hread]
  simp [Core.nearRead]

/-- The lanes that VLD forms are the words of near scratch. -/
theorem vecLoad_vld (v : VReg) (a : AReg) (tag : BitVec 2) (o : BitVec 11) (k : Core) (off : Nat) :
    vecLoad (.vld v a tag o) (k.nearRead off 256) =
      (Vector.ofFn (fun i : Fin 64 => BitVec.ofNat 32 (leNat (k.nearRead (off + 4 * i.val) 4))), 0) := by
  have hlane : ∀ i : Fin 64, leAt (k.nearRead off 256) (4 * i.val) 4 = leNat (k.nearRead (off + 4 * i.val) 4) :=
    fun i => leAt_nearRead k off (by omega)
  simp only [vecLoad, hlane]

/-- Lanes and flags read off a list of the lanes. -/
theorem lanes_of_list (w : Fin 64 → Word × Flags) :
    (Vector.ofFn w).map (·.1) = Vector.ofFn (fun i : Fin 64 => (((List.finRange 64).map w).getD i.val (0, 0)).1) ∧
    orFlags ((Vector.ofFn w).toList.map (·.2)) = orFlags (((List.finRange 64).map w).map (·.2)) := by
  obtain ⟨hlanes, hflags⟩ := ofFn_lanes w
  refine ⟨hlanes.trans (congrArg Vector.ofFn (funext fun i => ?_)), congrArg orFlags (hflags.trans (List.map_map ..).symm)⟩
  simp [List.getD_eq_getElem?_getD]

/-! ### Stores -/

/-- The operations that store. -/
theorem store_forms {o : VecOp} (h : vecStores o = true) : (∃ v a tag off, o = .vst v a tag off) ∨
    (∃ v a tag f off, o = .vstn v a tag f off) ∨ ∃ v a tag n off, o = .sclw v a tag n off := by
  cases o <;> simp_all [vecStores]

/-- A core whose store at the physical offset `off` waits for its landing, its elements counted. -/
def Core.storing (o : VecOp) (off seq : Nat) (w : List Byte × Option (List Flags)) (k : Core) : Core :=
  let k := match w.2 with
    | some fs => { k.countNarrow fs.length (clips fs) with vecFlags := k.vecFlags ||| orFlags fs }
    | none => k
  { k with vecQ := k.vecQ ++ [{ seq := seq, eff := .store off w.1 (decide (vecTag o = 1)) }] }

/-- A store in the window forms its bytes (R164). -/
theorem issueVec_store {s : State} {c : CoreId} {k0 : Core} {o : VecOp} {sp : Span} (hload : vecLoads o = false)
    (hspan : vecSpan k0 o = some sp) (hin : sp.1 + sp.2 ≤ k0.win.nsl * 1024) :
    s.issueVec c k0 o = s.modCore c (Core.storing o (k0.win.phys sp.1) k0.seq (vecStore k0 o)) := by
  have hlegal : (k0.win.spans [sp]).isSome = true := spans_isSome_iff.mpr (by simpa using hin)
  unfold State.issueVec
  rw [hspan]
  simp only [checked_legal hlegal, hload, Bool.false_eq_true, if_false]
  rfl

/-- A store in the window, alone in its bundle: its bytes wait for their landing (R134, R164, R188). -/
theorem store_enters {s : State} {c : CoreId} {p : PartId} {r : RunSt} {x : StepRec} {o : VecOp} {off n : Nat} (h : Straight s c p r x)
    (hstore : vecStores o = true) (hspan : vecSpan (s.core c) o = some (off, n)) (hin : off + n ≤ (s.core c).win.nsl * 1024)
    (hbad : bundleBad (s.core c) (imageLimits x).1 (imageLimits x).2 [.vec o] = false) :
    ∃ t, s.issueSlot c true (.vec o) = .next t ∧ OthersSame s t c ∧
      t.core c = (Core.storing o ((s.core c).win.phys off) (s.core c).seq (vecStore (s.core c) o) (s.core c).begun).passed := by
  have hcalm := h.ready.calm
  have hload : vecLoads o = false := by
    obtain ⟨_, _, _, _, rfl⟩ | ⟨_, _, _, _, _, rfl⟩ | ⟨_, _, _, _, _, rfl⟩ := store_forms hstore <;> rfl
  have hspan' : vecSpan ((s.core c).holding [.vec o]) o = some (off, n) := by rw [← hspan]; cases o <;> rfl
  have hop : operandsOk ((s.core c).holding [.vec o]) (.vec o) = true := by
    obtain ⟨_, _, _, _, rfl⟩ | ⟨_, _, _, _, _, rfl⟩ | ⟨_, _, _, _, _, rfl⟩ := store_forms hstore <;> rfl
  have hformed : vecStore ((s.core c).holding [.vec o]) o = vecStore (s.core c) o := by cases o <;> rfl
  have hact := issueVec_store (s := s.begun c p x) (c := c) hload hspan' hin
  rw [hformed] at hact
  refine issueSlot_single h (by simp [SlotOp.slot]) hbad (bundleHeld_vec hcalm _ hload) hop hact ?_
  unfold Core.storing
  split <;> exact ⟨rfl, rfl, rfl, rfl, rfl⟩

/-- A store that narrows nothing (VST). -/
theorem passed_storing_plain {k : Core} (h : Calm k) (o : VecOp) (off seq : Nat) (bs : List Byte) :
    (Core.storing o off seq (bs, none) k.begun).passed = { moved k with vecQ := [⟨seq, .store off bs (decide (vecTag o = 1))⟩] } := by
  simp only [Core.passed, Core.storing, Core.begun, moved, h.vecs, List.nil_append, h.staged, h.fetched]

/-- A store that narrows `n` elements and counts them (VSTN, SCLW; R75, R140). -/
theorem passed_storing_narrow {k : Core} (h : Calm k) (o : VecOp) (off seq : Nat) (bs : List Byte) {fs : List Flags} {n : Nat}
    (hn : fs.length = n) : (Core.storing o off seq (bs, some fs) k.begun).passed = { moved (k.countNarrow n (clips fs)) with
      vecFlags := k.vecFlags ||| orFlags fs
      vecQ := [⟨seq, .store off bs (decide (vecTag o = 1))⟩] } := by
  subst hn
  simp only [Core.passed, Core.storing, Core.countNarrow, Core.begun, moved, h.vecs, List.nil_append, h.staged, h.fetched]

/-! ### The obligation -/

/-- VLD and VLDW write one register; a bundle of one is rejected by the slot's own checks or not at all. -/
theorem bundleBad_load (k : Core) (flags arrays : Nat) {o : VecOp} (hload : vecLoads o = true) :
    bundleBad k flags arrays [.vec o] = slotBad k flags arrays [.vec o] (.vec o) := by
  obtain ⟨_, _, _, _, rfl⟩ | ⟨_, _, _, _, _, rfl⟩ := load_forms hload <;> exact bundleBad_writesV k flags arrays rfl rfl

theorem bundleBad_store (k : Core) (flags arrays : Nat) {o : VecOp} (hstore : vecStores o = true) :
    bundleBad k flags arrays [.vec o] = slotBad k flags arrays [.vec o] (.vec o) := by
  obtain ⟨_, _, _, _, rfl⟩ | ⟨_, _, _, _, _, rfl⟩ | ⟨_, _, _, _, _, rfl⟩ := store_forms hstore <;>
    exact bundleBad_single k flags arrays rfl rfl

/-- The TAG field of a store asks for SET where it is 1. -/
theorem setTag_iff (tag : BitVec 2) : decide (tag.toNat = 1) = decide (tag = 1) := by
  revert tag
  decide

/-- Settles O11: loads by `load_enters`, stores by `store_enters`; what is left is what each forms of its bytes and lanes. -/
theorem vectorLoadsAndStores : Obligations.vector_loads_and_stores := by
  unfold Obligations.vector_loads_and_stores
  refine ⟨fun s c p r x h v a tag f o htag => ⟨fun hok hready => ?_, fun hf hok hready => ?_⟩,
    fun s c p r x h v a tag f o n1 o9 htag => ⟨fun hin => ?_, fun hf hin => ?_, fun hin => ?_⟩⟩
  · have hbad := (bundleBad_load (s.core c) (imageLimits x).1 (imageLimits x).2 (o := .vld v a tag o) rfl).trans (decide_eq_false htag)
    obtain ⟨t, ht, hothers, hcore⟩ := load_enters (o := .vld v a tag o) h rfl rfl hok hready hbad
    refine ⟨t, (exec_vld ..).trans ht, hothers, hcore.trans ?_⟩
    have hflags : (s.core c).vecFlags ||| (0 : Flags) = (s.core c).vecFlags := BitVec.or_zero
    rw [vecLoad_vld, hflags]
    rfl
  · have hslot : slotBad (s.core c) (imageLimits x).1 (imageLimits x).2 [.vec (.vldw v a tag f o)] (.vec (.vldw v a tag f o)) = false := by
      rw [← vecFmtOk_eq_formatNamed] at hf
      exact Bool.or_eq_false_iff.mpr ⟨congrArg not hf, decide_eq_false htag⟩
    obtain ⟨t, ht, hothers, hcore⟩ := load_enters (o := .vldw v a tag f o) h rfl rfl hok hready ((bundleBad_load _ _ _ rfl).trans hslot)
    refine ⟨t, (exec_vldw ..).trans ht, hothers, hcore.trans ?_⟩
    have hw := fun bs => lanes_of_list (fun i : Fin 64 => widenLane (fmtD f.toNat) (elem (fmtD f.toNat) bs i.val))
    simp only [vecLoad, (hw _).1, (hw _).2]
    rfl
  · have hslot : slotBad (s.core c) (imageLimits x).1 (imageLimits x).2 [.vec (.vst v a tag o)] (.vec (.vst v a tag o)) = false :=
      decide_eq_false (by omega)
    obtain ⟨t, ht, hothers, hcore⟩ := store_enters h rfl rfl hin ((bundleBad_store _ _ _ rfl).trans hslot)
    refine ⟨t, (exec_vst ..).trans ht, hothers, hcore.trans ((passed_storing_plain h.ready.calm _ _ _ _).trans ?_)⟩
    rw [← setTag_iff]
    rfl
  · have hslot : slotBad (s.core c) (imageLimits x).1 (imageLimits x).2 [.vec (.vstn v a tag f o)] (.vec (.vstn v a tag f o)) = false := by
      rw [← vecFmtOk_eq_formatNamed] at hf
      exact Bool.or_eq_false_iff.mpr ⟨congrArg not hf, decide_eq_false (by omega)⟩
    obtain ⟨t, ht, hothers, hcore⟩ := store_enters h rfl rfl hin ((bundleBad_store _ _ _ rfl).trans hslot)
    refine ⟨t, (exec_vstn ..).trans ht, hothers, hcore.trans ((passed_storing_narrow (n := 64) h.ready.calm _ _ _ _ (by simp)).trans ?_)⟩
    rw [← setTag_iff]
    rfl
  · have hslot : slotBad (s.core c) (imageLimits x).1 (imageLimits x).2 [.vec (.sclw v a tag n1 o9)] (.vec (.sclw v a tag n1 o9)) = false :=
      decide_eq_false (by omega)
    obtain ⟨t, ht, hothers, hcore⟩ := store_enters h rfl rfl hin ((bundleBad_store _ _ _ rfl).trans hslot)
    refine ⟨t, (exec_sclw ..).trans ht, hothers,
      hcore.trans ((passed_storing_narrow (n := n1.val + 1) h.ready.calm _ _ _ _ (by simp)).trans ?_)⟩
    rw [← setTag_iff]
    rfl

end Sys2Proof.Machine

/-!
PROOFS. Releases of tag waits and of holds (R168, R169, R189): `waits_are_released`.
-/
namespace Sys2Proof.Machine
open Sys2Proof.Safety

/-! ### Units with nothing that waits (R169) -/

theorem dmaHead_calm {s : State} {c : CoreId} (h : Calm (s.core c)) (t : Fin 8) : s.dmaHead c t = none := by
  rw [State.dmaHead, h.streams t]
  rfl

/-- An expander without a block that it could expand leaves the block as it is (R323). -/
theorem expand_idle {s : State} {c : CoreId} (h : ExpanderIdle s c) : s.expand c = s := by
  have hnone : ((List.range 40).map (fun i => ((s.sets.expTurn[(clusterOf c).val]) + i) % 40)).find? (s.expReady (clusterOf c)) = none := by
    refine List.find?_eq_none.mpr fun j hj => ?_
    obtain ⟨i, -, rfl⟩ := List.mem_map.mp hj
    rw [h _ (Nat.mod_lt _ (by decide))]
    exact Bool.false_ne_true
  unfold State.expand
  generalize (List.map _ (List.range 40) : List Nat).sum = n
  cases n with
  | zero => rfl
  | succ n =>
    rw [State.expandN, hnone]
    exact ite_self s

theorem startDma_none {s : State} {c : CoreId} {t : Fin 8} (h : s.dmaHead c t = none) : s.startDma c t = s := by
  rw [State.startDma, h]

theorem pumpDma_none {s : State} {c : CoreId} {t : Fin 8} (h : s.dmaHead c t = none) : s.pumpDma c t = s := by
  rw [State.pumpDma, h]

theorem turnDma_none {s : State} {c : CoreId} {t : Fin 8} (h : s.dmaHead c t = none) : s.turnDma c t = s := by
  rw [State.turnDma, h]

theorem driveDma_none {s : State} {c : CoreId} {t : Fin 8} (he : ExpanderIdle s c) (h : s.dmaHead c t = none) : s.driveDma c t = s := by
  simp only [State.driveDma, expand_idle he, startDma_none h, pumpDma_none h, turnDma_none h]

theorem landNear_none {s : State} {c : CoreId} {t : Fin 8} (h : s.dmaHead c t = none) : s.landNear c t = s := by
  rw [State.landNear, h]

theorem feedTap_none {s : State} {c : CoreId} (h : (s.core c).tapQ = []) : s.feedTap c = s := by
  rw [State.feedTap, h]

theorem feedLoad_none {s : State} {c : CoreId} (h : (s.core c).agbQ = []) : s.feedLoad c = s := by
  simp only [State.feedLoad, h]

theorem feedMv_none {s : State} {c : CoreId} (h : (s.core c).mvQ = []) : s.feedMv c = s := by
  simp only [State.feedMv, h, List.find?_nil]

/-- The release of any unit of a core with nothing waiting leaves the block as it is (R169). -/
theorem tagWaitRelease_calm {s : State} {c : CoreId} (h : Calm (s.core c)) (he : ExpanderIdle s c) (u : AccessUnit) :
    exec (.tagWaitRelease c u) s = .next s := by
  rw [exec_tagWaitRelease]
  cases u with
  | aga => rw [execTagWaitRelease, settleAga_none s c h.passes, feedTap_none h.taps]
  | agb => rw [execTagWaitRelease, settleAga_none s c h.passes, feedLoad_none h.loads]
  | mvp => rw [execTagWaitRelease, feedMv_none h.mvps]
  | vec => rw [execTagWaitRelease, h.fetched]
  | dma t => rw [execTagWaitRelease, driveDma_none he (dmaHead_calm h t), landNear_none (dmaHead_calm h t)]

/-! ### A pass that its tags let stream (R88, R168) -/

/-- A read whose slots are all full makes all its accesses now. -/
theorem feedSplit_full {full : Nat → Bool} {xs : List Span} (h : ∀ y ∈ xs, full (y.1 / 1024) = true) (ent : List Nat) :
    feedSplit full ent xs = (xs, []) := by
  induction xs generalizing ent with
  | nil => rfl
  | cons y ys ih =>
    obtain ⟨hy, hys⟩ := List.forall_mem_cons.mp h
    rw [feedSplit, if_pos (Or.inr hy), ih hys]

/-- The tagged read of spans that are ready waits for nothing. -/
theorem full_of_readReady {k : Core} {tag : ReadTag} {xs : List Span} (h : k.readReady tag xs = true) :
    ∀ y ∈ (Feed.start tag xs).todo, k.slotFull (y.1 / 1024) = true := by
  intro y hy
  have piece : (xs.all fun sp => (slotsOf sp).all fun n => k.slotFull n) = true → y ∈ xs.flatMap slotSpans →
      k.slotFull (y.1 / 1024) = true := by
    intro hall hmem
    obtain ⟨z, hz, hyz⟩ := List.mem_flatMap.mp hmem
    exact List.all_eq_true.mp (List.all_eq_true.mp hall z hz) _ (slotPiece_of_mem hyz).slot_mem
  cases tag with
  | free => cases hy
  | wait | take => exact piece h hy

/-- A core with the tags `tags` and the pass `g` alone in its queue. -/
def Core.streaming (tags : Tab Bool) (g : PassFlight) (k : Core) : Core := { k with fullTag := tags, passQ := [g] }

theorem modPass_streaming (tags : Tab Bool) (g : PassFlight) (h : PassFlight → PassFlight) (k : Core) :
    (k.streaming tags g).modPass g.seq h = k.streaming tags (h g) := by
  simp [Core.modPass, Core.streaming]

/-- A tagged read that its tags let go on makes all its accesses: the pass has them, only tags change (R168). -/
theorem goFeed_pass {s : State} {c : CoreId} {g : PassFlight} {fd : Feed} (hq : (s.core c).passQ = [g]) (hfd : g.feed = some fd)
    (hsplit : feedSplit (s.core c).slotFull fd.ent fd.todo = (fd.todo, [])) (hmarks : NoMarks s c) (sc : List Span) :
    ∃ tags h fd1, s.goFeed c g.tag fd (fun fd k => k.modPass g.seq (fun g => { g with feed := some fd, reads := fd.todo ++ sc })) =
        s.modCore c (Core.streaming tags h) ∧ h.feed = some fd1 ∧ fd1.todo = [] ∧ h.seq = g.seq ∧ h.arrays = g.arrays := by
  unfold State.goFeed
  rw [hsplit]
  dsimp only
  split
  · next hnone =>
    refine ⟨(s.core c).fullTag, g, fd, (modCore_id s c).symm.trans (modCore_congr ?_), hfd, hnone, rfl, rfl⟩
    rw [Core.streaming, ← hq]
    rfl
  · obtain ⟨tags, htags⟩ := takeTags_eq (s.core c) g.tag fd.todo
    refine ⟨tags, { g with feed := some ((s.core c).fed fd), reads := ((s.core c).fed fd).todo ++ sc }, (s.core c).fed fd,
      (withNear_unmarked (unmarked_of_noMarks hmarks _) _).trans (modCore_congr ?_), rfl, ?_, rfl, rfl⟩
    · simp only [htags, Core.modPass, Core.streaming, hq, List.map_cons, List.map_nil, if_true]
    · rw [Core.fed, hsplit]

/-- A pass that has begun and that its tags let read has streamed (R88, R168). -/
theorem streamPass_fed {s : State} {c : CoreId} {g : PassFlight} {fd : Feed} (hq : (s.core c).passQ = [g]) (hfd : g.feed = some fd)
    (hsplit : feedSplit (s.core c).slotFull fd.ent fd.todo = (fd.todo, [])) (hmarks : NoMarks s c) :
    ∃ tags h, s.streamPass c g.seq = s.modCore c (Core.streaming tags h) ∧ h.started = true ∧ h.seq = g.seq ∧
      h.sums.length = g.arrays.length := by
  obtain ⟨tags, h, fd1, hgo, hfd1, hdone, hseq, harrays⟩ := goFeed_pass hq hfd hsplit hmarks
    ((passScaleSpans g).map (fun x => (g.win.phys x.1, x.2)))
  have hfind : [g].find? (fun f => decide (f.seq = g.seq)) = some g := by simp
  have hfind1 : [h].find? (fun f => decide (f.seq = g.seq)) = some h := by simp [hseq]
  have hstreaming : ((s.core c).streaming tags h).passQ = [h] := rfl
  have hclean : NoMarks (s.modCore c (Core.streaming tags h)) c := noMarks_modCore hmarks id ⟨rfl, rfl⟩
  refine ⟨tags, { h with started := true, reads := [], sums := passSums (((s.core c).streaming tags h).withCap fd1) h }, ?_, rfl, hseq, ?_⟩
  · unfold State.streamPass
    simp only [hq, hfind, hfd, hgo, core_modCore, hstreaming, hfind1, hfd1, hdone, List.isEmpty_nil, Bool.not_true, Bool.false_eq_true,
      if_false]
    rw [withNear_unmarked (unmarked_of_noMarks hclean _), modCore_modCore]
    exact modCore_congr (hseq ▸ (modPass_streaming tags h _ (s.core c)).trans (by rw [hfd1]))
  · simp [passSums, harrays]

/-! ### The pass begins and streams (R88, R92, R169) -/

/-- The core in which a pass streams: a pass that swaps has exchanged the registers of its arrays (R92). -/
def Core.swappedFor (f : PassFlight) (k : Core) : Core := if f.swap then k.swapArrays f.arrays else k

/-- A swap changes weight registers alone. -/
theorem swappedFor_eq (f : PassFlight) (k : Core) : ∃ w, k.swappedFor f = { k with weights := w } := by
  unfold Core.swappedFor
  split
  · exact ⟨_, rfl⟩
  · exact ⟨k.weights, rfl⟩

/-- A pass with legal addresses and whole registers begins: its rows are those it has still to read (R92, R94, R208). -/
theorem beginPass_streams {s : State} {c : CoreId} {f : PassFlight} {rows : List (List Span)} (hq : (s.core c).passQ = [f])
    (h : Streams s c f rows) :
    ∃ w xs, s.beginPass c f = s.modCore c (fun k => { k with
      weights := w
      passQ := [{ f with feed := some (Feed.start f.tag (rows.flatten.map (fun y => (f.win.phys y.1, y.2)))), reads := xs }] }) := by
  obtain ⟨hparity, hrows, hin, -⟩ := h
  obtain ⟨w, hw⟩ := swappedFor_eq f (s.core c)
  obtain ⟨xs, hxs⟩ := Option.isSome_iff_exists.mp hin
  refine ⟨w, xs, ?_⟩
  unfold State.beginPass
  rw [hparity]
  dsimp only
  rw [hrows, Option.bind_some, hxs, Option.map_some]
  refine modCore_congr ?_
  change (Core.swappedFor f (s.core c)).modPass f.seq _ = _
  rw [hw]
  simp [Core.modPass, hq]

/-- A core in which the pass `g` streams alone, with the weight registers `w`. -/
def Core.swapStreaming (w : Vector ArrayW 4) (tags : Tab Bool) (g : PassFlight) (k : Core) : Core :=
  { k with weights := w, fullTag := tags, passQ := [g] }

/-- The next pass of a unit in which nothing waits streams where its tags let it (R168, R169). -/
theorem settleAga_streams {s : State} {c : CoreId} {f : PassFlight} {rows : List (List Span)} (hq : (s.core c).passQ = [f])
    (hstarted : f.started = false) (hfeed : f.feed = none) (htaps : (s.core c).tapQ = []) (hloads : (s.core c).agbQ = [])
    (hphase : (s.core c).phase ≠ .idle) (h : Streams s c f rows)
    (hready : (s.core c).readReady f.tag (rows.flatten.map (fun y => (f.win.phys y.1, y.2))) = true) :
    ∃ w tags g, s.settleAga c = s.modCore c (Core.swapStreaming w tags g) ∧ g.started = true ∧
      g.seq = f.seq ∧ g.sums.length = f.arrays.length := by
  obtain ⟨w, xs, hbegin⟩ := beginPass_streams hq h
  obtain ⟨-, -, -, hmarks⟩ := h
  have hmay : (s.core c).passMayStart f = true := by simp [Core.passMayStart, Core.agaBlocked, hq, htaps, hloads]
  have hclean : NoMarks (s.beginPass c f) c := hbegin ▸ noMarks_modCore hmarks id ⟨rfl, rfl⟩
  obtain ⟨tags, g, hstream, hg, (hseq : g.seq = f.seq), hsums⟩ := streamPass_fed (s := s.beginPass c f) (c := c) (by rw [hbegin, core_modCore]) rfl
    (by rw [hbegin, core_modCore]; exact feedSplit_full (full_of_readReady hready) _) hclean
  refine ⟨w, tags, g, ?_, hg, hseq, hsums⟩
  have hfind : [f].find? (fun f => !f.started) = some f := by simp [hstarted]
  have hgo : (s.core c).phase ≠ .idle ∧ (f.feed.isSome ∨ (s.core c).passMayStart f) := ⟨hphase, Or.inr hmay⟩
  have hstart : s.startPass c f = s.modCore c (Core.swapStreaming w tags g) := by
    unfold State.startPass
    rw [hfeed]
    dsimp only
    rw [hstream, hbegin, modCore_modCore]
    rfl
  unfold State.settleAga
  rw [hq, List.length_singleton, State.startPasses]
  simp only [hq, hfind]
  rw [if_pos hgo, hstart, core_modCore]
  simp only [Core.swapStreaming, List.any_cons, hseq, hg, decide_true, Bool.and_self, Bool.true_or, if_true]
  rfl

/-- TAG_WAIT_RELEASE of address generator A where a pass may stream (R168, R169). -/
theorem tagWaitRelease_streams {s : State} {c : CoreId} {f : PassFlight} {rows : List (List Span)} (hq : (s.core c).passQ = [f])
    (hstarted : f.started = false) (hfeed : f.feed = none) (htaps : (s.core c).tapQ = []) (hloads : (s.core c).agbQ = [])
    (hphase : (s.core c).phase ≠ .idle) (h : Streams s c f rows)
    (hready : (s.core c).readReady f.tag (rows.flatten.map (fun y => (f.win.phys y.1, y.2))) = true) :
    ∃ t g, exec (.tagWaitRelease c .aga) s = .next t ∧ OthersSame s t c ∧ (t.core c).passQ = [g] ∧ g.started = true ∧
      g.seq = f.seq ∧ g.sums.length = f.arrays.length ∧ (t.core c).near = (s.core c).near ∧ (t.core c).acc = (s.core c).acc := by
  obtain ⟨w, tags, g, hsettle, hg, hseq, hsums⟩ := settleAga_streams hq hstarted hfeed htaps hloads hphase h hready
  refine ⟨s.modCore c (Core.swapStreaming w tags g), g, ?_, othersSame_modCore (othersSame_refl s c) _, ?_⟩
  rotate_left
  · rw [core_modCore]
    exact ⟨rfl, hg, hseq, hsums, rfl, rfl⟩
  rw [exec_tagWaitRelease, execTagWaitRelease, hsettle, feedTap_none (by rw [core_modCore]; exact htaps)]

/-! ### Bundles that issue when their hold is released (R189) -/

/-- A core that issues nothing is refused by name (assumption log 6). -/
theorem releaseHold_idle {s : State} {c : CoreId} (h : s.issuing c = false) : s.releaseHold c = .refused .coreNotIssuing := by
  rw [State.releaseHold, h]

/-- The verifier accepts a scalar operation alone in its bundle (Table 9-7). -/
theorem bundleBad_scalar (k : Core) (flags arrays : Nat) (f : SBin) (d a b : SReg) :
    bundleBad k flags arrays [.scl (.bin f d a b)] = false := by
  have hone : dupes ([d].filter (fun d => decide (d.val ≠ 0))) = false := by
    rw [List.filter_cons, List.filter_nil]
    split <;> rfl
  change (false || dupes ([d].filter (fun d => decide (d.val ≠ 0))) || false || false) = false
  rw [hone]
  rfl

/-- The core of a bundle that waits alone for its time, when its hold is released. -/
theorem released_eq_holding {k : Core} (h : Calm k) (ops : List SlotOp) :
    ({ ({ k with fetched := [ops], timed := true } : Core) with timed := false } : Core) = k.holding ops := by
  simp only [Core.holding, h.staged, h.timed]

/-- The bundle of a core that changed nothing of its code lies where it lay. -/
theorem fetched_modCore {s : State} {c : CoreId} {f : Core → Core} (h : Safety.Fetched s c) (hframe : (f (s.core c)).frame = (s.core c).frame)
    (hpc : (f (s.core c)).pc = (s.core c).pc) (hbase : (f (s.core c)).codeBase = (s.core c).codeBase)
    (himem : (f (s.core c)).imemFlip = (s.core c).imemFlip ∧ (f (s.core c)).imemPoison = (s.core c).imemPoison) :
    Safety.Fetched (s.modCore c f) c := by
  have hmarks : ∀ d, ((s.modCore c f).core d).imemFlip = (s.core d).imemFlip ∧
      ((s.modCore c f).core d).imemPoison = (s.core d).imemPoison := by
    intro d
    rw [core_modCore_eq]
    split
    · next e => exact e ▸ himem
    · exact ⟨rfl, rfl⟩
  refine ⟨fun hf d hd => ?_, fun hf => ?_⟩
  · rw [core_modCore, hframe] at hf
    rw [core_modCore, hpc, (hmarks d).1, (hmarks d).2]
    exact h.own hf d hd
  · rw [core_modCore, hframe] at hf
    rw [core_modCore, hpc, hbase]
    exact h.store hf

/-- A bundle of one slot held by time alone issues when its hold is released (R189). -/
theorem releaseHold_single {s : State} {c : CoreId} {p : PartId} {r : RunSt} {x : StepRec} {k : Core} {o : SlotOp} {g : Core → Core}
    (h : Straight (s.modCore c (fun _ => k)) c p r x) (hcore : s.core c = { k with fetched := [[o]], timed := true }) (hslot : o.slot ≠ 0)
    (hbad : bundleBad (k.holding [o]) (imageLimits x).1 (imageLimits x).2 [o] = false)
    (hheld : bundleHeld (k.holding [o]) (s.part p).events.toList [o] = false) (hop : operandsOk (k.holding [o]) o = true)
    (hact : ((s.modCore c (fun _ => k)).begun c p x).actSlot c (k.holding [o]) [o] o =
      ((s.modCore c (fun _ => k)).begun c p x).modCore c g)
    (hg : SameControl k.begun (g k.begun)) :
    ∃ t, s.releaseHold c = .next t ∧ OthersSame s t c ∧ t.core c = (g k.begun).passed := by
  have hk : (s.modCore c (fun _ => k)).core c = k := core_modCore _ _ _
  have hissuing : s.issuing c = true := (issuing_modCore (f := fun _ => k) (by rw [hcore])).symm.trans h.ready.issuing
  have hstep : s.stepOf c = some (p, r, x) := (stepOf_modCore ..).symm.trans h.ready.step
  have hreleased : s.modCore c (fun k => { k with timed := false }) = (s.modCore c (fun _ => k)).modCore c (·.holding [o]) := by
    rw [modCore_modCore]
    refine modCore_congr ?_
    rw [hcore]
    exact released_eq_holding (hk ▸ h.ready.calm) _
  have hissue := tryIssue_single h hslot (by rw [hk]; exact hheld) (by rw [hk]; exact hop) (by rw [hk]; exact hact) (by rw [hk]; exact hg)
  refine ⟨(((s.modCore c (fun _ => k)).begun c p x).modCore c g).modCore c Core.passed, ?_, ?_, ?_⟩
  rotate_left
  · exact othersSame_modCore (othersSame_modCore (othersSame_firstBundle
      (othersSame_modCore (othersSame_modCore (othersSame_refl s c) _) _) p x) g) _
  · rw [core_modCore, core_modCore, core_begun, hk]
  · unfold State.releaseHold
    simp only [hissuing, hstep, hreleased, hissue]
    simp only [core_modCore, Core.holding] at hbad ⊢
    simp only [hbad, Bool.false_eq_true, if_false]

/-- A scalar result of a core with no VEXT in flight is a write of the register (R185). -/
theorem issueS_eq_withS {k : Core} (h : k.vecQ = []) (d : SReg) (v : DWord) : k.issueS d v = withS k d v := by
  have hsame : ({ k with vecQ := k.vecQ.map (fun f => f.dropS d) } : Core) = k := by rw [h, List.map_nil, ← h]
  rw [Core.issueS, hsame]
  rfl

theorem sameControl_withS (k : Core) (d : SReg) (v : DWord) : SameControl k (withS k d v) := by
  unfold withS
  split <;> exact ⟨rfl, rfl, rfl, rfl, rfl⟩

/-- The write of a scalar register and the step of the sequencer commute. -/
theorem passed_withS (k : Core) (d : SReg) (v : DWord) : (withS k d v).passed = withS k.passed d v := by
  unfold withS
  split <;> rfl

/-- A calm core whose bundle issued and left it alone has moved on. -/
theorem passed_begun {k : Core} (h : Calm k) : k.begun.passed = moved k := by
  simp only [Core.passed, Core.begun, moved, h.staged, h.fetched]

/-- A scalar operation held by time alone issues when its hold is released (R189, R215). -/
theorem releaseHold_scalar {s : State} {c : CoreId} {p : PartId} {r : RunSt} {x : StepRec} {k : Core} (f : SBin) (d a b : SReg)
    (hissuing : s.issuing c = true) (hstep : s.stepOf c = some (p, r, x)) (hcalm : Calm k) (hfetched : Safety.Fetched s c)
    (hin : ∀ l rest, k.loops = l :: rest → l.last ≠ k.pc) (hmore : k.pc + 1 < k.codeLen)
    (hcore : s.core c = { k with fetched := [[.scl (.bin f d a b)]], timed := true }) :
    ∃ t, s.releaseHold c = .next t ∧ OthersSame s t c ∧ t.core c = withS (moved k) d (scalarBin f (k.sreg a) (k.sreg b)) := by
  have hk : (s.modCore c (fun _ => k)).core c = k := core_modCore _ _ _
  have hstraight : Straight (s.modCore c (fun _ => k)) c p r x := by
    refine ⟨⟨(issuing_modCore (by rw [hcore])).trans hissuing, (stepOf_modCore ..).trans hstep, by rw [hk]; exact hcalm, ?_⟩,
      by rw [hk]; exact hin, by rw [hk]; exact hmore⟩
    exact fetched_modCore hfetched (by rw [hcore]) (by rw [hcore]) (by rw [hcore]) (by rw [hcore]; exact ⟨rfl, rfl⟩)
  have hwrites : scalarAct (k.holding [.scl (.bin f d a b)]) (.bin f d a b) k.begun =
      withS k.begun d (scalarBin f (k.sreg a) (k.sreg b)) := issueS_eq_withS (k := k.begun) hcalm.vecs d _
  obtain ⟨t, ht, hothers, hend⟩ := releaseHold_single (g := scalarAct (k.holding [.scl (.bin f d a b)]) (.bin f d a b)) hstraight hcore
    (by simp [SlotOp.slot]) (bundleBad_scalar ..) (bundleHeld_calm hcalm _ rfl) rfl rfl (hwrites ▸ sameControl_withS ..)
  exact ⟨t, ht, hothers, by rw [hend, hwrites, passed_withS, passed_begun hcalm]⟩

/-! ### A bundle of NOPs (assumption log 5) -/

/-- A bundle of NOPs at the pc issues and only moves on (R184, R189). -/
theorem releaseHold_empty {s : State} {c : CoreId} {p : PartId} {r : RunSt} {x : StepRec} (h : Straight s c p r x)
    (hframe : (s.core c).frame = none) (hzero : ∀ i, i < 32 → Tab.get 0 (s.core c).imem (32 * (s.core c).pc + i) = 0) :
    ∃ t, s.releaseHold c = .next t ∧ OthersSame s t c ∧ t.core c = moved (s.core c) := by
  have hready := h.ready
  have hcalm := hready.calm
  have hempty : s.emptyBundle c (s.core c) = true := by
    have hbytes : ((List.range 32).map (fun i => Tab.get 0 (s.core c).imem (32 * (s.core c).pc + i))).all (fun b => decide (b = 0)) =
        true := by
      simpa using hzero
    rw [State.emptyBundle, hframe, hcalm.staged, decide_eq_true (Nat.lt_of_succ_lt h.more)]
    exact hbytes
  have hsame : s.modCore c (fun k => { k with timed := false }) = s := by
    refine (modCore_congr ?_).trans (modCore_id s c)
    rw [← hcalm.timed]
    rfl
  have harrives : s.modCore c (fun k => { k with fetched := [[]] }) = s.modCore c (·.holding []) :=
    modCore_congr (by simp only [Core.holding, hcalm.staged])
  have hissue := tryIssue_slots (ops := []) (g := id) h (by simp) (bundleHeld_calm_slots hcalm _ (by simp)) rfl
    (modCore_id (s.begun c p x) c).symm ⟨rfl, rfl, rfl, rfl, rfl⟩
  refine ⟨((s.begun c p x).modCore c id).modCore c Core.passed, ?_,
    othersSame_modCore (othersSame_modCore (othersSame_begun s c p x) _) _, ?_⟩
  · unfold State.releaseHold
    simp only [hready.issuing, hready.step, hsame, hcalm.fetched, hempty, harrives, hissue, if_true]
  · rw [core_modCore, core_modCore, core_begun]
    exact passed_begun hcalm

/-- Settles O29: a unit in which nothing waits is left alone, a pass that may stream begins and reads all its rows; a held scalar
addition and a bundle of NOPs issue as bundles of a calm core do. -/
theorem waitsAreReleased : Obligations.waits_are_released := by
  refine ⟨fun s c => ⟨fun hcalm he u => tagWaitRelease_calm hcalm he u,
    fun f rows hq hstarted hfeed htaps hloads hphase h hready =>
      tagWaitRelease_streams hq hstarted hfeed htaps hloads hphase h hready⟩, fun s c => ⟨fun hidle => ?_, ?_, ?_⟩⟩
  · rw [exec_bundleIssueHoldRelease, execBundleIssueHoldRelease, releaseHold_idle hidle]
  · intro p r x k d a b hissuing hstep hcalm hfetched hin hmore hcore
    have hsum : scalarBin .add (k.sreg a) (k.sreg b) = BitVec.ofNat 64 ((k.sreg a).toNat + (k.sreg b).toNat) :=
      BitVec.eq_of_toNat_eq (by simp [scalarBin])
    rw [exec_bundleIssueHoldRelease, execBundleIssueHoldRelease, ← hsum]
    exact releaseHold_scalar .add d a b hissuing hstep hcalm hfetched hin hmore hcore
  · intro p r x h hframe hzero
    rw [exec_bundleIssueHoldRelease, execBundleIssueHoldRelease]
    exact releaseHold_empty h hframe hzero

end Sys2Proof.Machine

/-!
PROOFS. Writes of queue, partition, session, journal window and RT slot entries (R176, R259, R261, R266, R268, R270, R274, R278):
`queue_and_partition_entries`.
-/
namespace Sys2Proof.Machine
open Sys2Proof.Safety

/-! ### A write whose handler logs events (R429) -/

/-- The mailbox at the end of a WRITE that was answered. -/
theorem pdEnd_done {u : State} {r : PdReq} (hw : r.write = true) (hclaims : u.ctl.attachWaits = []) :
    ∃ k, Finished u.ctl k r.async ∧ (u.pdCount r none).pdEnd r (.ok []) = { u with ctl := k } := by
  refine ⟨{ u.ctl with
      transactions := u.ctl.transactions + 1, latched := none, pdState := .done, abort := 0, rlen := 0
      irqStatus := if r.async then u.ctl.irqStatus ||| 0x20 else u.ctl.irqStatus },
    ⟨⟨rfl, rfl, rfl, rfl, rfl, rfl, rfl, rfl, rfl, rfl, rfl⟩, rfl, rfl, rfl, rfl, rfl, rfl⟩, ?_⟩
  unfold State.pdEnd State.pdCount
  cases ha : r.async with
  | true => simp only [hclaims, hw, State.irq, if_true]; rfl
  | false => simp only [hclaims, hw, Bool.false_eq_true, if_true, if_false]

/-- A write that its handler answers ends DONE, whatever else of the status bits the handler raised. -/
theorem endsDone_of_handler {i : Instr} {s u : State} {r : PdReq} {h : State → Served} {irq : Byte} (hi : exec i s = s.pdCommand r h)
    (hm : MailboxFree s) (hw : r.write = true) (hh : h (s.withCtl (busyCtl s.ctl r)) = done u)
    (hc : u.ctl = { busyCtl s.ctl r with irqStatus := irq }) : EndsDone i s r.async u := by
  have hclaims : u.ctl.attachWaits = [] := by rw [hc]; exact hm.claims
  obtain ⟨k, hk, hend⟩ := pdEnd_done hw hclaims
  refine ⟨k, hk, hi.trans ((pdCommand_eq s r h hm).trans (congrArg Host.Outcome.next ?_))⟩
  exact (pdRun_done (s := s.withCtl (busyCtl s.ctl r)) r hm.serving hh (by rw [hc]; exact id)).trans hend

/-! ### Queue entries (R259, R266, R268, R270) -/

theorem writeEnable_on {s : State} {q : QueueId} (h : (s.queue q).stopped = false) :
    s.writeEnable q 1 = done (s.modQueue q (fun x => { x with enable := true })) := by
  unfold State.writeEnable
  rw [h]
  rfl

theorem writeEnable_off {s : State} {q : QueueId} (hrecords : s.records = []) (h : ∀ x ∈ s.steps, x.queue = q → x.state ≠ .killed) :
    s.writeEnable q 0 = done (s.modQueue q (fun x => { x with enable := false })) := by
  have hnone : s.steps.filter (fun x => decide (x.queue = q ∧ x.state = .killed)) = [] :=
    List.filter_eq_nil_iff.mpr fun x hx => by simpa using h x hx
  have hsteps : (s.modQueue q (fun x => { x with enable := decide ((0 : Nat) = 1) })).steps = s.steps := rfl
  have hrec : (s.modQueue q (fun x => { x with enable := decide ((0 : Nat) = 1) })).records = [] := hrecords
  unfold State.writeEnable
  dsimp only
  rw [hsteps, hnone, List.foldl_nil, State.driveRecords, hrec]
  rfl

theorem writeKill_none {s : State} {q : QueueId} (h : ∀ x ∈ s.steps, x.queue = q → x.state ≠ .started) : s.writeKill q 1 = done s := by
  have hnone : s.steps.filter (fun x => decide (x.queue = q ∧ x.state = .started)) = [] :=
    List.filter_eq_nil_iff.mpr fun x hx => by simpa using h x hx
  unfold State.writeKill
  rw [hnone]
  rfl

theorem writeKill_one {s : State} {q : QueueId} {x : StepRec}
    (h : s.steps.filter (fun y => decide (y.queue = q ∧ y.state = .started)) = [x]) :
    s.writeKill q 1 = done (s.killRun x.part 0x01) := by
  unfold State.writeKill
  rw [h]
  rfl

theorem queueRest_true {s : State} {q : QueueId} (henable : (s.queue q).enable = false) (hsteps : ∀ x ∈ s.steps, x.queue ≠ q)
    (hfetched : ∀ f ∈ s.fetched, f.queue ≠ q) : s.queueRest q = true := by
  simpa [State.queueRest, State.queueQuiet, henable] using ⟨hsteps, hfetched⟩

theorem writeFetch_eq {s : State} {q : QueueId} (h : s.queueRest q = true) (v : Word) :
    s.writeFetch q v = done (if 2 ^ (s.queue q).slotsLog2.toNat < ((s.queue q).tail - v).toNat then
      (s.modQueue q (fun x => { x with fetch := v, stopped := false })).stopQueue q
      else s.modQueue q (fun x => { x with fetch := v, stopped := false })) := by
  unfold State.writeFetch
  rw [h]
  simp only [State.slots, State.posted, queue_modQueue]
  rfl

/-- A place that is changed twice. -/
theorem upd_upd {α : Type} {n : Nat} (v : Vector α n) (i : Fin n) (f g : α → α) : upd (upd v i f) i g = upd v i (fun x => g (f x)) := by
  simp [upd]

/-- A queue that stops (R267, R268): its mark and a health event. -/
theorem stopQueue_running {s : State} {q : QueueId} (h : (s.queue q).stopped = false) :
    ∃ t : State, s.stopQueue q = t ∧ t.queues = upd s.queues q (fun x => { x with stopped := true }) ∧
      t.fault.healthNext = s.fault.healthNext + 1 ∧ t.steps = s.steps ∧ t.parts = s.parts ∧ t.cores = s.cores ∧
      ∃ i, t.ctl = { s.ctl with irqStatus := i } := by
  unfold State.stopQueue
  rw [h]
  unfold State.health
  dsimp only
  generalize eventRecord 0x09 none 0 q.val _ = r
  obtain ⟨l, e⟩ := forwardEvent_link (({ s.modQueue q (fun x => { x with stopped := true }) with fault := { s.fault with
    health := Tab.put s.fault.health (s.fault.healthNext.toNat % 64) r, healthNext := s.fault.healthNext + 1 } }).irq 3) r
  exact ⟨_, e, rfl, rfl, rfl, rfl, rfl, _, rfl⟩

/-! ### A run that is killed (R247, R249) -/

theorem eccLogged_landDeep (s : State) (c : CoreId) : EccLogged s (s.landDeep c) :=
  .foldl (f := fun t (w : DeepWrite) => (t.deepWrite w.dsa w.bs).1) (fun t w => eccLogged_deepWrite t w.dsa w.bs) _ s

/-- The cores of a run stop: each lands its deep-scratch writes and is idle; only cores, deep scratch and the logs of its detections move. -/
theorem abandonCores_spec (cs : List CoreId) (s : State) :
    ∃ ks u, cs.foldl (fun s c => (s.landDeep c).modCore c Core.abandon) s = { u with cores := ks } ∧ EccLogged s u ∧
      (∀ c : CoreId, c ∈ cs → (ks[c.val]).phase = .idle) ∧ ∀ c : CoreId, c ∉ cs → ks[c.val] = s.core c := by
  induction cs generalizing s with
  | nil => exact ⟨s.cores, s, rfl, .refl s, fun c hc => absurd hc List.not_mem_nil, fun c _ => rfl⟩
  | cons a cs ih =>
    obtain ⟨d, sc, l, h, n, i, hland⟩ := eccLogged_landDeep s a
    obtain ⟨ks, u, e, hlogged, hidle, hkept⟩ := ih ((s.landDeep a).modCore a Core.abandon)
    obtain ⟨d', sc', l', h', n', i', hu⟩ := hlogged
    refine ⟨ks, { u with cores := s.cores }, e, ?_, ?_, ?_⟩
    · rw [hu, hland]
      exact ⟨d', sc', l', h', n', i', rfl⟩
    · intro c hc
      by_cases hcs : c ∈ cs
      · exact hidle c hcs
      · have hca : c = a := (List.mem_cons.mp hc).resolve_right hcs
        rw [hkept c hcs, hca, core_modCore]
        rfl
    · intro c hc
      obtain ⟨hca, hcs⟩ := not_or.mp (mt List.mem_cons.mpr hc)
      rw [hkept c hcs, core_modCore_ne _ _ _ _ hca, hland]
      rfl

/-- A run that nothing stops yet is stopped: it drains (R247). -/
theorem stopRun_drains {s : State} {p : PartId} {r : RunSt} (hrun : (s.part p).run = some r) (hphase : r.phase = .running) (why : StopWhy) :
    Drains s (s.stopRun p why) p r why ∧ ∃ i, (s.stopRun p why).ctl = { s.ctl with irqStatus := i } := by
  obtain ⟨ks, u, e, ⟨d, sc, l, hl, n, i, hu⟩, hidle, hkept⟩ := abandonCores_spec r.cores s
  unfold State.stopRun
  rw [hrun]
  dsimp only
  rw [hphase]
  dsimp only
  rw [e, hu]
  refine ⟨⟨?_, hidle, hkept, fun k hk => part_modPart_ne _ _ _ _ hk, rfl, rfl, rfl⟩, i, rfl⟩
  rw [part_modPart]

/-- A kill outside the commit phase stops the run (R249). -/
theorem killRun_running {s : State} {p : PartId} {r : RunSt} (hrun : (s.part p).run = some r) (hphase : r.phase = .running) (cause : Byte) :
    s.killRun p cause = s.stopRun p (.kill cause) := by
  unfold State.killRun
  rw [hrun]
  dsimp only
  rw [hphase]

/-! ### Journal window and sessions (R259, R274) -/

theorem writeCword_eq {s : State} {q : QueueId} (h : ∀ x ∈ s.steps, x.queue ≠ q) (v : Word) :
    s.writeCword q v = done (s.modQueue q (fun x => { x with cword := v })) := by
  have hnone : s.steps.any (fun x => decide (x.queue = q)) = false := List.any_eq_false.mpr fun x hx => by simpa using h x hx
  rw [State.writeCword, hnone]
  rfl

theorem writeWindowStart_eq {s : State} {v : DWord} (hpos : 0 < v.toNat) (hold : v.toNat < s.journal.nextAseq) (who : Fin 2) :
    s.writeWindowStart who v =
      done { s with journal := { s.journal with windowStart := s.journal.windowStart.set who.val v who.isLt } } := by
  rw [State.writeWindowStart, refuse_of_false (decide_eq_false (by omega))]
  rfl

theorem writeSessionClear_eq {s : State} {ast : Nat} (h : ast ≤ 1023) :
    s.writeSessionClear ast = done { s with journal := { s.journal with sessions := Tab.del s.journal.sessions ast } } := by
  rw [State.writeSessionClear, refuse_of_false (decide_eq_false (by omega))]
  simp only [State.session, Tab.set, if_true]

/-! ### Partitions and RT slots (R176, R261, R278) -/

theorem writeCoreMask_eq {s : State} {p : PartId} {v : Word} (hquiet : s.partQuiet p = true)
    (hrt : (s.part p).rt = true → rtMaskOk v.toNat = true)
    (h : ∀ n, v.getLsbD n = true → n % 5 ≠ 4 ∧ s.fault.coreMap.getLsbD n = true ∧
      ∀ k, k ≠ p → (s.part k).coreMask.getLsbD n = false) :
    s.writeCoreMask p v = done (s.modPart p (fun x => { x with coreMask := v })) := by
  have hcores : (List.range 32).any (fun n => v.getLsbD n && (decide (n % 5 = 4) || !s.fault.coreMap.getLsbD n ||
      allParts.any (fun k => decide (k ≠ p) && (s.part k).coreMask.getLsbD n))) = false := by
    refine List.any_eq_false.mpr fun n _ hn => ?_
    obtain ⟨hbit, hbad⟩ := Bool.and_eq_true_iff.mp hn
    obtain ⟨hspare, hmap, hothers⟩ := h n hbit
    have hfree : allParts.any (fun k => decide (k ≠ p) && (s.part k).coreMask.getLsbD n) = false :=
      List.any_eq_false.mpr fun k _ hk => by
        obtain ⟨hkp, hmask⟩ := Bool.and_eq_true_iff.mp hk
        rw [hothers k (of_decide_eq_true hkp)] at hmask
        cases hmask
    rw [decide_eq_false hspare, hmap, hfree] at hbad
    cases hbad
  have hclass : ((s.part p).rt && !rtMaskOk v.toNat) = false := by
    cases hp : (s.part p).rt with
    | false => rfl
    | true => rw [hrt hp]; rfl
  rw [State.writeCoreMask, refuse_of_false (by rw [hquiet]; rfl), hcores, hclass]
  rfl

theorem writeDw_eq {s : State} {p : PartId} {v : DWord} (hquiet : s.partQuiet p = true) (h : s.dwBad p v = false) (w : Fin 4) :
    s.writeDw p w v = done (s.modPart p (fun x => { x with dw := x.dw.set w.val v w.isLt })) := by
  rw [State.writeDw, refuse_of_false (by rw [hquiet]; rfl), refuse_of_false h]
  rfl

theorem writeSlot_eq {s : State} {bs : List Byte} (h : descChecks bs none s.rtImage = none) (i : Fin 16) :
    s.writeSlot i bs = done { s with rt := { s.rt with
      slots := s.rt.slots.set i.val bs i.isLt, slotValid := s.rt.slotValid ||| BitVec.ofNat 16 (2 ^ i.val) } } := by
  rw [State.writeSlot, refuse_of_false (by rw [h]; rfl)]
  rfl

/-! ### The entries -/

/-- KILL of a queue with a step in STARTED (R270). -/
theorem endsDone_kill {s : State} {q : QueueId} {p : PartId} {r : RunSt} {x : StepRec} (async : Bool) (hm : MailboxFree s)
    (hrun : Running s p r x) (hp : x.part = p) (hone : s.steps.filter (fun y => decide (y.queue = q ∧ y.state = .started)) = [x]) :
    ∃ t, EndsDone (.kill q 1 async) s async t ∧ Drains s t p r (.kill 0x01) := by
  obtain ⟨hrun, hphase, -⟩ := hrun
  let b := s.withCtl (busyCtl s.ctl (writeReq async (0x3110 + q.val) 0x0D [1]))
  obtain ⟨hdrains, i, hctl⟩ := stopRun_drains (s := b) hrun hphase (.kill 0x01)
  refine ⟨b.stopRun p (.kill 0x01), endsDone_of_handler (exec_kill q 1 async s) hm rfl ?_ hctl,
    ⟨hdrains.run, hdrains.idle, hdrains.cores, hdrains.parts, hdrains.steps, hdrains.queues, hdrains.pending⟩⟩
  rw [← killRun_running (s := b) hrun hphase, ← hp]
  exact writeKill_one (s := b) hone

/-- FETCH that leaves TAIL further ahead than the slot count (R268). -/
theorem endsDone_fetch_stops {s : State} {q : QueueId} {v : Word} (async : Bool) (hm : MailboxFree s) (hrest : s.queueRest q = true)
    (hahead : 2 ^ (s.queue q).slotsLog2.toNat < ((s.queue q).tail - v).toNat) :
    ∃ t, EndsDone (.fetchWrite q v async) s async t ∧ t.queues = upd s.queues q (fun x => { x with fetch := v, stopped := true }) ∧
      t.fault.healthNext = s.fault.healthNext + 1 ∧ t.steps = s.steps ∧ t.parts = s.parts ∧ t.cores = s.cores := by
  let b := s.withCtl (busyCtl s.ctl (writeReq async (0x3110 + q.val) 0x0A (leBytes 4 v.toNat)))
  have hrunning : ((b.modQueue q (fun x => { x with fetch := v, stopped := false })).queue q).stopped = false := by
    rw [queue_modQueue]
  obtain ⟨t, ht, hqueues, hhealth, hsteps, hparts, hcores, i, hctl⟩ := stopQueue_running hrunning
  refine ⟨t, endsDone_of_handler (exec_fetchWrite q v async s) hm rfl ?_ hctl, hqueues.trans ?_, hhealth, hsteps, hparts, hcores⟩
  · exact ht ▸ (writeFetch_eq (s := b) hrest v).trans (congrArg done (if_pos hahead))
  · exact upd_upd s.queues q (fun x => { x with fetch := v, stopped := false }) (fun x => { x with stopped := true })

/-- Settles O31: each write is its handler's, which its rule accepts; KILL and a FETCH that stops its queue also log events. -/
theorem queueAndPartitionEntries : Obligations.queue_and_partition_entries := by
  intro s async hm
  refine ⟨fun q hq => ?_, fun q hrecords hq => ?_, fun q hq => ?_, fun q p r x hrun hp hone => endsDone_kill async hm hrun hp hone,
    fun q v henable hsteps hfetched => ?_, fun q v hq => ?_, fun v hpos hold => ?_, fun ast hast => ?_, fun p v hquiet hrt h => ?_,
    fun p w v hquiet h => ?_, fun i bs hlen h => ?_⟩
  · exact ends_done s _ (fun s => s.writeEnable q 1) async _ hm rfl rfl rfl (fun k => writeEnable_on (s := s.withCtl k) hq)
  · exact ends_done s _ (fun s => s.writeEnable q 0) async _ hm rfl rfl rfl (fun k => writeEnable_off (s := s.withCtl k) hrecords hq)
  · exact ends_done s _ (fun s => s.writeKill q 1) async _ hm rfl rfl rfl (fun k => writeKill_none (s := s.withCtl k) hq)
  · have hrest := queueRest_true henable hsteps hfetched
    refine ⟨fun hnear => ?_, fun hahead => endsDone_fetch_stops async hm hrest hahead⟩
    exact ends_done s _ (fun s => s.writeFetch q v) async _ hm rfl rfl rfl
      (fun k => (writeFetch_eq (s := s.withCtl k) hrest v).trans (congrArg done (if_neg (not_lt.mpr hnear))))
  · exact ends_done s _ (fun s => s.writeCword q v) async _ hm rfl rfl rfl (fun k => writeCword_eq (s := s.withCtl k) hq v)
  · exact ends_done s _ (fun s => s.writeWindowStart 0 v) async _ hm rfl rfl rfl
      (fun k => writeWindowStart_eq (s := s.withCtl k) hpos hold 0)
  · exact ends_done s _ (fun s => s.writeSessionClear ast.toNat) async _ hm rfl rfl rfl
      (fun k => writeSessionClear_eq (s := s.withCtl k) hast)
  · exact ends_done s _ (fun s => s.writeCoreMask p v) async _ hm rfl rfl rfl
      (fun k => writeCoreMask_eq (s := s.withCtl k) hquiet hrt h)
  · exact ends_done s _ (fun s => s.writeDw p w v) async _ hm rfl rfl rfl (fun k => writeDw_eq (s := s.withCtl k) hquiet h w)
  · exact ends_done s _ (sized 128 bs (fun s => s.writeSlot i bs)) async _ hm rfl rfl rfl
      (fun k => (if_pos hlen).trans (writeSlot_eq (s := s.withCtl k) h i))

end Sys2Proof.Machine

/-!
PROOFS. Responses, reports, events and relayed transactions at the Stack Link (R178, R345, R346, R349, R350, R369, R436, R437):
`link_responses_and_control`.
-/
namespace Sys2Proof.Machine
open Sys2Proof.Safety

/-! ### The heads of the receive buffers -/

theorem headMsg_cons {typ : Nat} {m : Msg} (h : hType m.hdr = typ) (rest : List Msg) : headMsg typ (m :: rest) = some m := if_pos h

theorem onRsp_head {s : State} {l : LinkId} {m : Msg} {rest : List Msg} {typ : Nat} (hon : s.linkOn = true)
    (hq : (s.link.ports[l.val]).rxRsp = m :: rest) (h : hType m.hdr = typ) (f : State → Msg → State) :
    s.onRsp l typ f = .next (f (s.popRsp l) m) := by
  rw [State.onRsp, hon, hq, headMsg_cons h]

theorem onMgt_head {s : State} {l : LinkId} {m : Msg} {rest : List Msg} {typ : Nat} (hon : s.linkOn = true)
    (hq : (s.link.ports[l.val]).rxMgt = m :: rest) (h : hType m.hdr = typ) (f : State → Msg → State) :
    s.onMgt l typ f = .next (f (s.popMgt l m) m) := by
  rw [State.onMgt, hon, hq, headMsg_cons h]

/-- The head that leaves a response buffer. -/
theorem rxRsp_popRsp {s : State} {l : LinkId} {m : Msg} {rest : List Msg} (hq : (s.link.ports[l.val]).rxRsp = m :: rest) :
    ((s.popRsp l).link.ports[l.val]).rxRsp = rest := by
  simp [State.popRsp, State.modLink, upd, hq]

/-! ### Streams and cores that do not wait for the Stack Link (R340) -/

/-- Where no core waits for room in the response buffer, nothing goes on (R340). -/
theorem driveRemote_idle {s : State} (hflushes : ∀ d, (s.core d).phase = .committed → (s.core d).remoteFlush = 0)
    (hstreams : ∀ d t f, s.dmaHead d t = some f → (f.todo.head?.bind (·.peer)).isSome = false) : s.driveRemote = s := by
  refine foldl_same fun d _ => ?_
  have hno : ¬ ((s.core d).phase = .committed ∧ (s.core d).remoteFlush ≠ 0) := fun ⟨h1, h2⟩ => h2 (hflushes d h1)
  dsimp only
  rw [if_neg hno]
  refine foldl_same fun t _ => ?_
  cases hf : s.dmaHead d t with
  | none => rfl
  | some f => exact if_neg (ne_true_of_eq_false (hstreams d t f hf))

/-- The same for a core whose own FLUSHes are all answered, or that is not committed. -/
theorem driveRemote_remoteIdle {s : State} {c : CoreId} (h : RemoteIdle s c)
    (hc : (s.core c).phase = .committed → (s.core c).remoteFlush = 0) : s.driveRemote = s := by
  refine driveRemote_idle (fun d hd => ?_) h.streams
  by_cases hdc : d = c
  · exact hdc ▸ hc (hdc ▸ hd)
  · exact h.flushes d hdc hd

/-- The head of a stream that is changed. -/
theorem dmaHead_modHead {s : State} {c : CoreId} {t : Fin 8} {f : DmaFlight} (h : s.dmaHead c t = some f) (g : DmaFlight → DmaFlight)
    (d : CoreId) (u : Fin 8) : (s.modHead c t g).dmaHead d u = if d = c ∧ u = t then some (g f) else s.dmaHead d u := by
  obtain ⟨rest, hq⟩ : ∃ rest, ((s.core c).dma[t.val]).q = f :: rest := List.head?_eq_some_iff.mp h
  unfold State.dmaHead State.modHead
  rw [core_modCore_eq]
  by_cases hdc : d = c
  · subst hdc
    simp only [if_true, getElem_upd, true_and]
    by_cases hut : u = t
    · simp only [hut, if_true, hq, List.head?_cons]
    · simp only [hut, if_false]
  · simp only [hdc, if_false, false_and]

/-- The buffers of the expander stay when the head of a stream is changed. -/
theorem expBufs_modHead (s : State) (c : CoreId) (t : Fin 8) (g : DmaFlight → DmaFlight) (d : CoreId) (u : Fin 8) :
    (((s.modHead c t g).core d).dma[u.val]).expBufs = (((s.core d).dma[u.val])).expBufs := by
  unfold State.modHead
  rw [core_modCore_eq]
  split
  · next e =>
    subst e
    dsimp only
    rw [getElem_upd]
    split
    · next e => rw [e]
    · rfl
  · rfl

/-- An idle expander stays idle when the head of a stream changes in nothing that the expander looks at (R323). -/
theorem expanderIdle_modHead {s : State} {c d : CoreId} {t : Fin 8} {f : DmaFlight} {g : DmaFlight → DmaFlight} (h : ExpanderIdle s d)
    (hf : s.dmaHead c t = some f) (hexp : (g f).exp = f.exp) (hphase : (g f).phase = f.phase) (hout : (g f).out = f.out) :
    ExpanderIdle (s.modHead c t g) d := by
  intro j hj
  have hidle := h j hj
  unfold State.expReady at hidle ⊢
  dsimp only at hidle ⊢
  rw [dmaHead_modHead hf, expBufs_modHead]
  by_cases hat : (expStream (clusterOf d) j).1 = c ∧ (expStream (clusterOf d) j).2 = t
  · have hhead : s.dmaHead (expStream (clusterOf d) j).1 (expStream (clusterOf d) j).2 = some f := by rw [hat.1, hat.2, hf]
    rw [hhead] at hidle
    rw [if_pos hat]
    simpa only [hexp, hphase, hout] using hidle
  · rw [if_neg hat]
    exact hidle

/-- The head of a stream that waits for its data does nothing meanwhile. -/
theorem driveDma_waiting {s : State} {c : CoreId} {t : Fin 8} {f : DmaFlight} (he : ExpanderIdle s c) (hf : s.dmaHead c t = some f)
    (hphase : f.phase = 1) (hopen : f.openTx ≠ 0) (htodo : f.todo = []) (hwalk : f.walk = none) : s.driveDma c t = s := by
  have hstart : s.startDma c t = s := by
    have hphase0 : f.phase ≠ 0 := by rw [hphase]; decide
    unfold State.startDma
    rw [hf]
    split
    · next f' p' hf' _ => cases hf'; exact if_pos hphase0
    · rfl
  have hpump : s.pumpDma c t = s := by
    unfold State.pumpDma
    rw [hf]
    dsimp only
    rw [State.pumpN, hf]
    split
    · next f' _ _ _ hf' _ => cases hf'; rw [hwalk, htodo]
    · rfl
  have hturn : s.turnDma c t = s := by
    have hcollected : s.collected c t f = false := by simp [State.collected, hopen]
    unfold State.turnDma
    rw [hf]
    split
    · next f' _ _ _ hf' _ => cases hf'; exact if_pos (Or.inr (Or.inr (by rw [hcollected]; rfl)))
    · rfl
  simp only [State.driveDma, expand_idle he, hstart, hpump, hturn]

/-! ### RDATA and FLUSH_DONE (R178, R345, R346) -/

/-- A fault ends the step of a core that runs one (R247). -/
theorem failCore_drains {s : State} {c : CoreId} {p : PartId} {y : RunSt} {k : StepRec} (h : s.stepOf c = some (p, y, k))
    (hphase : y.phase = .running) (status : Byte) (detail : Nat) :
    Drains s (s.failCore c status detail) p y (.fault status (BitVec.ofNat 32 detail)) := by
  obtain ⟨hrunOf, hrun, -⟩ := of_stepOf h
  rw [State.failCore, hrunOf]
  exact (stopRun_drains hrun hphase _).1

/-- What drains from a state that differs in the Stack Link alone. -/
theorem Drains.of_link {s t : State} {x : LinkSt} {p : PartId} {r : RunSt} {why : StopWhy} (h : Drains { s with link := x } t p r why) :
    Drains s t p r why := ⟨h.run, h.idle, h.cores, h.parts, h.steps, h.queues, h.pending⟩

/-- `s` after the head of response buffer `l` has answered the read `r`. -/
def State.readTaken (s : State) (l : LinkId) (r : RemoteRead) : State :=
  (s.popRsp l).modSt (fun x => { x with reads := x.reads.erase r })

/-- An RDATA that no run waits for (R247). -/
theorem rdata_dropped {s : State} {l : LinkId} {m : Msg} {rest : List Msg} {r : RemoteRead} (hon : s.linkOn = true)
    (hq : (s.link.ports[l.val]).rxRsp = m :: rest) (ht : hType m.hdr = 8)
    (hr : s.link.reads.find? (fun r => decide (r.tag = hTag m.hdr ∧ r.engine = hSrc m.hdr)) = some r) (hlive : r.live = false) :
    exec (.rdata l) s = .next (s.readTaken l r).driveRemote := by
  have hr' : (s.popRsp l).link.reads.find? (fun r => decide (r.tag = hTag m.hdr ∧ r.engine = hSrc m.hdr)) = some r := hr
  rw [exec_rdata, execRdata, onRsp_head hon hq ht, State.readReturns, hr']
  simp only [hlive, Bool.not_false, if_true]
  rfl

/-- An RDATA with a STATUS that is not 0 ends the step (R178, R345). -/
theorem rdata_fails {s : State} {l : LinkId} {m : Msg} {rest : List Msg} {r : RemoteRead} (hon : s.linkOn = true)
    (hq : (s.link.ports[l.val]).rxRsp = m :: rest) (ht : hType m.hdr = 8)
    (hr : s.link.reads.find? (fun r => decide (r.tag = hTag m.hdr ∧ r.engine = hSrc m.hdr)) = some r) (hlive : r.live = true) :
    (hStatus m.hdr = 2 → exec (.rdata l) s = .next ((s.readTaken l r).failCore r.core 0x04 1)) ∧
      (hStatus m.hdr = 1 → exec (.rdata l) s = .next ((s.readTaken l r).failCore r.core 0x03 0)) := by
  have hr' : (s.popRsp l).link.reads.find? (fun r => decide (r.tag = hTag m.hdr ∧ r.engine = hSrc m.hdr)) = some r := hr
  rw [exec_rdata, execRdata, onRsp_head hon hq ht, State.readReturns, hr']
  simp only [hlive, Bool.not_true, Bool.false_eq_true, if_false]
  exact ⟨fun hs => by rw [hs]; rfl, fun hs => by rw [hs]; rfl⟩

/-- RDATA brings its bytes to the command that asked for them. -/
theorem rdata_delivers {s : State} {l : LinkId} {m : Msg} {rest : List Msg} {r : RemoteRead} {f : DmaFlight} (hon : s.linkOn = true)
    (hq : (s.link.ports[l.val]).rxRsp = m :: rest) (ht : hType m.hdr = 8)
    (hr : s.link.reads.find? (fun r => decide (r.tag = hTag m.hdr ∧ r.engine = hSrc m.hdr)) = some r) (hlive : r.live = true)
    (hstatus : hStatus m.hdr = 0) (hf : s.dmaHead r.core r.stream = some f) (hseq : f.seq = r.seq) (hphase : f.phase = 1)
    (hopen : f.openTx ≠ 0) (htodo : f.todo = []) (hwalk : f.walk = none) (he : ExpanderIdle s r.core) (hi : RemoteIdle s r.core)
    (hcommitted : (s.core r.core).phase ≠ .committed) :
    exec (.rdata l) s = .next ((s.readTaken l r).modHead r.core r.stream (fun f => { f with
      got := Tab.put f.got r.off (slice (flitBytes m.data) r.lead r.len) })) := by
  let g := fun (f : DmaFlight) => { f with got := Tab.put f.got r.off (slice (flitBytes m.data) r.lead r.len) }
  have hf' : (s.readTaken l r).dmaHead r.core r.stream = some f := hf
  have hhead : (s.readTaken l r).headIs r.core r.stream r.seq = true := by rw [State.headIs, hf']; exact decide_eq_true hseq
  have hheads := dmaHead_modHead hf' g
  have hdrive : ((s.readTaken l r).modHead r.core r.stream g).driveDma r.core r.stream = (s.readTaken l r).modHead r.core r.stream g :=
    driveDma_waiting (expanderIdle_modHead (g := g) he hf' rfl rfl rfl) ((hheads _ _).trans (if_pos ⟨rfl, rfl⟩)) hphase hopen htodo hwalk
  have hremote : ((s.readTaken l r).modHead r.core r.stream g).driveRemote = (s.readTaken l r).modHead r.core r.stream g := by
    refine driveRemote_idle (fun d hd => ?_) (fun d u k hk => ?_)
    · rw [State.modHead, core_modCore_eq] at hd ⊢
      by_cases hdc : d = r.core
      · rw [if_pos hdc] at hd
        exact absurd hd hcommitted
      · rw [if_neg hdc] at hd ⊢
        exact hi.flushes d hdc hd
    · rw [hheads] at hk
      split at hk
      · cases hk
        change (f.todo.head?.bind _).isSome = false
        rw [htodo]
        rfl
      · exact hi.streams d u k hk
  have hr' : (s.popRsp l).link.reads.find? (fun r => decide (r.tag = hTag m.hdr ∧ r.engine = hSrc m.hdr)) = some r := hr
  rw [exec_rdata, execRdata, onRsp_head hon hq ht, State.readReturns, hr']
  simp only [hlive, hstatus, Bool.not_true, Bool.false_eq_true, if_false]
  refine congrArg Host.Outcome.next (Eq.trans (congrArg State.driveRemote ?_) hremote)
  exact (if_pos hhead).trans hdrive

/-- `s` after the head of response buffer `l` has answered the FLUSH `r`. -/
def State.flushTaken (s : State) (l : LinkId) (r : RemoteFlush) : State :=
  (s.popRsp l).modSt (fun x => { x with flushes := x.flushes.erase r })

/-- A core that has its FLUSH_DONE from an engine. -/
def Core.flushed (e : Nat) (k : Core) : Core :=
  { k with remoteDirty := clearBit k.remoteDirty e, remoteFlush := clearBit k.remoteFlush e }

theorem flushDone_eq {s : State} {l : LinkId} {m : Msg} {rest : List Msg} {r : RemoteFlush} (hon : s.linkOn = true)
    (hq : (s.link.ports[l.val]).rxRsp = m :: rest) (ht : hType m.hdr = 9)
    (hr : s.link.flushes.find? (fun r => decide (r.tag = hTag m.hdr ∧ r.engine = hSrc m.hdr)) = some r) (hlive : r.live = true) :
    exec (.flushDone l) s = .next (if hRefused m.hdr ≠ 0 then (s.flushTaken l r).failCore r.core 0x03 0
      else let t := (s.flushTaken l r).modCore r.core (Core.flushed r.engine)
        (if (t.core r.core).remoteFlush = 0 ∧ (t.core r.core).phase = .committed then t.sendToken r.core else t).driveRemote) := by
  have hr' : (s.popRsp l).link.flushes.find? (fun r => decide (r.tag = hTag m.hdr ∧ r.engine = hSrc m.hdr)) = some r := hr
  rw [exec_flushDone, execFlushDone, onRsp_head hon hq ht, State.flushReturns, hr']
  simp only [hlive, Bool.not_true, Bool.false_eq_true, if_false]
  rfl

/-- A core that leaves its streams alone and sends no FLUSH leaves nothing to go on with (R340). -/
theorem driveRemote_flushed {s u : State} {c : CoreId} {e : Nat} (h : RemoteIdle s c)
    (hu : u.cores = (s.modCore c (Core.flushed e)).cores)
    (hc : (s.core c).phase = .committed → clearBit (s.core c).remoteFlush e = 0) : u.driveRemote = u := by
  have hcore : ∀ d, u.core d = if d = c then (s.core c).flushed e else s.core d := fun d =>
    (congrArg (fun ks : Vector Core 20 => ks[d.val]) hu).trans (core_modCore_eq s c d _)
  refine driveRemote_idle (fun d hd => ?_) (fun d t f hf => ?_)
  · rw [hcore] at hd ⊢
    by_cases hdc : d = c
    · rw [if_pos hdc] at hd ⊢
      exact hc hd
    · rw [if_neg hdc] at hd ⊢
      exact h.flushes d hdc hd
  · have hdma : (u.core d).dma = (s.core d).dma := by
      rw [hcore]
      split
      · next hdc => rw [hdc]; rfl
      · rfl
    have hhead : u.dmaHead d t = s.dmaHead d t := by rw [State.dmaHead, State.dmaHead, hdma]
    exact h.streams d t f (hhead ▸ hf)

/-- The token of a core (R203). -/
def Core.token (c : CoreId) (k : Core) : Token :=
  { core := c, flags := k.allFlags, narrowed := k.narrowed, clipped := k.clipped, ports := k.portMask, strips := k.strips,
    stripCclk := match k.firstStrip with | some x => k.runCclk - x | none => 0 }

/-- The token of a core of a run is on its way (R203, R251). -/
theorem sendToken_arrives {s : State} {c : CoreId} {p : PartId} {y : RunSt} (hrunOf : s.runOf c = some p) (hrun : (s.part p).run = some y) :
    ((s.sendToken c).part p).run = some { y with arrived := y.arrived ++ [(s.core c).token c] } ∧
      (s.sendToken c).cores = s.cores ∧ (s.sendToken c).link = s.link := by
  have hsend : s.sendToken c = s.modPart p (fun x => { x with
      run := x.run.map (fun r => { r with arrived := r.arrived ++ [(s.core c).token c] }) }) := by
    unfold State.sendToken
    rw [hrunOf]
    rfl
  rw [hsend, part_modPart]
  dsimp only
  rw [hrun]
  exact ⟨rfl, rfl, rfl⟩

/-- The last FLUSH_DONE of a committed core sends its token (R346). -/
theorem flushDone_last {s : State} {l : LinkId} {m : Msg} {rest : List Msg} {r : RemoteFlush} {p : PartId} {y : RunSt} {k : StepRec}
    (hon : s.linkOn = true) (hq : (s.link.ports[l.val]).rxRsp = m :: rest) (ht : hType m.hdr = 9)
    (hr : s.link.flushes.find? (fun r => decide (r.tag = hTag m.hdr ∧ r.engine = hSrc m.hdr)) = some r) (hlive : r.live = true)
    (hstep : s.stepOf r.core = some (p, y, k)) (hrefused : hRefused m.hdr = 0) (hcommitted : (s.core r.core).phase = .committed)
    (hlast : clearBit (s.core r.core).remoteFlush r.engine = 0) (hi : RemoteIdle s r.core) :
    ∃ t tok, exec (.flushDone l) s = .next t ∧ t.link.flushes = s.link.flushes.erase r ∧ tok.core = r.core ∧
      (t.part p).run = some { y with arrived := y.arrived ++ [tok] } := by
  obtain ⟨hrunOf, hrun, -⟩ := of_stepOf hstep
  obtain ⟨hpart, hcores, hlink⟩ := sendToken_arrives (s := (s.flushTaken l r).modCore r.core (Core.flushed r.engine)) hrunOf hrun
  refine ⟨_, _, (flushDone_eq hon hq ht hr hlive).trans ?_, congrArg LinkSt.flushes hlink, rfl, hpart⟩
  have hdone : (((s.flushTaken l r).modCore r.core (Core.flushed r.engine)).core r.core).remoteFlush = 0 ∧
      (((s.flushTaken l r).modCore r.core (Core.flushed r.engine)).core r.core).phase = .committed := by
    rw [core_modCore]
    exact ⟨hlast, hcommitted⟩
  rw [if_neg (not_not.mpr hrefused)]
  dsimp only
  rw [if_pos hdone]
  exact congrArg Host.Outcome.next (driveRemote_flushed hi hcores fun _ => hlast)

/-- A FLUSH_DONE of a core that is not committed frees it alone (R346). -/
theorem flushDone_running {s : State} {l : LinkId} {m : Msg} {rest : List Msg} {r : RemoteFlush} (hon : s.linkOn = true)
    (hq : (s.link.ports[l.val]).rxRsp = m :: rest) (ht : hType m.hdr = 9)
    (hr : s.link.flushes.find? (fun r => decide (r.tag = hTag m.hdr ∧ r.engine = hSrc m.hdr)) = some r) (hlive : r.live = true)
    (hrefused : hRefused m.hdr = 0) (hcommitted : (s.core r.core).phase ≠ .committed) (hi : RemoteIdle s r.core) :
    exec (.flushDone l) s = .next ((s.flushTaken l r).modCore r.core (Core.flushed r.engine)) := by
  have hopen : ¬ ((((s.flushTaken l r).modCore r.core (Core.flushed r.engine)).core r.core).remoteFlush = 0 ∧
      (((s.flushTaken l r).modCore r.core (Core.flushed r.engine)).core r.core).phase = .committed) := by
    rw [core_modCore]
    exact fun h => hcommitted h.2
  rw [flushDone_eq hon hq ht hr hlive, if_neg (not_not.mpr hrefused)]
  dsimp only
  rw [if_neg hopen]
  exact congrArg Host.Outcome.next (driveRemote_flushed hi rfl fun h => absurd h hcommitted)

/-! ### PSTATE and EVENT (R349, R350, R369) -/

/-- Messages on their way change the ports of the Stack Link alone. -/
def Sends (s t : State) : Prop := ∃ ps, t = { s with link := { s.link with ports := ps } }

theorem sends_foldl {α : Type} {f : State → α → State} (hf : ∀ s a, Sends s (f s a)) (xs : List α) (s : State) :
    Sends s (xs.foldl f s) := by
  induction xs generalizing s with
  | nil => exact ⟨s.link.ports, rfl⟩
  | cons a xs ih =>
    obtain ⟨ps, e⟩ := hf s a
    obtain ⟨qs, e'⟩ := ih (f s a)
    exact ⟨qs, by rw [List.foldl_cons, e', e]⟩

/-- What the master makes of a report touches the Stack Link alone and keeps the reports (R350). -/
theorem masterOrder_reports (s : State) : ∃ x, s.masterOrder = { s with link := x } ∧ x.reports = s.link.reports := by
  unfold State.masterOrder
  dsimp only
  split
  · exact ⟨s.link, rfl, rfl⟩
  · refine (sends_foldl (fun t e => ?_) _ _).elim fun ps h => ⟨_, h, rfl⟩
    split
    · exact ⟨t.link.ports, rfl⟩
    · exact ⟨_, rfl⟩

/-- `s` where the master holds the report `y` of engine `e`. -/
def State.withReport (s : State) (e : Nat) (y : Nat × Nat) : State := s.modSt (fun x => { x with reports := x.reports.set! e (some y) })

/-- The master keeps a report (R350). -/
theorem hearPstate_report {s : State} {m : Msg} (hformed : s.formed = true) (hmaster : s.pins.master = true)
    (hreport : Config.mgtField 13 0 (hMgt m.hdr) = 0) :
    ∃ x, s.hearPstate m = { s with link := x } ∧ x.reports = s.link.reports.set! (hSrc m.hdr)
      (some ((pst (Config.mgtField 13 1 (hMgt m.hdr))).val, (pst (Config.mgtField 13 3 (hMgt m.hdr))).val)) := by
  obtain ⟨x, e, hx⟩ := masterOrder_reports (s.withReport (hSrc m.hdr)
    ((pst (Config.mgtField 13 1 (hMgt m.hdr))).val, (pst (Config.mgtField 13 3 (hMgt m.hdr))).val))
  rw [State.withReport, State.modSt] at e
  unfold State.hearPstate State.modSt
  simp only [hformed, hmaster, hreport, Bool.not_true, Bool.false_eq_true, if_false, if_true, ne_eq, not_true_eq_false, e]
  split
  · split
    · exact ⟨_, rfl, hx⟩
    · exact ⟨x, rfl, hx⟩
  · exact ⟨x, rfl, hx⟩

/-- An order does nothing at the master (R350). -/
theorem hearPstate_ordered {s : State} {m : Msg} (hformed : s.formed = true) (hmaster : s.pins.master = true)
    (horder : Config.mgtField 13 0 (hMgt m.hdr) ≠ 0) : s.hearPstate m = s := by
  unfold State.hearPstate
  simp only [hformed, hmaster, horder, Bool.not_true, Bool.false_eq_true, if_false, if_true, ne_eq, not_false_eq_true]

theorem getD_set! {α : Type} {n i : Nat} (v : Vector α n) (h : i < n) (x d : α) : (v.set! i x).toList.getD i d = x := by
  simp [Vector.set!, h]

theorem hSrc_lt (h : Flit) : hSrc h < 8 := Nat.mod_lt _ (by decide)

/-- Another engine keeps the order of its master (R350). -/
theorem hearPstate_order {s : State} {m : Msg} (hformed : s.formed = true) (hmaster : s.pins.master = false) :
    ∃ x, s.hearPstate m = { s with link := x } ∧ x.order =
      if Config.mgtField 13 0 (hMgt m.hdr) ≠ 0 ∧ s.link.masterId.toNat = hSrc m.hdr then
        some ((pst (Config.mgtField 13 1 (hMgt m.hdr))).val, Config.mgtField 13 2 (hMgt m.hdr))
      else s.link.order := by
  unfold State.hearPstate
  simp only [hformed, hmaster, Bool.not_true, Bool.false_eq_true, if_false]
  split
  · exact ⟨_, rfl, rfl⟩
  · exact ⟨s.link, rfl, rfl⟩

/-- The master notes an event's sender (R349). -/
theorem hearEvent_master {s : State} {m : Msg} (h : s.pins.master = true) : s.hearEvent m = { s with ctl := { s.ctl with
    peerEvents := putBit s.ctl.peerEvents (hSrc m.hdr), irqStatus := s.ctl.irqStatus ||| 0x10 } } := by
  rw [State.hearEvent, if_pos h]
  rfl

/-! ### Relayed transactions (R433, R436, R437) -/

/-- The mailbox at the end of a transaction that was answered, while no claim waits (R429). -/
theorem pdEnd_ok {s : State} (h : s.ctl.attachWaits = []) (r : PdReq) (bs : List Byte) :
    ∃ k, s.pdEnd r (.ok bs) = { s with ctl := k } ∧ k.pdState = .done ∧ k.abort = 0 ∧ k.transactions = s.ctl.transactions := by
  unfold State.pdEnd
  cases hr : r.async with
  | false => simp only [h, Bool.false_eq_true, if_false]; exact ⟨_, rfl, rfl, rfl, rfl⟩
  | true => simp only [h, if_true, State.irq]; exact ⟨_, rfl, rfl, rfl, rfl⟩

/-- The mailbox at the end of a transaction that aborted. -/
theorem pdEnd_error {s : State} (h : s.ctl.attachWaits = []) (r : PdReq) (e : Nat) :
    ∃ k, s.pdEnd r (.error e) = { s with ctl := k } ∧ k.pdState = .aborted ∧ k.abort = BitVec.ofNat 8 e ∧
      k.transactions = s.ctl.transactions ∧ k.aborts = s.ctl.aborts := by
  unfold State.pdEnd
  cases hr : r.async with
  | false => simp only [h, Bool.false_eq_true, if_false]; exact ⟨_, rfl, rfl, rfl, rfl, rfl⟩
  | true => simp only [h, if_true, State.irq]; exact ⟨_, rfl, rfl, rfl, rfl, rfl⟩

/-- The answer that a relayed transaction waits for ends it (R437). -/
theorem takeAnswer_ends {s : State} {m : Msg} {r : PdReq} (hrelay : s.link.relay = some (r, hTag m.hdr)) (he : r.engine = hSrc m.hdr)
    (hclaims : s.ctl.attachWaits = []) :
    ∃ k, s.takeAnswer m = { s with link := { s.link with relay := none }, ctl := k } ∧ k.transactions = s.ctl.transactions + 1 ∧
      k.pdState = (if Config.mgtField 14 1 (hMgt m.hdr) = 0 then .done else .aborted) ∧
      k.abort = BitVec.ofNat 8 (Config.mgtField 14 1 (hMgt m.hdr)) := by
  unfold State.takeAnswer
  rw [hrelay]
  simp only [he, ne_eq, not_true_eq_false, or_self, if_false]
  by_cases hcode : Config.mgtField 14 1 (hMgt m.hdr) = 0
  · simp only [hcode, if_true]
    obtain ⟨k, e, hstate, habort, hcount⟩ := pdEnd_ok
      (s := (s.modSt (fun x => { x with relay := none })).pdCount r none) hclaims r ((flitBytes m.data).take (Config.mgtField 14 2 (hMgt m.hdr)))
    exact ⟨k, e, hcount, hstate, habort⟩
  · simp only [hcode, if_false]
    obtain ⟨k, e, hstate, habort, hcount, -⟩ := pdEnd_error
      (s := (s.modSt (fun x => { x with relay := none })).pdCount r (some (Config.mgtField 14 1 (hMgt m.hdr) % 256))) hclaims r
      (Config.mgtField 14 1 (hMgt m.hdr) % 256)
    refine ⟨k, e, hcount, hstate, habort.trans (BitVec.eq_of_toNat_eq ?_)⟩
    simp

/-- RELAY_TIMEOUT ends it with 0x06 (R437). -/
theorem relayTimeout_ends {s : State} {r : PdReq} {tag : Nat} (hrelay : s.link.relay = some (r, tag)) (hclaims : s.ctl.attachWaits = []) :
    ∃ k, exec .relayTimeout s = .next { s with link := { s.link with relay := none }, ctl := k } ∧ k.pdState = .aborted ∧ k.abort = 6 ∧
      k.aborts = s.ctl.aborts + 1 := by
  obtain ⟨k, e, hstate, habort, -, haborts⟩ := pdEnd_error
    (s := (s.modSt (fun x => { x with relay := none })).pdCount r (some 6)) hclaims r 6
  refine ⟨k, ?_, hstate, habort, haborts⟩
  rw [exec_relayTimeout, execRelayTimeout, hrelay]
  exact congrArg Host.Outcome.next e

/-- The request of the master that a PDMSG carries (R436). -/
def State.relayedReq (s : State) (m : Msg) : PdReq :=
  let f := fun i => Config.mgtField 14 i (hMgt m.hdr)
  { write := decide (f 1 ≠ 0), async := false, remote := false, engine := 0, index := f 2 % 65536, sub := f 3 % 256, len := f 4 % 512,
    offset := f 5 % 65536, data := flitBytes m.data, fromMaster := true, ext := some (PdExt.free s.ctl.extNext) }

/-- `s` with one more free value taken from outside. -/
def State.extTaken (s : State) : State := { s with ctl := { s.ctl with extNext := s.ctl.extNext + 1 } }

/-- A request of the master that aborts is answered and counted (R433). -/
theorem serveRelayed_error {s : State} {m : Msg} {e : Nat}
    (h : s.extTaken.pdServe (s.relayedReq m) (State.pdEntry (s.relayedReq m)) = .error e) :
    Sends (s.extTaken.pdCount (s.relayedReq m) (some e)) (s.serveRelayed m) := by
  have hserve : s.serveRelayed m = (s.extTaken.pdCount (s.relayedReq m) (some e)).sendMsg
      ((s.extTaken.pdCount (s.relayedReq m) (some e)).pdMsg (hSrc m.hdr) (hTag m.hdr) [1, e, 0] []) := by
    unfold State.serveRelayed
    dsimp only
    split
    · next t bs hok => cases hok.symm.trans h
    · next e' herr => cases herr.symm.trans h; rfl
    · next e' t hfail => cases hfail.symm.trans h
  exact ⟨_, hserve⟩

/-- A READ of the master that is answered is counted (R433). -/
theorem serveRelayed_read {s : State} {m : Msg} {bs : List Byte} (hread : Config.mgtField 14 1 (hMgt m.hdr) = 0)
    (h : s.extTaken.pdServe (s.relayedReq m) (State.pdEntry (s.relayedReq m)) = .ok (s.extTaken, bs)) :
    Sends (s.extTaken.endInvalidate.pdCount (s.relayedReq m) none) (s.serveRelayed m) := by
  have hwrite : (s.relayedReq m).write = false := decide_eq_false (not_not.mpr hread)
  have hserve : s.serveRelayed m = ((s.extTaken.endInvalidate.pdCount (s.relayedReq m) none).sendMsg
      ((s.extTaken.endInvalidate.pdCount (s.relayedReq m) none).pdMsg (hSrc m.hdr) (hTag m.hdr) [1, 0, bs.length] bs)).afterWrite
        (s.relayedReq m) := by
    unfold State.serveRelayed
    dsimp only
    split
    · next t bs hok => cases hok.symm.trans h; rfl
    · next e' herr => cases herr.symm.trans h
    · next e' t hfail => cases hfail.symm.trans h
  refine ⟨_, hserve.trans (if_neg fun hw => ?_)⟩
  rw [hwrite] at hw
  exact absurd hw.1 Bool.false_ne_true

/-- An index past the end of a range has no rows in it. -/
theorem rowsAt_past {n base i : Nat} (h : base + n ≤ i) (f : Fin n → Rows) : rowsAt base i f = [] := by
  have hpast : ¬ i - base < n := by omega
  rw [rowsAt, ofIndex, dif_neg hpast]

/-- The catalogue ends before index 0x8111 (Table 19-18). -/
theorem rows_past (s : State) {r : PdReq} (x : PdExt) (h : 0x8111 ≤ r.index) : s.rows r x = [] := by
  have hne : ∀ k, k < 0x8111 → ¬ r.index = k := by omega
  unfold State.rows
  dsimp only
  rw [if_neg (by omega), if_neg (by omega), if_neg (hne _ (by decide)), if_neg (hne _ (by decide)), if_neg (hne _ (by decide)),
    if_neg (hne _ (by decide)), if_neg (hne _ (by decide)), if_neg (hne _ (by decide)), if_neg (hne _ (by decide)),
    if_neg (hne _ (by decide)), if_neg (hne _ (by decide)), rowsAt_past (by omega), rowsAt_past (by omega), rowsAt_past (by omega),
    rowsAt_past (by omega), rowsAt_past (by omega), rowsAt_past (by omega)]
  rfl

/-- The stewards that serve the Stack Link are booted (Table 19-1). -/
theorem serving_of_linkOn {s : State} (h : s.linkOn = true) : s.serving = true := (Bool.and_eq_true_iff.mp h).1

/-- A request of the master for an index that no entry has aborts with 0x01 (R433). -/
theorem pdServe_past {s : State} {r : PdReq} (hs : s.serving = true) (h : 0x8111 ≤ r.index) :
    s.pdServe r (State.pdEntry r) = .error 1 := by
  obtain ⟨hmid, -⟩ := not_midwinter hs
  have hentry : s.entry r = none := by rw [State.entry, rows_past s _ h]; rfl
  unfold State.pdServe State.pdEntry
  rw [hmid, hentry]
  simp [beforeBusy]

/-- A READ of the device type (Table 19-18). -/
theorem pdServe_deviceType {s : State} {r : PdReq} (hs : s.serving = true) (hwrite : r.write = false) (hindex : r.index = 0x1000)
    (hsub : r.sub = 1) (hlen : r.len = 4) (hoffset : r.offset = 0) : ∃ bs, s.pdServe r (State.pdEntry r) = .ok (s, bs) := by
  obtain ⟨hmid, hboot⟩ := not_midwinter hs
  have hentry : s.entry r = some (entRo 4 0x00030200) := by
    rw [State.entry, State.rows, hindex, hsub]
    rfl
  refine ⟨(entRo 4 0x00030200).val, ?_⟩
  have hserved : State.pdEntry r s = .ok (s, (entRo 4 0x00030200).val) := by
    unfold State.pdEntry
    rw [hentry, hwrite, hlen, hoffset]
    rfl
  unfold State.pdServe
  rw [hmid, hserved, hboot]
  rfl

/-- A PDMSG at stewards that run: a request of the master is served, an answer taken (R436, R437). -/
theorem pdmsg_head {s : State} {l : LinkId} {m : Msg} {rest : List Msg} (hon : s.linkOn = true)
    (hq : (s.link.ports[l.val]).rxMgt = m :: rest) (ht : hType m.hdr = 14) (hawake : s.awake = true) :
    exec (.pdmsg l) s = .next (if Config.mgtField 14 0 (hMgt m.hdr) = 0 then
        (if s.link.masterId.toNat = hSrc m.hdr ∧ !s.pins.master then (s.popMgt l m).serveRelayed m else s.popMgt l m)
      else (s.popMgt l m).takeAnswer m) := by
  rw [exec_pdmsg, execPdmsg, if_neg (by rw [hawake]; simp), onMgt_head hon hq ht]
  rfl

/-- PDMSG at the master (R437). -/
theorem pdmsg_master {s : State} {l : LinkId} {m : Msg} {rest : List Msg} {r : PdReq} (hon : s.linkOn = true)
    (hq : (s.link.ports[l.val]).rxMgt = m :: rest) (ht : hType m.hdr = 14) (hawake : s.awake = true) (hmaster : s.pins.master = true)
    (hclaims : s.ctl.attachWaits = []) (hrelay : s.link.relay = some (r, hTag m.hdr)) (he : r.engine = hSrc m.hdr) :
    ∃ t, exec (.pdmsg l) s = .next t ∧ t.cores = s.cores ∧ t.queues = s.queues ∧
      (Config.mgtField 14 0 (hMgt m.hdr) = 0 → t.link.relay = s.link.relay ∧ t.ctl = s.ctl) ∧
      (Config.mgtField 14 0 (hMgt m.hdr) ≠ 0 → t.link.relay = none ∧ t.ctl.transactions = s.ctl.transactions + 1 ∧
        t.ctl.pdState = (if Config.mgtField 14 1 (hMgt m.hdr) = 0 then .done else .aborted) ∧
        t.ctl.abort = BitVec.ofNat 8 (Config.mgtField 14 1 (hMgt m.hdr))) := by
  rw [pdmsg_head hon hq ht hawake]
  by_cases hkind : Config.mgtField 14 0 (hMgt m.hdr) = 0
  · have hown : ¬ (s.link.masterId.toNat = hSrc m.hdr ∧ (!s.pins.master) = true) := fun h => by
      rw [hmaster] at h
      exact Bool.false_ne_true h.2
    rw [if_pos hkind, if_neg hown]
    exact ⟨_, rfl, rfl, rfl, fun _ => ⟨rfl, rfl⟩, fun h => absurd hkind h⟩
  · obtain ⟨k, e, hcount, hstate, habort⟩ := takeAnswer_ends (s := s.popMgt l m) hrelay he hclaims
    rw [if_neg hkind, e]
    exact ⟨_, rfl, rfl, rfl, fun h => absurd h hkind, fun _ => ⟨rfl, hcount, hstate, habort⟩⟩

/-- A request of the master that no entry has an index for (R433, R436). -/
theorem serveRelayed_past {s : State} {m : Msg} (hs : s.serving = true)
    (h : Config.mgtField 14 2 (hMgt m.hdr) % 65536 = 0xFFFF) : (s.serveRelayed m).ctl.transactions = s.ctl.transactions + 1 ∧
      (s.serveRelayed m).ctl.aborts = s.ctl.aborts + 1 ∧ (s.serveRelayed m).cores = s.cores ∧ (s.serveRelayed m).queues = s.queues := by
  have hindex : (s.relayedReq m).index = 0xFFFF := h
  obtain ⟨ps, e⟩ := serveRelayed_error (pdServe_past (s := s.extTaken) (r := s.relayedReq m) hs (by omega))
  rw [e]
  exact ⟨rfl, rfl, rfl, rfl⟩

/-- The end of an invalidation leaves the counts of the mailbox, the cores and the queues (R314). -/
theorem endInvalidate_counts (s : State) : s.endInvalidate.ctl.transactions = s.ctl.transactions ∧
    s.endInvalidate.ctl.aborts = s.ctl.aborts ∧ s.endInvalidate.cores = s.cores ∧ s.endInvalidate.queues = s.queues := by
  unfold State.endInvalidate
  split <;> exact ⟨rfl, rfl, rfl, rfl⟩

/-- A READ of the device type by the master (R433, R436). -/
theorem serveRelayed_deviceType {s : State} {m : Msg} (hs : s.serving = true)
    (h : (List.range 6).map (fun i => Config.mgtField 14 i (hMgt m.hdr)) = [0, 0, 0x1000, 1, 4, 0]) :
    (s.serveRelayed m).ctl.transactions = s.ctl.transactions + 1 ∧ (s.serveRelayed m).ctl.aborts = s.ctl.aborts ∧
      (s.serveRelayed m).cores = s.cores ∧ (s.serveRelayed m).queues = s.queues := by
  obtain ⟨-, hread, hindex, hsub, hlen, hoffset⟩ : Config.mgtField 14 0 (hMgt m.hdr) = 0 ∧ Config.mgtField 14 1 (hMgt m.hdr) = 0 ∧
      Config.mgtField 14 2 (hMgt m.hdr) = 0x1000 ∧ Config.mgtField 14 3 (hMgt m.hdr) = 1 ∧ Config.mgtField 14 4 (hMgt m.hdr) = 4 ∧
      Config.mgtField 14 5 (hMgt m.hdr) = 0 := by
    simpa [List.range_succ] using h
  have hserve : ∃ bs, s.extTaken.pdServe (s.relayedReq m) (State.pdEntry (s.relayedReq m)) = .ok (s.extTaken, bs) :=
    pdServe_deviceType (s := s.extTaken) (r := s.relayedReq m) hs (decide_eq_false (not_not.mpr hread)) (congrArg (· % 65536) hindex)
      (congrArg (· % 256) hsub) (congrArg (· % 512) hlen) (congrArg (· % 65536) hoffset)
  obtain ⟨bs, hbs⟩ := hserve
  obtain ⟨ps, e⟩ := serveRelayed_read hread hbs
  obtain ⟨hcount, haborts, hcores, hqueues⟩ := endInvalidate_counts s.extTaken
  rw [e]
  exact ⟨congrArg (· + 1) hcount, haborts, hcores, hqueues⟩

/-! ### The instant of an order (R350, R369) -/

theorem orderInstant_eq {s : State} {p instant : Nat} (ho : s.link.order = some (p, instant)) (hformed : s.formed = true) :
    exec .pstateOrderInstant s = .next (if s.power.pstate < pst p ∧ s.power.change = none then
        s.modPower (fun w => { w with ordered := pst p, pstate := pst p, pstReq := pst p, pstChanges := w.pstChanges + 1 })
      else s.orderP (pst p)) := by
  rw [exec_pstateOrderInstant, execPstateOrderInstant, ho]
  simp only [hformed, Bool.not_true, Bool.false_eq_true, if_false]
  split <;> rfl

/-- An order waits for the change in progress (R369). -/
theorem orderP_waits {s : State} {t : Fin 6} {c : PstChange} (hc : s.power.change = some c) (ht : t ≠ s.power.ordered) :
    s.orderP t = { s with power := { s.power with ordered := t } } := by
  have hc' : (s.modPower (fun p => { p with ordered := t })).power.change = some c := hc
  rw [State.orderP, if_neg ht, State.startChange, hc']
  rfl

/-- An order for a faster P-state drives its code and waits for PST_ACK (R369). -/
theorem orderP_faster {s : State} {t : Fin 6} (hc : s.power.change = none) (ht : t ≠ s.power.ordered) (hfast : t < s.power.pstate) :
    s.orderP t = { s with power := { s.power with
      ordered := t, pstReq := t, pstAck := false, change := some { target := t.val, faster := true, gliding := false } } } := by
  have hc' : (s.modPower (fun p => { p with ordered := t })).power.change = none := hc
  rw [State.orderP, if_neg ht, State.startChange, hc']
  dsimp only
  rw [if_neg (show ¬ t = (s.modPower (fun p => { p with ordered := t })).power.pstate from hfast.ne),
    if_pos (show t < (s.modPower (fun p => { p with ordered := t })).power.pstate from hfast)]
  rfl

/-- Settles O44: responses answer the read or the FLUSH that they name (`rdata_delivers`, `rdata_fails`, `flushDone_last`,
`flushDone_running`), management messages are kept, noted or served (`hearPstate_report`, `hearPstate_order`, `pdmsg_master`,
`serveRelayed_past`, `serveRelayed_deviceType`), an order takes effect at its instant. -/
theorem linkResponsesAndControl : Obligations.link_responses_and_control := by
  intro s l m rest hon _ h
  refine ⟨fun hq => ⟨fun r p y k ht hr hlive hstep hphase => ⟨?_, ?_, ?_⟩, ?_, fun r p y k ht hr hlive hstep hphase => ⟨?_, ?_, ?_⟩⟩,
    fun hq => ⟨?_, ?_, ?_, ?_, ?_⟩, ?_, ?_, ?_⟩
  · intro f hstatus hf hseq hfphase hopen htodo hwalk he hi hcommitted
    refine ⟨_, rdata_delivers hon hq ht hr hlive hstatus hf hseq hfphase hopen htodo hwalk he hi hcommitted, rxRsp_popRsp hq, rfl, ?_,
      rfl, rfl⟩
    exact (dmaHead_modHead (s := s.readTaken l r) hf _ _ _).trans (if_pos ⟨rfl, rfl⟩)
  · exact fun hstatus => ⟨_, (rdata_fails hon hq ht hr hlive).1 hstatus,
      Drains.of_link (failCore_drains (s := s.readTaken l r) hstep hphase 0x04 1)⟩
  · exact fun hstatus => ⟨_, (rdata_fails hon hq ht hr hlive).2 hstatus,
      Drains.of_link (failCore_drains (s := s.readTaken l r) hstep hphase 0x03 0)⟩
  · intro r ht hr hlive hi hcommitted
    refine ⟨s.readTaken l r, ?_, rxRsp_popRsp hq, rfl, rfl, rfl⟩
    rw [rdata_dropped hon hq ht hr hlive]
    exact congrArg Host.Outcome.next (driveRemote_remoteIdle (s := s.readTaken l r) ⟨hi.flushes, hi.streams⟩ fun hd => absurd hd hcommitted)
  · exact fun hrefused hcommitted hlast hi => flushDone_last hon hq ht hr hlive hstep hrefused hcommitted hlast hi
  · intro hrefused hcommitted hi
    exact ⟨_, flushDone_running hon hq ht hr hlive hrefused hcommitted hi, rfl, core_modCore _ _ _,
      fun d hd => core_modCore_ne _ _ _ _ hd, rfl⟩
  · intro hrefused
    refine ⟨_, (flushDone_eq hon hq ht hr hlive).trans (congrArg Host.Outcome.next (if_pos hrefused)), ?_⟩
    exact Drains.of_link (failCore_drains (s := s.flushTaken l r) hstep hphase 0x03 0)
  · intro ht hformed hmaster
    obtain ⟨x, e, hx⟩ := hearPstate_order (s := s.popMgt l m) (m := m) hformed hmaster
    rw [exec_pstate, execPstate, onMgt_head hon hq ht, e]
    exact ⟨_, rfl, rfl, rfl, hx⟩
  · intro ht hformed hmaster
    rw [exec_pstate, execPstate, onMgt_head hon hq ht]
    by_cases hreport : Config.mgtField 13 0 (hMgt m.hdr) = 0
    · obtain ⟨x, e, hx⟩ := hearPstate_report (s := s.popMgt l m) (m := m) hformed hmaster hreport
      rw [e, if_pos hreport]
      exact ⟨_, rfl, rfl, rfl, (congrArg (fun v => v.toList.getD (hSrc m.hdr) none) hx).trans (getD_set! _ (hSrc_lt m.hdr) _ _)⟩
    · rw [hearPstate_ordered (s := s.popMgt l m) hformed hmaster hreport, if_neg hreport]
      exact ⟨_, rfl, rfl, rfl, rfl⟩
  · intro ht hmaster
    rw [exec_event, execEvent, onMgt_head hon hq ht, hearEvent_master (s := s.popMgt l m) hmaster]
    exact ⟨_, rfl, rfl, rfl, rfl⟩
  · intro ht hawake hmaster hclaims r hrelay he
    exact pdmsg_master hon hq ht hawake hmaster hclaims hrelay he
  · intro ht hawake hmaster hid _
    have hown : s.link.masterId.toNat = hSrc m.hdr ∧ (!s.pins.master) = true := ⟨hid, by rw [hmaster]; rfl⟩
    refine ⟨_, pdmsg_head hon hq ht hawake, fun hkind hindex => ?_, fun hfields => ?_⟩
    · rw [if_pos hkind, if_pos hown]
      exact serveRelayed_past (s := s.popMgt l m) (serving_of_linkOn hon) hindex
    · have hkind : Config.mgtField 14 0 (hMgt m.hdr) = 0 := (List.cons.inj hfields).1
      rw [if_pos hkind, if_pos hown]
      exact serveRelayed_deviceType (s := s.popMgt l m) (serving_of_linkOn hon) hfields
  · intro r tag hrelay hclaims
    obtain ⟨k, e, hstate, habort, haborts⟩ := relayTimeout_ends hrelay hclaims
    exact ⟨_, e, rfl, hstate, habort, haborts, rfl, rfl⟩
  · intro p instant c ho hformed hc hp
    have hslow : ¬ (s.power.pstate < pst p ∧ s.power.change = none) := fun h => by rw [hc] at h; cases h.2
    rw [orderInstant_eq ho hformed, if_neg hslow, orderP_waits hc hp]
  · intro p instant ho hformed hc hp
    refine ⟨fun hslow => ?_, fun hfast => ?_⟩
    · rw [orderInstant_eq ho hformed, if_pos ⟨hslow, hc⟩]
      rfl
    · rw [orderInstant_eq ho hformed, if_neg (fun h => absurd h.1 hfast.asymm), orderP_faster hc hp hfast]
      exact ⟨_, rfl, rfl, rfl, rfl, rfl, rfl⟩

end Sys2Proof.Machine

/-!
PROOFS. How slots enter a bundle (R184, R188, R189, R203, R204, R206, R225): `slot_commands_enter_bundles`.
-/
namespace Sys2Proof.Machine
open Sys2Proof.Safety

/-! ### Slot commands -/

/-- Every slot command hands its slot to the bundle of its core (R188). -/
theorem exec_of_slotOp {i : Instr} {c : CoreId} {e : Bool} {o : SlotOp} (h : i.slotOp = some (c, e, o)) (s : State) :
    exec i s = s.issueSlot c e o := by
  cases i <;> cases h <;> rfl

/-- A list names no value twice where its entries are pairwise different. -/
theorem dupes_eq_false_iff {α : Type} [DecidableEq α] {xs : List α} : dupes xs = false ↔ xs.Nodup := by
  induction xs with
  | nil => simp [dupes]
  | cons a xs ih => simp [dupes, ih]

/-- Slots of different units name no unit twice (R184). -/
theorem dupes_slots_of_pairwise {ops : List SlotOp} (h : ops.Pairwise (fun a b => a.slot ≠ b.slot)) :
    dupes (ops.map SlotOp.slot) = false := dupes_eq_false_iff.mpr (List.pairwise_map.mpr h)

/-- A slot of a unit that is staged already makes the bundle name that unit twice (R184). -/
theorem dupes_slots_of_mem {ops : List SlotOp} {o : SlotOp} (h : ∃ a ∈ ops, a.slot = o.slot) :
    dupes ((ops ++ [o]).map SlotOp.slot) = true := by
  obtain ⟨a, ha, hslot⟩ := h
  refine Bool.of_not_eq_false fun hnone => ?_
  have hpair : (ops ++ [o]).Pairwise (fun a b => a.slot ≠ b.slot) := List.pairwise_map.mp (dupes_eq_false_iff.mp hnone)
  exact (List.pairwise_append.mp hpair).2.2 a ha o List.mem_cons_self hslot

/-! ### A slot that arrives -/

/-- A slot of a new unit that leaves its bundle open is staged (R188). -/
theorem issueSlot_open {s : State} {c : CoreId} {p : PartId} {r : RunSt} {x : StepRec} {o : SlotOp} (hi : s.issuing c = true)
    (hx : s.stepOf c = some (p, r, x)) (hone : dupes (((s.core c).staged ++ [o]).map SlotOp.slot) = false) :
    s.issueSlot c false o = .next (s.modCore c (fun k => { k with staged := (s.core c).staged ++ [o] })) := by
  unfold State.issueSlot
  simp only [hi, hx, hone, Bool.false_eq_true, if_false, Bool.not_false, if_true]

/-- A bundle that closes behind another one waits (R189, R206). -/
theorem issueSlot_behind {s : State} {c : CoreId} {p : PartId} {r : RunSt} {x : StepRec} {o : SlotOp} (hi : s.issuing c = true)
    (hx : s.stepOf c = some (p, r, x)) (hone : dupes (((s.core c).staged ++ [o]).map SlotOp.slot) = false)
    (hwaits : (s.core c).fetched ≠ []) : s.issueSlot c true o =
      .next (s.modCore c (fun k => { k with staged := [], fetched := k.fetched ++ [(s.core c).staged ++ [o]] })) := by
  unfold State.issueSlot
  simp only [hi, hx, hone, hwaits, Bool.false_eq_true, if_false, Bool.not_true]

/-- A core that issues nothing takes no slot (R203, R204, R247). -/
theorem issueSlot_idle {s : State} {c : CoreId} (h : s.issuing c = false) (e : Bool) (o : SlotOp) :
    s.issueSlot c e o = .refused .coreNotIssuing := by
  unfold State.issueSlot
  rw [h]

/-- A second slot of one unit is refused (R184, R225). -/
theorem issueSlot_twice {s : State} {c : CoreId} {p : PartId} {r : RunSt} {x : StepRec} {o : SlotOp} (hi : s.issuing c = true)
    (hx : s.stepOf c = some (p, r, x)) (htwo : dupes (((s.core c).staged ++ [o]).map SlotOp.slot) = true) (e : Bool) :
    s.issueSlot c e o = .refused .unverifiedBundle := by
  unfold State.issueSlot
  simp only [hi, hx, htwo, if_true]

/-- Settles O2: a slot command is `State.issueSlot` of its slot (`exec_of_slotOp`), which stages it, lets its bundle wait or refuses it. -/
theorem slotCommandsEnterBundles : Obligations.slot_commands_enter_bundles := by
  refine ⟨fun i c o s p r x hslot hi hx hpair => ?_, fun i c o s p r x hslot hi hx hwaits hpair => ?_, fun i c e o s hslot => ⟨?_, ?_⟩⟩
  · rw [exec_of_slotOp hslot, issueSlot_open hi hx (dupes_slots_of_pairwise hpair)]
    exact ⟨_, rfl, core_modCore _ _ _, othersSame_modCore (othersSame_refl s c) _, rfl, rfl⟩
  · rw [exec_of_slotOp hslot, issueSlot_behind hi hx (dupes_slots_of_pairwise hpair) hwaits]
    exact ⟨_, rfl, core_modCore _ _ _, othersSame_modCore (othersSame_refl s c) _, rfl, rfl⟩
  · intro hidle
    rw [exec_of_slotOp hslot, issueSlot_idle hidle]
  · intro p r x hi hx htwice
    rw [exec_of_slotOp hslot, issueSlot_twice hi hx (dupes_slots_of_mem htwice)]

end Sys2Proof.Machine

/-!
PROOFS. The scalar slot (R185, R215 to R217): `scalar_register_operations`, `scalar_immediate_operations`,
`address_registers_and_settings`.
-/
namespace Sys2Proof.Machine
open Sys2Proof.Safety

/-! ### A scalar slot alone in its bundle -/

/-- A bundle whose only slot writes at most one scalar register is rejected by that slot's own checks or not at all (R184, Table 9-7). -/
theorem bundleBad_writesS (k : Core) (flags arrays : Nat) {o : SlotOp} (hs : (slotWritesS o).length ≤ 1) (hv : slotWritesV o = []) :
    bundleBad k flags arrays [o] = slotBad k flags arrays [o] o := by
  have hone : dupes ((slotWritesS o).filter (fun d => decide (d.val ≠ 0))) = false :=
    dupes_eq_false_iff.mpr ((List.nodup_iff_count_le_one.mpr fun a => (List.count_le_length).trans hs).filter _)
  simp only [bundleBad, List.flatMap_singleton, hone, hv, List.any_cons, List.any_nil, Bool.or_false]
  rfl

/-- A scalar operation writes at most one scalar register. -/
theorem slotWritesS_scl_length (o : SclOp) : (slotWritesS (.scl o)).length ≤ 1 := by
  cases o <;> exact Nat.le_of_ble_eq_true rfl

/-- A scalar operation leaves the sequencer alone. -/
theorem sameControl_scalarAct (k0 : Core) (o : SclOp) (k : Core) : SameControl k (scalarAct k0 o k) := by
  have hs : ∀ (d : SReg) (v : DWord), SameControl k (k.issueS d v) := by
    intro d v
    unfold Core.issueS Core.setS
    split <;> exact ⟨rfl, rfl, rfl, rfl, rfl⟩
  cases o with
  | bin | addi | ori | shli | shri | movi | smova | rdlc => exact hs _ _
  | amov | aadd | amovi | setzp | setos | setinc | setbind => exact ⟨rfl, rfl, rfl, rfl, rfl⟩

/-- A scalar operation that the verifier accepts acts at once, alone in its bundle (R185, R188). -/
theorem scalar_issues {s : State} {c : CoreId} {p : PartId} {r : RunSt} {x : StepRec} (h : Straight s c p r x) (o : SclOp)
    (hbad : slotBad (s.core c) (imageLimits x).1 (imageLimits x).2 [.scl o] (.scl o) = false) :
    ∃ t, s.issueSlot c true (.scl o) = .next t ∧ OthersSame s t c ∧
      t.core c = (scalarAct (s.core c) o (s.core c).begun).passed := by
  have hreads : scalarAct ((s.core c).holding [.scl o]) o = scalarAct (s.core c) o := by
    funext k
    cases o <;> rfl
  exact issueSlot_single h (by simp [SlotOp.slot]) ((bundleBad_writesS _ _ _ (slotWritesS_scl_length o) rfl).trans hbad)
    (bundleHeld_calm h.ready.calm _ rfl) rfl (by rw [← hreads]; rfl) (sameControl_scalarAct _ o _)

/-- A scalar operation that writes scalar register `d` alone: the register holds the result, and the core moves on (R185). -/
theorem scalar_writes {s : State} {c : CoreId} {p : PartId} {r : RunSt} {x : StepRec} (h : Straight s c p r x) {o : SclOp} {d : SReg}
    {v : DWord} (hbad : slotBad (s.core c) (imageLimits x).1 (imageLimits x).2 [.scl o] (.scl o) = false)
    (hact : scalarAct (s.core c) o (s.core c).begun = (s.core c).begun.issueS d v) :
    ∃ t, s.issueSlot c true (.scl o) = .next t ∧ t.core c = withS (moved (s.core c)) d v ∧ OthersSame s t c := by
  have hcalm := h.ready.calm
  obtain ⟨t, ht, hothers, hcore⟩ := scalar_issues h o hbad
  refine ⟨t, ht, ?_, hothers⟩
  rw [hcore, hact, issueS_eq_withS (k := (s.core c).begun) hcalm.vecs, passed_withS, passed_begun hcalm]

/-! ### Table 8-18 in numbers -/

/-- Of two values that compare either way, the smaller may be named by either comparison. -/
theorem min_dword (a b : DWord) : (if b.toInt < a.toInt then b else a) = if a.toInt ≤ b.toInt then a else b := by
  by_cases h : a.toInt ≤ b.toInt
  · rw [if_pos h, if_neg (by omega)]
  · rw [if_neg h, if_pos (by omega)]

theorem max_dword (a b : DWord) : (if a.toInt < b.toInt then b else a) = if a.toInt ≤ b.toInt then b else a := by
  rcases Int.lt_trichotomy a.toInt b.toInt with h | h | h
  · rw [if_pos h, if_pos (by omega)]
  · rw [BitVec.eq_of_toInt_eq h, ite_self, ite_self]
  · rw [if_neg (by omega), if_neg (by omega)]

/-- A shift to the left multiplies by a power of two. -/
theorem shiftLeft_dword (w : DWord) (n : Nat) : w <<< n = BitVec.ofNat 64 (w.toNat * 2 ^ n) :=
  BitVec.eq_of_toNat_eq (by rw [BitVec.toNat_shiftLeft, BitVec.toNat_ofNat, Nat.shiftLeft_eq])

/-- A logical shift to the right divides by a power of two. -/
theorem ushiftRight_dword (w : DWord) (n : Nat) : w >>> n = BitVec.ofNat 64 (w.toNat / 2 ^ n) := by
  rw [← Nat.shiftRight_eq_div_pow, ← BitVec.toNat_ushiftRight, BitVec.ofNat_toNat, BitVec.setWidth_eq]

/-- An arithmetic shift to the right divides by a power of two, rounding down. -/
theorem sshiftRight_dword (w : DWord) (n : Nat) : w.sshiftRight n = BitVec.ofInt 64 (w.toInt / 2 ^ n) := by
  have hdiv : w.toInt / 2 ^ n = (w.sshiftRight n).toInt := by
    rw [BitVec.toInt_sshiftRight, Int.shiftRight_eq_div_pow]
    norm_cast
  rw [hdiv, BitVec.ofInt_toInt]

/-- The scalar operations compute what Table 8-18 says. -/
theorem scalarBin_eq_scalarValue (f : SBin) (x y : DWord) : scalarBin f x y = scalarValue f x y := by
  cases f with
  | add => exact BitVec.eq_of_toNat_eq (by simp [scalarBin, scalarValue])
  | sub => exact BitVec.eq_of_toInt_eq (by simp [scalarBin, scalarValue, BitVec.toInt_sub])
  | mul => exact BitVec.eq_of_toNat_eq (by simp [scalarBin, scalarValue])
  | and => exact BitVec.eq_of_toNat_eq (by simp [scalarBin, scalarValue])
  | or => exact BitVec.eq_of_toNat_eq (by simp [scalarBin, scalarValue])
  | xor => exact BitVec.eq_of_toNat_eq (by simp [scalarBin, scalarValue])
  | min => exact min_dword x y
  | max => exact max_dword x y
  | slt => rfl
  | shl => exact shiftLeft_dword x _
  | shr => exact ushiftRight_dword x _
  | sra => exact sshiftRight_dword x _

/-! ### Three registers -/

theorem exec_scalarCmd (f : SBin) (c : CoreId) (d a b : SReg) (s : State) :
    exec (scalarCmd f c d a b) s = s.issueSlot c true (.scl (.bin f d a b)) := exec_of_slotOp (by cases f <;> rfl) s

/-- Settles O3: the command is a scalar slot (`scalar_writes`), whose value is that of Table 8-18. -/
theorem scalarRegisterOperations : Obligations.scalar_register_operations := by
  intro s c p r x h f d a b
  rw [exec_scalarCmd, ← scalarBin_eq_scalarValue]
  exact scalar_writes h rfl rfl

/-! ### Immediates -/

/-- The slot of a scalar operation with an immediate. -/
def immOp (f : ScalarImm) (d : SReg) : SclOp :=
  match f with
  | .addi a i => .addi d a i
  | .ori a i => .ori d a i
  | .shli a i => .shli d a i
  | .shri a i => .shri d a i
  | .movi i => .movi d i

theorem exec_immCmd (f : ScalarImm) (c : CoreId) (d : SReg) (s : State) :
    exec (immCmd f c d) s = s.issueSlot c true (.scl (immOp f d)) := exec_of_slotOp (by cases f <;> rfl) s

/-- It writes its value (R215, Table 8-18). -/
theorem scalarAct_immOp (f : ScalarImm) (d : SReg) (k0 k : Core) : scalarAct k0 (immOp f d) k = k.issueS d (immValue f k0) := by
  have hvalue : ∀ {v w : DWord}, v = w → k.issueS d v = k.issueS d w := congrArg (k.issueS d)
  cases f with
  | addi a i => exact hvalue (BitVec.eq_of_toInt_eq (by simp [immValue, BitVec.toInt_add, BitVec.toInt_signExtend_of_le]))
  | ori a i => exact hvalue (BitVec.eq_of_toNat_eq (by simp [immValue]))
  | shli a i => exact hvalue (shiftLeft_dword _ _)
  | shri a i => exact hvalue (ushiftRight_dword _ _)
  | movi i => rfl

/-- Settles O4: the command is a scalar slot (`scalar_writes`) that writes its value (`scalarAct_immOp`). -/
theorem scalarImmediateOperations : Obligations.scalar_immediate_operations := by
  intro s c p r x h f d
  rw [exec_immCmd]
  exact scalar_writes h (by cases f <;> rfl) (scalarAct_immOp f d _ _)

/-! ### Address registers and settings -/

/-- A scalar operation that leaves what `moved` counts: the core moves on with what the operation changed. -/
theorem scalar_sets {s : State} {c : CoreId} {p : PartId} {r : RunSt} {x : StepRec} (h : Straight s c p r x) {o : SclOp} {k' : Core}
    (hbad : slotBad (s.core c) (imageLimits x).1 (imageLimits x).2 [.scl o] (.scl o) = false)
    (hact : (scalarAct (s.core c) o (s.core c).begun).passed = { k' with staged := [], fetched := [] })
    (hstaged : k'.staged = []) (hfetched : k'.fetched = []) :
    ∃ t, s.issueSlot c true (.scl o) = .next t ∧ OthersSame s t c ∧ t.core c = k' := by
  obtain ⟨t, ht, hothers, hcore⟩ := scalar_issues h o hbad
  refine ⟨t, ht, hothers, ?_⟩
  rw [hcore, hact, ← hstaged, ← hfetched]

/-- Settles O5: each command is a scalar slot, which writes a scalar register (`scalar_writes`) or sets another (`scalar_sets`). -/
theorem addressRegistersAndSettings : Obligations.address_registers_and_settings := by
  refine ⟨fun s c p r x h d a e q l imm => ?_, fun s c p r x h n l q m => ?_⟩
  all_goals
    have hstaged := h.ready.calm.staged
    have hfetched := h.ready.calm.fetched
  · refine ⟨fun hd => ?_, fun hd => ?_, fun hd => ?_, ?_, ?_⟩
    · exact scalar_sets h hd rfl hstaged hfetched
    · have hsum : (s.core c).a[a.val] + ((s.core c).sreg q).setWidth 32 =
          BitVec.ofNat 32 ((s.core c).a[a.val].toNat + ((s.core c).sreg q).toNat) := BitVec.eq_of_toNat_eq (by simp)
      rw [← hsum]
      exact scalar_sets h hd rfl hstaged hfetched
    · rw [BitVec.ofNat_toNat]
      exact scalar_sets h hd rfl hstaged hfetched
    · rw [BitVec.ofNat_toNat]
      obtain ⟨t, ht, hcore, hothers⟩ := scalar_writes (o := .smova e a) h rfl rfl
      exact ⟨t, ht, hothers, hcore⟩
    · rw [BitVec.ofNat_toNat]
      obtain ⟨t, ht, hcore, hothers⟩ := scalar_writes (o := .rdlc e l) h rfl rfl
      exact ⟨t, ht, hothers, hcore⟩
  · refine ⟨scalar_sets (o := .setzp q) h rfl rfl hstaged hfetched, scalar_sets (o := .setos q) h rfl rfl hstaged hfetched,
      fun hn => ?_, fun hn => ?_⟩
    · have hlow : ((((s.core c).sreg q).setWidth 32).zeroExtend 64 : DWord) = BitVec.ofNat 64 (((s.core c).sreg q).toNat % 2 ^ 32) :=
        BitVec.eq_of_toNat_eq (by simp)
      rw [← hlow]
      exact scalar_sets (o := .setinc n l q) h hn rfl hstaged hfetched
    · rw [BitVec.ofNat_toNat]
      exact scalar_sets (o := .setbind n m) h hn rfl hstaged hfetched

end Sys2Proof.Machine

/-!
PROOFS. A sequencer slot alone in its bundle: what follows it, loops, skips, exits, holds and delays (R188 to R202, R217):
`loops`, `skips_and_exit`, `waits_and_delay`, `strip_and_signal`.
-/
namespace Sys2Proof.Machine
open Sys2Proof.Safety

/-! ### A bundle of a sequencer slot -/

/-- A core that has issued one bundle more: the next operation number. -/
def Core.counted (k : Core) : Core := { k with seq := k.seq + 1 }

/-- A core in phase idle starts no pass. -/
theorem settleAga_idle {s : State} {c : CoreId} (h : (s.core c).phase = .idle) : s.settleAga c = s := by
  unfold State.settleAga
  cases (s.core c).passQ.length with
  | zero => rfl
  | succ n =>
    unfold State.startPasses
    dsimp only
    split
    · exact if_neg fun hgo => hgo.1 h
    · rfl

/-- A core that issues nothing has not left its code (R205). -/
theorem pastEnd_idle {s : State} {c : CoreId} (h : s.issuing c = false) : s.pastEnd c = s := by
  simp [State.pastEnd, h]

/-- A slot of the sequencer that holds nothing back issues at once: it acts on the core, whose operation number then rises (R188). -/
theorem tryIssue_seq {s : State} {c : CoreId} {p : PartId} {r : RunSt} {x : StepRec} {q : SeqOp} {u : State} (h : Ready s c p r x)
    (hheld : slotHeld ((s.core c).holding [.seq q]) (s.part p).events.toList (.seq q) = false)
    (hact : (s.begun c p x).actSeq c ((s.core c).holding [.seq q]) (some q) p x = u) :
    (s.modCore c (·.holding [.seq q])).tryIssue c = ((u.modCore c Core.counted).pastEnd c).settleAga c := by
  have hk : (s.modCore c (·.holding [.seq q])).core c = (s.core c).holding [.seq q] := core_modCore _ _ _
  have harrived : ((s.core c).holding [.seq q]).fetched = [[.seq q]] := rfl
  have hi : (s.modCore c (·.holding [.seq q])).issuing c = true := (issuing_modCore rfl).trans h.issuing
  have hfetch := fun f => hk ▸ withFetch_clean (fetched_holding h.fetched [.seq q]) f
  have hbegun : ((s.modCore c (·.holding [.seq q])).modCore c
      (fun k => { k with fetched := [], watchdog := 0, issued := k.issued + 1 })).firstBundle p x = s.begun c p x :=
    congrArg (State.firstBundle · p x) (modCore_modCore _ _ _ _)
  have hgoes : (s.begun c p x).issuing c = true := (issuing_begun s c p x).trans h.issuing
  have hslots : (s.begun c p x).actSlots c ((s.core c).holding [.seq q]) [.seq q] = s.begun c p x := actSlots_single _ _ hgoes
  have hop : operandsOk ((s.core c).holding [.seq q]) (.seq q) = true := rfl
  unfold State.tryIssue
  simp only [hk, stepOf_modCore, h.step, hi, part_modCore, hfetch, harrived, bundleHeld_calm h.calm _ hheld, List.all_cons,
    List.all_nil, hop, hbegun, hslots, hgoes, List.findSome?_cons, hact, Bool.not_true, Bool.or_self, Bool.and_self, Bool.false_eq_true,
    if_false]
  rfl

/-- A sequencer slot writes at most one scalar register. -/
theorem slotWritesS_seq_length (q : SeqOp) : (slotWritesS (.seq q)).length ≤ 1 := by
  cases q <;> exact Nat.le_of_ble_eq_true rfl

/-- A slot of the sequencer that the verifier accepts arrives alone in its bundle. -/
theorem issueSlot_arrives {s : State} {c : CoreId} {p : PartId} {r : RunSt} {x : StepRec} {q : SeqOp} (h : Ready s c p r x)
    (hbad : slotBad (s.core c) (imageLimits x).1 (imageLimits x).2 [.seq q] (.seq q) = false) :
    s.issueSlot c true (.seq q) = .next ((s.modCore c (·.holding [.seq q])).tryIssue c) := by
  have hone : dupes ([SlotOp.seq q].map SlotOp.slot) = false := rfl
  have haccepted := (bundleBad_writesS _ _ _ (slotWritesS_seq_length q) rfl).trans hbad
  unfold State.issueSlot
  simp only [h.issuing, h.step, h.calm.staged, h.calm.fetched, List.nil_append, hone, haccepted, Bool.not_true, Bool.false_eq_true,
    if_false, if_true]
  rfl

/-- A slot of the sequencer that leaves its core inside the code, or at rest: what it made of the block, with the core counted on. -/
theorem sequencer_issues {s : State} {c : CoreId} {p : PartId} {r : RunSt} {x : StepRec} {q : SeqOp} {u : State} (h : Ready s c p r x)
    (hbad : slotBad (s.core c) (imageLimits x).1 (imageLimits x).2 [.seq q] (.seq q) = false)
    (hheld : slotHeld ((s.core c).holding [.seq q]) (s.part p).events.toList (.seq q) = false)
    (hact : (s.begun c p x).actSeq c ((s.core c).holding [.seq q]) (some q) p x = u)
    (hend : u.issuing c = false ∨ (u.core c).pc < (u.core c).codeLen) (hpass : (u.core c).passQ = [] ∨ (u.core c).phase = .idle) :
    s.issueSlot c true (.seq q) = .next (u.modCore c Core.counted) := by
  have hcode : (u.modCore c Core.counted).pastEnd c = u.modCore c Core.counted := by
    rcases hend with hidle | hpc
    · exact pastEnd_idle ((issuing_modCore rfl).trans hidle)
    · exact pastEnd_inside (by rw [core_modCore]; exact hpc)
  rw [issueSlot_arrives h hbad, tryIssue_seq h hheld hact, hcode]
  rcases hpass with hnone | hidle
  · rw [settleAga_none _ _ (by rw [core_modCore]; exact hnone)]
  · rw [settleAga_idle (by rw [core_modCore]; exact hidle)]

/-- A partition as the first bundle of a core leaves it. -/
theorem part_begun (s : State) (c : CoreId) (p : PartId) (x : StepRec) : (s.begun c p x).part p = (s.part p).issuedFirst := by
  obtain ⟨rt, h⟩ := begun_marks s c p x
  rw [h]
  exact (part_modPart _ p _).trans (congrArg Partition.issuedFirst (part_modCore ..))

/-- A slot of the sequencer that changes its core and its partition alone. -/
theorem sequencer_changes_part {s : State} {c : CoreId} {p : PartId} {r : RunSt} {x : StepRec} {q : SeqOp} {f : Partition → Partition}
    {g : Core → Core} {k : Core}
    (h : Ready s c p r x) (hbad : slotBad (s.core c) (imageLimits x).1 (imageLimits x).2 [.seq q] (.seq q) = false)
    (hheld : slotHeld ((s.core c).holding [.seq q]) (s.part p).events.toList (.seq q) = false)
    (hact : (s.begun c p x).actSeq c ((s.core c).holding [.seq q]) (some q) p x = ((s.begun c p x).modPart p f).modCore c g)
    (hg : (g (s.core c).begun).counted = k) (hend : k.phase ≠ .running ∨ k.pc < k.codeLen) (hpass : k.passQ = []) :
    ∃ t, s.issueSlot c true (.seq q) = .next t ∧ OthersSame s t c ∧ t.core c = k ∧ t.part p = f (s.part p).issuedFirst := by
  have hcore : (((s.begun c p x).modPart p f).modCore c g).core c = g (s.core c).begun := by rw [core_modCore, core_modPart, core_begun]
  refine ⟨_, sequencer_issues h hbad hheld hact ?_ (Or.inl ?_),
    othersSame_modCore (othersSame_modCore (othersSame_modPart (othersSame_begun s c p x) p f) _) _, ?_, ?_⟩
  · rw [hcore]
    refine hend.imp (fun hphase => ?_) (fun hpc => by rw [← hg] at hpc; exact hpc)
    have hrests : (g (s.core c).begun).phase ≠ .running := by rw [← hg] at hphase; exact hphase
    rw [State.issuing, hcore, decide_eq_false hrests, Bool.false_and]
  · rw [hcore]
    rw [← hg] at hpass
    exact hpass
  · rw [core_modCore, hcore, hg]
  · rw [part_modCore, part_modCore, part_modPart, part_begun]

/-- A slot of the sequencer that changes its core alone. -/
theorem sequencer_changes {s : State} {c : CoreId} {p : PartId} {r : RunSt} {x : StepRec} {q : SeqOp} {g : Core → Core} {k : Core}
    (h : Ready s c p r x) (hbad : slotBad (s.core c) (imageLimits x).1 (imageLimits x).2 [.seq q] (.seq q) = false)
    (hheld : slotHeld ((s.core c).holding [.seq q]) (s.part p).events.toList (.seq q) = false)
    (hact : (s.begun c p x).actSeq c ((s.core c).holding [.seq q]) (some q) p x = (s.begun c p x).modCore c g)
    (hg : (g (s.core c).begun).counted = k) (hend : k.phase ≠ .running ∨ k.pc < k.codeLen) (hpass : k.passQ = []) :
    ∃ t, s.issueSlot c true (.seq q) = .next t ∧ OthersSame s t c ∧ t.core c = k ∧ t.part p = (s.part p).issuedFirst := by
  have hsame : (s.begun c p x).modPart p id = s.begun c p x := modPart_same rfl
  exact sequencer_changes_part (f := id) h hbad hheld (hact.trans (by rw [hsame])) hg hend hpass

/-! ### Where the pc goes (R191, R206) -/

/-- A core with nothing fetched drops nothing where control does not go on in sequence. -/
theorem refetch_none {k : Core} (h : k.fetched = []) (pc0 : Nat) : k.refetch pc0 = k := by
  unfold Core.refetch
  split
  · rfl
  · rw [← h]

/-- A core whose innermost loop begins its next iteration (R191, R217). -/
def Core.iterated (k : Core) (l : LoopRec) (lv : Nat) : Core :=
  let k := (k.setLc lv (BitVec.ofNat 32 ((k.lc.toList.getD lv 0).toNat + 1))).mapBound lv (fun i x =>
    x + ((k.ainc.toList.getD (4 * i + lv) 0).setWidth 32))
  { k with pc := l.first }

/-- At a bundle that does not end the innermost loop the pc moves by one (R191). -/
theorem endTest_inside {k : Core} {b : Nat} (h : ∀ l rest, k.loops = l :: rest → l.last ≠ b) (n : Nat) :
    Core.endTest n b k = { k with pc := b + 1 } := by
  cases n with
  | zero => rfl
  | succ n =>
    unfold Core.endTest
    split
    · rfl
    · next l rest hl => rw [if_pos (h l rest hl)]

/-- At its last bundle the innermost loop begins again below its count and is left at it (R191). -/
theorem endTest_last {k : Core} {b : Nat} {l : LoopRec} {rest : List LoopRec} (hl : k.loops = l :: rest) (hlast : l.last = b) (n : Nat) :
    Core.endTest (n + 1) b k = if (k.lc.toList.getD rest.length 0).toNat + 1 < l.cnt then k.iterated l rest.length
      else Core.endTest n b (k.leaveLoop l rest) := by
  rw [Core.endTest, hl]
  exact if_neg (not_not.mpr hlast)

/-- What end tests change: the pc, the loops, their counters and the address registers. -/
def Core.rewound (k : Core) (pc : Nat) (ls : List LoopRec) (lc : Vector Word 4) (a : Vector Word 16) : Core :=
  { k with pc := pc, loops := ls, lc := lc, a := a }

theorem iterated_rewound (k : Core) (l : LoopRec) (lv : Nat) :
    k.iterated l lv = k.rewound l.first k.loops (k.iterated l lv).lc (k.iterated l lv).a := by
  simp only [Core.iterated, Core.rewound, Core.setLc, Core.mapBound]

/-- Leaving a loop changes nothing else either. -/
theorem rewound_leaveLoop (k : Core) (l : LoopRec) (rest : List LoopRec) (pc : Nat) (ls : List LoopRec) (lc : Vector Word 4)
    (a : Vector Word 16) : (k.leaveLoop l rest).rewound pc ls lc a = k.rewound pc ls lc a := by
  simp only [Core.leaveLoop, Core.rewound, Core.setLc, Core.mapBound]

/-- End tests change nothing else, and send control to the next bundle or to the first one of a running loop. -/
theorem endTest_rewound (n b : Nat) (k : Core) : ∃ pc ls lc a, Core.endTest n b k = k.rewound pc ls lc a ∧
    (pc = b + 1 ∨ ∃ m ∈ k.loops, pc = m.first) := by
  induction n generalizing k with
  | zero => exact ⟨b + 1, k.loops, k.lc, k.a, rfl, Or.inl rfl⟩
  | succ n ih =>
    by_cases hin : ∀ l rest, k.loops = l :: rest → l.last ≠ b
    · exact ⟨b + 1, k.loops, k.lc, k.a, endTest_inside hin _, Or.inl rfl⟩
    · push Not at hin
      obtain ⟨l, rest, hl, hlast⟩ := hin
      rw [endTest_last hl hlast]
      split
      · exact ⟨l.first, k.loops, (k.iterated l rest.length).lc, (k.iterated l rest.length).a, iterated_rewound k l _, Or.inr ⟨l, hl ▸ List.mem_cons_self, rfl⟩⟩
      · obtain ⟨pc, ls, lc, a, e, hpc⟩ := ih (k.leaveLoop l rest)
        refine ⟨pc, ls, lc, a, e.trans (rewound_leaveLoop ..), hpc.imp_right fun ⟨m, hm, hfirst⟩ => ⟨m, ?_, hfirst⟩⟩
        rw [hl]
        exact List.mem_cons_of_mem l hm

/-- More end tests than loops change nothing. -/
theorem endTest_fuel (n b : Nat) (k : Core) (h : k.loops.length ≤ n) : Core.endTest (n + 1) b k = Core.endTest n b k := by
  induction n generalizing k with
  | zero =>
    refine endTest_inside (fun l rest hl => ?_) _
    rw [hl] at h
    cases h
  | succ n ih =>
    by_cases hin : ∀ l rest, k.loops = l :: rest → l.last ≠ b
    · rw [endTest_inside hin, endTest_inside hin]
    · push Not at hin
      obtain ⟨l, rest, hl, hlast⟩ := hin
      rw [hl] at h
      rw [endTest_last hl hlast, endTest_last hl hlast, ih (k.leaveLoop l rest) (Nat.le_of_succ_le_succ h)]

/-- After an ordinary bundle with nothing fetched behind it control goes where the end tests send it (R191). -/
theorem advance_endTest {k : Core} (h : k.fetched = []) : k.advance = Core.endTest 5 k.pc k := by
  obtain ⟨pc, ls, lc, a, e, -⟩ := endTest_rewound 5 k.pc k
  rw [Core.advance, e]
  exact refetch_none (k := k.rewound pc ls lc a) h _

/-- A calm core whose bundle has issued and only moves on (R191). -/
theorem advance_begun {k : Core} (h : Calm k) (hin : ∀ l rest, k.loops = l :: rest → l.last ≠ k.pc) :
    k.begun.advance.counted = moved k := by
  rw [advance_straight (k := k.begun) hin]
  exact passed_begun h

/-- A slot of the sequencer that only moves on. -/
theorem sequencer_moves {s : State} {c : CoreId} {p : PartId} {r : RunSt} {x : StepRec} {q : SeqOp} (h : Straight s c p r x)
    (hbad : slotBad (s.core c) (imageLimits x).1 (imageLimits x).2 [.seq q] (.seq q) = false)
    (hheld : slotHeld ((s.core c).holding [.seq q]) (s.part p).events.toList (.seq q) = false)
    (hact : (s.begun c p x).actSeq c ((s.core c).holding [.seq q]) (some q) p x = (s.begun c p x).modCore c Core.advance) :
    ∃ t, s.issueSlot c true (.seq q) = .next t ∧ OthersSame s t c ∧ t.core c = moved (s.core c) := by
  obtain ⟨t, ht, hothers, hcore, -⟩ := sequencer_changes h.ready hbad hheld hact (advance_begun h.ready.calm h.inside) (Or.inr h.more)
    h.ready.calm.passes
  exact ⟨t, ht, hothers, hcore⟩

/-! ### Skips and exits (R193, R194) -/

/-- The sign of a scalar is its bit 63. -/
theorem getLsbD_63_iff (v : DWord) : v.getLsbD 63 = true ↔ v.toInt < 0 := by
  have hmsb : v.msb = v.getLsbD 63 := BitVec.msb_eq_getLsbD_last v
  rw [← hmsb, BitVec.msb_eq_toInt, decide_eq_true_eq]

/-- A skip that is taken jumps over the bundles that it names (R193). -/
theorem sequencer_skips {s : State} {c : CoreId} {p : PartId} {r : RunSt} {x : StepRec} {q : SeqOp} {n : Nat} (h : Ready s c p r x)
    (hmore : (s.core c).pc + 1 + n < (s.core c).codeLen)
    (hbad : slotBad (s.core c) (imageLimits x).1 (imageLimits x).2 [.seq q] (.seq q) = false)
    (hheld : slotHeld ((s.core c).holding [.seq q]) (s.part p).events.toList (.seq q) = false)
    (hact : (s.begun c p x).actSeq c ((s.core c).holding [.seq q]) (some q) p x = (s.begun c p x).modCore c (fun k => k.skip n)) :
    ∃ t, s.issueSlot c true (.seq q) = .next t ∧ OthersSame s t c ∧
      t.core c = { moved (s.core c) with pc := (s.core c).pc + 1 + n } := by
  have hcalm := h.calm
  have hskip : ((s.core c).begun.skip n).counted = { moved (s.core c) with pc := (s.core c).pc + 1 + n } := by
    simp only [Core.counted, Core.skip, Core.begun, moved, hcalm.staged, hcalm.fetched]
  obtain ⟨t, ht, hothers, hcore, -⟩ := sequencer_changes h hbad hheld hact hskip (Or.inr hmore) hcalm.passes
  exact ⟨t, ht, hothers, hcore⟩

/-- EXITN outside any loop is an ordinary bundle (R194). -/
theorem exitLoop_outside {k : Core} (h : k.loops = []) : k.exitLoop = k.advance := by
  unfold Core.exitLoop
  rw [h]

/-- EXITN whose register has bit 63 clear, or outside any loop, moves on (R194). -/
theorem exitn_moves {s : State} {c : CoreId} {p : PartId} {r : RunSt} {x : StepRec} (h : Straight s c p r x) {q : SReg}
    (hstay : (s.core c).loops = [] ∨ 0 ≤ ((s.core c).sreg q).toInt) :
    ∃ t, s.issueSlot c true (.seq (.exitn q)) = .next t ∧ OthersSame s t c ∧ t.core c = moved (s.core c) := by
  refine sequencer_moves h rfl rfl ?_
  change (if ((s.core c).sreg q).getLsbD 63 then (s.begun c p x).modCore c Core.exitLoop else _) = _
  split
  · next hneg =>
    have hnone := hstay.resolve_right (not_le.mpr ((getLsbD_63_iff _).mp hneg))
    exact modCore_congr (exitLoop_outside (by rw [core_begun]; exact hnone))
  · rfl

/-- Settles O13: a skip that is taken jumps (`sequencer_skips`), every other bundle here moves on (`sequencer_moves`). -/
theorem skipsAndExit : Obligations.skips_and_exit := by
  intro s c p r x h q n hn hmore k
  have hone : decide (n = 0) = false := decide_eq_false hn
  refine ⟨?_, ?_, fun hstay => exec_exitn c true q s ▸ exitn_moves h hstay⟩
  · rw [exec_skipz, execSkipz]
    by_cases hq : k.sreg q = 0
    · rw [if_pos hq]
      exact sequencer_skips h.ready hmore hone rfl (if_pos hq)
    · rw [if_neg hq]
      exact sequencer_moves h hone rfl (if_neg hq)
  · rw [exec_skipnz, execSkipnz]
    by_cases hq : k.sreg q = 0
    · rw [if_pos hq]
      exact sequencer_moves h hone rfl (if_neg (not_not.mpr hq))
    · rw [if_neg hq]
      exact sequencer_skips h.ready hmore hone rfl (if_pos hq)

/-! ### Waits, holds, delays (R189, R200, R202) -/

/-- Every condition of WAIT holds in a core with nothing in flight (R200). -/
theorem waitBit_calm {k : Core} (h : Calm k) (b : Nat) : k.waitBit b = true := by
  have hstream : ∀ d ∈ k.dma.toList, d.q = [] := by
    intro d hd
    obtain ⟨t, ht, rfl⟩ := List.getElem_of_mem hd
    exact h.streams ⟨t, by simpa using ht⟩
  unfold Core.waitBit
  split
  · simp [h.passes, h.reads]
  · simp [h.loads]
  · simp [h.mvps]
  · simp [h.vecs]
  · have hlanded : k.dma.toList.all (fun d => d.q.all (fun f => decide (k.seq + 1 ≤ f.seq) || !f.writesDeep)) = true :=
      List.all_eq_true.mpr fun d hd => by rw [hstream d hd]; rfl
    rw [Core.deepLanded, h.deep, hlanded]
    rfl
  · simp [h.taps]
  · next n =>
    split
    · next d hd => rw [hstream d (List.mem_of_getElem? hd)]; rfl
    · rfl

theorem waitDone_calm {k : Core} (h : Calm k) (mask : BitVec 14) : k.waitDone mask = true :=
  List.all_eq_true.mpr fun b _ => by rw [waitBit_calm h b, Bool.or_true]

/-- WAIT of a core with nothing in flight does not hold (R200). -/
theorem slotHeld_wait {k : Core} (h : Calm k) (ops : List SlotOp) (events : List Word) (mask : BitVec 14) :
    slotHeld (k.holding ops) events (.seq (.wait mask)) = false := by
  change (!k.waitDone mask) = false
  rw [waitDone_calm h]
  rfl

/-- WAITEV holds below its register (R202). -/
theorem slotHeld_waitev (k : Core) (ops : List SlotOp) (events : Vector Word 16) (q : SReg) (e : Fin 16) :
    slotHeld (k.holding ops) events.toList (.seq (.waitev q e)) = decide (events[e.val].toNat < k.s32 q) := by
  have he : nth 0 events.toList e.val = events[e.val] := by simp [nth]
  change decide ((nth 0 events.toList e.val).toNat < k.s32 q) = _
  rw [he]

/-- A bundle that its slot holds stays at the head (R189). -/
theorem sequencer_held {s : State} {c : CoreId} {p : PartId} {r : RunSt} {x : StepRec} {q : SeqOp} (h : Ready s c p r x)
    (hbad : slotBad (s.core c) (imageLimits x).1 (imageLimits x).2 [.seq q] (.seq q) = false)
    (hheld : slotHeld ((s.core c).holding [.seq q]) (s.part p).events.toList (.seq q) = true) :
    s.issueSlot c true (.seq q) = .next (s.modCore c (·.holding [.seq q])) := by
  have hk : (s.modCore c (·.holding [.seq q])).core c = (s.core c).holding [.seq q] := core_modCore _ _ _
  have harrived : ((s.core c).holding [.seq q]).fetched = [[.seq q]] := rfl
  have hholds : bundleHeld ((s.core c).holding [.seq q]) (s.part p).events.toList [.seq q] = true := by simp [bundleHeld, hheld]
  rw [issueSlot_arrives h hbad]
  unfold State.tryIssue
  simp only [hk, stepOf_modCore, h.step, part_modCore, harrived, hholds, Bool.or_true, if_true]

/-- A core as the bundle of DELAY leaves it (R189). -/
theorem counted_delay {k : Core} (h : Calm k) (hin : ∀ l rest, k.loops = l :: rest → l.last ≠ k.pc) (timed : Bool) :
    ({ k.begun with timed := timed } : Core).advance.counted = { moved k with timed := timed } := by
  rw [advance_straight (k := { k.begun with timed := timed }) hin]
  simp only [Core.counted, Core.begun, moved, h.staged, h.fetched]

/-- Settles O15: WAIT and WAITEV move on (`sequencer_moves`) or hold (`sequencer_held`), DELAY sets the hold of the next bundle. -/
theorem waitsAndDelay : Obligations.waits_and_delay := by
  intro s c p r x h mask q e n k
  have hcalm := h.ready.calm
  refine ⟨?_, fun hreached => ?_, fun hbelow => ?_, ?_⟩
  · rw [exec_wait, execWait]
    exact sequencer_moves h rfl (slotHeld_wait hcalm ..) rfl
  · rw [exec_waitev, execWaitev]
    exact sequencer_moves h rfl ((slotHeld_waitev ..).trans (decide_eq_false (not_lt.mpr hreached))) rfl
  · rw [exec_waitev, execWaitev, sequencer_held h.ready rfl ((slotHeld_waitev ..).trans (decide_eq_true hbelow))]
    refine ⟨_, rfl, othersSame_modCore (othersSame_refl s c) _, ?_⟩
    rw [core_modCore, Core.holding, ← hcalm.staged]
  · rw [exec_delay, execDelay]
    obtain ⟨t, ht, hothers, hcore, -⟩ := sequencer_changes (q := .delay n)
      (g := fun k => ({ k with timed := decide (n ≠ 0) } : Core).advance) h.ready rfl rfl (modCore_modCore _ _ _ _)
      (counted_delay hcalm h.inside (decide (n ≠ 0))) (Or.inr h.more)
      hcalm.passes
    exact ⟨t, ht, hothers, hcore⟩

/-! ### Strips and signals (R201, R202) -/

/-- The cycle of the first STRIP of a core (Table 11-6). -/
def Core.stripSeen (k : Core) : Core :=
  { k with firstStrip := match k.firstStrip with | some v => some v | none => some k.runCclk }

/-- STRIP past the last strip, or of a parked core, reads all ones (R201, R375). -/
theorem takeStrip_none {s : State} {c : CoreId} {d : SReg} {p : PartId} {x : StepRec}
    (h : x.desc.strips ≤ (s.part p).stripCounter ∨ c ∈ s.power.parked) :
    s.takeStrip c d p x = s.modCore c (fun k => (k.issueS d (BitVec.allOnes 64)).stripSeen) := if_pos h

/-- STRIP takes the next number and raises the counter (R201). -/
theorem takeStrip_next {s : State} {c : CoreId} {d : SReg} {p : PartId} {x : StepRec}
    (hleft : (s.part p).stripCounter < x.desc.strips) (hruns : c ∉ s.power.parked) :
    s.takeStrip c d p x = (s.modPart p (fun y => { y with stripCounter := (s.part p).stripCounter + 1 })).modCore c (fun k =>
      { (k.issueS d (BitVec.ofNat 64 (s.part p).stripCounter)).stripSeen with strips := k.strips + 1 }) :=
  if_neg (not_or.mpr ⟨not_le.mpr hleft, hruns⟩)

/-- A core whose STRIP has written its number and that has moved on. -/
theorem counted_strip {k : Core} (h : Calm k) (hin : ∀ l rest, k.loops = l :: rest → l.last ≠ k.pc) (d : SReg) (v : DWord) (n : Nat) :
    ({ (k.begun.issueS d v).stripSeen with strips := n } : Core).advance.counted = { withS (moved k) d v with
      firstStrip := match k.firstStrip with | some y => some y | none => some k.runCclk, strips := n } := by
  rw [issueS_eq_withS (k := k.begun) h.vecs]
  unfold withS
  split
  · rw [advance_straight (k := { k.begun.stripSeen with strips := n }) hin]
    simp only [Core.counted, Core.stripSeen, Core.begun, moved, h.staged, h.fetched]
  · rw [advance_straight (k := { ({ k.begun with s := k.begun.s.set d.val v d.isLt } : Core).stripSeen with strips := n }) hin]
    simp only [Core.counted, Core.stripSeen, Core.begun, moved, h.staged, h.fetched]

/-- STRIP writes its number and moves on; `n` strips more are taken. -/
theorem strip_issues {s : State} {c : CoreId} {p : PartId} {r : RunSt} {x : StepRec} (h : Straight s c p r x) {d : SReg} {v : DWord}
    {n : Nat} {f : Partition → Partition} (htakes : (s.begun c p x).takeStrip c d p x =
      ((s.begun c p x).modPart p f).modCore c (fun k => { (k.issueS d v).stripSeen with strips := k.strips + n })) :
    ∃ t, s.issueSlot c true (.seq (.strip d)) = .next t ∧ OthersSame s t c ∧ t.core c = { withS (moved (s.core c)) d v with
      firstStrip := match (s.core c).firstStrip with | some y => some y | none => some (s.core c).runCclk,
      strips := (s.core c).strips + n } ∧ t.part p = f (s.part p).issuedFirst := by
  have hcalm := h.ready.calm
  obtain ⟨-, hpc, -, hlen, hpasses⟩ := sameControl_withS (moved (s.core c)) d v
  refine sequencer_changes_part (q := .strip d) h.ready rfl rfl
    ((congrArg (fun u : State => u.modCore c Core.advance) htakes).trans (modCore_modCore _ _ _ _))
    (counted_strip hcalm h.inside d v ((s.core c).strips + n)) (Or.inr ?_) (hpasses.trans hcalm.passes)
  change (withS (moved (s.core c)) d v).pc < (withS (moved (s.core c)) d v).codeLen
  rw [hpc, hlen]
  exact h.more

/-- A core as SIGNAL leaves it (R202). -/
theorem counted_signal {k : Core} (h : Calm k) (hin : ∀ l rest, k.loops = l :: rest → l.last ≠ k.pc) (e : Fin 16) :
    ({ k.begun with signals := k.begun.signals ++ [(k.seq, e)] } : Core).advance.counted =
      { moved k with signals := [(k.seq, e)] } := by
  rw [advance_straight (k := { k.begun with signals := k.begun.signals ++ [(k.seq, e)] }) hin]
  simp only [Core.counted, Core.begun, moved, h.staged, h.fetched, h.signals, List.nil_append]

/-- Settles O16: STRIP takes a number or reads all ones (`strip_issues`), SIGNAL leaves its event to its landing. -/
theorem stripAndSignal : Obligations.strip_and_signal := by
  intro s c p r x h d e k n first
  have hcalm := h.ready.calm
  have hcount : ((s.begun c p x).part p).stripCounter = n := by rw [part_begun]; rfl
  have hparked : (s.begun c p x).power.parked = s.power.parked := congrArg PowerSt.parked (othersSame_begun s c p x).power
  refine ⟨fun hleft hruns => ?_, fun hnone => ?_, ?_⟩
  · have htakes := takeStrip_next (s := s.begun c p x) (c := c) (d := d) (p := p) (x := x) (by rw [hcount]; exact hleft)
      (by rw [hparked]; exact hruns)
    rw [hcount] at htakes
    obtain ⟨t, ht, hothers, hcore, hpart⟩ := strip_issues (n := 1) h htakes
    rw [exec_strip, execStrip]
    exact ⟨t, ht, hothers, by rw [hpart], hcore⟩
  · have htakes := takeStrip_none (s := s.begun c p x) (c := c) (d := d) (p := p) (x := x) (by rw [hcount, hparked]; exact hnone)
    have hpart : (s.begun c p x).modPart p id = s.begun c p x := modPart_same rfl
    have hstrips : (fun k : Core => (k.issueS d (BitVec.allOnes 64)).stripSeen) =
        fun k => { (k.issueS d (BitVec.allOnes 64)).stripSeen with strips := k.strips + 0 } := by
      funext k
      unfold Core.issueS Core.setS
      split <;> rfl
    obtain ⟨t, ht, hothers, hcore, hpart⟩ := strip_issues (n := 0) (f := id) h (by rw [hpart, ← hstrips]; exact htakes)
    have hkept : k.strips + 0 = (withS (moved k) d (BitVec.allOnes 64)).strips := by unfold withS; split <;> rfl
    have hsame : ∀ (w : Core) (n : Nat) (z : Option Nat), n = w.strips →
        ({ w with firstStrip := z, strips := n } : Core) = { w with firstStrip := z } := by rintro w _ z rfl; rfl
    rw [exec_strip, execStrip]
    exact ⟨t, ht, hothers, by rw [hpart]; rfl, hcore.trans (hsame _ _ _ hkept)⟩
  · have hroom : slotHeld ((s.core c).holding [.seq (.signal e)]) (s.part p).events.toList (.seq (.signal e)) = false := by
      change decide (4 ≤ (s.core c).signals.length) = false
      rw [hcalm.signals]
      rfl
    obtain ⟨t, ht, hothers, hcore, hpart⟩ := sequencer_changes (q := .signal e) h.ready rfl hroom (modCore_modCore _ _ _ _)
      (counted_signal hcalm h.inside e) (Or.inr h.more) hcalm.passes
    rw [exec_signal, execSignal]
    exact ⟨t, ht, hothers, by rw [hpart]; rfl, hcore⟩

/-! ### Loops (R191, R194, R217) -/

/-- A loop counter below four is written. -/
theorem setLc_lt (k : Core) {lv : Nat} (h : lv < 4) (v : Word) : k.setLc lv v = { k with lc := k.lc.set lv v h } := by
  rw [Core.setLc, dif_pos h]

/-- Leaving the innermost of at most four loops: its counter is 0, the bound registers are as they were at its LOOP. -/
theorem leaveLoop_eq (k : Core) (l : LoopRec) {rest : List LoopRec} (h : rest.length < 4) : k.leaveLoop l rest = { k with
    loops := rest, lc := k.lc.set rest.length 0 h,
    a := Vector.ofFn (fun i : Fin 16 => if (k.abind[i.val]).getLsbD rest.length then Tab.get k.a[i.val] l.snap i.val else k.a[i.val]) } := by
  rw [Core.leaveLoop, setLc_lt _ h, Core.mapBound]

/-- The next iteration of the innermost of at most four loops: the count rises, bound registers take their increments. -/
theorem iterated_eq (k : Core) (l : LoopRec) {lv : Nat} (h : lv < 4) : k.iterated l lv = { k with
    pc := l.first, lc := k.lc.set lv (BitVec.ofNat 32 (k.lc[lv].toNat + 1)) h,
    a := Vector.ofFn (fun i : Fin 16 => if (k.abind[i.val]).getLsbD lv then
      k.a[i.val] + BitVec.ofNat 32 (k.ainc[4 * i.val + lv]'(by omega)).toNat else k.a[i.val]) } := by
  have hcount : k.lc.toList.getD lv 0 = k.lc[lv] := by simp [List.getD, h]
  have hinc : ∀ i : Fin 16, (k.ainc.toList.getD (4 * i.val + lv) 0).setWidth 32 =
      BitVec.ofNat 32 (k.ainc[4 * i.val + lv]'(by omega)).toNat := by
    intro i
    have hin : 4 * i.val + lv < 64 := by omega
    rw [BitVec.ofNat_toNat]
    simp [List.getD, hin]
  rw [Core.iterated, hcount, setLc_lt _ h, Core.mapBound]
  simp only [hinc]

/-- LOOP opens its loop, or goes on after a body that it skips (R191). -/
theorem counted_openLoop {k : Core} (h : Calm k) {n e : Nat} (hlv : k.loops.length < 4)
    (hskip : n = 0 → ∀ l rest, k.loops = l :: rest → k.pc + e < l.last) :
    (k.begun.openLoop n e).counted = if n = 0 then { moved k with pc := k.pc + e + 1 } else { moved k with
      lc := k.lc.set k.loops.length 0 hlv,
      loops := { cnt := n, first := k.pc + 1, last := k.pc + e,
                 snap := ((List.range 16).filter (fun i => (k.abind.toList.getD i 0).getLsbD k.loops.length)).map (fun i =>
                   (i, BitVec.ofNat 32 (k.areg i))) } :: k.loops } := by
  unfold Core.openLoop
  split
  · next hn =>
    have hin : ∀ l rest, k.begun.loops = l :: rest → l.last ≠ k.begun.pc + e := fun l rest hl => (hskip hn l rest hl).ne'
    rw [endTest_inside hin, refetch_none (k := { k.begun with pc := k.begun.pc + e + 1 }) rfl]
    simp only [Core.counted, Core.begun, moved, h.staged, h.fetched]
  · dsimp only
    rw [setLc_lt k.begun (lv := k.begun.loops.length) hlv]
    simp only [Core.counted, Core.begun, moved, h.staged, h.fetched]
    rfl

/-- LOOP in fewer than four loops, alone in its bundle (R191). -/
theorem loop_opens {s : State} {c : CoreId} {p : PartId} {r : RunSt} {x : StepRec} (h : Straight s c p r x) {csrc : Bool}
    {len : BitVec 11} {cnt : BitVec 14} {n : Nat} (hlv : (s.core c).loops.length < 4) (hlen : len ≠ 0)
    (hreg : csrc = true ∨ cnt.toNat < 32) (hn : n = if csrc then cnt.toNat else (s.core c).s32 ⟨cnt.toNat % 32, Nat.mod_lt _ (by decide)⟩)
    (hcode : (s.core c).pc + len.toNat < (s.core c).codeLen)
    (hbody : ∀ l rest, (s.core c).loops = l :: rest → (s.core c).pc + len.toNat ≤ l.last)
    (hskip : n = 0 → (s.core c).pc + len.toNat + 1 < (s.core c).codeLen ∧
      ∀ l rest, (s.core c).loops = l :: rest → (s.core c).pc + len.toNat < l.last) :
    ∃ t, s.issueSlot c true (.seq (.loop csrc len cnt)) = .next t ∧ OthersSame s t c ∧
      t.core c = ((s.core c).begun.openLoop n len.toNat).counted := by
  have hcalm := h.ready.calm
  have hok : slotBad (s.core c) (imageLimits x).1 (imageLimits x).2 [.seq (.loop csrc len cnt)] (.seq (.loop csrc len cnt)) = false := by
    have hsrc : (!csrc && decide (32 ≤ cnt.toNat)) = false := by
      rcases hreg with hreg | hreg
      · rw [hreg]
        rfl
      · rw [decide_eq_false (not_le.mpr hreg), Bool.and_false]
    have hfront := Bool.or_eq_false_iff.mpr ⟨decide_eq_false hlen, decide_eq_false (not_le.mpr hlv)⟩
    refine Bool.or_eq_false_iff.mpr ⟨Bool.or_eq_false_iff.mpr ⟨Bool.or_eq_false_iff.mpr ⟨hfront, hsrc⟩,
      decide_eq_false (not_le.mpr hcode)⟩, ?_⟩
    split
    · next l rest hl => exact decide_eq_false (not_lt.mpr (hbody l rest hl))
    · rfl
  have hend := counted_openLoop hcalm (n := n) (e := len.toNat) hlv fun hz => (hskip hz).2
  have hinside : ((s.core c).begun.openLoop n len.toNat).counted.pc < ((s.core c).begun.openLoop n len.toNat).counted.codeLen := by
    rw [hend]
    split
    · next hz => exact (hskip hz).1
    · exact h.more
  have hpasses : ((s.core c).begun.openLoop n len.toNat).counted.passQ = [] := by
    rw [hend]
    split <;> exact hcalm.passes
  obtain ⟨t, ht, hothers, hcore, -⟩ := sequencer_changes (q := .loop csrc len cnt) (g := fun k => k.openLoop n len.toNat) h.ready hok rfl
    (by rw [hn]; rfl) rfl (Or.inr hinside) hpasses
  exact ⟨t, ht, hothers, hcore⟩

/-- A bundle of a kind that only moves on: control goes where the end tests send it (R191). -/
theorem wait_goes {s : State} {c : CoreId} {p : PartId} {r : RunSt} {x : StepRec} {k : Core} (h : Ready s c p r x)
    (hk : Core.endTest 5 (s.core c).pc (s.core c).begun = k) (hinside : k.pc < (s.core c).codeLen) :
    ∃ t, exec (.wait c true 0) s = .next t ∧ OthersSame s t c ∧ t.core c = k.counted := by
  obtain ⟨pc, ls, lc, a, e, -⟩ := endTest_rewound 5 (s.core c).begun.pc (s.core c).begun
  have he : k = (s.core c).begun.rewound pc ls lc a := hk.symm.trans e
  have hadvance : (s.core c).begun.advance = (s.core c).begun.rewound pc ls lc a := (advance_endTest rfl).trans e
  rw [he] at hinside ⊢
  obtain ⟨t, ht, hothers, hcore, -⟩ := sequencer_changes (q := .wait 0) h rfl (slotHeld_wait h.calm ..) rfl
    (congrArg Core.counted hadvance) (Or.inr hinside) h.calm.passes
  exact ⟨t, (exec_wait ..).trans ht, hothers, hcore⟩

/-- A calm core that its last bundle has rewound. -/
theorem counted_rewound {k : Core} (h : Calm k) (pc : Nat) (ls : List LoopRec) (lc : Vector Word 4) (a : Vector Word 16) :
    (k.begun.rewound pc ls lc a).counted = { moved k with pc := pc, loops := ls, lc := lc, a := a } := by
  simp only [Core.counted, Core.rewound, Core.begun, moved, h.staged, h.fetched]

/-- A core rewound at its pc is as ready as before. -/
theorem ready_rewound {s : State} {c : CoreId} {p : PartId} {r : RunSt} {x : StepRec} (h : Ready s c p r x) (ls : List LoopRec)
    (lc : Vector Word 4) (a : Vector Word 16) :
    Ready (s.modCore c (fun _ => (s.core c).rewound (s.core c).pc ls lc a)) c p r x := by
  obtain ⟨hstaged, hfetched, htimed, hpasses, hreads, hloads, htaps, hmvps, hvecs, hsignals, hdeep, hstreams⟩ := h.calm
  refine ⟨(issuing_modCore rfl).trans h.issuing, (stepOf_modCore ..).trans h.step, ?_, fetched_modCore h.fetched rfl rfl rfl ⟨rfl, rfl⟩⟩
  rw [core_modCore]
  exact ⟨hstaged, hfetched, htimed, hpasses, hreads, hloads, htaps, hmvps, hvecs, hsignals, hdeep, hstreams⟩

/-- The core that leaves the innermost of at most four loops. -/
def Core.left (k : Core) (l : LoopRec) (rest : List LoopRec) (h : rest.length < 4) : Core :=
  k.rewound k.pc rest (k.lc.set rest.length 0 h)
    (Vector.ofFn (fun i : Fin 16 => if (k.abind[i.val]).getLsbD rest.length then Tab.get k.a[i.val] l.snap i.val else k.a[i.val]))

theorem leaveLoop_begun (k : Core) (l : LoopRec) {rest : List LoopRec} (h : rest.length < 4) :
    k.begun.leaveLoop l rest = (k.left l rest h).begun := leaveLoop_eq k.begun l h

/-- The end tests of a bundle where the innermost of at most four loops is over are those of the loops around it (R191). -/
theorem endTest_left {k : Core} {l : LoopRec} {rest : List LoopRec} (h : rest.length < 4) (hl : k.loops = l :: rest) (hlast : l.last = k.pc)
    (hover : ¬ k.lc[rest.length].toNat + 1 < l.cnt) :
    Core.endTest 5 k.pc k.begun = Core.endTest 5 k.pc (k.left l rest h).begun := by
  have hcount : k.begun.lc.toList.getD rest.length 0 = k.lc[rest.length] := by simp [List.getD, h, Core.begun]
  rw [endTest_last (k := k.begun) hl hlast, hcount, if_neg hover, leaveLoop_begun k l h]
  exact (endTest_fuel 4 _ _ (Nat.le_of_lt h)).symm

/-- Below its count the innermost loop begins its next iteration (R191, R217). -/
theorem endTest_iterates {k : Core} {l : LoopRec} {rest : List LoopRec} (h : rest.length < 4) (hl : k.loops = l :: rest)
    (hlast : l.last = k.pc) (hbelow : k.lc[rest.length].toNat + 1 < l.cnt) :
    Core.endTest 5 k.pc k.begun = k.begun.rewound l.first k.loops
      (k.lc.set rest.length (BitVec.ofNat 32 (k.lc[rest.length].toNat + 1)) h)
      (Vector.ofFn (fun i : Fin 16 => if (k.abind[i.val]).getLsbD rest.length then
        k.a[i.val] + BitVec.ofNat 32 (k.ainc[4 * i.val + rest.length]'(by omega)).toNat else k.a[i.val])) := by
  have hcount : k.begun.lc.toList.getD rest.length 0 = k.lc[rest.length] := by simp [List.getD, h, Core.begun]
  rw [endTest_last (k := k.begun) hl hlast, hcount, if_pos hbelow]
  exact iterated_eq k.begun l h

/-- EXITN that leaves its loop goes on behind the loop (R194). -/
theorem exitLoop_leaves {k : Core} {l : LoopRec} {rest : List LoopRec} (h : rest.length < 4) (hl : k.loops = l :: rest)
    (hout : ∀ m more, rest = m :: more → m.last ≠ l.last) :
    k.begun.exitLoop = { (k.left l rest h).begun with pc := l.last + 1 } := by
  have hexit : k.begun.exitLoop = (Core.endTest 5 l.last (k.begun.leaveLoop l rest)).refetch k.pc := by
    unfold Core.exitLoop
    rw [show k.begun.loops = l :: rest from hl]
    rfl
  rw [hexit, leaveLoop_begun k l h, endTest_inside hout]
  exact refetch_none rfl _

/-- A calm core that has left its loop. -/
theorem counted_left {k : Core} (h : Calm k) (l : LoopRec) {rest : List LoopRec} (hlv : rest.length < 4) (pc : Nat) :
    ({ (k.left l rest hlv).begun with pc := pc } : Core).counted = { moved k with
      pc := pc, loops := rest, lc := k.lc.set rest.length 0 hlv,
      a := Vector.ofFn (fun i : Fin 16 => if (k.abind[i.val]).getLsbD rest.length then Tab.get k.a[i.val] l.snap i.val else k.a[i.val]) } := by
  simp only [Core.counted, Core.left, Core.rewound, Core.begun, moved, h.staged, h.fetched]

/-- Settles O12: LOOP opens (`loop_opens`), the end tests of WAIT iterate or leave (`endTest_iterates`, `endTest_left`), EXITN leaves. -/
theorem loops : Obligations.loops := by
  refine ⟨?_, ?_, ?_⟩
  · intro s c p r x h csrc len cnt hlv hlen hreg k n hcode hbody hskip
    obtain ⟨t, ht, hothers, hcore⟩ := loop_opens h hlv hlen hreg rfl hcode hbody hskip
    exact ⟨t, (exec_loop ..).trans ht, hothers, hcore.trans (counted_openLoop h.ready.calm hlv fun hz => (hskip hz).2)⟩
  · intro s c p r x l rest hlv h hl hlast hfirst hmore k done left
    refine ⟨fun hbelow => ?_, fun hover hin => ?_, fun hover hin hrest => ?_⟩
    · obtain ⟨t, ht, hothers, hcore⟩ := wait_goes h (endTest_iterates hlv hl hlast hbelow) hfirst
      exact ⟨t, ht, hothers, hcore.trans (counted_rewound h.calm ..)⟩
    · have htest : Core.endTest 5 k.pc k.begun = { (k.left l rest hlv).begun with pc := k.pc + 1 } :=
        (endTest_left hlv hl hlast (not_lt.mpr hover)).trans (endTest_inside hin _)
      obtain ⟨t, ht, hothers, hcore⟩ := wait_goes h htest hmore
      exact ⟨t, ht, hothers, hcore.trans (counted_left h.calm l hlv _)⟩
    · have hready : Ready (s.modCore c (fun _ => left)) c p r x := ready_rewound h ..
      have hk : (s.modCore c (fun _ => left)).core c = left := core_modCore ..
      obtain ⟨pc, ls, lc, a, e, hpc⟩ := endTest_rewound 5 k.pc left.begun
      have hinside : pc < k.codeLen := by
        rcases hpc with hnext | ⟨m, hm, hat⟩
        · exact hnext ▸ hmore
        · exact hat ▸ hrest m hm
      have htest : Core.endTest 5 k.pc k.begun = left.begun.rewound pc ls lc a :=
        (endTest_left hlv hl hlast (not_lt.mpr hover)).trans e
      obtain ⟨t, ht, hothers, hcore⟩ := wait_goes h htest hinside
      obtain ⟨u, hu, -, hcore'⟩ := wait_goes (k := left.begun.rewound pc ls lc a) hready (by rw [hk]; exact e) (by rw [hk]; exact hinside)
      exact ⟨t, u, ht, hothers, hu, hcore.trans hcore'.symm⟩
  · intro s c p r x l rest hlv h hl hmore hafter hout q k hgo
    rw [exec_exitn, execExitn]
    by_cases hneg : (k.sreg q).toInt < 0
    · have hleaves : k.begun.exitLoop.counted = _ :=
        (congrArg Core.counted (exitLoop_leaves hlv hl hout)).trans (counted_left h.calm l hlv _)
      obtain ⟨t, ht, hothers, hcore, -⟩ := sequencer_changes (q := .exitn q) h rfl rfl (if_pos ((getLsbD_63_iff _).mpr hneg)) hleaves
        (Or.inr hafter) h.calm.passes
      rw [if_pos hneg]
      exact ⟨t, ht, hothers, hcore⟩
    · have hin : ∀ m more, k.loops = m :: more → m.last ≠ k.pc := by
        intro m more hm
        rw [hl] at hm
        cases hm
        exact hgo.resolve_right hneg
      rw [if_neg hneg]
      exact exitn_moves ⟨h, hin, hmore⟩ (Or.inr (not_lt.mp hneg))

end Sys2Proof.Machine

/-!
PROOFS. The end of a core's part: COMMIT and HALT (R203, R204, R251, R340, R346): `commit_and_halt`.
-/
namespace Sys2Proof.Machine
open Sys2Proof.Safety

/-! ### Tokens and FLUSHes -/

/-- A core whose part is over: its FLUSHes are those of the engines that it wrote (R203, R346). -/
def Core.closed (k : Core) : Core := { k with phase := .committed, remoteFlush := k.remoteDirty }

/-- COMMIT of a core that wrote no other engine sends its token (R203). -/
theorem commitCore_local {s : State} {c : CoreId} (h : (s.core c).remoteDirty = 0) (p : PartId) :
    s.commitCore c p = (s.modCore c Core.closed).sendToken c := by
  have hnone : (List.range 8).filter (fun e => (s.core c).remoteDirty.getLsbD e) = [] := by rw [h]; rfl
  unfold State.commitCore
  dsimp only
  rw [hnone]
  rfl

/-- COMMIT of a core that wrote into OPEN engines alone asks them to flush (R340, R346). -/
theorem commitCore_remote {s : State} {c : CoreId} (h : (s.core c).remoteDirty ≠ 0)
    (hup : ∀ e : Fin 8, (s.core c).remoteDirty.getLsbD e.val = true → s.link.peerState[e.val] = 1) (p : PartId) :
    s.commitCore c p = (s.modCore c Core.closed).sendFlushes c := by
  have hsome : (List.range 8).filter (fun e => (s.core c).remoteDirty.getLsbD e) ≠ [] := by
    intro hnone
    refine h (BitVec.eq_of_getLsbD_eq fun e he => ?_)
    have hclear := List.filter_eq_nil_iff.mp hnone e (List.mem_range.mpr he)
    rw [Bool.eq_false_of_not_eq_true hclear]
    exact BitVec.getLsbD_zero.symm
  unfold State.commitCore
  dsimp only
  split
  · next e he =>
    obtain ⟨hlt, hbit⟩ := List.mem_filter.mp (List.mem_of_find?_eq_some he)
    have hlt := List.mem_range.mp hlt
    have hopen : s.link.peerState.toList.getD e 0 = 1 := by simpa [List.getD, hlt] using hup ⟨e, hlt⟩ hbit
    have hfound := List.find?_some he
    exact absurd hopen (of_decide_eq_true hfound)
  · exact if_neg hsome

/-- A token leaves deep scratch alone. -/
theorem sendToken_deep (s : State) (c : CoreId) : (s.sendToken c).deep = s.deep := by
  unfold State.sendToken
  split <;> rfl

/-- The FLUSHes of a core go out through the Stack Link alone (R340). -/
theorem sendFlushes_link (s : State) (c : CoreId) : ∃ l, s.sendFlushes c = { s with link := l } := by
  unfold State.sendFlushes
  split
  · exact ⟨s.link, rfl⟩
  · refine foldl_link _ (fun s e => ?_) _ s
    split
    · exact ⟨s.link, rfl⟩
    · exact ⟨_, rfl⟩

/-! ### COMMIT and HALT -/

/-- Nothing holds a COMMIT of a core with nothing in flight (R203). -/
theorem slotHeld_commit {k : Core} (h : Calm k) (ops : List SlotOp) (events : List Word) :
    slotHeld (k.holding ops) events (.seq .commit) = false := by
  change (!(k.waitDone (BitVec.allOnes 14) && k.signals.isEmpty)) = false
  rw [waitDone_calm h, h.signals]
  rfl

/-- The block when the COMMIT of a core closes its part. -/
def State.closing (s : State) (c : CoreId) (p : PartId) (x : StepRec) : State := (s.begun c p x).modCore c Core.advance

/-- The core that commits. -/
theorem core_closing {s : State} {c : CoreId} (hin : ∀ l rest, (s.core c).loops = l :: rest → l.last ≠ (s.core c).pc) (p : PartId)
    (x : StepRec) : (s.closing c p x).core c = { (s.core c).begun with pc := (s.core c).pc + 1 } := by
  rw [State.closing, core_modCore, core_begun]
  exact advance_straight (k := (s.core c).begun) hin

/-- Its run. -/
theorem run_closing {s : State} {c : CoreId} {p : PartId} {r : RunSt} (hrun : (s.part p).run = some r) (x : StepRec) :
    ((s.closing c p x).part p).run = some { r with firstIssue := true } := by
  rw [State.closing, part_modCore, part_begun, Partition.issuedFirst, hrun]
  rfl

/-- A calm core after its COMMIT. -/
theorem counted_closed {k : Core} (h : Calm k) :
    ({ k.begun with pc := k.pc + 1 } : Core).closed.counted = { moved k with phase := .committed, remoteFlush := k.remoteDirty } := by
  simp only [Core.counted, Core.closed, Core.begun, moved, h.staged, h.fetched]

/-- What a COMMIT made of the block stands, with the core counted on: a core whose part is over issues nothing more. -/
theorem commit_issues {s : State} {c : CoreId} {p : PartId} {r : RunSt} {x : StepRec} {u : State} (h : Ready s c p r x)
    (hin : ∀ l rest, (s.core c).loops = l :: rest → l.last ≠ (s.core c).pc) (hu : (s.closing c p x).commitCore c p = u)
    (hcores : u.cores = ((s.closing c p x).modCore c Core.closed).cores) :
    exec (.commit c true) s = .next (u.modCore c Core.counted) ∧
      (u.modCore c Core.counted).core c = { moved (s.core c) with phase := .committed, remoteFlush := (s.core c).remoteDirty } ∧
      ∀ d, d ≠ c → (u.modCore c Core.counted).core d = s.core d := by
  have hat : ∀ d, u.core d = ((s.closing c p x).modCore c Core.closed).core d := fun d =>
    congrArg (fun ks : Vector Core 20 => ks[d.val]) hcores
  have hcore : u.core c = ({ (s.core c).begun with pc := (s.core c).pc + 1 } : Core).closed := by
    rw [hat, core_modCore, core_closing hin]
  have hidle : u.issuing c = false := by
    rw [State.issuing, hcore]
    rfl
  refine ⟨(exec_commit ..).trans (sequencer_issues h rfl (slotHeld_commit h.calm ..) hu (Or.inl hidle) (Or.inl ?_)), ?_, fun d hd => ?_⟩
  · rw [hcore]
    exact h.calm.passes
  · rw [core_modCore, hcore, counted_closed h.calm]
  · rw [core_modCore_ne _ _ _ _ hd, hat, core_modCore_ne _ _ _ _ hd, State.closing, core_modCore_ne _ _ _ _ hd]
    exact (othersSame_begun s c p x).cores d hd

/-- A core as HALT leaves it (R204). -/
theorem counted_halted {k : Core} (h : Calm k) (hin : ∀ l rest, k.loops = l :: rest → l.last ≠ k.pc) :
    ({ k.begun.advance with phase := .halted, fetched := [] } : Core).counted = { moved k with phase := .halted } := by
  rw [advance_straight (k := k.begun) hin]
  simp only [Core.counted, Core.begun, moved, h.staged, h.fetched]

/-- Settles O17: a COMMIT sends its token (`commitCore_local`) or its FLUSHes (`commitCore_remote`), HALT stops its core alone. -/
theorem commitAndHalt : Obligations.commit_and_halt := by
  intro s c p r x h hin k
  obtain ⟨hrunOf, hrun, -⟩ := of_stepOf h.step
  have hothers := othersSame_begun s c p x
  have hdirty : ((s.closing c p x).core c).remoteDirty = k.remoteDirty := by rw [core_closing hin]; rfl
  have hpart := run_closing (c := c) hrun x
  refine ⟨fun hnone => ?_, fun hsome hup => ?_, fun htest => ?_⟩
  · have hclosing : ((s.closing c p x).modCore c Core.closed).runOf c = some p := (runOf_begun s c c p x).trans hrunOf
    obtain ⟨harrived, hcores, -⟩ := sendToken_arrives (s := (s.closing c p x).modCore c Core.closed) hclosing hpart
    obtain ⟨ht, hcore, hrest⟩ := commit_issues h hin (commitCore_local (hdirty.trans hnone) p) hcores
    refine ⟨_, ht, by rw [hcore, hnone], hrest, ?_, _, harrived, ?_⟩
    · exact (sendToken_deep ..).trans hothers.deep
    · rw [core_modCore, core_closing hin]
      rfl
  · have hlink : ((s.closing c p x).link) = s.link := hothers.link
    obtain ⟨l, hsend⟩ := sendFlushes_link ((s.closing c p x).modCore c Core.closed) c
    obtain ⟨ht, hcore, hrest⟩ := commit_issues h hin ((commitCore_remote (by rw [hdirty]; exact hsome)
      (by rw [hdirty, hlink]; exact hup) p).trans hsend) rfl
    exact ⟨_, ht, by rw [hcore], by rw [hcore], hrest, hothers.deep, _, hpart, rfl⟩
  · have hok : slotBad k (imageLimits x).1 (imageLimits x).2 [.seq .halt] (.seq .halt) = false := by
      change (!bitAt (imageLimits x).1 0) = false
      rw [htest]
      rfl
    obtain ⟨t, ht, hothers, hcore, hpart⟩ := sequencer_changes (q := .halt) h hok rfl (modCore_modCore _ _ _ _)
      (counted_halted h.calm hin) (Or.inl nofun) h.calm.passes
    refine ⟨t, (exec_halt ..).trans ht, hothers, hcore, { r with firstIssue := true }, ?_, rfl⟩
    rw [hpart, Partition.issuedFirst, hrun]
    rfl

end Sys2Proof.Machine

/-!
PROOFS. CALL, its failures and RET (R196, R197, R234, Table 10-5): `call_and_return`.
-/
namespace Sys2Proof.Machine
open Sys2Proof.Safety

/-! ### The routine store -/

/-- A read of the routine store that meets no flipped word corrects nothing (R179). -/
theorem fixStore_clean {s : State} {c : CoreId} {o n : Nat} (h : marksIn (s.start.storeFlip[c.val / 5]'(by omega)) [(o, n)] = []) :
    s.fixStore c o n = s := by
  unfold State.fixStore
  rw [h]

/-- What the routine store holds does not depend on what lies outside it. -/
theorem storePoisonIn_start {s t : State} (h : t.start = s.start) (c : CoreId) (o n : Nat) :
    t.storePoisonIn c o n = s.storePoisonIn c o n := by
  unfold State.storePoisonIn
  rw [h]

/-- A directory entry without records of its own names none. -/
theorem descRecs_storeBytes_zero (s : State) (c : CoreId) (o base : Nat) : descRecs (s.storeBytes c o 0) base = [] := by
  simp [descRecs, State.storeBytes]

/-! ### Entry -/

/-- A core that a CALL has taken from its bundle into a routine (R197): what it saves, its window, its first bundle. -/
theorem enter_eq {k : Core} (hin : ∀ l rest, k.loops = l :: rest → l.last ≠ k.pc) (r : RoutineRec) (off len : Nat) (rs : List DescRec)
    (ds : List TensorDecl) : ∃ ai ab, k.begun.enter r off len rs ds = { k.begun with
      frame := some { pc := k.pc + 1, codeLen := k.codeLen, win := k.win, loops := k.loops, lc := k.lc, a := k.a, ainc := k.ainc,
                      abind := k.abind },
      pc := 0, codeLen := r.bundles, codeBase := 32 * r.storeOff, win := ⟨k.win.nsb + off, len⟩, loops := [],
      lc := Vector.replicate 4 0, ainc := ai, abind := ab, bank1 := bankOf rs, books1 := booksOf rs ds, timed := true } ∧
      (rs = [] → ai = Vector.replicate 64 0 ∧ ab = Vector.replicate 16 0) := by
  have hadvance : k.begun.advance = { k.begun with pc := k.pc + 1 } := advance_straight (k := k.begun) hin
  unfold Core.enter
  rw [hadvance]
  cases rs with
  | nil => exact ⟨_, _, rfl, fun _ => ⟨rfl, rfl⟩⟩
  | cons d rs =>
    obtain ⟨ai, ab, e⟩ := loadRecs_only _ (d :: rs)
    exact ⟨ai, ab, e, nofun⟩

/-- The verifier accepts a CALL outside a routine in an image that may call (R196). -/
theorem slotBad_call {k : Core} {flags : Nat} (hframe : k.frame = none) (hflag : bitAt flags 2 = true) (arrays : Nat) (q : SReg)
    (id : BitVec 16) : slotBad k flags arrays [.seq (.call q id)] (.seq (.call q id)) = false := by
  change (k.frame.isSome || !bitAt flags 2) = false
  rw [hframe, hflag]
  rfl

/-- Whether the window that a caller names for a routine is no window for it (R197, R234). -/
def callRefused (k : Core) (q : SReg) (d : RoutineRec) : Prop :=
  k.win.nsl < (k.sreg q).toNat % 2 ^ 11 + (k.sreg q).toNat / 2 ^ 16 % 2 ^ 12 ∨ (k.sreg q).toNat / 2 ^ 16 % 2 ^ 12 = 0 ∨
    (k.sreg q).toNat / 2 ^ 16 % 2 ^ 12 < d.minLen

/-- Fields of the register that a CALL names: the offset and the length of the routine's window. -/
theorem fld_window (v : Nat) : fld v 10 0 = v % 2 ^ 11 ∧ fld v 27 16 = v / 2 ^ 16 % 2 ^ 12 := by
  simp [fld]

/-- The tensors that the image of a step declares. -/
def StepRec.decls (x : StepRec) : List TensorDecl :=
  match x.image with | some i => tensorDecls (sectionBytes i.bytes 5) 0 | none => []

/-- CALL of a routine of the directory with a window for it takes the core into the routine (R197). -/
theorem callRoutine_enters {s : State} {c : CoreId} {k0 : Core} {q : SReg} {id : BitVec 16} {x : StepRec} {d : RoutineRec}
    (hdir : x.tables.dir.find? (fun e => decide (e.id = id.toNat)) = some d) (hwin : ¬ callRefused k0 q d)
    (hpoison : s.storePoisonIn c d.descOff (16 * (d.flags / 256 % 256)) = none)
    (hflip : marksIn (s.start.storeFlip[c.val / 5]'(by omega)) [(d.descOff, 16 * (d.flags / 256 % 256))] = []) :
    s.callRoutine c k0 q id x = s.modCore c (fun k => k.enter d ((k0.sreg q).toNat % 2 ^ 11)
      ((k0.sreg q).toNat / 2 ^ 16 % 2 ^ 12) (descRecs (s.storeBytes c d.descOff (16 * (d.flags / 256 % 256))) 0) x.decls) := by
  obtain ⟨hoff, hlen⟩ := fld_window (k0.sreg q).toNat
  unfold State.callRoutine
  rw [hdir]
  dsimp only
  rw [hoff, hlen]
  refine (if_neg hwin).trans ?_
  rw [hpoison]
  dsimp only
  rw [fixStore_clean hflip]
  rfl

/-- CALL of a routine that the directory does not hold ends the step with 0x0B (R234). -/
theorem callRoutine_absent {x : StepRec} {id : BitVec 16} (hdir : x.tables.dir.find? (fun e => decide (e.id = id.toNat)) = none)
    (s : State) (c : CoreId) (k0 : Core) (q : SReg) : s.callRoutine c k0 q id x = s.failCore c 0x0B id.toNat := by
  unfold State.callRoutine
  rw [hdir]

/-- CALL with no window for its routine ends the step with 0x03 (R197). -/
theorem callRoutine_refused {x : StepRec} {id : BitVec 16} {d : RoutineRec} {k0 : Core} {q : SReg}
    (hdir : x.tables.dir.find? (fun e => decide (e.id = id.toNat)) = some d) (hwin : callRefused k0 q d) (s : State) (c : CoreId) :
    s.callRoutine c k0 q id x = s.failCore c 0x03 0 := by
  obtain ⟨hoff, hlen⟩ := fld_window (k0.sreg q).toNat
  unfold State.callRoutine
  rw [hdir]
  dsimp only
  rw [hoff, hlen]
  exact if_pos hwin

/-- A sequencer slot that ends the step of its core with a fault: the run drains (R247, Table 10-5). -/
theorem sequencer_fails {s : State} {c : CoreId} {p : PartId} {r : RunSt} {x : StepRec} {q : SeqOp} {status : Byte} {detail : Nat}
    (h : Ready s c p r x) (hphase : r.phase = .running)
    (hbad : slotBad (s.core c) (imageLimits x).1 (imageLimits x).2 [.seq q] (.seq q) = false)
    (hheld : slotHeld ((s.core c).holding [.seq q]) (s.part p).events.toList (.seq q) = false)
    (hact : (s.begun c p x).actSeq c ((s.core c).holding [.seq q]) (some q) p x = (s.begun c p x).failCore c status detail) :
    ∃ t, s.issueSlot c true (.seq q) = .next t ∧ ∃ y, (t.part p).run = some y ∧
      y.phase = .draining (.fault status (BitVec.ofNat 32 detail)) := by
  have hdrains := failCore_drains (stepOf_begun h.step) hphase status detail
  have hrun := hdrains.run
  have hmember : c ∈ r.cores := by
    obtain ⟨hrunOf, hrun, -⟩ := of_stepOf h.step
    have hin := List.find?_some hrunOf
    rw [hrun] at hin
    exact of_decide_eq_true hin
  have hidle : (((s.begun c p x).failCore c status detail).core c).phase = .idle := hdrains.idle c hmember
  have hstops : ((s.begun c p x).failCore c status detail).issuing c = false := by rw [State.issuing, hidle]; rfl
  exact ⟨_, sequencer_issues h hbad hheld hact (Or.inl hstops) (Or.inr hidle), _, hrun, rfl⟩

/-- Settles O14: a CALL enters its routine (`callRoutine_enters`) or ends the step (`sequencer_fails`), a RET restores what it saved. -/
theorem callAndReturn : Obligations.call_and_return := by
  refine ⟨?_, ?_, ?_⟩
  · intro s c p r x h hframe q id d k off len recs hflag hdir hlen hmin hwin hbundles hpoison hflip
    have hstart := (othersSame_begun s c p x).start
    have hok : ¬ callRefused ((s.core c).holding [.seq (.call q id)]) q d := by
      rintro (hout | hzero | hshort)
      · exact absurd hwin (not_le.mpr hout)
      · exact hlen hzero
      · exact absurd hmin (not_le.mpr hshort)
    have hcall := callRoutine_enters hdir hok ((storePoisonIn_start hstart ..).trans hpoison) (by simp only [hstart]; exact hflip)
    obtain ⟨ai, ab, e, hnone⟩ := enter_eq h.inside d off len (descRecs ((s.begun c p x).storeBytes c d.descOff recs) 0) x.decls
    obtain ⟨t, ht, hothers, hcore, -⟩ := sequencer_changes (q := .call q id) h.ready (slotBad_call hframe hflag _ q id) rfl hcall
      (congrArg Core.counted e) (Or.inr hbundles) h.ready.calm.passes
    refine ⟨t, (exec_call ..).trans ht, hothers, ?_⟩
    rw [hcore]
    refine ⟨rfl, rfl, rfl, rfl, rfl, rfl, rfl, fun hzero => ?_, rfl, rfl, rfl, rfl, rfl, rfl⟩
    refine hnone ?_
    rw [hzero]
    exact descRecs_storeBytes_zero ..
  · intro s c p r x h hframe hphase q id hflag k off len
    refine ⟨fun hdir => ?_, fun d hdir hwin => ?_⟩
    · exact (exec_call ..) ▸ sequencer_fails h.ready hphase (slotBad_call hframe hflag _ q id) rfl (callRoutine_absent hdir ..)
    · have hrefused : callRefused ((s.core c).holding [.seq (.call q id)]) q d := by
        rcases hwin with hzero | hshort | hout
        · exact Or.inr (Or.inl hzero)
        · exact Or.inr (Or.inr hshort)
        · exact Or.inl hout
      exact (exec_call ..) ▸ sequencer_fails h.ready hphase (slotBad_call hframe hflag _ q id) rfl (callRoutine_refused hdir hrefused ..)
  · intro s c p r x f h hframe hcode k
    have hcalm := h.calm
    have hk0 : ((s.core c).holding [.seq .ret]).frame = some f := hframe
    have hact : (s.begun c p x).actSeq c ((s.core c).holding [.seq .ret]) (some .ret) p x =
        (s.begun c p x).modCore c (fun k => k.leave f) := by simp only [State.actSeq, hk0]
    obtain ⟨t, ht, hothers, hcore, -⟩ := sequencer_changes h rfl rfl hact rfl (Or.inr hcode) hcalm.passes
    refine ⟨t, (exec_ret ..).trans ht, hothers, ?_⟩
    rw [hcore]
    simp only [Core.counted, Core.leave, Core.begun, moved, hcalm.staged, hcalm.fetched, k]

end Sys2Proof.Machine

/-!
PROOFS. The end of a DMA command (R199): `dma_command_ends`.
-/
namespace Sys2Proof.Machine
open Sys2Proof.Safety

/-! ### An idle expander (R323) -/

/-- A command whose stored bytes the expander can expand (R323). -/
def DmaFlight.expands (f : DmaFlight) : Bool := f.exp && decide (f.phase = 3) && !f.out.isEmpty

/-- An expander stays idle while no stream comes to hold a command that it could expand and no output buffer comes free (R323). -/
theorem expanderIdle_of_heads {s t : State} {c : CoreId} (h : ExpanderIdle s c)
    (hhead : ∀ d u g, t.dmaHead d u = some g → g.expands = true → ∃ f, s.dmaHead d u = some f ∧ f.expands = true)
    (hbufs : ∀ (d : CoreId) (u : Fin 8), ((t.core d).dma[u.val]).expBufs = ((s.core d).dma[u.val]).expBufs) : ExpanderIdle t c := by
  intro j hj
  have hidle := h j hj
  unfold State.expReady at hidle ⊢
  dsimp only at hidle ⊢
  rw [hbufs]
  cases hg : t.dmaHead (expStream (clusterOf c) j).1 (expStream (clusterOf c) j).2 with
  | none => rfl
  | some g =>
    cases hx : g.expands with
    | false =>
      rw [DmaFlight.expands] at hx
      simp only [hx, Bool.false_and]
    | true =>
      obtain ⟨f, hf, hfx⟩ := hhead _ _ g hg hx
      rw [DmaFlight.expands] at hx hfx
      rw [hf] at hidle
      simp only [hfx, hx, Bool.true_and] at hidle ⊢
      exact hidle

/-! ### A head with nothing to do (R199) -/

/-- The head of a stream that has begun, has nothing to present and cannot go on to its next phase does nothing. -/
theorem driveDma_settled {s : State} {c : CoreId} {t : Fin 8} {f : DmaFlight} (he : ExpanderIdle s c) (hf : s.dmaHead c t = some f)
    (hphase : f.phase ≠ 0) (htodo : f.todo = []) (hwalk : f.walk = none) (hstays : f.phase = 3 ∨ s.collected c t f = false) :
    s.driveDma c t = s := by
  have hstart : s.startDma c t = s := by
    unfold State.startDma
    rw [hf]
    split
    · next f' p' hf' _ => cases hf'; exact if_pos hphase
    · rfl
  have hpump : s.pumpDma c t = s := by
    unfold State.pumpDma
    rw [hf]
    dsimp only
    rw [State.pumpN, hf]
    split
    · next f' _ _ _ hf' _ => cases hf'; rw [hwalk, htodo]
    · rfl
  have hturn : s.turnDma c t = s := by
    unfold State.turnDma
    rw [hf]
    split
    · next f' _ _ _ hf' _ =>
      cases hf'
      refine if_pos (Or.inr (hstays.imp id fun h => ?_))
      rw [h]
      rfl
    · rfl
  simp only [State.driveDma, expand_idle he, hstart, hpump, hturn]

theorem landNear_landed {s : State} {c : CoreId} {t : Fin 8} {f : DmaFlight} (hf : s.dmaHead c t = some f) (hland : f.land = []) :
    s.landNear c t = s := by
  rw [State.landNear, hf]
  simp only [hland, List.length_nil, State.landPieces]

/-! ### A stream without its head (R199) -/

/-- A core whose stream `t` has dropped its head command, and whose deep-scratch writes of that command have landed. -/
def Core.ended (k : Core) (t : Fin 8) : Core := { k with deepW := [], dma := upd k.dma t (fun d => { d with q := d.q.drop 1 }) }

theorem landDeepOf_none {s : State} {c : CoreId} (h : (s.core c).deepW = []) (seq : Nat) :
    s.landDeepOf c seq = s.modCore c (fun k => { k with deepW := [] }) := by
  unfold State.landDeepOf
  simp only [h, List.filter_nil, List.foldl_nil]
  exact modCore_congr (by simp only [h, List.filter_nil])

theorem expBufs_ended (s : State) (c : CoreId) (t : Fin 8) (d : CoreId) (u : Fin 8) :
    (((s.modCore c (fun k => k.ended t)).core d).dma[u.val]).expBufs = ((s.core d).dma[u.val]).expBufs := by
  rw [core_modCore_eq]
  split
  · next e =>
    subst e
    dsimp only [Core.ended]
    rw [getElem_upd]
    split
    · next e => rw [e]
    · rfl
  · rfl

theorem dmaHead_ended {s : State} {c : CoreId} {t : Fin 8} {f : DmaFlight} (hq : ((s.core c).dma[t.val]).q = [f]) (d : CoreId)
    (u : Fin 8) : (s.modCore c (fun k => k.ended t)).dmaHead d u = if d = c ∧ u = t then none else s.dmaHead d u := by
  unfold State.dmaHead
  rw [core_modCore_eq]
  by_cases hdc : d = c
  · subst hdc
    simp only [if_true, Core.ended, getElem_upd, true_and]
    by_cases hut : u = t
    · simp only [hut, if_true, hq, List.drop_one, List.tail_cons, List.head?_nil]
    · simp only [hut, if_false]
  · simp only [hdc, if_false, false_and]

/-- A command that has delivered everything is the last thing its stream held (R199). -/
theorem endDma_delivered {s : State} {c : CoreId} {t : Fin 8} {f : DmaFlight} (he : ExpanderIdle s c)
    (hq : ((s.core c).dma[t.val]).q = [f]) (hphase : f.phase = 3) (htodo : f.todo = []) (hopen : f.openTx = 0) (hwalk : f.walk = none)
    (hland : f.land = []) (hout : f.exp = true → f.out = []) (hdeep : (s.core c).deepW = [])
    (hreads : s.link.reads.any (fun r => decide (r.core = c ∧ r.stream = t ∧ r.seq = f.seq)) = false)
    (hlink : s.linkHolds c t f.seq = false) : s.endDma c t = s.modCore c (fun k => k.ended t) := by
  have hf : s.dmaHead c t = some f := by rw [State.dmaHead, hq]; rfl
  have hdrive : s.driveDma c t = s := driveDma_settled he hf (by rw [hphase]; decide) htodo hwalk (Or.inl hphase)
  have hcollected : s.collected c t f = true := by
    rw [State.collected, htodo, hopen, hwalk, hreads]
    rfl
  have hdone : ¬ (f.phase ≠ 3 ∨ (!s.collected c t f) = true ∨ f.land ≠ [] ∨ (f.exp = true ∧ f.out ≠ []) ∨ s.linkHolds c t f.seq = true) := by
    rw [hphase, hcollected, hland, hlink]
    simpa using hout
  have hidle : ExpanderIdle (s.modCore c (fun k => k.ended t)) c := by
    refine expanderIdle_of_heads he (fun d u g hg hx => ⟨g, ?_, hx⟩) (expBufs_ended s c t)
    rw [dmaHead_ended hq] at hg
    split at hg
    · exact nomatch hg
    · exact hg
  have hempty : (s.modCore c (fun k => k.ended t)).dmaHead c t = none := by rw [dmaHead_ended hq]; exact if_pos ⟨rfl, rfl⟩
  unfold State.endDma
  rw [hdrive, landNear_landed hf hland]
  dsimp only
  rw [hf]
  dsimp only
  rw [if_neg hdone, landDeepOf_none hdeep, modCore_modCore]
  exact driveDma_none hidle hempty

/-- Settles O28: nothing of the delivered command is left to do, so it leaves its stream, and the empty stream starts nothing. -/
theorem dmaCommandEnds : Obligations.dma_command_ends := by
  unfold Obligations.dma_command_ends
  intro s c st f hq hphase htodo hopen hwalk hland hout hdeep he hreads hlink
  have hcore : (s.modCore c (fun k => k.ended st)).core c = (s.core c).ended st := core_modCore s c _
  refine ⟨s.modCore c (fun k => k.ended st), ?_, ?_, othersSame_modCore (othersSame_refl s c) _, ?_, ?_, ?_, rfl⟩
  · rw [exec_dmaCommandEnd, execDmaCommandEnd, endDma_delivered he hq hphase htodo hopen hwalk hland hout hdeep hreads hlink]
  · rw [hcore, Core.ended, getElem_upd, if_pos rfl, hq]
    rfl
  all_goals rw [hcore]; rfl

end Sys2Proof.Machine

/-!
PROOFS. A copy into deep scratch while a peer's answer is open (R199, R340): a state in which `dma_commands_enter` fails. Nothing in
`Safety.Straight` speaks of the reads that the Stack Link holds open, and a command waits for every open read of its core, stream and
operation number.
-/
namespace Sys2Proof.Machine
open Sys2Proof.Safety

/-- Core 0 at the first of two bundles, with a near window of 4 KB, a descriptor of copies out of near scratch, a deep address and the
length of a row. -/
def copyingCore : Core :=
  { Core.reset with
    phase := .running, codeLen := 2, win := ⟨0, 4⟩, bank0 := [(0x20, 4)], s := (Core.reset.s.set 1 0xFC00).set 2 1024 }

/-- The run of `hostStep` on core 0. -/
def copyingRun : RunSt := { leadCommitting with aseq := 1, phase := .running, firstIssue := false }

/-- An engine whose partition 0 runs `copyingCore` with a deep window of 64 KB, while a read of engine 1 is open under the core, the
stream and the operation number of the copy that comes next. -/
def copyingBehindRead : State :=
  { State.reset with
    cores := State.reset.cores.set 0 copyingCore
    parts := State.reset.parts.set 0
      { Partition.reset with coreMask := 1, run := some copyingRun, dw := Partition.reset.dw.set 0 0x100000005 }
    steps := [hostStep]
    link := { State.reset.link with
      reads := [{ tag := 0, engine := 1, core := 0, stream := 0, seq := 0, off := 0, len := 32, lead := 0, live := false }] } }

/-- The phase of the head of stream 0 of core 0 after the copy has issued. -/
def phaseCopied : Option Nat :=
  match exec (.dmov 0 true 0 0 0 1 2) copyingBehindRead with
  | .next t => ((t.core 0).dma[0]).q.head?.map (·.phase)
  | _ => none

theorem core_copying (c : CoreId) : copyingBehindRead.core c = if c = 0 then copyingCore else Core.reset := by
  have hreset : State.reset.cores[c.val] = Core.reset := by simp [State.reset, State.resetOf]
  unfold copyingBehindRead State.core
  simp only [Vector.getElem_set, hreset, eq_comm (a := (0 : Nat)), Fin.ext_iff, Fin.val_zero]

theorem streams_copying (c : CoreId) (t : Fin 8) : ((copyingBehindRead.core c).dma[t.val]).q = [] := by
  rw [core_copying]
  split <;> simp [copyingCore, Core.reset, DmaStream.reset]

theorem straight_copying : Straight copyingBehindRead 0 0 copyingRun hostStep := by
  have hcalm : Calm (copyingBehindRead.core 0) :=
    ⟨rfl, rfl, rfl, rfl, rfl, rfl, rfl, rfl, rfl, rfl, rfl, streams_copying 0⟩
  have hmembers : copyingBehindRead.members 0 = [0] := by decide +kernel
  have hfetched : Safety.Fetched copyingBehindRead 0 := by
    refine ⟨fun _ d hd => ?_, fun hframe => nomatch hframe⟩
    rw [hmembers, List.mem_singleton] at hd
    subst hd
    exact ⟨rfl, fun i _ => rfl⟩
  exact ⟨⟨by decide +kernel, by decide +kernel, hcalm, hfetched⟩, (fun _ _ h => nomatch h), by decide +kernel⟩

theorem noMarks_copying : NoMarks copyingBehindRead 0 := by
  intro d _
  rw [core_copying]
  split <;> exact ⟨rfl, rfl, rfl, rfl⟩

theorem expanderIdle_copying : ExpanderIdle copyingBehindRead 0 := by
  intro j _
  rw [State.expReady, State.dmaHead, streams_copying]
  rfl

/-- The row has been read, but the command waits for the open read: nothing is delivered (R199). -/
theorem phaseCopied_eq : phaseCopied = some 1 := by decide +kernel

/-- Refutes O22: while a read of its core, stream and operation number is open on the Stack Link, a copy into deep scratch stays in
phase 1 and writes nothing. The statement is about every state and, unlike the one about DMA_COMMAND_END, has no premise on open
reads. -/
theorem not_dmaCommandsEnter : ¬ Obligations.dma_commands_enter := by
  unfold Obligations.dma_commands_enter
  intro h
  obtain ⟨-, hcopy, -⟩ := h copyingBehindRead 0 0 copyingRun hostStep straight_copying expanderIdle_copying 0 0 0 1 2
  obtain ⟨t, f, hexec, -, hq, -, hphase, -⟩ := hcopy [(0, 1024)] 0xFC00 (by decide +kernel) (by decide +kernel) (by decide +kernel)
    (by decide +kernel) (by decide +kernel) (by decide +kernel) (by decide +kernel) (by decide +kernel) (by decide +kernel) noMarks_copying
  have hhead : phaseCopied = some f.phase := by
    rw [phaseCopied, hexec]
    exact congrArg (fun q => q.head?.map DmaFlight.phase) hq
  rw [phaseCopied_eq, hphase] at hhead
  exact absurd hhead (by decide)

end Sys2Proof.Machine

/-!
PROOFS. ROWS and PASS, one bundle: the pass enters its queue and streams as far as its tags let it (R88, R168, R208, R213):
`rows_and_pass`.
-/
namespace Sys2Proof.Machine
open Sys2Proof.Safety

/-! ### A pass that streams as far as it can (R88, R92, R168) -/

/-- A pass that has gone on: what it has read, what it still keeps open, whether it has streamed and with which results. -/
def PassFlight.progressed (f : PassFlight) (feed : Option Feed) (reads : List Span) (started : Bool)
    (sums : List (List (List Word × Flags))) : PassFlight :=
  { f with feed := feed, reads := reads, started := started, sums := sums }

/-- The tagged read of a pass goes on: only the pass and the tags change (R168). -/
theorem goFeed_progresses {s : State} {c : CoreId} {g : PassFlight} {fd : Feed} (hq : (s.core c).passQ = [g]) (hfd : g.feed = some fd)
    (hmarks : NoMarks s c) (sc : List Span) :
    ∃ tags fd1 xs, s.goFeed c g.tag fd (fun fd k => k.modPass g.seq (fun g => { g with feed := some fd, reads := fd.todo ++ sc })) =
      s.modCore c (Core.streaming tags (g.progressed (some fd1) xs g.started g.sums)) := by
  unfold State.goFeed
  split
  · refine ⟨(s.core c).fullTag, fd, g.reads, (modCore_id s c).symm.trans (modCore_congr ?_)⟩
    have hsame : g.progressed (some fd) g.reads g.started g.sums = g := by rw [← hfd]; rfl
    rw [Core.streaming, hsame, ← hq]
    rfl
  · obtain ⟨tags, htags⟩ := takeTags_eq (s.core c) g.tag (feedSplit (s.core c).slotFull fd.ent fd.todo).1
    refine ⟨tags, (s.core c).fed fd, ((s.core c).fed fd).todo ++ sc,
      (withNear_unmarked (unmarked_of_noMarks hmarks _) _).trans (modCore_congr ?_)⟩
    simp only [htags, Core.modPass, Core.streaming, PassFlight.progressed, hq, List.map_cons, List.map_nil, if_true]

/-- A pass that has begun reads on and may have streamed then: only the pass and the tags change (R88, R168). -/
theorem streamPass_progresses {s : State} {c : CoreId} {g : PassFlight} {fd : Feed} (hq : (s.core c).passQ = [g])
    (hfd : g.feed = some fd) (hmarks : NoMarks s c) :
    ∃ tags feed xs started sums, s.streamPass c g.seq = s.modCore c (Core.streaming tags (g.progressed feed xs started sums)) := by
  obtain ⟨tags, fd1, xs, hgo⟩ := goFeed_progresses hq hfd hmarks ((passScaleSpans g).map (fun x => (g.win.phys x.1, x.2)))
  generalize hh : g.progressed (some fd1) xs g.started g.sums = h at hgo
  have hseq : h.seq = g.seq := by rw [← hh]; rfl
  have hfd1 : h.feed = some fd1 := by rw [← hh]; rfl
  have hfind : [g].find? (fun f => decide (f.seq = g.seq)) = some g := by simp
  have hfind1 : [h].find? (fun f => decide (f.seq = g.seq)) = some h := by simp [hseq]
  have hstreaming : ((s.core c).streaming tags h).passQ = [h] := rfl
  have hclean : NoMarks (s.modCore c (Core.streaming tags h)) c := noMarks_modCore hmarks id ⟨rfl, rfl⟩
  unfold State.streamPass
  simp only [hq, hfind, hfd, hgo, core_modCore, hstreaming, hfind1, hfd1]
  split
  · exact ⟨tags, some fd1, xs, g.started, g.sums, by rw [hh]⟩
  · rw [withNear_unmarked (unmarked_of_noMarks hclean _), modCore_modCore]
    refine ⟨tags, some fd1, [], true, passSums (((s.core c).streaming tags h).withCap fd1) h, modCore_congr ?_⟩
    have hstep := modPass_streaming tags h
      (fun f => { f with started := true, reads := [], sums := passSums (((s.core c).streaming tags h).withCap fd1) h }) (s.core c)
    rw [hseq] at hstep
    rw [hstep, ← hh]
    rfl

/-- The next pass of a unit in which nothing waits begins and streams as far as its tags let it (R88, R92, R169). -/
theorem settleAga_progresses {s : State} {c : CoreId} {f : PassFlight} {rows : List (List Span)} (hq : (s.core c).passQ = [f])
    (hstarted : f.started = false) (hfeed : f.feed = none) (htaps : (s.core c).tapQ = []) (hloads : (s.core c).agbQ = [])
    (hphase : (s.core c).phase ≠ .idle) (h : Streams s c f rows) :
    ∃ w tags feed xs started sums, s.settleAga c = s.modCore c (Core.swapStreaming w tags (f.progressed feed xs started sums)) := by
  obtain ⟨w, reads, hbegin⟩ := beginPass_streams hq h
  obtain ⟨-, -, -, hmarks⟩ := h
  have hmay : (s.core c).passMayStart f = true := by simp [Core.passMayStart, Core.agaBlocked, hq, htaps, hloads]
  have hclean : NoMarks (s.beginPass c f) c := hbegin ▸ noMarks_modCore hmarks id ⟨rfl, rfl⟩
  obtain ⟨tags, feed, xs, started, sums, hstream⟩ := streamPass_progresses (s := s.beginPass c f) (c := c)
    (g := f.progressed (some (Feed.start f.tag (rows.flatten.map (fun y => (f.win.phys y.1, y.2))))) reads f.started f.sums)
    (by rw [hbegin, core_modCore]; rfl) rfl hclean
  refine ⟨w, tags, feed, xs, started, sums, ?_⟩
  have hfind : [f].find? (fun f => !f.started) = some f := by simp [hstarted]
  have hgo : (s.core c).phase ≠ .idle ∧ (f.feed.isSome ∨ (s.core c).passMayStart f) := ⟨hphase, Or.inr hmay⟩
  have hstart : s.startPass c f = s.modCore c (Core.swapStreaming w tags (f.progressed feed xs started sums)) := by
    unfold State.startPass
    rw [hfeed]
    dsimp only
    refine Eq.trans hstream ?_
    rw [hbegin, modCore_modCore]
    rfl
  unfold State.settleAga
  rw [hq, List.length_singleton, State.startPasses]
  simp only [hq, hfind]
  rw [if_pos hgo, hstart]
  exact ite_self _

/-- What a pass may stream depends on the weight registers of its core alone, where no word is marked (R94, R164, R208). -/
theorem streams_of_weights {s t : State} {c : CoreId} {f : PassFlight} {rows : List (List Span)} (h : Streams s c f rows)
    (hweights : (t.core c).weights = (s.core c).weights) (hmarks : NoMarks t c) : Streams t c f rows := by
  obtain ⟨hparity, hrows, hin, -⟩ := h
  have hentries : passEntries (if f.swap then (t.core c).swapArrays f.arrays else t.core c) f =
      passEntries (if f.swap then (s.core c).swapArrays f.arrays else s.core c) f := by
    split <;> simp only [passEntries, Core.active, Core.swapArrays, hweights]
  refine ⟨?_, ?_, hin, hmarks⟩
  · unfold parityError at hparity ⊢
    rw [hweights]
    exact hparity
  · rw [hentries]
    exact hrows

/-! ### The bundle of ROWS and PASS (R208, R213) -/

/-- The queue of passes of a core with one more pass. -/
def Core.queuePass (f : PassFlight) (k : Core) : Core := { k with passQ := k.passQ ++ [f] }

/-- In the bundle of ROWS and PASS the pass acts for both (R208). -/
theorem actSlots_pass {s : State} {c : CoreId} (k0 : Core) (ad mt : Fin 8) (aB : AReg) (sQ sY sB sM sAcc : SReg) (am : BitVec 4)
    (init swap last : Bool) (h : s.issuing c = true) :
    s.actSlots c k0 [.aga (.rows ad aB sQ sY sB), .mxa (.pass mt am sM sAcc init swap last)] =
      s.issuePass c k0 mt am sM sAcc init swap last ad aB sQ sY sB := by
  simp [State.actSlots, List.range_succ, SlotOp.slot, State.actSlot, h]

/-- A PASS whose records and chained read-out lie in the window enters its queue (R164, R213). -/
theorem issuePass_legal {s : State} {c : CoreId} {k0 : Core} {mt : Fin 8} {am : BitVec 4} {sM : SReg} {last : Bool}
    (hrecs : (k0.win.spans (passRecs k0 (k0.mt mt) (s.maskArrays c am) last)).isSome = true)
    (hclean : Unmarked s c ((passRecs k0 (k0.mt mt) (s.maskArrays c am) last).map (fun y => (k0.win.phys y.1, y.2))))
    (hplan : (k0.win.spans (passPlanSpans k0 (k0.mt mt) (s.maskArrays c am) last (k0.s32 sM))).isSome = true)
    (sAcc : SReg) (init swap : Bool) (ad : Fin 8) (aB : AReg) (sQ sY sB : SReg) :
    s.issuePass c k0 mt am sM sAcc init swap last ad aB sQ sY sB = s.modCore c (Core.queuePass
      (passOf k0 (k0.mt mt) (k0.ad ad) (s.maskArrays c am) sM sAcc init swap last aB sQ sY sB)) := by
  rw [State.issuePass, checked_legal (spans_append_isSome hrecs hplan), withNear_unmarked hclean]
  rfl

/-- What the verifier asks of ROWS beside a PASS (R146, R208, Table 9-7). -/
theorem slotBad_rows_iff {k : Core} {flags arrays : Nat} {ad mt : Fin 8} {aB : AReg} {sQ sY sB sM sAcc : SReg} {am : BitVec 4}
    {init swap last : Bool} :
    slotBad k flags arrays [.aga (.rows ad aB sQ sY sB), .mxa (.pass mt am sM sAcc init swap last)] (.aga (.rows ad aB sQ sY sB)) = false ↔
      (adMode (k.ad ad) ≠ 1 → sQ.val = 0 ∧ sY.val = 0 ∧ sB.val = 0) ∧
      (adMode (k.ad ad) = 1 → mtMode (k.mt mt) = 0 ∧ bitAt (k.mt mt) 22 = false) := by
  change ((decide (adMode (k.ad ad) ≠ 1) && !decide (sQ.val = 0 ∧ sY.val = 0 ∧ sB.val = 0)) ||
    (decide (adMode (k.ad ad) = 1) && ((decide (mtMode (k.mt mt) ≠ 0) || bitAt (k.mt mt) 22) || false))) = false ↔ _
  simp

/-- What the verifier asks of PASS beside a ROWS (R209, Table 9-7). -/
theorem slotBad_pass_iff {k : Core} {flags arrays : Nat} {ad mt : Fin 8} {aB : AReg} {sQ sY sB sM sAcc : SReg} {am : BitVec 4}
    {init swap last : Bool} :
    slotBad k flags arrays [.aga (.rows ad aB sQ sY sB), .mxa (.pass mt am sM sAcc init swap last)]
      (.mxa (.pass mt am sM sAcc init swap last)) = false ↔
      maskOk arrays am = true ∧ (last = true → mtRead (k.mt mt) = 4 → maskCount am = 1) := by
  change (!maskOk arrays am || (last && decide (mtRead (k.mt mt) = 4) && decide (maskCount am ≠ 1))) = false ↔ _
  simp

/-- The bundle of a ROWS and a PASS writes no register: the verifier asks of it what it asks of its slots (R184). -/
theorem bundleBad_pass_iff {k : Core} {flags arrays : Nat} {ad mt : Fin 8} {aB : AReg} {sQ sY sB sM sAcc : SReg} {am : BitVec 4}
    {init swap last : Bool} :
    bundleBad k flags arrays [.aga (.rows ad aB sQ sY sB), .mxa (.pass mt am sM sAcc init swap last)] = false ↔
      (adMode (k.ad ad) ≠ 1 → sQ.val = 0 ∧ sY.val = 0 ∧ sB.val = 0) ∧
      (adMode (k.ad ad) = 1 → mtMode (k.mt mt) = 0 ∧ bitAt (k.mt mt) 22 = false) ∧
      maskOk arrays am = true ∧ (last = true → mtRead (k.mt mt) = 4 → maskCount am = 1) := by
  rw [← and_assoc, ← slotBad_rows_iff, ← slotBad_pass_iff, ← Bool.or_eq_false_iff, ← Bool.or_false (slotBad _ _ _ _ (.mxa _))]
  rfl

/-- Nothing holds the bundle of a ROWS and a PASS in a core with nothing in flight (R189). -/
theorem bundleHeld_pass {k : Core} (h : Calm k) (events : List Word) (ad mt : Fin 8) (aB : AReg) (sQ sY sB sM sAcc : SReg)
    (am : BitVec 4) (init swap last : Bool) :
    bundleHeld (k.holding [.aga (.rows ad aB sQ sY sB), .mxa (.pass mt am sM sAcc init swap last)]) events
      [.aga (.rows ad aB sQ sY sB), .mxa (.pass mt am sM sAcc init swap last)] = false := by
  refine bundleHeld_calm_slots h _ fun o ho => ?_
  rcases List.mem_pair.mp ho with rfl | rfl
  · rfl
  · have hnone : (k.holding [.aga (.rows ad aB sQ sY sB), .mxa (.pass mt am sM sAcc init swap last)]).passQ = [] := h.passes
    change decide (2 ≤ ((k.holding _).passQ.filter _).length) = false
    rw [hnone]
    rfl

/-! ### A bundle of two slots whose pass then streams (R184 to R206, R208) -/

/-- A core before a bundle that puts a pass in flight, as it stands after it: the pass alone is in its queue and has not begun. -/
def Core.passing (f : PassFlight) (k : Core) : Core := { k.begun.passed with passQ := [f] }

/-- The pass of such a core streams beside it: the pc has moved on, registers, near scratch and accumulators stay. -/
theorem swapStreaming_passing (k : Core) (f : PassFlight) (w : Vector ArrayW 4) (tags : Tab Bool) (g : PassFlight) :
    let t := (k.passing f).swapStreaming w tags g
    t.passQ = [g] ∧ t.pc = k.pc + 1 ∧ t.s = k.s ∧ t.a = k.a ∧ t.v = k.v ∧ t.near = k.near ∧ t.acc = k.acc :=
  ⟨rfl, rfl, rfl, rfl, rfl, rfl, rfl⟩

/-- A bundle without a sequencer slot whose slots put one pass in flight issues at once; the pass then goes on as it can. -/
theorem tryIssue_passing {s : State} {c : CoreId} {p : PartId} {r : RunSt} {x : StepRec} {ops : List SlotOp} {f : PassFlight}
    (h : Straight s c p r x) (hslots : ∀ o ∈ ops, o.slot ≠ 0)
    (hheld : bundleHeld ((s.core c).holding ops) (s.part p).events.toList ops = false)
    (hop : ops.all (operandsOk ((s.core c).holding ops)) = true)
    (hact : (s.begun c p x).actSlots c ((s.core c).holding ops) ops = (s.begun c p x).modCore c (Core.queuePass f)) :
    (s.modCore c (·.holding ops)).tryIssue c =
      ((s.begun c p x).modCore c (fun _ => (s.core c).passing f)).settleAga c := by
  have hready := h.ready
  have hk : (s.modCore c (·.holding ops)).core c = (s.core c).holding ops := core_modCore _ _ _
  have harrived : ((s.core c).holding ops).fetched = [ops] := rfl
  have hi : (s.modCore c (·.holding ops)).issuing c = true := (issuing_modCore rfl).trans hready.issuing
  have hfetch := fun f => hk ▸ withFetch_clean (fetched_holding hready.fetched ops) f
  have hbegun : ((s.modCore c (·.holding ops)).modCore c
      (fun k => { k with fetched := [], watchdog := 0, issued := k.issued + 1 })).firstBundle p x = s.begun c p x :=
    congrArg (State.firstBundle · p x) (modCore_modCore _ _ _ _)
  have hgoes : ((s.begun c p x).modCore c (Core.queuePass f)).issuing c = true := by
    rw [issuing_modCore rfl, issuing_begun, hready.issuing]
  have hpassing : ((s.core c).begun.queuePass f).advance.counted = (s.core c).passing f := by
    rw [advance_straight (k := (s.core c).begun.queuePass f) h.inside]
    have hnone : (s.core c).begun.passQ = [] := hready.calm.passes
    simp only [Core.queuePass, Core.counted, Core.passing, Core.passed, hnone, List.nil_append]
  have hend : (((((s.begun c p x).modCore c (Core.queuePass f)).modCore c Core.advance).modCore c Core.counted).pastEnd c).settleAga c =
      ((s.begun c p x).modCore c (fun _ => (s.core c).passing f)).settleAga c := by
    have hcore : (((s.begun c p x).modCore c (Core.queuePass f)).modCore c Core.advance).modCore c Core.counted =
        (s.begun c p x).modCore c (fun _ => (s.core c).passing f) := by
      rw [modCore_modCore, modCore_modCore]
      exact modCore_congr (by rw [core_begun, hpassing])
    rw [hcore, pastEnd_inside (by rw [core_modCore]; exact h.more)]
  unfold State.tryIssue
  simp only [hk, stepOf_modCore, hready.step, hi, part_modCore, hfetch, harrived, hheld, hop, hbegun, hact, hgoes, Bool.not_true,
    Bool.or_self, Bool.false_eq_true, if_false]
  rw [List.findSome?_eq_none_iff.mpr (fun o ho => ?noseq)]
  · exact hend
  case noseq =>
    cases o with
    | seq q => exact absurd rfl (hslots _ ho)
    | _ => rfl

/-- A second slot that closes its bundle: refused where the verifier rejects the bundle, tried at once where it accepts it (R184). -/
theorem issueSlot_second {s : State} {c : CoreId} {p : PartId} {r : RunSt} {x : StepRec} {o1 o2 : SlotOp} (h : Ready s c p r x)
    (htwo : o1.slot ≠ o2.slot) :
    (s.modCore c (Core.staging o1)).issueSlot c true o2 =
      if bundleBad ((s.core c).staging o1) (imageLimits x).1 (imageLimits x).2 [o1, o2] then .refused .unverifiedBundle
      else .next ((s.modCore c (·.holding [o1, o2])).tryIssue c) := by
  have hissuing : (s.modCore c (Core.staging o1)).issuing c = true := (issuing_modCore rfl).trans h.issuing
  have hdupes : dupes ([o1, o2].map SlotOp.slot) = false := by simp [dupes, htwo]
  have hstaged : ((s.core c).staging o1).staged = [o1] := rfl
  have hfetched : ((s.core c).staging o1).fetched = [] := h.calm.fetched
  have hclosed : (s.modCore c (Core.staging o1)).modCore c (fun k => { k with staged := [], fetched := [[o1, o2]] }) =
      s.modCore c (·.holding [o1, o2]) := modCore_modCore _ _ _ _
  rw [← hclosed]
  unfold State.issueSlot
  simp only [hissuing, stepOf_modCore, h.step, core_modCore, hstaged, hfetched, List.cons_append, List.nil_append, hdupes,
    Bool.not_true, Bool.false_eq_true, if_false, if_true]

/-- No word of a pair is marked after the first steps of a bundle either. -/
theorem noMarks_begun {s : State} {c : CoreId} (h : NoMarks s c) (p : PartId) (x : StepRec) : NoMarks (s.begun c p x) c := by
  intro d hd
  rw [members_begun] at hd
  by_cases hdc : d = c
  · subst hdc
    rw [core_begun]
    exact h d hd
  · rw [(othersSame_begun s c p x).cores d hdc]
    exact h d hd

/-- A pass that ROWS and PASS put in flight (R208, R213). -/
theorem pass_enters {s : State} {c : CoreId} {p : PartId} {r : RunSt} {x : StepRec} (h : Straight s c p r x) {ad mt : Fin 8} {aB : AReg}
    {sQ sY sB sM sAcc : SReg} {am : BitVec 4} {init swap last : Bool} {f : PassFlight} {rows : List (List Span)}
    (hf : passOf (s.core c) ((s.core c).mt mt) ((s.core c).ad ad) (s.maskArrays c am) sM sAcc init swap last aB sQ sY sB = f)
    (hlow : 1 ≤ (s.core c).s32 sM) (hhigh : (s.core c).s32 sM ≤ 512) (hacc : (s.core c).s32 sAcc + (s.core c).s32 sM ≤ 512)
    (hrecs : SpansOk s c (passRecs (s.core c) ((s.core c).mt mt) (s.maskArrays c am) last))
    (hplan : ((s.core c).win.spans (passPlanSpans (s.core c) ((s.core c).mt mt) (s.maskArrays c am) last ((s.core c).s32 sM))).isSome = true)
    (hstreams : Streams s c f rows) :
    ∃ t, (s.modCore c (·.holding [.aga (.rows ad aB sQ sY sB), .mxa (.pass mt am sM sAcc init swap last)])).tryIssue c = t ∧
      OthersSame s t c ∧ ∃ w tags feed xs started sums,
        t.core c = ((s.core c).passing f).swapStreaming w tags (f.progressed feed xs started sums) := by
  have hcalm := h.ready.calm
  obtain ⟨hin, hclean⟩ := hrecs
  obtain ⟨-, -, -, hmarks⟩ := id hstreams
  have hop : [SlotOp.aga (.rows ad aB sQ sY sB), .mxa (.pass mt am sM sAcc init swap last)].all
      (operandsOk ((s.core c).holding [.aga (.rows ad aB sQ sY sB), .mxa (.pass mt am sM sAcc init swap last)])) = true := by
    refine List.all_eq_true.mpr fun o ho => ?_
    rcases List.mem_pair.mp ho with rfl | rfl
    · rfl
    · exact decide_eq_true ⟨hlow, hhigh, hacc⟩
  have hact : (s.begun c p x).actSlots c ((s.core c).holding [.aga (.rows ad aB sQ sY sB), .mxa (.pass mt am sM sAcc init swap last)])
      [.aga (.rows ad aB sQ sY sB), .mxa (.pass mt am sM sAcc init swap last)] = (s.begun c p x).modCore c (Core.queuePass f) := by
    have hissuing := (issuing_begun s c p x).trans h.ready.issuing
    have hinside := spans_isSome_iff.mpr hin
    have hunmarked := unmarked_begun hclean p x
    rw [← hf]
    rw [← maskArrays_begun s c c p x] at hinside hunmarked hplan ⊢
    exact (actSlots_pass _ ad mt aB sQ sY sB sM sAcc am init swap last hissuing).trans
      (issuePass_legal hinside hunmarked hplan sAcc init swap ad aB sQ sY sB)
  have hissues := tryIssue_passing h (by simp [SlotOp.slot]) (bundleHeld_pass hcalm _ ad mt aB sQ sY sB sM sAcc am init swap last) hop hact
  have hpassing : ((s.begun c p x).modCore c (fun _ => (s.core c).passing f)).core c = (s.core c).passing f := core_modCore _ _ _
  have hgo : Streams ((s.begun c p x).modCore c (fun _ => (s.core c).passing f)) c f rows :=
    streams_of_weights hstreams (by rw [hpassing]; rfl)
      (noMarks_modCore (noMarks_begun hmarks p x) (fun hclear => by rw [core_begun] at hclear; exact hclear) (by rw [core_begun]; exact ⟨rfl, rfl⟩))
  have hphase : (s.core c).phase ≠ .idle := by
    intro hidle
    have hissuing := h.ready.issuing
    rw [State.issuing, hidle] at hissuing
    exact absurd hissuing (by simp)
  obtain ⟨w, tags, feed, xs, started, sums, hsettle⟩ := settleAga_progresses (by rw [hpassing]; rfl) (by rw [← hf]; rfl)
    (by rw [← hf]; rfl) (by rw [hpassing]; exact hcalm.taps) (by rw [hpassing]; exact hcalm.loads) (by rw [hpassing]; exact hphase) hgo
  refine ⟨_, hissues.trans hsettle, othersSame_modCore (othersSame_modCore (othersSame_begun s c p x) _) _, w, tags, feed, xs, started,
    sums, ?_⟩
  rw [core_modCore, hpassing]

/-- Settles O18: the verifier decides the bundle (`bundleBad_pass_iff`); an accepted one puts its pass in flight (`pass_enters`). -/
theorem rowsAndPass : Obligations.rows_and_pass := by
  unfold Obligations.rows_and_pass
  intro s c p r x h ad mt aB sQ sY sB sM sAcc am init swap last k d arrays f
  have hfirst := (exec_rows c false ad aB sQ sY sB s).trans (issueSlot_first h.ready (.aga (.rows ad aB sQ sY sB)))
  have hsecond := issueSlot_second (o1 := .aga (.rows ad aB sQ sY sB)) (o2 := .mxa (.pass mt am sM sAcc init swap last)) h.ready
    (by simp [SlotOp.slot])
  refine ⟨?_, fun hmode hwrong => ⟨_, hfirst, ?_⟩⟩
  · rintro hmask hread hzero hwindow hlow hhigh hacc hrecs hplan ⟨rows, hstreams⟩
    have haccepted : bundleBad (k.staging (.aga (.rows ad aB sQ sY sB))) (imageLimits x).1 (imageLimits x).2
        [.aga (.rows ad aB sQ sY sB), .mxa (.pass mt am sM sAcc init swap last)] = false :=
      bundleBad_pass_iff.mpr ⟨hzero, hwindow, hmask, hread⟩
    obtain ⟨t, ht, hothers, w, tags, feed, xs, started, sums, hcore⟩ :=
      pass_enters (f := f) h rfl hlow hhigh hacc hrecs hplan hstreams
    refine ⟨_, t, hfirst, core_modCore _ _ _, ?_, hothers, f.progressed feed xs started sums, ?_⟩
    · rw [exec_pass, execPass, hsecond, haccepted, ht]
      rfl
    · obtain ⟨hqueue, hkept⟩ := swapStreaming_passing (s.core c) f w tags (f.progressed feed xs started sums)
      rw [hcore]
      exact ⟨hqueue, rfl, rfl, rfl, rfl, rfl, rfl, rfl, hkept⟩
  · have hrejected : bundleBad (k.staging (.aga (.rows ad aB sQ sY sB))) (imageLimits x).1 (imageLimits x).2
        [.aga (.rows ad aB sQ sY sB), .mxa (.pass mt am sM sAcc init swap last)] = true := by
      refine eq_true_of_ne_false fun haccepted => ?_
      obtain ⟨-, hwindow, -, -⟩ := bundleBad_pass_iff.mp haccepted
      obtain ⟨hmac, hplain⟩ := hwindow hmode
      exact hwrong.elim (fun hne => hne hmac) (fun hset => absurd hset (ne_true_of_eq_false hplain))
    rw [exec_pass, execPass, hsecond, hrejected]
    rfl

end Sys2Proof.Machine

/-!
PROOFS. LOAD and its end: what a read of host memory that fails leaves of the partitions' images, the copy of a resident image into its
area, and the partition that an image becomes active in, waits in or is rejected from (R222, R223, R225, R299, Tables 11-1 and 12-6).
-/
namespace Sys2Proof.Machine
open Sys2Proof.Safety

/-! ### Partitions that keep their active images -/

/-- Every partition has the active image that it had. -/
def ActiveKept (s t : State) : Prop := ∀ k : PartId, (t.part k).active = (s.part k).active

theorem ActiveKept.refl (s : State) : ActiveKept s s := fun _ => rfl

theorem ActiveKept.trans {s t u : State} (h : ActiveKept s t) (g : ActiveKept t u) : ActiveKept s u := fun k => (g k).trans (h k)

theorem ActiveKept.of_parts {s t : State} (h : t.parts = s.parts) : ActiveKept s t := fun k => by
  unfold State.part
  rw [h]

theorem ActiveKept.foldl {α : Type} {f : State → α → State} (hf : ∀ s a, ActiveKept s (f s a)) (xs : List α) (s : State) :
    ActiveKept s (xs.foldl f s) := by
  induction xs generalizing s with
  | nil => exact .refl s
  | cons a xs ih => exact (hf s a).trans (ih (f s a))

theorem activeKept_modPart (s : State) (p : PartId) {f : Partition → Partition} (hf : ∀ x, (f x).active = x.active) :
    ActiveKept s (s.modPart p f) := by
  intro k
  by_cases hk : k = p
  · rw [hk, part_modPart, hf]
  · rw [part_modPart_ne _ _ _ _ hk]

theorem EccLogged.activeKept {s t : State} (h : EccLogged s t) : ActiveKept s t := by
  obtain ⟨d, sc, l, hl, n, i, rfl⟩ := h
  exact .refl s

theorem Aftermath.activeKept {s t : State} (h : Aftermath s t) : ActiveKept s t := by
  obtain ⟨l, f, c, rt, w, x, rfl⟩ := h
  exact .refl s

theorem activeKept_of_hosting {s t : State} (h : t = s.hosting t) : ActiveKept s t := .of_parts (by rw [h]; rfl)

/-! ### Runs that a lost port ends (R247, R249, R298) -/

theorem activeKept_stopRun (s : State) (p : PartId) (why : StopWhy) : ActiveKept s (s.stopRun p why) := by
  unfold State.stopRun
  split
  · exact .refl s
  · split
    · exact .refl s
    · rename_i r _ _ _
      obtain ⟨ks, u, e, hlogged, -, -⟩ := abandonCores_spec r.cores s
      dsimp only
      rw [e]
      exact hlogged.activeKept.trans (.trans (.of_parts rfl) (activeKept_modPart _ p fun _ => rfl))

theorem activeKept_killRun (s : State) (p : PartId) (cause : Byte) : ActiveKept s (s.killRun p cause) := by
  unfold State.killRun
  split
  · exact .refl s
  · split
    · exact activeKept_modPart s p fun _ => rfl
    · exact activeKept_stopRun s p _

theorem activeKept_closeRun (s : State) (p : PartId) (r : RunSt) : ActiveKept s (s.closeRun p r) := by
  obtain ⟨ks, rt, e, -⟩ := closeRun_eq s p r
  rw [e]
  exact activeKept_modPart s p (f := Partition.freed) fun _ => rfl

theorem activeKept_charge (s : State) (p : PartId) (q : QueueId) (n : Nat) (killed : Bool) : ActiveKept s (s.charge p q n killed) := by
  rw [charge_eq]
  exact (activeKept_modPart s p (f := Partition.charged _ _) fun _ => rfl).trans (.of_parts rfl)

theorem activeKept_failStep (s : State) (a : Nat) (status : Byte) (detail : Nat) : ActiveKept s (s.failStep a status detail) := by
  cases h : s.step? a with
  | none =>
    unfold State.failStep
    rw [h]
    exact .refl s
  | some x =>
    obtain ⟨⟨st, j, ss, y, e, -⟩, -⟩ := failStep_eq h status detail
    rw [e]
    exact .of_parts rfl

theorem activeKept_endKilled (s : State) (p : PartId) (cause : Byte) : ActiveKept s (s.endKilled p cause) := by
  cases hr : (s.part p).run with
  | none =>
    unfold State.endKilled
    rw [hr]
    exact .refl s
  | some r =>
    cases hx : s.step? r.aseq with
    | none =>
      unfold State.endKilled
      rw [hr]
      dsimp only
      rw [hx]
      exact (activeKept_closeRun s p r).trans (aftermath_settleSeason _).activeKept
    | some x =>
      rw [endKilled_eq hr hx]
      have hover := (activeKept_charge s p x.queue (r.cores.length * r.cclk) true).trans (activeKept_closeRun _ p r)
      obtain ⟨st, j, e⟩ := killed_eq ((s.charge p x.queue (r.cores.length * r.cclk) true).closeRun p r) r x cause
      dsimp only
      rw [e]
      refine hover.trans (.trans (.of_parts rfl) (.trans ?_ (aftermath_settleSeason _).activeKept))
      split
      · exact .refl _
      · exact activeKept_failStep _ _ _ _

theorem activeKept_commitLost (s : State) (p : PartId) (status : Byte) : ActiveKept s (s.commitLost p status) :=
  .trans (.of_parts rfl) (activeKept_endKilled _ p status)

/-! ### Reads of host memory, however they end (R295, R298, R312) -/

theorem activeKept_failVersion (s : State) (i : Fin 256) (r : Region) (cause : Nat) : ActiveKept s (s.failVersion i r cause) := by
  have hput := ActiveKept.foldl (f := fun (t : State) (n : Nat) => t.deepPut (r.1 + n) (Config.lostByte s.deep.losses (r.1 + n)))
    (fun _ _ => .of_parts rfl) (List.range r.2) { s with deep := { s.deep with losses := s.deep.losses + 1 } }
  exact .trans (.of_parts rfl) (hput.trans (.of_parts rfl))

theorem activeKept_dropLoads (s : State) (n : PortId) : ActiveKept s (s.dropLoads n) := by
  refine .foldl (fun t i => ?_) _ s
  split
  · split
    · exact activeKept_failVersion t i _ 2
    · exact .refl t
  · exact .refl t

theorem activeKept_health (s : State) (code : Nat) (core : Option CoreId) (cluster detail : Nat) :
    ActiveKept s (s.health code core cluster detail) := (eccLogged_health s code core cluster detail).activeKept

theorem activeKept_modPort (s : State) (n : PortId) (f : Port → Port) : ActiveKept s (s.modPort n f) := .of_parts rfl

theorem activeKept_records (s : State) (rs : List PendRec) : ActiveKept s { s with records := rs } := .of_parts rfl

/-- The loss of a port kills runs and fails loads, and takes no partition's image (R298). -/
theorem activeKept_portLost (s : State) (n : PortId) (st : PortState) : ActiveKept s (s.portLost n st) := by
  unfold State.portLost
  dsimp only
  refine .trans ?_ (activeKept_health _ _ _ _ _)
  refine .trans (t := State.dropLoads _ n) ?_ (activeKept_records _ _)
  refine .trans ?_ (activeKept_dropLoads _ n)
  refine (activeKept_modPort s n _).trans (.foldl (fun t p => ?_) allParts _)
  split
  · exact .refl t
  · split
    · exact .refl t
    · split
      · exact activeKept_commitLost t p _
      · exact activeKept_killRun t p _

theorem activeKept_portError (s : State) (n : PortId) (addr op err qos : Nat) : ActiveKept s (s.portError n addr op err qos) :=
  (activeKept_modPort s n _).trans (activeKept_health _ 0x07 none n.val n.val)

theorem activeKept_countRead (s : State) (n : PortId) (va len : Nat) : ActiveKept s (s.countRead n va len) := activeKept_modPort s n _

theorem activeKept_tableParity (s : State) (cl : ClusterId) (ast va : Nat) : ActiveKept s (s.tableParity cl ast va) :=
  activeKept_of_hosting (tableParity_hosting s s cl ast va)

theorem activeKept_stewardParity (s : State) (cl : ClusterId) (ast va : Nat) : ActiveKept s (s.stewardParity cl ast va) :=
  activeKept_of_hosting (stewardParity_hosting s s cl ast va)

theorem activeKept_portWalk (s : State) (n : PortId) (qos : Fin 4) (ast va : Nat) (rs : List WalkRead) :
    ActiveKept s (s.portWalk n qos ast va rs).1 := by
  unfold State.portWalk
  dsimp only
  refine .trans (activeKept_tableParity s n ast va) ?_
  generalize s.tableParity n ast va = t
  cases t.walkBegin n ast va with
  | error e =>
    unfold State.countRange
    dsimp only
    split <;> exact .of_parts rfl
  | ok w =>
    dsimp only
    have htables : ActiveKept t ((walkAll w rs).2.foldl (fun (s : State) e => s.cacheTable n e) t.countWalk) :=
      .trans (.of_parts rfl) (activeKept_of_hosting (cacheTables_hosting t.countWalk t.countWalk n _))
    have hread := htables.trans (activeKept_countRead _ n 0 (64 * (walkAll w rs).2.length))
    rcases (walkAll w rs).1 with _ | e | l
    · dsimp only
      exact hread.trans (activeKept_portLost _ n _)
    · dsimp only
      split
      · exact hread.trans (activeKept_portError _ n _ _ _ _)
      · exact hread.trans (activeKept_countRead _ n _ _)
    · exact hread.trans (activeKept_countRead _ n _ _)

theorem stewardLookup_parts {s t : State} {cl : ClusterId} {ast va : Nat} {l : Leaf} (h : s.stewardLookup cl ast va = some (l, t)) :
    t.parts = s.parts := by
  unfold State.stewardLookup at h
  split at h
  · cases h
    rfl
  · split at h <;> cases h
    rfl

theorem activeKept_stewardPage (s : State) (n : PortId) (qos : Fin 4) (ast va : Nat) (ws : List (List WalkRead)) :
    ActiveKept s (s.stewardPage n qos ast va ws).1 := by
  unfold State.stewardPage
  dsimp only
  refine .trans (activeKept_stewardParity s n ast va) ?_
  generalize s.stewardParity n ast va = t
  cases hl : t.stewardLookup n ast va with
  | some x => exact .of_parts (stewardLookup_parts hl)
  | none =>
    have hwalk := activeKept_portWalk t n qos ast va (ws.headD [])
    rcases hw : t.portWalk n qos ast va (ws.headD []) with ⟨u, _ | e | l⟩ <;> rw [hw] at hwalk
    · exact hwalk
    · exact hwalk
    · exact hwalk.trans (.of_parts rfl)

theorem activeKept_readPage (s : State) (tr : Option Nat) (n : PortId) (qos : Fin 4) (va : Nat) (ws : List (List WalkRead)) :
    ActiveKept s (s.readPage tr n qos va ws).1 := by
  cases tr with
  | none => exact .refl s
  | some ast => exact activeKept_stewardPage s n qos ast va ws

theorem activeKept_stewardPages (tr : Option Nat) (qos : Fin 4) (r : ReadResult) (gs : List (PortId × Seg)) (s : State)
    (ws : List (List WalkRead)) : ActiveKept s (s.stewardPages tr qos r gs ws).1 := by
  induction gs generalizing s ws with
  | nil => exact .refl s
  | cons g gs ih =>
    obtain ⟨n, g⟩ := g
    have hpage := activeKept_readPage s tr n qos g.va ws
    rw [State.stewardPages.eq_def]
    dsimp only
    split
    · exact .refl s
    · change ActiveKept s (match (s.readPage tr n qos g.va ws).2.2 with
        | none => _ | some (.error e) => _ | some (.ok pa) => _ : State × ReadEnd).1
      rcases (s.readPage tr n qos g.va ws).2.2 with _ | e | pa
      · exact hpage
      · exact hpage
      · have hread := fun va len => hpage.trans (activeKept_countRead _ n va len)
        dsimp only
        split
        · exact (hread _ _).trans (ih _ _)
        · split
          · exact (hread _ _).trans (activeKept_portError _ n _ _ _ _)
          · dsimp only
            exact (hread _ _).trans (activeKept_portLost _ n _)

/-- A read of host memory takes no partition's image, however it ends (R298, R312). -/
theorem activeKept_stewardRead (s : State) (n : PortId) (qos : Fin 4) (ast va len : Nat) (r : ReadResult) :
    ActiveKept s (s.stewardRead n qos ast va len r).1 := activeKept_stewardPages _ _ _ _ s _

/-- One that brings its bytes moves the ports and the translation caches alone. -/
theorem stewardRead_only {s u : State} {n : PortId} {qos : Fin 4} {ast va len : Nat} {r : ReadResult} {bs : List Byte}
    (h : s.stewardRead n qos ast va len r = (u, .data bs)) : ∃ ports xlate, u = { s with ports := ports, xlate := xlate } := by
  have hu := stewardRead_hosting s s rfl n qos ast va len r bs (congrArg Prod.snd h)
  rw [h] at hu
  exact ⟨_, _, congrArg Prod.fst (h.symm.trans hu)⟩

/-! ### A copy into deep scratch where words are flipped (R173, R179) -/

/-- `s` with other flipped words and other counts of errors. -/
def State.withFlips (s : State) (f : Tab Bool) (sc : ScrubSt) : State := { s with deep := { s.deep with flip := f }, scrub := sc }

theorem deepPuts_withFlips (s : State) (f : Tab Bool) (sc : ScrubSt) (ps : List (Nat × Byte)) :
    ps.foldl (fun s p => s.deepPut p.1 p.2) (s.withFlips f sc) = (ps.foldl (fun s p => s.deepPut p.1 p.2) s).withFlips f sc := by
  induction ps generalizing s with
  | nil => rfl
  | cons p ps ih => exact ih (s.deepPut p.1 p.2)

/-- A flipped word that a write meets is corrected and counted; the bytes that are stored are the same (R179). -/
theorem deepWriteWord_withFlips {s : State} (hs : DeepClear s) (f : Tab Bool) (sc : ScrubSt) (w : Nat) (ps : List (Nat × Byte)) :
    ∃ f' sc', (s.withFlips f sc).deepWriteWord w ps = ((s.deepWriteWord w ps).1.withFlips f' sc', false) := by
  have hpoison : s.deep.poison = [] := hs.1
  have hdel : Tab.del s.deep.poison w = s.deep.poison := by
    rw [hpoison]
    rfl
  have hmark : (s.withFlips f sc).deepPoisoned w = false := by
    change Tab.get false s.deep.poison w = false
    rw [hpoison]
    rfl
  have hfixed : ∀ n, ∃ sc', (s.withFlips f sc).eccFixed 1 n = s.withFlips f sc' := by
    intro n
    unfold State.eccFixed
    split
    · exact ⟨sc, rfl⟩
    · exact ⟨_, rfl⟩
  obtain ⟨sc', hsc⟩ := hfixed (if Tab.get false (s.withFlips f sc).deep.flip w && decide (ps.length < 8) then 1 else 0)
  refine ⟨Tab.del f w, sc', ?_⟩
  rw [deepWriteWord_clear hs, ← deepPuts_withFlips]
  unfold State.deepWriteWord
  rw [hmark, hsc, Bool.false_and, if_neg Bool.false_ne_true]
  change (List.foldl _ ({ s with deep := { s.deep with poison := Tab.del s.deep.poison w, flip := Tab.del f w }, scrub := sc' } : State) ps,
    false) = _
  rw [hdel]
  rfl

theorem deepWriteWords_withFlips (dsa : Nat) (bs : List Byte) (is : List Nat) {s : State} (hs : DeepClear s) (ok : DeepOk s) (f : Tab Bool)
    (sc : ScrubSt) : ∃ f' sc', is.foldl (State.writeWordAt dsa bs) (s.withFlips f sc, false) =
      ((is.foldl (State.writeWordAt dsa bs) (s, false)).1.withFlips f' sc', false) := by
  induction is generalizing s f sc with
  | nil => exact ⟨f, sc, rfl⟩
  | cons i is ih =>
    obtain ⟨f1, sc1, hword⟩ := deepWriteWord_withFlips hs f sc (dsa / 8 + i) (wordBytes dsa bs (dsa / 8 + i))
    have hput := deepPuts_stored ok (g := fun a => bs.getD (a - dsa) 0)
      (fun p hp => value_of_mem_wordBytes hp) (ps := wordBytes dsa bs (dsa / 8 + i))
    rw [List.foldl_cons, List.foldl_cons, State.writeWordAt, State.writeWordAt, hword, deepWriteWord_clear hs]
    exact ih (hput.only.clear hs) hput.ok f1 sc1

/-- A write that meets no poisoned word stores exactly its bytes, and moves no other state but the flipped words and the counts of
errors (R173, R179). -/
theorem deepWrite_unpoisoned {s : State} (hp : s.deep.poison = []) (ok : DeepOk s) (dsa : Nat) (bs : List Byte) :
    ∃ d sc, (s.deepWrite dsa bs).1 = { s with deep := d, scrub := sc } ∧ ∀ a, (s.deepWrite dsa bs).1.deepByte a =
      if dsa ≤ a ∧ a < dsa + bs.length then bs.getD (a - dsa) 0 else s.deepByte a := by
  have hs : DeepClear (s.withFlips [] s.scrub) := ⟨hp, rfl⟩
  have ok' : DeepOk (s.withFlips [] s.scrub) := ⟨ok.rising, ok.nonzero, ok.poison⟩
  obtain ⟨t, hwrite, ⟨cells, hcells⟩, -, hstored, hkept⟩ := deepWrite_stored hs ok' dsa bs
  have hflips : ∃ f sc, (s.deepWrite dsa bs).1 = t.withFlips f sc := by
    have ht : t = ((s.withFlips [] s.scrub).deepWrite dsa bs).1 := by rw [hwrite]
    rw [ht]
    unfold State.deepWrite
    split
    · exact ⟨s.deep.flip, s.scrub, rfl⟩
    · obtain ⟨f, sc, e⟩ :=
        deepWriteWords_withFlips dsa bs (List.range ((dsa + bs.length - 1) / 8 - dsa / 8 + 1)) hs ok' s.deep.flip s.scrub
      exact ⟨f, sc, congrArg Prod.fst e⟩
  obtain ⟨f, sc, e⟩ := hflips
  rw [e]
  refine ⟨_, sc, by rw [hcells]; rfl, fun a => ?_⟩
  split
  · exact hstored a ‹_›
  · exact hkept a ‹_›

/-! ### LOAD -/

/-- A partition whose image is being read (Table 11-1). -/
def Partition.reads (l : LoadReq) (x : Partition) : Partition := { x with loading := some l, loadStatus := 1 }

/-- LOAD of a partition with no load under way, and with room in its area where it has one (R222, R265). -/
theorem writeLoad_eq {s : State} {p : PartId} {v : Nat} (hl : (s.part p).loading = none) (h1 : fld v 63 48 = 0) (h2 : fld v 127 106 = 0)
    (harea : (s.part p).area.2 ≠ 0 → fld v 95 64 ≤ (s.part p).area.2 ∧ s.badPlace (s.part p).area = false ∧
      (s.windows (fun _ => true)).any (overlap (s.part p).area) = false) :
    s.writeLoad p v = done (s.modPart p (Partition.reads { va := fld v 47 0, length := fld v 95 64, ast := fld v 105 96 })) := by
  have hroom : (decide ((s.part p).area.2 ≠ 0) && (decide ((s.part p).area.2 < fld v 95 64) || s.badPlace (s.part p).area ||
      (s.windows (fun _ => true)).any (overlap (s.part p).area))) = false := by
    by_cases h : (s.part p).area.2 = 0
    · simp [h]
    · obtain ⟨hfits, hplace, hfree⟩ := harea h
      rw [hplace, hfree]
      simp [hfits]
  unfold State.writeLoad
  dsimp only
  rw [refuse_of_false (by rw [hl]; rfl), refuse_of_false (by rw [hroom]; simp [h1, h2])]
  rfl

/-! ### The end of a load -/

/-- What the end of a load of partition `p` leaves: it raises bit 7 of IRQ_STATUS, and other partitions, cores and steps stay. -/
structure LoadEnded (s t : State) (p : PartId) : Prop where
  irq : t.ctl.irqStatus = s.ctl.irqStatus ||| 0x80
  parts : ∀ k, k ≠ p → t.part k = s.part k
  cores : t.cores = s.cores
  steps : t.steps = s.steps

theorem loadEnded_modPart (s : State) (p : PartId) (f : Partition → Partition) (d : DeepSt) (sc : ScrubSt) :
    LoadEnded s (({ s with deep := d, scrub := sc }.modPart p f).irq 7) p :=
  ⟨rfl, fun _ hk => part_modPart_ne _ _ _ _ hk, rfl, rfl⟩

/-- A partition whose load is rejected, with an image that waits for disarming, with an image that is active at once (R223, Table 11-1). -/
def Partition.rejected (code off id : Nat) (x : Partition) : Partition :=
  { x with loading := none, loadStatus := BitVec.ofNat 128 (3 + code * 2 ^ 8 + off * 2 ^ 32 + id * 2 ^ 64),
           lastReject := BitVec.ofNat 16 code }
def Partition.pends (i : ImgRec) (x : Partition) : Partition :=
  { x with loading := none, loadStatus := BitVec.ofNat 128 (2 + imgId i.bytes * 2 ^ 64), pendingImg := some i }
def Partition.activates (i : ImgRec) (x : Partition) : Partition :=
  { x with loading := none, loadStatus := BitVec.ofNat 128 (2 + imgId i.bytes * 2 ^ 64), lostInWinter := false, active := some i,
           pendingImg := none }

/-- An image that failed a check, or that could not be read, leaves the active one (R223). -/
theorem rejectImage_spec (s : State) (p : PartId) (code off id : Nat) : LoadEnded s (s.rejectImage p code off id) p ∧
    (s.rejectImage p code off id).deep = s.deep ∧ (s.rejectImage p code off id).part p = (s.part p).rejected code off id :=
  ⟨loadEnded_modPart s p _ s.deep s.scrub, rfl, part_modPart s p (Partition.rejected code off id)⟩

theorem loadStatusWord_accepted (id : Nat) : loadStatusWord 2 0 0 id = BitVec.ofNat 128 (2 + id * 2 ^ 64) := by
  simp [loadStatusWord]

/-- An image that is accepted while the class RT partition is not disarmed is pending (R223). -/
theorem acceptImage_pending {s : State} {p : PartId} (hrt : (s.part p).rt = true) (harm : s.rt.arm ≠ .disarmed) (i : ImgRec) :
    LoadEnded s (s.acceptImage p i) p ∧ (s.acceptImage p i).deep = s.deep ∧ (s.acceptImage p i).part p = (s.part p).pends i := by
  unfold State.acceptImage
  rw [if_pos ⟨hrt, harm⟩, loadStatusWord_accepted]
  exact ⟨loadEnded_modPart s p _ s.deep s.scrub, rfl, part_modPart s p (Partition.pends i)⟩

/-- A byte of deep scratch once an image is in its place: a resident one is copied into the partition's area (R222). -/
def State.placedByte (s : State) (p : PartId) (i : ImgRec) (a : Nat) : Byte :=
  if i.resident = true ∧ (s.part p).area.1 ≤ a ∧ a < (s.part p).area.1 + i.bytes.length then i.bytes.getD (a - (s.part p).area.1) 0
  else s.deepByte a

/-- An image is put in its place; one that is not resident has none (R222). -/
theorem placeImage_spec {s : State} (ok : DeepOk s) (hpoison : s.deep.poison = []) (p : PartId) (i : ImgRec) :
    ∃ d sc, s.placeImage p i = { s with deep := d, scrub := sc } ∧ ∀ a, (s.placeImage p i).deepByte a = s.placedByte p i a := by
  unfold State.placeImage State.placedByte
  cases i.resident with
  | false => exact ⟨s.deep, s.scrub, rfl, fun a => (if_neg (fun h => Bool.false_ne_true h.1)).symm⟩
  | true =>
    obtain ⟨d, sc, e, hbytes⟩ := deepWrite_unpoisoned hpoison ok (s.part p).area.1 i.bytes
    refine ⟨d, sc, e, fun a => ?_⟩
    rw [if_pos rfl, hbytes]
    exact if_congr (and_iff_right rfl).symm rfl rfl

/-- Any other accepted image is active at once (R222, R223). -/
theorem acceptImage_active {s : State} {p : PartId} (hnow : (s.part p).rt = false ∨ s.rt.arm = .disarmed) (ok : DeepOk s)
    (hpoison : s.deep.poison = []) (i : ImgRec) :
    LoadEnded s (s.acceptImage p i) p ∧ (s.acceptImage p i).part p = (s.part p).activates i ∧
      ∀ a, (s.acceptImage p i).deepByte a = s.placedByte p i a := by
  have hnot : ¬ ((s.part p).rt = true ∧ s.rt.arm ≠ .disarmed) := by
    rintro ⟨hrt, harm⟩
    rcases hnow with h | h
    · exact Bool.false_ne_true (h.symm.trans hrt)
    · exact harm h
  obtain ⟨d, sc, e, hbytes⟩ := placeImage_spec ok hpoison p i
  rw [e] at hbytes
  unfold State.acceptImage
  rw [if_neg hnot, loadStatusWord_accepted, e]
  exact ⟨loadEnded_modPart s p _ d sc, part_modPart _ p (Partition.activates i), hbytes⟩

/-- The record of an image whose bytes a load of partition `p` brought (R222, R226). -/
def State.loadedImage (s : State) (p : PartId) (l : LoadReq) (bs : List Byte) : ImgRec :=
  { bytes := bs, resident := decide ((s.part p).area.2 ≠ 0), wcet := if bitAt (imgFlags bs) 1 then imgClaim bs else 0,
    dir := s.tables.active.dir, va := l.va, ast := l.ast }

theorem checkImage_accepts {s : State} {p : PartId} {l : LoadReq} {bs : List Byte}
    (h : verify (s.verCtx p (decide ((s.part p).area.2 ≠ 0)) false) bs l.length = none) :
    s.checkImage p l bs = s.acceptImage p (s.loadedImage p l bs) := by
  unfold State.checkImage
  dsimp only
  rw [h]
  rfl

theorem checkImage_rejects {s : State} {p : PartId} {l : LoadReq} {bs : List Byte} {code off : Nat}
    (h : verify (s.verCtx p (decide ((s.part p).area.2 ≠ 0)) false) bs l.length = some (code, off)) (hlen : 0x24 ≤ bs.length) :
    s.checkImage p l bs = s.rejectImage p code off (imgId bs) := by
  unfold State.checkImage
  dsimp only
  rw [h]
  dsimp only
  rw [if_neg (Nat.not_lt.mpr hlen)]

/-- IMAGE_LOAD_DONE where the load goes on: the verifier's turn on the bytes that came, the rejection of a read that failed (R222,
R225, Table 12-6). -/
theorem exec_imageLoadDone_read {s u : State} {p : PartId} {l : LoadReq} {r : ReadResult} {e : ReadEnd} (hs : s.serving = true)
    (ha : s.awake = true) (hc : s.portCarries (s.partPort p) = true) (hl : (s.part p).loading = some l)
    (hr : s.stewardRead (s.partPort p) 0 l.ast l.va l.length r = (u, e)) : exec (.imageLoadDone p r) s =
      .next (e.bytes?.elim (u.rejectImage p 0x0102 8 0) (u.checkImage p l)) := by
  rw [exec_imageLoadDone, execImageLoadDone, hl]
  dsimp only
  rw [hs, ha, hc, hr, if_neg (by decide)]
  cases e.bytes? <;> rfl

/-- A load whose port carries nothing waits (R299). -/
theorem exec_imageLoadDone_waits {s : State} {p : PartId} (hc : s.portCarries (s.partPort p) = false) (r : ReadResult) :
    exec (.imageLoadDone p r) s = .next s := by
  rw [exec_imageLoadDone, execImageLoadDone]
  cases (s.part p).loading with
  | none => rfl
  | some l =>
    dsimp only
    rw [hc, Bool.and_false]
    rfl

/-- Settles O33: LOAD by `writeLoad_eq`; its end by what the read ends in (`exec_imageLoadDone_read`), then by the verifier's answer and
the partition's arming. -/
theorem imageLoads : Obligations.image_loads := by
  unfold Obligations.image_loads
  intro s p area resident
  refine ⟨fun v async hm hl h1 h2 harea => ?_, fun l r u e hs ha hc hl hr => ⟨?_, ?_⟩, fun r hc => exec_imageLoadDone_waits hc r⟩
  · exact ends_done s _ (fun s => s.writeLoad p v.toNat) async _ hm rfl rfl rfl
      (fun _ => writeLoad_eq (s := s.withCtl _) hl h1 h2 harea)
  · rintro bs rfl img kept
    have hexec := exec_imageLoadDone_read hs ha hc hl hr
    obtain ⟨ports, xlate, rfl⟩ := stewardRead_only hr
    have hkept : ∀ t, LoadEnded { s with ports := ports, xlate := xlate } t p → kept t :=
      fun t h => ⟨h.irq, h.parts, h.cores, h.steps⟩
    refine ⟨fun hv => ⟨fun hnow ok hpoison => ?_, fun hrt harm => ?_⟩, fun code off hv hlen => ?_⟩
    · obtain ⟨hended, hpart, hbytes⟩ := acceptImage_active (s := { s with ports := ports, xlate := xlate }) (p := p) hnow
        (deepOk_of_same ok rfl rfl) hpoison img
      exact ⟨_, hexec.trans (congrArg _ (checkImage_accepts hv)), hkept _ hended, hpart,
        fun a => (hbytes a).trans (if_congr (and_congr_left' decide_eq_true_iff) rfl rfl)⟩
    · obtain ⟨hended, hdeep, hpart⟩ := acceptImage_pending (s := { s with ports := ports, xlate := xlate }) (p := p) hrt harm img
      exact ⟨_, hexec.trans (congrArg _ (checkImage_accepts hv)), hkept _ hended, hdeep, hpart⟩
    · obtain ⟨hended, hdeep, hpart⟩ := rejectImage_spec { s with ports := ports, xlate := xlate } p code off (imgId bs)
      exact ⟨_, hexec.trans (congrArg _ (checkImage_rejects hv hlen)), hkept _ hended, hdeep, hpart⟩
  · intro hnone
    have hexec := exec_imageLoadDone_read hs ha hc hl hr
    rw [hnone, Option.elim_none] at hexec
    obtain ⟨-, -, hpart⟩ := rejectImage_spec u p 0x0102 8 0
    have hactive : (u.part p).active = (s.part p).active := by
      have h := activeKept_stewardRead s (s.partPort p) 0 l.ast l.va l.length r
      rw [hr] at h
      exact h p
    exact ⟨_, hexec, irq_bit7 _, by rw [hpart]; rfl, by rw [hpart]; rfl, by rw [hpart]; rfl, by rw [hpart]; exact hactive⟩

end Sys2Proof.Machine

/-!
PROOFS. Doorbells and stage 3: what a steward's read of host memory leaves alone unless its port is lost, the record of a descriptor that is
refused, DESCRIPTOR_FETCH by the end of its read, RT doorbells (R238, R268, R279, R295, R316, R425, Table 10-2):
`doorbells_and_descriptors`.
-/
namespace Sys2Proof.Machine
open Sys2Proof.Safety

/-! ### Reads of host memory whose port is not lost (R295, R312, R316) -/

/-- What a steward's read of host memory may change while its port is not lost: the ports and the translation caches, and what the event of
an error response goes to (R295, R398). -/
def ReadLogged (s t : State) : Prop :=
  ∃ ps x d sc l f c, t = { s with ports := ps, xlate := x, deep := d, scrub := sc, link := l, fault := f, ctl := c }

theorem ReadLogged.trans {s t u : State} (h : ReadLogged s t) (g : ReadLogged t u) : ReadLogged s u := by
  obtain ⟨ps, x, d, sc, l, f, c, rfl⟩ := h
  obtain ⟨ps', x', d', sc', l', f', c', rfl⟩ := g
  exact ⟨ps', x', d', sc', l', f', c', rfl⟩

theorem ReadLogged.of_hosting {s t : State} (h : t = s.hosting t) : ReadLogged s t := by
  rw [h]
  exact ⟨_, _, s.deep, s.scrub, s.link, s.fault, s.ctl, rfl⟩

theorem EccLogged.readLogged {s t : State} (h : EccLogged s t) : ReadLogged s t := by
  obtain ⟨d, sc, l, hl, n, i, rfl⟩ := h
  exact ⟨s.ports, s.xlate, d, sc, l, _, _, rfl⟩

theorem ReadLogged.refl (s : State) : ReadLogged s s := .of_hosting rfl

theorem ReadLogged.slots {s t : State} (h : ReadLogged s t) (q : QueueId) : t.slots q = s.slots q := by
  obtain ⟨ps, x, d, sc, l, f, c, rfl⟩ := h
  rfl

theorem readLogged_countRead (s : State) (n : PortId) (va len : Nat) : ReadLogged s (s.countRead n va len) := .of_hosting rfl

theorem readLogged_portError (s : State) (n : PortId) (addr op err qos : Nat) : ReadLogged s (s.portError n addr op err qos) :=
  .trans (.of_hosting rfl) (eccLogged_health _ 0x07 none n.val n.val).readLogged

theorem readLogged_tableParity (s : State) (cl : ClusterId) (ast va : Nat) : ReadLogged s (s.tableParity cl ast va) :=
  .of_hosting (tableParity_hosting s s cl ast va)

theorem readLogged_stewardParity (s : State) (cl : ClusterId) (ast va : Nat) : ReadLogged s (s.stewardParity cl ast va) :=
  .of_hosting (stewardParity_hosting s s cl ast va)

theorem readLogged_countRange (s : State) (f : XFault) : ReadLogged s (s.countRange f) := .of_hosting (countRange_hosting s f)

theorem readLogged_stewardInsert (s : State) (cl : ClusterId) (l : Leaf) : ReadLogged s (s.stewardInsert cl l) := .of_hosting rfl

theorem readLogged_reportFault (s : State) (addr ast cause : Nat) : ReadLogged s (s.reportFault addr ast cause) := .of_hosting rfl

/-- A walk whose reads are all answered (R305 to R308). -/
theorem readLogged_portWalk {s : State} {n : PortId} {qos : Fin 4} {ast va : Nat} {rs : List WalkRead}
    (h : (s.portWalk n qos ast va rs).2 ≠ none) : ReadLogged s (s.portWalk n qos ast va rs).1 := by
  unfold State.portWalk at h ⊢
  dsimp only at h ⊢
  refine .trans (readLogged_tableParity s n ast va) ?_
  generalize s.tableParity n ast va = t at h ⊢
  cases hw : t.walkBegin n ast va with
  | error e => exact readLogged_countRange t e
  | ok w =>
    rw [hw] at h
    dsimp only at h ⊢
    have htables : ReadLogged t ((walkAll w rs).2.foldl (fun (s : State) e => s.cacheTable n e) t.countWalk) :=
      .trans (t := t.countWalk) (.of_hosting rfl) (.of_hosting (cacheTables_hosting t.countWalk t.countWalk n _))
    have hread := htables.trans (readLogged_countRead _ n 0 (64 * (walkAll w rs).2.length))
    rcases hend : (walkAll w rs).1 with _ | e | l
    · rw [hend] at h
      exact absurd rfl h
    · dsimp only
      split
      · exact hread.trans (readLogged_portError _ n _ _ _ _)
      · exact hread.trans (readLogged_countRead _ n _ _)
    · dsimp only
      exact hread.trans (readLogged_countRead _ n _ _)

theorem readLogged_stewardPage {s : State} {n : PortId} {qos : Fin 4} {ast va : Nat} {ws : List (List WalkRead)}
    (h : (s.stewardPage n qos ast va ws).2.2 ≠ none) : ReadLogged s (s.stewardPage n qos ast va ws).1 := by
  unfold State.stewardPage at h ⊢
  dsimp only at h ⊢
  refine .trans (readLogged_stewardParity s n ast va) ?_
  generalize s.stewardParity n ast va = t at h ⊢
  cases hl : t.stewardLookup n ast va with
  | some x =>
    have hu : ReadLogged t x.2 := .of_hosting (stewardLookup_hosting hl)
    exact hu
  | none =>
    rw [hl] at h
    dsimp only at h ⊢
    rcases hw : t.portWalk n qos ast va (ws.headD []) with ⟨u, _ | e⟩
    · rw [hw] at h
      exact absurd rfl h
    · have hwalk : ReadLogged t u := by
        have := readLogged_portWalk (s := t) (n := n) (qos := qos) (ast := ast) (va := va) (rs := ws.headD []) (by rw [hw]; nofun)
        rwa [hw] at this
      cases e with
      | error e => exact hwalk
      | ok l => exact hwalk.trans (readLogged_stewardInsert u n l)

theorem readLogged_readPage {s : State} {tr : Option Nat} {n : PortId} {qos : Fin 4} {va : Nat} {ws : List (List WalkRead)}
    (h : (s.readPage tr n qos va ws).2.2 ≠ none) : ReadLogged s (s.readPage tr n qos va ws).1 := by
  cases tr with
  | none => exact .refl s
  | some ast => exact readLogged_stewardPage h

/-- A read by pages whose port is not lost, however it ends (R312). -/
theorem readLogged_stewardPages {tr : Option Nat} {qos : Fin 4} {r : ReadResult} {gs : List (PortId × Seg)} {s : State}
    {ws : List (List WalkRead)} (h : (s.stewardPages tr qos r gs ws).2 ≠ .lost) : ReadLogged s (s.stewardPages tr qos r gs ws).1 := by
  induction gs generalizing s ws with
  | nil => exact .refl s
  | cons g gs ih =>
    obtain ⟨n, g⟩ := g
    have hpage := readLogged_readPage (s := s) (tr := tr) (n := n) (qos := qos) (va := g.va) (ws := ws)
    rw [State.stewardPages.eq_def] at h ⊢
    dsimp only at h ⊢
    split at h
    · exact absurd rfl h
    · rename_i hc
      rw [if_neg hc]
      change (match (s.readPage tr n qos g.va ws).2.2 with
        | none => _ | some (.error e) => _ | some (.ok pa) => _ : State × ReadEnd).2 ≠ _ at h
      change ReadLogged s (match (s.readPage tr n qos g.va ws).2.2 with
        | none => _ | some (.error e) => _ | some (.ok pa) => _ : State × ReadEnd).1
      rcases hp : (s.readPage tr n qos g.va ws).2.2 with _ | e | pa <;> rw [hp] at h hpage
      · exact absurd rfl h
      · exact hpage nofun
      · have hread := fun va len => (hpage nofun).trans (readLogged_countRead _ n va len)
        dsimp only at h ⊢
        split
        · rename_i hlen
          rw [if_pos hlen] at h
          exact (hread _ _).trans (ih h)
        · rename_i hlen
          rw [if_neg hlen] at h
          cases hr : r.err with
          | some e => exact (hread _ _).trans (readLogged_portError _ n _ _ _ _)
          | none =>
            rw [hr] at h
            exact absurd rfl h

/-- A read of host memory under an AST whose port is not lost. -/
theorem readLogged_stewardRead {s u : State} {n : PortId} {qos : Fin 4} {ast va len : Nat} {r : ReadResult} {e : ReadEnd}
    (h : s.stewardRead n qos ast va len r = (u, e)) (he : e ≠ .lost) : ReadLogged s u := by
  have hread : (s.stewardRead n qos ast va len r).2 ≠ .lost := by
    rw [h]
    exact he
  have hlogged := readLogged_stewardPages hread
  rwa [show s.stewardPages _ _ _ _ _ = (u, e) from h] at hlogged

/-! ### Queues that stop and refused descriptors (R238, R267, R268) -/

/-- A queue in STOPPED. -/
def Queue.halted (x : Queue) : Queue := { x with stopped := true }

/-- Two changes of a place that come to the same there. -/
theorem upd_congr {α : Type} {n : Nat} {v : Vector α n} {i : Fin n} {f g : α → α} (h : f v[i.val] = g v[i.val]) :
    upd v i f = upd v i g := by
  unfold upd
  rw [h]

/-- A change of a place that leaves it as it is. -/
theorem upd_of_fixed {α : Type} {n : Nat} {v : Vector α n} {i : Fin n} {f : α → α} (h : f v[i.val] = v[i.val]) : upd v i f = v := by
  unfold upd
  rw [h]
  exact Vector.set_getElem_self i.isLt

/-- STOPPED is set, whether it was set before or not, and only the event of a queue that enters it is logged (R267, R268). -/
theorem stopQueue_halts (s : State) (q : QueueId) : ∃ l f i, s.stopQueue q =
    { s with queues := upd s.queues q Queue.halted, link := l, fault := f, ctl := { s.ctl with irqStatus := i } } := by
  unfold State.stopQueue
  split
  · rename_i h
    refine ⟨s.link, s.fault, s.ctl.irqStatus, ?_⟩
    have hfixed : (s.queue q).halted = s.queue q := by
      unfold Queue.halted
      rw [← h]
    rw [upd_of_fixed hfixed]
  · unfold State.health
    dsimp only
    generalize eventRecord 0x09 none 0 q.val _ = r
    obtain ⟨l, e⟩ := forwardEvent_link (({ s.modQueue q (fun x => { x with stopped := true }) with fault := { s.fault with
      health := Tab.put s.fault.health (s.fault.healthNext.toNat % 64) r, healthNext := s.fault.healthNext + 1 } }).irq 3) r
    exact ⟨l, _, _, e⟩

/-- What a refusal of a descriptor leaves as it was, the record's number aside. -/
structure Refused (s t : State) : Prop where
  nextRec : t.nextRec = s.nextRec + 1
  fetched : t.fetched = s.fetched
  fetch : ∀ k : QueueId, (t.queue k).fetch = (s.queue k).fetch
  steps : t.steps = s.steps
  cores : t.cores = s.cores
  journal : t.journal = s.journal

/-- The stop of a queue leaves FETCH alone. -/
theorem fetch_halted (v : Vector Queue 64) (q k : QueueId) : ((upd v q Queue.halted)[k.val]).fetch = (v[k.val]).fetch := by
  rw [getElem_upd]
  split
  · rename_i h
    rw [h]
    rfl
  · rfl

theorem Refused.stopQueue {s t : State} (h : Refused s t) (q : QueueId) : Refused s (t.stopQueue q) := by
  obtain ⟨l, f, i, e⟩ := stopQueue_halts t q
  rw [e]
  exact ⟨h.nextRec, h.fetched, fun k => (fetch_halted t.queues q k).trans (h.fetch k), h.steps, h.cores, h.journal⟩

theorem stopped_stopQueue (s : State) (q : QueueId) : ((s.stopQueue q).queue q).stopped = true := by
  obtain ⟨l, f, i, e⟩ := stopQueue_halts s q
  rw [e]
  exact congrArg Queue.stopped (getElem_upd_self s.queues q Queue.halted)

/-- The record of a refused descriptor goes on its way, or its queue stops (R238, R267). -/
theorem refuseDesc_refused {s : State} (h : s.records = []) (q : QueueId) (qseq : Nat) (status : Byte) (detail : Nat) :
    Refused s (s.refuseDesc q qseq status detail) := by
  let bs := recordBytes qseq 0 status 0 0 q.val 0 detail (s.queue q).cword.toNat
  let p := s.postRecord q (s.queue q).part none (qosOf false (s.queue q).cls.val) qseq bs
  change Refused s p.driveRecords
  obtain ⟨y, hy, hwalk, hbytes, hcommits⟩ : ∃ y, p.records = [y] ∧ y.walk = none ∧ y.bytes = bs ∧ y.commits = none :=
    ⟨_, congrArg (· ++ _) h, rfl, rfl, rfl⟩
  rw [driveRecords_only hy]
  rcases driveRecord_only hy hwalk (by rw [hbytes]; exact recordBytes_ne_nil _ _ _ _ _ _ _ _ _) with ⟨u, z, e, -, -⟩ | ⟨u, e⟩
  · rw [e]
    exact ⟨rfl, rfl, fun _ => rfl, rfl, rfl, rfl⟩
  · rw [e, recordFail_of_none (s := p.hosting u) hy hcommits]
    have hdropped : Refused s { p.hosting u with records := [], start := { s.start with mwTest := none } } :=
      ⟨rfl, rfl, fun _ => rfl, rfl, rfl, rfl⟩
    exact hdropped.stopQueue y.queue

/-! ### DESCRIPTOR_FETCH by the end of its read (R238, R316, Table 12-6) -/

/-- A queue whose descriptor is behind it. -/
def Queue.advanced (x : Queue) : Queue := { x with fetch := x.fetch + 1 }

theorem fetch_advanceFetch (s : State) (q : QueueId) : ((s.advanceFetch q).queue q).fetch = (s.queue q).fetch + 1 :=
  congrArg Queue.fetch (queue_modQueue s q Queue.advanced)

@[simp] theorem slots_advanceFetch (s : State) (q : QueueId) : (s.advanceFetch q).slots q = s.slots q :=
  (congrArg (fun x : Queue => 2 ^ x.slotsLog2.toNat) (queue_modQueue s q Queue.advanced)).trans rfl

/-- The read of a queue's next descriptor. -/
def State.descRead (s : State) (q : QueueId) (r : ReadResult) : State × ReadEnd :=
  s.stewardRead (s.partPort (s.queue q).part) (qosOf false (s.queue q).cls.val) (s.queue q).ast.toNat
    ((s.queue q).ringVa.toNat + 128 * ((s.queue q).fetch.toNat % s.slots q)) 128 r

/-- How DESCRIPTOR_FETCH goes on from the end of its read. -/
def State.fetchEnds (s : State) (q : QueueId) (y : State × ReadEnd) : Out :=
  let x := s.queue q
  let f := y.1.stewardFault (s.partPort x.part) x.ast.toNat y.2
  match y.2, f.2 with
  | .data bs, _ =>
    match descChecks bs (some (x.fetch.toNat, (y.1.advanceFetch q).slots q)) none with
    | some c => .next ((y.1.advanceFetch q).refuseDesc q (leAt bs 4 4) 0x0D c)
    | none => .next { y.1.advanceFetch q with fetched := y.1.fetched ++ [{ queue := q, desc := parseDesc bs }] }
  | .fault _ _, some w => .next ((f.1.advanceFetch q).refuseDesc q x.fetch.toNat w.1 w.2)
  | .error _ _, some w => .next ((f.1.refuseDesc q x.fetch.toNat w.1 w.2).stopQueue q)
  | _, _ => .next y.1

/-- A queue that may be read is not past its ring (R268). -/
theorem overrun_of_mayFetch {s : State} {q : QueueId} (h : s.mayFetch q = true) : s.overrun q = false := by
  have hposted : s.posted q ≤ s.slots q := by
    simp only [State.mayFetch, Bool.and_eq_true, decide_eq_true_eq] at h
    tauto
  rw [State.overrun, decide_eq_false (not_lt.mpr hposted), Bool.and_false]

theorem execDescriptorFetch_read {s : State} {q : QueueId} (h : s.mayFetch q = true) (r : ReadResult) :
    execDescriptorFetch q r s = s.fetchEnds q (s.descRead q r) := by
  rw [execDescriptorFetch, overrun_of_mayFetch h, if_neg (by decide), if_neg (by rw [h]; decide)]
  rfl

section
variable {s u : State} {q : QueueId} {r : ReadResult}

theorem execDescriptorFetch_data {bs : List Byte} (h : s.mayFetch q = true) (hr : s.descRead q r = (u, .data bs)) :
    execDescriptorFetch q r s = match descChecks bs (some ((s.queue q).fetch.toNat, u.slots q)) none with
      | some c => .next ((u.advanceFetch q).refuseDesc q (leAt bs 4 4) 0x0D c)
      | none => .next { u.advanceFetch q with fetched := u.fetched ++ [{ queue := q, desc := parseDesc bs }] } := by
  rw [execDescriptorFetch_read h, hr, ← slots_advanceFetch u]
  rfl

theorem execDescriptorFetch_fault {f : XFault} {a : Nat} (h : s.mayFetch q = true) (hr : s.descRead q r = (u, .fault f a)) :
    ∃ (t : State) (w : Byte × Nat), ReadLogged u t ∧
      execDescriptorFetch q r s = .next ((t.advanceFetch q).refuseDesc q (s.queue q).fetch.toNat w.1 w.2) :=
  ⟨_, _, readLogged_reportFault u _ _ _, by rw [execDescriptorFetch_read h, hr]; rfl⟩

theorem execDescriptorFetch_error {err pa : Nat} (h : s.mayFetch q = true) (hr : s.descRead q r = (u, .error err pa)) :
    ∃ (t : State) (w : Byte × Nat), ReadLogged u t ∧
      execDescriptorFetch q r s = .next ((t.refuseDesc q (s.queue q).fetch.toNat w.1 w.2).stopQueue q) :=
  ⟨_, _, readLogged_reportFault u _ _ _, by rw [execDescriptorFetch_read h, hr]; rfl⟩

end

/-- A queue that is overrun stops (R268). -/
theorem exec_descriptorFetch_overrun {s : State} {q : QueueId} (h : s.overrun q = true) (r : ReadResult) :
    exec (.descriptorFetch q r) s = .next (s.stopQueue q) := by
  rw [exec_descriptorFetch, execDescriptorFetch, if_pos h]

/-! ### Doorbells (R268, R279, R425) -/

/-- A real-time fault: its record and RT_FAULT (R398). -/
theorem rtFault_eq (s : State) (code : Nat) (core : Option CoreId) (detail : Nat) : ∃ l fs, s.rtFault code core detail =
    { s with link := l, fault := { s.fault with rtFaults := fs, rtFaultNext := s.fault.rtFaultNext + 1 },
             ctl := { s.ctl with irqStatus := s.ctl.irqStatus ||| 2 } } := by
  unfold State.rtFault
  dsimp only
  generalize eventRecord code core 0 detail s.now = r
  obtain ⟨l, e⟩ := forwardEvent_link (({ s with fault := { s.fault with
    rtFaults := Tab.put s.fault.rtFaults (s.fault.rtFaultNext.toNat % 16) r, rtFaultNext := s.fault.rtFaultNext + 1 } }).irq 1) r
  exact ⟨l, _, e⟩

theorem exec_doorbell_served {s : State} {q : QueueId} (hc : s.ctl.inReset = false) (hs : s.serving = true) (ha : s.awake = true)
    (hq : (s.queue q).cls ≠ 0) (tail : Word) :
    exec (.doorbell q tail) s = .next (State.ringBell { s with ctl := { s.ctl with bells := upd s.ctl.bells q (fun _ => tail) } } q) := by
  rw [exec_doorbell, execDoorbell, if_neg (by simp [hc]), if_neg (by simp [hs, hq])]
  dsimp only
  rw [wake_awake (s := { s with ctl := { s.ctl with bells := upd s.ctl.bells q (fun _ => tail) } }) ha]
  exact if_pos ha

/-- A queue with another TAIL, stopped where that runs past its ring (R268). -/
def Queue.rung (tail : Word) (x : Queue) : Queue :=
  { x with tail := tail, stopped := x.stopped || decide (2 ^ x.slotsLog2.toNat < (tail - x.fetch).toNat) }

theorem Queue.rung_over {x : Queue} {tail : Word} (h : 2 ^ x.slotsLog2.toNat < (tail - x.fetch).toNat) :
    x.rung tail = Queue.halted { x with tail := tail } := by
  unfold Queue.rung Queue.halted
  rw [decide_eq_true h, Bool.or_true]

theorem Queue.rung_within {x : Queue} {tail : Word} (h : ¬ 2 ^ x.slotsLog2.toNat < (tail - x.fetch).toNat) :
    x.rung tail = { x with tail := tail } := by
  unfold Queue.rung
  rw [decide_eq_false h, Bool.or_false]

theorem ringBell_eq (s : State) (q : QueueId) : ∃ l f i, s.ringBell q =
    { s with queues := upd s.queues q (Queue.rung s.ctl.bells[q.val]), link := l, fault := f,
             ctl := { s.ctl with irqStatus := i } } := by
  unfold State.ringBell
  simp only [State.slots, State.posted, queue_modQueue]
  split
  · rename_i h
    obtain ⟨l, f, i, e⟩ := stopQueue_halts (s.modQueue q (fun x => { x with tail := s.ctl.bells[q.val] })) q
    refine ⟨l, f, i, e.trans ?_⟩
    rw [State.modQueue_queues, upd_upd, ← upd_congr (f := Queue.rung s.ctl.bells[q.val]) (Queue.rung_over h)]
    rfl
  · rename_i h
    refine ⟨s.link, s.fault, s.ctl.irqStatus, ?_⟩
    rw [upd_congr (f := Queue.rung s.ctl.bells[q.val]) (g := fun x => { x with tail := s.ctl.bells[q.val] }) (Queue.rung_within h)]
    rfl

theorem exec_rtDoorbell_served {s : State} (hc : s.ctl.inReset = false) (hs : s.serving = true) (ha : s.awake = true) (v : Word) :
    exec (.rtDoorbell v) s = .next (s.rtBell v) := by
  rw [exec_rtDoorbell, execRtDoorbell, if_neg (by simp [hc, hs]), wake_awake ha]
  exact if_pos ha

theorem rtBell_queued {s : State} {v : Word} (harm : s.rt.arm = .armed) (hv : v.toNat < 16) (hslot : s.rt.slotValid.getLsbD v.toNat = true)
    (hpend : s.rt.pend.length < 8) :
    s.rtBell v = { s with rt := { s.rt with pend := s.rt.pend ++ [⟨s.rt.slots.toList.getD v.toNat [], s.now⟩] } } :=
  if_pos ⟨harm, hv, hslot, hpend⟩

theorem rtBell_refused {s : State} {v : Word}
    (h : s.rt.arm ≠ .armed ∨ 16 ≤ v.toNat ∨ s.rt.slotValid.getLsbD v.toNat = false ∨ 8 ≤ s.rt.pend.length) :
    s.rtBell v = s.refuseRtBell v := by
  refine if_neg ?_
  rintro ⟨harm, hv, hslot, hpend⟩
  rcases h with h | h | h | h
  · exact h harm
  · omega
  · exact Bool.false_ne_true (h.symm.trans hslot)
  · omega

/-! ### The statement -/

/-- A doorbell to a queue that is served (R268, R425). -/
theorem doorbell_rings {s : State} {q : QueueId} (hc : s.ctl.inReset = false) (hs : s.serving = true) (ha : s.awake = true)
    (hq : (s.queue q).cls ≠ 0) (tail : Word) : ∃ t, exec (.doorbell q tail) s = .next t ∧ t.ctl.bells[q.val] = tail ∧
      t.ctl.bellsIgnored = s.ctl.bellsIgnored ∧ t.steps = s.steps ∧ (∀ k, k ≠ q → t.queue k = s.queue k) ∧
      t.queue q = (s.queue q).rung tail := by
  have hbell : (upd s.ctl.bells q (fun _ => tail))[q.val] = tail := getElem_upd_self s.ctl.bells q _
  obtain ⟨l, f, i, e⟩ := ringBell_eq { s with ctl := { s.ctl with bells := upd s.ctl.bells q (fun _ => tail) } } q
  refine ⟨_, (exec_doorbell_served hc hs ha hq tail).trans (congrArg Host.Outcome.next e), hbell, rfl, rfl,
    fun k hk => (getElem_upd s.queues q k _).trans (if_neg hk), ?_⟩
  exact (getElem_upd_self s.queues q _).trans (congrArg (fun w => (s.queue q).rung w) hbell)

/-- A doorbell to a queue of class 0 (R279, R425). -/
theorem exec_doorbell_ignored {s : State} {q : QueueId} (hc : s.ctl.inReset = false) (hq : (s.queue q).cls = 0) (tail : Word) :
    exec (.doorbell q tail) s = .next { s with ctl := { s.ctl with bellsIgnored := s.ctl.bellsIgnored + 1 } } := by
  rw [exec_doorbell, execDoorbell, if_neg (by simp [hc]), if_pos (.inr hq)]

section
variable {s u : State} {q : QueueId} {r : ReadResult}

theorem descriptorFetch_accepts {bs : List Byte} (h : s.mayFetch q = true) (hr : s.descRead q r = (u, .data bs))
    (hok : descChecks bs (some ((s.queue q).fetch.toNat, s.slots q)) none = none) : ∃ t, exec (.descriptorFetch q r) s = .next t ∧
      t.fetched = s.fetched ++ [{ queue := q, desc := parseDesc bs }] ∧ t.queue q = (s.queue q).advanced ∧ t.records = s.records ∧
      t.steps = s.steps ∧ t.cores = s.cores ∧ t.journal = s.journal := by
  have hexec := execDescriptorFetch_data h hr
  rw [ReadLogged.slots (readLogged_stewardRead hr nofun) q, hok] at hexec
  obtain ⟨ps, x, d, sc, l, f, c, rfl⟩ := readLogged_stewardRead hr nofun
  exact ⟨_, hexec, rfl, queue_modQueue s q Queue.advanced, rfl, rfl, rfl, rfl⟩

/-- A descriptor is passed over: its refusal takes a record, the steps stay (R238). -/
def PassedOver (s t : State) (q : QueueId) : Prop :=
  t.fetched = s.fetched ∧ (t.queue q).fetch = (s.queue q).fetch + 1 ∧ t.nextRec = s.nextRec + 1 ∧ t.steps = s.steps ∧
    t.cores = s.cores ∧ t.journal = s.journal

theorem passedOver_of_refuseDesc {t : State} (hrec : s.records = []) (h : ReadLogged s t) (qseq : Nat) (status : Byte) (detail : Nat) :
    PassedOver s ((t.advanceFetch q).refuseDesc q qseq status detail) q := by
  obtain ⟨ps, x, d, sc, l, f, c, rfl⟩ := h
  let u : State := { s with ports := ps, xlate := x, deep := d, scrub := sc, link := l, fault := f, ctl := c }
  obtain ⟨hnext, hfetched, hfetch, hsteps, hcores, hjournal⟩ := refuseDesc_refused (s := u.advanceFetch q) hrec q qseq status detail
  exact ⟨hfetched, (hfetch q).trans (fetch_advanceFetch _ q), hnext, hsteps, hcores, hjournal⟩

theorem descriptorFetch_refuses {bs : List Byte} {n : Nat} (h : s.mayFetch q = true) (hr : s.descRead q r = (u, .data bs))
    (hbad : descChecks bs (some ((s.queue q).fetch.toNat, s.slots q)) none = some n) (hrec : s.records = []) :
    ∃ t, exec (.descriptorFetch q r) s = .next t ∧ PassedOver s t q := by
  have hlogged : ReadLogged s u := readLogged_stewardRead hr nofun
  refine ⟨_, (execDescriptorFetch_data h hr).trans ?_, passedOver_of_refuseDesc hrec hlogged (leAt bs 4 4) 0x0D n⟩
  rw [hlogged.slots q, hbad]

theorem descriptorFetch_passes {f : XFault} {a : Nat} (h : s.mayFetch q = true) (hr : s.descRead q r = (u, .fault f a))
    (hrec : s.records = []) : ∃ t, exec (.descriptorFetch q r) s = .next t ∧ PassedOver s t q := by
  obtain ⟨t, w, hlogged, hexec⟩ := execDescriptorFetch_fault h hr
  exact ⟨_, hexec, passedOver_of_refuseDesc hrec ((readLogged_stewardRead hr nofun).trans hlogged) _ _ _⟩

theorem descriptorFetch_stays {err pa : Nat} (h : s.mayFetch q = true) (hr : s.descRead q r = (u, .error err pa))
    (hrec : s.records = []) : ∃ t, exec (.descriptorFetch q r) s = .next t ∧ t.fetched = s.fetched ∧
      (t.queue q).fetch = (s.queue q).fetch ∧ (t.queue q).stopped = true ∧ t.nextRec = s.nextRec + 1 ∧ t.steps = s.steps ∧
      t.cores = s.cores ∧ t.journal = s.journal := by
  obtain ⟨t, w, hlogged, hexec⟩ := execDescriptorFetch_error h hr
  obtain ⟨ps, x, d, sc, l, f, c, rfl⟩ := (readLogged_stewardRead hr nofun).trans hlogged
  obtain ⟨hnext, hfetched, hfetch, hsteps, hcores, hjournal⟩ := (refuseDesc_refused
    (s := { s with ports := ps, xlate := x, deep := d, scrub := sc, link := l, fault := f, ctl := c }) hrec q
    (s.queue q).fetch.toNat w.1 w.2).stopQueue q
  exact ⟨_, hexec, hfetched, hfetch q, stopped_stopQueue _ q, hnext, hsteps, hcores, hjournal⟩

end

/-- Settles O35: the doorbells by what each comes to; DESCRIPTOR_FETCH by the end of its read, which leaves the queues and the steps alone
unless the port is lost (`readLogged_stewardRead`), then by the descriptor's checks. -/
theorem doorbellsAndDescriptors : Obligations.doorbells_and_descriptors := by
  unfold Obligations.doorbells_and_descriptors
  intro s hc hs ha
  refine ⟨fun q tail hq => doorbell_rings hc hs ha hq tail, fun q tail hq => exec_doorbell_ignored hc hq tail, ?_, ?_, ?_, ?_⟩
  · intro q r u e hmay x va hr kept
    refine ⟨?_, ?_, ?_⟩
    · rintro bs rfl
      exact ⟨fun hok => descriptorFetch_accepts hmay hr hok, fun n hbad hrec => descriptorFetch_refuses hmay hr hbad hrec⟩
    · rintro f a rfl hrec
      exact descriptorFetch_passes hmay hr hrec
    · rintro err pa rfl hrec
      exact descriptorFetch_stays hmay hr hrec
  · intro q r henable hrunning hahead
    have hoverrun : s.overrun q = true := by
      rw [State.overrun, hs, ha, henable, decide_eq_true hahead]
      rfl
    obtain ⟨t, ht, hqueues, hhealth, hsteps, -, hcores, -⟩ := stopQueue_running hrunning
    exact ⟨t, ht ▸ exec_descriptorFetch_overrun hoverrun r, hqueues, hhealth, hsteps, hcores⟩
  · intro v harm hv hslot hpend
    rw [exec_rtDoorbell_served hc hs ha, rtBell_queued harm hv hslot hpend]
  · intro v hv
    obtain ⟨l, fs, e⟩ := rtFault_eq { s with rt := { s.rt with refused := s.rt.refused + 1 } } 0x41 none (v.toNat % 16)
    exact ⟨_, (exec_rtDoorbell_served hc hs ha v).trans (congrArg Host.Outcome.next ((rtBell_refused hv).trans e)), rfl, rfl, rfl⟩

end Sys2Proof.Machine

/-!
PROOFS. What health events, kills and retirements leave alone, for lockstep, self-test, stewards, slow and aging cores (R384 to R396).
-/
namespace Sys2Proof.Machine
open Sys2Proof.Safety

/-! ### Bits of the maps -/

theorem getLsbD_putBit {w : Nat} (x : BitVec w) {m : Nat} (hm : m < w) (n : Nat) :
    (putBit x n).getLsbD m = (x.getLsbD m || decide (n = m)) := by
  rw [putBit, BitVec.getLsbD_or, BitVec.getLsbD_ofNat, Nat.testBit_two_pow, decide_eq_true hm, Bool.true_and]

theorem getLsbD_clearBit {w : Nat} (x : BitVec w) {m : Nat} (hm : m < w) (n : Nat) :
    (clearBit x n).getLsbD m = (x.getLsbD m && !decide (n = m)) := by
  rw [clearBit, BitVec.getLsbD_and, BitVec.getLsbD_not, BitVec.getLsbD_ofNat, Nat.testBit_two_pow, decide_eq_true hm, Bool.true_and,
    Bool.true_and]

/-- A bit that is set stays set. -/
theorem getLsbD_putBit_of {w : Nat} {x : BitVec w} {m : Nat} (h : x.getLsbD m = true) (n : Nat) : (putBit x n).getLsbD m = true := by
  rw [getLsbD_putBit x (BitVec.lt_of_getLsbD h), h, Bool.true_or]

/-! ### Events and kills -/

/-- A health event: its record and HEALTH (R398). -/
theorem health_eq (s : State) (code : Nat) (core : Option CoreId) (cluster detail : Nat) : ∃ l h i, s.health code core cluster detail =
    { s with link := l, fault := { s.fault with health := h, healthNext := s.fault.healthNext + 1 },
             ctl := { s.ctl with irqStatus := i } } := by
  unfold State.health
  dsimp only
  generalize eventRecord code core cluster detail s.now = r
  obtain ⟨l, e⟩ := forwardEvent_link (({ s with fault := { s.fault with
    health := Tab.put s.fault.health (s.fault.healthNext.toNat % 64) r, healthNext := s.fault.healthNext + 1 } }).irq 3) r
  exact ⟨l, _, _, e⟩

/-- What kills and the clearing of cores change: cores, runs, transactions, deep scratch with the logs of its detections, and the link. -/
def RunsKilled (s t : State) : Prop :=
  ∃ ks ps po d sc l h n i, t = { s with
    cores := ks, parts := ps, ports := po, deep := d, scrub := sc, link := l
    fault := { s.fault with health := h, healthNext := n }
    ctl := { s.ctl with irqStatus := i } }

theorem RunsKilled.refl (s : State) : RunsKilled s s :=
  ⟨s.cores, s.parts, s.ports, s.deep, s.scrub, s.link, s.fault.health, s.fault.healthNext, s.ctl.irqStatus, rfl⟩

theorem RunsKilled.trans {s t u : State} (h : RunsKilled s t) (g : RunsKilled t u) : RunsKilled s u := by
  obtain ⟨ks, ps, po, d, sc, l, h, n, i, rfl⟩ := h
  obtain ⟨ks', ps', po', d', sc', l', h', n', i', rfl⟩ := g
  exact ⟨ks', ps', po', d', sc', l', h', n', i', rfl⟩

theorem EccLogged.runsKilled {s t : State} (h : EccLogged s t) : RunsKilled s t := by
  obtain ⟨d, sc, l, h, n, i, rfl⟩ := h
  exact ⟨s.cores, s.parts, s.ports, d, sc, l, h, n, i, rfl⟩

theorem runsKilled_health (s : State) (code : Nat) (core : Option CoreId) (cluster detail : Nat) :
    RunsKilled s (s.health code core cluster detail) := (eccLogged_health s code core cluster detail).runsKilled

theorem runsKilled_modCore (s : State) (c : CoreId) (f : Core → Core) : RunsKilled s (s.modCore c f) :=
  ⟨_, s.parts, s.ports, s.deep, s.scrub, s.link, s.fault.health, s.fault.healthNext, s.ctl.irqStatus, rfl⟩

theorem runsKilled_modPart (s : State) (p : PartId) (f : Partition → Partition) : RunsKilled s (s.modPart p f) :=
  ⟨s.cores, _, s.ports, s.deep, s.scrub, s.link, s.fault.health, s.fault.healthNext, s.ctl.irqStatus, rfl⟩

theorem runsKilled_stopRun (s : State) (p : PartId) (why : StopWhy) : RunsKilled s (s.stopRun p why) := by
  unfold State.stopRun
  split
  · exact .refl s
  · split
    · exact .refl s
    · rename_i r _ _ _
      obtain ⟨ks, u, e, ⟨d, sc, l, h, n, i, hu⟩, -, -⟩ := abandonCores_spec r.cores s
      dsimp only
      rw [e, hu]
      exact ⟨ks, _, _, d, sc, _, h, n, i, rfl⟩

theorem runsKilled_killRun (s : State) (p : PartId) (cause : Byte) : RunsKilled s (s.killRun p cause) := by
  unfold State.killRun
  split
  · exact .refl s
  · split
    · exact runsKilled_modPart s p _
    · exact runsKilled_stopRun s p _

theorem runsKilled_killMember (s : State) (c : CoreId) : RunsKilled s (s.killMember c) := by
  unfold State.killMember
  split
  · exact runsKilled_killRun s _ _
  · exact .refl s

theorem runsKilled_preload (s : State) (p : PartId) (img : ImgRec) (cs : List CoreId) : RunsKilled s (s.preload p img cs) := by
  obtain ⟨u, ks, hu, e, -, -⟩ := preload_spec s p img cs
  rw [e]
  exact hu.runsKilled.trans ⟨ks, u.parts, u.ports, u.deep, u.scrub, u.link, u.fault.health, u.fault.healthNext, u.ctl.irqStatus, rfl⟩

/-! ### Retirement (R9, R392) -/

/-- `s` without core `c`: out of the maps and RETIRED, with the spare where that holds its index. -/
def State.without (s : State) (c : CoreId) : State :=
  { s with fault := s.fault.withoutCore c (decide (s.substOf (c.val / 5) = some (c.val % 5))) }

theorem runsKilled_outOfService (s : State) (c : CoreId) (why : Nat) : RunsKilled (s.without c) (s.outOfService c why) :=
  (runsKilled_health (s.without c) 0x03 (some c) 0 why).trans (runsKilled_modCore _ c _)

theorem RunsKilled.without {s t : State} (h : RunsKilled s t) (c : CoreId) : RunsKilled (s.without c) (t.without c) := by
  obtain ⟨ks, ps, po, d, sc, l, h, n, i, rfl⟩ := h
  exact ⟨ks, ps, po, d, sc, l, h, n, i, rfl⟩

/-- A core is retired: its run is killed, it is out of service, and its index may get a spare. -/
theorem retire_eq (s : State) (c : CoreId) (why : Nat) : ∃ u, RunsKilled (s.without c) u ∧ s.retire c why = u.fillIndex c :=
  ⟨_, ((runsKilled_killMember s c).without c).trans (runsKilled_outOfService _ c why), rfl⟩

theorem getLsbD_retired_without (s : State) (c : CoreId) : (s.without c).fault.retired.getLsbD c.val = true := by
  have hout : (putBit s.fault.retired c.val).getLsbD c.val = true := by
    rw [getLsbD_putBit _ c.isLt, decide_eq_true rfl, Bool.or_true]
  unfold State.without FaultSt.withoutCore
  dsimp only
  split
  · exact getLsbD_putBit_of hout _
  · exact hout

/-- The spare of a cluster as the holder of an index of it (R392). -/
theorem substitute_eq (s : State) (cl : ClusterId) (i : Fin 5) : ∃ am, RunsKilled { s with fault := { s.fault with
    coreMap := clearBit (putBit s.fault.coreMap (coreAt cl i).val) (coreAt cl 4).val, arrayMap := am,
    spareSubst := BitVec.ofNat 32 (setFld s.fault.spareSubst.toNat (8 * cl.val + 7) (8 * cl.val) (8 + i.val)) } }
    (s.substitute cl i) := ⟨_, runsKilled_health _ _ _ _ _⟩

/-! ### What a change of members keeps -/

/-- Retirements and borrowed spares leave the pairs, the count of failovers, the health entries and DEGRADED_OK; no RETIRED bit is lost. -/
structure RolesKept (s t : State) : Prop where
  pairs : t.fault.pairs = s.fault.pairs
  failovers : t.fault.failovers = s.fault.failovers
  cores : t.fault.cores = s.fault.cores
  degraded : t.fault.degradedOk = s.fault.degradedOk
  retired : ∀ n, s.fault.retired.getLsbD n = true → t.fault.retired.getLsbD n = true

theorem RolesKept.refl (s : State) : RolesKept s s := ⟨rfl, rfl, rfl, rfl, fun _ h => h⟩

theorem RolesKept.trans {s t u : State} (h : RolesKept s t) (g : RolesKept t u) : RolesKept s u :=
  ⟨g.pairs.trans h.pairs, g.failovers.trans h.failovers, g.cores.trans h.cores, g.degraded.trans h.degraded,
    fun n hn => g.retired n (h.retired n hn)⟩

/-- A state before that differs elsewhere. -/
theorem RolesKept.of_eq {s t u : State} (h : RolesKept t u) (hpairs : t.fault.pairs = s.fault.pairs)
    (hfailovers : t.fault.failovers = s.fault.failovers) (hcores : t.fault.cores = s.fault.cores)
    (hdegraded : t.fault.degradedOk = s.fault.degradedOk) (hretired : t.fault.retired = s.fault.retired) : RolesKept s u :=
  .trans ⟨hpairs, hfailovers, hcores, hdegraded, fun n hn => by rw [hretired]; exact hn⟩ h

theorem RunsKilled.rolesKept {s t : State} (h : RunsKilled s t) : RolesKept s t := by
  obtain ⟨ks, ps, po, d, sc, l, h, n, i, rfl⟩ := h
  exact ⟨rfl, rfl, rfl, rfl, fun _ h => h⟩

theorem rolesKept_without (s : State) (c : CoreId) : RolesKept s (s.without c) := by
  refine ⟨rfl, rfl, rfl, rfl, fun n hn => ?_⟩
  unfold State.without FaultSt.withoutCore
  dsimp only
  split
  · exact getLsbD_putBit_of (getLsbD_putBit_of hn _) _
  · exact getLsbD_putBit_of hn _

theorem rolesKept_rtFault (s : State) (code : Nat) (core : Option CoreId) (detail : Nat) : RolesKept s (s.rtFault code core detail) := by
  obtain ⟨l, fs, e⟩ := rtFault_eq s code core detail
  rw [e]
  exact ⟨rfl, rfl, rfl, rfl, fun _ h => h⟩

/-- Core `c` is retired in `t`; the roles of the others, and the hot spare, are those of `s`. -/
structure Retires (s t : State) (c : CoreId) : Prop where
  kept : RolesKept s t
  hotSpare : t.fault.hotSpare = s.fault.hotSpare
  out : t.fault.retired.getLsbD c.val = true

theorem RunsKilled.hotSpare {s t : State} (h : RunsKilled s t) : t.fault.hotSpare = s.fault.hotSpare := by
  obtain ⟨ks, ps, po, d, sc, l, h, n, i, rfl⟩ := h
  rfl

theorem fillIndex_kept (s : State) (c : CoreId) :
    RolesKept s (s.fillIndex c) ∧ (s.fillIndex c).fault.hotSpare = s.fault.hotSpare := by
  unfold State.fillIndex
  split
  · obtain ⟨am, h⟩ := substitute_eq s (clusterOf c) (indexOf c)
    exact ⟨.of_eq h.rolesKept rfl rfl rfl rfl rfl, h.hotSpare⟩
  · exact ⟨.refl s, rfl⟩

theorem retire_retires (s : State) (c : CoreId) (why : Nat) : Retires s (s.retire c why) c := by
  obtain ⟨u, hu, e⟩ := retire_eq s c why
  obtain ⟨hkept, hspare⟩ := fillIndex_kept u c
  rw [e]
  exact ⟨(rolesKept_without s c).trans (hu.rolesKept.trans hkept), hspare.trans hu.hotSpare,
    hkept.retired _ (hu.rolesKept.retired _ (getLsbD_retired_without s c))⟩

/-- The run of a core that is to be borrowed ends (R391). -/
def State.killRunOf (s : State) (c : CoreId) : State := match s.runOf c with | some p => s.killRun p 0x01 | none => s

/-- A core becomes the hot spare (R391). -/
def State.asHotSpare (s : State) (c : CoreId) : State :=
  ({ s with
      fault := { s.fault with coreMap := clearBit s.fault.coreMap c.val, borrowed := putBit s.fault.borrowed c.val,
                              hotSpare := some (indexOf c), lockstep := 1 }
      power := { s.power with parked := s.power.parked.filter (· ≠ c) } } : State).health 0x13 (some c) 0 (indexOf c).val

/-- The RT image in a core that was borrowed (R391). -/
def State.withRtImage (s : State) (c : CoreId) : State :=
  match s.rtPart with
  | some p => match (s.part p).active with | some i => s.preload p i [c] | none => s
  | none => s

/-- A hot spare is borrowed, or there is none (R391). -/
theorem borrow_eq (s : State) : (∃ c, s.borrow = ((s.killRunOf c).asHotSpare c).withRtImage c) ∨
    s.borrow = ({ s with fault := { s.fault with hotSpare := none, lockstep := 2 } } : State).rtFault 0x44 none 0 := by
  unfold State.borrow
  cases if s.fault.borrowOk then s.borrowCands else [] with
  | nil => exact .inr rfl
  | cons x r => exact .inl ⟨(r.foldl (fun m y => s.betterCand m y) x).1, rfl⟩

theorem rolesKept_killRunOf (s : State) (c : CoreId) : RolesKept s (s.killRunOf c) := by
  unfold State.killRunOf
  split
  · exact (runsKilled_killRun s _ _).rolesKept
  · exact .refl s

theorem rolesKept_asHotSpare (s : State) (c : CoreId) : RolesKept s (s.asHotSpare c) :=
  .of_eq (runsKilled_health _ _ _ _ _).rolesKept rfl rfl rfl rfl rfl

theorem rolesKept_withRtImage (s : State) (c : CoreId) : RolesKept s (s.withRtImage c) := by
  unfold State.withRtImage
  split
  · split
    · exact (runsKilled_preload s _ _ _).rolesKept
    · exact .refl s
  · exact .refl s

theorem rolesKept_borrow (s : State) : RolesKept s s.borrow := by
  rcases borrow_eq s with ⟨c, e⟩ | e
  · rw [e]
    exact (rolesKept_killRunOf s c).trans ((rolesKept_asHotSpare _ c).trans (rolesKept_withRtImage _ c))
  · rw [e]
    exact .of_eq (rolesKept_rtFault _ _ _ _) rfl rfl rfl rfl rfl

end Sys2Proof.Machine
/-!
PROOFS. Lockstep pairs: mismatches, the self-test of their members, failover, degraded single and the halt (R385, R387, R391, R393).
-/
namespace Sys2Proof.Machine
open Sys2Proof.Safety

/-! ### A mismatch (R385, R387) -/

theorem noteInterruption_eq (s : State) (r : RunSt) :
    ∃ x, s.noteInterruption r = { s with fault := { s.fault with faultRunStart := x } } := by
  unfold State.noteInterruption
  split
  · exact ⟨s.fault.faultRunStart, rfl⟩
  · exact ⟨_, rfl⟩

/-- `s` with a mismatch of pair `i` counted and reported, and run `r` noted as interrupted. -/
def State.mismatchLogged (s : State) (i : Fin 2) (r : RunSt) : State :=
  ((s.modFault (fun f => { f with mismatches := f.mismatches + 1 })).rtFault 0x42 none i.val).noteInterruption r

theorem mismatchLogged_eq (s : State) (i : Fin 2) (r : RunSt) : ∃ l fs x, s.mismatchLogged i r = { s with
    link := l
    fault := { s.fault with mismatches := s.fault.mismatches + 1, rtFaults := fs, rtFaultNext := s.fault.rtFaultNext + 1, faultRunStart := x }
    ctl := { s.ctl with irqStatus := s.ctl.irqStatus ||| 2 } } := by
  obtain ⟨l, fs, e⟩ := rtFault_eq (s.modFault (fun f => { f with mismatches := f.mismatches + 1 })) 0x42 none i.val
  obtain ⟨x, ex⟩ := noteInterruption_eq ((s.modFault (fun f => { f with mismatches := f.mismatches + 1 })).rtFault 0x42 none i.val) r
  exact ⟨l, fs, x, ex.trans (by rw [e]; rfl)⟩

theorem mismatch_eq {s : State} {i : Fin 2} {l c : Fin 5} {p : PartId} {r : RunSt} (hlead : (s.fault.pairs[i.val]).lead = some l)
    (hchecker : (s.fault.pairs[i.val]).checker = some c) (hrt : s.rtRun = some (p, r)) :
    s.mismatch i = ((s.mismatchLogged i r).killRun p 0x0A).modPair i (fun y => { y with testing := true }) := by
  unfold State.mismatch
  simp only [hrt, hlead, hchecker]
  rfl

theorem lockstepMismatch_kills {s : State} {i : Fin 2} {l c : Fin 5} {p : PartId} {r : RunSt} {x : StepRec}
    (hlead : (s.fault.pairs[i.val]).lead = some l) (hchecker : (s.fault.pairs[i.val]).checker = some c) (hp : s.rtPart = some p)
    (hrun : Running s p r x) : ∃ t, exec (.lockstepMismatch i) s = .next t ∧ Drains s t p r (.kill 0x0A) ∧
      t.fault.mismatches = s.fault.mismatches + 1 ∧ t.fault.rtFaultNext = s.fault.rtFaultNext + 1 ∧
      (t.fault.pairs[i.val]).testing = true := by
  obtain ⟨hrun, hphase, -⟩ := hrun
  have hrt : s.rtRun = some (p, r) := by simp only [State.rtRun, hp, hrun]
  obtain ⟨lk, fs, z, e⟩ := mismatchLogged_eq s i r
  have hlogged : ((s.mismatchLogged i r).part p).run = some r := by rw [e]; exact hrun
  have hexec := (mismatch_eq hlead hchecker hrt).trans (by rw [killRun_running hlogged hphase])
  obtain ⟨hdrains, -⟩ := stopRun_drains hlogged hphase (.kill 0x0A)
  obtain ⟨ks, ps, po, d, sc, lk', h, n, j, et⟩ := runsKilled_stopRun (s.mismatchLogged i r) p (.kill 0x0A)
  rw [e] at hexec hdrains et
  refine ⟨_, congrArg Host.Outcome.next hexec, ⟨hdrains.run, hdrains.idle, hdrains.cores, hdrains.parts, hdrains.steps, hdrains.queues,
    hdrains.pending⟩, ?_, ?_, congrArg PairSt.testing (getElem_upd_self _ i _)⟩
  · rw [et]
    rfl
  · rw [et]
    rfl

/-! ### The hot spare joins a pair (R387, R391) -/

/-- `s` with other members in pair `i`, the hot spare among them: a failover is counted. -/
def State.joined (s : State) (i : Fin 2) (lead checker : Option (Fin 5)) : State :=
  (s.modPair i (fun y => { y with lead := lead, checker := checker, testing := false })).modFault
    (fun f => { f with hotSpare := none, failovers := f.failovers + 1, failoverOpen := true })

theorem rolesKept_joinSpare (s : State) (i : Fin 2) (lead checker : Option (Fin 5)) :
    RolesKept (s.joined i lead checker) (s.joinSpare i lead checker) := rolesKept_borrow _

/-- A retired member's pair goes on with the hot spare. -/
theorem joinSpare_of_retires {s u : State} {d : CoreId} (h : Retires s u d) (i : Fin 2) (lead checker : Option (Fin 5)) :
    (u.joinSpare i lead checker).fault.retired.getLsbD d.val = true ∧
      ((u.joinSpare i lead checker).fault.pairs[i.val]).lead = lead ∧
      ((u.joinSpare i lead checker).fault.pairs[i.val]).checker = checker ∧
      ((u.joinSpare i lead checker).fault.pairs[i.val]).testing = false ∧
      (u.joinSpare i lead checker).fault.failovers = s.fault.failovers + 1 := by
  have hkept := rolesKept_joinSpare u i lead checker
  have hpair : (u.joinSpare i lead checker).fault.pairs[i.val] =
      { u.fault.pairs[i.val] with lead := lead, checker := checker, testing := false } := by
    rw [hkept.pairs]
    exact getElem_upd_self u.fault.pairs i _
  rw [hpair]
  refine ⟨hkept.retired _ h.out, rfl, rfl, rfl, ?_⟩
  rw [hkept.failovers, ← h.kept.failovers]
  rfl

/-! ### The halt, and degraded single (R393, R394) -/

theorem haltRt_eq (s : State) (reason : Nat) : ∃ l fs n, s.haltRt reason = { s with
    link := l
    fault := { s.fault with lockstep := 4, haltReason := BitVec.ofNat 8 reason, haltedSince := s.now, rtFaults := fs,
                            rtFaultNext := s.fault.rtFaultNext + 1 }
    rt := { s.rt with arm := .halted, pend := [], refused := n }
    ctl := { s.ctl with irqStatus := s.ctl.irqStatus ||| 2 } } := by
  obtain ⟨l, fs, e⟩ := rtFault_eq ({ s with
      fault := { s.fault with lockstep := 4, haltReason := BitVec.ofNat 8 reason, haltedSince := s.now }
      rt := { s.rt with arm := .halted, pend := [], refused := bump s.rt.refused s.rt.pend.length } } : State) 0x46 none reason
  exact ⟨l, fs, _, e⟩

/-- `s` with the self-test of pair `i` over. -/
def State.untested (s : State) (i : Fin 2) : State := s.modPair i (fun y => { y with testing := false })

theorem toList_two {α : Type} (v : Vector α 2) : v.toList = [v[(0 : Fin 2).val], v[(1 : Fin 2).val]] := by
  refine List.ext_getElem (by simp) fun n hn _ => ?_
  match n, hn with
  | 0, _ => rfl
  | 1, _ => rfl
  | n + 2, hn => simp at hn

theorem pairsUp_untested (s : State) (i : Fin 2) : (s.untested i).pairsUp = s.pairsUp := by
  simp only [State.pairsUp, State.untested, State.modPair_fault, toList_two, getElem_upd]
  match i with
  | 0 => rfl
  | 1 => rfl

/-- With one pair standing and no hot spare, the passing member goes on alone where DEGRADED_OK allows it. -/
theorem degrade_single {s : State} (hpairs : s.pairsUp < 2) (i : Fin 2) (a : Fin 5) : s.degrade i (some a) false =
    if s.fault.degradedOk = true then (((s.untested i).modPair i (fun y => { y with lead := some a, checker := none })).modFault
      (fun f => { f with lockstep := 3 })).rtFault 0x45 (some (coreAt 0 a)) a.val
    else (s.untested i).haltRt 2 := by
  have hup : ¬ 2 ≤ (s.untested i).pairsUp := by rw [pairsUp_untested]; omega
  unfold State.degrade
  dsimp only
  rw [if_neg (fun ⟨_, htwo, _⟩ => hup htwo)]
  change (match s.fault.degradedOk, some a with | true, some a => _ | _, _ => _) = _
  cases s.fault.degradedOk <;> rfl

theorem degrade_of_retires {s u : State} {d : CoreId} (h : Retires s u d) (hpairs : s.pairsUp < 2) (i : Fin 2) (a : Fin 5) :
    (u.degrade i (some a) false).fault.retired.getLsbD d.val = true ∧
      ((u.degrade i (some a) false).fault.pairs[i.val]).testing = false ∧
      (s.fault.degradedOk = true → (u.degrade i (some a) false).fault.lockstep = 3 ∧
        ((u.degrade i (some a) false).fault.pairs[i.val]).lead = some a ∧
        ((u.degrade i (some a) false).fault.pairs[i.val]).checker = none) ∧
      (s.fault.degradedOk = false → (u.degrade i (some a) false).rt.arm = .halted ∧ (u.degrade i (some a) false).rt.pend = [] ∧
        (u.degrade i (some a) false).fault.haltReason = 2) := by
  have hup : u.pairsUp < 2 := by
    rw [State.pairsUp, h.kept.pairs]
    exact hpairs
  rw [degrade_single hup, h.kept.degraded]
  cases s.fault.degradedOk with
  | true =>
    obtain ⟨l, fs, e⟩ := rtFault_eq (((u.untested i).modPair i (fun y => { y with lead := some a, checker := none })).modFault
      (fun f => { f with lockstep := 3 })) 0x45 (some (coreAt 0 a)) a.val
    rw [if_pos rfl, e]
    have hpair : (upd (upd u.fault.pairs i (fun y => { y with testing := false })) i (fun y => { y with lead := some a, checker := none }))[i.val] =
        { u.fault.pairs[i.val] with lead := some a, checker := none, testing := false } := by
      rw [upd_upd, getElem_upd_self]
    exact ⟨h.out, congrArg PairSt.testing hpair, fun _ => ⟨rfl, congrArg PairSt.lead hpair, congrArg PairSt.checker hpair⟩, nofun⟩
  | false =>
    obtain ⟨l, fs, n, e⟩ := haltRt_eq (u.untested i) 2
    rw [if_neg nofun, e]
    exact ⟨h.out, congrArg PairSt.testing (getElem_upd_self u.fault.pairs i _), nofun, fun _ => ⟨rfl, rfl, rfl⟩⟩

/-! ### FAILOVER (R384, R387) -/

/-- `s` after a self-test of the pair of `l` and `c` that one member failed, the checker where the lead passed (`b`): it is retired. -/
def State.memberFailed (s : State) (l c : Fin 5) (b : Bool) : State :=
  ((s.tested (coreAt 0 l) b).tested (coreAt 0 c) !b).retire (coreAt 0 (if b then c else l)) 1

theorem memberFailed_retires (s : State) (l c : Fin 5) (b : Bool) :
    Retires ((s.tested (coreAt 0 l) b).tested (coreAt 0 c) !b) (s.memberFailed l c b) (coreAt 0 (if b then c else l)) :=
  retire_retires _ _ 1

section
variable {s : State} {i : Fin 2} {l c : Fin 5} (htesting : (s.fault.pairs[i.val]).testing = true)
  (hlead : (s.fault.pairs[i.val]).lead = some l) (hchecker : (s.fault.pairs[i.val]).checker = some c)
include htesting hlead hchecker

/-- Both members pass for the first time: the pair is kept (R390). -/
theorem failover_unresolved (hstage : (s.fault.pairs[i.val]).stage = 0) : exec (.failover i true true) s =
    .next (((s.tested (coreAt 0 l) true).tested (coreAt 0 c) true).modPair i (fun y => { y with stage := 1, testing := false })) := by
  rw [exec_failover, execFailover]
  simp only [htesting, hlead, hchecker, State.unresolved]
  rw [show (((s.tested (coreAt 0 l) true).tested (coreAt 0 c) true).fault.pairs[i.val]).stage = 0 from hstage]
  rfl

/-- One member fails: the hot spare joins the other one, or the pair is degraded (R387, R393). -/
theorem failover_one (b : Bool) : exec (.failover i b !b) s = .next (match s.fault.hotSpare with
    | some k => (s.memberFailed l c b).joinSpare i (some (if b then l else c)) (some k)
    | none => (s.memberFailed l c b).degrade i (some (if b then l else c)) false) := by
  rw [exec_failover, execFailover]
  simp only [htesting, hlead, hchecker]
  cases b with
  | true => rfl
  | false => rfl

theorem failover_joins {k : Fin 5} (hspare : s.fault.hotSpare = some k) (b : Bool) :
    let t := (s.memberFailed l c b).joinSpare i (some (if b then l else c)) (some k)
    exec (.failover i b !b) s = .next t ∧ t.fault.retired.getLsbD (coreAt 0 (if b then c else l)).val = true ∧
      (t.fault.pairs[i.val]).lead = some (if b then l else c) ∧ (t.fault.pairs[i.val]).checker = some k ∧
      (t.fault.pairs[i.val]).testing = false ∧ t.fault.failovers = s.fault.failovers + 1 := by
  have hexec := failover_one htesting hlead hchecker b
  rw [hspare] at hexec
  exact ⟨hexec, joinSpare_of_retires (memberFailed_retires s l c b) i _ _⟩

theorem failover_degrades (hspare : s.fault.hotSpare = none) (hpairs : s.pairsUp < 2) (b : Bool) :
    let t := (s.memberFailed l c b).degrade i (some (if b then l else c)) false
    exec (.failover i b !b) s = .next t ∧ t.fault.retired.getLsbD (coreAt 0 (if b then c else l)).val = true ∧
      (t.fault.pairs[i.val]).testing = false ∧
      (s.fault.degradedOk = true → t.fault.lockstep = 3 ∧ (t.fault.pairs[i.val]).lead = some (if b then l else c) ∧
        (t.fault.pairs[i.val]).checker = none) ∧
      (s.fault.degradedOk = false → t.rt.arm = .halted ∧ t.rt.pend = [] ∧ t.fault.haltReason = 2) := by
  have hexec := failover_one htesting hlead hchecker b
  rw [hspare] at hexec
  exact ⟨hexec, degrade_of_retires (memberFailed_retires s l c b) hpairs i _⟩

/-- Both members fail: both are out, the service halts. -/
theorem failover_halts : ∃ t, exec (.failover i false false) s = .next t ∧ t.rt.arm = .halted ∧ t.rt.pend = [] ∧ t.fault.haltReason = 1 ∧
    t.fault.retired.getLsbD (coreAt 0 l).val = true ∧ t.fault.retired.getLsbD (coreAt 0 c).val = true := by
  have hl := retire_retires ((s.tested (coreAt 0 l) false).tested (coreAt 0 c) false) (coreAt 0 l) 1
  have hc := retire_retires (((s.tested (coreAt 0 l) false).tested (coreAt 0 c) false).retire (coreAt 0 l) 1) (coreAt 0 c) 1
  obtain ⟨k, fs, n, e⟩ := haltRt_eq (State.untested ((((s.tested (coreAt 0 l) false).tested (coreAt 0 c) false).retire (coreAt 0 l)
    1).retire (coreAt 0 c) 1) i) 1
  refine ⟨_, .trans ?_ (congrArg Host.Outcome.next e), ?_⟩
  · rw [exec_failover, execFailover]
    simp only [htesting, hlead, hchecker]
    rfl
  · exact ⟨rfl, rfl, rfl, hc.kept.retired _ hl.out, hc.out⟩

end

end Sys2Proof.Machine
/-!
PROOFS. Self-test and aging: a core that fails is retired, its index or its place in a pair taken over (R384, R392, R396).
-/
namespace Sys2Proof.Machine
open Sys2Proof.Safety

/-! ### PERIODIC_SELFTEST (R384) -/

theorem exec_periodicSelftest_untestable {s : State} {c : CoreId} (h : s.testable c = false) (b : Bool) (a : BitVec 4) :
    exec (.periodicSelftest c b a) s = .next s := by
  rw [exec_periodicSelftest, execPeriodicSelftest, h]
  rfl

/-- An array that fails is an event of its core; no other health entry changes (R13). -/
theorem disableArray_cores (s : State) (c : CoreId) (j : Nat) :
    (s.disableArray c j).fault.cores = upd s.fault.cores c (fun h => { h with arrayEvents := h.arrayEvents + 1 }) := by
  have hretire : ∀ u : State, (if u.arraysOf c = [] then u.retire c 2 else u).fault.cores = u.fault.cores := by
    intro u
    split
    · exact (retire_retires u c 2).kept.cores
    · rfl
  unfold State.disableArray
  dsimp only
  rw [hretire, (runsKilled_health _ _ _ _ _).rolesKept.cores, ← (runsKilled_killMember s c).rolesKept.cores]
  dsimp only
  congr 1
  split <;> split <;> rfl

/-- `s` with the arrays of a core that failed disabled. -/
def State.withoutArrays (s : State) (c : CoreId) (a : BitVec 4) (js : List Nat) : State :=
  js.foldl (fun s j => if a.getLsbD j ∧ j ∈ s.arraysOf c then s.disableArray c j else s) s

theorem selftestLast_withoutArrays (s : State) (c : CoreId) (a : BitVec 4) (js : List Nat) :
    ((s.withoutArrays c a js).fault.cores[c.val]).selftestLast = (s.fault.cores[c.val]).selftestLast := by
  induction js generalizing s with
  | nil => rfl
  | cons j js ih =>
    refine (ih _).trans ?_
    dsimp only
    split
    · have hentry : ((s.disableArray c j).fault.cores[c.val]).selftestLast =
          ((upd s.fault.cores c (fun h => { h with arrayEvents := h.arrayEvents + 1 }))[c.val]).selftestLast := by
        rw [disableArray_cores]
      rw [hentry, getElem_upd_self]
    · rfl

theorem withoutArrays_zero (s : State) (c : CoreId) (js : List Nat) : s.withoutArrays c 0 js = s := by
  induction js generalizing s with
  | nil => rfl
  | cons j js ih => exact (ih _).trans (if_neg (by simp))

theorem exec_periodicSelftest_passed {s : State} {c : CoreId} (h : s.testable c = true) (a : BitVec 4) :
    exec (.periodicSelftest c true a) s = .next ((s.tested c true).withoutArrays c a (List.range 4)) := by
  rw [exec_periodicSelftest, execPeriodicSelftest, h]
  rfl

theorem periodicSelftest_passed {s : State} {c : CoreId} (h : s.testable c = true) (a : BitVec 4) :
    ∃ t, exec (.periodicSelftest c true a) s = .next t ∧ (t.fault.cores[c.val]).selftestLast = s.power.timebase := by
  refine ⟨_, exec_periodicSelftest_passed h a, (selftestLast_withoutArrays _ c a _).trans ?_⟩
  exact congrArg CoreHealth.selftestLast (getElem_upd_self s.fault.cores c _)

/-- A hot spare that left service is replaced (R391). -/
def State.spareReplaced (s : State) (hot : Bool) : State := if hot then (s.modFault (fun f => { f with hotSpare := none })).borrow else s

theorem rolesKept_spareReplaced (s : State) (hot : Bool) : RolesKept s (s.spareReplaced hot) := by
  unfold State.spareReplaced
  split
  · exact .of_eq (rolesKept_borrow _) rfl rfl rfl rfl rfl
  · exact .refl s

theorem exec_periodicSelftest_failed {s : State} {c : CoreId} (h : s.testable c = true) (a : BitVec 4) :
    exec (.periodicSelftest c false a) s = .next (((s.tested c false).retire c 1).spareReplaced
      (decide (c.val < 5) && decide (s.fault.hotSpare = some (indexOf c)))) := by
  rw [exec_periodicSelftest, execPeriodicSelftest, h]
  rfl

theorem periodicSelftest_failed {s : State} {c : CoreId} (h : s.testable c = true) (a : BitVec 4) :
    ∃ t, exec (.periodicSelftest c false a) s = .next t ∧ t.fault.retired.getLsbD c.val = true ∧
      (t.fault.cores[c.val]).selftestFails = (s.fault.cores[c.val]).selftestFails + 1 := by
  have hout := retire_retires (s.tested c false) c 1
  have hkept := rolesKept_spareReplaced ((s.tested c false).retire c 1) (decide (c.val < 5) && decide (s.fault.hotSpare = some (indexOf c)))
  refine ⟨_, exec_periodicSelftest_failed h a, hkept.retired _ hout.out, ?_⟩
  rw [hkept.cores, hout.kept.cores]
  exact congrArg CoreHealth.selftestFails (getElem_upd_self s.fault.cores c _)

/-! ### A spare takes an index (R392) -/

theorem coreAt_clusterOf (c : CoreId) : coreAt (clusterOf c) (indexOf c) = c :=
  Fin.ext (Nat.div_add_mod c.val 5)

/-- The field of a word that was set reads back; the bit above the index says that there is one. -/
theorem subst_setFld (x : Word) (cl : ClusterId) {i : Nat} (hi : i < 4) :
    let y := (BitVec.ofNat 32 (setFld x.toNat (8 * cl.val + 7) (8 * cl.val) (8 + i))).toNat / 2 ^ (8 * cl.val)
    bitAt y 3 = true ∧ y % 8 = i := by
  have hx := x.isLt
  simp only [setFld, fld, bitAt, beq_iff_eq, BitVec.toNat_ofNat]
  match cl with
  | 0 => norm_num; omega
  | 1 => norm_num; omega
  | 2 => norm_num; omega
  | 3 => norm_num; omega

theorem substOf_setFld {s : State} {x : Word} {cl : ClusterId} {i : Nat} (hi : i < 4)
    (h : s.fault.spareSubst = BitVec.ofNat 32 (setFld x.toNat (8 * cl.val + 7) (8 * cl.val) (8 + i))) : s.substOf cl.val = some i := by
  obtain ⟨hbit, hindex⟩ := subst_setFld x cl hi
  unfold State.substOf
  dsimp only
  rw [h, if_pos hbit, hindex]

/-- The spare of a cluster that holds index `i`. -/
theorem substitute_spec (s : State) (cl : ClusterId) {i : Fin 5} (hi : i.val < 4) :
    (s.substitute cl i).fault.retired = s.fault.retired ∧ (s.substitute cl i).usable (coreAt cl i) = true ∧
      (s.substitute cl i).usable (coreAt cl 4) = false ∧ (s.substitute cl i).substOf cl.val = some i.val := by
  have hne : (coreAt cl 4).val ≠ (coreAt cl i).val := by
    simp only [coreAt, ne_eq, Nat.add_left_cancel_iff]
    exact hi.ne'
  obtain ⟨am, ks, ps, po, d, sc, l, h, n, j, e⟩ := substitute_eq s cl i
  have hmap : (s.substitute cl i).fault.coreMap = clearBit (putBit s.fault.coreMap (coreAt cl i).val) (coreAt cl 4).val := by rw [e]
  refine ⟨by rw [e], ?_, ?_, substOf_setFld hi (by rw [e])⟩
  · rw [State.usable, hmap, getLsbD_clearBit _ (coreAt cl i).isLt, getLsbD_putBit _ (coreAt cl i).isLt]
    simp [hne]
  · rw [State.usable, hmap, getLsbD_clearBit _ (coreAt cl 4).isLt]
    simp

theorem substOf_of_spareFree {s : State} {cl : ClusterId} (h : s.spareFree cl = true) : s.substOf cl.val = none := by
  simp only [State.spareFree, Bool.and_eq_true, Option.isNone_iff_eq_none] at h
  obtain ⟨⟨⟨-, hnone⟩, -⟩, -⟩ := h
  exact hnone

theorem without_fault {s : State} {c : CoreId} (h : s.substOf (clusterOf c).val = none) : ∃ am, s.without c = { s with fault := { s.fault with
    coreMap := clearBit s.fault.coreMap c.val, arrayMap := am, retired := putBit s.fault.retired c.val } } := by
  have hheld : decide (s.substOf (c.val / 5) = some (c.val % 5)) = false := decide_eq_false (by rw [show s.substOf (c.val / 5) = none from h]; nofun)
  unfold State.without
  rw [hheld]
  exact ⟨_, rfl⟩

/-- Another core's retirement leaves the spare free. -/
theorem spareFree_without {s u : State} {c : CoreId} (hindex : (indexOf c).val < 4) (h : s.spareFree (clusterOf c) = true)
    (hu : RunsKilled (s.without c) u) : u.spareFree (clusterOf c) = true := by
  have hne : c.val ≠ (coreAt (clusterOf c) 4).val := by
    simp only [indexOf] at hindex
    simp only [coreAt, clusterOf]
    omega
  have husable : (clearBit s.fault.coreMap c.val).getLsbD (coreAt (clusterOf c) 4).val = s.usable (coreAt (clusterOf c) 4) := by
    rw [getLsbD_clearBit _ (coreAt (clusterOf c) 4).isLt, State.usable, decide_eq_false hne, Bool.not_false, Bool.and_true]
  obtain ⟨am, e⟩ := without_fault (substOf_of_spareFree h)
  rw [e] at hu
  obtain ⟨ks, ps, po, d, sc, l, hl, n, j, rfl⟩ := hu
  rw [← h]
  unfold State.spareFree
  rw [← husable]
  rfl

theorem retire_filled {s : State} {c : CoreId} (hrole : s.rtRole c = false) (hindex : (indexOf c).val < 4)
    (hspare : s.spareFree (clusterOf c) = true) (why : Nat) : (s.retire c why).fault.retired = putBit s.fault.retired c.val ∧
      (s.retire c why).usable c = true ∧ (s.retire c why).usable (coreAt (clusterOf c) 4) = false ∧
      (s.retire c why).substOf (clusterOf c).val = some (indexOf c).val := by
  obtain ⟨u, hu, e⟩ := retire_eq s c why
  obtain ⟨am, ew⟩ := without_fault (substOf_of_spareFree hspare)
  have hfree := spareFree_without hindex hspare hu
  have hkept : u.rtRole c = s.rtRole c ∧ u.fault.retired = putBit s.fault.retired c.val := by
    rw [ew] at hu
    obtain ⟨ks, ps, po, d, sc, l, hl, n, j, rfl⟩ := hu
    exact ⟨rfl, rfl⟩
  obtain ⟨hrole', hretired⟩ := hkept
  have hfill : u.fillIndex c = u.substitute (clusterOf c) (indexOf c) := if_pos ⟨hindex, by rw [hrole', hrole]; rfl, hfree⟩
  obtain ⟨h1, h2, h3, h4⟩ := substitute_spec u (clusterOf c) hindex
  rw [coreAt_clusterOf] at h2
  rw [e, hfill]
  exact ⟨h1.trans hretired, h2, h3, h4⟩

/-! ### The hot spare takes a member's place (R387, R396) -/

/-- A member is the lead or the checker of a pair; the hot spare has its role by itself and is none. -/
theorem find_pair_of_isMember {s : State} {c : CoreId} (h : s.isMember c = true) : ∃ i, (List.finRange 2).find? (fun i =>
    decide ((s.fault.pairs[i.val]).lead = some (indexOf c) ∨ (s.fault.pairs[i.val]).checker = some (indexOf c))) = some i := by
  refine Option.isSome_iff_exists.mp (List.find?_isSome.mpr ?_)
  simp only [State.isMember, State.rtRole, Bool.and_eq_true, Bool.or_eq_true, Bool.not_eq_true', List.any_eq_true, toList_two,
    List.mem_cons, List.not_mem_nil, or_false] at h
  obtain ⟨⟨-, hnot⟩, -, hspare | ⟨y, rfl | rfl, hy⟩⟩ := h
  · rw [hspare] at hnot
    cases hnot
  · exact ⟨0, List.mem_finRange 0, hy⟩
  · exact ⟨1, List.mem_finRange 1, hy⟩

theorem retireMember_joins {s : State} {c : CoreId} {k : Fin 5} (hmember : s.isMember c = true) (hspare : s.fault.hotSpare = some k)
    (why : Nat) : (s.retireMember c why).fault.retired.getLsbD c.val = true ∧
      (s.retireMember c why).fault.failovers = s.fault.failovers + 1 := by
  obtain ⟨i, hi⟩ := find_pair_of_isMember hmember
  have hout := retire_retires s c why
  rw [← hout.kept.pairs] at hi
  have hjoin : ∃ other, (s.retire c why).replaceMember c = (s.retire c why).joinSpare i other (some k) := by
    unfold State.replaceMember
    rw [hi]
    dsimp only
    rw [hout.hotSpare, hspare]
    exact ⟨_, rfl⟩
  obtain ⟨other, e⟩ := hjoin
  obtain ⟨hretired, -, -, -, hfailovers⟩ := joinSpare_of_retires hout i other (some k)
  rw [State.retireMember, if_pos hmember, e]
  exact ⟨hretired, hfailovers⟩

/-! ### AGING_MONITOR_READ (R396) -/

/-- Whether something can take the place of a core that has aged. -/
def State.replaceable (s : State) (c : CoreId) : Bool :=
  if s.isMember c then s.fault.hotSpare.isSome else decide (c.val % 5 < 4) && s.spareFree (clusterOf c)

/-- Whether a margin is an event: it falls below AGING_WARN, or an hour has passed with nothing to take the place. -/
def State.agingWarns (s : State) (c : CoreId) (m : Half) : Bool :=
  decide (m.toNat < s.fault.agingWarn.toNat) && (!(s.fault.cores[c.val]).agingBelow ||
    decide (m.toNat < s.fault.agingRetire.toNat) && !s.replaceable c && decide ((s.fault.cores[c.val]).agingRaised + hourTicks ≤ s.now))

/-- The health entry of a core whose margin was read. -/
def State.margin (s : State) (c : CoreId) (m : Half) (x : CoreHealth) : CoreHealth :=
  { x with aging := m, agingBelow := decide (m.toNat < s.fault.agingWarn.toNat)
           agingRaised := if s.agingWarns c m then s.now else x.agingRaised }

/-- `s` with a margin noted, and its event where it is one. -/
def State.agingNoted (s : State) (c : CoreId) (m : Half) : State :=
  if s.agingWarns c m then (s.modHealth c (s.margin c m)).health 0x05 (some c) 0 m.toNat else s.modHealth c (s.margin c m)

theorem agingMonitorRead_eq (s : State) (c : CoreId) (m : Half) : exec (.agingMonitorRead c m) s =
    .next (if decide (m.toNat < s.fault.agingRetire.toNat) && s.replaceable c && ((s.agingNoted c m).usable c || s.fault.borrowed.getLsbD c.val)
      then (s.agingNoted c m).retireMember c 4 else s.agingNoted c m) := rfl

theorem agingMonitorRead_noted {s : State} {m : Half} (h : s.fault.agingRetire.toNat ≤ m.toNat) (c : CoreId) :
    exec (.agingMonitorRead c m) s = .next (s.agingNoted c m) := by
  rw [agingMonitorRead_eq, decide_eq_false (Nat.not_lt.mpr h)]
  rfl

theorem runsKilled_agingNoted (s : State) (c : CoreId) (m : Half) : RunsKilled (s.modHealth c (s.margin c m)) (s.agingNoted c m) := by
  unfold State.agingNoted
  split
  · exact runsKilled_health _ _ _ _ _
  · exact .refl _

/-- A margin that is noted changes no role. -/
theorem agingNoted_roles (s : State) (c : CoreId) (m : Half) : (s.agingNoted c m).usable = s.usable ∧
    (s.agingNoted c m).rtRole = s.rtRole ∧ (s.agingNoted c m).isMember = s.isMember ∧ (s.agingNoted c m).spareFree = s.spareFree ∧
    (s.agingNoted c m).fault.hotSpare = s.fault.hotSpare ∧ (s.agingNoted c m).fault.retired = s.fault.retired ∧
    (s.agingNoted c m).fault.failovers = s.fault.failovers := by
  obtain ⟨ks, ps, po, d, sc, l, h, n, j, e⟩ := runsKilled_agingNoted s c m
  rw [e]
  exact ⟨rfl, rfl, rfl, rfl, rfl, rfl, rfl⟩

theorem agingMonitorRead_retires {s : State} {c : CoreId} {m : Half} (hlow : m.toNat < s.fault.agingRetire.toNat)
    (husable : s.usable c = true) (hrep : s.replaceable c = true) :
    exec (.agingMonitorRead c m) s = .next ((s.agingNoted c m).retireMember c 4) := by
  obtain ⟨hnoted, -⟩ := agingNoted_roles s c m
  rw [agingMonitorRead_eq, decide_eq_true hlow, hrep, hnoted, husable]
  rfl

theorem agingMonitorRead_calm {s : State} {m : Half} (hwarn : s.fault.agingWarn.toNat ≤ m.toNat) (h : s.fault.agingRetire.toNat ≤ m.toNat)
    (c : CoreId) : exec (.agingMonitorRead c m) s = .next (withHealth s c (fun h => { h with aging := m, agingBelow := false })) := by
  have hbelow : decide (m.toNat < s.fault.agingWarn.toNat) = false := decide_eq_false (Nat.not_lt.mpr hwarn)
  have hquiet : s.agingWarns c m = false := by rw [State.agingWarns, hbelow]; rfl
  have hmargin : s.margin c m = fun h => { h with aging := m, agingBelow := false } := by
    funext x
    rw [State.margin, hquiet, hbelow]
    rfl
  rw [agingMonitorRead_noted h, State.agingNoted, hquiet, hmargin]
  rfl

theorem agingMonitorRead_warns {s : State} {c : CoreId} {m : Half} (hwarn : m.toNat < s.fault.agingWarn.toNat)
    (h : s.fault.agingRetire.toNat ≤ m.toNat) (hfirst : (s.fault.cores[c.val]).agingBelow = false) :
    ∃ t, exec (.agingMonitorRead c m) s = .next t ∧ t.fault.healthNext = s.fault.healthNext + 1 ∧ t.cores = s.cores ∧
      t.fault.cores = (withHealth s c (fun h => { h with aging := m, agingBelow := true, agingRaised := s.now })).fault.cores := by
  have hevent : s.agingWarns c m = true := by rw [State.agingWarns, decide_eq_true hwarn, hfirst]; rfl
  have hmargin : s.margin c m = fun h => { h with aging := m, agingBelow := true, agingRaised := s.now } := by
    funext x
    rw [State.margin, hevent, decide_eq_true hwarn]
    rfl
  obtain ⟨l, hl, i, e⟩ := health_eq (s.modHealth c (s.margin c m)) 0x05 (some c) 0 m.toNat
  refine ⟨_, (agingMonitorRead_noted h c).trans (congrArg Host.Outcome.next (.trans (if_pos hevent) e)), rfl, rfl, ?_⟩
  rw [hmargin]
  rfl

theorem agingMonitorRead_fills {s : State} {c : CoreId} {m : Half} (hlow : m.toNat < s.fault.agingRetire.toNat) (husable : s.usable c = true)
    (hrole : s.rtRole c = false) (hindex : (indexOf c).val < 4) (hspare : s.spareFree (clusterOf c) = true) :
    ∃ t, exec (.agingMonitorRead c m) s = .next t ∧ t.fault.retired = putBit s.fault.retired c.val ∧ t.usable c = true ∧
      t.usable (coreAt (clusterOf c) 4) = false ∧ t.substOf (clusterOf c).val = some (indexOf c).val := by
  have hmember : s.isMember c = false := by rw [State.isMember, hrole, Bool.and_false]
  have hrep : s.replaceable c = true := by
    rw [State.replaceable, hmember, hspare, show decide (c.val % 5 < 4) = true from decide_eq_true hindex]
    rfl
  obtain ⟨-, hrole', hmember', hspare', -, hretired, -⟩ := agingNoted_roles s c m
  have hexec := agingMonitorRead_retires hlow husable hrep
  rw [State.retireMember, hmember', hmember] at hexec
  rw [← hrole'] at hrole
  rw [← hspare'] at hspare
  rw [← hretired]
  exact ⟨_, hexec, retire_filled hrole hindex hspare 4⟩

theorem agingMonitorRead_joins {s : State} {c : CoreId} {m : Half} {k : Fin 5} (hlow : m.toNat < s.fault.agingRetire.toNat)
    (husable : s.usable c = true) (hmember : s.isMember c = true) (hspare : s.fault.hotSpare = some k) :
    ∃ t, exec (.agingMonitorRead c m) s = .next t ∧ t.fault.retired.getLsbD c.val = true ∧ t.fault.failovers = s.fault.failovers + 1 := by
  have hrep : s.replaceable c = true := by
    rw [State.replaceable, if_pos hmember, hspare]
    rfl
  obtain ⟨-, -, hmember', -, hspare', -, hfailovers⟩ := agingNoted_roles s c m
  rw [← hfailovers]
  exact ⟨_, agingMonitorRead_retires hlow husable hrep, retireMember_joins (hmember'.symm ▸ hmember) (hspare'.trans hspare) 4⟩

end Sys2Proof.Machine
/-!
PROOFS. Stewards: a missed heartbeat, the loss of the last one, the one that rejoins (R389, R406, R412); restarts and failed starts.
-/
namespace Sys2Proof.Machine
open Sys2Proof.Safety

/-! ### Starts that begin and fail (R400, R403, R406) -/

theorem holdSettled_eq (s : State) (n : PortId) : ∃ po l f k, s.holdSettled n = { s with ports := po, link := l, fault := f, ctl := k } := by
  unfold State.holdSettled
  split
  · obtain ⟨l, h, i, e⟩ := health_eq (s.modPort n (fun p => { p with settled := false, state := .held })) 0x06 none n.val n.val
    exact ⟨_, l, _, _, e⟩
  · exact ⟨s.ports, s.link, s.fault, s.ctl, rfl⟩

theorem mailboxAbort_ctl (s : State) (code : Nat) : ∃ k, s.mailboxAbort code = { s with ctl := k } := by
  unfold State.mailboxAbort
  split
  · cases s.ctl.latched <;> exact ⟨_, rfl⟩
  · exact ⟨s.ctl, rfl⟩

/-- `s` at its defaults, STARTING with a cause from a slot (R403, R405). -/
def State.startingFrom (s : State) (cause : Nat) (slot : Bool) : State :=
  { s.defaults with
    start := { s.defaults.start with state := .starting, phase := 0, cause := BitVec.ofNat 8 cause, slot := slot,
                                     startTime := s.defaults.now, image := [] }
    power := { s.defaults.power with season := .thaw, pstate := 5, pstReq := 5,
                                     pwrReq := s.defaults.power.pwrReq ||| (s.defaults.build.present &&& ~~~s.defaults.power.pwrAck) } }

/-- A start begins from the defaults; of what the ports, the log and the mailbox did before that the control port's claim is gone (R405). -/
theorem beginStart_eq (s : State) (cause : Nat) (slot : Bool) : ∃ po l f k, s.beginStart cause slot = State.startingFrom
    { s with ports := po, link := l, fault := f, ctl := k } cause slot ∧ k.claim = 0 := by
  obtain ⟨k, ek⟩ := mailboxAbort_ctl (s.holdSettled 0) 6
  obtain ⟨po, l, f, k', es⟩ := holdSettled_eq s 0
  refine ⟨po, l, f, { k with irqStatus := 0, claim := 0, attachWaits := [], waitWalks := false }, ?_, rfl⟩
  unfold State.beginStart
  dsimp only
  rw [ek, es]
  rfl

theorem core_startingFrom (s : State) (cause : Nat) (slot : Bool) (c : CoreId) : (s.startingFrom cause slot).core c = Core.reset :=
  Vector.getElem_replicate c.isLt

theorem run_startingFrom (s : State) (cause : Nat) (slot : Bool) (p : PartId) : ((s.startingFrom cause slot).part p).run = none :=
  congrArg Partition.run (Vector.getElem_replicate (a := Partition.reset) p.isLt)

theorem core_enterMidwinter (s : State) (reason : Nat) (c : CoreId) : (s.enterMidwinter reason).core c = Core.reset :=
  Vector.getElem_replicate c.isLt

/-- Of the record of the starts, a new start and Midwinter keep the count, the log and the next entry. -/
theorem counts_startingFrom (s : State) (cause : Nat) (slot : Bool) : (s.startingFrom cause slot).start.bootCount = s.start.bootCount ∧
    (s.startingFrom cause slot).start.startNext = s.start.startNext ∧ (s.startingFrom cause slot).start.startLog = s.start.startLog :=
  ⟨rfl, rfl, rfl⟩

theorem counts_enterMidwinter (s : State) (reason : Nat) : (s.enterMidwinter reason).start.bootCount = s.start.bootCount ∧
    (s.enterMidwinter reason).start.startNext = s.start.startNext ∧ (s.enterMidwinter reason).start.startLog = s.start.startLog :=
  ⟨rfl, rfl, rfl⟩

theorem restart_restarts (s : State) (cause : Nat) : Restarts s (s.restart cause) (BitVec.ofNat 8 cause) := by
  obtain ⟨po, l, f, k, e, hclaim⟩ := beginStart_eq s cause s.start.nextSlot
  rw [State.restart, e]
  exact { state := rfl, cause := rfl, slot := rfl, phase := rfl, steps := rfl, cores := core_startingFrom _ _ _,
          runs := run_startingFrom _ _ _, deep := rfl, entries := rfl, bootCount := rfl, epoch := rfl,
          slots := ⟨rfl, rfl⟩, claim := hclaim, pins := rfl, timebase := rfl, pending := rfl }

/-- The failed start is recorded and counted (R406). -/
def State.failedStart (s : State) (o : StartOutcome) (detail : Nat) : State :=
  let t := s.startRecord (startCode o) detail
  { t with start := { t.start with bootCount := BitVec.ofNat 2 (min (s.start.bootCount.toNat + 1) 3) } }

theorem startFail_eq (s : State) (o : StartOutcome) (detail : Nat) : s.startFail o detail =
    if 3 ≤ s.start.bootCount.toNat + 1 then (s.failedStart o detail).enterMidwinter (startCode o)
    else (s.failedStart o detail).beginStart 1
      (if slotValid (s.slotRecord (!s.start.slot)) then !s.start.slot else s.start.slot) := rfl

/-- The record and the count of a start that failed, in any state that keeps them. -/
theorem failedStart_recorded {s t : State} {o : StartOutcome} {detail : Nat}
    (h : t.start.bootCount = (s.failedStart o detail).start.bootCount ∧ t.start.startNext = (s.failedStart o detail).start.startNext ∧
      t.start.startLog = (s.failedStart o detail).start.startLog) :
    t.start.bootCount.toNat = min 3 (s.start.bootCount.toNat + 1) ∧ t.start.startNext = s.start.startNext + 1 ∧
      t.start.startLog[s.start.startNext.toNat % 8]'(Nat.mod_lt _ (by decide)) =
        BitVec.ofNat 128 (s.start.cause.toNat + startCode o * 2 ^ 8 + b2n s.start.slot * 2 ^ 16 + detail % 2 ^ 32 * 2 ^ 32 +
          s.start.startTime * 2 ^ 64) := by
  obtain ⟨hcount, hnext, hlog⟩ := h
  refine ⟨?_, hnext, ?_⟩
  · rw [hcount]
    simp only [State.failedStart, BitVec.toNat_ofNat]
    omega
  · simp only [hlog]
    exact Vector.getElem_set_self _

theorem startFail_startFails (s : State) (o : StartOutcome) (detail : Nat) : StartFails s (s.startFail o detail) o detail := by
  rw [startFail_eq]
  by_cases h : 3 ≤ s.start.bootCount.toNat + 1
  · obtain ⟨hcount, hnext, hlog⟩ := failedStart_recorded (counts_enterMidwinter (s.failedStart o detail) (startCode o))
    rw [if_pos h]
    exact { counted := hcount, records := hnext, record := hlog, again := fun hlow => by omega,
            midwinter := fun _ => ⟨rfl, rfl, rfl, rfl, rfl⟩, cores := core_enterMidwinter _ _, steps := rfl, deep := rfl, pins := rfl,
            pending := rfl }
  · obtain ⟨po, l, f, k, e, -⟩ := beginStart_eq (s.failedStart o detail) 1
      (if slotValid (s.slotRecord (!s.start.slot)) then !s.start.slot else s.start.slot)
    obtain ⟨hcount, hnext, hlog⟩ := failedStart_recorded (counts_startingFrom
      { s.failedStart o detail with ports := po, link := l, fault := f, ctl := k } 1
      (if slotValid (s.slotRecord (!s.start.slot)) then !s.start.slot else s.start.slot))
    rw [if_neg h, e]
    exact { counted := hcount, records := hnext, record := hlog, again := fun _ => ⟨rfl, rfl, rfl, rfl⟩,
            midwinter := fun hhigh => by omega, cores := core_startingFrom _ _ _, steps := rfl, deep := rfl, pins := rfl, pending := rfl }

/-! ### STEWARD_HEARTBEAT_MISS (R389) -/

/-- The faults of a steward within the last hour. -/
def State.lateFaults (s : State) (w : Fin 4) : List Nat :=
  (s.fault.stewards[w.val]).faultTimes.filter (fun t => decide (s.now ≤ t + hourTicks))

/-- A steward that misses its heartbeat: a third fault within one hour retires it. -/
def Steward.missed (now : Nat) (late : List Nat) (y : Steward) : Steward :=
  { y with faulted := true, faultTimes := now :: late, retired := decide (2 ≤ late.length) }

/-- `s` with steward `w` faulted, its fault counted and logged. -/
def State.stewardMissed (s : State) (w : Fin 4) : State :=
  ((s.modFault (fun f => { f with stewardFaults := f.stewardFaults + 1 })).modSteward w (Steward.missed s.now (s.lateFaults w))).health
    0x12 none 0 w.val

theorem stewardHeartbeatMiss_eq {s : State} {w : Fin 4} (hfaulted : (s.fault.stewards[w.val]).faulted = false)
    (hretired : (s.fault.stewards[w.val]).retired = false) (hbooted : s.booted = true) : exec (.stewardHeartbeatMiss w) s =
      .next (if (s.stewardMissed w).stewardsUp = [] then (s.stewardMissed w).lastStewardLost else s.stewardMissed w) := by
  have hthird : decide (3 ≤ (s.now :: (s.fault.stewards[w.val]).faultTimes.filter (fun t => decide (s.now ≤ t + hourTicks))).length) =
      decide (2 ≤ (s.lateFaults w).length) := decide_eq_decide.mpr Nat.succ_le_succ_iff
  rw [exec_stewardHeartbeatMiss, execStewardHeartbeatMiss]
  dsimp only
  rw [if_neg (by simp [hfaulted, hretired, hbooted]), hthird]
  rfl

theorem stewardMissed_eq (s : State) (w : Fin 4) : ∃ l h i, s.stewardMissed w = { s with
    link := l
    fault := { s.fault with stewardFaults := s.fault.stewardFaults + 1, stewards := upd s.fault.stewards w (Steward.missed s.now (s.lateFaults w)),
                            health := h, healthNext := s.fault.healthNext + 1 }
    ctl := { s.ctl with irqStatus := i } } :=
  health_eq ((s.modFault (fun f => { f with stewardFaults := f.stewardFaults + 1 })).modSteward w (Steward.missed s.now (s.lateFaults w)))
    0x12 none 0 w.val

/-- No steward but the one that missed its heartbeat carries roles. -/
theorem stewardsUp_missed (s : State) (w : Fin 4) : (s.stewardMissed w).stewardsUp = [] ↔
    ∀ j, j ≠ w → (s.fault.stewards[j.val]).faulted = true ∨ (s.fault.stewards[j.val]).retired = true := by
  obtain ⟨l, h, i, e⟩ := stewardMissed_eq s w
  rw [e, State.stewardsUp, List.filter_eq_nil_iff]
  refine forall_congr' fun j => ?_
  simp only [List.mem_finRange, forall_const, getElem_upd]
  by_cases hj : j = w
  · simp [hj, Steward.missed]
  · simp only [hj, if_false, ne_eq, not_false_eq_true, forall_const]
    cases (s.fault.stewards[j.val]).faulted <;> cases (s.fault.stewards[j.val]).retired <;> decide

theorem stewardHeartbeatMiss_migrates {s : State} {w : Fin 4} (hretired : (s.fault.stewards[w.val]).retired = false)
    (hfaulted : (s.fault.stewards[w.val]).faulted = false) (hbooted : s.booted = true)
    (hup : ∃ j, j ≠ w ∧ (s.fault.stewards[j.val]).faulted = false ∧ (s.fault.stewards[j.val]).retired = false) :
    ∃ t, exec (.stewardHeartbeatMiss w) s = .next t ∧ t.fault.stewardFaults = s.fault.stewardFaults + 1 ∧ t.start = s.start ∧
      t.fault.healthNext = s.fault.healthNext + 1 ∧ t.fault.stewards = upd s.fault.stewards w (Steward.missed s.now (s.lateFaults w)) := by
  obtain ⟨l, h, i, e⟩ := stewardMissed_eq s w
  have hleft : ¬ (s.stewardMissed w).stewardsUp = [] := by
    rw [stewardsUp_missed]
    intro hall
    obtain ⟨j, hj, hf, hr⟩ := hup
    rcases hall j hj with hh | hh
    · exact Bool.false_ne_true (hf.symm.trans hh)
    · exact Bool.false_ne_true (hr.symm.trans hh)
  refine ⟨_, (stewardHeartbeatMiss_eq hfaulted hretired hbooted).trans (congrArg Host.Outcome.next (.trans (if_neg hleft) e)), rfl, rfl, rfl, rfl⟩

/-- The last steward misses its heartbeat. -/
theorem stewardHeartbeatMiss_last {s : State} {w : Fin 4} (hretired : (s.fault.stewards[w.val]).retired = false)
    (hfaulted : (s.fault.stewards[w.val]).faulted = false) (hbooted : s.booted = true)
    (hlast : ∀ j, j ≠ w → (s.fault.stewards[j.val]).faulted = true ∨ (s.fault.stewards[j.val]).retired = true) :
    exec (.stewardHeartbeatMiss w) s = .next (s.stewardMissed w).lastStewardLost := by
  rw [stewardHeartbeatMiss_eq hfaulted hretired hbooted, if_pos ((stewardsUp_missed s w).mpr hlast)]

/-- The fault of a steward is nothing that a start of before keeps. -/
theorem restarts_of_stewardMissed {s t : State} {w : Fin 4} {cause : Byte} (h : Restarts (s.stewardMissed w) t cause) : Restarts s t cause := by
  obtain ⟨l, hl, i, e⟩ := stewardMissed_eq s w
  rw [e] at h
  exact ⟨h.state, h.cause, h.slot, h.phase, h.steps, h.cores, h.runs, h.deep, h.entries, h.bootCount, h.epoch, h.slots, h.claim, h.pins,
    h.timebase, h.pending⟩

theorem startFails_of_stewardMissed {s t : State} {w : Fin 4} {o : StartOutcome} {detail : Nat}
    (h : StartFails (s.stewardMissed w) t o detail) : StartFails s t o detail := by
  obtain ⟨l, hl, i, e⟩ := stewardMissed_eq s w
  rw [e] at h
  exact ⟨h.counted, h.records, h.record, h.again, h.midwinter, h.cores, h.steps, h.deep, h.pins, h.pending⟩

theorem state_stewardMissed (s : State) (w : Fin 4) : (s.stewardMissed w).start.state = s.start.state := by
  obtain ⟨l, h, i, e⟩ := stewardMissed_eq s w
  rw [e]

theorem lastStewardLost_running {s : State} (h : s.start.state = .running) : s.lastStewardLost = s.restart 3 := by
  rw [State.lastStewardLost, h]

theorem lastStewardLost_probation {s : State} (h : s.start.state = .probation) : s.lastStewardLost = s.startFail .stewardLoss 0 := by
  rw [State.lastStewardLost, h]

/-! ### STEWARD_REJOIN (R389, R412) -/

/-- `s` with steward `w` back in its roles. -/
def State.rejoined (s : State) (w : Fin 4) : State := s.modSteward w (fun y => { y with faulted := false })

theorem stewardRejoin_serves {s : State} {w : Fin 4} (hretired : (s.fault.stewards[w.val]).retired = false)
    (hfaulted : (s.fault.stewards[w.val]).faulted = true)
    (h : s.start.update = none ∨ (∃ u, s.start.update = some u ∧ u.cur ≠ w)) : exec (.stewardRejoin w) s = .next (s.rejoined w) := by
  rw [exec_stewardRejoin, execStewardRejoin]
  dsimp only
  rw [if_neg (by simp [hretired, hfaulted])]
  rcases h with h | ⟨u, h, hcur⟩
  · rw [h]
    rfl
  · rw [h]
    exact if_pos hcur.symm

/-- `s` with steward `w` back on the firmware that an update loaded into it. -/
def State.reloaded (s : State) (w : Fin 4) (toB : Bool) : State := s.modSteward w (fun y => { y with faulted := false, onB := toB })

theorem steward_reloaded (s : State) (w : Fin 4) (toB : Bool) :
    (s.reloaded w toB).fault.stewards[w.val] = { s.fault.stewards[w.val] with faulted := false, onB := toB } :=
  getElem_upd_self s.fault.stewards w _

/-- Which steward is next does not depend on the roles of the one that rejoins. -/
theorem nextUpdate_reloaded (s : State) (w : Fin 4) (toB : Bool) (done : List (Fin 4)) :
    (s.reloaded w toB).nextUpdate done = s.nextUpdate done := by
  refine find_congr _ _ (fun j => ?_) _
  have hretired : ((s.reloaded w toB).fault.stewards[j.val]).retired = (s.fault.stewards[j.val]).retired := by
    simp only [State.reloaded, State.modSteward_fault, getElem_upd]
    split
    · rename_i hj
      rw [hj]
    · rfl
  rw [hretired]

theorem ne_of_nextUpdate {s : State} {w n : Fin 4} {done : List (Fin 4)} (h : s.nextUpdate (w :: done) = some n) : w ≠ n := by
  have hnot := List.find?_some h
  rintro rfl
  simp at hnot

theorem stewardRejoin_updates {s : State} {w : Fin 4} {u : Update} (hretired : (s.fault.stewards[w.val]).retired = false)
    (hfaulted : (s.fault.stewards[w.val]).faulted = true) (hu : s.start.update = some u) (hcur : u.cur = w) (hback : u.back = false) :
    exec (.stewardRejoin w) s = .next (match s.nextUpdate (w :: u.done) with
      | some n => ({ s.reloaded w u.toB with start := { s.start with update := some { u with cur := n, done := w :: u.done } } } : State).modSteward n
          (fun y => { y with faulted := true })
      | none => (s.reloaded w u.toB).updateEnd u) := by
  rw [exec_stewardRejoin, execStewardRejoin]
  dsimp only
  rw [if_neg (by simp [hretired, hfaulted]), hu]
  dsimp only
  rw [if_neg (by simp [hcur]), hback]
  change (match (s.reloaded w u.toB).nextUpdate (w :: u.done) with | some n => _ | none => _) = _
  rw [nextUpdate_reloaded]
  cases s.nextUpdate (w :: u.done) <;> rfl

/-- The steward that an update reloaded is back; the update goes on with the next one or ends. -/
theorem stewardRejoin_advances {s : State} {w : Fin 4} {u : Update} (hretired : (s.fault.stewards[w.val]).retired = false)
    (hfaulted : (s.fault.stewards[w.val]).faulted = true) (hu : s.start.update = some u) (hcur : u.cur = w) (hback : u.back = false) :
    ∃ t, exec (.stewardRejoin w) s = .next t ∧ t.cores = s.cores ∧ t.steps = s.steps ∧ (t.fault.stewards[w.val]).faulted = false ∧
      (t.fault.stewards[w.val]).onB = u.toB ∧
      (∀ n, s.nextUpdate (w :: u.done) = some n → t.start.update = some { u with cur := n, done := w :: u.done } ∧
        (t.fault.stewards[n.val]).faulted = true) ∧
      (s.nextUpdate (w :: u.done) = none → t.start.update = none ∧ t.start.updateState = 2 ∧ t.start.activeSlot = u.toB ∧
        t.start.fwVersion = u.version) := by
  have hexec := stewardRejoin_updates hretired hfaulted hu hcur hback
  cases hnext : s.nextUpdate (w :: u.done) with
  | some n =>
    rw [hnext] at hexec
    dsimp only at hexec
    have hw : (upd (s.reloaded w u.toB).fault.stewards n (fun y => { y with faulted := true }))[w.val] =
        { s.fault.stewards[w.val] with faulted := false, onB := u.toB } := by
      rw [getElem_upd, if_neg (ne_of_nextUpdate hnext), steward_reloaded]
    refine ⟨_, hexec, rfl, rfl, congrArg Steward.faulted hw, congrArg Steward.onB hw, ?_, nofun⟩
    intro m hm
    obtain rfl := Option.some.inj hm
    exact ⟨rfl, congrArg Steward.faulted (getElem_upd_self (s.reloaded w u.toB).fault.stewards n _)⟩
  | none =>
    rw [hnext] at hexec
    dsimp only at hexec
    have hw := steward_reloaded s w u.toB
    have hend : ∀ t : State, (t.updateEnd u).start = { t.start with
        update := none, updateState := 2, activeSlot := u.toB, fwVersion := u.version, fwCompat := u.compat } := by
      intro t
      simp only [State.updateEnd, hback]
      rfl
    refine ⟨_, hexec, rfl, rfl, congrArg Steward.faulted hw, congrArg Steward.onB hw, nofun, fun _ => ?_⟩
    rw [hend]
    exact ⟨rfl, rfl, rfl, rfl⟩

end Sys2Proof.Machine
/-!
PROOFS. Slow cores: a window of 16 steps judges the rates (R276); and the statement of lockstep and health.
-/
namespace Sys2Proof.Machine
open Sys2Proof.Safety

/-! ### STRIP_RATE_WINDOW_END (R276) -/

/-- The count of slow windows of a core after one more. -/
def slowWindowsAfter (all : List (Nat × (Nat × Nat))) (x : Nat × (Nat × Nat)) (n : Word) : Word := if slowRate all x = true then n + 1 else 0

/-- A health entry after a slow window. -/
def CoreHealth.slower (y : CoreHealth) : CoreHealth := { y with slowWindows := y.slowWindows + 1, slowEvents := y.slowEvents + 1 }

/-- With SLOW_RETIRE 0 a slow window is counted and logged, and retires nobody. -/
theorem judge_slow {all : List (Nat × (Nat × Nat))} {s : State} {x : Nat × (Nat × Nat)} (h0 : s.fault.slowRetire = 0) (hx : x.1 < 20)
    (hslow : slowRate all x = true) : ∃ l h n i, s.judge all x = { s with
      link := l
      fault := { s.fault with cores := upd s.fault.cores (⟨x.1, hx⟩ : CoreId) CoreHealth.slower, health := h, healthNext := n }
      ctl := { s.ctl with irqStatus := i } } := by
  have hevent : ∃ n, s.judge all x = (s.modHealth ⟨x.1, hx⟩ CoreHealth.slower).health 0x04 (some ⟨x.1, hx⟩) 0 n := by
    refine ⟨(((s.modHealth ⟨x.1, hx⟩ CoreHealth.slower).fault.cores)[x.1]).slowWindows.toNat, ?_⟩
    unfold State.judge
    rw [dif_pos hx, if_pos hslow]
    refine if_neg (fun ⟨hset, _⟩ => hset ?_)
    obtain ⟨l, h, i, e⟩ := health_eq (s.modHealth ⟨x.1, hx⟩ CoreHealth.slower) 0x04 (some ⟨x.1, hx⟩) 0
      (((s.modHealth ⟨x.1, hx⟩ CoreHealth.slower).fault.cores)[x.1]).slowWindows.toNat
    exact (congrArg (fun t : State => t.fault.slowRetire) e).trans h0
  obtain ⟨n, hn⟩ := hevent
  obtain ⟨l, h, i, e⟩ := health_eq (s.modHealth ⟨x.1, hx⟩ CoreHealth.slower) 0x04 (some ⟨x.1, hx⟩) 0 n
  exact ⟨l, h, _, i, hn.trans e⟩

theorem judge_fast {all : List (Nat × (Nat × Nat))} (s : State) {x : Nat × (Nat × Nat)} (hx : x.1 < 20) (hslow : slowRate all x = false) :
    s.judge all x = s.modHealth ⟨x.1, hx⟩ (fun y => { y with slowWindows := 0 }) := by
  unfold State.judge
  rw [dif_pos hx]
  exact if_neg (by rw [hslow]; exact Bool.false_ne_true)

/-- The count of slow windows of one core in the health entries. -/
theorem slowWindows_upd {v : Vector CoreHealth 20} {d : CoreId} {f : CoreHealth → CoreHealth} {g : Word → Word}
    (hf : ∀ y, (f y).slowWindows = g y.slowWindows) (c : CoreId) : ((upd v d f)[c.val]).slowWindows =
      if c.val = d.val then g (v[c.val]).slowWindows else (v[c.val]).slowWindows := by
  rw [getElem_upd]
  by_cases h : c = d
  · rw [if_pos h, if_pos (congrArg Fin.val h), hf, h]
  · rw [if_neg h, if_neg (fun e => h (Fin.ext e))]

/-- One core is judged: with SLOW_RETIRE 0 its count of slow windows is all that goes on from here. -/
theorem judge_spec (all : List (Nat × (Nat × Nat))) {s : State} (h0 : s.fault.slowRetire = 0) (x : Nat × (Nat × Nat)) :
    (s.judge all x).parts = s.parts ∧ (s.judge all x).cores = s.cores ∧ (s.judge all x).fault.slowRetire = 0 ∧
      ∀ c : CoreId, ((s.judge all x).fault.cores[c.val]).slowWindows =
        if c.val = x.1 then slowWindowsAfter all x (s.fault.cores[c.val]).slowWindows else (s.fault.cores[c.val]).slowWindows := by
  by_cases hx : x.1 < 20
  · cases hslow : slowRate all x with
    | true =>
      obtain ⟨l, h, n, i, e⟩ := judge_slow h0 hx hslow
      rw [e]
      refine ⟨rfl, rfl, h0, slowWindows_upd (d := ⟨x.1, hx⟩) fun y => ?_⟩
      rw [slowWindowsAfter, if_pos hslow]
      rfl
    | false =>
      rw [judge_fast s hx hslow]
      refine ⟨rfl, rfl, h0, slowWindows_upd (d := ⟨x.1, hx⟩) fun y => ?_⟩
      rw [slowWindowsAfter, if_neg (by rw [hslow]; exact Bool.false_ne_true)]
  · have hkept : s.judge all x = s := dif_neg hx
    rw [hkept]
    exact ⟨rfl, rfl, h0, fun c => (if_neg (fun e : c.val = x.1 => hx (e ▸ c.isLt))).symm⟩

/-- The cores of a list are judged one after the other, each once. -/
theorem foldl_judge_spec (all xs : List (Nat × (Nat × Nat))) {s : State} (h0 : s.fault.slowRetire = 0) :
    (xs.foldl (fun s x => s.judge all x) s).parts = s.parts ∧ (xs.foldl (fun s x => s.judge all x) s).cores = s.cores ∧
      ((xs.map (·.1)).Nodup → ∀ c : CoreId,
        (c.val ∉ xs.map (·.1) →
          ((xs.foldl (fun s x => s.judge all x) s).fault.cores[c.val]).slowWindows = (s.fault.cores[c.val]).slowWindows) ∧
        ∀ y, (c.val, y) ∈ xs → ((xs.foldl (fun s x => s.judge all x) s).fault.cores[c.val]).slowWindows =
          slowWindowsAfter all (c.val, y) (s.fault.cores[c.val]).slowWindows) := by
  induction xs generalizing s with
  | nil => exact ⟨rfl, rfl, fun _ c => ⟨fun _ => rfl, fun y hy => absurd hy List.not_mem_nil⟩⟩
  | cons x xs ih =>
    obtain ⟨hparts, hcores, hslow, hcount⟩ := judge_spec all h0 x
    obtain ⟨ihparts, ihcores, ihcount⟩ := ih hslow
    refine ⟨ihparts.trans hparts, ihcores.trans hcores, fun hnodup c => ?_⟩
    obtain ⟨hx, hnodup⟩ := List.nodup_cons.mp hnodup
    obtain ⟨hout, hin⟩ := ihcount hnodup c
    refine ⟨fun hc => ?_, fun y hy => ?_⟩
    · obtain ⟨hcx, hc⟩ := not_or.mp (mt List.mem_cons.mpr hc)
      exact (hout hc).trans ((hcount c).trans (if_neg hcx))
    · rcases List.mem_cons.mp hy with rfl | hy
      · exact (hout hx).trans ((hcount c).trans (if_pos rfl))
      · have hcx : c.val ≠ x.1 := fun e => hx (List.mem_map.mpr ⟨_, hy, e⟩)
        refine (hin y hy).trans ?_
        rw [hcount c, if_neg hcx]

/-- The cores that a window has rates of. -/
def State.ratedIn (s : State) (p : PartId) : List (Nat × (Nat × Nat)) := (s.part p).rate.rates.filter (fun y => decide (0 < y.2.2))

theorem stripRateWindowEnd_early {s : State} {p : PartId} (h : (s.part p).rate.steps < 16) : exec (.stripRateWindowEnd p) s = .next s := by
  rw [exec_stripRateWindowEnd, execStripRateWindowEnd, if_pos h]

theorem stripRateWindowEnd_judges {s : State} {p : PartId} (h : 16 ≤ (s.part p).rate.steps) (hlen : 2 ≤ (s.ratedIn p).length)
    (hnodup : ((s.ratedIn p).map (·.1)).Nodup) (h0 : s.fault.slowRetire = 0) :
    ∃ t, exec (.stripRateWindowEnd p) s = .next t ∧ t.parts = upd s.parts p (fun x => { x with rate := ⟨0, []⟩ }) ∧ t.cores = s.cores ∧
      ∀ (c : CoreId) (y : Nat × Nat), (c.val, y) ∈ s.ratedIn p → (t.fault.cores[c.val]).slowWindows =
        slowWindowsAfter (s.ratedIn p) (c.val, y) (s.fault.cores[c.val]).slowWindows := by
  obtain ⟨hparts, hcores, hcount⟩ := foldl_judge_spec (s.ratedIn p) (s.ratedIn p) (s := s.modPart p (fun x => { x with rate := ⟨0, []⟩ })) h0
  refine ⟨_, ?_, hparts, hcores, fun c y hy => ?_⟩
  · rw [exec_stripRateWindowEnd, execStripRateWindowEnd, if_neg (Nat.not_lt.mpr h)]
    exact congrArg Host.Outcome.next (if_pos hlen)
  · obtain ⟨-, hin⟩ := hcount hnodup c
    exact hin y hy

/-! ### The statement -/

/-- Settles O48: a mismatch by `lockstepMismatch_kills`; FAILOVER by what the self-test found (`failover_joins`, `failover_degrades`,
`failover_halts`), a retirement keeping the roles of the others (`retire_retires`); self-test, aging, stewards and rates by their lemmas. -/
theorem lockstepAndHealth : Obligations.lockstep_and_health := by
  unfold Obligations.lockstep_and_health
  intro s
  refine ⟨fun i l c hlead hchecker => ⟨fun p r x hp hrun => lockstepMismatch_kills hlead hchecker hp hrun, fun htesting => ?_⟩,
    fun c => ⟨fun h => ⟨?_, periodicSelftest_passed h, periodicSelftest_failed h⟩, exec_periodicSelftest_untestable,
      fun m hwarn hlow => agingMonitorRead_calm hwarn hlow c, fun m => agingMonitorRead_warns, fun m => agingMonitorRead_fills,
      fun m k => agingMonitorRead_joins⟩,
    fun w hretired => ⟨fun hfaulted hbooted => ⟨?_, fun hlast => ⟨fun hstate => ?_, fun hstate => ?_⟩⟩,
      fun hfaulted => ⟨stewardRejoin_serves hretired hfaulted, fun u => stewardRejoin_advances hretired hfaulted⟩⟩,
    fun p => ⟨stripRateWindowEnd_early, stripRateWindowEnd_judges⟩⟩
  · refine ⟨failover_unresolved htesting hlead hchecker, fun k hspare => ?_, fun k hspare => ?_, fun b hspare hpairs => ?_,
      failover_halts htesting hlead hchecker⟩
    · exact ⟨_, failover_joins htesting hlead hchecker hspare false⟩
    · exact ⟨_, failover_joins htesting hlead hchecker hspare true⟩
    · have hdegrades := failover_degrades htesting hlead hchecker hspare hpairs b
      cases b
      · exact ⟨_, hdegrades⟩
      · exact ⟨_, hdegrades⟩
  · exact (exec_periodicSelftest_passed h 0).trans (congrArg Host.Outcome.next (withoutArrays_zero _ c _))
  · exact stewardHeartbeatMiss_migrates hretired hfaulted hbooted
  · have hexec := stewardHeartbeatMiss_last hretired hfaulted hbooted hlast
    rw [lastStewardLost_running ((state_stewardMissed s w).trans hstate)] at hexec
    exact ⟨_, hexec, restarts_of_stewardMissed (restart_restarts _ 3)⟩
  · have hexec := stewardHeartbeatMiss_last hretired hfaulted hbooted hlast
    rw [lastStewardLost_probation ((state_stewardMissed s w).trans hstate)] at hexec
    exact ⟨_, hexec, startFails_of_stewardMissed (startFail_startFails _ .stewardLoss 0)⟩

end Sys2Proof.Machine

/-!
PROOFS. What the loss of a memory port does to the ports, to the runs of its cluster and to the logs (R247, R296, R298, R398).
-/
namespace Sys2Proof.Machine
open Sys2Proof.Safety

/-! ### Health events -/

/-- A health event, with HEALTH raised (R398). -/
theorem health_raises (s : State) (code : Nat) (core : Option CoreId) (cluster detail : Nat) : ∃ l h, s.health code core cluster detail =
    { s with link := l, fault := { s.fault with health := h, healthNext := s.fault.healthNext + 1 },
             ctl := { s.ctl with irqStatus := s.ctl.irqStatus ||| 8 } } := by
  unfold State.health
  dsimp only
  generalize eventRecord code core cluster detail s.now = r
  obtain ⟨l, e⟩ := forwardEvent_link (({ s with fault := { s.fault with
    health := Tab.put s.fault.health (s.fault.healthNext.toNat % 64) r, healthNext := s.fault.healthNext + 1 } }).irq 3) r
  exact ⟨l, _, e⟩

/-- Status bit 3 is raised with HEALTH (Table 19-8). -/
theorem getLsbD_or_eight (x : Byte) : (x ||| 8).getLsbD 3 = true := by
  rw [BitVec.getLsbD_or]
  exact Bool.or_true _

/-! ### Runs that end, as the ports and the other partitions see it -/

/-- A port whose transactions are changed one by one. -/
def Port.mapTxns (g : Txn → Txn) (q : Port) : Port := { q with txns := q.txns.map g }

theorem Port.mapTxns_id (q : Port) : q.mapTxns id = q := by
  rw [Port.mapTxns, List.map_id]

theorem Port.mapTxns_mapTxns (g h : Txn → Txn) (q : Port) : (q.mapTxns g).mapTxns h = q.mapTxns (h ∘ g) := by
  simp only [Port.mapTxns, List.map_map]

/-- A run of partition `p` was stopped or ended: other partitions stay, of the ports only transactions change, one by one; PCLK's reset
is no matter of runs (R247). -/
structure RunLeft (s t : State) (p : PartId) : Prop where
  ports : ∃ g : Txn → Txn, ∀ k : PortId, t.port k = (s.port k).mapTxns g
  parts : ∀ k : PartId, k ≠ p → t.part k = s.part k
  clock : t.ctl.inReset = s.ctl.inReset

theorem RunLeft.of_ports {s t : State} {p : PartId} (h : t.ports = s.ports) (hparts : ∀ k : PartId, k ≠ p → t.part k = s.part k)
    (hclock : t.ctl.inReset = s.ctl.inReset) : RunLeft s t p :=
  ⟨⟨id, fun k => by rw [Port.mapTxns_id, State.port, State.port, h]⟩, hparts, hclock⟩

theorem RunLeft.of_eq {s t : State} (p : PartId) (h : t.ports = s.ports) (hparts : t.parts = s.parts)
    (hclock : t.ctl.inReset = s.ctl.inReset) : RunLeft s t p :=
  .of_ports h (fun k _ => by rw [State.part, State.part, hparts]) hclock

theorem RunLeft.trans {s t u : State} {p : PartId} (h : RunLeft s t p) (g : RunLeft t u p) : RunLeft s u p := by
  obtain ⟨⟨a, ha⟩, hparts, hclock⟩ := h
  obtain ⟨⟨b, hb⟩, gparts, gclock⟩ := g
  exact ⟨⟨b ∘ a, fun k => by rw [hb, ha, Port.mapTxns_mapTxns]⟩, fun k hk => (gparts k hk).trans (hparts k hk), gclock.trans hclock⟩

theorem runLeft_settleSeason (s : State) (p : PartId) : RunLeft s s.settleSeason p := by
  unfold State.settleSeason
  split
  · dsimp only
    split <;> exact .of_eq p rfl rfl rfl
  · exact .of_eq p rfl rfl rfl

theorem runLeft_modPart (s : State) (p : PartId) (f : Partition → Partition) : RunLeft s (s.modPart p f) p :=
  .of_ports rfl (fun _ hk => part_modPart_ne s p _ f hk) rfl

theorem runLeft_stopRun (s : State) (p : PartId) (why : StopWhy) : RunLeft s (s.stopRun p why) p := by
  unfold State.stopRun
  split
  · exact .of_eq p rfl rfl rfl
  · split
    · exact .of_eq p rfl rfl rfl
    · rename_i r _ _ _
      obtain ⟨ks, u, e, ⟨d, sc, l, h, n, i, hu⟩, -, -⟩ := abandonCores_spec r.cores s
      dsimp only
      rw [e, hu]
      exact ⟨⟨fun t => t.abandon p r.cores, fun k => Vector.getElem_map ..⟩, fun k hk => part_modPart_ne _ p k _ hk, rfl⟩

theorem runLeft_killRun (s : State) (p : PartId) (cause : Byte) : RunLeft s (s.killRun p cause) p := by
  unfold State.killRun
  split
  · exact .of_eq p rfl rfl rfl
  · split
    · exact runLeft_modPart s p _
    · exact runLeft_stopRun s p _

theorem runLeft_failStep (s : State) (a : Nat) (status : Byte) (detail : Nat) (p : PartId) : RunLeft s (s.failStep a status detail) p := by
  cases h : s.step? a with
  | none =>
    unfold State.failStep
    rw [h]
    exact .of_eq p rfl rfl rfl
  | some x =>
    obtain ⟨⟨st, j, ss, y, e, -⟩, -⟩ := failStep_eq h status detail
    rw [e]
    exact .of_eq p rfl rfl rfl

theorem runLeft_endKilled (s : State) (p : PartId) (cause : Byte) : RunLeft s (s.endKilled p cause) p := by
  cases hr : (s.part p).run with
  | none =>
    unfold State.endKilled
    rw [hr]
    exact .of_eq p rfl rfl rfl
  | some r =>
    cases hx : s.step? r.aseq with
    | none =>
      obtain ⟨ks, rt, e, -⟩ := closeRun_eq s p r
      unfold State.endKilled
      rw [hr]
      dsimp only
      rw [hx]
      dsimp only
      have hover : RunLeft s (s.closeRun p r) p := by
        rw [e]
        exact .of_ports rfl (fun k hk => part_modPart_ne s p k _ hk) rfl
      exact hover.trans (runLeft_settleSeason _ p)
    | some x =>
      obtain ⟨hfreed, ks, rt, qs, pt, e, -⟩ := closeRun_charge s p x.queue (r.cores.length * r.cclk) true r
      rw [endKilled_eq hr hx]
      dsimp only
      have hover : RunLeft s ((s.charge p x.queue (r.cores.length * r.cclk) true).closeRun p r) p :=
        .of_ports (by rw [e]) hfreed.parts (by rw [e])
      generalize (s.charge p x.queue (r.cores.length * r.cclk) true).closeRun p r = u at hover ⊢
      obtain ⟨st, j, ek⟩ := killed_eq u r x cause
      have hkilled : RunLeft u (u.killed r x cause) p := by
        rw [ek]
        exact .of_eq p rfl rfl rfl
      generalize u.killed r x cause = v at hkilled ⊢
      refine (hover.trans hkilled).trans (.trans ?_ (runLeft_settleSeason _ p))
      split
      · exact .of_eq p rfl rfl rfl
      · exact runLeft_failStep _ _ _ _ p

theorem runLeft_commitLost (s : State) (p : PartId) (status : Byte) : RunLeft s (s.commitLost p status) p :=
  .trans (t := { s with records := s.records.filterMap (fun (r : PendRec) =>
    if r.part = p ∧ r.commits.isSome then (if r.walk.isSome then some r.forget else none) else some r) })
    (.of_eq p rfl rfl rfl) (runLeft_endKilled _ p status)

/-! ### The loss of a port (R298) -/

/-- A port that is lost. -/
def Port.lost (st : PortState) (q : Port) : Port :=
  { q with state := st, txns := [], order := [], settled := false, linkDrops := q.linkDrops + 1 }

/-- What the loss of port `n` does to the run of one partition. -/
def State.loseRun (n : PortId) (s : State) (p : PartId) : State :=
  match (s.part p).run with
  | none => s
  | some r =>
    if !(s.maskMeets p n.val || (s.runPorts r).getLsbD n.val ||
        s.records.any (fun x => decide (x.part = p) && x.commits.isSome && decide (s.partPort p = n))) then s
    else if r.phase = .commit then s.commitLost p 0x09
    else s.killRun p 0x09

/-- What waits for a port that was lost begins anew. -/
def PendRec.unsent (r : PendRec) : PendRec := { r with issued := false, wrDone := false, flDone := false, walk := none }

theorem portLost_eq (s : State) (n : PortId) (st : PortState) : s.portLost n st =
    let u := (allParts.foldl (State.loseRun n) (s.modPort n (Port.lost st))).dropLoads n
    let v := { u with records := u.records.map (fun (r : PendRec) => if u.partPort r.part = n then r.unsent else r) }
    v.health 0x06 none n.val n.val := rfl

/-- A run that is killed and drains (R249). -/
def RunSt.killedBy (r : RunSt) (cause : Byte) : RunSt := { r with phase := .draining (.kill cause), stopCclk := 0 }

theorem runLeft_loseRun (n : PortId) (s : State) (p : PartId) : RunLeft s (s.loseRun n p) p := by
  unfold State.loseRun
  split
  · exact .of_eq p rfl rfl rfl
  · split
    · exact .of_eq p rfl rfl rfl
    · split
      · exact runLeft_commitLost s p _
      · exact runLeft_killRun s p _

theorem maskMeets_congr {s t : State} {p : PartId} (h : t.part p = s.part p) (n : Nat) : t.maskMeets p n = s.maskMeets p n := by
  unfold State.maskMeets
  rw [h]

/-- A running run of the port's cluster is killed with 0x09. -/
theorem run_loseRun {n : PortId} {s : State} {p : PartId} {r : RunSt} (hrun : (s.part p).run = some r) (hphase : r.phase = .running)
    (hmask : s.maskMeets p n.val = true) : ((s.loseRun n p).part p).run = some (r.killedBy 0x09) := by
  have hcommit : r.phase ≠ .commit := by rw [hphase]; exact nofun
  unfold State.loseRun
  rw [hrun]
  dsimp only
  rw [hmask, if_neg (by simp), if_neg hcommit, killRun_running hrun hphase]
  exact (stopRun_drains hrun hphase _).1.run

/-- The runs of a list of partitions, one after the other. -/
theorem ports_loseRuns (n : PortId) (ps : List PartId) (s : State) :
    (∃ g : Txn → Txn, ∀ k : PortId, (ps.foldl (State.loseRun n) s).port k = (s.port k).mapTxns g) ∧
      (ps.foldl (State.loseRun n) s).ctl.inReset = s.ctl.inReset := by
  induction ps generalizing s with
  | nil => exact ⟨⟨id, fun k => (Port.mapTxns_id _).symm⟩, rfl⟩
  | cons p ps ih =>
    obtain ⟨⟨g, hg⟩, -, hclock⟩ := runLeft_loseRun n s p
    obtain ⟨⟨h, hh⟩, ihclock⟩ := ih (s.loseRun n p)
    exact ⟨⟨h ∘ g, fun k => by rw [List.foldl_cons, hh, hg, Port.mapTxns_mapTxns]⟩, ihclock.trans hclock⟩

theorem part_loseRuns_other (n : PortId) {ps : List PartId} {p : PartId} (h : p ∉ ps) (s : State) :
    (ps.foldl (State.loseRun n) s).part p = s.part p := by
  induction ps generalizing s with
  | nil => rfl
  | cons q ps ih =>
    obtain ⟨hpq, hps⟩ := not_or.mp (mt List.mem_cons.mpr h)
    rw [List.foldl_cons, ih hps, (runLeft_loseRun n s q).parts p hpq]

theorem run_loseRuns {n : PortId} {ps : List PartId} {p : PartId} (hnodup : ps.Nodup) (h : p ∈ ps) {s : State} {r : RunSt}
    (hrun : (s.part p).run = some r) (hphase : r.phase = .running) (hmask : s.maskMeets p n.val = true) :
    ((ps.foldl (State.loseRun n) s).part p).run = some (r.killedBy 0x09) := by
  induction ps generalizing s with
  | nil => exact absurd h List.not_mem_nil
  | cons q ps ih =>
    obtain ⟨hq, hnodup⟩ := List.nodup_cons.mp hnodup
    rw [List.foldl_cons]
    by_cases hpq : p = q
    · rw [← hpq, part_loseRuns_other n (hpq ▸ hq), run_loseRun hrun hphase hmask]
    · have hpart := (runLeft_loseRun n s q).parts p hpq
      exact ih hnodup ((List.mem_cons.mp h).resolve_left hpq) (by rw [hpart, hrun]) (by rw [maskMeets_congr hpart, hmask])

/-- Loads that end early move deep scratch, the weight sets and the status bits alone (R327). -/
theorem dropLoads_eq (s : State) (n : PortId) : ∃ d ss i, s.dropLoads n =
    { s with deep := d, sets := ss, ctl := { s.ctl with irqStatus := i } } := by
  have hfail : ∀ (t : State) i r cause, ∃ d ss b, t.failVersion i r cause =
      { t with deep := d, sets := ss, ctl := { t.ctl with irqStatus := b } } := by
    intro t i r cause
    have hput : ∀ (xs : List Nat) (u : State) (f : Nat → Nat) (g : Nat → Byte),
        ∃ d, xs.foldl (fun s i => s.deepPut (f i) (g i)) u = { u with deep := d } := by
      intro xs
      induction xs with
      | nil => exact fun u f g => ⟨u.deep, rfl⟩
      | cons x xs ih => exact fun u f g => ih (u.deepPut (f x) (g x)) f g
    obtain ⟨d, e⟩ := hput (List.range r.2) { t with deep := { t.deep with losses := t.deep.losses + 1 } } (r.1 + ·)
      (fun k => Config.lostByte t.deep.losses (r.1 + k))
    unfold State.failVersion State.deepScramble
    dsimp only
    rw [e]
    exact ⟨d, _, _, rfl⟩
  have key : ∀ (xs : List (Fin 256)) (t : State), ∃ d ss b, xs.foldl (fun s i =>
      match (s.sets.slots[i.val]).pending with
      | some v =>
        if (s.sets.slots[i.val]).pendState = .loading ∧ overlap (verRegion v.record) (s.sliceRegion n.val) then
          s.failVersion i (verRegion v.record) 2
        else s
      | none => s) t = { t with deep := d, sets := ss, ctl := { t.ctl with irqStatus := b } } := by
    intro xs
    induction xs with
    | nil => exact fun t => ⟨t.deep, t.sets, t.ctl.irqStatus, rfl⟩
    | cons i xs ih =>
      intro t
      rw [List.foldl_cons]
      split
      · split
        · rename_i v _ _
          obtain ⟨d, ss, b, e⟩ := hfail t i (verRegion v.record) 2
          rw [e]
          exact ih { t with deep := d, sets := ss, ctl := { t.ctl with irqStatus := b } }
        · exact ih t
      · exact ih t
  exact key (List.finRange 256) s

/-- What a loss of port `n` leaves. -/
structure PortLost (s t : State) (n : PortId) (st : PortState) : Prop where
  port : t.port n = (s.port n).lost st
  others : ∀ k : PortId, k ≠ n → ∃ g : Txn → Txn, t.port k = (s.port k).mapTxns g
  irq : t.ctl.irqStatus.getLsbD 3 = true
  clock : t.ctl.inReset = s.ctl.inReset
  runs : ∀ p r, (s.part p).run = some r → r.phase = .running → s.maskMeets p n.val = true → (t.part p).run = some (r.killedBy 0x09)

/-- The port is lost with its transactions, the runs of its cluster are killed, a health event is logged (R298). -/
theorem portLost_spec (s : State) (n : PortId) (st : PortState) : PortLost s (s.portLost n st) n st := by
  rw [portLost_eq]
  dsimp only
  have hports := ports_loseRuns n allParts (s.modPort n (Port.lost st))
  have hruns : ∀ p r, (s.part p).run = some r → r.phase = .running → s.maskMeets p n.val = true →
      ((allParts.foldl (State.loseRun n) (s.modPort n (Port.lost st))).part p).run = some (r.killedBy 0x09) :=
    fun p r hrun hphase hmask =>
      run_loseRuns (s := s.modPort n (Port.lost st)) (List.nodup_finRange 8) (List.mem_finRange p) hrun hphase hmask
  generalize allParts.foldl (State.loseRun n) (s.modPort n (Port.lost st)) = u at hports hruns ⊢
  obtain ⟨⟨g, hg⟩, hclock⟩ := hports
  obtain ⟨d, ss, i, ed⟩ := dropLoads_eq u n
  rw [ed]
  obtain ⟨l, h, eh⟩ := health_raises { u with
    deep := d, sets := ss, ctl := { u.ctl with irqStatus := i }
    records := u.records.map (fun (r : PendRec) =>
      if State.partPort { u with deep := d, sets := ss, ctl := { u.ctl with irqStatus := i } } r.part = n then r.unsent else r) }
    0x06 none n.val n.val
  rw [eh]
  refine ⟨(hg n).trans ?_, fun k hk => ⟨g, (hg k).trans ?_⟩, ?_, hclock, hruns⟩
  · rw [port_modPort]
    rfl
  · rw [port_modPort_ne _ _ _ _ hk]
  · exact getLsbD_or_eight _

end Sys2Proof.Machine

/-!
PROOFS. Ports as their links, their timeouts and the host move them, and the PCLK reset (R296, R298, R299, R365, R422, R428, R451):
`port_states`.
-/
namespace Sys2Proof.Machine
open Sys2Proof.Safety

/-! ### Ports that change -/

theorem modPort_modPort (s : State) (n : PortId) (f g : Port → Port) :
    (s.modPort n f).modPort n g = s.modPort n (fun q => g (f q)) := by
  simp [State.modPort, upd]

/-- A port in another state. -/
def Port.at (st : PortState) (q : Port) : Port := { q with state := st }

theorem portRises_still {s : State} (h : s.records = []) (n : PortId) : s.portRises n = s.modPort n (Port.at .up) := driveRecords_nil h

/-! ### Timeouts, falls and rises (R296, R298, R299) -/

/-- What a loss of port `n` shows at the port, in the status bits and in the runs of its cluster. -/
def LossSeen (s t : State) (n : PortId) : Prop :=
  (t.port n).txns = [] ∧ (t.port n).linkDrops = (s.port n).linkDrops + 1 ∧ t.ctl.irqStatus.getLsbD 3 = true ∧
    ∀ p r, (s.part p).run = some r → r.phase = .running → s.maskMeets p n.val = true → (t.part p).run = some (r.killedBy 0x09)

theorem lossSeen_portLost (s : State) (n : PortId) (st : PortState) :
    LossSeen s (s.portLost n st) n ∧ ((s.portLost n st).port n).state = st := by
  obtain ⟨hport, -, hirq, -, hruns⟩ := portLost_spec s n st
  rw [LossSeen, hport]
  exact ⟨⟨rfl, rfl, hirq, hruns⟩, rfl⟩

theorem exec_portTimeout_open {s : State} {n : PortId} {id : Byte} {x : Txn} (h : s.txn? n id = some x) :
    exec (.portTimeout n id) s = .next (s.portLost n .failed) := by
  rw [exec_portTimeout, execPortTimeout, h]

theorem linkFall_carried {s : State} {n : PortId} (h : (s.port n).state = .up ∨ (s.port n).state = .held ∨ (s.port n).state = .settling) :
    s.linkFall n = s.portLost n .down := by
  unfold State.linkFall
  rcases h with h | h | h <;> rw [h]

theorem linkFall_down {s : State} {n : PortId} (h : (s.port n).state = .down) : s.linkFall n = s := by
  rw [State.linkFall, h]

theorem exec_linkUpFall_present {s : State} {n : PortId} (hn : n.val < s.build.c) :
    exec (.linkUpFall n) s = .next ((s.linkFall n).modPort n (fun q => { q with linkUp := false })) := by
  rw [exec_linkUpFall, execLinkUpFall, if_neg (by omega)]

theorem linkRise_lost {s : State} {n : PortId} (h : (s.port n).state = .down ∨ (s.port n).state = .failed) :
    s.linkRise n = s.modPort n (Port.at .settling) := by
  unfold State.linkRise
  rcases h with h | h <;> rw [h] <;> rfl

theorem exec_linkUpRise_supplied {s : State} {n : PortId} (hn : n.val < s.build.c) (hack : s.power.pwrAck.getLsbD n.val = true)
    (hclock : s.ctl.inReset = false) (h : (s.port n).state = .down ∨ (s.port n).state = .failed) :
    exec (.linkUpRise n) s = .next (s.modPort n (fun q => { q with state := .settling, linkUp := true })) := by
  have hstate : ((s.modPort n (fun q => { q with linkUp := true })).port n).state = .down ∨
      ((s.modPort n (fun q => { q with linkUp := true })).port n).state = .failed := by
    rw [port_modPort]
    exact h
  rw [exec_linkUpRise, execLinkUpRise, if_neg (by omega)]
  dsimp only
  rw [State.modPort_power, State.modPort_ctl, hack, hclock, linkRise_lost hstate, modPort_modPort]
  rfl

theorem exec_linkUpRise_unsupplied {s : State} {n : PortId} (hn : n.val < s.build.c) (hack : s.power.pwrAck.getLsbD n.val = false) :
    exec (.linkUpRise n) s = .next (s.modPort n (fun q => { q with linkUp := true })) := by
  rw [exec_linkUpRise, execLinkUpRise, if_neg (by omega)]
  dsimp only
  rw [State.modPort_power, hack]
  rfl

/-! ### The end of settling, RESUME (R299, R365) -/

theorem execSettlingExpiry_settling {s : State} {n : PortId} (h : (s.port n).state = .settling) : execSettlingExpiry n s = .next
    (if (s.port n).autoResume then s.portRises n
      else if n = 0 ∧ s.power.season = .thaw ∧ s.serving then s.modPort n (fun q => { q with settled := true })
      else ((s.modPort n (Port.at .held)).health 0x06 none n.val n.val).driveRecords) := by
  unfold execSettlingExpiry
  rw [if_neg (not_not.mpr h)]
  split
  · rfl
  · split <;> rfl

/-- A port that enters HELD logs an event (R299). -/
theorem held_logged {s : State} (hrecords : s.records = []) (n : PortId) : ∃ t : State,
    ((s.modPort n (Port.at .held)).health 0x06 none n.val n.val).driveRecords = t ∧ t.ports = upd s.ports n (Port.at .held) ∧
      t.fault.healthNext = s.fault.healthNext + 1 ∧ t.ctl.irqStatus = s.ctl.irqStatus ||| 8 := by
  obtain ⟨l, h, e⟩ := health_raises (s.modPort n (Port.at .held)) 0x06 none n.val n.val
  rw [e]
  exact ⟨_, driveRecords_nil hrecords, rfl, rfl, rfl⟩

theorem writeResume_held {s : State} {n : PortId} (hn : n.val < s.build.c) (hrecords : s.records = []) (h : (s.port n).state = .held) :
    s.writeResume n 1 = done (s.modPort n (Port.at .up)) := by
  rw [State.writeResume, refuse_of_false (decide_eq_false (by omega)), refuse_of_false (by simp [h]), portRises_still hrecords]

/-! ### Several ports, one after the other -/

theorem port_modPort_eq (s : State) (n k : PortId) (f : Port → Port) :
    (s.modPort n f).port k = if k = n then f (s.port k) else s.port k := by
  by_cases h : k = n
  · rw [h, if_pos rfl, port_modPort]
  · rw [if_neg h, port_modPort_ne _ _ _ _ h]

theorem modPort_congr {s : State} {n : PortId} {f g : Port → Port} (h : f (s.port n) = g (s.port n)) : s.modPort n f = s.modPort n g := by
  unfold State.modPort upd
  rw [show f s.ports[n.val] = g s.ports[n.val] from h]

theorem modPort_same {s : State} {n : PortId} {f : Port → Port} (h : f (s.port n) = s.port n) : s.modPort n f = s := by
  unfold State.modPort upd
  rw [show f s.ports[n.val] = s.ports[n.val] from h, Vector.set_getElem_self]

/-- Steps that each change one port, to no further effect the second time. -/
theorem foldl_modPort {s : State} {g : State → PortId → State} {f : PortId → Port → Port}
    (hg : ∀ ps n, g { s with ports := ps } n = State.modPort { s with ports := ps } n (f n)) (hf : ∀ n q, f n (f n q) = f n q)
    (ns : List PortId) : ∃ ps, ns.foldl g s = { s with ports := ps } ∧
      ∀ k : PortId, ps[k.val] = if k ∈ ns then f k (s.port k) else s.port k := by
  induction ns generalizing s with
  | nil => exact ⟨s.ports, rfl, fun k => rfl⟩
  | cons n ns ih =>
    rw [List.foldl_cons, show g s n = s.modPort n (f n) from hg s.ports n]
    obtain ⟨ps, e, hps⟩ := ih (s := s.modPort n (f n)) hg
    refine ⟨ps, e, fun k => (hps k).trans ?_⟩
    rw [port_modPort_eq]
    by_cases h : k = n
    · subst h
      rw [if_pos rfl, if_pos List.mem_cons_self, hf, ite_self]
    · rw [if_neg h]
      simp only [List.mem_cons, h, false_or]

/-! ### ATTACH (R428) -/

/-- A port once a claim has resumed the HELD ones. -/
def Port.resumed (q : Port) : Port := if q.state = .held then q.at .up else q

theorem Port.resumed_state (q : Port) : q.resumed.state = if q.state = .held then .up else q.state := by
  unfold Port.resumed
  split <;> rfl

theorem Port.resumed_resumed (q : Port) : q.resumed.resumed = q.resumed := by
  by_cases h : q.state = .held <;> simp [Port.resumed, Port.at, h]

/-- A claim moves the HELD ports UP and changes nothing else (R299, R428). -/
theorem claim_resumes {s : State} (hrecords : s.records = []) :
    ∃ ps, allPorts.foldl (fun s n => if (s.port n).state = .held then s.portRises n else s) s = { s with ports := ps } ∧
      ∀ k : PortId, ps[k.val] = (s.port k).resumed := by
  obtain ⟨ps, e, hps⟩ := foldl_modPort (s := s) (f := fun _ => Port.resumed)
    (g := fun s n => if (s.port n).state = .held then s.portRises n else s) (fun qs n => by
      split
      · rename_i hheld
        exact (portRises_still (s := { s with ports := qs }) hrecords n).trans (modPort_congr (if_pos hheld).symm)
      · rename_i hheld
        exact (modPort_same (if_neg hheld)).symm) (fun _ => Port.resumed_resumed) allPorts
  exact ⟨ps, e, fun k => (hps k).trans (if_pos (List.mem_finRange k))⟩

/-- The control port once a claim is made (R428). -/
def CtlSt.claimed (k : CtlSt) (c : Half) (time : DWord) : CtlSt :=
  { k with pdState := .idle, abort := 0, rlen := 0, claim := c, attachCount := k.attachCount + 1, attachTime := time,
           irqStatus := k.irqStatus ||| 0x80 }

section
variable {s : State} (hclock : s.ctl.inReset = false) (hserving : s.serving = true)
include hclock hserving

theorem exec_attach_keyless {v : Word} (hkey : v.toNat / 65536 ≠ 0xA77A) :
    exec (.attach v) s = .next { s with ctl := { s.ctl with ignored := s.ctl.ignored + 1 } } := by
  rw [exec_attach, execAttach, if_neg (by simp [hclock, hserving]), if_pos hkey]

variable (hawake : s.awake = true) (hidle : s.ctl.pdState ≠ .busy) {v : Word} (hkey : v.toNat / 65536 = 0xA77A)
include hawake hidle hkey

theorem exec_attach_detach (hclaim : BitVec.ofNat 16 v.toNat = 0) :
    exec (.attach v) s = .next { s with ctl := { s.ctl with claim := 0 } } := by
  rw [exec_attach, execAttach, if_neg (by simp [hclock, hserving]), if_neg (not_not.mpr hkey), wake_awake hawake]
  dsimp only
  rw [if_neg (by simp [hidle]), if_pos hclaim]
  rfl

theorem exec_attach_claim (hrecords : s.records = []) (hclaim : BitVec.ofNat 16 v.toNat ≠ 0) : ∃ ps,
    exec (.attach v) s = .next { s with ports := ps, ctl := s.ctl.claimed (BitVec.ofNat 16 v.toNat) s.power.timebase } ∧
      ∀ k : PortId, ps[k.val] = (s.port k).resumed := by
  rw [exec_attach, execAttach, if_neg (by simp [hclock, hserving]), if_neg (not_not.mpr hkey), wake_awake hawake]
  dsimp only
  rw [if_neg (by simp [hidle]), if_neg hclaim, State.attach, if_neg hclaim]
  dsimp only
  obtain ⟨ps, e, hps⟩ := claim_resumes (s := { s with ctl := { s.ctl with
    pdState := .idle, abort := 0, rlen := 0, claim := BitVec.ofNat 16 v.toNat, attachCount := s.ctl.attachCount + 1
    attachTime := s.power.timebase } }) hrecords
  exact ⟨ps, congrArg (fun u : State => (.next (u.irq 7) : Out)) e, hps⟩

end

/-! ### PCLK_RST_N (R451) -/

/-- The link of a port has fallen: the port is DOWN, or it carried nothing before. -/
def Fell (before after : PortState) : Prop := after = .down ∨ after = before ∧ (before = .down ∨ before = .failed ∨ before = .absent)

theorem Fell.trans {a b c : PortState} (h : Fell a b) (g : Fell b c) : Fell a c := by
  rcases g with rfl | ⟨rfl, g⟩
  · exact .inl rfl
  · exact h

/-- A fall of the link of one port: that port falls, the others keep their states, PCLK's reset stays as it is. -/
theorem linkFall_spec (s : State) (n : PortId) : Fell (s.port n).state ((s.linkFall n).port n).state ∧
    (∀ k : PortId, k ≠ n → ((s.linkFall n).port k).state = (s.port k).state) ∧ (s.linkFall n).ctl.inReset = s.ctl.inReset := by
  have hlost : ∀ st : PortState, ((s.portLost n st).port n).state = st ∧
      (∀ k : PortId, k ≠ n → ((s.portLost n st).port k).state = (s.port k).state) ∧ (s.portLost n st).ctl.inReset = s.ctl.inReset := by
    intro st
    have h := portLost_spec s n st
    refine ⟨by rw [h.port]; rfl, fun k hk => ?_, h.clock⟩
    obtain ⟨g, e⟩ := h.others k hk
    rw [e]
    rfl
  unfold State.linkFall
  cases h : (s.port n).state with
  | absent => exact ⟨.inr ⟨h, .inr (.inr rfl)⟩, fun _ _ => rfl, rfl⟩
  | down => exact ⟨.inl h, fun _ _ => rfl, rfl⟩
  | settling | up | held =>
    dsimp only
    exact ⟨.inl (hlost .down).1, (hlost .down).2⟩
  | failed =>
    dsimp only
    split
    · exact ⟨.inr ⟨(hlost .failed).1, .inr (.inl rfl)⟩, (hlost .failed).2⟩
    · exact ⟨.inr ⟨h, .inr (.inl rfl)⟩, fun _ _ => rfl, rfl⟩

theorem linkFalls_spec (ns : List PortId) (s : State) : (∀ k ∈ ns, Fell (s.port k).state ((ns.foldl State.linkFall s).port k).state) ∧
    (∀ k : PortId, k ∉ ns → ((ns.foldl State.linkFall s).port k).state = (s.port k).state) ∧
    (ns.foldl State.linkFall s).ctl.inReset = s.ctl.inReset := by
  induction ns generalizing s with
  | nil => exact ⟨nofun, fun _ _ => rfl, rfl⟩
  | cons n ns ih =>
    obtain ⟨hn, hothers, hclock⟩ := linkFall_spec s n
    obtain ⟨ihin, ihout, ihclock⟩ := ih (s.linkFall n)
    rw [List.foldl_cons]
    refine ⟨fun k hk => ?_, fun k hk => ?_, ihclock.trans hclock⟩
    · by_cases hin : k ∈ ns
      · by_cases hkn : k = n
        · exact .trans (hkn ▸ hn) (ihin k hin)
        · rw [← hothers k hkn]
          exact ihin k hin
      · rw [ihout k hin, (List.mem_cons.mp hk).resolve_right hin]
        exact hn
    · obtain ⟨hkn, hin⟩ := not_or.mp (mt List.mem_cons.mpr hk)
      rw [ihout k hin, hothers k hkn]

theorem mem_presentClusters {s : State} {k : PortId} : k ∈ s.presentClusters ↔ k.val < s.build.c := by
  simp [State.presentClusters]

/-- PCLK_RST_N low is a fall of every link. -/
theorem exec_pclkReset_falls {s : State} (hclock : s.ctl.inReset = false) : ∃ t, exec .pclkReset s = .next t ∧ t.ctl.inReset = true ∧
    (∀ k : PortId, k.val < s.build.c → Fell (s.port k).state (t.port k).state) ∧ ∀ l : LinkId, (t.link.ports[l.val]).phyUp = false := by
  rw [exec_pclkReset, execPclkReset, if_neg (by simp [hclock])]
  obtain ⟨hfell, -, hreset⟩ := linkFalls_spec s.presentClusters { s with ctl := { s.ctl with inReset := true } }
  refine ⟨_, rfl, hreset, fun k hk => hfell k (mem_presentClusters.mpr hk), fun l => ?_⟩
  fin_cases l <;> simp [State.setPhy, State.modLink, upd]

/-- A port once PCLK_RST_N is released: a link that is high settles where the cluster is supplied (R299, R451). -/
def Port.risen (supplied : Bool) (q : Port) : Port :=
  if q.linkUp = true ∧ supplied = true ∧ (q.state = .down ∨ q.state = .failed) then q.at .settling else q

theorem Port.risen_state (supplied : Bool) (q : Port) : (q.risen supplied).state =
    if q.linkUp = true ∧ supplied = true ∧ (q.state = .down ∨ q.state = .failed) then .settling else q.state := by
  unfold Port.risen
  split <;> rfl

theorem Port.risen_risen (supplied : Bool) (q : Port) : (q.risen supplied).risen supplied = q.risen supplied := by
  unfold Port.risen
  split
  · simp [Port.at]
  · rfl

theorem linkRise_risen (s : State) (n : PortId) : (if (s.port n).linkUp && s.power.pwrAck.getLsbD n.val then s.linkRise n else s) =
    s.modPort n (Port.risen (s.power.pwrAck.getLsbD n.val)) := by
  by_cases hup : ((s.port n).linkUp && s.power.pwrAck.getLsbD n.val) = true
  · obtain ⟨hlink, hack⟩ := Bool.and_eq_true_iff.mp hup
    rw [if_pos hup]
    by_cases hlost : (s.port n).state = .down ∨ (s.port n).state = .failed
    · rw [linkRise_lost hlost]
      exact modPort_congr (if_pos ⟨hlink, hack, hlost⟩).symm
    · have hstay : (s.port n).risen (s.power.pwrAck.getLsbD n.val) = s.port n := if_neg fun ⟨_, _, h⟩ => hlost h
      rw [modPort_same hstay]
      unfold State.linkRise
      split
      · rename_i h
        exact absurd (.inl h) hlost
      · rename_i h
        exact absurd (.inr h) hlost
      · rfl
  · rw [if_neg hup]
    exact (modPort_same (if_neg fun ⟨hlink, hack, _⟩ => hup (Bool.and_eq_true_iff.mpr ⟨hlink, hack⟩))).symm

theorem exec_pclkResetRelease_rises {s : State} (hclock : s.ctl.inReset = true) (hphy : ∀ l : LinkId, (s.link.ports[l.val]).phyIn = false) :
    ∃ ps, exec .pclkResetRelease s = .next { s with ports := ps, ctl := { s.ctl with inReset := false } } ∧
      ∀ k : PortId, k.val < s.build.c → ps[k.val] = (s.port k).risen (s.power.pwrAck.getLsbD k.val) := by
  obtain ⟨ps, e, hps⟩ := foldl_modPort (s := { s with ctl := { s.ctl with inReset := false } })
    (g := fun s n => if (s.port n).linkUp && s.power.pwrAck.getLsbD n.val then s.linkRise n else s)
    (f := fun n => Port.risen (s.power.pwrAck.getLsbD n.val))
    (fun qs n => linkRise_risen { s with ports := qs, ctl := { s.ctl with inReset := false } } n)
    (fun n q => q.risen_risen _) s.presentClusters
  refine ⟨ps, ?_, fun k hk => (hps k).trans (if_pos (mem_presentClusters.mpr hk))⟩
  rw [exec_pclkResetRelease, execPclkResetRelease, if_neg (by simp [hclock])]
  dsimp only
  rw [show s.presentClusters = State.presentClusters { s with ctl := { s.ctl with inReset := false } } from rfl] at e
  rw [e, foldl_same fun l _ => ?_]
  rw [hphy l]
  rfl

/-! ### The obligation -/

/-- Settles O41: a loss of a port is `portLost_spec`, the rest moves a port's state, one port or several in turn. -/
theorem portStates : Obligations.port_states := by
  unfold Obligations.port_states
  intro s n hn
  refine ⟨fun id x hx => ?_, fun hcarried => ?_, fun hdown => ?_, fun hack hclock hlost => exec_linkUpRise_supplied hn hack hclock hlost,
    fun hack => exec_linkUpRise_unsupplied hn hack,
    fun hrecords hsettling => ⟨fun hauto => ?_, fun hauto hn0 hthaw hserving => ?_, fun hauto hnot => ?_⟩,
    fun hrecords hheld async hm => ?_, fun hrecords hclock hserving hawake hidle v hkey hclaim => ?_,
    fun hclock hserving hawake hidle v hkey hclaim => exec_attach_detach hclock hserving hawake hidle hkey hclaim,
    fun hclock hserving v hkey => exec_attach_keyless hclock hserving hkey, exec_pclkReset_falls, fun hclock hphy => ?_⟩
  · obtain ⟨⟨htxns, hdrops, hirq, hruns⟩, hstate⟩ := lossSeen_portLost s n .failed
    exact ⟨_, exec_portTimeout_open hx, hstate, htxns, hdrops, hirq, hruns⟩
  · obtain ⟨⟨htxns, hdrops, -, hruns⟩, hstate⟩ := lossSeen_portLost s n .down
    refine ⟨_, exec_linkUpFall_present hn, ?_⟩
    rw [linkFall_carried hcarried, port_modPort]
    generalize s.portLost n .down = t at hstate htxns hdrops hruns ⊢
    exact ⟨hstate, rfl, htxns, hdrops, hruns⟩
  · rw [exec_linkUpFall_present hn, linkFall_down hdown]
    rfl
  · rw [exec_settlingExpiry, execSettlingExpiry_settling hsettling, if_pos hauto, portRises_still hrecords]
    rfl
  · rw [exec_settlingExpiry, execSettlingExpiry_settling hsettling, if_neg (by simp [hauto]), if_pos ⟨hn0, hthaw, hserving⟩]
    rfl
  · obtain ⟨t, e, hports, hlogged, hirq⟩ := held_logged hrecords n
    refine ⟨t, ?_, hports, hlogged, hirq⟩
    rw [exec_settlingExpiry, execSettlingExpiry_settling hsettling, if_neg (by simp [hauto]), if_neg hnot, e]
  · exact ends_done s _ (fun s => s.writeResume n 1) async _ hm rfl rfl rfl fun k => writeResume_held (s := s.withCtl k) hn hrecords hheld
  · obtain ⟨ps, e, hps⟩ := exec_attach_claim hclock hserving hawake hidle hkey hrecords hclaim
    exact ⟨_, e, rfl, rfl, rfl, rfl, rfl, fun k => (congrArg Port.state (hps k)).trans (Port.resumed_state _), rfl, rfl, rfl⟩
  · obtain ⟨ps, e, hps⟩ := exec_pclkResetRelease_rises hclock hphy
    exact ⟨_, e, rfl, rfl, rfl, fun k hk => (congrArg Port.state (hps k hk)).trans (Port.risen_state _ _)⟩

end Sys2Proof.Machine

/-!
PROOFS. Responses on a memory port: what each asks of the port first, and those that leave what waits there waiting (R284, R286, R287,
R288, R298).
-/
namespace Sys2Proof.Machine
open Sys2Proof.Safety

/-! ### What every response does first (R286, R298) -/

section
variable {s : State} {n : PortId} {id : Byte} (kind : PortOp → Bool) (f : Txn → Out)

theorem response_absent (h : s.build.c ≤ n.val) : s.response n id kind f = .refused .absentPart := if_pos h

theorem response_idle (hn : n.val < s.build.c) (h : s.portCarries n = false) : s.response n id kind f = .next s := by
  rw [State.response, if_neg (by omega), h]
  rfl

theorem response_foreign (hn : n.val < s.build.c) (hcarries : s.portCarries n = true) (h : s.txn? n id = none) :
    s.response n id kind f = .fault .foreignResponse := by
  rw [State.response, if_neg (by omega), hcarries, h]
  rfl

theorem response_open (hn : n.val < s.build.c) (hcarries : s.portCarries n = true) {x : Txn} (h : s.txn? n id = some x)
    (hkind : kind x.op = true) : s.response n id kind f = f x := by
  rw [State.response, if_neg (by omega), hcarries, h]
  exact if_pos hkind

end

theorem rtLateness_besteffort {s : State} {n : PortId} {x : Txn} (h : x.qos ≠ 3) : s.rtLateness n x = s := if_neg fun ⟨hq, _⟩ => h hq

/-! ### A port where nothing waits (R293) -/

theorem pickWaiter_none {s : State} {n : PortId} (h : (s.port n).order = []) (tried : List Waiter) : s.pickWaiter n tried = none := by
  have hturn : nextTurn (s.port n).turn (List.map Prod.snd ([] : List (Waiter × Nat))) = none := by simp [nextTurn]
  unfold State.pickWaiter
  dsimp only
  rw [h]
  rw [List.filter_nil, List.filterMap_nil]
  dsimp only [List.find?_nil]
  rw [hturn]

theorem wakeN_none {s : State} {n : PortId} (h : (s.port n).order = []) (k : Nat) (tried : List Waiter) : s.wakeN n k tried = s := by
  cases k with
  | zero => rfl
  | succ k => rw [State.wakeN, pickWaiter_none h]

theorem wakePort_still {s : State} {n : PortId} (h : (s.port n).order = []) (hrecords : s.records = []) : s.wakePort n = s := by
  rw [State.wakePort, wakeN_none h, driveRecords_nil hrecords]

theorem order_dropTxn (s : State) (n : PortId) (id : Byte) : ((s.dropTxn n id).port n).order = (s.port n).order := by
  rw [State.dropTxn, port_modPort]

/-- Nothing waits for an identifier that a response gives back. -/
theorem dropTxn_wakePort {s : State} {n : PortId} (h : (s.port n).order = []) (hrecords : s.records = []) (id : Byte) :
    (s.dropTxn n id).wakePort n = s.dropTxn n id :=
  wakePort_still ((order_dropTxn s n id).trans h) hrecords

/-! ### The expander of an idle cluster (R323) -/

theorem expStream_coreAt (cl : ClusterId) (j : Nat) : (expStream cl j).1 = coreAt cl ⟨j / 8 % 5, by omega⟩ := rfl

theorem expanderIdle_of_portIdle {s : State} {n : PortId} {c : CoreId} {st : Fin 8} (h : PortIdle s n c st)
    (hhead : ∀ f, s.dmaHead c st = some f → f.expands = false) : ExpanderIdle s c := by
  intro j hj
  have hcluster : clusterOf c = n := h.cluster
  have hstreams := h.streams ⟨j / 8 % 5, by omega⟩ (expStream n j).2
  rw [← expStream_coreAt] at hstreams
  unfold State.expReady
  rw [hcluster]
  dsimp only
  by_cases hat : ((expStream n j).1, (expStream n j).2) = (c, st)
  · obtain ⟨hc, hst⟩ := Prod.mk.inj hat
    have hhead : ∀ f, s.dmaHead (expStream n j).1 (expStream n j).2 = some f → f.expands = false := by
      rw [hc, hst]
      exact hhead
    cases hf : s.dmaHead (expStream n j).1 (expStream n j).2 with
    | none => rfl
    | some f =>
      have hidle := hhead f hf
      rw [DmaFlight.expands] at hidle
      simp only [hidle, Bool.false_and]
  · rw [hstreams hat]

theorem expands_of_phase {f : DmaFlight} (h : f.phase ≠ 3) : f.expands = false := by
  rw [DmaFlight.expands, decide_eq_false h, Bool.and_false, Bool.false_and]

theorem expands_of_raw {f : DmaFlight} (h : f.exp = false) : f.expands = false := by
  rw [DmaFlight.expands, h, Bool.false_and, Bool.false_and]

theorem portIdle_modPort {s : State} {n : PortId} {c : CoreId} {st : Fin 8} (h : PortIdle s n c st) {g : Port → Port}
    (hg : (g (s.port n)).order = (s.port n).order) : PortIdle (s.modPort n g) n c st :=
  ⟨h.cluster, h.records, by rw [port_modPort, hg, h.order], h.streams⟩

/-! ### Read data and acknowledgements (R284, R286, R287) -/

theorem leBytes_length (n x : Nat) : (leBytes n x).length = n := by
  induction n generalizing x with
  | zero => rfl
  | succ n ih => rw [leBytes, List.length_cons, ih]

theorem headIs_head {s : State} {c : CoreId} {st : Fin 8} {f : DmaFlight} (hf : s.dmaHead c st = some f) : s.headIs c st f.seq = true := by
  rw [State.headIs, hf]
  exact decide_eq_true rfl

theorem execPortReadData_beat {s : State} {n : PortId} {id : Byte} {x : Txn} (hn : n.val < s.build.c) (hcarries : s.portCarries n = true)
    (hx : s.txn? n id = some x) (hqos : x.qos ≠ 3) (beat : Beat) (hop : x.op = .read) (hmore : x.rdata.length + 64 < 64 * x.beats) :
    exec (.portReadData n id beat false) s = .next (s.modPort n (fun p => { p with
      bytesRead := p.bytesRead + 64
      txns := p.txns.map (fun (y : Txn) => if y.id = id then { y with rdata := x.rdata ++ leBytes 64 beat.toNat } else y) })) := by
  have hlast : ¬ (false ≠ decide (64 * x.beats ≤ (x.rdata ++ leBytes 64 beat.toNat).length)) := by
    rw [List.length_append, leBytes_length, decide_eq_false (by omega)]
    exact fun h => h rfl
  rw [exec_portReadData, execPortReadData, response_open _ _ hn hcarries hx (decide_eq_true hop)]
  dsimp only
  rw [if_neg hlast, rtLateness_besteffort hqos, if_neg Bool.false_ne_true, modPort_modPort]
  rfl

/-- A port that took `k` bytes of read data. -/
def Port.readMore (k : Nat) (q : Port) : Port := { q with bytesRead := bump q.bytesRead k }

/-- A port that wrote `k` bytes. -/
def Port.wroteMore (k : Nat) (q : Port) : Port := { q with bytesWritten := bump q.bytesWritten k }

theorem execPortReadData_last {s : State} {n : PortId} {id : Byte} {x : Txn} (hn : n.val < s.build.c) (hcarries : s.portCarries n = true)
    (hx : s.txn? n id = some x) (hqos : x.qos ≠ 3) (beat : Beat) (hop : x.op = .read) (hend : 64 * x.beats ≤ x.rdata.length + 64) :
    exec (.portReadData n id beat true) s =
      .next ((((s.modPort n (Port.readMore 64)).readBack n x.owner (x.rdata ++ leBytes 64 beat.toNat)).dropTxn n id).wakePort n) := by
  have hlast : ¬ (true ≠ decide (64 * x.beats ≤ (x.rdata ++ leBytes 64 beat.toNat).length)) := by
    rw [List.length_append, leBytes_length, decide_eq_true hend]
    exact fun h => h rfl
  rw [exec_portReadData, execPortReadData, response_open _ _ hn hcarries hx (decide_eq_true hop)]
  dsimp only
  rw [if_neg hlast, rtLateness_besteffort hqos, if_pos rfl]
  rfl

/-- A command that took the bytes of a piece. -/
def DmaFlight.took (off : Nat) (bs : List Byte) (f : DmaFlight) : DmaFlight :=
  { f with openTx := f.openTx - 1, got := Tab.put f.got off bs }

/-- A command one of whose pieces was acknowledged. -/
def DmaFlight.acked (f : DmaFlight) : DmaFlight := { f with openTx := f.openTx - 1 }

/-- Read data reaches its command, which waits for more (R284, R303). -/
theorem takeData_waits {s : State} {c : CoreId} {st : Fin 8} {f : DmaFlight} (he : ExpanderIdle s c) (hf : s.dmaHead c st = some f)
    (hphase : f.phase = 1) (hopen : 1 < f.openTx) (htodo : f.todo = []) (hwalk : f.walk = none) (off len lead : Nat) (bs : List Byte) :
    s.takeData c st f.seq off len lead bs = s.modHead c st (DmaFlight.took off ((bs.drop lead).take len)) := by
  have hhead := (dmaHead_modHead hf (DmaFlight.took off ((bs.drop lead).take len)) c st).trans (if_pos ⟨rfl, rfl⟩)
  rw [State.takeData, if_pos (headIs_head hf)]
  exact driveDma_waiting (expanderIdle_modHead he hf rfl rfl rfl) hhead hphase (by dsimp only [DmaFlight.took]; omega) htodo hwalk

/-- An acknowledgement reaches its command, which waits for more or for what it owes elsewhere (R287). -/
theorem ack_waits {s : State} {c : CoreId} {st : Fin 8} {f : DmaFlight} (he : ExpanderIdle s c) (hf : s.dmaHead c st = some f)
    (hphase : f.phase = 3) (htodo : f.todo = []) (hwalk : f.walk = none) :
    (s.modHead c st DmaFlight.acked).driveDma c st = s.modHead c st DmaFlight.acked := by
  have hhead := (dmaHead_modHead hf DmaFlight.acked c st).trans (if_pos ⟨rfl, rfl⟩)
  have hbegun : f.acked.phase ≠ 0 := by dsimp only [DmaFlight.acked]; omega
  exact driveDma_settled (expanderIdle_modHead he hf rfl rfl rfl) hhead hbegun htodo hwalk (.inl hphase)

section
variable {s : State} {n : PortId} {c : CoreId} {st : Fin 8} {id : Byte} {x : Txn} {f : DmaFlight} (hn : n.val < s.build.c)
  (hcarries : s.portCarries n = true) (hx : s.txn? n id = some x) (hqos : x.qos ≠ 3) (hidle : PortIdle s n c st)
  (hf : s.dmaHead c st = some f)
include hn hcarries hx hqos hidle hf

theorem exec_portReadData_dma {off len lead : Nat} (hop : x.op = .read) (beat : Beat) (hend : 64 * x.beats ≤ x.rdata.length + 64)
    (howner : x.owner = .dma c st f.seq off len lead) (hphase : f.phase = 1) (hopen : 1 < f.openTx) (htodo : f.todo = [])
    (hwalk : f.walk = none) : exec (.portReadData n id beat true) s = .next (((s.modPort n (Port.readMore 64)).modHead c st
      (DmaFlight.took off (((x.rdata ++ leBytes 64 beat.toNat).drop lead).take len))).dropTxn n id) := by
  have hidle' : PortIdle (s.modPort n (Port.readMore 64)) n c st := portIdle_modPort hidle rfl
  have hraw : ∀ g, s.dmaHead c st = some g → g.expands = false := fun g hg => by
    rw [← Option.some.inj (hf.symm.trans hg)]
    exact expands_of_phase (by omega)
  rw [execPortReadData_last hn hcarries hx hqos beat hop hend, howner, State.readBack,
    takeData_waits (expanderIdle_of_portIdle hidle' hraw) hf hphase hopen htodo hwalk]
  exact congrArg _ (dropTxn_wakePort (by exact hidle'.order) (by exact hidle'.records) id)

theorem exec_portWriteAck_dma {off len lead : Nat} (hop : x.op.writes = true) (howner : x.owner = .dma c st f.seq off len lead)
    (hexp : f.exp = false) (hphase : f.phase = 3) (htodo : f.todo = []) (hwalk : f.walk = none) :
    exec (.portWriteAck n id) s =
      .next (((s.modPort n (Port.wroteMore x.wdata.length)).modHead c st DmaFlight.acked).dropTxn n id) := by
  have hidle' : PortIdle (s.modPort n (Port.wroteMore x.wdata.length)) n c st := portIdle_modPort hidle rfl
  have hraw : ∀ g, s.dmaHead c st = some g → g.expands = false := fun g hg => by
    rw [← Option.some.inj (hf.symm.trans hg)]
    exact expands_of_raw hexp
  have hhead : (s.modPort n (Port.wroteMore x.wdata.length)).dmaHead c st = some f := hf
  rw [exec_portWriteAck, execPortWriteAck, response_open _ _ hn hcarries hx hop, rtLateness_besteffort hqos, howner]
  change Host.Outcome.next (((if (s.modPort n (Port.wroteMore x.wdata.length)).headIs c st f.seq then
    ((s.modPort n (Port.wroteMore x.wdata.length)).modHead c st DmaFlight.acked).driveDma c st else
      s.modPort n (Port.wroteMore x.wdata.length)).dropTxn n id).wakePort n) = _
  rw [if_pos (headIs_head hhead), ack_waits (expanderIdle_of_portIdle hidle' hraw) hhead hphase htodo hwalk]
  exact congrArg _ (dropTxn_wakePort (by exact hidle'.order) (by exact hidle'.records) id)

end

/-! ### Flushes and errors that leave the run as it is (R251, R288, R295) -/

section
variable {s : State} {n : PortId} {id : Byte} {x : Txn} (hn : n.val < s.build.c) (hcarries : s.portCarries n = true)
  (hx : s.txn? n id = some x) (hqos : x.qos ≠ 3)
include hn hcarries hx hqos

/-- A read-back flush that is not the run's last. -/
theorem exec_portFlushDone_more {p : PartId} {r : RunSt} {m : Nat} (horder : (s.port n).order = []) (hrecords : s.records = [])
    (hop : x.op = .flush) (howner : x.owner = .dataFlush p) (hrun : (s.part p).run = some r) (hphase : r.phase = .flushing [] (m + 2)) :
    exec (.portFlushDone n id) s =
      .next ((s.modPart p (fun y => { y with run := some { r with phase := .flushing [] (m + 1) } })).dropTxn n id) := by
  have hback : s.flushBack p = s.modPart p (fun y => { y with run := some { r with phase := .flushing [] (m + 1) } }) := by
    unfold State.flushBack
    rw [hrun]
    dsimp only
    rw [hphase]
    exact if_neg fun ⟨_, h⟩ => by omega
  rw [exec_portFlushDone, execPortFlushDone, response_open _ _ hn hcarries hx (decide_eq_true hop), rtLateness_besteffort hqos, howner]
  dsimp only
  rw [hback]
  exact congrArg _ (dropTxn_wakePort (by exact horder) (by exact hrecords) id)

theorem execPortErrorResponse_open {err : BitVec 2} (herr : err ≠ 0) : exec (.portErrorResponse n id err) s =
    .next ((((s.portError n x.addr (opCode x.op) err.toNat x.qos.val).errorBack n x err.toNat).dropTxn n id).wakePort n) := by
  rw [exec_portErrorResponse, execPortErrorResponse, response_open _ _ hn hcarries hx rfl, if_neg herr, rtLateness_besteffort hqos]

end

/-- An error response is counted and logged (R295). -/
theorem portError_logged (s : State) (n : PortId) (addr op err qos : Nat) : ∃ l h e, s.portError n addr op err qos =
    { s.modPort n (fun q => { q with errors := q.errors + 1, lastError := e }) with
      link := l, fault := { s.fault with health := h, healthNext := s.fault.healthNext + 1 }
      ctl := { s.ctl with irqStatus := s.ctl.irqStatus ||| 8 } } := by
  unfold State.portError
  dsimp only
  generalize BitVec.ofNat 128 (addr % 2 ^ 48 + op * 2 ^ 48 + err * 2 ^ 52 + qos * 2 ^ 54 + s.now * 2 ^ 64) = e
  obtain ⟨l, h, eq⟩ := health_raises (s.modPort n (fun q => { q with errors := q.errors + 1, lastError := e })) 0x07 none n.val n.val
  exact ⟨l, h, e, eq⟩

theorem not_mem_dropTxn {s : State} {n : PortId} {id : Byte} {y : Txn} (h : y ∈ ((s.dropTxn n id).port n).txns) : y.id ≠ id := by
  rw [State.dropTxn, port_modPort] at h
  simpa using (List.mem_filter.mp h).2

theorem exec_portErrorResponse_dropped {s : State} {n : PortId} {id : Byte} {x : Txn} (hn : n.val < s.build.c)
    (hcarries : s.portCarries n = true) (hx : s.txn? n id = some x) (hqos : x.qos ≠ 3) {err : BitVec 2} (herr : err ≠ 0)
    (horder : (s.port n).order = []) (hrecords : s.records = []) (howner : x.owner = .dropped) : ∃ t : State,
    exec (.portErrorResponse n id err) s = .next (t.dropTxn n id) ∧ (t.port n).errors = (s.port n).errors + 1 ∧ t.cores = s.cores ∧
      t.steps = s.steps ∧ t.fault.healthNext = s.fault.healthNext + 1 ∧ t.ctl.irqStatus = s.ctl.irqStatus ||| 8 := by
  rw [execPortErrorResponse_open hn hcarries hx hqos herr]
  unfold State.errorBack
  rw [howner]
  dsimp only
  obtain ⟨l, h, e, eq⟩ := portError_logged s n x.addr (opCode x.op) err.toNat x.qos.val
  rw [eq, dropTxn_wakePort (by exact (congrArg Port.order (port_modPort ..)).trans horder) (by exact hrecords)]
  exact ⟨_, rfl, congrArg Port.errors (port_modPort ..), rfl, rfl, rfl, rfl⟩

end Sys2Proof.Machine

/-!
PROOFS. Responses that end a run: an entry of a page walk that is not valid, an error response (R247, R295, R305, R316).
-/
namespace Sys2Proof.Machine
open Sys2Proof.Safety

/-- The core of a stream is one of its run's. -/
theorem mem_cores_of_stepOf {s : State} {c : CoreId} {p : PartId} {r : RunSt} {y : StepRec} (h : s.stepOf c = some (p, r, y)) :
    c ∈ r.cores := by
  obtain ⟨hp, hrun, -⟩ := of_stepOf h
  have hfound := List.find?_some hp
  rw [hrun] at hfound
  exact of_decide_eq_true hfound

/-- Up to core `c` the two states agree in what `Drains` speaks of. -/
structure AgreeBut (s u : State) (c : CoreId) : Prop where
  cores : ∀ d, d ≠ c → u.core d = s.core d
  parts : u.parts = s.parts
  steps : u.steps = s.steps
  queues : u.queues = s.queues
  pending : u.pending = s.pending

/-- What a run that was stopped shows after a change of one of its own cores, of ports and of logs. -/
theorem drains_of_agreeBut {s u t : State} {p : PartId} {r : RunSt} {why : StopWhy} {c : CoreId} (h : Drains u t p r why)
    (hc : c ∈ r.cores) (hu : AgreeBut s u c) : Drains s t p r why := by
  obtain ⟨hrun, hidle, hother, hpart, hstep, hqueue, hpend⟩ := h
  refine ⟨hrun, hidle, fun d hd => (hother d hd).trans (hu.cores d fun e => hd (e ▸ hc)), fun k hk => (hpart k hk).trans ?_,
    hstep.trans hu.steps, hqueue.trans hu.queues, hpend.trans hu.pending⟩
  rw [State.part, State.part, hu.parts]

/-- What a fault of a stream leaves of what waits at the ports. -/
structure Faulted (s t : State) : Prop where
  ports : ∀ k : PortId, (t.port k).order = (s.port k).order ∧ (t.port k).errors = (s.port k).errors ∧ (t.port k).state = (s.port k).state
  records : t.records = s.records
  faults : t.xlate.faults = s.xlate.faults + 1

/-- A fault of a stream is reported, its run drains (R316). -/
theorem streamFault_drains {s : State} {c : CoreId} {p : PartId} {r : RunSt} {y : StepRec} (hstep : s.stepOf c = some (p, r, y))
    (hphase : r.phase = .running) (st : Fin 8) (ast addr : Nat) (a : Access) (f : XFault) :
    Drains s (s.streamFault c st ast addr a f) p r (.fault (causeStatus f.cause) (BitVec.ofNat 32 (causeStream f a c st.val))) ∧
      Faulted s (s.streamFault c st ast addr a f) := by
  obtain ⟨hp, hrun, -⟩ := of_stepOf hstep
  unfold State.streamFault
  rw [hp]
  dsimp only
  generalize hu : s.reportFault addr ast (causeStream f a c st.val) = u
  have hrun' : (u.part p).run = some r := by rw [← hu]; exact hrun
  obtain ⟨hdrains, -⟩ := stopRun_drains hrun' hphase (.fault (causeStatus f.cause) (BitVec.ofNat 32 (causeStream f a c st.val)))
  obtain ⟨g, hports⟩ := (runLeft_stopRun u p (.fault (causeStatus f.cause) (BitVec.ofNat 32 (causeStream f a c st.val)))).ports
  obtain ⟨ks, ps, po, d, sc, l, h, n, i, e⟩ :=
    runsKilled_stopRun u p (.fault (causeStatus f.cause) (BitVec.ofNat 32 (causeStream f a c st.val)))
  unfold State.failRun
  refine ⟨drains_of_agreeBut hdrains (mem_cores_of_stepOf hstep) ?_, ⟨fun k => ?_, ?_, ?_⟩⟩
  · rw [← hu]; exact ⟨fun _ _ => rfl, rfl, rfl, rfl, rfl⟩
  · rw [hports, ← hu]; exact ⟨rfl, rfl, rfl⟩
  · rw [e, ← hu]; rfl
  · rw [e, ← hu]; rfl

/-- A run that drains goes on draining while a response is taken from its port, where nothing waits. -/
theorem Faulted.ended {s t : State} {n : PortId} {p : PartId} {r : RunSt} {why : StopWhy} (h : Faulted s t) (horder : (s.port n).order = [])
    (hrecords : s.records = []) (hdrains : Drains s t p r why) (id : Byte) :
    (t.dropTxn n id).wakePort n = t.dropTxn n id ∧ Drains s (t.dropTxn n id) p r why :=
  ⟨dropTxn_wakePort ((h.ports n).1.trans horder) (h.records.trans hrecords) id,
    ⟨hdrains.run, hdrains.idle, hdrains.cores, hdrains.parts, hdrains.steps, hdrains.queues, hdrains.pending⟩⟩

section
variable {s : State} {n : PortId} {c : CoreId} {st : Fin 8} {id : Byte} {x : Txn} {f : DmaFlight} {p : PartId} {r : RunSt} {y : StepRec}
  (hn : n.val < s.build.c) (hcarries : s.portCarries n = true) (hx : s.txn? n id = some x) (hqos : x.qos ≠ 3)
include hn hcarries hx hqos

theorem execPageWalkReadReturn_open (beat : Beat) (hop : x.op = .read) (hbeats : x.beats = 1) :
    exec (.pageWalkReadReturn n id 0 beat) s =
      .next ((((s.modPort n (Port.readMore 64)).readBack n x.owner (leBytes 64 beat.toNat)).dropTxn n id).wakePort n) := by
  rw [exec_pageWalkReadReturn, execPageWalkReadReturn, response_open _ _ hn hcarries hx (decide_eq_true hop), if_neg (not_not.mpr hbeats),
    rtLateness_besteffort hqos]
  rfl

variable (horder : (s.port n).order = []) (hrecords : s.records = []) (hf : s.dmaHead c st = some f) (hstep : s.stepOf c = some (p, r, y))
  (hphase : r.phase = .running)
include horder hrecords hf hstep hphase

/-- An error response to a DMA piece (R295, R316). -/
theorem exec_portErrorResponse_dma {err : BitVec 2} (herr : err ≠ 0) {off len lead : Nat}
    (howner : x.owner = .dma c st f.seq off len lead) :
    ∃ t, exec (.portErrorResponse n id err) s = .next t ∧ (t.port n).errors = (s.port n).errors + 1 ∧
      (t.port n).state = (s.port n).state ∧
      Drains s t p r (.fault 0x02 (BitVec.ofNat 32 (causeStream ⟨6, 0, err.toNat, 0⟩ (opAccess x.op) c st.val))) := by
  rw [execPortErrorResponse_open hn hcarries hx hqos herr]
  obtain ⟨l, h, e, eq⟩ := portError_logged s n x.addr (opCode x.op) err.toNat x.qos.val
  rw [eq]
  generalize hu : ({ s.modPort n (fun q => { q with errors := q.errors + 1, lastError := e }) with
      link := l, fault := { s.fault with health := h, healthNext := s.fault.healthNext + 1 }
      ctl := { s.ctl with irqStatus := s.ctl.irqStatus ||| 8 } } : State) = u
  have hport : u.port n = { s.port n with errors := (s.port n).errors + 1, lastError := e } := by rw [← hu]; exact port_modPort ..
  have hstep' : u.stepOf c = some (p, r, y) := by rw [← hu]; exact hstep
  have hhead : u.headIs c st f.seq = true := by rw [← hu]; exact headIs_head hf
  have hback : u.errorBack n x err.toNat = u.streamFault c st y.ast x.addr (opAccess x.op) ⟨6, 0, err.toNat, 0⟩ := by
    unfold State.errorBack
    rw [howner]
    dsimp only
    rw [hstep']
    dsimp only
    rw [if_pos hhead]
  obtain ⟨hdrains, hfaulted⟩ := streamFault_drains hstep' hphase st y.ast x.addr (opAccess x.op) ⟨6, 0, err.toNat, 0⟩
  rw [hback]
  obtain ⟨hstill, hended⟩ := hfaulted.ended (n := n) (by rw [hport]; exact horder) (by rw [← hu]; exact hrecords) hdrains id
  obtain ⟨-, herrors, hstate⟩ := hfaulted.ports n
  generalize u.streamFault c st y.ast x.addr (opAccess x.op) ⟨6, 0, err.toNat, 0⟩ = t at hstill hended herrors hstate
  rw [hstill]
  refine ⟨_, rfl, ?_, ?_, drains_of_agreeBut hended (mem_cores_of_stepOf hstep) ?_⟩
  · rw [State.dropTxn, port_modPort, herrors, hport]
  · rw [State.dropTxn, port_modPort, hstate, hport]
  · rw [← hu]; exact ⟨fun _ _ => rfl, rfl, rfl, rfl, rfl⟩

/-- An entry of a stream's walk that is not valid (R305, R316). -/
theorem exec_pageWalkReadReturn_invalid {w : WalkSt} (beat : Beat) (hop : x.op = .read) (hbeats : x.beats = 1)
    (howner : x.owner = .walkStream c st) (hwalk : f.walk = some w) (hrestart : w.restart = false)
    (hinvalid : bitAt (leAt (leBytes 64 beat.toNat) (w.entry % 64) 8) 0 = false) :
    ∃ t, exec (.pageWalkReadReturn n id 0 beat) s = .next t ∧ t.xlate.faults = s.xlate.faults + 1 ∧
      Drains s t p r (.fault 0x02 (BitVec.ofNat 32 (causeStream ⟨3, w.level, 0, 0⟩ f.access c st.val))) := by
  have hread : walkRead w (leAt (leBytes 64 beat.toNat) (w.entry % 64) 8) 0 = .fault ⟨3, w.level, 0, 0⟩ := by
    rw [walkRead, if_neg (not_not.mpr rfl), hinvalid]
    rfl
  rw [execPageWalkReadReturn_open hn hcarries hx hqos beat hop hbeats, howner]
  generalize hu : (s.modPort n (Port.readMore 64)).modHead c st (fun f => { f with walk := none }) = u
  have hback : (s.modPort n (Port.readMore 64)).readBack n (.walkStream c st) (leBytes 64 beat.toNat) =
      u.streamFault c st y.ast w.va f.access ⟨3, w.level, 0, 0⟩ := by
    unfold State.readBack State.walkStreamBack
    dsimp only
    rw [show (s.modPort n (Port.readMore 64)).dmaHead c st = some f from hf,
      show (s.modPort n (Port.readMore 64)).stepOf c = some (p, r, y) from hstep]
    dsimp only
    rw [hwalk]
    dsimp only
    rw [hrestart, hread, ← hu]
    rfl
  have hstep' : u.stepOf c = some (p, r, y) := by rw [← hu]; exact hstep
  have hport : u.port n = (s.port n).readMore 64 := by rw [← hu]; exact port_modPort ..
  obtain ⟨hdrains, hfaulted⟩ := streamFault_drains hstep' hphase st y.ast w.va f.access ⟨3, w.level, 0, 0⟩
  rw [hback]
  obtain ⟨hstill, hended⟩ := hfaulted.ended (n := n) (by rw [hport]; exact horder) (by rw [← hu]; exact hrecords) hdrains id
  have hcount : u.xlate.faults = s.xlate.faults := by rw [← hu]; rfl
  rw [hstill]
  refine ⟨_, rfl, hfaulted.faults.trans (by rw [hcount]), drains_of_agreeBut hended (mem_cores_of_stepOf hstep) ?_⟩
  rw [← hu]
  exact ⟨fun d hd => core_modCore_ne _ _ _ _ hd, rfl, rfl, rfl, rfl⟩

end

end Sys2Proof.Machine

/-!
PROOFS. Flushes that end a phase of a run: its record's flush brings COMMITTED (R246, R253, R289).
-/
namespace Sys2Proof.Machine
open Sys2Proof.Safety

/-! ### COMMITTED of a record that was acknowledged (R253, R289) -/

theorem recordIrq_eq (s : State) (q : QueueId) : ∃ m i, s.recordIrq q =
    { s with start := { s.start with mwTest := m }, ctl := { s.ctl with irqStatus := i } } := by
  unfold State.recordIrq
  split
  · exact ⟨_, _, rfl⟩
  · split
    · exact ⟨s.start.mwTest, _, rfl⟩
    · exact ⟨s.start.mwTest, s.ctl.irqStatus, rfl⟩

theorem commitStep_acked_eq {s : State} {p : PartId} {r : RunSt} {x : StepRec} (hr : (s.part p).run = some r)
    (hx : s.step? r.aseq = some x) (hc : r.phase = .commit) : s.commitStep p true =
      ((((((((s.commitWritten r x).recordIrq x.queue).charge p x.queue (r.cores.length * r.tokenCclk) false).closeRun p r).commitCounted
        p r x).commitSent p r x).dropStep r.aseq).settleSeason) := by
  unfold State.commitStep
  rw [hr]
  dsimp only
  rw [hx]
  exact if_neg (not_not.2 hc)

/-- The commit word of a sealed step moves with COMMITTED (R246). -/
theorem cword_commitWritten (s : State) (r : RunSt) (x : StepRec) : ((s.commitWritten r x).queue x.queue).cword =
    if x.desc.flip = true then (s.queue x.queue).cword + 1 else (s.queue x.queue).cword := by
  obtain ⟨es, e⟩ := transition_eq s r.aseq .committed (commitStatus x r.twin)
  unfold State.commitWritten
  dsimp only
  rw [e]
  split
  · rw [queue_modQueue]
    rfl
  · rfl

theorem entry_commitWritten {s : State} {r : RunSt} {x : StepRec} (hx : s.step? r.aseq = some x) (ha : r.aseq ≠ 0) :
    ∃ e, (r.aseq % 4096, e) ∈ (s.commitWritten r x).journal.entries ∧ e.aseq = r.aseq ∧ e.state = 4 ∧ e.status = commitStatus x r.twin := by
  have hentry := entry_transition hx ha .committed (commitStatus x r.twin)
  unfold State.commitWritten
  dsimp only
  split
  · exact hentry
  · exact hentry

/-- The accounts of a run that is over move neither the commit word nor the count of committed steps. -/
theorem closeRun_charge_counts (s : State) (p : PartId) (q : QueueId) (n : Nat) (killed : Bool) (r : RunSt) :
    (((s.charge p q n killed).closeRun p r).part p).committed = (s.part p).committed ∧
      (((s.charge p q n killed).closeRun p r).queue q).cword = (s.queue q).cword := by
  obtain ⟨ks, rt, e, -⟩ := closeRun_eq (s.charge p q n killed) p r
  have hpart : ∀ u : State, ((u.modPart p Partition.freed).part p).committed = (u.part p).committed := fun u => by
    rw [part_modPart]
    rfl
  have hqueue : ∀ u : State, ((u.modQueue q (Queue.charged n (if killed then n else 0))).queue q).cword = (u.queue q).cword := fun u => by
    rw [queue_modQueue]
    rfl
  rw [e, charge_eq]
  refine ⟨(hpart _).trans ?_, hqueue (s.modPart p (Partition.charged n (if killed then n else 0)))⟩
  change ((s.modPart p (Partition.charged n (if killed then n else 0))).part p).committed = _
  rw [part_modPart]
  rfl

theorem committed_commitCounted (s : State) (p : PartId) (r : RunSt) (x : StepRec) :
    ((s.commitCounted p r x).part p).committed = (s.part p).committed + 1 := by
  have hpart : (s.commitCounted p r x).part p = { (s.part p).countRates r x.desc.strips with
      committed := (s.part p).committed + 1, lastNarrowed := r.narrowed.setWidth 64, lastClipped := r.clipped.setWidth 64 } :=
    part_modPart s p _
  rw [hpart]

/-- What COMMITTED leaves of the run, its step, its journal entry and the commit word. -/
structure Committed (s t : State) (p : PartId) (r : RunSt) (x : StepRec) : Prop where
  run : (t.part p).run = none
  step : t.step? r.aseq = none
  counted : (t.part p).committed = (s.part p).committed + 1
  entry : ∃ e, (r.aseq % 4096, e) ∈ t.journal.entries ∧ e.aseq = r.aseq ∧ e.state = 4 ∧ e.status = commitStatus x r.twin
  cword : (t.queue x.queue).cword = if x.desc.flip = true then (s.queue x.queue).cword + 1 else (s.queue x.queue).cword
  idle : ∀ c ∈ r.cores, (t.core c).phase = .idle
  records : t.records = s.records
  ports : t.ports = s.ports

theorem commitStep_acked {s : State} {p : PartId} {r : RunSt} {x : StepRec} (hr : (s.part p).run = some r)
    (hx : s.step? r.aseq = some x) (hc : r.phase = .commit) (ha : r.aseq ≠ 0) : Committed s (s.commitStep p true) p r x := by
  rw [commitStep_acked_eq hr hx hc]
  have hcword := cword_commitWritten s r x
  have hentry := entry_commitWritten hx ha
  obtain ⟨st, j, qs, ew, -⟩ := commitWritten_eq s r x
  have hframe : (s.commitWritten r x).parts = s.parts ∧ (s.commitWritten r x).records = s.records ∧
      (s.commitWritten r x).ports = s.ports := by rw [ew]; exact ⟨rfl, rfl, rfl⟩
  generalize s.commitWritten r x = u at hcword hentry hframe ⊢
  obtain ⟨hparts, hrecords, hports⟩ := hframe
  obtain ⟨m, i, ei⟩ := recordIrq_eq u x.queue
  rw [ei]
  generalize hv : ({ u with start := { u.start with mwTest := m }, ctl := { u.ctl with irqStatus := i } } : State) = v
  obtain ⟨hcount, hword⟩ := closeRun_charge_counts v p x.queue (r.cores.length * r.tokenCclk) false r
  obtain ⟨hfreed, ks, rt, ls, pt, ec, -⟩ := closeRun_charge v p x.queue (r.cores.length * r.tokenCclk) false r
  generalize (v.charge p x.queue (r.cores.length * r.tokenCclk) false).closeRun p r = w at hcount hword hfreed ec ⊢
  have hrun := (run_commitCounted w p r x).1
  have hcounted := committed_commitCounted w p r x
  have hkept : (w.commitCounted p r x).records = w.records ∧ (w.commitCounted p r x).queues = w.queues ∧
      (w.commitCounted p r x).cores = w.cores ∧ (w.commitCounted p r x).ports = w.ports ∧
      (w.commitCounted p r x).journal.entries = w.journal.entries := ⟨rfl, rfl, rfl, rfl, rfl⟩
  generalize w.commitCounted p r x = z at hrun hcounted hkept ⊢
  obtain ⟨krecords, kqueues, kcores, kports, kentries⟩ := hkept
  obtain ⟨⟨st', ss, ed⟩, hgone⟩ := dropStep_eq (z.commitSent p r x) r.aseq
  obtain ⟨l, f, c, rt', pw, xl, es⟩ := aftermath_commitSent z p r x
  obtain ⟨l', f', c', rt'', pw', xl', ea⟩ := aftermath_settleSeason ((z.commitSent p r x).dropStep r.aseq)
  rw [ea]
  rw [ed, es] at hgone ⊢
  refine ⟨hrun.trans hfreed.run, hgone, hcounted.trans ?_, ?_, ?_, fun d hd => ?_, krecords.trans ?_, kports.trans ?_⟩
  · rw [hcount, ← hv]
    exact congrArg (fun ps : Vector Partition 8 => (ps[p.val]).committed + 1) hparts
  · obtain ⟨e, he, hrest⟩ := hentry
    refine ⟨e, ?_, hrest⟩
    change _ ∈ z.journal.entries
    rw [kentries, ec, ← hv]
    exact he
  · change (z.queues[x.queue.val]).cword = _
    rw [kqueues]
    refine hword.trans ?_
    rw [← hv]
    exact hcword
  · change (z.cores[d.val]).phase = _
    rw [kcores]
    exact hfreed.idle d hd
  · rw [ec, ← hv]
    exact hrecords
  · rw [ec, ← hv]
    exact hports

/-- The flush of a record that is written acknowledges it (R289). -/
theorem recordAck_flushed {s : State} {y : PendRec} {a : Nat} (hrecords : s.records = [y]) (hwritten : y.wrDone = true)
    (hcommits : y.commits = some a) : s.recordAck y.id true = { s with records := [] }.commitStep y.part true := by
  unfold State.recordAck State.modRecord
  simp [hrecords, hwritten, hcommits]

/-- The flush of a committing run's record (R246, R253, R288). -/
theorem exec_portFlushDone_record {s : State} {n : PortId} {id : Byte} {x : Txn} {p : PartId} {r : RunSt} {y : PendRec} {k : StepRec}
    (hn : n.val < s.build.c) (hcarries : s.portCarries n = true) (hx : s.txn? n id = some x) (hqos : x.qos ≠ 3) (hop : x.op = .flush)
    (horder : (s.port n).order = []) (hr : (s.part p).run = some r) (hk : s.step? r.aseq = some k) (ha : r.aseq ≠ 0)
    (howner : x.owner = .recordFlush y.id) (hrecords : s.records = [y]) (hwritten : y.wrDone = true) (hcommits : y.commits = some r.aseq)
    (hpart : y.part = p) (hphase : r.phase = .commit) :
    ∃ t, exec (.portFlushDone n id) s = .next (t.dropTxn n id) ∧ Committed { s with records := [] } t p r k := by
  have hdone := commitStep_acked (s := { s with records := [] }) hr hk hphase ha
  rw [exec_portFlushDone, execPortFlushDone, response_open _ _ hn hcarries hx (decide_eq_true hop), rtLateness_besteffort hqos, howner]
  dsimp only
  rw [recordAck_flushed hrecords hwritten hcommits, hpart]
  generalize State.commitStep _ p true = t at hdone ⊢
  have horder' : (t.port n).order = [] := by rw [State.port, hdone.ports]; exact horder
  exact ⟨t, congrArg _ (dropTxn_wakePort horder' hdone.records id), hdone⟩

end Sys2Proof.Machine

/-!
PROOFS. Completion records on their way: what sending them can do to the runs and to what waits at the ports (R253, R267, R289), and
the read-back flush that opens the commit phase (R251).
-/
namespace Sys2Proof.Machine
open Sys2Proof.Safety

/-! ### What sending records can do -/

/-- Records were sent: no new one is numbered, runs at most end, none but records come to wait at a port. -/
structure Recorded (s t : State) : Prop where
  next : t.nextRec = s.nextRec
  runs : ∀ p, (t.part p).run = (s.part p).run ∨ (t.part p).run = none
  waits : ∀ (n : PortId) w, w ∈ (t.port n).order → w ∈ (s.port n).order ∨ ∃ id, w = .record id

theorem Recorded.of_ports {s t : State} (hnext : t.nextRec = s.nextRec) (hparts : t.parts = s.parts)
    (hwaits : ∀ (n : PortId) w, w ∈ (t.port n).order → w ∈ (s.port n).order ∨ ∃ id, w = .record id) : Recorded s t :=
  ⟨hnext, fun p => .inl (by rw [State.part, State.part, hparts]), hwaits⟩

theorem Recorded.of_eq {s t : State} (hnext : t.nextRec = s.nextRec) (hparts : t.parts = s.parts) (hports : t.ports = s.ports) :
    Recorded s t :=
  .of_ports hnext hparts fun n w h => .inl (by rwa [State.port, hports] at h)

theorem Recorded.refl (s : State) : Recorded s s := .of_eq rfl rfl rfl

theorem Recorded.trans {s t u : State} (h : Recorded s t) (g : Recorded t u) : Recorded s u := by
  refine ⟨g.next.trans h.next, fun p => ?_, fun n w hw => ?_⟩
  · rcases g.runs p with e | e
    · rw [e]
      exact h.runs p
    · exact .inr e
  · rcases g.waits n w hw with hw | hw
    · exact h.waits n w hw
    · exact .inr hw

theorem Recorded.foldl {α : Type} {f : State → α → State} (hf : ∀ s a, Recorded s (f s a)) (xs : List α) (s : State) :
    Recorded s (xs.foldl f s) := by
  induction xs generalizing s with
  | nil => exact .refl s
  | cons a xs ih => exact (hf s a).trans (ih (f s a))

/-- A port changes; none but records come to wait there. -/
theorem recorded_modPort {s : State} {n : PortId} {f : Port → Port}
    (h : ∀ w, w ∈ (f (s.port n)).order → w ∈ (s.port n).order ∨ ∃ id, w = .record id) : Recorded s (s.modPort n f) := by
  refine .of_ports rfl rfl fun k w hw => ?_
  by_cases hk : k = n
  · subst hk
    rw [port_modPort] at hw
    exact h w hw
  · rw [port_modPort_ne _ _ _ _ hk] at hw
    exact .inl hw

theorem recorded_present {s t : State} {n : PortId} {op : PortOp} {addr beats : Nat} {qos : Fin 4} {record : Bool} {o : Owner}
    {w : List (Nat × Byte)} (h : s.present n op addr beats qos record o w = some t) : Recorded s t := by
  unfold State.present at h
  split at h
  · cases h
  · cases h
    exact recorded_modPort fun w hw => .inl hw

theorem recorded_await (s : State) (n : PortId) (id : Nat) : Recorded s (s.await n (.record id)) :=
  recorded_modPort fun w hw => by
    dsimp only at hw
    split at hw
    · exact .inl hw
    · exact (List.mem_append.mp hw).imp_right fun h => ⟨id, List.mem_singleton.mp h⟩

theorem recorded_modRecord (s : State) (id : Nat) (f : PendRec → PendRec) : Recorded s (s.modRecord id f) := .of_eq rfl rfl rfl

theorem recorded_presentRecord (s : State) (r : PendRec) (n : PortId) (pa : Nat) : Recorded s (s.presentRecord r n pa) := by
  unfold State.presentRecord
  dsimp only
  split
  · exact recorded_await s n r.id
  · rename_i s1 h1
    split
    · exact recorded_await s n r.id
    · rename_i s2 h2
      exact ((recorded_present h1).trans (recorded_present h2)).trans (recorded_modRecord _ _ _)

theorem recorded_presentRecordWalk (s : State) (r : PendRec) (n : PortId) (w : WalkSt) : Recorded s (s.presentRecordWalk r n w) := by
  unfold State.presentRecordWalk
  split
  · rename_i t ht
    exact (recorded_present ht).trans (recorded_modRecord _ _ _)
  · exact (recorded_modRecord _ _ _).trans (recorded_await _ n r.id)

/-- COMMITTED without its record leaves other partitions and the ports. -/
theorem commitStep_others {s : State} {p : PartId} {r : RunSt} {x : StepRec} (hr : (s.part p).run = some r) (hx : s.step? r.aseq = some x)
    (hc : r.phase = .commit) : (∀ k, k ≠ p → (s.commitStep p false).part k = s.part k) ∧ (s.commitStep p false).ports = s.ports := by
  obtain ⟨st, j, qs, ew, -⟩ := commitWritten_eq s r x
  obtain ⟨hfreed, ks, rt, ls, pt, ec, -⟩ := closeRun_charge (s.commitWritten r x) p x.queue (r.cores.length * r.tokenCclk) false r
  rw [commitStep_eq hr hx hc]
  have hports : (((s.commitWritten r x).charge p x.queue (r.cores.length * r.tokenCclk) false).closeRun p r).ports = s.ports := by
    rw [ec, ew]
  have hparts : ∀ k, k ≠ p →
      (((s.commitWritten r x).charge p x.queue (r.cores.length * r.tokenCclk) false).closeRun p r).part k = s.part k :=
    fun k hk => (hfreed.parts k hk).trans (by rw [ew]; rfl)
  generalize ((s.commitWritten r x).charge p x.queue (r.cores.length * r.tokenCclk) false).closeRun p r = u at hports hparts ⊢
  have hcounted : (u.commitCounted p r x).ports = u.ports ∧ ∀ k, k ≠ p → (u.commitCounted p r x).part k = u.part k :=
    ⟨rfl, fun k hk => part_modPart_ne u p k _ hk⟩
  generalize u.commitCounted p r x = v at hcounted ⊢
  obtain ⟨l, f, c, rt', w, xl, es⟩ := aftermath_commitSent v p r x
  obtain ⟨⟨st', ss, ed⟩, -⟩ := dropStep_eq (v.commitSent p r x) r.aseq
  obtain ⟨l', f', c', rt'', w', xl', ea⟩ := aftermath_settleSeason ((v.commitSent p r x).dropStep r.aseq)
  rw [ea, ed, es]
  exact ⟨fun k hk => (hcounted.2 k hk).trans (hparts k hk), hcounted.1.trans hports⟩

theorem recorded_commitStep (s : State) (p : PartId) : Recorded s (s.commitStep p false) := by
  cases hr : (s.part p).run with
  | none =>
    unfold State.commitStep
    rw [hr]
    exact .refl s
  | some r =>
    cases hx : s.step? r.aseq with
    | none =>
      unfold State.commitStep
      rw [hr]
      dsimp only
      rw [hx]
      exact .refl s
    | some x =>
      by_cases hc : r.phase = .commit
      · obtain ⟨hover, -, -, hnext, -⟩ := commitStep_spec hr hx hc
        obtain ⟨hothers, hports⟩ := commitStep_others hr hx hc
        refine ⟨hnext, fun k => ?_, fun n w hw => .inl (by rwa [State.port, hports] at hw)⟩
        by_cases hk : k = p
        · rw [hk]
          exact .inr hover
        · rw [hothers k hk]
          exact .inl rfl
      · unfold State.commitStep
        rw [hr]
        dsimp only
        rw [hx]
        dsimp only
        rw [if_pos hc]
        exact .refl s

theorem recorded_recordFail (s : State) (r : PendRec) : Recorded s (s.recordFail r) := by
  obtain ⟨qs, l, f, c, e, -⟩ := stopQueue_eq ({ s with
    records := s.records.filter (fun x => x.id ≠ r.id), start := { s.start with mwTest := none } }) r.queue
  unfold State.recordFail
  dsimp only
  rw [e]
  split
  · exact (Recorded.of_eq (by exact rfl) (by exact rfl) (by exact rfl)).trans (recorded_commitStep _ r.part)
  · exact .of_eq rfl rfl rfl

theorem recorded_stewardLookup {s t : State} {cl : ClusterId} {ast va : Nat} {l : Leaf} (h : s.stewardLookup cl ast va = some (l, t)) :
    Recorded s t := by
  unfold State.stewardLookup at h
  split at h
  · cases h
    exact .refl s
  · split at h
    · cases h
      exact .of_eq rfl rfl rfl
    · cases h

theorem recorded_countRange (s : State) (f : XFault) : Recorded s (s.countRange f) := by
  unfold State.countRange
  split <;> exact .of_eq rfl rfl rfl

theorem recorded_countParity (s : State) (n : Nat) : Recorded s (s.countParity n) := by
  unfold State.countParity
  split <;> exact .of_eq rfl rfl rfl

theorem recorded_countWalk (s : State) : Recorded s s.countWalk := .of_eq rfl rfl rfl

theorem recorded_stewardParity (s : State) (cl : ClusterId) (ast va : Nat) : Recorded s (s.stewardParity cl ast va) := by
  unfold State.stewardParity
  dsimp only
  split
  · exact (Recorded.of_eq (by exact rfl) (by exact rfl) (by exact rfl)).trans (recorded_countParity _ 1)
  · exact .refl s

theorem recorded_tableParity (s : State) (cl : ClusterId) (ast va : Nat) : Recorded s (s.tableParity cl ast va) := by
  unfold State.tableParity
  dsimp only
  split
  · exact .refl s
  · exact (Recorded.of_eq (by exact rfl) (by exact rfl) (by exact rfl)).trans (recorded_countParity _ _)

/-- Sending one record. -/
theorem recorded_driveRecord (s : State) (id : Nat) : Recorded s (s.driveRecord id) := by
  unfold State.driveRecord
  split
  · exact .refl s
  · rename_i r _
    dsimp only
    split
    · exact .of_eq rfl rfl rfl
    · split
      · exact .refl s
      · split
        · split
          · exact .refl s
          · exact recorded_presentRecordWalk s r _ _
        · have hparity := (recorded_stewardParity s (s.partPort r.part) r.ast r.va).trans
            (recorded_tableParity _ (s.partPort r.part) r.ast r.va)
          refine hparity.trans ?_
          generalize (s.stewardParity (s.partPort r.part) r.ast r.va).tableParity (s.partPort r.part) r.ast r.va = u
          split
          · rename_i l t ht
            refine (recorded_stewardLookup ht).trans ?_
            split
            · exact recorded_recordFail t r
            · exact recorded_presentRecord t r _ _
          · split
            · exact .refl u
            · split
              · exact (recorded_countRange u _).trans (recorded_recordFail _ r)
              · exact (recorded_countWalk u).trans (recorded_presentRecordWalk _ r _ _)

theorem recorded_driveRecords (s : State) : Recorded s s.driveRecords :=
  .foldl (f := fun s (r : PendRec) => s.driveRecord r.id) (fun s r => recorded_driveRecord s r.id) s.records s

/-! ### The arbiter among records (R293) -/

/-- The arbiter picks one of those that wait. -/
theorem mem_order_of_pickWaiter {s : State} {n : PortId} {tried : List Waiter} {w : Waiter} {i : Nat}
    (h : s.pickWaiter n tried = some (w, i)) : w ∈ (s.port n).order := by
  have hwaits : ∀ x ∈ ((s.port n).order.filter (· ∉ tried)).filterMap (fun w => (s.waiterQos w).map (fun q => (w, q))),
      x.1 ∈ (s.port n).order := by
    intro x hx
    obtain ⟨v, hv, hmap⟩ := List.mem_filterMap.mp hx
    obtain ⟨q, -, rfl⟩ := Option.map_eq_some_iff.mp hmap
    exact (List.mem_filter.mp hv).1
  unfold State.pickWaiter at h
  dsimp only at h
  split at h
  · rename_i x hx
    cases h
    exact hwaits _ (List.mem_of_find?_eq_some hx)
  · split at h
    · cases h
    · obtain ⟨x, hx, e⟩ := Option.map_eq_some_iff.mp h
      cases e
      exact hwaits _ (List.mem_of_find?_eq_some hx)

/-- Where only records wait, only records are sent. -/
theorem recorded_wakeN {n : PortId} (k : Nat) {s : State} (h : ∀ w ∈ (s.port n).order, ∃ id, w = .record id) (tried : List Waiter) :
    Recorded s (s.wakeN n k tried) := by
  induction k generalizing s tried with
  | zero => exact .refl s
  | succ k ih =>
    rw [State.wakeN]
    split
    · exact .refl s
    · rename_i w turn hpick
      obtain ⟨id, rfl⟩ := h w (mem_order_of_pickWaiter hpick)
      have hserved : Recorded s ((s.modPort n (fun p => { p with order := p.order.erase (.record id) })).serveWaiter (.record id)) :=
        .trans (recorded_modPort fun v hv => .inl (List.mem_of_mem_erase hv)) (recorded_driveRecord _ id)
      generalize (s.modPort n (fun p => { p with order := p.order.erase (.record id) })).serveWaiter (.record id) = t at hserved ⊢
      have hrecords : ∀ w ∈ (t.port n).order, ∃ id, w = .record id := fun w hw => (hserved.waits n w hw).elim (h w) fun e => e
      dsimp only
      split
      · refine (hserved.trans (recorded_modPort fun v hv => .inr (h v hv))).trans (ih (fun v hv => h v ?_) _)
        rwa [port_modPort] at hv
      · refine (hserved.trans (recorded_modPort fun v hv => .inl hv)).trans (ih (fun v hv => hrecords v ?_) _)
        rwa [port_modPort] at hv

theorem recorded_wakePort {s : State} {n : PortId} (h : ∀ w ∈ (s.port n).order, ∃ id, w = .record id) : Recorded s (s.wakePort n) :=
  (recorded_wakeN _ h []).trans (recorded_driveRecords _)

/-! ### The last read-back flush (R251, R253) -/

/-- The last read-back flush of a run opens its commit phase, which its record's fate may end at once. -/
theorem exec_portFlushDone_last {s : State} {n : PortId} {id : Byte} {x : Txn} {p : PartId} {r : RunSt} {k : StepRec}
    (hn : n.val < s.build.c) (hcarries : s.portCarries n = true) (hx : s.txn? n id = some x) (hqos : x.qos ≠ 3) (hop : x.op = .flush)
    (horder : (s.port n).order = []) (hr : (s.part p).run = some r) (hk : s.step? r.aseq = some k) (howner : x.owner = .dataFlush p)
    (hphase : r.phase = .flushing [] 1) : ∃ t, exec (.portFlushDone n id) s = .next t ∧ t.nextRec = s.nextRec + 1 ∧
      ((t.part p).run = some { r with phase := .commit } ∨ (t.part p).run = none) := by
  have hback : s.flushBack p = (s.withRun p { r with phase := .flushing [] 0 }).openCommit p := by
    unfold State.flushBack
    rw [hr]
    dsimp only
    rw [hphase]
    rfl
  have hrun : ((s.withRun p { r with phase := .flushing [] 0 }).part p).run = some { r with phase := .flushing [] 0 } := by
    rw [part_withRun]
  obtain ⟨z, e, -⟩ := openCommit_eq hrun (show (s.withRun p { r with phase := .flushing [] 0 }).step? r.aseq = some k from hk)
  rw [exec_portFlushDone, execPortFlushDone, response_open _ _ hn hcarries hx (decide_eq_true hop), rtLateness_besteffort hqos, howner]
  dsimp only
  rw [hback, e]
  obtain ⟨hcommit, -, -⟩ := part_committing (s.withRun p { r with phase := .flushing [] 0 }) p { r with phase := .flushing [] 0 }
  have hopen : ((s.withRun p { r with phase := .flushing [] 0 }).committing p { r with phase := .flushing [] 0 }).nextRec = s.nextRec ∧
    ((s.withRun p { r with phase := .flushing [] 0 }).committing p { r with phase := .flushing [] 0 }).ports = s.ports := ⟨rfl, rfl⟩
  generalize (s.withRun p { r with phase := .flushing [] 0 }).committing p { r with phase := .flushing [] 0 } = u at hcommit hopen ⊢
  obtain ⟨hnext, hports⟩ := hopen
  have hsent : Recorded (u.noted z) ((u.noted z).driveRecords.dropTxn n id) :=
    (recorded_driveRecords _).trans (recorded_modPort fun _ hw => .inl hw)
  have honly : ∀ w ∈ (((u.noted z).driveRecords.dropTxn n id).port n).order, ∃ id, w = .record id := fun w hw => by
    refine (hsent.waits n w hw).elim (fun h => ?_) fun e => e
    rw [show (u.noted z).port n = s.port n by exact congrArg (fun ps : Vector Port 4 => ps[n.val]) hports, horder] at h
    exact absurd h List.not_mem_nil
  obtain ⟨hnext', hruns, -⟩ := hsent.trans (recorded_wakePort honly)
  refine ⟨_, rfl, hnext'.trans (congrArg (· + 1) hnext), ?_⟩
  exact (hruns p).imp_left fun h => h.trans hcommit

end Sys2Proof.Machine

/-!
PROOFS. What the commands of the streams leave alone while they go on: the records, the counts of read bytes, and the translations
that a stream's cache holds with good parity (R310, R313).
-/
namespace Sys2Proof.Machine
open Sys2Proof.Safety

/-! ### Translations that stay -/

/-- Translations of the streams stay, but for entries whose parity fails; so do records and the counts of read bytes. -/
structure LeavesKept (s t : State) : Prop where
  records : t.records = s.records
  read : ∀ k : PortId, (t.port k).bytesRead = (s.port k).bytesRead
  wf : Tab.wf [] s.xlate.streams = true → Tab.wf [] t.xlate.streams = true
  leaves : Tab.wf [] s.xlate.streams = true → ∀ k (l : Leaf), l.parity = false → l ∈ Tab.get [] s.xlate.streams k →
    l ∈ Tab.get [] t.xlate.streams k

theorem LeavesKept.of_streams {s t : State} (hrecords : t.records = s.records)
    (hread : ∀ k : PortId, (t.port k).bytesRead = (s.port k).bytesRead)
    (hstreams : t.xlate.streams = s.xlate.streams) : LeavesKept s t :=
  ⟨hrecords, hread, fun h => by rwa [hstreams], fun _ k l _ hl => by rwa [hstreams]⟩

theorem LeavesKept.of_eq {s t : State} (hrecords : t.records = s.records) (hports : t.ports = s.ports)
    (hstreams : t.xlate.streams = s.xlate.streams) : LeavesKept s t :=
  .of_streams hrecords (fun k => by rw [State.port, State.port, hports]) hstreams

theorem LeavesKept.refl (s : State) : LeavesKept s s := .of_eq rfl rfl rfl

theorem LeavesKept.trans {s t u : State} (h : LeavesKept s t) (g : LeavesKept t u) : LeavesKept s u :=
  ⟨g.records.trans h.records, fun k => (g.read k).trans (h.read k), fun hwf => g.wf (h.wf hwf),
    fun hwf k l hl hin => g.leaves (h.wf hwf) k l hl (h.leaves hwf k l hl hin)⟩

theorem LeavesKept.foldl {α : Type} {f : State → α → State} (hf : ∀ s a, LeavesKept s (f s a)) (xs : List α) (s : State) :
    LeavesKept s (xs.foldl f s) := by
  induction xs generalizing s with
  | nil => exact .refl s
  | cons a xs ih => exact (hf s a).trans (ih (f s a))

theorem EccLogged.leavesKept {s t : State} (h : EccLogged s t) : LeavesKept s t := by
  obtain ⟨d, sc, l, h, n, i, rfl⟩ := h
  exact .of_eq rfl rfl rfl

theorem leavesKept_modCore (s : State) (c : CoreId) (f : Core → Core) : LeavesKept s (s.modCore c f) := .of_eq rfl rfl rfl

theorem leavesKept_modHead (s : State) (c : CoreId) (t : Fin 8) (g : DmaFlight → DmaFlight) : LeavesKept s (s.modHead c t g) :=
  leavesKept_modCore s c _

theorem leavesKept_modPart (s : State) (p : PartId) (f : Partition → Partition) : LeavesKept s (s.modPart p f) := .of_eq rfl rfl rfl

theorem leavesKept_modPort {s : State} {n : PortId} {f : Port → Port} (h : (f (s.port n)).bytesRead = (s.port n).bytesRead) :
    LeavesKept s (s.modPort n f) :=
  .of_streams rfl (fun k => by
    rw [port_modPort_eq]
    split
    · rename_i hk
      rw [hk, h]
    · rfl) rfl

/-! ### Runs that stop -/

theorem leavesKept_of_runs {s t : State} {p : PartId} (hkilled : RunsKilled s t) (hleft : RunLeft s t p) : LeavesKept s t := by
  obtain ⟨ks, ps, po, d, sc, l, h, n, i, rfl⟩ := hkilled
  obtain ⟨g, hg⟩ := hleft.ports
  exact .of_streams rfl (fun k => by rw [hg]; rfl) rfl

theorem leavesKept_stopRun (s : State) (p : PartId) (why : StopWhy) : LeavesKept s (s.stopRun p why) :=
  leavesKept_of_runs (runsKilled_stopRun s p why) (runLeft_stopRun s p why)

theorem leavesKept_killRun (s : State) (p : PartId) (cause : Byte) : LeavesKept s (s.killRun p cause) :=
  leavesKept_of_runs (runsKilled_killRun s p cause) (runLeft_killRun s p cause)

theorem leavesKept_failCore (s : State) (c : CoreId) (status : Byte) (detail : Nat) : LeavesKept s (s.failCore c status detail) := by
  unfold State.failCore
  split
  · exact leavesKept_stopRun s _ _
  · exact .refl s

theorem leavesKept_streamFault (s : State) (c : CoreId) (t : Fin 8) (ast addr : Nat) (a : Access) (f : XFault) :
    LeavesKept s (s.streamFault c t ast addr a f) := by
  unfold State.streamFault
  split
  · exact .refl s
  · exact (LeavesKept.of_eq (by exact rfl) (by exact rfl) (by exact rfl)).trans (leavesKept_stopRun (s.reportFault _ _ _) _ _)

theorem leavesKept_modFault (s : State) (f : FaultSt → FaultSt) : LeavesKept s (s.modFault f) := .of_eq rfl rfl rfl

theorem leavesKept_rtFault (s : State) (code : Nat) (core : Option CoreId) (detail : Nat) : LeavesKept s (s.rtFault code core detail) := by
  unfold State.rtFault
  dsimp only
  generalize eventRecord code core 0 detail s.now = r
  obtain ⟨l, e⟩ := forwardEvent_link (({ s with fault := { s.fault with
    rtFaults := Tab.put s.fault.rtFaults (s.fault.rtFaultNext.toNat % 16) r, rtFaultNext := s.fault.rtFaultNext + 1 } }).irq 1) r
  rw [e]
  exact .of_eq rfl rfl rfl

theorem leavesKept_lockstepKill (s : State) (p : PartId) (r : RunSt) : LeavesKept s (s.lockstepKill p r) := by
  have hnote : LeavesKept s (s.noteInterruption r) := by
    unfold State.noteInterruption
    split
    · exact .refl s
    · exact .of_eq rfl rfl rfl
  exact hnote.trans (leavesKept_killRun _ p 0x0A)

theorem leavesKept_mismatch (s : State) (i : Fin 2) : LeavesKept s (s.mismatch i) := by
  unfold State.mismatch
  dsimp only
  split
  · exact (((leavesKept_modFault s _).trans (leavesKept_rtFault _ 0x42 none _)).trans (leavesKept_lockstepKill _ _ _)).trans
      (leavesKept_modFault _ _)
  · exact .refl s

/-! ### Accesses to near and deep scratch (R179, R386) -/

theorem leavesKept_eccFail (s : State) (c : CoreId) (region loc : Nat) : LeavesKept s (s.eccFail c region loc) :=
  (eccLogged_eccUncorrectable s _ _ _ _).leavesKept.trans (leavesKept_failCore _ c 0x04 region)

theorem leavesKept_ownFail (s : State) (c : CoreId) (region : Nat) (loc : CoreId → Nat → Nat) (bad : List (CoreId × Nat)) :
    LeavesKept s (s.ownFail c region loc bad) := by
  have hlogged : LeavesKept s (bad.foldl (fun s x => s.eccUncorrectable region (loc x.1 x.2) (some x.1) 0) s) :=
    .foldl (fun s (x : CoreId × Nat) => (eccLogged_eccUncorrectable s region (loc x.1 x.2) (some x.1) 0).leavesKept) bad s
  unfold State.ownFail
  dsimp only
  refine hlogged.trans ?_
  split
  · split
    · exact leavesKept_failCore _ c 0x04 region
    · exact leavesKept_mismatch _ _
  · exact leavesKept_failCore _ c 0x04 region

theorem leavesKept_withNear (s : State) (c : CoreId) (spans : List Span) {f : State → State} (hf : ∀ s, LeavesKept s (f s)) :
    LeavesKept s (s.withNear c spans f) := by
  have hfix : LeavesKept s (s.fixNear c spans) := .foldl (fun s d => by
    split
    · exact .refl s
    · exact (leavesKept_modCore s d _).trans (eccLogged_eccFixed _ 0 _).leavesKept) _ s
  unfold State.withNear State.withOwn
  split
  · exact hfix.trans (hf _)
  · exact leavesKept_ownFail s c 0 nearLoc _

theorem leavesKept_withDeep (s : State) (c : CoreId) (rs : List (Nat × Nat)) {f : State → State} (hf : ∀ s, LeavesKept s (f s)) :
    LeavesKept s (s.withDeep c rs f) := by
  unfold State.withDeep
  split
  · exact leavesKept_eccFail s c 1 _
  · exact (eccLogged_fixDeep s rs).leavesKept.trans (hf _)

theorem leavesKept_goFeed (s : State) (c : CoreId) (tag : ReadTag) (fd : Feed) (put : Feed → Core → Core) :
    LeavesKept s (s.goFeed c tag fd put) := by
  unfold State.goFeed
  split
  · exact .refl s
  · exact leavesKept_withNear s c _ fun s => leavesKept_modCore s c _

/-! ### The expander (R321, R323) -/

theorem leavesKept_expandBlock (s : State) (c : CoreId) (t : Fin 8) : LeavesKept s (s.expandBlock c t) := by
  unfold State.expandBlock
  split
  · exact .refl s
  · split
    · refine .trans ?_ (leavesKept_failCore _ c 0x05 0)
      exact .trans (.of_eq (by exact rfl) (by exact rfl) (by exact rfl)) (eccLogged_health _ _ _ _ _).leavesKept
    · exact .of_eq rfl rfl rfl

theorem leavesKept_expandN (cl : ClusterId) (n : Nat) (s : State) : LeavesKept s (s.expandN cl n) := by
  induction n generalizing s with
  | zero => exact .refl s
  | succ n ih =>
    rw [State.expandN]
    split
    · exact .refl s
    · split
      · exact .trans (.trans (.of_eq (by exact rfl) (by exact rfl) (by exact rfl)) (leavesKept_expandBlock _ _ _)) (ih _)
      · exact .refl s

theorem leavesKept_expand (s : State) (c : CoreId) : LeavesKept s (s.expand c) := leavesKept_expandN _ _ s

/-! ### The source of a command (R169, R212) -/

theorem leavesKept_collect (s : State) (c : CoreId) (t : Fin 8) (p : PartId) (f : DmaFlight) (phase : Nat) (ps : List (Nat × Nat × Nat)) :
    LeavesKept s (s.collect c t p f phase ps) := by
  unfold State.collect
  split
  · split
    · exact leavesKept_failCore s c 0x03 0
    · exact leavesKept_withDeep s c _ fun s => leavesKept_modHead s c t _
  · exact leavesKept_modHead s c t _

theorem leavesKept_startDma (s : State) (c : CoreId) (t : Fin 8) : LeavesKept s (s.startDma c t) := by
  unfold State.startDma
  split
  · split
    · exact .refl s
    · split
      · dsimp only
        split
        · split
          · exact leavesKept_goFeed s c _ _ _
          · exact (leavesKept_goFeed s c _ _ _).trans (leavesKept_withNear _ c _ fun s => leavesKept_modHead s c t _)
        · exact leavesKept_goFeed s c _ _ _
      · dsimp only
        split
        · exact (leavesKept_modCore s c _).trans (leavesKept_collect _ c t _ _ _ _)
        · exact leavesKept_collect s c t _ _ _ _
  · exact .refl s

/-! ### Pieces (R303, R308, R311) -/

theorem leavesKept_present {s t : State} {n : PortId} {op : PortOp} {addr beats : Nat} {qos : Fin 4} {record : Bool} {o : Owner}
    {w : List (Nat × Byte)} (h : s.present n op addr beats qos record o w = some t) : LeavesKept s t := by
  unfold State.present at h
  split at h
  · cases h
  · cases h
    exact leavesKept_modPort rfl

theorem leavesKept_await (s : State) (n : PortId) (w : Waiter) : LeavesKept s (s.await n w) := leavesKept_modPort rfl

theorem leavesKept_dropTxn (s : State) (n : PortId) (id : Byte) : LeavesKept s (s.dropTxn n id) := leavesKept_modPort rfl

theorem leavesKept_presentWalk (s : State) (c : CoreId) (t : Fin 8) (qos : Fin 4) (w : WalkSt) :
    LeavesKept s (s.presentWalk c t qos w) := by
  unfold State.presentWalk
  split
  · rename_i u hu
    exact (leavesKept_present hu).trans (leavesKept_modHead u c t _)
  · exact (leavesKept_modHead s c t _).trans (leavesKept_await _ _ _)

theorem leavesKept_countStreamWalk (s : State) (c : CoreId) (rt : Bool) : LeavesKept s (s.countStreamWalk c rt) := by
  unfold State.countStreamWalk
  dsimp only
  split
  · exact .trans (.of_eq (by exact rfl) (by exact rfl) (by exact rfl)) (eccLogged_health _ _ _ _ _).leavesKept
  · exact .of_eq rfl rfl rfl

/-- The cache of one stream changes; no entry with good parity is lost. -/
theorem leavesKept_setStream {s t : State} (key : Nat) (ls : List Leaf) (hrecords : t.records = s.records) (hports : t.ports = s.ports)
    (hstreams : t.xlate.streams = Tab.set [] s.xlate.streams key ls)
    (hls : ∀ l : Leaf, l.parity = false → l ∈ Tab.get [] s.xlate.streams key → l ∈ ls) : LeavesKept s t := by
  refine ⟨hrecords, fun k => by rw [State.port, State.port, hports], fun hwf => ?_, fun hwf k l hl hin => ?_⟩
  · rw [hstreams]
    exact Tab.wf_set key ls hwf
  · rw [hstreams, Tab.get_set _ _ _ _ _ 0 (Tab.wf_rising hwf)]
    split
    · rename_i hk
      exact hls l hl (hk ▸ hin)
    · exact hin

theorem mem_dropFailed {ls : List Leaf} {l : Leaf} (hl : l.parity = false) (hin : l ∈ ls) (ast va : Nat) :
    l ∈ (dropFailed ls ast va).1 := by
  unfold dropFailed
  split
  · rename_i m _
    split
    · rename_i hm
      refine (List.mem_erase_of_ne fun e => ?_).mpr hin
      rw [e, hm] at hl
      cases hl
    · exact hin
  · exact hin

theorem leavesKept_streamParity (s : State) (c : CoreId) (t : Fin 8) (ast va : Nat) : LeavesKept s (s.streamParity c t ast va) := by
  unfold State.streamParity
  dsimp only
  split
  · exact leavesKept_setStream (streamKey c t) _ rfl rfl rfl fun l hl hin => mem_dropFailed hl hin ast va
  · exact .refl s

theorem leavesKept_tableParity (s : State) (cl : ClusterId) (ast va : Nat) : LeavesKept s (s.tableParity cl ast va) := by
  have hcount : ∀ (u : State) n, LeavesKept u (u.countParity n) := fun u n => by
    unfold State.countParity
    split <;> exact .of_eq rfl rfl rfl
  unfold State.tableParity
  dsimp only
  split
  · exact .refl s
  · exact .trans (.of_eq (by exact rfl) (by exact rfl) (by exact rfl)) (hcount _ _)

theorem mem_lookupLeaf {ls ms : List Leaf} {ast va : Nat} {m : Leaf} (h : lookupLeaf ls ast va = some (m, ms)) {l : Leaf} (hin : l ∈ ls) :
    l ∈ ms := by
  unfold lookupLeaf at h
  split at h
  · cases h
    by_cases e : l = m
    · exact e ▸ List.mem_cons_self
    · exact List.mem_cons_of_mem _ ((List.mem_erase_of_ne e).mpr hin)
  · cases h

theorem leavesKept_streamLookup {s u : State} {c : CoreId} {t : Fin 8} {rt : Bool} {ast va : Nat} {l : Leaf}
    (h : s.streamLookup c t rt ast va = some (l, u)) : LeavesKept s u := by
  unfold State.streamLookup at h
  split at h
  · cases h
    exact .refl s
  · split at h
    · cases h
      exact .refl s
    · split at h
      · rename_i m ms hm
        cases h
        exact leavesKept_setStream (streamKey c t) ms rfl rfl rfl fun l _ hin => mem_lookupLeaf hm hin
      · cases h

theorem leavesKept_hostPiece (s : State) (c : CoreId) (t : Fin 8) (x : StepRec) (f : DmaFlight) (g : Seg) :
    LeavesKept s (s.hostPiece c t x f g).1 := by
  have hparity := (leavesKept_streamParity s c t x.ast g.va).trans (leavesKept_tableParity _ (clusterOf c) x.ast g.va)
  unfold State.hostPiece
  dsimp only
  refine hparity.trans ?_
  generalize (s.streamParity c t x.ast g.va).tableParity (clusterOf c) x.ast g.va = u
  split
  · rename_i l v hv
    refine (leavesKept_streamLookup hv).trans ?_
    split
    · exact leavesKept_streamFault v c t _ _ _ _
    · split
      · exact leavesKept_await v _ _
      · rename_i w hw
        refine (leavesKept_present hw).trans ?_
        dsimp only
        split
        · exact (leavesKept_modHead w c t _).trans (leavesKept_modCore _ c _)
        · exact leavesKept_modHead w c t _
  · split
    · refine .trans ?_ (leavesKept_streamFault _ c t _ _ _ _)
      split
      · exact leavesKept_countStreamWalk u c _
      · exact .refl u
    · exact (leavesKept_countStreamWalk u c _).trans (leavesKept_presentWalk _ c t _ _)

theorem leavesKept_remotePiece (s : State) (c : CoreId) (t : Fin 8) (p : PartId) (f : DmaFlight) (g : Seg) (e w : Nat) :
    LeavesKept s (s.remotePiece c t p f g e w).1 := by
  unfold State.remotePiece
  dsimp only
  split
  · exact leavesKept_stopRun s p _
  · split
    · split <;> exact .of_eq rfl rfl rfl
    · exact .of_eq rfl rfl rfl

theorem leavesKept_pumpN (c : CoreId) (t : Fin 8) (n : Nat) (s : State) : LeavesKept s (s.pumpN c t n) := by
  induction n generalizing s with
  | zero => exact .refl s
  | succ n ih =>
    rw [State.pumpN]
    split
    · rename_i f p r x _ _
      split
      · split
        · exact .refl s
        · exact leavesKept_presentWalk s c t _ _
      · rename_i g _ _ _
        have hgo : ∀ y : State × Bool, LeavesKept s y.1 → LeavesKept s (if y.2 then y.1.pumpN c t n else y.1) := fun y hy => by
          split
          · exact hy.trans (ih _)
          · exact hy
        dsimp only
        split
        · exact hgo _ (leavesKept_remotePiece s c t p f g _ _)
        · exact hgo _ (leavesKept_hostPiece s c t x f g)
      · exact .refl s
    · exact .refl s

theorem leavesKept_pumpDma (s : State) (c : CoreId) (t : Fin 8) : LeavesKept s (s.pumpDma c t) := by
  unfold State.pumpDma
  split
  · exact leavesKept_pumpN c t _ s
  · exact .refl s

/-! ### Delivery and the drive of a stream (R159, R199) -/

theorem leavesKept_deliver (s : State) (c : CoreId) (t : Fin 8) (p : PartId) (x : StepRec) (f : DmaFlight) (rows : List (List Byte)) :
    LeavesKept s (s.deliver c t p x f rows) := by
  unfold State.deliver
  dsimp only
  split
  · exact leavesKept_modHead s c t _
  · split
    · exact leavesKept_failCore s c 0x03 0
    · exact (leavesKept_modHead s c t _).trans (leavesKept_modCore _ c _)
  · split
    · exact leavesKept_failCore s c 0x03 0
    · exact leavesKept_modHead s c t _
  · exact (leavesKept_modHead s c t _).trans (leavesKept_expand _ c)

theorem leavesKept_turnDma (s : State) (c : CoreId) (t : Fin 8) : LeavesKept s (s.turnDma c t) := by
  unfold State.turnDma
  split
  · split
    · exact .refl s
    · split
      · dsimp only
        split
        · exact leavesKept_failCore s c 0x05 0
        · exact leavesKept_collect s c t _ _ _ _
      · split
        · exact leavesKept_failCore s c 0x05 0
        · exact leavesKept_deliver s c t _ _ _ _
  · exact .refl s

theorem leavesKept_driveDma (s : State) (c : CoreId) (t : Fin 8) : LeavesKept s (s.driveDma c t) := by
  have hturn : ∀ u : State, LeavesKept u ((u.turnDma c t).pumpDma c t) :=
    fun u => (leavesKept_turnDma u c t).trans (leavesKept_pumpDma _ c t)
  have hbegin := ((leavesKept_expand s c).trans (leavesKept_startDma _ c t)).trans (leavesKept_pumpDma _ c t)
  exact (hbegin.trans (hturn _)).trans (hturn _)

/-! ### Waiters of a port (R293) -/

theorem leavesKept_driveFlush (s : State) (p : PartId) : LeavesKept s (s.driveFlush p) := by
  unfold State.driveFlush
  split
  · exact .refl s
  · rename_i r _
    split
    · rename_i todo left x _ _
      refine .trans ?_ (leavesKept_modPart _ p _)
      have hissue : ∀ (ns : List PortId) (a : State × List PortId × Nat), LeavesKept s a.1 → LeavesKept s (ns.foldl (fun a n =>
          match a.1.present n .flush 0 1 (qosOf x.rt x.cls) false (.dataFlush p) [] with
          | some s => (s, a.2.1, a.2.2 + 1)
          | none => (a.1.await n (.flush p), a.2.1 ++ [n], a.2.2)) a).1 := by
        intro ns
        induction ns with
        | nil => exact fun a ha => ha
        | cons n ns ih =>
          intro a ha
          refine ih _ ?_
          dsimp only
          split
          · rename_i u hu
            exact ha.trans (leavesKept_present hu)
          · exact ha.trans (leavesKept_await _ n _)
      exact hissue todo (s, [], left) (.refl s)
    · exact .refl s

/-- Without records, what waits at a port loses no translation when it goes on. -/
theorem leavesKept_serveWaiter {s : State} (hrecords : s.records = []) (w : Waiter) : LeavesKept s (s.serveWaiter w) := by
  cases w with
  | stream c t => exact leavesKept_driveDma s c t
  | flush p => exact leavesKept_driveFlush s p
  | record id =>
    change LeavesKept s (s.driveRecord id)
    unfold State.driveRecord
    rw [hrecords]
    exact .refl s

theorem leavesKept_wakeN {n : PortId} (k : Nat) {s : State} (hrecords : s.records = []) (tried : List Waiter) :
    LeavesKept s (s.wakeN n k tried) := by
  induction k generalizing s tried with
  | zero => exact .refl s
  | succ k ih =>
    rw [State.wakeN]
    split
    · exact .refl s
    · rename_i w turn _
      have hserved : LeavesKept s ((s.modPort n (fun p => { p with order := p.order.erase w })).serveWaiter w) :=
        .trans (leavesKept_modPort rfl) (leavesKept_serveWaiter (by exact hrecords) w)
      generalize (s.modPort n (fun p => { p with order := p.order.erase w })).serveWaiter w = t at hserved ⊢
      have hnone : t.records = [] := hserved.records.trans hrecords
      dsimp only
      split
      · exact (hserved.trans (leavesKept_modPort rfl)).trans (ih (by exact hnone) _)
      · exact (hserved.trans (leavesKept_modPort rfl)).trans (ih (by exact hnone) _)

theorem leavesKept_wakePort {s : State} (hrecords : s.records = []) (n : PortId) : LeavesKept s (s.wakePort n) := by
  have hwoken := leavesKept_wakeN (n := n) ((s.port n).order.length + 8) hrecords []
  rw [State.wakePort, driveRecords_nil (hwoken.records.trans hrecords)]
  exact hwoken

/-! ### The leaf of a stream's walk (R305, R310) -/

/-- A leaf that a walk reads has good parity. -/
theorem parity_of_walkRead {w : WalkSt} {pte err : Nat} {l : Leaf} (h : walkRead w pte err = .leaf l) : l.parity = false := by
  unfold walkRead at h
  dsimp only at h
  split at h
  · cases h
  · split at h
    · cases h
    · split at h
      · cases h
      · split at h
        · split at h <;> cases h
        · split at h
          · cases h
          · split at h
            · cases h
            · cases h
              rfl

/-- A leaf is in the stream's cache from there on. -/
theorem mem_streamInsert {s : State} (hwf : Tab.wf [] s.xlate.streams = true) (c : CoreId) (t : Fin 8) (l : Leaf) :
    Tab.wf [] (s.streamInsert c t l).xlate.streams = true ∧ l ∈ Tab.get [] (s.streamInsert c t l).xlate.streams (streamKey c t) := by
  unfold State.streamInsert
  dsimp only
  refine ⟨Tab.wf_set _ _ hwf, ?_⟩
  rw [Tab.get_set _ _ _ _ _ 0 (Tab.wf_rising hwf), if_pos rfl, insertLeaf]
  exact List.mem_cons_self

/-- The last entry of a stream's walk is cached for the stream (R308, R310). -/
theorem exec_pageWalkReadReturn_leaf {s : State} {n : PortId} {c : CoreId} {st : Fin 8} {id : Byte} {x : Txn} {f : DmaFlight} {p : PartId}
    {r : RunSt} {y : StepRec} {w : WalkSt} {l : Leaf} (hn : n.val < s.build.c) (hcarries : s.portCarries n = true)
    (hx : s.txn? n id = some x) (hqos : x.qos ≠ 3) (hrecords : s.records = []) (hf : s.dmaHead c st = some f)
    (hstep : s.stepOf c = some (p, r, y)) (beat : Beat) (hop : x.op = .read) (hbeats : x.beats = 1)
    (howner : x.owner = .walkStream c st) (hwalk : f.walk = some w) (hrestart : w.restart = false)
    (hleaf : walkRead w (leAt (leBytes 64 beat.toNat) (w.entry % 64) 8) 0 = .leaf l) (hwf : Tab.wf [] s.xlate.streams = true) :
    ∃ t, exec (.pageWalkReadReturn n id 0 beat) s = .next t ∧ (t.port n).bytesRead = (s.port n).bytesRead + 64 ∧
      l ∈ Tab.get [] t.xlate.streams (streamKey c st) := by
  generalize hu : ((s.modPort n (Port.readMore 64)).modHead c st (fun f => { f with walk := none })).streamInsert c st l = u
  have hback : (s.modPort n (Port.readMore 64)).readBack n (.walkStream c st) (leBytes 64 beat.toNat) = u.driveDma c st := by
    unfold State.readBack State.walkStreamBack
    dsimp only
    rw [show (s.modPort n (Port.readMore 64)).dmaHead c st = some f from hf,
      show (s.modPort n (Port.readMore 64)).stepOf c = some (p, r, y) from hstep]
    dsimp only
    rw [hwalk]
    dsimp only
    rw [hrestart, if_neg Bool.false_ne_true, hleaf, ← hu]
  have hcached : Tab.wf [] u.xlate.streams = true ∧ l ∈ Tab.get [] u.xlate.streams (streamKey c st) := by
    rw [← hu]
    exact mem_streamInsert hwf c st l
  have hread : (u.port n).bytesRead = (s.port n).bytesRead + 64 := by
    have hport : (s.modPort n (Port.readMore 64)).port n = (s.port n).readMore 64 := port_modPort ..
    rw [State.port, show u.ports = (s.modPort n (Port.readMore 64)).ports by rw [← hu]; rfl]
    exact congrArg Port.bytesRead hport
  have hnone : u.records = [] := by
    rw [← hu]
    exact hrecords
  have hdriven : LeavesKept u ((u.driveDma c st).dropTxn n id) := (leavesKept_driveDma u c st).trans (leavesKept_dropTxn _ n id)
  obtain ⟨-, hcount, -, hkept⟩ := hdriven.trans (leavesKept_wakePort (hdriven.records.trans hnone) n)
  rw [execPageWalkReadReturn_open hn hcarries hx hqos beat hop hbeats, howner, hback]
  exact ⟨_, rfl, (hcount n).trans hread, hkept hcached.1 _ l (parity_of_walkRead hleaf) hcached.2⟩

end Sys2Proof.Machine

/-!
PROOFS. Responses on a memory port (R284, R286, R287, R288, R295, R308, R316): `port_responses`.
-/
namespace Sys2Proof.Machine
open Sys2Proof.Safety

/-- A piece of a command is over: its port counts it, its command has it, nothing else has changed. -/
theorem modHead_dropTxn_leaves {s : State} {n : PortId} {c : CoreId} {st : Fin 8} {f : DmaFlight} (hf : s.dmaHead c st = some f)
    (g : Port → Port) (h : DmaFlight → DmaFlight) (id : Byte) :
    let t := ((s.modPort n g).modHead c st h).dropTxn n id
    t.ports = upd s.ports n (fun q => dropFrom (g q) id) ∧ t.dmaHead c st = some (h f) ∧ (∀ d, d ≠ c → t.core d = s.core d) ∧
      (t.core c).s = (s.core c).s ∧ (t.core c).near = (s.core c).near ∧ t.parts = s.parts := by
  have hhead := (dmaHead_modHead (s := s.modPort n g) hf h c st).trans (if_pos ⟨rfl, rfl⟩)
  obtain ⟨ds, hcore⟩ : ∃ ds, (((s.modPort n g).modHead c st h).dropTxn n id).core c = { s.core c with dma := ds } :=
    ⟨_, core_modCore (s.modPort n g) c _⟩
  refine ⟨?_, hhead, fun d hd => core_modCore_ne _ _ _ _ hd, by rw [hcore], by rw [hcore], rfl⟩
  exact congrArg State.ports (modPort_modPort s n g (fun q => dropFrom q id))

section
variable {s : State} {n : PortId} (id : Byte) (beat : Beat) (last : Bool)

theorem responses_absent (h : s.build.c ≤ n.val) : exec (.portReadData n id beat last) s = .refused .absentPart ∧
    exec (.portWriteAck n id) s = .refused .absentPart := by
  refine ⟨?_, ?_⟩
  · rw [exec_portReadData, execPortReadData, response_absent _ _ h]
  · rw [exec_portWriteAck, execPortWriteAck, response_absent _ _ h]

theorem responses_foreign (hn : n.val < s.build.c) (hcarries : s.portCarries n = true) (h : s.txn? n id = none) :
    exec (.portReadData n id beat last) s = .fault .foreignResponse ∧ exec (.portWriteAck n id) s = .fault .foreignResponse ∧
      exec (.portFlushDone n id) s = .fault .foreignResponse ∧ exec (.pageWalkReadReturn n id 0 beat) s = .fault .foreignResponse ∧
      exec (.portErrorResponse n id 1) s = .fault .foreignResponse := by
  refine ⟨?_, ?_, ?_, ?_, ?_⟩
  · rw [exec_portReadData, execPortReadData, response_foreign _ _ hn hcarries h]
  · rw [exec_portWriteAck, execPortWriteAck, response_foreign _ _ hn hcarries h]
  · rw [exec_portFlushDone, execPortFlushDone, response_foreign _ _ hn hcarries h]
  · rw [exec_pageWalkReadReturn, execPageWalkReadReturn, response_foreign _ _ hn hcarries h]
  · rw [exec_portErrorResponse, execPortErrorResponse, response_foreign _ _ hn hcarries h]

theorem responses_idle (hn : n.val < s.build.c) (h : s.portCarries n = false) : exec (.portReadData n id beat last) s = .next s ∧
    exec (.portWriteAck n id) s = .next s ∧ exec (.portFlushDone n id) s = .next s := by
  refine ⟨?_, ?_, ?_⟩
  · rw [exec_portReadData, execPortReadData, response_idle _ _ hn h]
  · rw [exec_portWriteAck, execPortWriteAck, response_idle _ _ hn h]
  · rw [exec_portFlushDone, execPortFlushDone, response_idle _ _ hn h]

end

/-- Settles O40: what a response reaches and what it leaves of what waits there, by the lemma of each response. -/
theorem portResponses : Obligations.port_responses := by
  unfold Obligations.port_responses
  intro s n id
  refine ⟨fun x c st hn hcarries hx hqos hidle => ⟨fun beat hop hmore => ?_,
      fun beat seq off len lead f m hop hend howner hf hseq hphase hopen htodo hwalk => ?_,
      fun beat f w p r y hop hbeats howner hf hwalk hrestart hstep hphase => ⟨fun hinvalid => ?_, fun l hleaf hwf => ?_⟩,
      fun seq off len lead f m hop howner hf hseq hexp hphase hopen htodo hwalk => ?_,
      fun p r m _ hop howner hrun hphase => ?_,
      fun err herr => ⟨fun seq off len lead f p r y howner hf hseq hstep hphase => ?_, fun howner _ => ?_⟩⟩,
    fun x p r y k hn hcarries hx hqos hop horder hrun hstep haseq => ⟨fun howner hrecords hphase => ?_,
      fun howner hrecords hwritten hcommits hpart hphase => ?_⟩,
    fun beat last habsent => responses_absent id beat last habsent,
    fun beat last hn hcarries hnone => responses_foreign id beat last hn hcarries hnone,
    fun beat last hn hdown => responses_idle id beat last hn hdown⟩
  · exact execPortReadData_beat hn hcarries hx hqos beat hop hmore
  · subst hseq
    obtain ⟨hports, hhead, hkept⟩ := modHead_dropTxn_leaves (n := n) hf (Port.readMore 64)
      (DmaFlight.took off (((x.rdata ++ leBytes 64 beat.toNat).drop lead).take len)) id
    refine ⟨_, exec_portReadData_dma hn hcarries hx hqos hidle hf hop beat hend howner hphase (by omega) htodo hwalk, hports, ?_, hkept⟩
    rw [hhead, DmaFlight.took, hopen]
    rfl
  · exact exec_pageWalkReadReturn_invalid hn hcarries hx hqos hidle.order hidle.records hf hstep hphase beat hop hbeats howner hwalk
      hrestart hinvalid
  · exact exec_pageWalkReadReturn_leaf hn hcarries hx hqos hidle.records hf hstep beat hop hbeats howner hwalk hrestart hleaf hwf
  · subst hseq
    obtain ⟨hports, hhead, hkept⟩ := modHead_dropTxn_leaves (n := n) hf (Port.wroteMore x.wdata.length) DmaFlight.acked id
    refine ⟨_, exec_portWriteAck_dma hn hcarries hx hqos hidle hf hop howner hexp hphase htodo hwalk, hports, ?_, hkept⟩
    rw [hhead, DmaFlight.acked, hopen]
    rfl
  · exact exec_portFlushDone_more hn hcarries hx hqos hidle.order hidle.records hop howner hrun hphase
  · subst hseq
    exact exec_portErrorResponse_dma hn hcarries hx hqos hidle.order hidle.records hf hstep hphase herr howner
  · obtain ⟨t, e, herrors, hcores, hsteps, hlogged, hirq⟩ :=
      exec_portErrorResponse_dropped hn hcarries hx hqos herr hidle.order hidle.records howner
    refine ⟨_, e, ?_, fun y hy => not_mem_dropTxn hy, hcores, hsteps, hlogged, hirq⟩
    rw [State.dropTxn, port_modPort]
    exact herrors
  · exact exec_portFlushDone_last hn hcarries hx hqos hop horder hrun hstep howner hphase
  · obtain ⟨t, e, hdone⟩ := exec_portFlushDone_record hn hcarries hx hqos hop horder hrun hstep haseq howner hrecords hwritten hcommits
      hpart hphase
    obtain ⟨j, hj, hjseq, hjstate, hjstatus⟩ := hdone.entry
    exact ⟨_, j, e, hdone.records, hdone.run, hdone.step, hdone.counted, hj, hjseq, hjstate, hjstatus, hdone.cword, hdone.idle⟩

end Sys2Proof.Machine
